-- ==== Sys2Proof/Word.lean ====
section
/-! DEFINITION. Words of the FL8: widths that the manual's registers and records use (R7, R8). -/

namespace Sys2Proof

/-- One byte of a memory or of a byte string. -/
abbrev Byte := BitVec 8

/-- A 32-bit register, instruction or list item. -/
abbrev W32 := BitVec 32

/-- A 64-bit word: the unit of records, descriptors and command arguments (R372). -/
abbrev W64 := BitVec 64

/-- A 128-bit frame value, the wide partial of R78. -/
abbrev W128 := BitVec 128

/-- One vector register of a signal core (R269). -/
abbrev V512 := BitVec 512

end Sys2Proof
end

