-- ==== Sys2Proof/Syntax.lean ====
section
/-! DEFINITION. The commands of the FL8: one constructor per row of spec/opcode_table.json, with
the operand types they carry. What happens OUTSIDE the block (a measurement, a verdict of the
physical logic, bytes of host memory or of the flash) comes in as an operand. -/

namespace Sys2Proof

/-- The path a Tacor command came on (R369): it fixes the issuer and where the result goes (R372). -/
inductive Src where
  /-- Mailbox window 0 (manager), 1–63 (tenant), 64 (radio firmware) and its slot 0–14. -/
  | mailbox (window slot : Nat)
  /-- A submission queue entry of a sleeve, with its TAG (R216). -/
  | subq (sleeve tag : Nat)
  /-- A PLDM OEM message of the BMC (R386). -/
  | sideband (tag : Nat)
  /-- A CONTROL packet of the fabric manager (R357) from device `dev` on port `port`. -/
  | fabric (port dev tag : Nat)
  deriving DecidableEq, Repr

/-- One Tacor command as it is served: its path, its argument words in the order of R372, and what
host memory (the staging range or the sleeve's host ranges) holds where an address argument with
bit 63 = 1 points. -/
structure Cmd where
  src : Src
  args : List W64
  hostData : List Byte := []
  deriving DecidableEq, Repr

/-- What the boot finds in the card and the silicon (R24, R26, R48, R49, R135, R422, R441). -/
structure BootObs where
  /-- LPDDR6 GiB per channel of RD0, RD1, ED0, ED1; 0 where the channels of the die differ. -/
  density : List Nat := [16, 16, 16, 16]
  /-- Channels 0–47 that fail training. -/
  channelFail : List Nat := []
  /-- Bonded stacks MD0–MD3 that fail training. -/
  stackFail : List Nat := []
  /-- Seams 0–12 that fail. -/
  seamFail : List Nat := []
  /-- Dies whose type code is not that of R14, with the code. -/
  types : List (Nat × Nat) := []
  /-- Readings [Mbeat/s] of the pace sensors in the check of R71 step 2: domain, and its sensors in order. -/
  sensors : List (Nat × List Nat) := []
  /-- Measured pace entries: (domain, index, pace in Mbeat/s, Tj). -/
  pace : List (Nat × Nat × Nat × Nat) := []
  /-- Units whose built-in test fails (unit numbers of R392). -/
  testFail : List Nat := []
  /-- Radio firmware starts within step 7. -/
  radioFw : Bool := true
  /-- The core rail is at or above 1.71 V when step 2 is reached. -/
  coreRailOk : Bool := true
  deriving DecidableEq, Repr

/-- The rails whose faults R452 handles. -/
inductive Rail where
  | serdes0v9 | serdes1v2 | vddqLp | io1v8
  deriving DecidableEq, Repr

/-- One domain's pace-sensor readings in Mbeat/s, in sensor order, and whether a pass or task of
the domain is in flight at the sample (R47, R52). -/
structure DomainReading where
  domain : Nat
  readings : List Nat
  active : Bool
  deriving DecidableEq, Repr

/-- What the power manager measures at the end of a 1 ms window, and what is scheduled in the next (R60). -/
structure EnergyObs where
  /-- Energy [µJ] that the die regulators measure at their inputs in the window, summed over all dies. -/
  inputs : Nat := 0
  /-- Energy [µJ] that the meters of the domains count in the window. -/
  draws : List (Nat × Nat) := []
  /-- Energy [mJ] drawn through VIN_CORE_A and VIN_CORE_B in the window (R448). -/
  rails : Nat × Nat := (0, 0)
  /-- Radio tasks that the slot plan in force places in the new window: task kind and cell type. -/
  planned : List (Nat × Nat) := []
  /-- Passes of the lease context in the new window: engine, task kind and cell type (R60). -/
  leasePasses : List (Nat × Nat × Nat) := []
  /-- Paced passes and tasks scheduled in the next 1 ms: domain, beats, and reference periods from their release
  tick to the following one (R53). -/
  scheduled : List (Nat × Nat × Nat) := []
  /-- Voltage indices that the power manager would grant to free domains: (domain, index). -/
  grants : List (Nat × Nat) := []
  deriving DecidableEq, Repr

/-- What a release tick is for: a pass of an engine's slot, or a radio task of a domain. -/
inductive TickTarget where
  | pass (engine slot : Nat)
  | radioTask (domain : Nat)
  deriving DecidableEq, Repr

/-- Where the silicon departs from the equations of a pass (R138–R144). Deltas of exact passes are in units of
2^U, those of windowed outputs in units of 2^L. -/
inductive PassError where
  /-- Δ(m, j) of data row m and column j is wrong by delta. -/
  | output (row col : Nat) (delta : Int)
  /-- C(m), what the checksum column emits. -/
  | checkColumn (row : Nat) (delta : Int)
  /-- P(j), what the checksum lane emits. -/
  | checkRow (col : Nat) (delta : Int)
  | corner (delta : Int)
  /-- What the residue lane of column j forms for data row m. -/
  | residue (row col : Nat) (delta : Int)
  /-- The anchor word of output (row, col) that a scale or anchor pass left (R109). -/
  | word (row col : Nat) (value : Nat)
  deriving DecidableEq, Repr

/-- What is observed at a pass boundary: where the array and its checker went wrong. -/
structure PassObs where
  errors : List PassError := []
  /-- The outputs completed after the next release tick (R57). -/
  late : Bool := false
  deriving DecidableEq, Repr

/-- A fault within a pass, before its boundary (R115, R146). -/
inductive PassFaultKind where
  | stall
  /-- Two copies of a duplicated unit differ; what the array gives where it is wrong. -/
  | duplicatedUnit (errors : List PassError)
  | seamRepair
  /-- A lane of the element engine and its shadow differ on a group of 256 outputs of a descriptor: the
  outputs (index, code) that the lanes and that the shadow lanes give wrong. -/
  | shadow (slot group : Nat) (lanes shadows : List (Nat × Nat))
  deriving DecidableEq, Repr

/-- What goes wrong in a referee pass (R150): in a matrix engine, by row of the chunk; in an element engine, the
outputs (index, code) that its lanes give wrong, and whether they agree with its shadow lanes. -/
structure RefereeObs where
  errors : List PassError := []
  lanes : List (Nat × Nat) := []
  shadowOk : Bool := true
  deriving DecidableEq, Repr

/-- One run of a fitting (R166, R170): where the array of an engine goes wrong, by product pass, the outputs (index,
code) that an element engine gives wrong, and, of a core or a built-in fitting, its beats and its result. -/
structure FitObs where
  errors : List (Nat × PassError) := []
  lanes : List (Nat × Nat) := []
  beats : Nat := 0
  result : List Byte := []
  deriving DecidableEq, Repr

/-- What the DRAM and LPDDR6 scrub finds in one frame (R159): words of 64 B with the number of their wrong symbols. -/
structure ScrubObs where
  /-- LOC code of the frame: 1 bonded, 2 LPDDR6. -/
  loc : Nat
  /-- The 24-bit FRAME number of R29. -/
  frame : Nat
  words : List (Nat × Nat)
  deriving DecidableEq, Repr

/-- One context placed on an engine: slot, base and size in MiB (R121, R185), after the eviction of the slot's context
where the place was freed by one (R187). -/
structure Place where
  engine : Nat
  slot : Nat
  base : Nat
  size : Nat
  evict : Bool := false
  deriving DecidableEq, Repr

/-- A descriptor of a context's feeder ring: the operation it carries out, the block of 256 columns of that
operation's output that it belongs to, and its words (R184). -/
structure Fed where
  op : Nat
  block : Nat
  words : List W64
  deriving DecidableEq, Repr

/-- A context as lowering leaves it (R184): partition size [MiB], the device addresses of its feeder, DMA and
element-engine rings, and the descriptors of one step for each; an element-engine descriptor with its operation. -/
structure Lowered where
  size : Nat
  fring : Nat
  dring : Nat
  ering : Nat
  feeder : List Fed := []
  dma : List (List W64) := []
  element : List (Nat × List W64) := []
  deriving DecidableEq, Repr

/-- What lowering gives a job (R184, R187): its contexts, the device addresses of its weight and state tensors, and the
pages that hold weights and are to lie in bonded DRAM. -/
structure LowerObs where
  contexts : List Lowered := []
  tensors : List (Nat × Nat) := []
  weights : List Nat := []
  deriving DecidableEq, Repr

/-- What another chip's share of a dot product shows before its products run (R84 step 1): the least and the greatest
scale-exponent sum of its blocks, and its own E. -/
structure ChipView where
  least : Option Int := none
  greatest : Option Int := none
  top : Option Int := none
  deriving DecidableEq, Repr

/-- What the other chips of a job bring to a step, by operation number (R84, R190, R342, R343): the views of the shares
of a MATMUL or CONV2D split over chips, a list by output element for each other chip; at the root chip of a REDUCE_CHIPS
the wide partials of each other chip; of a completed SCATTER_ADD the slots that have landed here, or with RELAXED 1 the
bytes that its atomics have left in the OUT tensor. -/
structure StepObs where
  views : List (Nat × List (List ChipView)) := []
  partials : List (Nat × List (List Byte)) := []
  slots : List (Nat × List (List Byte)) := []
  landed : List (Nat × List Byte) := []
  deriving DecidableEq, Repr

/-- How a snapshot drain ends (R200). -/
inductive DrainResult where
  | landed | targetLost | crcFailed
  deriving DecidableEq, Repr

/-- What the lining of a signal core shows on an instruction (R290, R291, R293). -/
inductive CoreCheck where
  /-- No mismatch. -/
  | ok
  /-- A corrected ECC error in local memory or the instruction store. -/
  | corrected
  /-- A mismatch; the replay passes. -/
  | replayPasses
  /-- A mismatch, and the replay fails again. -/
  | replayFails
  /-- The fetch meets an uncorrectable ECC error in the instruction store. -/
  | storeEcc
  deriving DecidableEq, Repr

/-- What the neural receiver on a leased engine gives for an allocation (R245): whether its pass has passed the lining's
check, the network time of its end [ns], and its LLRs, descrambled and rate-recovered. -/
structure LeaseResult where
  passed : Bool
  endNs : Nat
  llrs : List Byte
  deriving DecidableEq, Repr

/-- The HARQ combining of one allocation that a task does (R249, R250): the allocation's index in its slot
job, the LLRs of U2 at their places in the circular buffers (0 where RV sets none), those of the lease where it gives
some, and whether the entry's read fails ECC. -/
structure HarqTask where
  alloc : Nat
  llrs : List Byte
  u2l : Option LeaseResult := none
  eccFails : Bool := false
  deriving DecidableEq, Repr

/-- What a task works on (R249, R287, R291): the indices of its allocations in its slot job, and its HARQ combining. -/
structure TaskWork where
  allocs : List Nat := []
  harq : Option HarqTask := none
  deriving DecidableEq, Repr

/-- What the tasks of a slot job give for one allocation (R241): the descriptor that measured it, by PLAN_SEQ; its code
blocks, by queue and PLAN_SEQ of the descriptors that decoded them; what radio firmware found of their CRCs, and the
bytes that it wrote; an uncorrectable word in the ingress buffer of its IQ. -/
structure AllocResult where
  measured : Option Nat := none
  blocks : List (Nat × Nat) := []
  blocksFailed : Nat := 0
  crcOk : Bool
  dataBytes : Nat := 0
  iqBad : Bool := false
  deriving DecidableEq, Repr

/-- The end of a slot job's last task (R240, R246): DL symbols that were not ready, whether SRS weights of the lease stood
and passed their check, one result per allocation. -/
structure SlotDone where
  missed : Nat
  weights : Bool := false
  results : List AllocResult
  deriving DecidableEq, Repr

/-- How a unit of a radio die serves a descriptor (R57, R242, R283): its payload passes its CRC, its task completes after
its planned end, and what an equaliser measures: the two power sums of EVM, and the mean post-MMSE SINR as a ratio, none
where nothing is measured. -/
structure UnitObs where
  crcOk : Bool := true
  late : Bool := false
  evm : Option (Nat × Nat) := none
  sinr : Option (Nat × Nat) := none
  deriving DecidableEq, Repr

/-- What the slot planner gives for a slot (R286, R289): the list of each target, PLAN_SEQ and the core that pushes it,
and the planned beats of each core. Targets are those of `targetsOf`. -/
structure SlotPlan where
  lists : List (Nat × List (Nat × Nat)) := []
  beats : List (Nat × Nat) := []
  deriving DecidableEq, Repr

/-- Which ports an eye sample is for (R300, R333). -/
inductive PortFamily where
  | fronthaul | voravatra
  deriving DecidableEq, Repr

/-- A packet as it arrives on a Voravatra port (R338): header words W0–W3, payload and the payload's
CRC-32C as sent. -/
structure Packet where
  header : List W64
  payload : List Byte
  payloadCrc : W32
  deriving DecidableEq, Repr

/-- Why the management domain restarts (R377, R382): the DETAIL0 codes of TACOR_RESTART in R394. -/
inductive RestartCause where
  | watchdog | dispatcher | ecc | dicOrder
  deriving DecidableEq, Repr

/-- Why the CXL link goes down (R367, R455). -/
inductive LinkDownCause where
  | linkDown | hotReset | perst | refclk
  deriving DecidableEq, Repr

/-- How the replay of a stall suspect ends (R399). -/
inductive ReplayOutcome where
  /-- Its entries end on the original engine. -/
  | ended
  /-- It stalls again; R188 moves it to the engine and slot named, which could referee (R147). -/
  | stalledAgain (engine slot base size : Nat)
  /-- The moved suspect's entries end. -/
  | movedEnded
  /-- The moved suspect stalls again. -/
  | movedStalled
  deriving DecidableEq, Repr

/-- The three rings of a context slot (R124). -/
inductive RingKind where
  | feeder | dma | element
  deriving DecidableEq, Repr

/-- Who writes a register (R28, R361). -/
inductive RegWriter where
  /-- Tacor, to any register region. -/
  | tacor
  /-- Radio firmware or a host core running a context of sleeve 0. -/
  | radioFirmware
  /-- The host, to a BAR0 offset. -/
  | bar0
  /-- A host core running a context of the sleeve. -/
  | hostCore (core : Nat)
  deriving DecidableEq, Repr

/-- What a host core asks of a device address (R31), or of a host address (R208, R362). -/
inductive CoreAccess where
  | load (bytes : Nat)
  | store (data : List Byte)
  /-- 64-bit wrapping add, the atomic of the model's host cores. -/
  | atomicAdd (value : W64)
  /-- A load from host memory, with what the host returns, and a store to it. -/
  | hostLoad (data : List Byte)
  | hostStore (data : List Byte)
  /-- An access of host memory whose translation the host refuses (R207). -/
  | hostAbort (bytes : Nat)
  deriving DecidableEq, Repr

/-- The commands of the block, in the order of spec/opcode_table.json. -/
inductive Instr where
  /-- POWER_UP (R421): All rails are reached, REFCLK_156 has been stable for 1 ms and CARD_RESET_N is high, so the FL8 releases ED0 first and starts the raw counter at 0. -/
  | powerUp
  /-- COLD_BOOT (R423): Once the dies are released, the boot ROM runs the boot steps from the ROM start through to Tacor RUNNING. -/
  | coldBoot (flash : List Byte) (obs : BootObs)
  /-- BOOT_MBOX_GO (R428): A write of 1 to BOOT_MBOX_GO makes the ROM read and check the host-supplied image, then either continue the boot or return to waiting. -/
  | bootMboxGo (image : List Byte) (linkDown : Bool) (obs : BootObs)
  /-- CARD_RESET (R453): CARD_RESET_N low for 156 consecutive samples causes a device reset with end cause CARD_RESET. -/
  | cardReset (samples : Nat)
  /-- REFCLK_LOST (R454): No REFCLK_156 edge for 100 ns, or a frequency outside ±1,000 ppm, causes a device reset with end cause REFCLK_LOST. -/
  | refclkLost (nsWithoutEdge ppm : Nat)
  /-- RAIL_FAULT (R452): A non-core rail outside its operating limits for 10 µs causes a device reset with no end cause written. -/
  | railFault (rail : Rail)
  /-- SAG_THROTTLE (R68): A core rail below 1.75 V for 5 µs sets throttle level 1 on every die, writes the SAG mark and records a sag event. -/
  | sagThrottle (mv : Nat)
  /-- SAG_CLEARED (R68): A core rail at or above 1.77 V for 1 ms clears the sag throttle and the SAG mark. -/
  | sagCleared
  /-- NVM_WRITE_INHIBIT (R68): A core rail below 1.71 V stops new NVM writes and attestation. -/
  | nvmWriteInhibit
  /-- NVM_WRITE_RESUME (R68): A core rail at or above 1.73 V for 1 ms lifts the inhibit, and the deferred health-record changes are written. -/
  | nvmWriteResume
  /-- BROWN_OUT (R68): A core rail below 1.62 V switches every domain off and causes a device reset. -/
  | brownOut
  /-- THERMAL_TRIP (R67): A sensor at Tj 110 °C asserts THERMTRIP_N, switches every domain off and holds the device in reset. -/
  | thermalTrip (tj : Nat)
  /-- THERMTRIP_RELEASE (R457): VDD_IO_1V8 falling below 1.0 V releases THERMTRIP_N. -/
  | thermtripRelease
  /-- SENSOR_SAMPLE (R47): Every 10 µs the FL8 samples every pace sensor and updates the live pace. -/
  | sensorSample (readings : List DomainReading)
  /-- SENSOR_EXCLUDE (R48): A sensor that deviates for 10 consecutive samples is excluded; more than two exclusions in a domain set SENSOR_FAULT and hold the domain at its ceiling. -/
  | sensorExclude (domain sensor : Nat)
  /-- PACE_ENTRY_LOADED (R52): Live pace below the table for 100 samples at 50 % activity lowers the table entry and tags it LOADED. -/
  | paceEntryLoaded (domain : Nat)
  /-- ENERGY_WINDOW (R60): At each 1 ms window the power manager sets B, F, P, D and T, grants free-domain voltages and adds sleeve credit. -/
  | energyWindow (obs : EnergyObs)
  /-- DOMAIN_IDLE_OFF (R46): An array or element domain idle for 1 ms is switched off. -/
  | domainIdleOff (domain : Nat)
  /-- DOMAIN_VOLTAGE_FAIL (R72): A domain that does not reach voltage within 20 µs of switch-on is retried once, then its units are fenced. -/
  | domainVoltageFail (domain : Nat)
  /-- ENERGY_METER_CHECK (R72): A meter that differs from its die regulator by more than 10 % over 100 ms is recorded and its energy is estimated for 1 s. -/
  | energyMeterCheck (domain meter regulator : Nat)
  /-- TEMP_SAMPLE (R64): Every 100 µs the FL8 samples temperature sensors, handles failed sensors and enters throttle levels. -/
  | tempSample (readings : List (Nat × Nat)) (failed : List Nat)
  /-- THROTTLE_EXIT (R65): A level whose entry condition has been false for 10 windows, with Tj 3 °C below its threshold, is left. -/
  | throttleExit (die : Nat)
  /-- RELEASE_TICK (R54): A release tick starts the engine's next paced pass, or a radio task, once its operands have landed. -/
  | releaseTick (target : TickTarget) (landed : Bool)
  /-- FREE_PASS_START (R55): An engine starts a ready free-mode pass once its operands are in the pocket and it fits before the next release tick and in the energy grant. -/
  | freePassStart (engine slot beatsToTick : Nat)
  /-- PASS_BOUNDARY (R102): A pass writes its last output; the boundary events are applied in order and the next tenant pass is chosen. -/
  | passBoundary (engine : Nat) (obs : PassObs)
  /-- PACE_FAULT_SET (R57): Three late beats within 1 s at the ceiling set PACE_FAULT, and the unit becomes a suspect. -/
  | paceFaultSet (domain : Nat)
  /-- PASS_FAULT (R115): A fault within a pass (handshake stall, duplicated-unit mismatch, seam lane repair) discards the pass and reruns it. -/
  | passFault (engine : Nat) (kind : PassFaultKind)
  /-- ENGINE_HANG (R136): A pass not at its boundary after 4 × (514 + M) beats resets the engine domain and reruns the pass. -/
  | engineHang (engine : Nat)
  /-- CHAIN (R125): The feeder fetches a chain descriptor, checks it and runs its phases and passes. -/
  | chain (engine slot : Nat) (desc : List W64)
  /-- WAIT (R125): A WAIT descriptor holds the context's feeder ring until its completion word reaches VALUE. -/
  | wait (engine slot : Nat) (desc : List W64)
  /-- WAIT_SATISFIED (R117): A WAIT re-evaluated on selection finds its word reached, and the ring proceeds. -/
  | waitSatisfied (engine slot : Nat)
  /-- SIGNAL (R125): A SIGNAL descriptor writes VALUE into its completion word. -/
  | signal (engine slot : Nat) (desc : List W64)
  /-- DMA_IN (R127): A DMA IN descriptor moves rows from the page window to the pocket; flips are payload bytes that
  change on the way (R156). -/
  | dmaIn (engine slot : Nat) (desc : List W64) (flips : List (Nat × Byte))
  /-- DMA_OUT (R127): A DMA OUT descriptor moves rows from the pocket to the page window. -/
  | dmaOut (engine slot : Nat) (desc : List W64) (flips : List (Nat × Byte))
  /-- DMA_COPY (R127): A DMA COPY descriptor copies within the partition. -/
  | dmaCopy (engine slot : Nat) (desc : List W64) (flips : List (Nat × Byte))
  /-- DMA_COMPLETE (R128): When all bytes have landed and passed CRC-32C, the DMA adds COMPL_ADD to the completion word in ring order. -/
  | dmaComplete (engine slot : Nat) (flips : List (Nat × Byte))
  /-- ADD (R89): Element-engine add, rounded once into the output format. -/
  | add (engine slot : Nat) (desc : List W64)
  /-- SUB (R89): Element-engine subtract. -/
  | sub (engine slot : Nat) (desc : List W64)
  /-- MUL (R89): Element-engine multiply. -/
  | mul (engine slot : Nat) (desc : List W64)
  /-- FMA (R89): Element-engine fused multiply-add. -/
  | fma (engine slot : Nat) (desc : List W64)
  /-- DIV (R89): Element-engine divide. -/
  | div (engine slot : Nat) (desc : List W64)
  /-- SQRT (R89): Element-engine square root. -/
  | sqrt (engine slot : Nat) (desc : List W64)
  /-- MAX (R89): Element-engine IEEE maximum. -/
  | max (engine slot : Nat) (desc : List W64)
  /-- MIN (R89): Element-engine IEEE minimum. -/
  | min (engine slot : Nat) (desc : List W64)
  /-- RINT (R89): Element-engine roundToIntegralTiesToEven. -/
  | rint (engine slot : Nat) (desc : List W64)
  /-- SCALEB (R89): Element-engine scaleB, with the special cases of its table. -/
  | scaleb (engine slot : Nat) (desc : List W64)
  /-- CONVERT (R89): Element-engine convert into the output format. -/
  | convert (engine slot : Nat) (desc : List W64)
  /-- EXP (R91): Element-engine exp as its fixed FP32 sequence. -/
  | exp (engine slot : Nat) (desc : List W64)
  /-- LOG (R91): Element-engine log as its fixed FP32 sequence. -/
  | log (engine slot : Nat) (desc : List W64)
  /-- SIGMOID (R92): Element-engine sigmoid composite. -/
  | sigmoid (engine slot : Nat) (desc : List W64)
  /-- SILU (R92): Element-engine silu composite. -/
  | silu (engine slot : Nat) (desc : List W64)
  /-- TANH (R92): Element-engine tanh composite. -/
  | tanh (engine slot : Nat) (desc : List W64)
  /-- GELU (R92): Element-engine gelu composite. -/
  | gelu (engine slot : Nat) (desc : List W64)
  /-- RSQRT (R92): Element-engine rsqrt composite. -/
  | rsqrt (engine slot : Nat) (desc : List W64)
  /-- FRAMESUM (R90): Element-engine row sum in the windowed frame. -/
  | framesum (engine slot : Nat) (desc : List W64)
  /-- FRAMEDOT (R90): Element-engine row dot product in the windowed frame. -/
  | framedot (engine slot : Nat) (desc : List W64)
  /-- SOFTMAX (R92): Element-engine row softmax. -/
  | softmax (engine slot : Nat) (desc : List W64)
  /-- LAYERNORM (R92): Element-engine row layernorm. -/
  | layernorm (engine slot : Nat) (desc : List W64)
  /-- RMSNORM (R92): Element-engine row rmsnorm. -/
  | rmsnorm (engine slot : Nat) (desc : List W64)
  /-- QUANT_MX (R93): Element-engine MX quantisation of blocks of 32. -/
  | quantMx (engine slot : Nat) (desc : List W64)
  /-- REFEREE_STAGING (R150): Once a staging buffer and a referee engine are available, the next disputed chunk is copied to the referee's lining scratch. -/
  | refereeStaging (suspect referee : Nat)
  /-- REFEREE_TIMEOUT (R150): No eligible referee for 100 ms faults the job with CHECK_FAILED. -/
  | refereeTimeout (suspect : Nat)
  /-- REFEREE_PASS_DONE (R150): A referee pass completes and the verdict compares X_r with X_o and with the syndromes. -/
  | refereePassDone (suspect : Nat) (obs : RefereeObs)
  /-- LOCATING_REPLAY_DONE (R143): The locating replay ends; a strike is recorded and the next chunk continues or the ring is released. -/
  | locatingReplayDone (suspect : Nat) (faults : List (Nat × Nat × Int))
  /-- STRIKE_COUNT_CONFIRM (R153): Four unconfirmed strikes of one unit within 1 h confirm its strike. -/
  | strikeCountConfirm (unit : Nat)
  /-- FITTING_START (R169): A unit starts a due fitting (periodic, suspect or clearance run) in idle beats or slot gaps. -/
  | fittingStart (unit fitting beatsToTick : Nat)
  /-- FITTING_PERIOD_END (R169): At the end of a fitting period, unrun fittings start ahead of tenant passes. -/
  | fittingPeriodEnd (unit : Nat)
  /-- FITTING_DONE (R170): A fitting digest is compared with EXPECTED; on a mismatch it is rerun and a strike is recorded. -/
  | fittingDone (unit : Nat) (run rerun : FitObs)
  /-- FENCE_CLEARANCE_DONE (R155): Twice-run fittings of a unit awaiting clearance lift its fence or confirm it. -/
  | fenceClearanceDone (unit : Nat)
  /-- SCRUB_FRAMES (R159): The 24 h scrub of DRAM and LPDDR6 frames corrects errors and retires frames at the threshold. -/
  | scrubFrames (found : List ScrubObs)
  /-- SCRUB_POCKET (R159): The 10 s pocket scrub corrects errors and records an ECC strike at 64 errors per hour. -/
  | scrubPocket (engine : Nat) (words : List (Nat × Nat))
  /-- LOCKSTEP_MISMATCH (R161): A lockstep pair mismatch blocks the requests, resets both cores, faults the context and records a strike. -/
  | lockstepMismatch (pair pc : Nat)
  /-- SEAM_FLIT_CRC_ERROR (R19): A flit that fails its CRC makes the receiver request a replay from the sender's buffer. -/
  | seamFlitCrcError (seam dir : Nat) (flit : List Byte) (buffer : List (List Byte))
  /-- SEAM_LANE_REPAIR (R20): A flit failing 8 consecutive replays remaps a lane to a spare and retrains the seam. -/
  | seamLaneRepair (seam module lane : Nat)
  /-- PAGE_MOVE_DONE (R34): A page copy completes; LOC and FRAME are updated and waiting accesses are released in order. -/
  | pageMoveDone (page : Nat)
  /-- JOB_SUBMIT (R183): Checks a submission block and accepts the job with a handle and generation. -/
  | jobSubmit (cmd : Cmd)
  /-- LOWERING_DONE (R184): Lowering into rings completes, moving the job to WAITING or ending it with BAD_FIELD. -/
  | loweringDone (job : Nat) (ok : Bool) (lowered : LowerObs)
  /-- JOB_PLACED (R185): A WAITING job gets all its engines and landed weights, possibly after eviction, and enters RUNNING. -/
  | jobPlaced (job : Nat) (places : List Place)
  /-- STEP_BOUNDARY (R190): When all outputs, DMA and chip operations of a step are done, the pool is applied, the record posted, any snapshot honoured and the next step started. -/
  | stepBoundary (job : Nat) (obs : StepObs)
  /-- JOB_HOLD_RELEASE (R189): The cause of a HELD job clears and the job returns to RUNNING. -/
  | jobHoldRelease (job : Nat)
  /-- CADENCE_RELEASE (R194): A cadence period elapses; the release runs, or is skipped if the previous run is still in progress. -/
  | cadenceRelease (job : Nat)
  /-- SNAPSHOT_DRAIN_DONE (R200): The last page of a snapshot lands and KIND 4 is posted. -/
  | snapshotDrainDone (job : Nat) (result : DrainResult)
  /-- TEARDOWN_DRAIN_DONE (R198): Every queue reports the old generation drained; partitions and pages are zeroed, the record is posted and the handle is freed. -/
  | teardownDrainDone (job : Nat)
  /-- TEARDOWN_TIMEOUT (R198): A drain not done within the link timeout fails, and the sleeve is reset with TIMEOUT. -/
  | teardownTimeout (job : Nat)
  /-- JOB_STATUS (R202): Returns a job's state, generation and counters. -/
  | jobStatus (cmd : Cmd)
  /-- JOB_CANCEL (R202): Starts teardown of a job. -/
  | jobCancel (cmd : Cmd)
  /-- SEQ_JOIN (R192): Queues a sequence join for a step boundary. -/
  | seqJoin (cmd : Cmd)
  /-- SEQ_LEAVE (R202): Queues a sequence departure at a named boundary. -/
  | seqLeave (cmd : Cmd)
  /-- SNAPSHOT_BEGIN (R199): Arms a snapshot of a job to a target. -/
  | snapshotBegin (cmd : Cmd)
  /-- SNAPSHOT_STATUS (R202): Returns the snapshot pages copied and remaining. -/
  | snapshotStatus (cmd : Cmd)
  /-- SNAPSHOT_RESTORE (R201): Submits a job from a complete snapshot. -/
  | snapshotRestore (cmd : Cmd)
  /-- SLEEVE_CREATE (R210): Checks a sleeve record and creates the sleeve QUIESCED. -/
  | sleeveCreate (cmd : Cmd)
  /-- SLEEVE_SET (R209): Changes the mutable fields of a sleeve. -/
  | sleeveSet (cmd : Cmd)
  /-- SLEEVE_HOST_RANGE (R208): Sets one host range of a quiesced sleeve. -/
  | sleeveHostRange (cmd : Cmd)
  /-- SLEEVE_QUIESCE (R219): Stops fetching and holds jobs until the quiesce conditions hold. -/
  | sleeveQuiesce (cmd : Cmd)
  /-- QUIESCE_COMPLETE (R219): All seven quiesce conditions hold; the sleeve is QUIESCED and SLEEVE_QUIESCE returns OK. -/
  | quiesceComplete (sleeve : Nat)
  /-- QUIESCE_TIMEOUT (R219): The quiesce limit passes first, and SLEEVE_QUIESCE returns TIMEOUT. -/
  | quiesceTimeout (sleeve : Nat)
  /-- SLEEVE_RESUME (R220): Returns a sleeve to ACTIVE and releases its holds. -/
  | sleeveResume (cmd : Cmd)
  /-- SLEEVE_RESET (R221): Manager-ordered sleeve reset. -/
  | sleeveReset (cmd : Cmd)
  /-- SLEEVE_REMOVE (R222): Removes a sleeve, frees its pages and returns its final accounting. -/
  | sleeveRemove (cmd : Cmd)
  /-- SLEEVE_STATUS (R227): Returns a sleeve's state, record and holdings. -/
  | sleeveStatus (cmd : Cmd)
  /-- PAGES_ALLOC (R211): Allocates zeroed sleeve pages whole or refuses. -/
  | pagesAlloc (cmd : Cmd)
  /-- PAGES_FREE (R211): Frees sleeve pages whole or refuses. -/
  | pagesFree (cmd : Cmd)
  /-- SLEEVE_DIRTY_START (R223): Clears the dirty state and starts dirty logging. -/
  | sleeveDirtyStart (cmd : Cmd)
  /-- SLEEVE_DIRTY_READ (R224): Returns and clears dirty bitmap words and dirty device pages, then pushes host writes. -/
  | sleeveDirtyRead (cmd : Cmd)
  /-- SLEEVE_DIRTY_STOP (R227): Stops dirty logging and frees the bitmap. -/
  | sleeveDirtyStop (cmd : Cmd)
  /-- SLEEVE_EXPORT (R225): Writes the export record of a quiesced sleeve. -/
  | sleeveExport (cmd : Cmd)
  /-- SLEEVE_IMPORT (R225): Creates a sleeve from an export record at the same page numbers. -/
  | sleeveImport (cmd : Cmd)
  /-- SLEEVE_ACCOUNT_READ (R226): Returns a sleeve's accounting record. -/
  | sleeveAccountRead (cmd : Cmd)
  /-- SQ_TAIL_WRITE (R215): A doorbell write of SQ_TAIL lets Tacor fetch new submission entries, or sets DB_ERROR for a bad index. -/
  | sqTailWrite (sleeve : Nat) (value : W32)
  /-- CQ_HEAD_WRITE (R218): The host consumes completions; a stalled submission fetch resumes. -/
  | cqHeadWrite (sleeve : Nat) (value : W32)
  /-- FQ_HEAD_WRITE (R215): The host consumes fault entries. -/
  | fqHeadWrite (sleeve : Nat) (value : W32)
  /-- DOORBELL_STATE_READ (R215): A read of STATE returns the flags and clears DB_ERROR. -/
  | doorbellStateRead (sleeve : Nat)
  /-- FQ_LOST_READ (R215): A read of FQ_LOST returns the count and clears it. -/
  | fqLostRead (sleeve : Nat)
  /-- SUBMISSION_FETCH (R216): Tacor fetches a submission entry within the class budget and runs its command. -/
  | submissionFetch (sleeve : Nat) (entry : Option (List W64)) (hostData : List Byte)
  /-- CELL_CONFIG (R231): Configures a cell record. -/
  | cellConfig (cmd : Cmd)
  /-- CELL_START (R232): Admits a cell by capacity to start at frame F. -/
  | cellStart (cmd : Cmd)
  /-- CELL_STOP (R232): Schedules a cell to stop at frame F. -/
  | cellStop (cmd : Cmd)
  /-- CELL_MOVE_OUT (R259): Marks a cell MOVING_OUT to leave at frame F. -/
  | cellMoveOut (cmd : Cmd)
  /-- CELL_MOVE_IN (R259): Admits an incoming cell CONFIGURED for frame F and opens fabric job 0. -/
  | cellMoveIn (cmd : Cmd)
  /-- LEASE_PLAN (R255): Checks and accepts a lease plan for a period. -/
  | leasePlan (cmd : Cmd)
  /-- LEASE_CEILING_SET (R253): Sets the lease mask and reruns the cadence test. -/
  | leaseCeilingSet (cmd : Cmd)
  /-- RADIO_STATUS (R264): Returns a radio die's status, cells and plans. -/
  | radioStatus (cmd : Cmd)
  /-- CELL_FRAME_BOUNDARY (R232): Network time reaches frame F, and cells start, stop or change hands. -/
  | cellFrameBoundary (frame : Nat)
  /-- SLOT_BOUNDARY (R251): The slot planner builds the slot's plan, applies pending fences, sends SSB and CSI-RS, and may switch signal-core groups. -/
  | slotBoundary (die : Nat) (groupsOff groupsOn : List Nat) (plan : SlotPlan) (csiRs : List Nat)
  /-- EQP_SJ_TAIL_WRITE (R235): The slot-job doorbell makes the planner fetch slot jobs in ring order and check deadline, form and capacity. -/
  | eqpSjTailWrite (die : Nat) (value : W32)
  /-- EQP_RPT_HEAD_WRITE (R240): The consumer frees report entries, and buffered reports are written. -/
  | eqpRptHeadWrite (die : Nat) (value : W32)
  /-- LEASE_PERIOD_START (R253): A 10 ms lease period begins under its accepted or repeated plan. -/
  | leasePeriodStart (period : Nat)
  /-- LEASE_CHECK_POINT (R255): At period PERIOD − 2 the plan is fixed. -/
  | leaseCheckPoint (period : Nat)
  /-- LEASE_END_NO_TACOR (R258): 2 s without Tacor end the lease at the next period boundary. -/
  | leaseEndNoTacor
  /-- HARQ_CARRY_SEND (R259): After the UL deadline of frame F − 1, the source sends the HARQ region to the destination. -/
  | harqCarrySend (cell : Nat)
  /-- HARQ_CARRY_LANDED (R259): The carry lands; the destination combines with carried entries and closes job 0. -/
  | harqCarryLanded (cell : Nat) (crcOk : Bool) (addr : Nat)
  /-- MOVE_JOB0_CLOSE (R337): At F + 10 ms the destination closes fabric job number 0. -/
  | moveJob0Close (cell : Nat)
  /-- TASK_START (R270): On a release tick, the planner starts a signal-core task with its entry point, mode and scalar registers. -/
  | taskStart (core entry : Nat) (mode : Bool) (s1 s2 s3 s4 : W32) (seqs slotJob : Nat) (work : TaskWork)
  /-- VMAC (R277): Complex multiply-accumulate into an accumulator. -/
  | vmac (core acc va vb : Nat) (conj neg fp : Bool) (chk : CoreCheck)
  /-- TAPMOV (R281): One filter tap and a delay-line shift. -/
  | tapmov (core acc vw vc k : Nat) (conj fp : Bool) (chk : CoreCheck)
  /-- VEXT (R278): Accumulator extract with half-up rounding and saturation. -/
  | vext (core vd acc sh : Nat) (clr fp : Bool) (chk : CoreCheck)
  /-- VLD (R280): Vector load of one line. -/
  | vld (core vd p : Nat) (postinc : Bool) (imm : BitVec 16) (chk : CoreCheck)
  /-- VST (R280): Vector store of one line. -/
  | vst (core vs p : Nat) (postinc : Bool) (imm : BitVec 16) (chk : CoreCheck)
  /-- VLD2 (R280): Dual vector load in slots A and B. -/
  | vld2 (core vd pa pb : Nat) (postinc : Bool) (imm : BitVec 14) (chk : CoreCheck)
  /-- VST2 (R282): Dual vector store. -/
  | vst2 (core vs pa pb : Nat) (postinc : Bool) (imm : BitVec 14) (chk : CoreCheck)
  /-- QPUSH (R283): Pushes an accelerator descriptor and returns the push status. -/
  | qpush (core vs sd queue : Nat) (chk : CoreCheck)
  /-- WAITC (R287): Waits until a completion word reaches a value. -/
  | waitc (core p sv : Nat) (chk : CoreCheck)
  /-- TEND (R270): Ends the task. -/
  | tend (core : Nat) (late : Bool) (done : Option SlotDone) (chk : CoreCheck)
  /-- VADD (R282): Lane-wise complex add. -/
  | vadd (core vd va vb : Nat) (fp : Bool) (chk : CoreCheck)
  /-- VSUB (R282): Lane-wise complex subtract. -/
  | vsub (core vd va vb : Nat) (fp : Bool) (chk : CoreCheck)
  /-- VMUL (R282): Complex product rounded to Q15. -/
  | vmul (core vd va vb : Nat) (fp : Bool) (chk : CoreCheck)
  /-- VCONJ (R282): Conjugate. -/
  | vconj (core vd va : Nat) (fp : Bool) (chk : CoreCheck)
  /-- VPOW (R282): Squared magnitude per lane. -/
  | vpow (core vd va : Nat) (chk : CoreCheck)
  /-- VMAX (R282): Lane maximum. -/
  | vmax (core vd va vb : Nat) (fp : Bool) (chk : CoreCheck)
  /-- VMIN (R282): Lane minimum. -/
  | vmin (core vd va vb : Nat) (fp : Bool) (chk : CoreCheck)
  /-- VSEL (R282): Lane select by scalar mask. -/
  | vsel (core vd va vb sm : Nat) (chk : CoreCheck)
  /-- VPERM (R282): Lane permute. -/
  | vperm (core vd va vi : Nat) (chk : CoreCheck)
  /-- VSCR (R282): LLR sign inversion or bit XOR scrambling. -/
  | vscr (core vd va vs : Nat) (mode : Bool) (chk : CoreCheck)
  /-- VGOLD (R282): Next 512 Gold sequence bits. -/
  | vgold (core vd vg : Nat) (chk : CoreCheck)
  /-- VCRC (R282): Advances a CRC state. -/
  | vcrc (core sc va poly len : Nat) (chk : CoreCheck)
  /-- VQAM (R282): Constellation mapping. -/
  | vqam (core vd va qm : Nat) (chk : CoreCheck)
  /-- VSAT8 (R282): int16 values to saturated INT8 LLRs. -/
  | vsat8 (core vd va vb sh : Nat) (chk : CoreCheck)
  /-- VLLRADD (R282): Saturating INT8 LLR add. -/
  | vllradd (core vd va vb : Nat) (chk : CoreCheck)
  /-- SADD (R282): Scalar add. -/
  | sadd (core sd sa sb : Nat) (chk : CoreCheck)
  /-- SSUB (R282): Scalar subtract. -/
  | ssub (core sd sa sb : Nat) (chk : CoreCheck)
  /-- SLI (R282): Scalar load immediate. -/
  | sli (core sd : Nat) (imm : BitVec 21) (chk : CoreCheck)
  /-- SMOVP (R282): Scalar to or from pointer. -/
  | smovp (core sreg p : Nat) (dir : Bool) (chk : CoreCheck)
  /-- LOOP (R282): Hardware loop. -/
  | loop (core : Nat) (lc : Bool) (sn stop : Nat) (chk : CoreCheck)
  /-- BR (R282): Branch. -/
  | br (core : Nat) (cond neg : Bool) (target : Nat) (chk : CoreCheck)
  /-- SCMP (R282): Scalar compare into CMP. -/
  | scmp (core cond sa sb : Nat) (chk : CoreCheck)
  /-- VLDS (R282): Scalar load from local memory. -/
  | vlds (core sd p : Nat) (postinc : Bool) (imm : BitVec 16) (chk : CoreCheck)
  /-- VSTS (R282): Scalar store to local memory. -/
  | vsts (core ss p : Nat) (postinc : Bool) (imm : BitVec 16) (chk : CoreCheck)
  /-- QPOP (R282): Reads a queue's free entries. -/
  | qpop (core sd queue : Nat) (chk : CoreCheck)
  /-- FL5_INSTRUCTION (R275): An FL5 instruction executed in compatibility mode. -/
  | fl5Instruction (core : Nat) (word : W32) (peripheral : Bool) (chk : CoreCheck)
  /-- ILLEGAL_INSTRUCTION (R293): A reserved or constrained encoding, or an access fault, aborts the task and records a radio firmware fault. -/
  | illegalInstruction (core : Nat) (word : W32)
  /-- SC_STALL (R292): A busy core with no progress for one slot is aborted, reset and reported as a suspect. -/
  | scStall (core : Nat)
  /-- INSTRUCTION_STORE_WRITE (R273): A write to the instruction-store window is taken while the core is idle, otherwise refused and flagged. -/
  | instructionStoreWrite (core index : Nat) (word : W32)
  /-- CHANNEL_ESTIMATION (R285): The equaliser serves a U1 channel-estimation descriptor. -/
  | channelEstimation (core : Nat) (obs : UnitObs)
  /-- EQUALISATION (R285): The equaliser serves a U2 equalisation and demapping descriptor. -/
  | equalisation (core : Nat) (obs : UnitObs)
  /-- SRS_CHANNEL_ESTIMATION (R285): The equaliser serves SRS estimation. -/
  | srsChannelEstimation (core : Nat) (obs : UnitObs)
  /-- LDPC_DECODE (R248): A block engine decodes one code block under the iteration pool. -/
  | ldpcDecode (core decoder engine : Nat) (obs : UnitObs)
  /-- LDPC_ENCODE (R285): An encoder encodes one code block. -/
  | ldpcEncode (core encoder : Nat) (obs : UnitObs)
  /-- POLAR_DECODE (R285): The polar unit decodes CRC-aided, list 8. -/
  | polarDecode (core : Nat) (obs : UnitObs)
  /-- POLAR_ENCODE (R285): The polar unit encodes. -/
  | polarEncode (core : Nat) (obs : UnitObs)
  /-- REED_MULLER_DECODE (R285): The polar unit decodes Reed–Muller payloads. -/
  | reedMullerDecode (core : Nat) (obs : UnitObs)
  /-- SEQUENCE_DETECTION (R285): The polar unit detects PUCCH formats 0 and 1. -/
  | sequenceDetection (core : Nat) (obs : UnitObs)
  /-- PRECODING (R285): The beam unit precodes to antenna streams. -/
  | precoding (core : Nat) (obs : UnitObs)
  /-- WEIGHT_ATTACHMENT (R285): The beam unit attaches weights to a C-plane section. -/
  | weightAttachment (core : Nat) (obs : UnitObs)
  /-- WEIGHT_COMPUTATION (R285): The beam unit computes zero-forcing weights. -/
  | weightComputation (core : Nat) (obs : UnitObs)
  /-- UPLANE_SYMBOL (R285): Places a symbol's IQ into the port's egress buffer. -/
  | uplaneSymbol (core : Nat) (obs : UnitObs)
  /-- LOCAL_DMA_COPY (R285): The local DMA copies LEN bytes. -/
  | localDmaCopy (core : Nat) (obs : UnitObs)
  /-- FRAME_RECEIVED (R304): An arriving fronthaul frame is stored, classified and delivered to timing, radio, a flow or dropped. -/
  | frameReceived (port : Nat) (frame : List Byte) (fcsOk eccOk : Bool) (buffered : Nat)
  /-- LANE_EYE_SAMPLE (R300): Every 100 µs the FL8 samples each fronthaul and Voravatra lane's eye figure. -/
  | laneEyeSample (family : PortFamily) (port : Nat) (eyes : List Nat)
  /-- LANE_DROP (R301): A fronthaul lane below EYE_MIN for 10 samples is dropped; the port retrains in three-lane mode or goes down. -/
  | laneDrop (port lane : Nat)
  /-- THREE_LANE_LINK_UP (R301): The port comes up on three lanes and resumes egress. -/
  | threeLaneLinkUp (port : Nat)
  /-- THREE_LANE_TIMEOUT (R301): No link within 200 µs takes the port down. -/
  | threeLaneTimeout (port : Nat)
  /-- FH_LINK_RETRY (R302): Every 10 ms a down port tries to link up. -/
  | fhLinkRetry (port : Nat) (up : Bool)
  /-- EGRESS_FRAME_START (R309): An egress queue whose gate, window, hem and launch time allow it starts its next frame, or drops it as TX_LATE or TOO_LONG. -/
  | egressFrameStart (port : Nat)
  /-- GATE_ENTRY_CHANGE (R310): A gate list entry's interval ends and the next entry's gates apply. -/
  | gateEntryChange (port : Nat)
  /-- GATE_LIST_SWITCH (R311): At a cycle start, the pending gate list replaces the active one. -/
  | gateListSwitch (port : Nat)
  /-- TX_RING_POLL (R313): An idle transmit ring is polled every 2 µs; ready entries are checked, queued or written back. -/
  | txRingPoll (port ring : Nat)
  /-- FH_PORT_CONFIG (R326): Configures a fronthaul port. -/
  | fhPortConfig (cmd : Cmd)
  /-- FH_FLOW_SET (R306): Writes a flow entry. -/
  | fhFlowSet (cmd : Cmd)
  /-- FH_EGRESS_SET (R313): Assigns a transmit ring. -/
  | fhEgressSet (cmd : Cmd)
  /-- FH_GATE_LIST (R311): Installs a pending gate list. -/
  | fhGateList (cmd : Cmd)
  /-- FH_PORT_RESTORE (R303): Retrains a port on four lanes. -/
  | fhPortRestore (cmd : Cmd)
  /-- FH_PORT_STATUS (R326): Returns port registers. -/
  | fhPortStatus (cmd : Cmd)
  /-- TIME_CONFIG (R326): Sets the timebase settings. -/
  | timeConfig (cmd : Cmd)
  /-- TIME_RATE (R317): Schedules a new INCR at the apply tick. -/
  | timeRate (cmd : Cmd)
  /-- TIME_STEP (R317): Schedules a step at the apply tick, or refuses one that is too large. -/
  | timeStep (cmd : Cmd)
  /-- TIME_LOCK (R323): Offers or withdraws the lock bound and moves the timebase state. -/
  | timeLock (cmd : Cmd)
  /-- TIME_READ (R326): Returns network time, RAW and the state. -/
  | timeRead (cmd : Cmd)
  /-- TIME_APPLY_TICK (R317): At RAW + 512, BASE, RAW_BASE and INCR are updated on all dies, and a forced step stops cells. -/
  | timeApplyTick
  /-- COMPARE_ARM (R321): A write of ARMED to TBS_CMPn arms the compare unit. -/
  | compareArm (cmp : Nat) (value : W64)
  /-- COMPARE_FIRE (R321): An armed target falls due; the unit sends its DIC message, sets FIRED and disarms. -/
  | compareFire (cmp : Nat)
  /-- TBS_NT_NS_READ (R324): A read of TBS_NT_NS latches the fraction and RAW. -/
  | tbsNtNsRead
  /-- FH_NT_NS_READ (R324): A read of FH_NT_NS latches FH_NT_FRAC. -/
  | fhNtNsRead (die : Nat)
  /-- PPS_IN_EDGE (R322): A PPS_IN rising edge is timestamped and signalled, or ignored within 500 ms. -/
  | ppsInEdge
  /-- PPS_OUT_PULSE (R322): PPS_OUT rises at each whole second of network time and falls after PPS_WIDTH. -/
  | ppsOutPulse (level : Bool)
  /-- HOLDOVER_ENTER (R323): No TIME_LOCK for 1 s while LOCKED enters HOLDOVER. -/
  | holdoverEnter
  /-- HOLDOVER_EXPIRE (R323): HOLDOVER_LIMIT passes; the state goes to ACQUIRING and cells stop at the next frame. -/
  | holdoverExpire
  /-- RAW_COPY_CHECK (R327): Every 1 ms each radio die's RAW copy is compared with ED0, reloaded on a difference, and a die fault raised on a repeat. -/
  | rawCopyCheck (die : Nat) (difference : Int)
  /-- PUT (R345): A fabric PUT descriptor sends its packets and completes when all are acknowledged. -/
  | put (job : Nat) (desc : List W64)
  /-- GET (R345): A fabric GET descriptor requests remote data into local pages. -/
  | get (job : Nat) (desc : List W64)
  /-- ADD_I64 (R341): Atomic wrapping 64-bit add. -/
  | addI64 (job : Nat) (desc : List W64)
  /-- MIN_I64 (R341): Atomic signed 64-bit minimum. -/
  | minI64 (job : Nat) (desc : List W64)
  /-- MAX_I64 (R341): Atomic signed 64-bit maximum. -/
  | maxI64 (job : Nat) (desc : List W64)
  /-- ADD_F32 (R342): Relaxed atomic binary32 add. -/
  | addF32 (job : Nat) (desc : List W64)
  /-- MIN_F32 (R342): Atomic binary32 minimum. -/
  | minF32 (job : Nat) (desc : List W64)
  /-- MAX_F32 (R342): Atomic binary32 maximum. -/
  | maxF32 (job : Nat) (desc : List W64)
  /-- ADD_F64 (R342): Relaxed atomic binary64 add. -/
  | addF64 (job : Nat) (desc : List W64)
  /-- MIN_F64 (R342): Atomic binary64 minimum. -/
  | minF64 (job : Nat) (desc : List W64)
  /-- MAX_F64 (R342): Atomic binary64 maximum. -/
  | maxF64 (job : Nat) (desc : List W64)
  /-- CAS64 (R341): Relaxed 8-byte compare-and-swap. -/
  | cas64 (job : Nat) (desc : List W64)
  /-- CAS128 (R341): Relaxed 16-byte compare-and-swap. -/
  | cas128 (job : Nat) (desc : List W64)
  /-- ANCHOR_MIN (R343): Collective minimum of anchor words. -/
  | anchorMin (job : Nat) (desc : List W64)
  /-- ANCHOR_MAX (R343): Collective maximum of anchor words. -/
  | anchorMax (job : Nat) (desc : List W64)
  /-- SCALE_MAX (R343): Collective signed maximum of PART_B scale entries. -/
  | scaleMax (job : Nat) (desc : List W64)
  /-- SUM_WIDE (R343): Collective combination of wide partials. -/
  | sumWide (job : Nat) (desc : List W64)
  /-- SUM_I64 (R343): Collective wrapping 64-bit sum. -/
  | sumI64 (job : Nat) (desc : List W64)
  /-- COLLECTIVE_MIN_I64 (R343): Collective signed 64-bit minimum. -/
  | collectiveMinI64 (job : Nat) (desc : List W64)
  /-- COLLECTIVE_MAX_I64 (R343): Collective signed 64-bit maximum. -/
  | collectiveMaxI64 (job : Nat) (desc : List W64)
  /-- BARRIER (R344): A fabric barrier, possibly carrying a combined value, completes when all chips reach it. -/
  | barrier (job : Nat) (desc : List W64)
  /-- PUT_PACKET (R346): An arriving PUT packet is checked, applied and acknowledged, or NACKed or dropped. -/
  | putPacket (port : Nat) (packet : Packet)
  /-- GET_REQ (R346): An arriving GET request is checked and answered with GET_DATA. -/
  | getReq (port : Nat) (packet : Packet)
  /-- GET_DATA (R346): Arriving GET data is checked and written to local pages. -/
  | getData (port : Nat) (packet : Packet)
  /-- ATOMIC_PACKET (R341): An arriving atomic is applied element by element at the target. -/
  | atomicPacket (port : Nat) (packet : Packet)
  /-- ATOMIC_RESP (R346): An atomic response returns old values to RESULT_ADDR and counts choices. -/
  | atomicResp (port : Nat) (packet : Packet)
  /-- ACK (R347): An ACK releases the sender's trackers up to its SEQ. -/
  | ack (port : Nat) (packet : Packet)
  /-- NACK (R347): A NACK makes the sender resend or fault the job. -/
  | nack (port : Nat) (packet : Packet)
  /-- BARRIER_ARRIVE (R344): Chip 0 records an arrival and releases the barrier once every chip has arrived. -/
  | barrierArrive (port : Nat) (packet : Packet)
  /-- BARRIER_RELEASE (R344): A barrier release completes the barrier on a chip and may trigger the snapshot. -/
  | barrierRelease (port : Nat) (packet : Packet)
  /-- COLL (R343): A collective segment packet is combined and forwarded around the ring. -/
  | coll (port : Nat) (packet : Packet)
  /-- BARRIER_TIMEOUT (R344): A barrier not complete within BARRIER_TIMEOUT faults the job. -/
  | barrierTimeout (job : Nat)
  /-- ACK_TIMEOUT (R347): No ACK at 100 µs or 200 µs resends from the oldest unacknowledged packet. -/
  | ackTimeout (device : Nat)
  /-- LINK_TIMEOUT (R350): A packet still unacknowledged a link timeout after first sending completes its descriptor with TARGET_LOST. -/
  | linkTimeout (device : Nat)
  /-- LINK_REPLAY_REQUEST (R332): An uncorrectable codeword makes the receiver discard and request a hop replay; 8 failures take the port down. -/
  | linkReplayRequest (port link : Nat)
  /-- FABRIC_LANE_DROP (R333): A Voravatra lane below EYE_MIN for 10 samples is dropped and the port retrains on three lanes. -/
  | fabricLaneDrop (port lane : Nat)
  /-- FABRIC_PORT_DOWN (R334): A port with no valid codeword for 1 µs or loss of signal goes down; descriptors complete TARGET_LOST and PORT_DOWN is sent. -/
  | fabricPortDown (port : Nat)
  /-- FABRIC_LINK_RETRY (R334): Every 10 ms a down Voravatra port tries to link up. -/
  | fabricLinkRetry (port : Nat) (up : Bool)
  /-- FABRIC_CONFIG (R335): Sets the device ID, FM_DEV and fabric settings. -/
  | fabricConfig (cmd : Cmd)
  /-- FABRIC_ROUTE_SET (R336): Sets home ports in the route table. -/
  | fabricRouteSet (cmd : Cmd)
  /-- FABRIC_JOB_MAP (R337): Installs a chip map on a handle. -/
  | fabricJobMap (cmd : Cmd)
  /-- FABRIC_SINK (R337): Installs a sink. -/
  | fabricSink (cmd : Cmd)
  /-- FABRIC_TEARDOWN (R351): Sets the new FGEN and begins teardown. -/
  | fabricTeardown (cmd : Cmd)
  /-- FABRIC_DEVICE_LOST (R350): Completes packets to a lost device with TARGET_LOST and resets the pair state. -/
  | fabricDeviceLost (cmd : Cmd)
  /-- FABRIC_STATUS (R357): Returns fabric registers, maps and sinks. -/
  | fabricStatus (cmd : Cmd)
  /-- FABRIC_PORT_RESTORE (R333): Retrains a port on four lanes. -/
  | fabricPortRestore (cmd : Cmd)
  /-- MAILBOX_POST (R371): A write of STATE 0b01 is answered BUSY at once or accepted into the queue. -/
  | mailboxPost (window slot : Nat) (opcode : BitVec 16) (tag : W32) (args : List W64)
  /-- RESERVED_COMMAND (R375): A served command with an undefined or reserved opcode is refused with BAD_FIELD. -/
  | reservedCommand (opcode : Nat) (cmd : Cmd)
  /-- TELEMETRY_DROP (R374): A telemetry command not started 10 ms after acceptance completes BUSY and is counted. -/
  | telemetryDrop (src : Src)
  /-- TACOR_WATCHDOG (R377): A core watchdog not restarted for 100 ms, or a dispatcher stall, resets the management domain and starts a restart. -/
  | tacorWatchdog (cause : RestartCause)
  /-- TACOR_RESTART_DONE (R377): Re-verified Tacor reads its journal, completes commands and returns to RUNNING. -/
  | tacorRestartDone (imageOk flashOk : Bool)
  /-- TACOR_RESTART_LIMIT (R378): No RUNNING 10 s after a restart, or a third restart in 10 min, causes a device reset. -/
  | tacorRestartLimit
  /-- MGMT_STATUS (R389): Returns management status and queue depths. -/
  | mgmtStatus (cmd : Cmd)
  /-- HC_LOAD (R385): Loads a host-core context. -/
  | hcLoad (cmd : Cmd)
  /-- HC_STOP (R385): Tears down a host-core context and resets the core. -/
  | hcStop (cmd : Cmd)
  /-- HC_STATUS (R389): Returns a host core's context status. -/
  | hcStatus (cmd : Cmd)
  /-- HC_EXIT_CALL (R385): A context's monitor exit call ends it and posts a KIND 1 record. -/
  | hcExitCall (core : Nat) (status : BitVec 16)
  /-- DIC_ROUTE_SET (R380): Sets a DIC route, effective when the source is idle. -/
  | dicRouteSet (cmd : Cmd)
  /-- DIC_STATUS (R389): Returns a target core's DIC state. -/
  | dicStatus (cmd : Cmd)
  /-- SIDEBAND_UPLOAD (R387): Writes uploaded bytes into a sideband area. -/
  | sidebandUpload (cmd : Cmd)
  /-- TELEMETRY_READ (R389): Returns temperatures, power and energy. -/
  | telemetryRead (cmd : Cmd)
  /-- DIC_DOORBELL (R379): A write signals a source, which is made PENDING or counted, or dropped as NO_ROUTE or DENIED. -/
  | dicDoorbell (sleeve : Nat) (value : W32)
  /-- DIC_DELIVERY (R381): A PENDING source that the priority stack allows is pushed and interrupts its core. -/
  | dicDelivery (target : Nat)
  /-- DIC_EOI (R382): A write pops a matching top and rearms, or raises DIC_ORDER and freezes the stack. -/
  | dicEoi (target : Nat) (value : W32)
  /-- DIC_SRC_READ (R383): A read of DIC_SRCn returns its state and clears COUNT. -/
  | dicSrcRead (source : Nat)
  /-- CXL_MEM_READ (R365): A host CXL.mem read is checked by ownership and served or returns zeros or poison. -/
  | cxlMemRead (addr len : Nat)
  /-- CXL_MEM_WRITE (R365): A host CXL.mem write is checked, committed and sets DIRTY, or is discarded. -/
  | cxlMemWrite (addr : Nat) (data : List Byte)
  /-- CXL_LINK_DOWN (R367): A link-down or hot reset resets the function state and faults host-memory access. -/
  | cxlLinkDown (cause : LinkDownCause)
  /-- CXL_LINK_UP (R360): The CXL port trains and reports width and rate. -/
  | cxlLinkUp (width rate : Nat)
  /-- PASID_ENABLE_CHANGE (R207): The host changes PASID Enable, and PASID_ON and sleeve host access follow. -/
  | pasidEnableChange (on : Bool)
  /-- EVT_LOST_READ (R363): A read of EVT_LOST returns the drop count and clears it. -/
  | evtLostRead
  /-- ENTDAA (R386): The BMC assigns the I3C dynamic address. -/
  | entdaa (address : Nat)
  /-- SET_ENDPOINT_ID (R386): The BMC assigns the MCTP endpoint ID. -/
  | setEndpointId (eid : Nat)
  /-- PLDM_DISCOVERY (R386): A PLDM base discovery request is answered. -/
  | pldmDiscovery (tag : Nat)
  /-- PLDM_SENSOR_READ (R386): A PLDM monitoring poll returns a numeric sensor as class 3. -/
  | pldmSensorRead (tag sensor : Nat)
  /-- SET_EVENT_RECEIVER (R396): The BMC names itself event receiver. -/
  | setEventReceiver (eid : Nat)
  /-- POLL_FOR_PLATFORM_EVENT_MESSAGE (R396): Returns a queued record and removes the acknowledged one. -/
  | pollForPlatformEventMessage (tag : Nat) (ack : Option Nat)
  /-- PLATFORM_EVENT_MESSAGE_RESPONSE (R396): The receiver's response removes a record from the PLDM queue. -/
  | platformEventMessageResponse (number : Nat)
  /-- UART_STATUS (R388): The console line status is served as a class 3 command. -/
  | uartStatus
  /-- UART_ERRORS (R388): The console line errors is served. -/
  | uartErrors
  /-- UART_IDENTITY (R388): The console line identity is served. -/
  | uartIdentity
  /-- UART_OTHER_INPUT (R388): Any other console input is discarded. -/
  | uartOtherInput (line : List Byte)
  /-- ERROR_RECORD (R395): Tacor turns a queued hardware error event into a numbered record and reports it on every path. -/
  | errorRecord (die : Nat)
  /-- ENGINE_STALL (R399): An engine hang window expires; suspects are marked, the engine is reset and replay begins. -/
  | engineStall (engine : Nat)
  /-- CONTEXT_STALL (R399): A context hang window expires and the context alone is replayed. -/
  | contextStall (engine slot : Nat)
  /-- STALL_REPLAY_DONE (R399): A suspect replay ends or stalls again, and the FL8 acts on the outcome. -/
  | stallReplayDone (engine slot : Nat) (outcome : ReplayOutcome)
  /-- STALL_NO_REFEREE (R399): No eligible engine for the moved suspect within 100 ms faults its job with TIMEOUT. -/
  | stallNoReferee (engine slot : Nat)
  /-- HOST_CORE_STALL (R400): A host core stall resets the core and faults its context. -/
  | hostCoreStall (core : Nat)
  /-- ACCELERATOR_STALL (R400): An LDPC unit stall resets it; an equaliser, polar or beam unit stall resets the radio function. -/
  | acceleratorStall (die unit : Nat)
  /-- CONTROLLER_STALL (R400): A memory or CXL controller with no completion for 1 ms resets its die function. -/
  | controllerStall (die func : Nat)
  /-- CONTROLLER_FAULT (R404): A controller's internal fault resets its die function. -/
  | controllerFault (die func : Nat)
  /-- ENGINE_RESET_THRESHOLD (R405): A third counted engine reset in 10 min fences the unit, subject to the fence budget. -/
  | engineResetThreshold (unit : Nat)
  /-- FUNCTION_RESET_THRESHOLD (R404): A second die function reset in 1 h fences the function. -/
  | functionResetThreshold (die func : Nat)
  /-- HEALTH_SCORE_UPDATE (R415): Every 1 s the health score and level are recomputed. -/
  | healthScoreUpdate
  /-- WITHDRAWN_EVALUATION (R409): When the boot entry is stamped, or 60 s after RUNNING, counted boots in 24 h may set WITHDRAWN. -/
  | withdrawnEvaluation
  /-- CLEAN_MARK_EXPIRY (R407): CLEAN is cleared if the FL8 is still running 60 s after HEALTH_SHUTDOWN. -/
  | cleanMarkExpiry
  /-- DEFERRED_DEVICE_RESET (R419): 10 ms after HEALTH_DEVICE_RESET, the device resets. -/
  | deferredDeviceReset
  /-- HEALTH_STATUS (R419): Returns health registers, terms, holds and boot entries. -/
  | healthStatus (cmd : Cmd)
  /-- HEALTH_LOG_READ (R419): Writes error records in number order. -/
  | healthLogRead (cmd : Cmd)
  /-- HEALTH_CONFIG (R419): Sets HANG_MS. -/
  | healthConfig (cmd : Cmd)
  /-- HEALTH_CLOCK_SET (R409): Gives the health clock a TAI time. -/
  | healthClockSet (cmd : Cmd)
  /-- HEALTH_SEED (R417): Replaces the seed of earlier strikes. -/
  | healthSeed (cmd : Cmd)
  /-- HEALTH_UNIT_CONFIRM (R413): Fences a unit as confirmed and lists it. -/
  | healthUnitConfirm (cmd : Cmd)
  /-- HEALTH_UNIT_CLEAR (R413): Schedules two clearance runs of a fenced or held unit. -/
  | healthUnitClear (cmd : Cmd)
  /-- HEALTH_DIE_CLEAR (R419): Removes a die from the health record. -/
  | healthDieClear (cmd : Cmd)
  /-- HEALTH_REINSTATE (R410): Clears WITHDRAWN and uncounts boot entries. -/
  | healthReinstate (cmd : Cmd)
  /-- HEALTH_SHUTDOWN (R407): Writes the CLEAN mark. -/
  | healthShutdown (cmd : Cmd)
  /-- HEALTH_DEVICE_RESET (R419): Writes CLEAN, completes OK and arms a reset in 10 ms. -/
  | healthDeviceReset (cmd : Cmd)
  /-- PWR_CAP_SET (R70): Sets the package cap from the next window. -/
  | pwrCapSet (cmd : Cmd)
  /-- PWR_GUARD_SET (R70): Sets a class guard. -/
  | pwrGuardSet (cmd : Cmd)
  /-- PWR_THERMAL_SET (R70): Sets the thermal thresholds. -/
  | pwrThermalSet (cmd : Cmd)
  /-- PWR_DOMAIN_READ (R70): Returns a domain's power registers and tables. -/
  | pwrDomainRead (cmd : Cmd)
  /-- FITTING_LOAD (R167): Checks and activates a signed fitting set and raises the floor. -/
  | fittingLoad (cmd : Cmd)
  /-- FITTING_STATUS (R174): Returns fitting status per unit. -/
  | fittingStatus (cmd : Cmd)
  /-- FITTING_RUN (R174): Runs fittings now and sets the period. -/
  | fittingRun (cmd : Cmd)
  /-- CANDIDATE_READ (R174): Returns bytes of a fitting candidate. -/
  | candidateRead (cmd : Cmd)
  /-- CANDIDATE_FREE (R174): Zeroes and frees a candidate. -/
  | candidateFree (cmd : Cmd)
  /-- LINING_LOG_READ (R174): Returns strike and fitting log entries. -/
  | liningLogRead (cmd : Cmd)
  /-- BOOT_STATUS (R440): Returns boot mailbox status, image header, floor and CONFIG_DEFAULT. -/
  | bootStatus (cmd : Cmd)
  /-- BOOT_CONFIG_READ (R440): Returns the boot configuration in force and the one for the next boot. -/
  | bootConfigRead (cmd : Cmd)
  /-- BOOT_CONFIG_SET (R433): Writes a new boot configuration copy for the next reset. -/
  | bootConfigSet (cmd : Cmd)
  /-- BOOT_IMAGE_UPDATE (R430): Checks a new image and writes it to the flash with readback. -/
  | bootImageUpdate (cmd : Cmd)
  /-- BOOT_ROLLBACK_COMMIT (R429): Raises the OTP floor to the running SVN. -/
  | bootRollbackCommit (cmd : Cmd)
  /-- ATTEST (R438): Spends a signature index and writes a signed attestation report. -/
  | attest (cmd : Cmd)
  /-- ATTEST_KEY_READ (R436): Returns the attestation public key and certificate. -/
  | attestKeyRead (cmd : Cmd)
  /-- ID_READ (R435): Returns the die and package identities and incarnation. -/
  | idRead (cmd : Cmd)
  /-- BYPASS (R439): JTAG BYPASS instruction. -/
  | bypass
  /-- IDCODE (R439): JTAG IDCODE instruction. -/
  | idcode
  /-- SAMPLE_PRELOAD (R439): JTAG SAMPLE/PRELOAD instruction. -/
  | samplePreload
  /-- EXTEST (R439): JTAG EXTEST drives balls only while CARD_RESET_N is low, and otherwise acts as BYPASS. -/
  | extest
  /-- RING_TAIL_WRITE (R124): Tacor advances a feeder, DMA or element-engine ring TAIL, making new entries fetchable. -/
  | ringTailWrite (engine slot : Nat) (ring : RingKind) (value : W32)
  /-- REGISTER_WRITE (R9): A write to any register without its own row, applied by its access codes and reserved-encoding rule. -/
  | registerWrite (writer : RegWriter) (addr : Nat) (value : W64)
  /-- HOST_CORE_ACCESS (R31): A host-core load, store or atomic to a device address is checked by R31 and R28 and either completes, faults the context with DENIED, or meets an uncorrectable word and raises a precise access fault. -/
  | hostCoreAccess (core addr : Nat) (access : CoreAccess)
  /-- SLOW_CHIP_RECEIVED (R349): The lagging device receives SLOW_CHIP from chip 0, records the event on the management sideband and names the engines of its context of the job as suspects. -/
  | slowChipReceived (jobNum chip : Nat)
  /-- LOSS_OF_SIGNAL (R322): Loss of signal or loss of lock on the fronthaul lane selected for SyncE holds SYNCE_CLK_OUT low within 10 µs and sets SYNCE_SQUELCH. -/
  | lossOfSignal (port lane : Nat)
  /-- LANE_SIGNAL_RESTORED (R322): Signal and lock return on the selected fronthaul lane, so SYNCE_CLK_OUT may leave its squelch. -/
  | laneSignalRestored (port lane : Nat)
  /-- FLASH_WRITE_DONE (R430): The flash write and byte-for-byte readback of BOOT_IMAGE_UPDATE end, and the command completes with OK or TIMEOUT. -/
  | flashWriteDone (readbackOk : Bool)
  deriving DecidableEq, Repr

end Sys2Proof
end

