-- ==== Sys2Proof/Machine/Bits.lean ====
section
/-! DEFINITION. Bit fields, little-endian bytes and packing (R8, R372 rule 7): the helpers every
record, descriptor and register of the model is read and written with. -/

namespace Sys2Proof.Machine

/-- Bits [hi:lo] of a word, as an unsigned number. -/
def fld {n : Nat} (w : BitVec n) (hi lo : Nat) : Nat := (w.toNat >>> lo) % 2 ^ (hi + 1 - lo)

/-- Bit i of a word. -/
def bitOf {n : Nat} (w : BitVec n) (i : Nat) : Bool := w.getLsbD i

/-- Bits [hi:lo] of a word, read as a two's complement number. -/
def sfld {n : Nat} (w : BitVec n) (hi lo : Nat) : Int :=
  let v := fld w hi lo
  let k := hi + 1 - lo
  if v < 2 ^ (k - 1) then (v : Int) else (v : Int) - (2 ^ k : Nat)

/-- A record from its fields: each pair is (lowest bit, value). -/
def pack (n : Nat) (fields : List (Nat × Nat)) : BitVec n :=
  BitVec.ofNat n (fields.foldl (fun a f => a + f.2 * 2 ^ f.1) 0)

/-- 1 for true, 0 for false: a flag of a record or a register. -/
def b2n (b : Bool) : Nat := if b then 1 else 0

/-- Word i of a record, 0 beyond its end. -/
def wd (ws : List W64) (i : Nat) : W64 := ws.getD i 0

/-- The value of little-endian bytes (R8). -/
def leNat : List Byte → Nat
  | [] => 0
  | b :: r => b.toNat + 256 * leNat r

/-- n little-endian bytes of a value (R8). -/
def leBytes : Nat → Nat → List Byte
  | 0, _ => []
  | n + 1, v => BitVec.ofNat 8 v :: leBytes n (v / 256)

/-- The value of big-endian bytes (fields of standards that keep their own order, R8). -/
def beNat (bs : List Byte) : Nat := bs.foldl (fun a b => a * 256 + b.toNat) 0

/-- n big-endian bytes of a value. -/
def beBytes (n v : Nat) : List Byte := (leBytes n v).reverse

/-- A 64-bit word from 8 little-endian bytes at the head of a byte string. -/
def leW64 (bs : List Byte) : W64 := BitVec.ofNat 64 (leNat (bs.take 8))

/-- `n` words of a byte string; bytes beyond its end read 0. -/
def wordsOf : Nat → List Byte → List W64
  | 0, _ => []
  | n + 1, bs => leW64 bs :: wordsOf n (bs.drop 8)

/-- The bytes of a list of words, each little-endian. -/
def bytesOf (ws : List W64) : List Byte := ws.flatMap fun w => leBytes 8 w.toNat

/-- A list of 32-bit values packed two to a word and padded to a whole word (R372 rule 7). -/
def pack32 : List Nat → List W64
  | [] => []
  | [a] => [BitVec.ofNat 64 (a % 2 ^ 32)]
  | a :: b :: r => BitVec.ofNat 64 (a % 2 ^ 32 + b % 2 ^ 32 * 2 ^ 32) :: pack32 r

/-- A Nat as a word. -/
def w64 (n : Nat) : W64 := BitVec.ofNat 64 n

/-- True when every listed field of the record is 0: the check of its RSVD bits. -/
def rsvdZero (ws : List W64) (fs : List (Nat × Nat × Nat)) : Bool :=
  fs.all fun f => fld (wd ws f.1) f.2.1 f.2.2 == 0

/-- Position of an element in a list. -/
def indexOf? {α : Type} [DecidableEq α] (x : α) : List α → Option Nat
  | [] => none
  | y :: r => if x = y then some 0 else (indexOf? x r).map (· + 1)

/-- Insertion into a list kept sorted by a key. -/
def insertBy {α : Type} (le : α → α → Bool) (x : α) : List α → List α
  | [] => [x]
  | y :: r => if le x y then x :: y :: r else y :: insertBy le x r

/-- A list sorted by `le`, stable. -/
def sortBy {α : Type} (le : α → α → Bool) (l : List α) : List α := l.foldr (insertBy le) []

/-- Smallest of a list, `d` when the list is empty. -/
def minOf (d : Nat) : List Nat → Nat
  | [] => d
  | x :: r => Nat.min x (minOf x r)

/-- Ceiling of a quotient. -/
def cdiv (a b : Nat) : Nat := (a + b - 1) / b

/-- a − b in two's complement arithmetic of an address or a counter. -/
def wrapAdd (bits a : Nat) (d : Int) : Nat := (((a : Int) + d) % (2 ^ bits : Nat)).toNat

end Sys2Proof.Machine
end

