-- ==== Sys2Proof/Machine/Digest.lean ====
section
/-! DEFINITION. The checks and digests over byte strings: CRC-32C (R156), CRC-64 (R162), SHA-256
(FIPS 180-4, R163) and Philox4x32-10 (R88). -/

namespace Sys2Proof.Machine

/-- One bit of a reflected CRC. -/
def crcBit (poly c : Nat) : Nat := if c % 2 = 1 then (c / 2) ^^^ poly else c / 2

/-- One byte of a reflected CRC. -/
def crcByte (poly c : Nat) (b : Byte) : Nat :=
  let c := c ^^^ b.toNat
  crcBit poly (crcBit poly (crcBit poly (crcBit poly
    (crcBit poly (crcBit poly (crcBit poly (crcBit poly c)))))))

/-- CRC-32C (R156): the reflected polynomial of 0x1EDC_6F41. -/
def crc32c (bs : List Byte) : Nat := (bs.foldl (crcByte 0x82F63B78) 0xFFFFFFFF) ^^^ 0xFFFFFFFF

/-- The frame check sequence of IEEE 802.3 (PRESUMED, the standard's CRC-32). -/
def fcs32 (bs : List Byte) : Nat := (bs.foldl (crcByte 0xEDB88320) 0xFFFFFFFF) ^^^ 0xFFFFFFFF

/-- CRC-64 (R162): the reflected polynomial of 0x42F0_E1EB_A9EA_3693. -/
def crc64 (bs : List Byte) : Nat :=
  (bs.foldl (crcByte 0xC96C5795D7870F42) 0xFFFFFFFFFFFFFFFF) ^^^ 0xFFFFFFFFFFFFFFFF

/-- The largest r below a bound with r ^ k ≤ n, found bit by bit from bit `i` down. -/
def rootBits (k n : Nat) : Nat → Nat → Nat
  | 0, r => r
  | i + 1, r => rootBits k n i (if (r + 2 ^ i) ^ k ≤ n then r + 2 ^ i else r)

/-- No number from 2 up to `d` divides n. -/
def noDivisor (n : Nat) : Nat → Bool
  | 0 => true
  | d + 1 => (d == 0 || n % (d + 1) != 0) && noDivisor n d

/-- The primes below a bound, rising. -/
def primesBelow (b : Nat) : List Nat := (List.range b).filter fun n => 2 ≤ n && noDivisor n (n - 1)

/-- The first 32 bits of the fraction of the k-th root of a small number. -/
def rootFraction (k n : Nat) : W32 := BitVec.ofNat 32 (rootBits k (n * 2 ^ (32 * k)) 38 0)

/-- The 64 round constants of SHA-256, from the cube roots of the first 64 primes (the hash of R163). -/
def shaK : List W32 := (primesBelow 312).map (rootFraction 3)

/-- A chaining value: its eight words, first word first. -/
abbrev ShaState := List W32

/-- The initial chaining value, from the square roots of the first eight primes. -/
def shaInit : ShaState := (primesBelow 20).map (rootFraction 2)

/-- Exclusive or of a word rotated right by each amount of a list. -/
def rotMix (w : W32) (by_ : List Nat) : W32 := by_.foldl (fun x r => x ^^^ w.rotateRight r) 0

/-- Where the first word has a 1 the second word's bit, elsewhere the third's. -/
def pickBits (c x y : W32) : W32 := y ^^^ (c &&& (x ^^^ y))

/-- One round: the words move down one place, the first and the fifth take the sums. The majority of three
bits is the third where the first two differ, and the first elsewhere. -/
def shaRound (v : ShaState) (kw : W32) : ShaState :=
  match v with
  | [a, b, c, d, e, f, g, h] =>
    let t := h + rotMix e [6, 11, 25] + pickBits e f g + kw
    [t + rotMix a [2, 13, 22] + pickBits (a ^^^ b) c a, a, b, c, d + t, e, f, g]
  | _ => v

/-- The message schedule extended by `n` words; the newest words stand first. -/
def shaExtend : Nat → List W32 → List W32
  | 0, w => w
  | n + 1, w =>
    let old := w.getD 14 0
    let near := w.getD 1 0
    shaExtend n ((w.getD 15 0 + w.getD 6 0 + (rotMix old [7, 18] ^^^ old >>> 3)
      + (rotMix near [17, 19] ^^^ near >>> 10)) :: w)

/-- The chaining value after one block of 64 bytes. -/
def shaBlock (v : ShaState) (block : List Byte) : ShaState :=
  let first16 := (List.range 16).map fun i => BitVec.ofNat 32 (beNat ((block.drop (4 * i)).take 4))
  let schedule := (shaExtend 48 first16.reverse).reverse
  List.zipWith (· + ·) v ((List.zipWith (· + ·) shaK schedule).foldl shaRound v)

/-- The chaining value after `n` blocks. -/
def shaBlocks : Nat → List Byte → ShaState → ShaState
  | 0, _, v => v
  | n + 1, bs, v => shaBlocks n (bs.drop 64) (shaBlock v (bs.take 64))

/-- A message filled up to whole blocks: a 1 bit, zeros, the length in bits. -/
def shaPadded (bs : List Byte) : List Byte :=
  bs ++ 0x80 :: List.replicate ((119 - bs.length % 64) % 64) 0 ++ beBytes 8 (8 * bs.length)

/-- SHA-256 of a byte string: 32 bytes. -/
def sha256 (bs : List Byte) : List Byte :=
  let p := shaPadded bs
  (shaBlocks (p.length / 64) p shaInit).flatMap fun w => beBytes 4 w.toNat

/-- One round of Philox4x32 (R88). -/
def philoxRound (c : List Nat) (k0 k1 : Nat) : List Nat :=
  let p0 := 0xD2511F53 * c.getD 0 0
  let p1 := 0xCD9E8D57 * c.getD 2 0
  [(p1 / 2 ^ 32) ^^^ c.getD 1 0 ^^^ k0, p1 % 2 ^ 32, (p0 / 2 ^ 32) ^^^ c.getD 3 0 ^^^ k1,
    p0 % 2 ^ 32]

/-- Rounds with the key raised by the Weyl constants between them. -/
def philoxRounds : Nat → List Nat → Nat → Nat → List Nat
  | 0, c, _, _ => c
  | n + 1, c, k0, k1 => philoxRounds n (philoxRound c k0 k1)
      ((k0 + 0x9E3779B9) % 2 ^ 32) ((k1 + 0xBB67AE85) % 2 ^ 32)

/-- Philox4x32-10: four counter words and a two-word key give four words (R88). -/
def philox (ctr : List Nat) (k0 k1 : Nat) : List Nat := philoxRounds 10 ctr k0 k1

end Sys2Proof.Machine
end

