-- ==== Sys2Proof/Machine/Numerics.lean ====
section
/-! DEFINITION. Exact numerics (chapter 03): formats, exact values, rounding, frames and element
arithmetic: R73–R93. Every operation is exact on `Val` and is rounded once. -/

namespace Sys2Proof.Machine

/-! ### Values and formats -/

/-- An exact value: NaN, an infinity, a signed zero, or ±m × 2^e with m > 0. -/
inductive Val where
  | nan
  | inf (neg : Bool)
  | zero (neg : Bool)
  | fin (neg : Bool) (m : Nat) (e : Int)
  deriving DecidableEq, Repr

/-- A finite value from sign, magnitude and exponent; magnitude 0 is a zero of that sign. -/
def mkVal (neg : Bool) (m : Nat) (e : Int) : Val := if m = 0 then .zero neg else .fin neg m e

/-- The sign of a value that has one. -/
def Val.neg : Val → Bool
  | .nan => false | .inf n => n | .zero n => n | .fin n _ _ => n

/-- The value with its sign set. -/
def Val.withSign (n : Bool) : Val → Val
  | .nan => .nan | .inf _ => .inf n | .zero _ => .zero n | .fin _ m e => .fin n m e

/-- The value with its sign turned. -/
def Val.negate (v : Val) : Val := v.withSign (!v.neg)

/-- Number of significant bits of a magnitude. -/
def bitLen (m : Nat) : Nat := if m = 0 then 0 else m.log2 + 1

/-- Unbiased exponent of the leading 1-bit of a finite nonzero value (R82). -/
def leadExp (m : Nat) (e : Int) : Int := e + (bitLen m - 1 : Nat)

/-- A floating-point format: exponent bits, stored significand bits, bias, infinities, and the codes of the
largest finite magnitude and of the canonical NaN (R73, R86). -/
structure FloatFmt where
  ebits : Nat
  mbits : Nat
  bias : Nat
  hasInf : Bool
  maxCode : Nat
  nan : Option Nat
  deriving DecidableEq, Repr

/-- The float format of an element format code (R73), MX codes by their element format. -/
def floatFmt (f : Nat) : Option FloatFmt :=
  match f with
  | 0x03 | 0x15 => some ⟨2, 1, 1, false, 7, none⟩
  | 0x04 | 0x13 => some ⟨2, 3, 1, false, 31, none⟩
  | 0x05 | 0x14 => some ⟨3, 2, 3, false, 31, none⟩
  | 0x06 | 0x11 => some ⟨4, 3, 7, false, 0x7E, some 0x7F⟩
  | 0x07 | 0x12 => some ⟨5, 2, 15, true, 0x7B, some 0x7E⟩
  | 0x08 => some ⟨5, 10, 15, true, 0x7BFF, some 0x7E00⟩
  | 0x09 => some ⟨8, 7, 127, true, 0x7F7F, some 0x7FC0⟩
  | 0x0A => some ⟨8, 23, 127, true, 0x7F7FFFFF, some 0x7FC00000⟩
  | _ => none

/-- Bits of an integer element format and the exponent of its unit: MXINT8 elements are scaled by 2^−6. -/
def intFmt (f : Nat) : Option (Nat × Int) :=
  match f with
  | 0x01 => some (4, 0) | 0x02 => some (8, 0) | 0x16 => some (8, -6) | 0x20 => some (32, 0)
  | _ => none

/-- Bits of an element (R73, R86). -/
def elemBits (f : Nat) : Nat :=
  match f with
  | 0x01 | 0x03 | 0x15 => 4
  | 0x04 | 0x05 | 0x13 | 0x14 => 6
  | 0x08 | 0x09 => 16
  | 0x0A | 0x20 => 32
  | 0x21 => 128
  | _ => 8

/-- A matrix operand format (R73). -/
def isMatrixFmt (f : Nat) : Bool := (1 ≤ f && f ≤ 9) || (0x11 ≤ f && f ≤ 0x16)
def isMx (f : Nat) : Bool := 0x11 ≤ f && f ≤ 0x16
/-- Two products per element per beat (R103). -/
def isTwoProduct (f : Nat) : Bool := f == 0x01 || f == 0x03 || f == 0x15
/-- A format code of R73. -/
def isElemFmt (f : Nat) : Bool := isMatrixFmt f || f == 0x0A
/-- An OUT_FMT code of R125. -/
def isOutFmt (f : Nat) : Bool := [0x0A, 0x08, 0x09, 0x06, 0x07, 0x02, 0x20, 0x21].contains f

/-- The pair of operand formats is permitted (R74). -/
def pairOk (a b : Nat) : Bool :=
  a == b || ([a, b].all fun f => f == 6 || f == 7) || ([a, b].all fun f => f == 4 || f == 5) ||
  ([a, b].all fun f => f == 0x11 || f == 0x12) || ([a, b].all fun f => f == 0x13 || f == 0x14)

/-- The lsb exponent of a format (R73). -/
def lsbExp (f : Nat) : Int :=
  match f with
  | 0x03 | 0x15 => -1 | 0x04 | 0x13 => -3 | 0x05 | 0x14 => -4 | 0x06 | 0x11 => -9
  | 0x07 | 0x12 => -16 | 0x08 => -24 | 0x09 => -133 | 0x0A => -149 | 0x16 => -6 | _ => 0

/-- The value that a code of a float format encodes; subnormals are values (R73). -/
def decodeFloat (q : FloatFmt) (code : Nat) : Val :=
  let man := code % 2 ^ q.mbits
  let ex := code / 2 ^ q.mbits % 2 ^ q.ebits
  let neg := code / 2 ^ (q.mbits + q.ebits) % 2 == 1
  let mag := code % 2 ^ (q.mbits + q.ebits)
  if q.hasInf && ex + 1 == 2 ^ q.ebits then (if man = 0 then .inf neg else .nan)
  else if !q.hasInf && q.nan == some mag then .nan
  else if ex = 0 then mkVal neg man (1 - (q.bias : Int) - q.mbits)
  else .fin neg (2 ^ q.mbits + man) ((ex : Int) - q.bias - q.mbits)

/-- The value of an element code (R73). -/
def decodeElem (f code : Nat) : Val :=
  match floatFmt f with
  | some q => decodeFloat q code
  | none => match intFmt f with
    | some (n, e) =>
      let c := code % 2 ^ n
      if c ≥ 2 ^ (n - 1) then mkVal true (2 ^ n - c) e else mkVal false c e
    | none => .nan

/-! ### Rounding -/

/-- Rounding of R85: code 0 nearest-even, 1 half-up, 2 toward zero, 3 stochastic with the word u (R88). -/
structure Rounding where
  mode : Nat
  inf : Bool := true
  shift : Nat := 0
  u : Nat := 0
  deriving DecidableEq, Repr

/-- What a conversion counts (R94). -/
structure Counts where
  discards : Nat := 0
  overflows : Nat := 0
  nanToNumber : Nat := 0
  windowed : Nat := 0
  deriving DecidableEq, Repr

def Counts.add (a b : Counts) : Counts :=
  ⟨a.discards + b.discards, a.overflows + b.overflows, a.nanToNumber + b.nanToNumber,
    a.windowed + b.windowed⟩

def countOverflow : Counts := { overflows := 1 }

/-- The magnitude m × 2^e rounded to a multiple of 2^q: the multiple (R85, R88). -/
def roundAt (r : Rounding) (neg : Bool) (m : Nat) (e q : Int) : Nat :=
  if e ≥ q then m * 2 ^ (e - q).toNat
  else
    let sh := (q - e).toNat
    let t := m / 2 ^ sh
    let rest := m % 2 ^ sh
    let half := 2 ^ sh
    let up := match r.mode with
      | 0 => decide (2 * rest > half) || (2 * rest == half && t % 2 == 1)
      | 1 => decide (2 * rest > half) || (2 * rest == half && !neg)
      | 2 => false
      | _ => decide (r.u < rest * 2 ^ 32 / half)
    if up then t + 1 else t

/-- A sign bit set in a code. -/
def signCode (q : FloatFmt) (neg : Bool) (mag : Nat) : Nat :=
  if neg then 2 ^ (q.ebits + q.mbits) + mag else mag

/-- The code of infinity of a format that has one. -/
def infCode (q : FloatFmt) : Nat := (2 ^ q.ebits - 1) * 2 ^ q.mbits

/-- A magnitude beyond the format's range (R86). -/
def overflowCode (q : FloatFmt) (r : Rounding) (neg : Bool) : Nat × Counts :=
  (signCode q neg (if r.inf && q.hasInf && r.mode != 2 then infCode q else q.maxCode),
    countOverflow)

/-- A value rounded once into a float format (R85, R86). -/
def roundFloat (q : FloatFmt) (r : Rounding) (v : Val) : Nat × Counts :=
  match v with
  | .nan => match q.nan with
    | some c => (c, {})
    | none => (0, { nanToNumber := 1 })
  | .inf n => if q.hasInf then (signCode q n (infCode q), {})
    else (signCode q n q.maxCode, countOverflow)
  | .zero n => (signCode q n 0, {})
  | .fin n m e =>
    let emin : Int := 1 - (q.bias : Int)
    let lead := leadExp m e
    if lead > (q.bias : Int) + 2 then overflowCode q r n
    else
      let unit := (if lead < emin then emin else lead) - q.mbits
      let t := roundAt r n m e unit
      let big := t ≥ 2 ^ (q.mbits + 1)
      let t' := if big then t / 2 else t
      let unit' := if big then unit + 1 else unit
      let ex := if t' < 2 ^ q.mbits then 0 else (unit' + q.mbits + q.bias).toNat
      let code := if t' < 2 ^ q.mbits then t' else ex * 2 ^ q.mbits + (t' - 2 ^ q.mbits)
      if code > q.maxCode then overflowCode q r n else (signCode q n code, {})

/-- A value scaled by 2^−SHIFT and rounded once into a two's complement integer of n bits whose unit is
2^e0 (R86, R87). The most negative code stands for −largest finite of MXINT8 too, as R86 has it for INT8 (DESIGN
CHOICE, notes/assumptions/84.md). -/
def roundInt (n : Nat) (e0 : Int) (r : Rounding) (v : Val) : Nat × Counts :=
  let top := 2 ^ (n - 1) - 1
  let bottom := 2 ^ (n - 1)
  match v with
  | .nan => (0, { nanToNumber := 1 })
  | .inf s => (if s then bottom else top, countOverflow)
  | .zero _ => (0, {})
  | .fin s m e =>
    let e := e - r.shift
    if leadExp m e > e0 + n then (if s then bottom else top, countOverflow)
    else
      let t := roundAt r s m e e0
      if s then (if t > bottom then (bottom, countOverflow) else ((2 ^ n - t) % 2 ^ n, {}))
      else if t > top then (top, countOverflow) else (t, {})

/-- A value rounded once into an output format: its code and what is counted. -/
def roundTo (f : Nat) (r : Rounding) (v : Val) : Nat × Counts :=
  match floatFmt f with
  | some q => roundFloat q r v
  | none => match intFmt f with
    | some (n, e0) => roundInt n e0 r v
    | none => (0, {})

/-- The stochastic word of an output element (R88). -/
def stochasticWord (seed : W64) (flat op step chip : Nat) : Nat :=
  (philox [flat / 4 % 2 ^ 32, op % 2 ^ 32, step % 2 ^ 32, chip % 2 ^ 16]
    (fld seed 31 0) (fld seed 63 32)).getD (flat % 4) 0

/-! ### Exact arithmetic -/

/-- A signed integer at an exponent. -/
def sval (neg : Bool) (m : Nat) : Int := if neg then -(m : Int) else m

/-- A finite value from a signed integer; an exact sum of 0 is +0. -/
def ofInt (v : Int) (e : Int) : Val :=
  if v = 0 then .zero false else .fin (decide (v < 0)) v.natAbs e

/-- The sum of two values, exact (R89). -/
def addV (a b : Val) : Val :=
  match a, b with
  | .nan, _ => .nan
  | _, .nan => .nan
  | .inf x, .inf y => if x == y then .inf x else .nan
  | .inf x, _ => .inf x
  | _, .inf y => .inf y
  | .zero x, .zero y => .zero (x && y)
  | .zero _, v => v
  | v, .zero _ => v
  | .fin x m e, .fin y n f =>
    let g := min e f
    ofInt (sval x m * 2 ^ (e - g).toNat + sval y n * 2 ^ (f - g).toNat) g

def subV (a b : Val) : Val := addV a b.negate

/-- The product of two values, exact (R76). -/
def mulV (a b : Val) : Val :=
  let s := a.neg != b.neg
  match a, b with
  | .nan, _ => .nan
  | _, .nan => .nan
  | .inf _, .zero _ => .nan
  | .zero _, .inf _ => .nan
  | .inf _, _ => .inf s
  | _, .inf _ => .inf s
  | .zero _, _ => .zero s
  | _, .zero _ => .zero s
  | .fin _ m e, .fin _ n f => .fin s (m * n) (e + f)

def fmaV (a b c : Val) : Val := addV (mulV a b) c

/-- The quotient, exact down to a sticky bit far below any format's precision. -/
def divV (a b : Val) : Val :=
  let s := a.neg != b.neg
  match a, b with
  | .nan, _ => .nan
  | _, .nan => .nan
  | .inf _, .inf _ => .nan
  | .zero _, .zero _ => .nan
  | .inf _, _ => .inf s
  | _, .inf _ => .zero s
  | .zero _, _ => .zero s
  | _, .zero _ => .inf s
  | .fin _ m e, .fin _ n f =>
    let k := 128 + bitLen n
    let q := m * 2 ^ k / n
    .fin s (2 * q + b2n (m * 2 ^ k % n != 0)) (e - f - k - 1)

/-- The square root, exact down to a sticky bit. -/
def sqrtV : Val → Val
  | .nan => .nan
  | .inf n => if n then .nan else .inf false
  | .zero n => .zero n
  | .fin n m e =>
    if n then .nan
    else
      let odd := e % 2 != 0
      let m := (if odd then 2 * m else m) * 2 ^ 256
      let e := (if odd then e - 1 else e) - 256
      let r := Nat.sqrt m
      .fin false (2 * r + b2n (r * r != m)) (e / 2 - 1)

/-- Order of two values that are not NaN, −0 below +0. -/
def ltV (a b : Val) : Bool :=
  match a, b with
  | .nan, _ => false
  | _, .nan => false
  | .inf x, .inf y => x && !y
  | .inf x, _ => x
  | _, .inf y => !y
  | .zero x, .zero y => x && !y
  | .zero _, .fin y _ _ => !y
  | .fin x _ _, .zero _ => x
  | .fin x m e, .fin y n f =>
    let g := min e f
    decide (sval x m * 2 ^ (e - g).toNat < sval y n * 2 ^ (f - g).toNat)

/-- IEEE 754-2019 maximum and minimum (R89). -/
def maxV (a b : Val) : Val :=
  if a == .nan || b == .nan then .nan else if ltV a b then b else a
def minV (a b : Val) : Val :=
  if a == .nan || b == .nan then .nan else if ltV b a then b else a

/-- roundToIntegralTiesToEven (R89). -/
def rintV : Val → Val
  | .fin n m e => if e ≥ 0 then .fin n m e else mkVal n (roundAt { mode := 0 } n m e 0) 0
  | v => v

/-- scaleB with the cases of its table (R89). A finite n is held within ±4,000, beyond which every FP32
p gives the same result. -/
def scalebV (p n : Val) : Val :=
  match p, n with
  | .nan, _ => .nan
  | _, .nan => .nan
  | .zero s, .inf x => if x then .zero s else .nan
  | .zero s, _ => .zero s
  | .inf s, .inf x => if x then .nan else .inf s
  | .inf s, _ => .inf s
  | .fin s _ _, .inf x => if x then .zero s else .inf s
  | v, .zero _ => v
  | .fin s m e, k =>
    match rintV k with
    | .fin x a b =>
      let d := if leadExp a b > 12 then 4000 else Nat.min 4000 (a * 2 ^ b.toNat)
      .fin s m (e + sval x d)
    | _ => .fin s m e

/-! ### Frames (R76–R82) -/

/-- A frame or wide partial: the table of R79. -/
inductive Frame where
  | nan
  | inf (neg : Bool)
  | negZero
  | fin (v : Int)
  deriving DecidableEq, Repr

/-- R79. -/
def Frame.add : Frame → Frame → Frame
  | .nan, _ => .nan
  | _, .nan => .nan
  | .inf x, .inf y => if x == y then .inf x else .nan
  | .inf x, _ => .inf x
  | _, .inf y => .inf y
  | .negZero, .negZero => .negZero
  | .negZero, .fin v => .fin v
  | .fin v, .negZero => .fin v
  | .fin a, .fin b => .fin (a + b)

/-- A product carried into a frame of lsb exponent L, truncated toward zero (R81, R82), with what it
discards. -/
def toFrame (l : Int) : Val → Frame × Nat
  | .nan => (.nan, 0)
  | .inf n => (.inf n, 0)
  | .zero n => (if n then .negZero else .fin 0, 0)
  | .fin n m e =>
    if e ≥ l then (.fin (sval n (m * 2 ^ (e - l).toNat)), 0)
    else
      let sh := (l - e).toNat
      (.fin (sval n (m / 2 ^ sh)), b2n (m % 2 ^ sh != 0))

/-- The value of a frame at lsb exponent L. -/
def Frame.val (l : Int) : Frame → Val
  | .nan => .nan
  | .inf n => .inf n
  | .negZero => .zero true
  | .fin v => ofInt v l

/-- The 128-bit wide partial of a frame (R78). -/
def Frame.encode : Frame → Nat
  | .nan => 2 * 2 ^ 125
  | .inf n => (if n then 6 else 1) * 2 ^ 125
  | .negZero => 5 * 2 ^ 125
  | .fin v => Int.toNat (Int.emod v (2 ^ 128))

/-- A wide partial read back; none, a detected fault: a reserved KIND, or VALUE not 0 under a KIND that is not finite
(R78). A finite KIND that is not the sign extension of VALUE counts as the same fault (DESIGN CHOICE,
notes/assumptions/84.md). -/
def decodeFrame (w : Nat) : Option Frame :=
  let kind : Nat := w / 2 ^ 125
  let value : Nat := w % 2 ^ 125
  match kind with
  | 0 => if value < 2 ^ 124 then some (.fin value) else none
  | 7 => if value ≥ 2 ^ 124 then some (.fin (Int.sub value (2 ^ 125))) else none
  | 1 => if value = 0 then some (.inf false) else none
  | 6 => if value = 0 then some (.inf true) else none
  | 2 => if value = 0 then some .nan else none
  | 5 => if value = 0 then some .negZero else none
  | _ => none

/-- Products added into a frame; none: no product yet (R79, R110). A finite product that truncates to 0 adds
nothing and still counts (R82). -/
def accumulate (l : Int) (start : Option Frame) (ps : List Val) : Option Frame × Nat :=
  ps.foldl (fun a p =>
    let x := toFrame l p
    if x.2 == 1 && x.1 == .fin 0 then (a.1, a.2 + 1)
    else (some (match a.1 with | some f => f.add x.1 | none => x.1), a.2 + x.2)) (start, 0)

/-- The largest leading exponent over the finite nonzero values: the anchor E (R82, R90). -/
def anchorOf (ps : List Val) : Option Int :=
  ps.foldl (fun a p => match p with
    | .fin _ m e => some (match a with
      | some x => max x (leadExp m e) | none => leadExp m e)
    | _ => a) none

/-- framesum and framedot before their one rounding (R90): the value and the discards. The exponent sum of
a product is that of its two terms. -/
def frameSum (terms : List (Val × Val)) : Val × Nat :=
  let e := terms.foldl (fun (a : Option Int) t => match t with
    | (.fin _ m e, .fin _ n f) =>
      let x := leadExp m e + leadExp n f
      some (match a with | some y => max y x | none => x)
    | _ => a) none
  let l := e.getD 0 - 102
  let r := accumulate l none (terms.map fun t => mulV t.1 t.2)
  ((match r.1 with | some f => f.val l | none => .zero false), r.2)

/-- The value 1. -/
def oneV : Val := .fin false 1 0

/-! ### FP32 steps of the composite functions (R91, R92) -/

def fp32Fmt : FloatFmt := ⟨8, 23, 127, true, 0x7F7FFFFF, some 0x7FC00000⟩

/-- The value of an FP32 code. -/
def f32 (code : Nat) : Val := decodeFloat fp32Fmt code

/-- One rounding, nearest-even, into FP32. -/
def step32 (v : Val) : Val := f32 (roundFloat fp32Fmt { mode := 0 } v).1

def add32 (a b : Val) : Val := step32 (addV a b)
def sub32 (a b : Val) : Val := step32 (subV a b)
def mul32 (a b : Val) : Val := step32 (mulV a b)
def div32 (a b : Val) : Val := step32 (divV a b)
def fma32 (a b c : Val) : Val := step32 (fmaV a b c)
def sqrt32 (a : Val) : Val := step32 (sqrtV a)
def scaleb32 (a b : Val) : Val := step32 (scalebV a b)

/-- exp (R91). -/
def expV (x : Val) : Val :=
  if x == .nan then .nan
  else if ltV (f32 0x42B20000) x then .inf false
  else if ltV x (f32 0xC2D00000) then .zero false
  else
    let n := step32 (rintV (mul32 x (f32 0x3FB8AA3B)))
    let r := fma32 n.negate (f32 0x3F317200) x
    let r := fma32 n.negate (f32 0x35BFBE8E) r
    let p := fma32 r (f32 0x3AB60B61) (f32 0x3C088889)
    let p := fma32 p r (f32 0x3D2AAAAB)
    let p := fma32 p r (f32 0x3E2AAAAB)
    let p := fma32 p r (f32 0x3F000000)
    let p := fma32 p r (f32 0x3F800000)
    let p := fma32 p r (f32 0x3F800000)
    scaleb32 p n

/-- log (R91). -/
def logV (x : Val) : Val :=
  match x with
  | .nan => .nan
  | .zero _ => .inf true
  | .inf n => if n then .nan else .inf false
  | .fin neg mm ee =>
    if neg then .nan
    else
      let lead := leadExp mm ee
      let m0 : Val := .fin false mm (ee - lead)
      let big := ltV (f32 0x3FB504F3) m0
      let m := if big then mul32 m0 (f32 0x3F000000) else m0
      let e := ofInt (if big then lead + 1 else lead) 0
      let f := sub32 m oneV
      let s := div32 f (add32 f (f32 0x40000000))
      let z := mul32 s s
      let q := fma32 z (f32 0x3DE38E39) (f32 0x3E124925)
      let q := fma32 q z (f32 0x3E4CCCCD)
      let q := fma32 q z (f32 0x3EAAAAAB)
      let q := fma32 q z oneV
      let t := mul32 (add32 s s) q
      let y := fma32 e (f32 0x35BFBE8E) t
      fma32 e (f32 0x3F317200) y

/-- sigmoid, silu, tanh, gelu, rsqrt (R92). -/
def sigmoidV (x : Val) : Val := div32 oneV (add32 oneV (expV x.negate))
def siluV (x : Val) : Val := mul32 x (sigmoidV x)
def tanhV (x : Val) : Val :=
  let a := x.withSign false
  let r := if a == .nan then .nan
    else if !ltV a (f32 0x41100000) then oneV
    else sub32 oneV (div32 (f32 0x40000000) (add32 (expV (add32 a a)) oneV))
  r.withSign x.neg
def geluV (x : Val) : Val :=
  mul32 (mul32 (f32 0x3F000000) x) (add32 oneV (tanhV (mul32 (f32 0x3F4C422A)
    (fma32 (mul32 (f32 0x3D372713) x) (mul32 x x) x))))
def rsqrtV (x : Val) : Val := div32 oneV (sqrt32 x)

/-- A framesum or framedot step: rounded once, nearest-even, into FP32. -/
def frame32 (terms : List (Val × Val)) : Val × Nat :=
  let r := frameSum terms
  (step32 r.1, r.2)

/-- A row length as FP32. -/
def lenV (n : Nat) : Val := mkVal false n 0

/-- softmax of a row (R92): results and discards. -/
def softmaxRow (xs : List Val) : List Val × Nat :=
  let m := match xs with
    | [] => .zero false
    | x :: r => r.foldl maxV x
  let es := xs.map fun x => expV (sub32 x m)
  let s := frame32 (es.map fun e => (e, oneV))
  (es.map fun e => div32 e s.1, s.2)

/-- layernorm of a row with ε, γ, β (R92). -/
def layernormRow (eps : Val) (xs gs bs : List Val) : List Val × Nat :=
  let n := lenV xs.length
  let s := frame32 (xs.map fun x => (x, oneV))
  let mu := div32 s.1 n
  let ds := xs.map fun x => sub32 x mu
  let v := frame32 (ds.map fun d => (d, d))
  let r := rsqrtV (add32 (div32 v.1 n) eps)
  ((List.range xs.length).map fun i =>
    fma32 (mul32 (ds.getD i .nan) r) (gs.getD i oneV) (bs.getD i (.zero false)), s.2 + v.2)

/-- rmsnorm of a row with ε, γ (R92). -/
def rmsnormRow (eps : Val) (xs gs : List Val) : List Val × Nat :=
  let n := lenV xs.length
  let q := frame32 (xs.map fun x => (x, x))
  let r := rsqrtV (add32 (div32 q.1 n) eps)
  ((List.range xs.length).map fun i => mul32 (mul32 (xs.getD i .nan) r) (gs.getD i oneV), q.2)

/-! ### MX quantisation (R93) -/

/-- The largest exponent of an element format. -/
def emaxOf (f : Nat) : Int :=
  match f with
  | 0x03 | 0x15 | 0x04 | 0x13 => 2
  | 0x05 | 0x14 => 4
  | 0x06 | 0x11 => 8
  | 0x07 | 0x12 => 15
  | _ => 0

/-- A block quantised: the scale code, the element codes and what is counted. -/
def quantBlock (f : Nat) (rs : Nat → Rounding) (first : Nat) (xs : List Val) :
    Nat × List Nat × Counts :=
  if xs.any (· == .nan) then (0xFF, xs.map fun _ => 0, {})
  else
    let hasInf := xs.any fun x => match x with | .inf _ => true | _ => false
    match hasInf, anchorOf xs with
    | false, none => (0, (List.range xs.length).map (fun i =>
        (roundTo f { rs (first + i) with inf := false } (xs.getD i .nan)).1), {})
    | _, a =>
      let e := if hasInf then 127 else max (-127) (min 127 (a.getD 0 - emaxOf f))
      let outs := (List.range xs.length).map fun i =>
        let v := match xs.getD i .nan with
          | .fin n m x => Val.fin n m (x - e)
          | v => v
        roundTo f { rs (first + i) with inf := false } v
      ((e + 127).toNat, outs.map (·.1), outs.foldl (fun c o => c.add o.2) {})

/-! ### Operations of the element engines by code (R130) -/

/-- A list cut into rows of n; the last may be shorter. `fuel` bounds the rows. -/
def rowsOf {α : Type} (n : Nat) : Nat → List α → List (List α)
  | 0, _ => []
  | fuel + 1, l => if l.isEmpty then [] else l.take n :: rowsOf n fuel (l.drop n)

/-- The exact result of an elementwise operation (R89), or the FP32 result of a composite function (R91,
R92). -/
def elemFn (op : Nat) (a b c : Val) : Val :=
  match op with
  | 0x01 => addV a b
  | 0x02 => subV a b
  | 0x03 => mulV a b
  | 0x04 => fmaV a b c
  | 0x05 => divV a b
  | 0x06 => sqrtV a
  | 0x07 => maxV a b
  | 0x08 => minV a b
  | 0x09 => rintV a
  | 0x0A => scalebV a b
  | 0x0B => a
  | 0x10 => expV a
  | 0x11 => logV a
  | 0x12 => sigmoidV a
  | 0x13 => siluV a
  | 0x14 => tanhV a
  | 0x15 => geluV a
  | _ => rsqrtV a

/-- Results of a row operation on one row, with what it discards (R90, R92). -/
def rowFn (op : Nat) (eps : Val) (xs ys gs bs : List Val) : List Val × Nat :=
  match op with
  | 0x20 => let r := frameSum (xs.map fun x => (x, oneV)); ([r.1], r.2)
  | 0x21 => let r := frameSum (xs.zip ys); ([r.1], r.2)
  | 0x22 => softmaxRow xs
  | 0x23 => layernormRow eps xs gs bs
  | _ => rmsnormRow eps xs gs

/-! ### Dot products of the matrix engines (R75–R83) -/

/-- The exponent of a scale byte; none: 0xFF (R75). -/
def scaleExp (c : Nat) : Option Int := if c == 0xFF then none else some ((c : Int) - 127)

/-- A value times 2^k. -/
def scaleVal (k : Int) : Val → Val
  | .fin n m e => .fin n m (e + k)
  | v => v

/-- The anchor word of an output element (R80). -/
structure AnchorWord where
  windowed : Bool
  empty : Bool
  exp : Int
  deriving DecidableEq, Repr

def decodeAnchor (w : Nat) : AnchorWord :=
  let w : BitVec 16 := BitVec.ofNat 16 w
  { windowed := bitOf w 15, empty := bitOf w 14, exp := sfld w 9 0 }

def AnchorWord.encode (a : AnchorWord) : Nat :=
  b2n a.windowed * 2 ^ 15 + b2n a.empty * 2 ^ 14 + Int.toNat (a.exp % 1024)

/-- The lsb exponent of a frame under its anchor word, for the lsb exponent of the two operand formats (R81, R82). -/
def AnchorWord.lsb (a : AnchorWord) (formats : Int) : Int :=
  if a.windowed then a.exp - 102 else formats + a.exp

/-- A term of a dot product: the two elements, and the sum of their blocks' scale exponents; none: a scale is 0xFF. -/
structure Term where
  a : Val
  b : Val
  scale : Option Int := some 0

/-- The product of a term (R76). -/
def Term.product (t : Term) : Val :=
  match t.scale with
  | none => .nan
  | some q => scaleVal q (mulV t.a t.b)

/-- The exponent sum of a term whose product is finite and not zero (R82). -/
def Term.exponent (t : Term) : Option Int :=
  match t.a, t.b, t.scale with
  | .fin _ m e, .fin _ n f, some q => some (leadExp m e + leadExp n f + q)
  | _, _, _ => none

def leastOf (l : List Int) : Option Int :=
  l.foldl (fun a x => some (match a with | some y => min y x | none => x)) none
def greatestOf (l : List Int) : Option Int :=
  l.foldl (fun a x => some (match a with | some y => max y x | none => x)) none

/-- A dot product before its rounding: its frame, anchor word and lsb exponent, and the products it truncated. -/
structure Dot where
  frame : Frame
  word : AnchorWord
  lsb : Int
  discards : Nat

/-- The anchor word of a dot product (R80–R83): BF16 is windowed, MX by its scale spread. Where K is split over chips,
the spread, the least scale sum and E are those of all shares (R84 step 1), and EMPTY is this share's. -/
def dotAnchor (f : Nat) (ts : List Term) (others : List ChipView := []) : AnchorWord :=
  let scales := ts.filterMap (·.scale)
  let lo := (leastOf (scales ++ others.filterMap (·.least))).getD 0
  let hi := (greatestOf (scales ++ others.filterMap (·.greatest))).getD 0
  let windowed := f == 0x09 || (isMx f && hi - lo > 40)
  let own := ts.filterMap Term.exponent
  { windowed := windowed, empty := own.isEmpty
    exp := if windowed then (greatestOf (own ++ others.filterMap (·.top))).getD 0 else if isMx f then lo else 0 }

/-- The dot product of its terms in operand formats fa and fb (R77, R79, R81, R82): +0 without a product. Other chips'
shares fix L with it (R84 step 2). -/
def dotProduct (fa fb : Nat) (ts : List Term) (others : List ChipView := []) : Dot :=
  let w := dotAnchor fa ts others
  let l := w.lsb (lsbExp fa + lsbExp fb)
  let r := accumulate l none (ts.map Term.product)
  { frame := r.1.getD (.fin 0), word := w, lsb := l, discards := r.2 }

/-! ### Packing (R181, R103) -/

/-- Element k of packed bytes, each byte read by `b` (R181). -/
def elemCode (f : Nat) (b : Nat → Nat) (k : Nat) : Nat :=
  match elemBits f with
  | 4 => b (k / 2) / 16 ^ (k % 2) % 16
  | 6 => (b (k / 4 * 3) + 256 * b (k / 4 * 3 + 1) + 65536 * b (k / 4 * 3 + 2)) / 64 ^ (k % 4) % 64
  | 16 => b (2 * k) + 256 * b (2 * k + 1)
  | 32 => b (4 * k) + 256 * b (4 * k + 1) + 65536 * b (4 * k + 2) + 16777216 * b (4 * k + 3)
  | _ => b k

/-- Bytes that n elements of a format take. -/
def packedBytes (f n : Nat) : Nat :=
  match elemBits f with
  | 6 => cdiv n 4 * 3
  | b => cdiv (n * b) 8

/-- Codes packed (R181): a final partial byte or group is filled with zero bits. -/
def packElems (f : Nat) (codes : List Nat) : List Byte :=
  let c (i : Nat) : Nat := codes.getD i 0
  match elemBits f with
  | 4 => (List.range (cdiv codes.length 2)).map fun i => BitVec.ofNat 8 (c (2 * i) + 16 * c (2 * i + 1))
  | 6 => (List.range (cdiv codes.length 4)).flatMap fun i =>
      leBytes 3 (c (4 * i) + 64 * c (4 * i + 1) + 4096 * c (4 * i + 2) + 262144 * c (4 * i + 3))
  | b => codes.flatMap fun x => leBytes (b / 8) x

end Sys2Proof.Machine
end

