-- ==== Sys2Proof/Config.lean ====
section
/-! DEFINITION. What an implementation, a standard outside the spec or the silicon fixes: constants
WITHOUT A BODY. Nothing in Lean can evaluate them, so a statement holds whatever they are. -/

namespace Sys2Proof

/-- The free value number n asked for at a place of the model: a value the spec leaves open
(notes/assumptions/3.md). State's own counter `freeCount` supplies n. -/
opaque Config.freeWord (site n : Nat) : W64

/-- A free byte string of a stated length: output bytes a standard outside the spec fixes. -/
opaque Config.freeByte (site n index : Nat) : Byte

/-- The HSS public key the firmware image is checked against; its SHA-256 is fused (R425). -/
opaque Config.imageKeyHash : List Byte

/-- Identity words fused at test, by register number (R434, R435, R436). -/
opaque Config.fused (word : Nat) : W64

/-- The attestation signature of signature index `i` over bytes (R437, R438). -/
opaque Config.attestSign (i : Nat) (message : List Byte) : List Byte

/-- The attestation public key and certificate bytes (R436). -/
opaque Config.attestCert : List Byte

/-- The energy table of an array domain: group, voltage index → energy, measured at test (R465). -/
opaque Config.energyTable (domain group index : Nat) : Nat

/-- The characterised energy [µJ] of a radio task or leased-engine pass by task kind and cell type, measured at test
(R60). -/
opaque Config.taskEnergy (kind cellType : Nat) : Nat

/-- The energy [mJ] with which a release of a cadence job is charged, by the program's header (R61). -/
opaque Config.releaseEnergy (header : List W64) : Nat

/-- The estimate [µJ] for an element domain, which R62 does not give: domain, beats (R72). -/
opaque Config.elementEstimate (domain beats : Nat) : Nat

/-- The estimate [pJ] of a free domain of no array and no pocket at a voltage index (R63). -/
opaque Config.windowEstimate (domain index : Nat) : Nat

/-- What a block unit computes by a standard outside the spec: the unit's kind code, the
descriptor's bytes and its operand bytes give output byte `i` (R285). -/
opaque Config.blockUnit (kind : Nat) (descriptor operands : List Byte) (i : Nat) : Byte

/-- Bytes of such an output where the spec does not give its length (R285). -/
opaque Config.blockLength (kind : Nat) (descriptor operands : List Byte) : Nat

/-- Iterations a decode of given bytes needs, by a standard outside the spec (R248). -/
opaque Config.decodeIterations (descriptor llrs : List Byte) : Nat

/-- The built-in fittings of a class in the boot ROM (R135, R169, R298): how many there are beyond one,
and the digest each must show. -/
opaque Config.builtinMore (cls : Nat) : Nat
opaque Config.builtinExpected (cls fitting : Nat) : List Byte

/-- Beats that a built-in fitting takes (R169). -/
opaque Config.builtinBeats (cls fitting : Nat) : Nat

/-- Whether a code of R158 detects more wrong symbols than it is sure to: 0 bonded DRAM, 1 LPDDR6, 2 SEC-DED. -/
opaque Config.detectsBeyond (code symbols : Nat) : Bool

/-- The reader-kind code of an ECC_UNCORRECTABLE record, which the spec names and does not number (R394):
0 a pass, the DMA or an element engine, 1 a host core, 2 a fabric request, 3 the scrub, 4 Tacor. -/
opaque Config.readerKind (reader : Nat) : W32

/-- What lowering computes from a program (R183, R184, R194), which the spec does not give as a function of its bytes:
pages of the save area, pages of the rings, and, of one release, the beats of its passes and the bytes of its DMA. -/
opaque Config.savePages (program : List Byte) : Nat
opaque Config.ringPages (program : List Byte) : Nat
opaque Config.releaseBeats (program : List Byte) : Nat
opaque Config.releaseBytes (program : List Byte) : Nat

/-- Byte i of a tensor whose contents the spec does not give: a tensor that nothing has written, or the OUT of an
operation whose tensors have shapes or formats that the spec states no result for (R179, R180). -/
opaque Config.tensorByte (program : List Byte) (step operation i : Nat) : Byte

end Sys2Proof
end

