-- ==== Sys2Proof/Machine/Tbl.lean ====
section
/-! DEFINITION. Indexed state as plain data: a list of (index, value) pairs in ONE canonical form
(indices strictly rising, no entry equal to the default), and the byte memories built from it. -/

namespace Sys2Proof.Machine

/-- State indexed by a number: registers of a bank, entries of a table, bytes of a memory. -/
abbrev Tbl (α : Type) := List (Nat × α)

/-- The value at an index; an unlisted index reads as the default `d`. -/
def tget {α : Type} (d : α) : Tbl α → Nat → α
  | [], _ => d
  | (k, v) :: r, x => if k = x then v else tget d r x

/-- The table without an index. -/
def tdel {α : Type} : Tbl α → Nat → Tbl α
  | [], _ => []
  | (k, v) :: r, x => if k = x then tdel r x else (k, v) :: tdel r x

/-- Insertion at the place that keeps the indices rising. -/
def tins {α : Type} (x : Nat) (v : α) : Tbl α → Tbl α
  | [] => [(x, v)]
  | (k, w) :: r => if x < k then (x, v) :: (k, w) :: r else (k, w) :: tins x v r

/-- The table with one index written; writing the default removes the entry. -/
def tset {α : Type} [DecidableEq α] (d : α) (t : Tbl α) (x : Nat) (v : α) : Tbl α :=
  if v = d then tdel t x else tins x v (tdel t x)

/-- The table with one entry changed by a function. -/
def tmod {α : Type} [DecidableEq α] (d : α) (t : Tbl α) (x : Nat) (f : α → α) : Tbl α :=
  tset d t x (f (tget d t x))

/-- Indices strictly rising. -/
def tsorted {α : Type} : Tbl α → Bool
  | [] => true
  | [_] => true
  | (a, _) :: (b, w) :: r => decide (a < b) && tsorted ((b, w) :: r)

/-- The canonical form: indices strictly rising, no entry equal to the default. -/
def Tbl.wf {α : Type} [DecidableEq α] (d : α) (t : Tbl α) : Bool :=
  tsorted t && t.all fun e => decide (e.2 ≠ d)

/-- A byte memory: an unlisted address reads 0 (DESIGN CHOICE, notes/assumptions/2.md). -/
abbrev Memory := Tbl Byte

/-- The canonical form of a memory. -/
abbrev Memory.wf (m : Memory) : Bool := Tbl.wf (0 : Byte) m

/-- One byte. -/
def rdByte (m : Memory) (a : Nat) : Byte := tget 0 m a

/-- One byte written. -/
def wrByte (m : Memory) (a : Nat) (b : Byte) : Memory := tset 0 m a b

/-- n bytes from an address. -/
def rdBytes (m : Memory) (a n : Nat) : List Byte := (List.range n).map fun i => rdByte m (a + i)

/-- A run of bytes written at an address. -/
def wrBytes : Memory → Nat → List Byte → Memory
  | m, _, [] => m
  | m, a, b :: bs => wrBytes (wrByte m a b) (a + 1) bs

/-- The range [a, a + n) zeroed. -/
def zeroBytes (m : Memory) (a n : Nat) : Memory := m.filter fun e => !(a ≤ e.1 && e.1 < a + n)

/-- The bytes of [src, src + n) written over [dst, dst + n): a frame copied (R34). -/
def copyBytes (m : Memory) (dst src n : Nat) : Memory :=
  (m.filter fun e => src ≤ e.1 && e.1 < src + n).foldl
    (fun m' e => wrByte m' (dst + (e.1 - src)) e.2) (zeroBytes m dst n)

/-- A saturating counter with a sticky SAT flag. -/
structure SatCtr where
  sat : Bool := false
  count : Nat := 0
  deriving DecidableEq, Repr

/-- The counter raised by n, saturating at `top` and then setting SAT. -/
def SatCtr.add (c : SatCtr) (top n : Nat) : SatCtr :=
  if c.count + n ≤ top then { c with count := c.count + n } else { sat := true, count := top }

end Sys2Proof.Machine
end

