-- ==== Sys2Proof/Machine/State.lean ====
section
/-! DEFINITION. The state of the FL8 as plain data: one structure per subsystem of the manual, every
field at its reset value (the spec's; where the spec gives none, the value its log entry names), the
queue of commands that are waiting, the outcomes' fault and refusal types, and `State.reset`. -/

namespace Sys2Proof.Machine

/-- What the block sends out, newest first in `State.out`: everything a partner sees. -/
inductive Out where
  /-- Bytes written to host memory for a sleeve (0: the manager staging range), with the PASID prefix of the request
  (R207, R362). -/
  | hostWrite (sleeve : Nat) (pasid : Option Nat) (addr : Nat) (bytes : List Byte)
  /-- Bytes asked of host memory for a sleeve. -/
  | hostRead (sleeve : Nat) (pasid : Option Nat) (addr bytes : Nat)
  /-- A command completion entry (R217): sleeve, index, its four words. -/
  | cqEntry (sleeve index : Nat) (words : List W64)
  /-- A fault queue entry (R217): sleeve, index, its 24 words. -/
  | fqEntry (sleeve index : Nat) (words : List W64)
  /-- The two queues of a sleeve written with zeros in host memory (R221 step 5). -/
  | queuesZeroed (sleeve : Nat) (pasid : Option Nat)
  /-- A manager event ring entry (R364): index and its eight words. -/
  | evtEntry (index : Nat) (words : List W64)
  /-- An MSI-X vector sent (R361). -/
  | msix (vector : Nat)
  /-- The reply to a PLDM OEM message (R386). -/
  | sideband (tag : Nat) (status : Nat) (result : List W64)
  /-- A PLDM answer: a discovery answer, a sensor value, ERROR_NOT_READY. -/
  | pldm (tag : Nat) (body : List Nat)
  /-- A PlatformEventMessage carrying a record (R396). -/
  | pldmEvent (number : Nat)
  /-- The reply to a CONTROL packet (R357). -/
  | fabricReply (port dev tag status : Nat) (result : List W64)
  /-- A UART line (R388). -/
  | uart (line : String) (value : Nat)
  /-- A core interrupted by the DIC (R381). -/
  | dicInterrupt (target source : Nat)
  /-- The value a register read or a memory read answers. -/
  | readValue (addr : Nat) (value : Nat)
  /-- CXL.mem read data, with the poison indication (R366). -/
  | cxlData (addr : Nat) (bytes : List Byte) (poison : Bool)
  /-- A back-invalidation of a host-held line (R365). -/
  | backInvalidate (line : Nat)
  /-- A General Media Event record in the CXL event log (R366). -/
  | mediaEvent (addr : Nat)
  /-- The CXL link held or taken down. -/
  | cxlDown
  /-- An ordering read that pushes posted writes (R219, R224). -/
  | orderingRead (sleeve : Nat) (pasid : Option Nat)
  /-- A fronthaul frame sent (R309). -/
  | frame (port : Nat) (bytes : List Byte)
  /-- A Voravatra packet sent (R338). -/
  | packet (port : Nat) (packet : Packet)
  /-- A replay requested: seam flits or a Voravatra codeword hop (R19, R332). -/
  | replayRequest (place : Nat)
  /-- A ball driven to a level: its place in R449 by name. -/
  | ball (name : String) (level : Bool)
  /-- Bytes written to the stage-1 boot flash at an offset (R430). -/
  | flashWrite (offset : Nat) (bytes : List Byte)
  /-- The boundary-scan answer of the JTAG port (R439). -/
  | jtag (bits : Nat)
  /-- A signal to a host core, radio firmware or the slot planner that the manual names in words. -/
  | notice (what : String) (a b : Nat)
  deriving DecidableEq, Repr

/-! ### The package (01) -/

/-- One seam (R20, R22): its status register and the spare lanes used by each UCIe module. -/
structure Seam where
  sat : Bool := false
  failed : Bool := false
  retries : Nat := 0
  /-- Spare lanes used, by module. -/
  spares : Tbl Nat := []
  /-- Replays in a row of the flit that is failing, by direction (R20): 0 from the first die of R17, 1 to it. -/
  replays : Tbl Nat := []
  /-- Flits that the sending die resends from its replay buffer, in their original order, by direction (R19). -/
  resend : Tbl (List (List Byte)) := []
  deriving DecidableEq, Repr

/-- An access that waits for a page in move (R31 condition 4, R34), in arrival order: what it does
when released. -/
inductive Waiter where
  /-- A host core's store at a device address: core and bytes. -/
  | coreStore (core addr : Nat) (data : List Byte)
  | coreLoad (core addr len : Nat)
  | coreAdd (core addr : Nat) (value : W64)
  | cxlRead (addr len : Nat)
  | cxlWrite (addr : Nat) (data : List Byte)
  /-- A packet of the fabric, with the port it came on. -/
  | packet (port : Nat) (packet : Packet)
  /-- A received frame for a flow (512 timing ring, 513 radio control ring) with its colour and timestamp. -/
  | rxFrame (port flow colour : Nat) (frame : List Byte) (time : Nat)
  /-- The write-back of a transmit entry: status and timestamp (R313). -/
  | txBack (port ring addr status time : Nat)
  /-- A command whose own access waits: a ring fetch, a descriptor's transfer, a step boundary. -/
  | command (c : Instr)
  /-- A Tacor command with an address argument in the page (R369). -/
  | tacor (opcode : Nat) (c : Cmd)
  /-- The result of a Tacor command that goes to its result address (R372). -/
  | result (src : Src) (opcode : Nat) (addr : W64) (status : Nat) (words : List W64)
  /-- Completion words of a job's fabric ring (R345), and the value of its barrier (R344). -/
  | fabricRing (handle : Nat)
  | barrierValue (handle : Nat)
  /-- The slot-job ring of a radio die (R235), and its report ring (R240). -/
  | slotJobs (die : Nat)
  | reports (die : Nat)
  /-- What a snapshot has still to write to its target (R199): device addresses and bytes. -/
  | snapshot (handle gen : Nat) (pieces : List (Nat × List Byte))
  /-- The last record of a job: its sleeve, the ring entry, the record (R191, R198). -/
  | record (sleeve addr : Nat) (words : List W64)
  deriving DecidableEq, Repr

/-- A page being moved (R34): its new place. -/
structure Move where
  page : Nat
  loc : Nat
  frame : Nat
  oldLoc : Nat
  oldFrame : Nat
  deriving DecidableEq, Repr

/-- Package-level state: seams, memories, ownership, frames. -/
structure Pkg where
  seams : Tbl Seam := []
  /-- LPDDR6 GiB per channel of RD0, RD1, ED0, ED1 as read at boot (R24); 0: out of service. -/
  density : List Nat := [0, 0, 0, 0]
  /-- Bonded stacks MD0–MD3 in service (R26). -/
  bondedOk : List Bool := [false, false, false, false]
  /-- The ownership table (R29): page → entry. -/
  owner : Tbl W64 := []
  /-- Pages whose ownership entry holds an uncorrectable word (R32). -/
  ownerEcc : List Nat := []
  /-- Frames retired from service (R159), by `frameKey`. -/
  retired : List Nat := []
  /-- Frames to retire once their page is freed or moved (R160). -/
  retireLater : List Nat := []
  /-- Frames to retire whose page's move waits for a free frame (R159). -/
  movesOwed : List Nat := []
  /-- Every addressed memory, by physical key (`memKey`). -/
  mem : Memory := []
  /-- ECC words that are uncorrectable (R160), by physical key of their first byte. -/
  eccBad : List Nat := []
  /-- Correctable errors with their raw times: by frame key, or pocket (R159). -/
  frameErrs : Tbl (List Nat) := []
  pocketErrs : Tbl (List Nat) := []
  moves : List Move := []
  waiters : List (Nat × Waiter) := []
  /-- STALE_GENERATION (R32): dropped accesses. -/
  staleGen : Nat := 0
  deriving DecidableEq, Repr

/-! ### Engines (04) -/

/-- One ring of a context slot (R131, R134). -/
structure Ring where
  /-- ENTRIES: entries − 1. -/
  entries : Nat := 0
  addr : Nat := 0
  head : Nat := 0
  tail : Nat := 0
  deriving DecidableEq, Repr

/-- A chain descriptor whose passes run (R112): the phases still to run, the passes of the phase at the head
of the list that have ended and that have started. -/
structure ChainRun where
  desc : List W64
  /-- Phase codes still to run, the running one first (R109). -/
  phases : List Nat
  next : Nat := 0
  started : Nat := 0
  deriving DecidableEq, Repr

/-- A DMA descriptor that has moved its bytes and awaits its completion in ring order (R128). -/
structure DmaRun where
  desc : List W64
  reran : Bool := false
  /-- A segment of the attempt failed its CRC (R157). -/
  failed : Bool := false
  deriving DecidableEq, Repr

/-- What a feeder ring waits for (R117, R125). -/
structure WaitFor where
  space : Bool
  addr : Nat
  value : Nat
  deriving DecidableEq, Repr

/-- One context slot of an engine (R133) with its rings, chain state and scheduling state. -/
structure Slot where
  valid : Bool := false
  sleeve : Nat := 0
  paced : Bool := false
  /-- BASE and SIZE of the partition [MiB]. -/
  base : Nat := 0
  size : Nat := 0
  job : Nat := 0
  fring : Ring := {}
  dring : Ring := {}
  ering : Ring := {}
  /-- A chain is open (FIRST seen, CLOSE not yet reached, R112). -/
  chainOpen : Bool := false
  /-- Last phase code reached in the open chain. -/
  phase : Nat := 0
  /-- Product passes run in the open chain (its parity picks the partial region, R110). -/
  products : Nat := 0
  /-- Products of one output that the open chain's descriptors have named so far (R77). -/
  chainK : Nat := 0
  fedBase : Nat := 0
  run : Option ChainRun := none
  waiting : Option WaitFor := none
  dma : List DmaRun := []
  /-- Credit in beats (R186). -/
  credit : Int := 0
  /-- The feeder ring is held: by a referee (R150), or by a rerun owed (R115). -/
  refHold : Bool := false
  rerunOwed : Bool := false
  preempted : Bool := false
  /-- A mismatch of the duplicated units was seen on the pass already, or on the element-engine descriptor
  (R146). -/
  mismatched : Bool := false
  shadowed : Bool := false
  /-- A release tick has fallen for which the operands have not landed (R56). -/
  lateTick : Bool := false
  /-- Radio priority after a late beat moves the slot's release ticks back by one interval (R57). -/
  tickBack : Bool := false
  /-- The context leaves its engine once its DMA descriptors have completed (R123). -/
  moveOwed : Bool := false
  /-- Context progress, the raw time at which its hang timer last restarted, and that of the last entry that started
  (R397, R399). -/
  progress : Nat := 0
  timerAt : Nat := 0
  entryAt : Nat := 0
  /-- Raw time of the last started pass (R187). -/
  lastStart : Nat := 0
  deriving DecidableEq, Repr

/-- What a stationary or a standby register of every element holds together: a tile, with its tag (R105, R107). -/
structure TileReg where
  slot : Nat
  addr : Nat
  orient : Bool
  /-- FMT_B of the tile; the block scales of a scale pass are no tile and are not kept. -/
  fmt : Nat
  /-- The tile's bytes by offset; an unlisted one is 0. -/
  bytes : Tbl Byte
  deriving DecidableEq, Repr

/-- A pass in flight (R102). -/
structure PassRun where
  slot : Nat
  /-- 0 product, 1 anchor, 2 scale (R132). -/
  kind : Nat
  m : Nat
  paced : Bool
  desc : List W64 := []
  phase : Nat := 3
  /-- Number of the pass in its phase. -/
  index : Nat := 0
  /-- The tile it streams past. -/
  tile : Tbl Byte := []
  deriving DecidableEq, Repr

/-- One matrix engine with its element engine. -/
structure Engine where
  /-- In the current lease, with the planned start of the next lease in raw ticks. -/
  leased : Bool := false
  beats : W64 := 0
  passes : W64 := 0
  progress : W32 := 0
  /-- Raw time at which the hang timer last restarted (R397). -/
  timerAt : Nat := 0
  reruns : SatCtr := {}
  slots : Tbl Slot := []
  active : Option TileReg := none
  standby : Option TileReg := none
  /-- The pass whose boundary comes next, and those that have started behind it (R105). -/
  pass : Option PassRun := none
  behind : List PassRun := []
  /-- Throttle level in force on the engine (R66). -/
  throttle : Nat := 0
  /-- The slot the selection of R62 chose to start next. -/
  nextSlot : Option Nat := none
  deriving DecidableEq, Repr

/-! ### The lining (05) -/

/-- How a unit is fenced: STATE of R173. -/
inductive Fence where
  | none | awaiting | confirmed | unconfirmed
  deriving DecidableEq, Repr

/-- A fitting at work (R166, R170): its set and identifier, its EXPECTED digest, its entry and its operands as they
stand in the set; a built-in fitting shows neither. -/
structure FitCur where
  set : Nat
  fitting : Nat
  expected : List Byte
  entry : List W64 := []
  operands : List Byte := []
  deriving DecidableEq, Repr

/-- A fitting run of a unit: the fittings still to run, the failures so far, what it is for. -/
structure FitRun where
  /-- Indices into the set in use of the fittings still to run. -/
  todo : List Nat
  failures : Nat := 0
  /-- The fitting started and not yet done. -/
  current : Option FitCur := none
  /-- A unit suspect's or a mandatory run: ahead of tenant passes. -/
  urgent : Bool := false
  deriving DecidableEq, Repr

/-- One unit 0–123 (R173, R392): its lining status, activity and clearance. -/
structure UnitSt where
  fence : Fence := .none
  /-- Manager hold form of R412; 0: none. -/
  hold : Nat := 0
  liningSat : Bool := false
  strikes : Nat := 0
  disagree : Nat := 0
  /-- Raw times of unconfirmed strikes (R153). -/
  unconfirmed : List Nat := []
  /-- HLT_UNITu_ACTIVITY (R418). -/
  actSat : Bool := false
  hangs : Nat := 0
  resets : Nat := 0
  resetTimes : List Nat := []
  fit : Option FitRun := none
  /-- Fittings due at the end of the period run ahead of tenant passes (R169). -/
  fitDue : Bool := false
  /-- The last complete run: the raw time at its end and its failures. -/
  lastRun : Option (Nat × Nat) := none
  /-- Clearance runs are scheduled since a raw time; complete runs that have matched every digest (R155, R413). -/
  clearing : Bool := false
  clearSince : Nat := 0
  clearRuns : Nat := 0
  /-- Referee passes of the unit: raw time and beats (R147). -/
  refBeats : List (Nat × Nat) := []
  suspect : Bool := false
  deriving DecidableEq, Repr

/-- A strike (R153). -/
structure Strike where
  unit : Nat
  kind : Nat
  location : Nat
  job : Nat
  sleeve : Nat
  confirmed : Bool
  raw : Nat
  deriving DecidableEq, Repr

/-- A disagreement whose referee was abandoned, with no strike (R151). -/
structure Unresolved where
  unit : Nat
  location : Nat
  job : Nat
  sleeve : Nat
  raw : Nat
  deriving DecidableEq, Repr

/-- One result of a fitting (R170). -/
structure FitResult where
  set : Nat
  fitting : Nat
  unit : Nat
  /-- 0 match, 1 mismatch then match, 2 two mismatches. -/
  outcome : Nat
  raw : Nat
  deriving DecidableEq, Repr

/-- States of the referee (R150) between two commands. -/
inductive RefState where
  | staging | referee | replay
  deriving DecidableEq, Repr

/-- A disagreement under referee (R150, R151), one verdict and one strike each. -/
structure Dispute where
  suspect : Nat
  slot : Nat
  job : Nat
  gen : Nat
  sleeve : Nat
  /-- A radio pass: for the strike decision only (R152). -/
  radio : Bool
  /-- Not a disagreement: a pass or descriptor of a unit under mandatory referee (R412). -/
  mandatory : Bool := false
  /-- A descriptor of the element engine, which completes on release. -/
  element : Bool := false
  /-- The verdict's kind of strike: 1 compute, 2 checker path. -/
  kind : Nat
  location : Nat
  /-- Disputed data rows not yet decided; each chunk takes up to 64 stream rows (R149). -/
  rows : List Nat
  desc : List W64
  /-- The pass: its kind (R132), its number in its phase, the product passes of the chain before it, whether it
  rounds, and the rows that were fed before it. -/
  passKind : Nat := 0
  index : Nat := 0
  products : Nat := 0
  closes : Bool := false
  fedBefore : List Nat := []
  /-- An element of the pass is windowed: its residue lanes check it (R145). -/
  windowed : Bool := false
  /-- Where the array and its checker went wrong. -/
  errors : List PassError := []
  /-- Outputs (index, code) that the lanes and the shadow lanes of an element engine gave wrong. -/
  lanes : List (Nat × Nat) := []
  shadows : List (Nat × Nat) := []
  /-- A scale or anchor pass (R109): anchor words that came out wrong, as (row, column, the right word). -/
  words : List (Nat × Nat × Nat) := []
  st : RefState
  /-- Since when no referee has been eligible, while one is looked for (R150). -/
  noneSince : Option Nat := none
  /-- The chunks of a radio pass that have not been staged, as they stood at its boundary (R152), by offset. -/
  images : List (List Host.Cell) := []
  /-- The staging buffer in use (R148). -/
  buffer : Option Nat := none
  /-- Referees of the chunk at work, and those of earlier chunks. -/
  refs : List Nat := []
  past : List Nat := []
  deriving DecidableEq, Repr

/-- A fitting candidate (R172): its header and the captured operands. -/
structure Candidate where
  unit : Nat
  location : Nat
  passKind : Nat
  desc : List W64
  verdict : Nat
  sleeve : Nat
  consent : Nat
  digest : List Byte
  operands : List Byte
  /-- The bytes of its header that hold the syndromes (R172). -/
  syndromes : List Byte
  /-- The fleet has read it to its end (R222). -/
  fetched : Bool := false
  deriving DecidableEq, Repr

/-- State of the lining. -/
structure Lin where
  units : Tbl UnitSt := []
  strikes : List Strike := []
  fitLog : List FitResult := []
  disputes : List Dispute := []
  unresolved : List Unresolved := []
  /-- Candidate queue entries 0–3. -/
  candidates : Tbl (Option Candidate) := []
  candDropped : Nat := 0
  /-- Headers in the strike log of candidates that met a full queue (R172). -/
  headers : List Candidate := []
  /-- The active fitting set's bytes; none: the built-in set. -/
  activeSet : Option (List Byte) := none
  /-- The fitting period [s] (R169). -/
  period : Nat := 600
  deriving DecidableEq, Repr

/-! ### Jobs (06) -/

/-- States of a job handle (R189), in code order. -/
inductive JobState where
  | free | lowering | waiting | running | held | ending | draining
  deriving DecidableEq, Repr

/-- Why a job is HELD (R189, R219). -/
inductive HoldCause where
  | ringFull | tacorRestart | snapshot | quiesce
  deriving DecidableEq, Repr

/-- Counters of R191, totals since job start. -/
structure Counters where
  discards : SatCtr := {}
  overflows : SatCtr := {}
  nanToNumber : SatCtr := {}
  windowed : SatCtr := {}
  choices : SatCtr := {}
  beats : W64 := 0
  bytes : W64 := 0
  energy : W64 := 0
  misses : SatCtr := {}
  estimated : Bool := false
  deriving DecidableEq, Repr

/-- Where a sequence's pages are (R192). -/
inductive SeqState where
  | running | spilled | dropped
  deriving DecidableEq, Repr

/-- One sequence of a pool (R192). -/
structure Seq where
  number : Nat
  len : Nat
  st : SeqState
  /-- Its KV pages, by token order. -/
  pages : List Nat
  /-- What its dropped pages held, which its tokens give again (R192). -/
  lost : List (List Byte) := []
  deriving DecidableEq, Repr

/-- A queued join (R192). -/
structure Join where
  number : Nat
  prompt : Nat
  tokens : Nat
  step : Nat
  deriving DecidableEq, Repr

/-- The sequence pool of a job (R192). -/
structure Pool where
  seqs : List Seq := []
  joins : List Join := []
  /-- Departures asked for: sequence number and step. -/
  leaves : List (Nat × Nat) := []
  /-- The pool's pages, bonded and spill. -/
  pages : List Nat := []
  /-- The highest sequence number that a boundary has admitted (R192). -/
  highest : Option Nat := none
  deriving DecidableEq, Repr

/-- A snapshot of a job (R199, R200): its target, the boundary once taken, pages still to copy. -/
structure Snap where
  /-- Device address of the target, on this device or on the peer named. -/
  target : Nat
  peer : Option Nat
  taken : Option Nat
  total : Nat
  copied : Nat
  /-- Packets of the drain have been given up with their device (R200, R350). -/
  lost : Bool := false
  deriving DecidableEq, Repr

/-- A teardown in progress (R198): the status its record carries and who waits for it. -/
structure Teardown where
  status : Nat
  kind : Nat
  startRaw : Nat
  waiter : Option Src := none
  /-- The drain failed: pages stay out of service until the drain is reported (R221). -/
  abandoned : Bool := false
  deriving DecidableEq, Repr

/-- Cadence state of a job (R194, R195). -/
structure Cadence where
  characterised : Nat
  nextRelease : Nat
  inProgress : Bool := false
  startRaw : Nat := 0
  /-- Runs in free order since the lease ceiling rose (R195). -/
  freeOrder : Bool := false
  deriving DecidableEq, Repr

/-- One handle of the job table. -/
structure Job where
  st : JobState := .free
  gen : Nat := 0
  /-- A teardown has raised the generation above the job's own (R198). -/
  torn : Bool := false
  owner : Nat := 0
  /-- The handle has held a job since the device reset (R202). -/
  held : Bool := false
  /-- The submission block, W0–W7 (R182). -/
  block : List W64 := []
  /-- The program's header words (R177). -/
  header : List W64 := []
  /-- Bytes per token of the KV pool tensor; 0: no pool. -/
  tokenBytes : Nat := 0
  /-- The step in progress. -/
  step : Nat := 0
  lastBoundary : Option Nat := none
  /-- Pages that stay out of service past the removal of the sleeve, until the failed drain ends (R198, R221). -/
  stranded : List Nat := []
  holds : List HoldCause := []
  status : Nat := 0
  faultAddr : Nat := 0
  faultUnit : Nat := 0xFFFF
  ctr : Counters := {}
  /-- Resident contexts: engine and slot. -/
  ctxs : List (Nat × Nat) := []
  /-- Contexts in the save area: their number and their slot as it was (R187). -/
  saved : List (Nat × Slot) := []
  /-- The program as accepted (R177), and the place of the submission among those accepted (R185). -/
  program : List Byte := []
  order : Nat := 0
  /-- What lowering gave the job (R184). -/
  lowered : LowerObs := {}
  /-- State tensors of a snapshot that lowering is to place, by tensor number (R199, R201). -/
  carried : List (Nat × List Byte) := []
  /-- Pages of the save area (R187). -/
  savePages : List Nat := []
  complHead : Nat := 0
  complTail : Nat := 0
  pool : Pool := {}
  /-- What the boundary saw, while a restart of Tacor holds the job before it (R190). -/
  boundary : Option StepObs := none
  /-- Records of the boundary that a full ring keeps from being posted (R190). -/
  unposted : List (List W64) := []
  cadence : Option Cadence := none
  snap : Option Snap := none
  tear : Option Teardown := none
  /-- The last record has been posted. -/
  ended : Bool := false
  /-- A host-core context: its core (R384). -/
  core : Option Nat := none
  /-- Steps a barrier has not released yet (R344). -/
  barrierStep : Option Nat := none
  deriving DecidableEq, Repr

/-! ### Sleeves (07) -/

/-- States of a sleeve (R206), in code order. -/
inductive SleeveState where
  | absent | active | quiescing | quiesced | resetting | removing
  deriving DecidableEq, Repr

/-- A page a sleeve holds (R211): its number, kind (0 bonded, 1 edge), permissions, and whether it
is a job page. -/
structure PageRec where
  page : Nat
  kind : Nat
  perms : Nat
  job : Option Nat
  deriving DecidableEq, Repr

/-- Accounting totals of a tenant sleeve (R226). -/
structure Account where
  beats : W64 := 0
  bytesDma : W64 := 0
  bytesFabric : W64 := 0
  bytesHost : W64 := 0
  energy : W64 := 0
  jobsEnded : Nat := 0
  misses : Nat := 0
  sat : Bool := false
  estimated : Bool := false
  deriving DecidableEq, Repr

/-- One sleeve. -/
structure Sleeve where
  st : SleeveState := .absent
  /-- The sleeve record, W0–W7 (R209). -/
  record : List W64 := []
  /-- Host ranges 0–7: base and length (R208). -/
  ranges : Tbl (Nat × Nat) := []
  pages : List PageRec := []
  sqTail : Nat := 0
  cqHead : Nat := 0
  fqHead : Nat := 0
  dbError : Bool := false
  queueFault : Bool := false
  fqLost : SatCtr := {}
  intMask : Nat := 0
  /-- The FL8's own indices: next submission entry to fetch, next completion and fault entry. -/
  sqHead : Nat := 0
  cqNext : Nat := 0
  fqNext : Nat := 0
  cqPhase : Bool := true
  /-- Completions that wait for room in the full queue: tag, status, result (R218). -/
  backlog : List (Nat × Nat × List W64) := []
  fqPhase : Bool := true
  /-- The SLEEVE_QUIESCE commands that wait, each with the raw tick at which its limit passes (R219). -/
  quiescers : List (Src × Nat) := []
  /-- SLEEVE_REMOVE waiting for the drains of step 1 of R221. -/
  removing : Option Src := none
  resetting : Option (Nat × Option Src) := none
  dirtyOn : Bool := false
  /-- Pages of the edge quota that hold the dirty bitmap, in order (R223). -/
  bitmapPages : List Nat := []
  acct : Account := {}
  /-- JOB_SUBMIT commands that wait for pages still draining, with their blocks (R198). -/
  submits : List (Src × List W64) := []
  deriving DecidableEq, Repr

/-! ### Management (12) -/

/-- A mailbox slot (R370): STATE 0 FREE, 1 POSTED, 2 ACCEPTED, 3 DONE. -/
structure MSlot where
  opcode : Nat := 0
  status : Nat := 0
  state : Nat := 0
  tag : Nat := 0
  args : List W64 := []
  deriving DecidableEq, Repr

/-- A command that Tacor has accepted and not yet completed, with its journal entry (R368, R369). -/
structure Accepted where
  src : Src
  opcode : Nat
  raw : Nat
  /-- Applied, and waiting for a condition (R377 step 4). -/
  waiting : Bool := false
  deriving DecidableEq, Repr

/-- A message source of the DIC (R381–R383). -/
structure DicSrc where
  pending : Bool := false
  active : Bool := false
  rearm : Bool := false
  sat : Bool := false
  count : Nat := 0
  deriving DecidableEq, Repr

/-- A target core of the DIC: ENABLE, FROZEN and the priority stack, top first (source, PRIO). -/
structure DicCore where
  enable : Bool := false
  frozen : Bool := false
  stack : List (Nat × Nat) := []
  deriving DecidableEq, Repr

/-- A host core (R384, R385). -/
structure HostCore where
  loaded : Bool := false
  sleeve : Nat := 0
  handle : Nat := 0
  gen : Nat := 0
  image : Nat := 0
  length : Nat := 0
  entry : Nat := 0
  retired : W64 := 0
  beats : W64 := 0
  deriving DecidableEq, Repr

/-- Host attachment, Tacor, DIC, host cores and sideband. -/
structure Mgt where
  /-- STATUS.TACOR: 0 BOOTING, 1 RUNNING, 2 RESTARTING, 3 DOWN (R363). -/
  tacor : Nat := 0
  pasidOn : Bool := false
  width : Nat := 0
  rate : Nat := 0
  restarts : List Nat := []
  restartAt : Nat := 0
  evtBase : W64 := 0
  evtEntries : Nat := 0
  evtHead : Nat := 0
  evtTail : Nat := 0
  evtPhase : Bool := true
  evtLost : SatCtr := {}
  stageBase : W64 := 0
  stageLen : W64 := 0
  cxlUp : Bool := false
  /-- The port is held down until the next device reset (R404). -/
  cxlHeld : Bool := false
  /-- Host-held lines in the order in which they entered the snoop filter (R365). -/
  snoop : List Nat := []
  slots : Tbl MSlot := []
  accepted : List Accepted := []
  /-- Submissions accepted so far (R185). -/
  submissions : Nat := 0
  telemetryDropped : SatCtr := {}
  routes : Tbl W32 := []
  /-- Routes that take effect when their source becomes idle (R380). -/
  routeNext : Tbl (Option W32) := []
  srcs : Tbl DicSrc := []
  cores : Tbl DicCore := []
  dicSat : Bool := false
  dicDenied : Nat := 0
  dicNoRoute : Nat := 0
  hc : Tbl HostCore := []
  i3c : Option Nat := none
  eid : Option Nat := none
  receiver : Option Nat := none
  deriving DecidableEq, Repr

/-! ### Faults and health (13) -/

/-- What a hardware error event carries into its record (R392). -/
structure ErrEvent where
  code : Nat
  severity : Nat
  sleeve : Option Nat := none
  job : Option (Nat × Nat) := none
  status : Nat := 0
  die : Nat := 0xFF
  unit : Nat := 0xFF
  domain : Nat := 0xFF
  func : Nat := 0xFF
  count : Nat := 0
  d0 : Nat := 0
  d1 : Nat := 0
  raw : Nat := 0
  deriving DecidableEq, Repr

/-- An error record of the log: its number and its eight words (R392). -/
structure ErrRec where
  number : Nat
  words : List W64
  deriving DecidableEq, Repr

/-- A boot entry of the health record (R407). -/
structure BootEntry where
  incarnation : Nat
  cause : Nat
  counted : Bool
  stamp : Option Nat
  deriving DecidableEq, Repr

/-- The health record (R407). -/
structure HealthRec where
  incarnation : Nat := 0
  fenceList : List Nat := []
  dies : List Nat := []
  withdrawn : Bool := false
  /-- Newest first, at most 8. -/
  entries : List BootEntry := []
  clean : Bool := false
  sag : Bool := false
  cause : Option Nat := none
  deriving DecidableEq, Repr

/-- A stall being replayed (R399): the suspects still to replay, the one running, resets it made. -/
structure Stall where
  suspects : List Nat
  held : List Nat
  /-- The moved suspects: the slot on the first engine, engine and slot each runs on. -/
  moved : List (Nat × Nat × Nat) := []
  /-- The suspects that wait for an eligible engine: slot, raw time since when. -/
  seeking : List (Nat × Nat) := []
  deriving DecidableEq, Repr

/-- Error log, escalation, health. -/
structure Hlt where
  log : List ErrRec := []
  nextNumber : Nat := 0
  logLost : SatCtr := {}
  /-- Hardware error queues by die, oldest first (R395). -/
  queues : Tbl (List ErrEvent) := []
  /-- Record numbers in the PLDM queue, oldest first (R396). -/
  pldm : List Nat := []
  hangMs : Nat := 20
  stalls : Tbl (Option Stall) := []
  /-- Raw times of die function resets, by die × 4 + FUNC (R405). -/
  funcResets : Tbl (List Nat) := []
  funcFenced : List Nat := []
  /-- Raw times of self-fences (R412). -/
  selfFences : List Nat := []
  /-- TAI [ns] given by the manager, and the raw counter then (R409). -/
  clock : Option (Nat × Nat) := none
  /-- Seed entries and the raw counter at their arrival (R417). -/
  seed : List W64 := []
  seedRaw : Nat := 0
  shutdownAt : Option Nat := none
  resetAt : Option Nat := none
  score : Nat := 0
  level : Nat := 0
  /-- The health record in force in the running device (R408). -/
  hr : HealthRec := {}
  /-- TACOR reached RUNNING at this raw time (R409). -/
  runningAt : Nat := 0
  evaluated : Bool := false
  deriving DecidableEq, Repr

/-! ### Boot, identity and the NVM (14) -/

/-- What the on-package NVM holds across power-off (R407, R432, R438, R168). -/
structure Nvm where
  health : HealthRec := {}
  /-- The two boot configuration copies, 256 bytes each; empty: none was written (R432). -/
  copyA : List Byte := []
  copyB : List Byte := []
  /-- The attestation signature index word (R438). -/
  attestIndex : Nat := 0
  attestBad : Bool := false
  /-- The fitting floor (R168). -/
  fittingFloor : Nat := 0
  /-- The OTP rollback floor, 0–64 (R429). -/
  otpFloor : Nat := 0
  deriving DecidableEq, Repr

/-- What the flash or the host supplied as the image in use (R424, R427). -/
structure Image where
  bytes : List Byte
  host : Bool
  deriving DecidableEq, Repr

/-- Where the device stands between power-up and service. -/
inductive Phase where
  /-- Every die is held in reset (R421). -/
  | held
  /-- ED0 is released and the raw counter runs; the boot ROM has not run yet. -/
  | released
  /-- The boot ROM waits for an image from the host (R428). -/
  | waitingImage
  /-- Step 8 of R423 is reached. -/
  | booted
  deriving DecidableEq, Repr

/-- Boot mailbox, image, configuration in force. -/
structure Boot where
  phase : Phase := .held
  stage : Nat := 0
  request : Bool := false
  hostSource : Bool := false
  rejected : Nat := 0
  result : Nat := 0
  mboxAddr : W64 := 0
  mboxLen : W32 := 0
  /-- GO has been written, and the host's answer is to come (R428). -/
  posted : Bool := false
  image : Option Image := none
  /-- The boot configuration record in force, W0–W31 (R432). -/
  config : List W64 := []
  configDefault : Bool := false
  /-- Tacor and the management sideband only (R26, R422). -/
  minimal : Bool := false
  /-- Radio firmware started within step 7 (R441). -/
  radioFw : Bool := false
  /-- Sleeve 0 exists (R205, R410). -/
  sleeve0 : Bool := false
  /-- A flash write is running (R430): bytes written and who waits. -/
  update : Option (List Byte × Src) := none
  /-- Bytes of the flash as last written by this device or read at boot: none, not known; empty, no valid image since a
  write was interrupted (R430). -/
  flash : Option (List Byte) := none
  /-- Type code of a die where it is not that of R14 (R422, R434). -/
  types : List (Nat × Nat) := []
  /-- JTAG instruction in the TAP (R439): 0 BYPASS, 1 IDCODE, 2 SAMPLE/PRELOAD, 3 EXTEST. -/
  jtag : Nat := 1
  deriving DecidableEq, Repr

/-- Balls and rails (R421, R451–R457, R464). -/
structure Pins where
  railsOk : Bool := false
  refclk : Bool := false
  cardResetN : Bool := true
  perstN : Bool := true
  thermtrip : Bool := false
  ppsOut : Bool := false
  jtagBalls : Bool := false
  deriving DecidableEq, Repr

/-! ### Pace and power (02) -/

/-- A pace table entry (R50). -/
structure PaceEntry where
  /-- 0 EMPTY, 1 LIGHT, 2 LOADED. -/
  tag : Nat := 0
  temp : Nat := 0
  pace : Nat := 0
  deriving DecidableEq, Repr

/-- One power domain (R44, R59). -/
structure Domain where
  on : Bool := false
  paced : Bool := false
  throttle : Nat := 0
  excluded : List Nat := []
  sensorFault : Bool := false
  tempFault : Bool := false
  paceFault : Bool := false
  vindex : Nat := 0
  temp : Nat := 0
  late : SatCtr := {}
  wait : SatCtr := {}
  energy : W64 := 0
  /-- Live pace [Mbeat/s] (R47). -/
  live : Nat := 0
  table : Tbl PaceEntry := []
  /-- Consecutive samples each sensor has deviated (R48). -/
  deviation : Tbl Nat := []
  /-- Consecutive samples below the table at one voltage index, newest first, at most 100: active or not (R52). -/
  below : List Bool := []
  belowAt : Nat := 0
  /-- A lower voltage index that takes effect at the next pass or task boundary (R46). -/
  vnext : Option Nat := none
  /-- Radio work has immediate priority at the next boundary (R57). -/
  radioFirst : Bool := false
  /-- No lowering before this raw time (R57). -/
  holdUntil : Nat := 0
  /-- Raw times of late beats at the ceiling (R57). -/
  lates : List Nat := []
  /-- Switched on, and its pace sensors have not passed since (R46). -/
  unproven : Bool := false
  /-- A switch-on has been retried (R72). -/
  retried : Bool := false
  /-- Energy is estimated until this raw time (R72). -/
  estimatedUntil : Nat := 0
  deriving DecidableEq, Repr

/-- A die's thermal state (R64, R65). -/
structure DiePwr where
  tj : Nat := 0
  level : Nat := 0
  /-- Windows in a row in which the entry condition of levels 1, 2, 3 was false. -/
  clear : List Nat := [0, 0, 0]
  /-- Levels whose entry condition has been true in the current window (R65). -/
  hot : List Nat := []
  /-- Level 1 has had a cause of R65 since it was entered, and not the supply sag alone (R68). -/
  held1 : Bool := false
  deriving DecidableEq, Repr

/-- What the beats of the current window in a domain were for (R58): the sleeve, job and generation charged, 0 for
overhead and radio; the beats, and the estimate of R62 for them [pJ]. -/
structure Active where
  domain : Nat
  sleeve : Nat := 0
  job : Nat := 0
  gen : Nat := 0
  radio : Bool := false
  beats : Nat := 0
  est : Nat := 0
  deriving DecidableEq, Repr

/-- The power manager (R51, R60–R70). -/
structure Pwr where
  domains : Tbl Domain := []
  dies : Tbl DiePwr := []
  cap : Nat := 700
  guardA : Nat := 60
  guardS : Nat := 60
  guardH : Nat := 60
  tempThrottle : Nat := 95
  tempStop : Nat := 100
  /-- Settings that take effect at the next window (R70): kind (0 cap, 1 guard, 2 thermal) and values. -/
  nextSettings : List (Nat × Nat × Nat) := []
  /-- Set by the window: budget, fixed load, pre-charge, debt and grant [mJ]; the unspent remainder of
  the grant [pJ]. -/
  budget : Nat := 0
  fixed : Nat := 0
  precharge : Nat := 0
  debt : Nat := 0
  grant : Nat := 0
  remaining : Nat := 0
  windows : Nat := 0
  /-- Fixed loads of the windows that have passed, newest first, at most 8. -/
  history : List Nat := []
  /-- Package energy of past windows, newest first, at most 1,000 (R466). -/
  totals : List Nat := []
  /-- Energy through the two core rails in past windows, newest first, at most 10 (R448). -/
  rails : List (Nat × Nat) := []
  /-- Jobs passed over for energy: windows in a row, by handle (R62). -/
  passedOver : Tbl Nat := []
  /-- Jobs passed over for energy in the current window. -/
  overNow : List Nat := []
  /-- Active beats of the current window (R58). -/
  active : List Active := []
  sag : Bool := false
  /-- NVM writes are inhibited (R68). -/
  inhibit : Bool := false
  deriving DecidableEq, Repr
/-! ### Radio (08) -/

/-- States of a cell (R232), in code order. -/
inductive CellState where
  | absent | configured | running | movingOut | stopping
  deriving DecidableEq, Repr

/-- One entry of a cell's HARQ region (R249): INT8 LLRs of the circular buffers, and its last update as
a slot counted from the PTP epoch. -/
structure HarqEntry where
  rnti : Nat
  harqId : Nat
  ndi : Bool
  llrs : List Byte
  updated : Nat
  deriving DecidableEq, Repr

/-- One cell (R231, R232, R259). -/
structure Cell where
  st : CellState := .absent
  /-- The cell record, W0–W3. -/
  record : List W64 := []
  /-- Frame of an accepted CELL_START or CELL_MOVE_IN, and of a CELL_STOP. -/
  start : Option Nat := none
  stop : Option Nat := none
  /-- Frame of a CELL_MOVE_OUT, and the fabric address of its HARQ carry, 0 for none. -/
  moveOut : Option Nat := none
  moveTo : Nat := 0
  /-- The source's carry: 0 none, 1 on its way. -/
  carry : Nat := 0
  /-- Frame of a CELL_MOVE_IN while fabric job number 0 is open for the cell (R337). -/
  job0 : Option Nat := none
  harq : List HarqEntry := []
  /-- Configured since device reset (R226). -/
  ever : Bool := false
  /-- EQP_CELLc_SLOTS by die (R261). -/
  slots : Tbl W64 := []
  deriving DecidableEq, Repr

/-- What the planner started a task with (R270), and the slot job it belongs to. -/
structure Task where
  entry : Nat
  mode : Bool
  s1 : W32
  s2 : W32
  s3 : W32
  s4 : W32
  /-- PLAN_SEQ values that the plan gives the task, from S4 on. -/
  seqs : Nat
  job : Nat
  /-- Allocations of its slot job that it works on, and the slot of its start. -/
  allocs : List Nat := []
  slot : Nat := 0
  deriving DecidableEq, Repr

/-- What a core in paired operation releases (R294): bytes of a line, or a descriptor of a queue. -/
inductive Release where
  | line (off : Nat) (bytes : List Byte)
  | desc (queue : Nat) (words : List W64)
  deriving DecidableEq, Repr

/-- One place in a target's service order (R248, R286): the slot whose plan lists it, its PLAN_SEQ, the core that pushes
it, and, once pushed, the slot job of the task that pushed it. -/
structure PlanEntry where
  slot : Nat
  seq : Nat
  core : Nat
  job : Option Nat := none
  deriving DecidableEq, Repr

/-- What a unit has recorded for a slot job (R241, R242, R285): an equaliser its EVM and SINR fields, an LDPC decoder the
iterations used; by queue and PLAN_SEQ. -/
structure UnitRec where
  queue : Nat
  seq : Nat
  evm : Nat := 0x8000
  sinr : Nat := 0x8000
  iterations : Nat := 0
  deriving DecidableEq, Repr

/-- A slot job that runs (R235): its header W0–W3 and its allocation entries. -/
structure SlotJob where
  id : Nat
  dir : Nat
  cell : Nat
  /-- Frame of network time, and slot. -/
  frame : Nat
  slot : Nat
  header : List W64
  allocs : List (List W64)
  missed : Nat := 0
  tasksLate : Nat := 0
  /-- A lease pass of its cell has failed its check (R152, R245). -/
  fallback : Bool := false
  /-- Allocations decoded without combining (R250). -/
  fresh : List Nat := []
  /-- Allocations decoded from the lease's LLRs (R245), and those of tasks that were aborted (R287, R291). -/
  lease : List Nat := []
  failed : List Nat := []
  /-- What units have recorded for it. -/
  units : List UnitRec := []
  deriving DecidableEq, Repr

/-- UL IQ that arrived in its window (R305), by cell, frame, slot, symbol and stream. -/
structure IqRec where
  cell : Nat
  frame : Nat
  slot : Nat
  symbol : Nat
  stream : Nat
  /-- First PRB, and the samples from it on: complex int16, 48 bytes a PRB. -/
  prb : Nat
  iq : List Byte
  deriving DecidableEq, Repr

/-- The radio function of one die: equalisers, slot planner and its registers (R251, R261–R263). -/
structure RadDie where
  sj : Ring := {}
  rpt : Ring := {}
  source : Nat := 0
  sat : Bool := false
  overrun : Nat := 0
  lost : Nat := 0
  fenced : Bool := false
  /-- Signal cores, decoders and encoders in the plan: SC_AVAIL, DEC_AVAIL, ENC_AVAIL. -/
  sc : Nat := 0
  dec : Nat := 0
  enc : Nat := 0
  /-- Cells are to stop at the next frame boundary until the limits hold; POINTS_MAX before (R267). -/
  shed : Option Nat := none
  jobs : List SlotJob := []
  nextId : Nat := 0
  /-- Cell, frame, slot and direction of the slot jobs seen (R239). -/
  seen : List (Nat × Nat × Nat × Nat) := []
  /-- Network time at which each entry between HEAD and TAIL of the slot-job ring reached it (R235). -/
  arrivals : List Nat := []
  /-- Cell, frame and slot of late UL jobs: the IQ of the slot is discarded (R239). -/
  lateUl : List (Nat × Nat × Nat) := []
  /-- Reports that wait for room in the ring (R240). -/
  buffer : List (List W64) := []
  /-- FALLBACK is owed to the next report (R257). -/
  fallback : Bool := false
  /-- What each target still has to serve, in order (R286, R248). -/
  plan : Tbl (List PlanEntry) := []
  /-- Signal cores that the planner plans with since the last slot boundary (R252). -/
  cores : List Nat := []
  /-- Tasks that a failed replay aborted, with their core: they owe a rerun on another (R291). -/
  reruns : List (Nat × Task) := []
  /-- Iteration pools of the block engines, by decoder × 4 + engine (R248). -/
  pools : Tbl Nat := []
  /-- Raw time at which the timer of the unit behind each queue last restarted (R397). -/
  timers : Tbl Nat := []
  deriving DecidableEq, Repr

/-- A lease plan (R254): its record, and what R257 has changed of it. -/
structure LeasePlan where
  period : Nat
  record : List W64
  fixed : Bool := false
  /-- Tasks and cells that take the classical path: (task, cell). -/
  dropped : List (Nat × Nat) := []
  /-- Tasks and cells on another engine: (task, cell, engine). -/
  moved : List (Nat × Nat × Nat) := []
  deriving DecidableEq, Repr

/-! ### Signal cores (09) -/

/-- A hardware loop in progress (R282): its counter, first and last instruction. -/
structure LoopRun where
  lc : Nat
  start : Nat
  stop : Nat
  deriving DecidableEq, Repr

/-- One signal core (R269, R273, R283, R295–R297). -/
structure SigCore where
  v : Tbl V512 := []
  acc : Tbl (BitVec 1280) := []
  sreg : Tbl W32 := []
  p : Tbl (BitVec 19) := []
  lc : Tbl (BitVec 16) := []
  loops : List LoopRun := []
  accSat : Bool := false
  extSat : Bool := false
  cmp : Bool := false
  mode : Bool := false
  pc : Nat := 0
  /-- The task that runs: SCC_STATUS.BUSY. -/
  task : Option Task := none
  /-- Paired operation (R294): the core that runs a copy of this core's task, and the core whose task this is a copy of. -/
  partner : Option Nat := none
  copyOf : Option Nat := none
  /-- Lines and descriptors that wait for the other copy's (R294), and whether a copy has come to its TEND. -/
  outbox : List Release := []
  tended : Bool := false
  /-- The pointer register of the WAITC that holds the core. -/
  waiting : Option Nat := none
  stall : Bool := false
  iwriteRefused : Bool := false
  reloadable : Bool := false
  beats : W64 := 0
  tasks : W64 := 0
  progress : W32 := 0
  /-- Raw time at which the core's timer last restarted (R292, R397). -/
  timerAt : Nat := 0
  checksSat : Bool := false
  mismatch : Nat := 0
  eccCorr : Nat := 0
  /-- The instruction store (R273), and the program image kept while its group is off (R274). -/
  store : Tbl W32 := []
  image : Tbl W32 := []
  /-- Out of the plan until radio firmware rewrites its store (R293). -/
  storeBad : Bool := false
  /-- Descriptors pushed and not completed, oldest first, by queue (R283). -/
  queues : Tbl (List (List W64)) := []
  deriving DecidableEq, Repr

/-- Radio. -/
structure Rad where
  dies : Tbl RadDie := []
  cells : Tbl Cell := []
  cores : Tbl SigCore := []
  iq : List IqRec := []
  /-- The lease mask in force, and a new one with the first period it applies to (R253). -/
  mask : Nat := 0
  maskNext : Option (Nat × Nat) := none
  plans : List LeasePlan := []
  /-- The plan of the running period; none: no lease. -/
  current : Option LeasePlan := none
  /-- The plan of the period before it, by which the last slots of that period end (R245). -/
  previous : Option LeasePlan := none
  planRepeat : Bool := false
  repeatSince : Nat := 0
  /-- The lease ends at the next period boundary (R258). -/
  leaseEnds : Bool := false
  /-- Cells that stop at the next frame boundary after a loss of lock (R323). -/
  lockStop : List Nat := []
  deriving DecidableEq, Repr

/-! ### Fronthaul (10) -/

/-- A receive or transmit ring of a port. Receive rings: 32-byte entries (R308); entries 0: none. -/
structure PortRing where
  addr : Nat := 0
  entries : Nat := 0
  pos : Nat := 0
  stopped : Bool := false
  deriving DecidableEq, Repr

/-- A flow entry (R306) with its meter (R307), its ring position and its byte counters. Bucket levels
are in units of 1/1,250 byte. -/
structure Flow where
  words : List W64 := []
  c : Nat := 0
  e : Nat := 0
  last : Nat := 0
  pos : Nat := 0
  stopped : Bool := false
  green : W64 := 0
  yellow : W64 := 0
  red : W64 := 0
  deriving DecidableEq, Repr

/-- A transmit ring (R313). -/
structure TxRing where
  sleeve : Nat := 0
  queue : Nat := 0
  vlan : Nat := 0xFFFF
  ring : PortRing := {}
  deriving DecidableEq, Repr

/-- A frame in an egress queue (R309, R313): from a transmit ring's entry, or a radio frame with its
window in network time [ns] and the symbol it carries. -/
structure EgFrame where
  bytes : List Byte
  /-- Ring and device address of the entry it came from. -/
  entry : Option (Nat × Nat) := none
  tsReq : Bool := false
  oneStep : Bool := false
  launch : Option Nat := none
  opens : Nat := 0
  closes : Nat := 0
  /-- Raw tick for which a radio frame's transmission is scheduled (R319). -/
  sched : Nat := 0
  /-- Cell, frame, slot and symbol. -/
  symbol : Option (Nat × Nat × Nat × Nat) := none
  /-- Cell, frame, slot and stream of a DL C-plane message (R246). -/
  cplane : Option (Nat × Nat × Nat × Nat) := none
  /-- Network time [ns] at which it came to the head behind a closed gate. -/
  since : Option Nat := none
  deriving DecidableEq, Repr

/-- A gate list (R310): the network time [ns] of its first cycle start, and its entries. -/
structure GateList where
  base : Nat := 0
  cycle : Nat := 1000000
  /-- Gates and interval [ns]. -/
  entries : List (Nat × Nat) := [(0xFF, 1000000)]
  deriving DecidableEq, Repr

/-- One fronthaul port (R299–R325). -/
structure FhPort where
  up : Bool := false
  degraded : Bool := false
  dropped : Nat := 0
  lanes : Nat := 0
  /-- Retraining in three-lane mode: no egress (R301). -/
  retraining : Bool := false
  /-- The retraining is that of FH_PORT_RESTORE, on four lanes (R303). -/
  restoring : Bool := false
  degradeEn : Bool := false
  eyeMin : Nat := 32
  tenantRate : Nat := 500
  mac : Nat := 0
  vlan : Nat := 0xFFFF
  pcp : Nat := 0
  /-- QUANTUM, HEM_MODE and HEM_NS of Q3 to Q7. -/
  group : List (Nat × Nat × Nat) := List.replicate 5 (64, 1, 0)
  timingRx : PortRing := {}
  controlRx : PortRing := {}
  ctrs : Tbl SatCtr := []
  rxBytes : W64 := 0
  txBytes : W64 := 0
  eye : Tbl Nat := []
  /-- Consecutive samples below EYE_MIN, by lane (R300). -/
  low : Tbl Nat := []
  flows : Tbl Flow := []
  /-- The tenant meter, in units of 1/1,250 byte, and its last use. -/
  meter : Nat := 65536 * 1250
  meterAt : Nat := 0
  queues : Tbl (List EgFrame) := []
  deficits : Tbl Nat := []
  /-- The queue of the group that has its turn, and whether its quantum of the round is added. -/
  turn : Nat := 3
  turnPaid : Bool := false
  gates : GateList := {}
  pending : Option GateList := none
  /-- The entry of the active list that applies now. -/
  gateAt : Nat := 0
  tx : Tbl TxRing := []
  deriving DecidableEq, Repr

structure Fh where
  ports : Tbl FhPort := []
  deriving DecidableEq, Repr

/-! ### Network time (10) -/

/-- A change of the timebase that takes effect at its apply tick (R317). -/
structure Apply where
  tick : Nat
  rate : Option Nat := none
  step : Int := 0
  /-- A forced step larger than JUMP_NS. -/
  forced : Bool := false
  deriving DecidableEq, Repr

/-- A compare unit (R321, R324). -/
structure Cmp where
  target : Nat := 0
  armed : Bool := false
  fired : Bool := false
  source : Nat := 0
  deriving DecidableEq, Repr

/-- The master timebase and its copies (R316–R324, R327). -/
structure Tim where
  raw : W64 := 0
  base : BitVec 96 := 0
  rawBase : W64 := 0
  incr : Nat := 0x666666666
  applies : List Apply := []
  /-- STATE of R323: 0 FREE, 1 ACQUIRING, 2 LOCKED, 3 HOLDOVER. -/
  state : Nat := 0
  stepFlag : Bool := false
  forced : Bool := false
  squelch : Bool := true
  copyFault : Bool := false
  /-- Difference of the radio dies' copies from RAW, and the last time each was found wrong (R327). -/
  copyOff : Tbl Int := []
  copyBad : Tbl (Option Nat) := []
  syncePort : Nat := 0
  synceLane : Nat := 0
  synceDiv : Nat := 0
  /-- Fronthaul lanes without signal or lock: (port, lane). -/
  noSignal : List (Nat × Nat) := []
  bound : Nat := 0
  ntFrac : Nat := 0
  ntRaw : W64 := 0
  fhFrac : Tbl Nat := []
  ppsNs : W64 := 0
  ppsRaw : W64 := 0
  ppsSeen : Option Nat := none
  ppsIgnored : Nat := 0
  countsSat : Bool := false
  stepRefused : Nat := 0
  lockLosses : Nat := 0
  cmps : Tbl Cmp := []
  jumpNs : Nat := 1000
  lockBound : Nat := 100
  holdoverS : Nat := 10
  sfnOffset : Nat := 0
  ppsWidth : Nat := 100
  /-- Raw time of the last accepted TIME_LOCK, and of the entry into HOLDOVER. -/
  lastLock : Nat := 0
  holdSince : Nat := 0
  deriving DecidableEq, Repr

/-! ### The fabric (11) -/

/-- One Voravatra port (R330–R334, R355, R356). -/
structure VfPort where
  up : Bool := false
  degraded : Bool := false
  dropped : Nat := 0
  lanes : Nat := 0
  eye : Tbl Nat := []
  low : Tbl Nat := []
  rxBytes : W64 := 0
  txBytes : W64 := 0
  ctrs : Tbl SatCtr := []
  /-- The whitening registers of the lanes as loaded at the last training (R331). -/
  whitening : List (BitVec 31) := []
  /-- The packet whose link replays fail, by its link sequence number, and the replays in a row that have failed (R332). -/
  replay : Option (Nat × Nat) := none
  deriving DecidableEq, Repr

/-- A chip map or a sink (R337) with the course of its job's barriers (R344, R349, R353). -/
structure ChipMap where
  num : Nat
  fgen : Nat
  sleeve : Nat
  /-- Device ID of every chip index. -/
  devs : List Nat
  handle : Nat
  sink : Bool := false
  /-- A FABRIC_TEARDOWN has named the FGEN: the fault below raises it no further (R351). -/
  torn : Bool := false
  /-- A device of the job has been lost (R344, R350). -/
  lost : Bool := false
  /-- This chip's arrival: 0 none, 1 the start barrier, 2 a boundary barrier, 3 a BARRIER descriptor. -/
  waits : Nat := 0
  arrivedAt : Nat := 0
  /-- The boundary barrier has been released, with SNAP or without. -/
  released : Bool := false
  snap : Bool := false
  /-- The combined value of the barrier last released. -/
  value : W64 := 0
  /-- Chip 0: who has arrived at the barrier: chip, raw time, ARMED, value. -/
  arrivals : List (Nat × Nat × Bool × W64) := []
  /-- Chip 0: COP of its own BARRIER descriptor. -/
  cop : Nat := 0
  /-- Chip 0: the lagging chip of each of the last 64 barriers, newest first. -/
  lags : List (Option Nat) := []
  deriving DecidableEq, Repr

/-- A packet that awaits its end-to-end acknowledgement (R347), and the descriptor it belongs to. -/
structure Track where
  seq : Nat
  packet : Packet
  first : Nat
  /-- The job whose descriptor it carries; 0: none. -/
  job : Nat := 0
  desc : Nat := 0
  /-- The cell whose HARQ region it carries (R259). -/
  cell : Option Nat := none
  /-- The job whose snapshot it carries (R200). -/
  snap : Option Nat := none
  /-- NACK CHECK_FAILED has come once. -/
  failed : Bool := false
  /-- Resends that a missing acknowledgement has caused: two at most. -/
  resent : Nat := 0
  deriving DecidableEq, Repr

/-- The state of an ordered pair of devices (R347). -/
structure Pair where
  next : Nat := 0
  expect : Nat := 0
  /-- The next packet to the peer carries SYNC. -/
  sync : Bool := true
  tracks : List Track := []
  /-- Packets that wait for a route change (R336). -/
  held : List Track := []
  deriving DecidableEq, Repr

/-- A fabric descriptor of a job that has started (R340, R345). -/
structure FabRun where
  id : Nat
  desc : List W64
  /-- Bytes of replies that have still to land (GET, FETCH). -/
  awaited : Nat := 0
  landed : Nat := 0
  deriving DecidableEq, Repr

/-- A collective of a job (R343): its contribution and what the ring has brought. -/
structure Coll where
  cop : Nat
  len : Nat
  addr : Nat
  compl : Nat
  rootOnly : Bool
  root : Nat
  /-- Segments that have reached their final value on this chip. -/
  final : List Nat := []
  deriving DecidableEq, Repr

/-- The fabric. -/
structure Fab where
  configured : Bool := false
  dev : Nat := 0
  fmDev : Nat := 0
  mgmt : Nat := 0
  linkMs : Nat := 5
  barrierMs : Nat := 100
  lagNs : Nat := 500000
  eyeMin : Nat := 32
  ports : Tbl VfPort := []
  /-- Home port of a device; none: unreachable (R336). -/
  routes : Tbl (Option Nat) := []
  routeNext : Tbl (Option (Option Nat)) := []
  maps : List ChipMap := []
  pairs : Tbl Pair := []
  runs : Tbl (List FabRun) := []
  colls : Tbl (Option Coll) := []
  /-- COLL packets that arrived before this chip's own COLLECTIVE: job and packet. -/
  early : List (Nat × Packet) := []
  nextId : Nat := 0
  deriving DecidableEq, Repr

/-! ### The whole machine -/

/-- The state of the FL8, and the queue of the commands that are waiting. -/
structure State where
  pkg : Pkg := {}
  eng : Tbl Engine := []
  lin : Lin := {}
  jobs : Tbl Job := []
  slv : Tbl Sleeve := []
  mgt : Mgt := {}
  hlt : Hlt := {}
  nvm : Nvm := {}
  boot : Boot := {}
  pins : Pins := {}
  pwr : Pwr := {}
  rad : Rad := {}
  fh : Fh := {}
  tim : Tim := {}
  fab : Fab := {}
  /-- What the block has sent out, newest first. -/
  out : List Out := []
  /-- The model's own field: how many free values have been asked for (notes/assumptions/3.md). -/
  freeCount : Nat := 0
  /-- The commands that are waiting, first in, first out. -/
  pending : List Instr := []
  deriving DecidableEq, Repr

/-- The machine right after reset: every die is held in reset (R421), nothing is listed in memory,
the NVM is empty, and no command waits. -/
def State.reset : State := {}

/-- No meaning of this model stops the machine: the spec gives every command an effect, and
an access that may not proceed is answered as the spec says. The type has no constructor. -/
inductive Fault where
  deriving DecidableEq, Repr

/-- Why a step can be refused. -/
inductive Refusal where
  /-- Raised by an arm of `exec` whose command has no meaning yet: safe. -/
  | notModelled (mnemonic : String)
  deriving DecidableEq, Repr

end Sys2Proof.Machine
end

