-- ==== Sys2Proof/Machine/Ops.lean ====
section
/-! DEFINITION. The operations every command shares: numbering of units and domains (R14, R44, R173,
R392), physical memory with its ECC words (R23, R158, R160), the ownership check (R29–R34), error
events (R394, R395), the DIC message (R379, R381), host writes, interrupts and events (R361–R364). -/

namespace Sys2Proof.Machine

/-- Status codes (R376). -/
inductive Status where
  | ok | busy | badField | denied | noSpace | notQuiesced | targetLost | staleGeneration
  | checkFailed | undecided | fenced | timeout | stepRefused | unsigned | rollback
  deriving DecidableEq, Repr

/-- The 16-bit value of a status code (R376). -/
def statusCode : Status → Nat
  | .ok => 0 | .busy => 1 | .badField => 2 | .denied => 3 | .noSpace => 4 | .notQuiesced => 5
  | .targetLost => 6 | .staleGeneration => 7 | .checkFailed => 8 | .undecided => 9
  | .fenced => 10 | .timeout => 11 | .stepRefused => 12 | .unsigned => 13 | .rollback => 14

/-! ### Time -/

/-- Raw ticks per microsecond are 156.25; per millisecond 156,250 (R316, R384). -/
def ticksPerMs : Nat := 156250
/-- Raw ticks per slot of 0.5 ms. -/
def ticksPerSlot : Nat := 78125
/-- Raw ticks per second. -/
def ticksPerS : Nat := 156250000

/-- The raw counter. -/
def now (s : State) : Nat := s.tim.raw.toNat

/-- Raw ticks since an earlier reading of the counter. -/
def since (s : State) (t : Nat) : Nat := now s - t

/-- An entry of a context has completed: its progress moves, and its hang timer restarts (R397). -/
def Slot.completes (x : Slot) (t : Nat) : Slot := { x with progress := x.progress + 1, timerAt := t }

/-- An entry of a context starts; the timer of a context that had none at work starts with it (R397). -/
def Slot.starts (x : Slot) (t : Nat) : Slot :=
  if x.run.isSome || !x.dma.isEmpty then { x with entryAt := t } else { x with entryAt := t, timerAt := t }

/-- The engine's progress moves, and its hang timer restarts (R397). -/
def Engine.completes (y : Engine) (t : Nat) : Engine := { y with progress := y.progress + 1, timerAt := t }

/-- Network time at a reading of the raw counter, in units of 2^−32 ns (R316). -/
def ntAt (t : Tim) (raw : Nat) : Nat :=
  (t.base.toNat + (raw - t.rawBase.toNat) * t.incr) % 2 ^ 96

/-- Network time now, in units of 2^−32 ns. -/
def networkTime (s : State) : Nat := ntAt s.tim (now s)

/-- NT_NS: network time [ns] (R316). -/
def networkNs (s : State) : Nat := networkTime s / 2 ^ 32

/-- FRAME (R320). -/
def frameNow (s : State) : Nat := networkNs s / 10000000

/-- Truncated network time (R318). -/
def now32 (s : State) : Nat := networkNs s % 2 ^ 32

/-- A truncated target is due: the signed 32-bit difference is at least 0 (R318). -/
def due32 (now t : Nat) : Bool := (now + 2 ^ 32 - t % 2 ^ 32) % 2 ^ 32 < 2 ^ 31

/-- The signed difference of two 32-bit numbers (R253, R318). -/
def diff32 (a b : Nat) : Int :=
  let d : Nat := (a % 2 ^ 32 + 2 ^ 32 - b % 2 ^ 32) % 2 ^ 32
  if d < 2 ^ 31 then (d : Int) else (d : Int) - (2 ^ 32 : Nat)

/-- Raw ticks until network time reaches an instant [ns], by the mapping in force (R319). -/
def ticksTo (s : State) (ns : Nat) : Nat := cdiv (ns * 2 ^ 32 - networkTime s) (Nat.max 1 s.tim.incr)

/-- The timebase is LOCKED or in HOLDOVER (R323). -/
def timeLocked (s : State) : Bool := s.tim.state ≥ 2

/-! ### Numbering -/

/-- Die of a unit 0–123 (R14, R392). -/
def unitDie (u : Nat) : Nat :=
  if u < 16 then u / 4 else if u < 32 then (u - 16) / 4 else if u < 96 then 4 + (u - 32) / 32
  else if u < 112 then 6 + (u - 96) / 8 else 4 + (u - 112) / 6

/-- Power domain of a unit (R44). -/
def unitDomain (u : Nat) : Nat :=
  if u < 16 then u / 4 * 16 + u % 4
  else if u < 32 then (u - 16) / 4 * 16 + 8 + u % 4
  else if u < 96 then 64 + (u - 32) / 32 * 10 + (u - 32) % 32 / 8
  else if u < 104 then 86 + (u - 96) / 4
  else if u < 112 then 92 + (u - 104) / 4
  else 64 + (u - 112) / 6 * 10 + 5

/-- Die of a power domain (R44). -/
def domainDie (n : Nat) : Nat :=
  if n < 64 then n / 16 else if n < 74 then 4 else if n < 84 then 5 else if n < 90 then 6 else 7

/-- First power domain of a die (R44). -/
def dieDomain0 (d : Nat) : Nat :=
  if d < 4 then 16 * d else if d = 4 then 64 else if d = 5 then 74 else if d = 6 then 84 else 90

/-- Power domains of a die (R38). -/
def dieDomains (d : Nat) : Nat := if d < 4 then 16 else if d < 6 then 10 else 6

/-- Voltage classes (R45). -/
inductive VClass where
  | a | s | h | i | f
  deriving DecidableEq, Repr

/-- Voltage class of a domain (R44). -/
def domainClass (n : Nat) : VClass :=
  let l := n - dieDomain0 (domainDie n)
  if n < 64 then (if l < 12 then .a else if l < 14 then .f else .i)
  else if n < 84 then (if l < 7 then .s else if l < 9 then .f else .i)
  else (if l < 2 then .f else if l < 4 then .h else .i)

/-- Ceiling index of a class (R45). -/
def ceilingIndex : VClass → Nat
  | .a => 58 | .s => 56 | .h => 56 | _ => 0

/-- The units whose domain a power domain is (R44): what R71 step 4 and R72 fence. -/
def domainUnits (n : Nat) : List Nat := (List.range 124).filter fun u =>
  unitDomain u == n || (n < 64 && 4 ≤ n % 16 && n % 16 < 8 && u == n / 16 * 4 + n % 4)

/-- Class of a unit for fittings (R166): 1 ME, 2 EE, 3 SC, 4 HC, 0 none. -/
def unitClass (u : Nat) : Nat :=
  if u < 16 then 1 else if u < 32 then 2 else if u < 96 then 3 else if u < 112 then 4 else 0

/-! ### Accessors -/

def unitSt (s : State) (u : Nat) : UnitSt := tget {} s.lin.units u
def setUnit (s : State) (u : Nat) (v : UnitSt) : State :=
  { s with lin := { s.lin with units := tset {} s.lin.units u v } }
def modUnit (s : State) (u : Nat) (f : UnitSt → UnitSt) : State := setUnit s u (f (unitSt s u))
def isFenced (s : State) (u : Nat) : Bool := (unitSt s u).fence != .none

def engine (s : State) (e : Nat) : Engine := tget {} s.eng e
def setEngine (s : State) (e : Nat) (v : Engine) : State := { s with eng := tset {} s.eng e v }
def modEngine (s : State) (e : Nat) (f : Engine → Engine) : State := setEngine s e (f (engine s e))
def slot (s : State) (e i : Nat) : Slot := tget {} (engine s e).slots i
def setSlot (s : State) (e i : Nat) (v : Slot) : State :=
  modEngine s e fun x => { x with slots := tset {} x.slots i v }
def modSlot (s : State) (e i : Nat) (f : Slot → Slot) : State := setSlot s e i (f (slot s e i))

def job (s : State) (h : Nat) : Job := tget {} s.jobs h
def setJob (s : State) (h : Nat) (v : Job) : State := { s with jobs := tset {} s.jobs h v }
def modJob (s : State) (h : Nat) (f : Job → Job) : State := setJob s h (f (job s h))

def sleeve (s : State) (k : Nat) : Sleeve := tget {} s.slv k
def setSleeve (s : State) (k : Nat) (v : Sleeve) : State := { s with slv := tset {} s.slv k v }
def modSleeve (s : State) (k : Nat) (f : Sleeve → Sleeve) : State := setSleeve s k (f (sleeve s k))

def domain (s : State) (n : Nat) : Domain := tget {} s.pwr.domains n
def setDomain (s : State) (n : Nat) (v : Domain) : State :=
  { s with pwr := { s.pwr with domains := tset {} s.pwr.domains n v } }
def modDomain (s : State) (n : Nat) (f : Domain → Domain) : State := setDomain s n (f (domain s n))
def diePwr (s : State) (d : Nat) : DiePwr := tget {} s.pwr.dies d
def setDiePwr (s : State) (d : Nat) (v : DiePwr) : State :=
  { s with pwr := { s.pwr with dies := tset {} s.pwr.dies d v } }

def mslot (s : State) (w i : Nat) : MSlot := tget {} s.mgt.slots (w * 16 + i)
def setMslot (s : State) (w i : Nat) (v : MSlot) : State :=
  { s with mgt := { s.mgt with slots := tset {} s.mgt.slots (w * 16 + i) v } }
def hostCore (s : State) (k : Nat) : HostCore := tget {} s.mgt.hc k
def setHostCore (s : State) (k : Nat) (v : HostCore) : State :=
  { s with mgt := { s.mgt with hc := tset {} s.mgt.hc k v } }
def sigCore (s : State) (k : Nat) : SigCore := tget {} s.rad.cores k
def setSigCore (s : State) (k : Nat) (v : SigCore) : State :=
  { s with rad := { s.rad with cores := tset {} s.rad.cores k v } }
def modSigCore (s : State) (k : Nat) (f : SigCore → SigCore) : State := setSigCore s k (f (sigCore s k))

/-- One more thing sent out. -/
def emit (s : State) (o : Out) : State := { s with out := o :: s.out }

/-- One free value of a place of the model (notes/assumptions/3.md). -/
def takeFree (s : State) (site : Nat) : W64 × State :=
  (Config.freeWord site s.freeCount, { s with freeCount := s.freeCount + 1 })

/-- `n` free bytes of a place of the model. -/
def takeFreeBytes (s : State) (site n : Nat) : List Byte × State :=
  ((List.range n).map (Config.freeByte site s.freeCount), { s with freeCount := s.freeCount + 1 })

/-- A field of the boot configuration record in force (R432); the defaults stand in it. -/
def cfgWord (s : State) (i : Nat) : W64 := wd s.boot.config i
def cfgSharing (s : State) : Bool := bitOf (cfgWord s 1) 63
def cfgRadioMb (s : State) : Nat := fld (cfgWord s 1) 62 58
def cfgLeaseMask (s : State) : Nat := fld (cfgWord s 1) 57 42
def cfgConsent0 (s : State) : Nat := fld (cfgWord s 1) 41 40
def cfgLockstep (s : State) : Nat := fld (cfgWord s 1) 39 32
def cfgRadioCores (s : State) : Nat := fld (cfgWord s 1) 31 16
def cfgKey (s : State) (first : Nat) : List Byte :=
  (bytesOf ((List.range 8).map fun i => cfgWord s (first + i))).take 60

/-! ### Physical memory -/

/-- Key of byte `off` of a region: 0 bonded frames, 1 LPDDR6 frames, 2 pockets, 3 signal-core local
memory, 4 Tacor SRAM. -/
def memKey (region off : Nat) : Nat := region * 2 ^ 48 + off

/-- A frame as LOC × 2^24 + FRAME (R29). -/
def frameKey (loc frame : Nat) : Nat := loc * 2 ^ 24 + frame

/-- Physical key of the first byte of a frame. -/
def frameBase (loc frame : Nat) : Nat := memKey (loc - 1) (frame * 65536)

/-- Key of a byte of engine e's pocket (R27). -/
def pocketKey (e off : Nat) : Nat := memKey 2 (e * 2 ^ 26 + off)

/-- Key of a byte of signal core k's local memory (R27). -/
def localKey (k off : Nat) : Nat := memKey 3 (k * 2 ^ 19 + off)

/-- Key of a byte of an ED0 LPDDR6 frame named by its number within the die (R35). -/
def ed0Key (frame off : Nat) : Nat := frameBase 2 (2 * 2 ^ 22 + frame) + off

/-- Bytes of the ECC word at a key (R160). -/
def eccWord (key : Nat) : Nat := if key < memKey 2 0 then 64 else 8

/-- Uncorrectable words that [key, key + n) touches. -/
def eccTouched (s : State) (key n : Nat) : List Nat :=
  s.pkg.eccBad.filter fun k => k < key + n && key < k + eccWord k

/-- A read of [key, key + n) meets an uncorrectable word. -/
def eccHit (s : State) (key n : Nat) : Bool := !(eccTouched s key n).isEmpty

/-- Bytes of physical memory. -/
def physRead (s : State) (key n : Nat) : List Byte := rdBytes s.pkg.mem key n

/-- Uncorrectable words that a write of [key, key + n) covers only in part (R160). -/
def eccPartial (s : State) (key n : Nat) : List Nat :=
  (eccTouched s key n).filter fun k => !(key ≤ k && k + eccWord k ≤ key + n)

/-- Bytes written from a key, those inside the listed words left alone. -/
def wrSkip (bad : List Nat) : Memory → Nat → List Byte → Memory
  | m, _, [] => m
  | m, k, b :: bs =>
    wrSkip bad (if bad.any fun w => w ≤ k && k < w + eccWord w then m else wrByte m k b) (k + 1) bs

/-- A physical write (R160): whole uncorrectable words covered are cleared; a word covered in part
keeps its bytes and stays uncorrectable. -/
def physWrite (s : State) (key : Nat) (bytes : List Byte) : State :=
  let bad := eccPartial s key bytes.length
  { s with pkg := { s.pkg with
      mem := wrSkip bad s.pkg.mem key bytes
      eccBad := s.pkg.eccBad.filter fun k =>
        !(key ≤ k && k + eccWord k ≤ key + bytes.length) } }

/-- Zeroing writes whole words, and so clears every uncorrectable word it covers (R122, R160). -/
def physZero (s : State) (key n : Nat) : State :=
  { s with pkg := { s.pkg with
      mem := zeroBytes s.pkg.mem key n
      eccBad := s.pkg.eccBad.filter fun k => !(key ≤ k && k + eccWord k ≤ key + n) } }

/-- A frame, a partition or a save image copied; a word that cannot be read is no better in the copy
(notes/assumptions/19.md). -/
def physCopy (s : State) (dst src n : Nat) : State :=
  let part := eccPartial s dst n
  { s with pkg := { s.pkg with
      mem := if part.isEmpty then copyBytes s.pkg.mem dst src n
        else wrSkip part s.pkg.mem dst (rdBytes s.pkg.mem src n)
      eccBad := (s.pkg.eccBad.filter fun k => !(dst ≤ k && k + eccWord k ≤ dst + n)) ++
        ((s.pkg.eccBad.filter fun k => src ≤ k && k < src + n).map fun k => k - src + dst) } }

/-! ### Ownership -/

def ownValid (w : W64) : Bool := bitOf w 63
def ownOwner (w : W64) : Nat := fld w 62 57
def ownJob (w : W64) : Nat := fld w 56 45
def ownGen (w : W64) : Nat := fld w 44 37
def ownDirty (w : W64) : Bool := bitOf w 32
def ownLoc (w : W64) : Nat := fld w 31 30
def ownShared (w : W64) : Bool := bitOf w 29
def ownFrame (w : W64) : Nat := fld w 23 0

/-- An entry from its fields (R29). -/
def ownPack (owner jobH gen perms : Nat) (dirty : Bool) (loc : Nat) (shared : Bool)
    (frame : Nat) : W64 :=
  pack 64 [(63, 1), (57, owner), (45, jobH), (37, gen), (33, perms), (32, b2n dirty), (30, loc),
    (29, b2n shared), (0, frame)]

/-- First page of the window's last 4 Mi pages, under which the frames of RD0 and RD1 stand. -/
def radioPage0 : Nat := 20971520

/-- The entry of a radio frame, which sleeve 0 owns from its creation on (R35, R205): 8 channels of an RD die have
131,072 frames a GiB (R24). The page number of a radio frame is the model's (DESIGN CHOICE, notes/assumptions/100.md). -/
def radioEntry (s : State) (page : Nat) : W64 :=
  let i := page - radioPage0
  let d := i / 2 ^ 21
  if !s.boot.sleeve0 || page < radioPage0 || d > 1 || i % 2 ^ 21 ≥ s.pkg.density.getD d 0 * 131072 then 0
  else ownPack 0 0 0 15 false 2 true (d * 2 ^ 22 + i % 2 ^ 21)

/-- Entry of a page (R29). -/
def ownEntry (s : State) (page : Nat) : W64 :=
  let w := tget 0 s.pkg.owner page
  if w == 0 then radioEntry s page else w

/-- Tacor's rewrite of an entry: every cache has dropped its copy (R33), and an uncorrectable entry
returns to service (R32). -/
def setOwn (s : State) (page : Nat) (w : W64) : State :=
  { s with pkg := { s.pkg with
      owner := tset 0 s.pkg.owner page w
      ownerEcc := s.pkg.ownerEcc.filter (· != page) } }

/-- Who issues an access (R31, R213). -/
structure Issuer where
  sleeve : Nat
  job : Nat := 0
  gen : Nat := 0
  /-- CXL.mem: SHARED pages only (R213). -/
  sharedOnly : Bool := false
  /-- A fabric request: PERM_REMOTE too (R31). -/
  remote : Bool := false
  deriving DecidableEq, Repr

/-- What an access does (R31 condition 3). -/
inductive Kind where
  | rd | wr | at
  deriving DecidableEq, Repr

/-- What the ownership check answers (R32), and what reading the bytes then meets (R160). -/
inductive Bar where
  | denied | stale | wait | badEntry | entryEcc | dataEcc
  deriving DecidableEq, Repr

/-- The check of one page in the order of R31 and R32. -/
def ownCheck (s : State) (i : Issuer) (k : Kind) (page : Nat) : Option Bar :=
  let w := ownEntry s page
  if s.pkg.ownerEcc.contains page then some .entryEcc
  else if ownLoc w == 3 || fld w 28 24 != 0 then some .badEntry
  else if !ownValid w || ownOwner w != i.sleeve then some .denied
  else if !ownShared w && (i.sharedOnly || ownJob w != i.job) then some .denied
  else if !ownShared w && ownGen w != (job s (ownJob w)).gen then some .stale
  else if !ownShared w && i.gen != (job s (ownJob w)).gen then some .stale
  else if !(match k with | .rd => bitOf w 36 | .wr => bitOf w 35 | .at => bitOf w 34)
      || (i.remote && !bitOf w 33) then some .denied
  else if ownLoc w == 0 then some .wait
  else none

/-- A device address lies in the page window (R27). -/
def inWindow (addr len : Nat) : Bool := addr + len ≤ 0x018000000000

/-- Pages that [addr, addr + len) touches. -/
def pagesOf (addr len : Nat) : List Nat :=
  if len = 0 then [] else (List.range ((addr + len - 1) / 65536 + 1 - addr / 65536)).map
    (· + addr / 65536)

/-- The first page of a range whose check fails decides (R31, R32). -/
def checkRange (s : State) (i : Issuer) (k : Kind) (addr len : Nat) : Option Bar :=
  if !inWindow addr len then some .denied else (pagesOf addr len).findSome? (ownCheck s i k)

/-- Where a page's bytes lie: its frame, or, until a move's copy is done, the frame that it leaves (R34). -/
def pageHome (s : State) (page : Nat) : Nat × Nat :=
  let w := ownEntry s page
  match s.pkg.moves.find? fun m => m.page == page with
  | some m => (m.oldLoc, m.oldFrame)
  | none => (ownLoc w, ownFrame w)

/-- Physical key of a device address in the page window, through its page's entry. -/
def windowKey (s : State) (addr : Nat) : Nat :=
  let f := pageHome s (addr / 65536)
  frameBase f.1 f.2 + addr % 65536

/-- [addr, addr + len) cut at page boundaries: (device address, offset in the range, length). -/
def pageParts (addr len : Nat) : List (Nat × Nat × Nat) :=
  (pagesOf addr len).map fun p =>
    let a := Nat.max addr (p * 65536)
    (a, a - addr, Nat.min (addr + len) ((p + 1) * 65536) - a)

/-- Bytes of the page window without a check: a management access (R369) or a checked one. -/
def windowRead (s : State) (addr len : Nat) : List Byte :=
  (pageParts addr len).flatMap fun p => physRead s (windowKey s p.1) p.2.2

/-- A range of the page window holds an uncorrectable word. -/
def windowEcc (s : State) (addr len : Nat) : Bool :=
  (pageParts addr len).any fun p => eccHit s (windowKey s p.1) p.2.2

/-- Lines of the page window that the host may hold and a write of [addr, addr + len) touches. -/
def heldLines (s : State) (addr len : Nat) : List Nat :=
  s.mgt.snoop.filter fun l => l * 64 < addr + len && addr < l * 64 + 64

/-- Before a device write is committed, the lines the host may hold are back-invalidated (R365). -/
def backInvalidate (s : State) (addr len : Nat) : State :=
  let ls := heldLines s addr len
  { s with
    mgt := { s.mgt with snoop := s.mgt.snoop.filter fun l => !ls.contains l }
    out := ls.reverse.map (fun l => Out.backInvalidate l) ++ s.out }

/-- DIRTY set on the pages of a write (R29). -/
def markDirty (s : State) (addr len : Nat) : State :=
  (pagesOf addr len).foldl (fun s p =>
    { s with pkg := { s.pkg with owner := tmod 0 s.pkg.owner p fun w => w ||| (1 <<< 32) } }) s

/-- Bytes written into the page window: back-invalidation, the bytes, DIRTY. -/
def windowWrite (s : State) (addr : Nat) (bytes : List Byte) : State :=
  let s := markDirty (backInvalidate s addr bytes.length) addr bytes.length
  (pageParts addr bytes.length).foldl
    (fun s p => physWrite s (windowKey s p.1) ((bytes.drop p.2.1).take p.2.2)) s

/-- A write covers an uncorrectable word only in part (R160): it is handled as a read of it. -/
def windowPartial (s : State) (addr len : Nat) : Bool :=
  (pageParts addr len).any fun p => !(eccPartial s (windowKey s p.1) p.2.2).isEmpty

/-- A checked read of device memory. -/
def devRead (s : State) (i : Issuer) (addr len : Nat) : Except Bar (List Byte) :=
  match checkRange s i .rd addr len with
  | some b => .error b
  | none => if windowEcc s addr len then .error .dataEcc else .ok (windowRead s addr len)

/-- A checked write of device memory. -/
def devWrite (s : State) (i : Issuer) (k : Kind) (addr : Nat) (bytes : List Byte) :
    Except Bar State :=
  match checkRange s i k addr bytes.length with
  | some b => .error b
  | none => if windowPartial s addr bytes.length then .error .dataEcc
    else .ok (windowWrite s addr bytes)

/-! ### Accesses that wait (R31 condition 4, R34) -/

/-- What waits is queued once, however often it is asked for again: a command, a ring of a die, a job's fabric ring. -/
def Waiter.once : Waiter → Bool
  | .command _ => true
  | .fabricRing _ => true
  | .barrierValue _ => true
  | .slotJobs _ => true
  | .reports _ => true
  | _ => false

/-- A Tacor command that has not been applied. -/
def Waiter.isTacor : Waiter → Bool
  | .tacor _ _ => true
  | _ => false

/-- An access that waits for the page in move (R31 condition 4, R34). -/
def park (s : State) (addr len : Nat) (w : Waiter) : State :=
  let pg := ((pagesOf addr len).find? fun q => ownLoc (ownEntry s q) == 0).getD (addr / 65536)
  if w.once && s.pkg.waiters.any (fun x => x.2 == w) then s
  else { s with pkg := { s.pkg with waiters := s.pkg.waiters ++ [(pg, w)] } }

/-! ### Error events, interrupts, the DIC -/

/-- A hardware error event enters its die's queue of 256, or is dropped and counted (R395). Events
that belong to no die enter ED0's queue. An event of a unit names the unit's domain (notes/assumptions/82.md). -/
def raise (s : State) (e : ErrEvent) : State :=
  let d := if e.die < 8 then e.die else 6
  let q := tget [] s.hlt.queues d
  if q.length < 256 then
    { s with hlt := { s.hlt with
        queues := tset [] s.hlt.queues d (q ++ [{ e with
          raw := now s, domain := if e.domain == 0xFF && e.unit < 124 then unitDomain e.unit else e.domain }]) } }
  else { s with hlt := { s.hlt with logLost := s.hlt.logLost.add 0x7FFFFFFF 1 } }

/-- An MSI-X vector: sent only while the CXL link is up. -/
def msix (s : State) (v : Nat) : State := if s.mgt.cxlUp then emit s (.msix v) else s

/-- A manager event ring entry (R364). -/
def postEvent (s : State) (kind status sl : Nat) (detail : List W64 := []) : State :=
  let m := s.mgt
  let full := m.evtBase == 0 || (m.evtTail + 1) % (m.evtEntries + 1) == m.evtHead
  if full || !m.cxlUp then
    { s with mgt := { m with evtLost := m.evtLost.add 0x7FFFFFFF 1 } }
  else
    let wrap := m.evtTail + 1 == m.evtEntries + 1
    let words := [pack 64 [(56, kind), (40, status), (34, sl)], s.tim.raw] ++
      (List.range 5).map (fun i => wd detail i) ++ [w64 (b2n m.evtPhase)]
    let s := emit s (.evtEntry m.evtTail words)
    msix { s with mgt := { s.mgt with
      evtTail := if wrap then 0 else m.evtTail + 1
      evtPhase := if wrap then !m.evtPhase else m.evtPhase } } 1

def dicSrc (s : State) (n : Nat) : DicSrc := tget {} s.mgt.srcs n
def setDicSrc (s : State) (n : Nat) (v : DicSrc) : State :=
  { s with mgt := { s.mgt with srcs := tset {} s.mgt.srcs n v } }
def dicCore (s : State) (t : Nat) : DicCore := tget {} s.mgt.cores t
def setDicCore (s : State) (t : Nat) (v : DicCore) : State :=
  { s with mgt := { s.mgt with cores := tset {} s.mgt.cores t v } }
/-- The route of a source (R380); sources 0–127 are Tacor's own, routed to it at boot (R379). -/
def dicRoute (s : State) (n : Nat) : W32 := tget 0 s.mgt.routes n

/-- DIC_COUNTS: one more dropped message, DENIED or NO_ROUTE (R379, R383). -/
def dicDrop (s : State) (isDenied : Bool) : State :=
  let m := s.mgt
  if isDenied then
    { s with mgt := if m.dicDenied < 0x7FFF then { m with dicDenied := m.dicDenied + 1 }
      else { m with dicSat := true } }
  else
    { s with mgt := if m.dicNoRoute < 0xFFFF then { m with dicNoRoute := m.dicNoRoute + 1 }
      else { m with dicSat := true } }

/-- One message for a source from a sleeve (R379, R381, R382). -/
def dicMessage (s : State) (sl value : Nat) : State :=
  let n := value % 4096
  let r := dicRoute s n
  if value / 4096 != 0 || !bitOf r 31 then dicDrop s false
  else if fld r 30 25 != sl then dicDrop s true
  else
    let x := dicSrc s n
    if !x.pending && !x.active then setDicSrc s n { x with pending := true }
    else setDicSrc s n { x with
      count := Nat.min 255 (x.count + 1)
      sat := x.sat || x.count == 255
      rearm := x.rearm || x.active }

/-! ### Host memory of a sleeve (R207, R208, R223) -/

/-- The whole byte range lies inside one host range of the sleeve (R208). -/
def inHostRange (v : Sleeve) (addr len : Nat) : Bool :=
  (List.range 8).any fun i =>
    let r := tget (0, 0) v.ranges i
    r.1 ≤ addr && addr + len ≤ r.1 + r.2

/-- Host memory can be reached: the link is up and, in PASID-slice mode, PASID_ON is 1. -/
def hostReachable (s : State) : Bool := s.mgt.cxlUp && (!cfgSharing s || s.mgt.pasidOn)

/-- Byte offset of a host address in the concatenation of the sleeve's ranges (R223). -/
def rangeOffset (v : Sleeve) (addr : Nat) : Nat :=
  let rec go : List Nat → Nat → Nat
    | [], _ => 0
    | i :: r, base =>
      let x := tget (0, 0) v.ranges i
      if x.1 ≤ addr && addr < x.1 + x.2 then base + (addr - x.1) else go r (base + x.2)
  go (List.range 8) 0

/-- Device address of 64-bit word i of the dirty bitmap, which lies in the bitmap pages in order (R223). -/
def bitmapAddr (v : Sleeve) (i : Nat) : Option Nat :=
  v.bitmapPages[i / 8192]?.map fun p => p * 65536 + i % 8192 * 8

/-- A word of the dirty bitmap; there is none past the bitmap's pages. -/
def bitmapWord (s : State) (v : Sleeve) (i : Nat) : W64 :=
  match bitmapAddr v i with
  | some a => leW64 (windowRead s a 8)
  | none => 0

/-- A word of the dirty bitmap written: a write to its page like any other (R29, R365). -/
def setBitmapWord (s : State) (v : Sleeve) (i : Nat) (w : W64) : State :=
  match bitmapAddr v i with
  | some a => windowWrite s a (leBytes 8 w.toNat)
  | none => s

/-- The dirty bitmap bits of a host write of sleeve k (R223). -/
def markHostDirty (s : State) (k addr len : Nat) : State :=
  let v := sleeve s k
  if !v.dirtyOn || len == 0 then s else
    let o := rangeOffset v addr
    let first := o / 4096
    let last := (o + len - 1) / 4096
    (List.range (last + 1 - first)).foldl (fun s i =>
      let p := first + i
      setBitmapWord s v (p / 64) (bitmapWord s v (p / 64) ||| (1 <<< (p % 64)))) s

/-- The PASID prefix of a sleeve's requests: in PASID-slice mode alone (R207, R362). -/
def pasidOf (s : State) (k : Nat) : Option Nat :=
  if cfgSharing s && k != 0 then some (fld (wd (sleeve s k).record 0) 39 20) else none

/-- A host write of a sleeve that is permitted: sent, logged as dirty, counted (R223, R226). -/
def hostWrite (s : State) (k addr : Nat) (bytes : List Byte) : State :=
  modSleeve (emit (markHostDirty s k addr bytes.length) (.hostWrite k (pasidOf s k) addr bytes)) k fun v =>
    { v with acct := { v.acct with bytesHost := v.acct.bytesHost + w64 bytes.length } }

/-- Bytes of host memory of a sleeve are counted (R226). -/
def countHost (s : State) (k n : Nat) : State :=
  modSleeve s k fun v => { v with acct := { v.acct with bytesHost := v.acct.bytesHost + w64 n } }

/-- A host read of a sleeve that is permitted: sent and counted. -/
def hostRead (s : State) (k addr n : Nat) : State := countHost (emit s (.hostRead k (pasidOf s k) addr n)) k n

/-- A queue access that failed (R218): QUEUE_FAULT, and the manager is told. -/
def queueFault (s : State) (k : Nat) : State :=
  postEvent (modSleeve s k fun v => { v with queueFault := true }) 1 (statusCode .denied) k

/-- Entries of a queue (R209): ENTRIES − 1 is stored. -/
def qEntries (v : Sleeve) (hi lo : Nat) : Nat := fld (wd v.record 5) hi lo + 1

/-- A fault queue entry (R217, R218): written with its PHASE, or dropped and counted. -/
def postFault (s : State) (k : Nat) (record : List W64) : State :=
  let v := sleeve s k
  let n := qEntries v 31 16
  if v.queueFault then s
  else if (v.fqNext + 1) % n == v.fqHead then
    modSleeve s k fun v => { v with fqLost := v.fqLost.add 0xFFFF 1 }
  else
    let addr := (wd v.record 4).toNat + 192 * v.fqNext
    if !hostReachable s || !inHostRange v addr 192 then queueFault s k
    else
      let words := record.take 15 ++ [pack 64 [(0, b2n v.fqPhase)]] ++ record.drop 16
      let s := hostWrite (emit s (.fqEntry k v.fqNext words)) k addr (bytesOf words)
      let wrap := v.fqNext + 1 == n
      let s := modSleeve s k fun v => { v with
        fqNext := if wrap then 0 else v.fqNext + 1
        fqPhase := if wrap then !v.fqPhase else v.fqPhase }
      if v.intMask / 2 % 2 == 1 then s else msix s (31 + 2 * k)

/-- The command completion queue is full (R217). -/
def cqFull (v : Sleeve) : Bool := (v.cqNext + 1) % qEntries v 47 32 == v.cqHead

/-- A command completion entry (R217): written now; while the queue is full it waits. While QUEUE_FAULT stands (R218),
one that falls due is dropped for good, which the spec leaves open (DESIGN CHOICE, notes/assumptions/10.md). -/
def postCq (s : State) (k tag status : Nat) (result : List W64) : State :=
  let v := sleeve s k
  let n := qEntries v 47 32
  let addr := (wd v.record 3).toNat + 32 * v.cqNext
  if v.queueFault then s
  else if cqFull v then
    modSleeve s k fun v => { v with backlog := v.backlog ++ [(tag, status, result)] }
  else if !hostReachable s || !inHostRange v addr 32 then queueFault s k
  else
    let words := [pack 64 [(32, tag), (16, status), (0, b2n v.cqPhase)], wd result 0, wd result 1,
      wd result 2]
    let s := hostWrite (emit s (.cqEntry k v.cqNext words)) k addr (bytesOf words)
    let wrap := v.cqNext + 1 == n
    let s := modSleeve s k fun v => { v with
      cqNext := if wrap then 0 else v.cqNext + 1
      cqPhase := if wrap then !v.cqPhase else v.cqPhase }
    if v.intMask % 2 == 1 then s else msix s (30 + 2 * k)

end Sys2Proof.Machine
end

