-- ==== Sys2Proof/Machine/Chain.lean ====
section
/-! DEFINITION. Chain descriptors and their passes (chapter 04): R101–R112, R118–R119, R124–R126. The
fields, the checks at fetch, the address generator, and what each kind of pass computes and writes. -/

namespace Sys2Proof.Machine

/-! ### Fields of a chain descriptor (R125) -/

def cFirst (d : List W64) : Bool := bitOf (wd d 0) 59
def cClose (d : List W64) : Bool := bitOf (wd d 0) 58
def cOrient (d : List W64) : Bool := bitOf (wd d 0) 57
def cFmtA (d : List W64) : Nat := fld (wd d 0) 55 48
def cFmtB (d : List W64) : Nat := fld (wd d 0) 47 40
def cRound (d : List W64) : Nat := fld (wd d 0) 39 36
def cPhase (d : List W64) : Nat := fld (wd d 0) 35 34
def cOvf (d : List W64) : Bool := bitOf (wd d 0) 33
def cOutFmt (d : List W64) : Nat := fld (wd d 0) 31 24
def cShift (d : List W64) : Nat := fld (wd d 0) 23 16
/-- Fed element rows. -/
def cRowsK (d : List W64) : Nat := fld (wd d 0) 15 8 + 1
/-- Fed columns. -/
def cCols (d : List W64) : Nat := fld (wd d 0) 7 0 + 1
def cStream (d : List W64) : Int := sfld (wd d 1) 63 32
def cTile (d : List W64) : Nat := fld (wd d 1) 25 0
def cPart (d : List W64) (b : Bool) : Nat := if b then fld (wd d 2) 37 12 else fld (wd d 2) 63 38
def cAnchor (d : List W64) : Nat := fld (wd d 3) 63 38
def cScales (d : List W64) : Nat := fld (wd d 3) 37 12
def cOut (d : List W64) : Nat := fld (wd d 4) 63 38
def cOutStride (d : List W64) : Nat := fld (wd d 4) 37 16
def cCount (d : List W64) (l : Nat) : Nat := fld (wd d (6 + l)) 63 48 + 1
def cHStep (d : List W64) (l : Nat) : Int := sfld (wd d (6 + l)) 47 42
def cWStep (d : List W64) (l : Nat) : Int := sfld (wd d (6 + l)) 41 36
def cStride (d : List W64) (l : Nat) : Int := sfld (wd d (6 + l)) 27 0
/-- TSTRIDE of levels 3 to 5. -/
def cTStride (d : List W64) (l : Nat) : Nat := fld (wd d 12) (18 * (l - 3) + 17) (18 * (l - 3))
def cFed (d : List W64) : Nat := fld (wd d 15) 25 0
def cFlat (d : List W64) : Nat := fld (wd d 15) 63 30

/-! ### The address generator (R118) -/

/-- Stream rows per data row (R103). -/
def srpd (d : List W64) : Nat := if cFmtA d = 0x08 then 4 else 1

/-- Data rows of a pass, and passes over the tiles. -/
def cRows (d : List W64) : Nat := cCount d 0 * cCount d 1 * cCount d 2
def cTiles (d : List W64) : Nat := cCount d 3 * cCount d 4 * cCount d 5

/-- M of a pass (R118). -/
def streamM (d : List W64) : Nat := cRows d * srpd d

/-- Level indices of data row m and tile t. -/
def levelIx (d : List W64) (m t : Nat) : List Nat :=
  [m % cCount d 0, m / cCount d 0 % cCount d 1, m / (cCount d 0 * cCount d 1),
    t % cCount d 3, t / cCount d 3 % cCount d 4, t / (cCount d 3 * cCount d 4)]

/-- Σ over the six levels of index × step. -/
def levelSum (d : List W64) (m t : Nat) (f : Nat → Int) : Int :=
  ((List.range 6).map fun l => ((levelIx d m t).getD l 0 : Int) * f l).sum

def rowAddr (d : List W64) (m t : Nat) : Int := cStream d + levelSum d m t (cStride d)
def rowH (d : List W64) (m t : Nat) : Int := sfld (wd d 5) 31 16 + levelSum d m t (cHStep d)
def rowW (d : List W64) (m t : Nat) : Int := sfld (wd d 5) 15 0 + levelSum d m t (cWStep d)

/-- The data row is fed, not padded (R118). -/
def rowFed (d : List W64) (m t : Nat) : Bool :=
  0 ≤ rowH d m t && rowH d m t < fld (wd d 5) 63 48 && 0 ≤ rowW d m t &&
    rowW d m t < fld (wd d 5) 47 32

def tileAddr (d : List W64) (t : Nat) : Nat :=
  cTile d + 256 * ((List.range 3).map fun l =>
    (levelIx d 0 t).getD (3 + l) 0 * cTStride d (3 + l)).sum

/-- K positions of a tile, those fed, and the blocks of 32 (R103, R108). -/
def kPerPass (f : Nat) : Nat := if isTwoProduct f then 512 else 256
def kFed (d : List W64) : Nat := if isTwoProduct (cFmtA d) then 2 * cRowsK d else cRowsK d
def blocksPerTile (f : Nat) : Nat := kPerPass f / 32
def blocksFed (d : List W64) : Nat := kFed d / 32

/-- Bytes of the elements of a tile, and of the whole tile (R103). -/
def tileElemBytes (f : Nat) : Nat := kPerPass f * 256 * elemBits f / 8
def tileBytes (f : Nat) : Nat :=
  tileElemBytes f + if isMx f then 256 * blocksPerTile f else 0

/-- Bytes that 32 elements occupy (R124). -/
def b32 (f : Nat) : Nat := 4 * elemBits f

/-- Bytes of an output element (R111). -/
def outBytes (f : Nat) : Nat := elemBits f / 8

/-! ### The checks at fetch (R126) -/

/-- Passes of the scale phase (R109): each covers up to 256 of the chain's fed blocks. -/
def scalePasses (d : List W64) : Nat := cdiv (cTiles d * blocksFed d) 256

/-- Phases a descriptor runs: its PHASE, or every phase that the format needs (R109, R112). -/
def descPhases (d : List W64) : List Nat :=
  let needs : List Nat := (if isMx (cFmtA d) then [1] else []) ++
    (if isMx (cFmtA d) || cFmtA d = 0x09 then [2] else []) ++ [3]
  if cPhase d = 0 then needs else needs.filter (· == cPhase d)

/-- Passes of a chain, phase by phase (R109). -/
def chainPasses (d : List W64) : List (Nat × Nat) :=
  (descPhases d).flatMap fun p => (List.range (if p = 1 then scalePasses d else cTiles d)).map fun t => (p, t)

/-- Beats of a pass (R102). -/
def passBeats (d : List W64) : Nat := 514 + streamM d

/-- The fed blocks of scale pass p: (tile, block). -/
def scaleBlocks (d : List W64) (p : Nat) : List (Nat × Nat) :=
  ((List.range 256).map (· + 256 * p)).filterMap fun g =>
    if g < cTiles d * blocksFed d then some (g / blocksFed d, g % blocksFed d) else none

/-- RSVD bits of a chain descriptor (R125). -/
def chainRsvd : List (Nat × Nat × Nat) :=
  [(0, 56, 56), (0, 32, 32), (1, 31, 26), (2, 11, 0), (3, 11, 0), (4, 15, 0), (6, 35, 28),
    (7, 35, 28), (8, 35, 28), (9, 35, 28), (10, 35, 28), (11, 35, 28), (12, 63, 54), (15, 29, 26)]

/-- Every fed row lies at a 64-byte aligned address (R119). -/
def rowsAligned (d : List W64) : Bool :=
  (List.range (cTiles d)).all fun t => (List.range (cRows d)).all fun m =>
    !rowFed d m t || rowAddr d m t % 64 == 0

/-- Products of one output that a descriptor names (R77): only product passes form them. -/
def descK (d : List W64) : Nat :=
  if cPhase d == 0 || cPhase d == 3 then kFed d * cTiles d else 0

/-- The descriptor breaks a rule of R126, whatever the chain state. -/
def descBad (d : List W64) : Bool :=
  let a := cFmtA d
  let b := cFmtB d
  !isOutFmt (cOutFmt d) || cRound d ≥ 4 || !isMatrixFmt a || !isMatrixFmt b || !pairOk a b ||
  (isMx a && kFed d % 32 != 0) || descK d > 2 ^ 20 || cShift d ≥ 64 ||
  (cRound d == 3 && cFlat d + cRows d * cCols d > 2 ^ 34) ||
  !rsvdZero d chainRsvd || (cOrient d && (isTwoProduct a || isMx a)) ||
  streamM d > 65536 || fld (wd d 5) 63 48 == 0 || fld (wd d 5) 47 32 == 0 ||
  (cPhase d == 0 && !(cFirst d && cClose d)) ||
  cTile d % 256 != 0 || cPart d false % 4096 != 0 || cPart d true % 4096 != 0 ||
  cFed d % 8192 != 0 || !rowsAligned d

/-- The descriptor does not fit the chain state of its slot (R112, R77). -/
def chainOrderBad (x : Slot) (d : List W64) : Bool :=
  !cFirst d && (!x.chainOpen || cPhase d < x.phase || x.chainK + descK d > 2 ^ 20)

/-! ### The partition of a slot -/

/-- Physical key of a partition offset. -/
def partKey (x : Slot) (e off : Nat) : Nat := pocketKey e (x.base * 2 ^ 20 + off)

/-- A region lies in the partition. -/
def inPart (x : Slot) (off : Int) (n : Nat) : Bool := 0 ≤ off && off + n ≤ x.size * 2 ^ 20

def partByte (s : State) (x : Slot) (e off : Nat) : Nat :=
  (rdByte s.pkg.mem (partKey x e off)).toNat

def partNat (s : State) (x : Slot) (e off n : Nat) : Nat := leNat (physRead s (partKey x e off) n)

def partWrite (s : State) (x : Slot) (e off : Nat) (bytes : List Byte) : State :=
  physWrite s (partKey x e off) bytes

/-- Address of the anchor word of output (m, n) (R80). -/
def anchorOff (d : List W64) (m n : Nat) : Nat := cAnchor d + 512 * m + 2 * n

def readAnchor (s : State) (x : Slot) (e : Nat) (d : List W64) (m n : Nat) : AnchorWord :=
  decodeAnchor (partNat s x e (anchorOff d m n) 2)

def writeAnchor (s : State) (x : Slot) (e : Nat) (d : List W64) (m n : Nat) (a : AnchorWord) :
    State :=
  partWrite s x e (anchorOff d m n) (leBytes 2 a.encode)

/-- Partial of output (m, n) in a region (R110). -/
def partOff (d : List W64) (b : Bool) (m n : Nat) : Nat := cPart d b + 4096 * m + 16 * n

/-- The FED bit of data row m (R110). -/
def fedBit (s : State) (x : Slot) (e m : Nat) : Bool :=
  partByte s x e (x.fedBase + m / 8) / 2 ^ (m % 8) % 2 == 1

def setFed (s : State) (x : Slot) (e m : Nat) : State :=
  let b := partByte s x e (x.fedBase + m / 8)
  if b / 2 ^ (m % 8) % 2 == 1 then s
  else partWrite s x e (x.fedBase + m / 8) [BitVec.ofNat 8 (b + 2 ^ (m % 8))]

/-! ### Operands -/

/-- Element k of a data row. -/
def elemA (s : State) (x : Slot) (e : Nat) (d : List W64) (m t k : Nat) : Val :=
  let a := (rowAddr d m t).toNat
  decodeElem (cFmtA d) (elemCode (cFmtA d) (fun i => partByte s x e (a + i)) k)

/-- The bytes of memory [key, key + n) by offset: what a tile load brings into the registers (R105). -/
def loadTile (s : State) (key n : Nat) : Tbl Byte :=
  (s.pkg.mem.filter fun b => key ≤ b.1 && b.1 < key + n).map fun b => (b.1 - key, b.2)

/-- Element (k, n) of a tile, in its orientation (R103, R104). -/
def elemB (d : List W64) (tile : Tbl Byte) (k n : Nat) : Val :=
  let i := if cOrient d then n * 256 + k else k * 256 + n
  decodeElem (cFmtB d) (elemCode (cFmtB d) (fun j => (tget 0 tile j).toNat) i)

/-- Offset of the scale byte of block b of a data row (R124), and of column n of a tile (R103). -/
def scaleOffA (d : List W64) (m t b : Nat) : Int :=
  cScales d + (rowAddr d m t + b * b32 (cFmtA d) - cStream d) / (b32 (cFmtA d) : Int)
def scaleOffB (d : List W64) (n b : Nat) : Nat := tileElemBytes (cFmtB d) + n * blocksPerTile (cFmtB d) + b

/-- sa of a block of a data row, and sb of a block of a tile's column. -/
def scaleA (s : State) (x : Slot) (e : Nat) (d : List W64) (m t b : Nat) : Option Int :=
  scaleExp (partByte s x e (scaleOffA d m t b).toNat)
def scaleB (d : List W64) (tile : Tbl Byte) (n b : Nat) : Option Int :=
  scaleExp (tget 0 tile (scaleOffB d n b)).toNat

/-- sa + sb of a block; none: a scale is 0xFF (R75). -/
def blockScale (s : State) (x : Slot) (e : Nat) (d : List W64) (tile : Tbl Byte) (m t n b : Nat) : Option Int :=
  match scaleA s x e d m t b, scaleB d tile n b with
  | some a, some c => some (a + c)
  | _, _ => none

/-- The product of position k of output (m, n) in tile t (R76). -/
def product (s : State) (x : Slot) (e : Nat) (d : List W64) (tile : Tbl Byte) (m t n k : Nat) : Val :=
  let p := mulV (elemA s x e d m t k) (elemB d tile k n)
  if isMx (cFmtA d) then
    match blockScale s x e d tile m t n (k / 32) with
    | none => .nan
    | some q => scaleVal q p
  else p

def products (s : State) (x : Slot) (e : Nat) (d : List W64) (tile : Tbl Byte) (m t n : Nat) : List Val :=
  (List.range (kFed d)).map (product s x e d tile m t n)

/-! ### Regions a pass touches (R126, R136) -/

/-- Runs of the partition that a pass reads: (offset, length). Phase codes as in R109. -/
def passReads (x : Slot) (d : List W64) (phase next : Nat) : List (Int × Nat) :=
  let a := cFmtA d
  let rows := List.range (cRows d)
  let blocks := if phase = 1 then scaleBlocks d next else (List.range (blocksFed d)).map fun b => (next, b)
  let sc : List (Int × Nat) := if isMx a then blocks.flatMap fun tb =>
      (rows.filter fun m => rowFed d m tb.1).map fun m => (scaleOffA d m tb.1 tb.2, 1) else []
  let elems : List (Int × Nat) := if phase = 1 then [] else
      (rows.filter fun m => rowFed d m next).map fun m => (rowAddr d m next, packedBytes a (kFed d))
  let tile : List (Int × Nat) := if phase = 1 then
      ((List.range (cTiles d)).filter fun t => blocks.any fun tb => tb.1 == t).map fun t =>
        (((tileAddr d t + tileElemBytes (cFmtB d) : Nat) : Int), 256 * blocksPerTile (cFmtB d))
    else [((tileAddr d next : Int), tileBytes (cFmtB d))]
  let anchors : List (Int × Nat) := rows.map fun m => ((anchorOff d m 0 : Int), 2 * cCols d)
  let parts : List (Int × Nat) :=
    if phase = 3 && x.products != 0 then
      rows.map fun m => ((partOff d (x.products % 2 == 0) m 0 : Int), 16 * cCols d)
    else if phase = 1 then rows.map fun m => ((partOff d true m 0 : Int), 16 * cCols d)
    else []
  sc ++ elems ++ tile ++ anchors ++ parts ++ [((x.fedBase : Int), 8192)]

/-- Runs that a product pass writes beside the anchor words: a partial region or the outputs. -/
def passWrites (x : Slot) (d : List W64) (phase next : Nat) : List (Int × Nat) :=
  let rows := List.range (cRows d)
  if phase != 3 then []
  else if cClose d && next + 1 == cTiles d then
    rows.map fun m => ((cOut d + m * cOutStride d : Nat), outBytes (cOutFmt d) * cCols d)
  else rows.map fun m => ((partOff d (x.products % 2 == 1) m 0 : Int), 16 * cCols d)

/-- Every address of the pass lies in the partition. -/
def passInside (x : Slot) (d : List W64) (phase next : Nat) : Bool :=
  (passReads x d phase next ++ passWrites x d phase next).all fun r => inPart x r.1 r.2

/-- An input, a partial or an anchor word of the pass cannot be read, or a write covers a word that
cannot be read only in part (R136, R160). -/
def passEcc (s : State) (x : Slot) (e : Nat) (d : List W64) (phase next : Nat) : Bool :=
  ((passReads x d phase next).any fun r => eccHit s (partKey x e r.1.toNat) r.2) ||
  (passWrites x d phase next).any fun r => !(eccPartial s (partKey x e r.1.toNat) r.2).isEmpty

/-! ### Passes -/

/-- Every output (m, n) of a pass, in order. -/
def outputs (d : List W64) : List (Nat × Nat) :=
  (List.range (cRows d)).flatMap fun m => (List.range (cCols d)).map fun n => (m, n)

/-- What PART_B holds for an element with no valid block: the least number of its 16 bits, which no scale sum is below,
so that the maximum over chips is that of the blocks there are (R84, R96; notes/assumptions/84.md). -/
def noScale : Nat := 0x8000

/-- A scale pass (R109): the smallest sa + sb into EXP and the largest into PART_B. `isNew`: the first
scale pass of the chain starts every element EMPTY. -/
def scalePass (s : State) (x : Slot) (e : Nat) (d : List W64) (next : Nat) (isNew : Bool) : State :=
  let tiles := (List.range (cTiles d)).map fun t =>
    loadTile s (partKey x e (tileAddr d t)) (tileBytes (cFmtB d))
  (outputs d).foldl (fun s mn =>
    let a := readAnchor s x e d mn.1 mn.2
    let sums := (scaleBlocks d next).filterMap fun tb =>
      if rowFed d mn.1 tb.1 then blockScale s x e d (tiles.getD tb.1 []) mn.1 tb.1 mn.2 tb.2 else none
    let hi : Int := sfld (BitVec.ofNat 16 (partNat s x e (partOff d true mn.1 mn.2) 2)) 15 0
    let old : Option (Int × Int) := if isNew || a.empty then none else some (a.exp, hi)
    let r := sums.foldl (fun (o : Option (Int × Int)) q => match o with
      | none => some (q, q)
      | some (lo, h) => some (min lo q, max h q)) old
    let w : AnchorWord := match r with
      | some (lo, _) => { windowed := false, empty := false, exp := lo }
      | none => { windowed := false, empty := true, exp := 0 }
    let top : Nat := match r with | some (_, h) => Int.toNat (h % 65536) | none => noScale
    partWrite (writeAnchor s x e d mn.1 mn.2 w) x e (partOff d true mn.1 mn.2) (leBytes 16 top)) s

/-- Runs that the classification of an anchor phase reads and writes: the anchor words, and PART_B of an MX
chain. -/
def classifyRuns (d : List W64) : List (Int × Nat) :=
  (List.range (cRows d)).flatMap fun m =>
    [((anchorOff d m 0 : Int), 2 * cCols d)] ++
    if isMx (cFmtA d) then [((partOff d true m 0 : Int), 16 * cCols d)] else []

/-- The start of an anchor phase: BF16 elements are windowed and empty; an MX element is classified by
its spread (R83, R109). With it, the elements placed in windowed mode. -/
def classify (s : State) (x : Slot) (e : Nat) (d : List W64) : State × Nat :=
  (outputs d).foldl (fun (s, c) mn =>
    if isMx (cFmtA d) then
      let a := readAnchor s x e d mn.1 mn.2
      let hi : Int := sfld (BitVec.ofNat 16 (partNat s x e (partOff d true mn.1 mn.2) 2)) 15 0
      if !a.empty && hi - a.exp > 40 then
        (writeAnchor s x e d mn.1 mn.2 { windowed := true, empty := true, exp := 0 }, c + 1)
      else (writeAnchor s x e d mn.1 mn.2 { a with windowed := false }, c)
    else (writeAnchor s x e d mn.1 mn.2 { windowed := true, empty := true, exp := 0 }, c)) (s, 0)

/-- Some element of the block of outputs is windowed. -/
def anyWindowed (s : State) (x : Slot) (e : Nat) (d : List W64) : Bool :=
  (outputs d).any fun mn => (readAnchor s x e d mn.1 mn.2).windowed

/-- An anchor pass (R82, R109): EXP takes the largest exponent of the tile's finite nonzero products. -/
def anchorPass (s : State) (x : Slot) (e : Nat) (d : List W64) (tile : Tbl Byte) (t : Nat) : State :=
  (outputs d).foldl (fun s mn =>
    let a := readAnchor s x e d mn.1 mn.2
    if !a.windowed || !rowFed d mn.1 t then s
    else
      let r := (List.range (kFed d)).foldl (fun (o : Option Int) k =>
        match elemA s x e d mn.1 t k, elemB d tile k mn.2,
            (if isMx (cFmtA d) then blockScale s x e d tile mn.1 t mn.2 (k / 32) else some 0) with
        | .fin _ m1 e1, .fin _ m2 e2, some q =>
          let v := leadExp m1 e1 + leadExp m2 e2 + q
          some (match o with | some y => max y v | none => v)
        | _, _, _ => o) (if a.empty then none else some a.exp)
      match r with
      | some v => writeAnchor s x e d mn.1 mn.2 { a with empty := false, exp := v }
      | none => s) s

/-- The lsb exponent of an element's frame (R81, R82). -/
def frameLsb (d : List W64) (a : AnchorWord) : Int :=
  a.lsb (lsbExp (cFmtA d) + lsbExp (cFmtB d))

/-- What a pass at work carries: the state, the counts, the bytes of the output row at work, and whether
a partial could not be read back. -/
structure PassOut where
  st : State
  counts : Counts := {}
  row : List Byte := []
  badPartial : Bool := false

/-- The rounding of output (m, n) of a chain (R85–R88, R111). -/
def chainRounding (d : List W64) (chip m n : Nat) : Rounding :=
  let flat := cFlat d + (m * cOutStride d + n * outBytes (cOutFmt d)) / outBytes (cOutFmt d)
  { mode := cRound d, inf := cOvf d, shift := cShift d,
    u := if cRound d = 3 then
        stochasticWord (wd d 13) flat (fld (wd d 14) 63 32) (fld (wd d 14) 31 0) chip
      else 0 }

/-- What a product pass is run with: its slot, engine and descriptor, the tile and its number, whether the outputs
are rounded, how output (m, n) is rounded, and what the array adds wrongly to it, in units of its frame. -/
structure PassRule where
  x : Slot
  e : Nat
  d : List W64
  tile : Tbl Byte
  t : Nat
  rounds : Bool
  rnd : Nat → Nat → Rounding
  err : AnchorWord → Nat → Nat → Int

/-- A frame that came out wrong: the finite sum is off by an error; the KIND travels on its own logic (R138). -/
def Frame.off (f : Frame) (err : Int) : Frame :=
  match f with
  | .fin v => .fin (v + err)
  | .negZero => if err = 0 then .negZero else .fin err
  | g => g

/-- One output of a product pass (R110, R111). `wasFed` is the FED bit before the pass. A finite nonzero product
that truncates to 0 adds nothing (R82) and clears EMPTY all the same, since EMPTY tells that no finite nonzero
product has come so far (R80; DEDUCED, notes/assumptions/85.md). -/
def productOut (r : PassRule) (m n : Nat) (wasFed : Bool) (o : PassOut) : PassOut :=
  let s := o.st
  let d := r.d
  let x := r.x
  let exact := !isMx (cFmtA d) && cFmtA d != 0x09
  let a0 := readAnchor s x r.e d m n
  let a : AnchorWord := if exact && x.products == 0 then
      { windowed := false, empty := true, exp := 0 } else a0
  let isFed := rowFed d m r.t
  let rd := decodeFrame (partNat s x r.e (partOff d (x.products % 2 == 0) m n) 16)
  let bad := wasFed && x.products != 0 && rd.isNone
  let old : Option Frame := if wasFed then rd else none
  let l := frameLsb d a
  let ps := if isFed then products s x r.e d r.tile m r.t n else []
  let sum := accumulate l old ps
  let nonzero := ps.any fun p => match p with | .fin _ _ _ => true | _ => false
  let f := (sum.1.getD (.fin 0)).off (r.err a m n)
  let a' : AnchorWord := { a with
    empty := if !wasFed && !isFed then true else a.empty && !nonzero }
  let s := writeAnchor s x r.e d m n a'
  let counts := { o.counts with discards := o.counts.discards + sum.2 }
  if r.rounds then
    let size := outBytes (cOutFmt d)
    let (code, c) := if cOutFmt d = 0x21 then (f.encode, {})
      else roundTo (cOutFmt d) (r.rnd m n) (f.val l)
    { st := s, counts := counts.add c, row := o.row ++ leBytes size code
      badPartial := o.badPartial || bad }
  else
    { st := partWrite s x r.e (partOff d (x.products % 2 == 1) m n) (leBytes 16 f.encode)
      counts := counts, badPartial := o.badPartial || bad }

/-- A product pass over its tile (R110, R111). -/
def productPass (s : State) (r : PassRule) : PassOut :=
  (List.range (cRows r.d)).foldl (fun o m =>
    let wasFed := fedBit o.st r.x r.e m
    let o := (List.range (cCols r.d)).foldl (fun o n => productOut r m n wasFed o) o
    let o := { o with
      st := if r.rounds then partWrite o.st r.x r.e (cOut r.d + m * cOutStride r.d) o.row else o.st
      row := [] }
    if rowFed r.d m r.t then { o with st := setFed o.st r.x r.e m } else o) { st := s }

end Sys2Proof.Machine
end

