-- ==== Sys2Proof/Machine/Checker.lean ====
section
/-! DEFINITION. What the lining computes of a product pass: the checksum row and column with their syndromes
(R138–R142) and the residue lanes (R144, R145), from the operands of the pass and from where the silicon
departs from the equations. -/

namespace Sys2Proof.Machine

/-! ### Errors of the silicon -/

/-- What the array adds wrongly to Δ(m, j). -/
def errOutput (es : List PassError) (m j : Nat) : Int :=
  (es.map fun e => match e with | .output a b v => if a = m ∧ b = j then v else 0 | _ => 0).sum
/-- What the checksum column adds wrongly to C(m). -/
def errColumn (es : List PassError) (m : Nat) : Int :=
  (es.map fun e => match e with | .checkColumn a v => if a = m then v else 0 | _ => 0).sum
/-- What the checksum lane adds wrongly to P(j). -/
def errRow (es : List PassError) (j : Nat) : Int :=
  (es.map fun e => match e with | .checkRow a v => if a = j then v else 0 | _ => 0).sum
def errCorner (es : List PassError) : Int :=
  (es.map fun e => match e with | .corner v => v | _ => 0).sum
/-- What the residue lane of column j forms wrongly for data row m. -/
def errResidue (es : List PassError) (m j : Nat) : Int :=
  (es.map fun e => match e with | .residue a b v => if a = m ∧ b = j then v else 0 | _ => 0).sum

/-! ### The operands as integers (R141) -/

/-- A finite value in units of 2^u; a value that is not finite enters no sum (R138; DEDUCED,
notes/assumptions/86.md). -/
def unitsOf (u : Int) : Val → Int
  | .fin n m e => sval n (m * 2 ^ (e - u).toNat)
  | _ => 0

/-- The smallest of a list, 0 of none. -/
def least : List Int → Int
  | [] => 0
  | a :: r => r.foldl min a

/-- The operands of a pass as the checker sees them: the data rows it feeds, a(m, i) by row and K position,
W[i][j] by K position and column, and the power of two by which their products exceed the unit 2^U. -/
structure CheckView where
  rows : List Nat
  cols : Nat
  a : List (List Int)
  w : List (List Int)
  shift : Nat
  deriving DecidableEq, Repr

/-- Scales of A and of B that the pass feeds. -/
def scalesA (s : State) (x : Slot) (e : Nat) (d : List W64) (t : Nat) (rows : List Nat) : List Int :=
  rows.flatMap fun m => (List.range (blocksFed d)).filterMap fun b => scaleA s x e d m t b
def scalesB (d : List W64) (tile : Tbl Byte) : List Int :=
  (List.range (cCols d)).flatMap fun n => (List.range (blocksFed d)).filterMap fun b => scaleB d tile n b

/-- The checker's unit exponent U of a pass (R141). -/
def checkUnit (s : State) (x : Slot) (e : Nat) (d : List W64) (tile : Tbl Byte) (t : Nat) (rows : List Nat) : Int :=
  lsbExp (cFmtA d) + lsbExp (cFmtB d) +
    if isMx (cFmtA d) then
      least (rows.flatMap fun m => (List.range (cCols d)).flatMap fun n =>
        (List.range (blocksFed d)).filterMap fun b => blockScale s x e d tile m t n b)
    else 0

/-- The view of a pass over tile t, of the data rows listed and of the K positions that `mask` lets in. -/
def checkView (s : State) (x : Slot) (e : Nat) (d : List W64) (tile : Tbl Byte) (t : Nat) (rows : List Nat)
    (mask : Nat → Bool) : CheckView :=
  let mx := isMx (cFmtA d)
  let ua := lsbExp (cFmtA d) + if mx then least (scalesA s x e d t rows) else 0
  let ub := lsbExp (cFmtB d) + if mx then least (scalesB d tile) else 0
  let ks := (List.range (kFed d)).filter mask
  let scaled (q : Option Int) (v : Val) : Val := match q with | some k => scaleVal k v | none => .nan
  { rows := rows
    cols := cCols d
    a := rows.map fun m => ks.map fun k =>
      unitsOf ua (scaled (if mx then scaleA s x e d m t (k / 32) else some 0) (elemA s x e d m t k))
    w := ks.map fun k => (List.range (cCols d)).map fun n =>
      unitsOf ub (scaled (if mx then scaleB d tile n (k / 32) else some 0) (elemB d tile k n))
    shift := (checkUnit s x e d tile t rows - ua - ub).toNat }

/-- Σ x_i × y_i. -/
def dotInt (xs ys : List Int) : Int := (List.zipWith (· * ·) xs ys).sum

/-- w^c_i: the sums over the fed columns, written into the checksum column when the tile loads (R139). -/
def CheckView.wc (v : CheckView) : List Int := v.w.map List.sum

/-- ā_i: the sums over the fed rows, formed as the rows enter (R140). -/
def CheckView.abar (v : CheckView) : List Int :=
  (List.range v.w.length).map fun i => (v.a.map fun r => r.getD i 0).sum

/-- Column j of the tile. -/
def CheckView.column (v : CheckView) (j : Nat) : List Int := v.w.map fun r => r.getD j 0

/-- A sum of products in units of 2^U (R141). -/
def CheckView.units (v : CheckView) (z : Int) : Int := z / (2 ^ v.shift : Nat)

/-- C(m) = Σ a(m, i) × w^c_i (R139), of row number r of the view. -/
def CheckView.c (v : CheckView) (r : Nat) : Int := v.units (dotInt (v.a.getD r []) v.wc)
/-- P(j) = Σ ā_i × W[i][j] (R140). -/
def CheckView.p (v : CheckView) (j : Nat) : Int := v.units (dotInt v.abar (v.column j))
/-- Σ ā_i × w^c_i, what the corner forms (R140). -/
def CheckView.corner (v : CheckView) : Int := v.units (dotInt v.abar v.wc)
/-- Δ(m, j) of row number r: the finite products of the pass (R138). -/
def CheckView.delta (v : CheckView) (r j : Nat) : Int := v.units (dotInt (v.a.getD r []) (v.column j))

/-! ### Syndromes (R139–R142) -/

/-- The syndromes of a pass, modulo 2^128: r(m) by data row, c(j) by column, the corner's difference. -/
structure Syndromes where
  rows : List (Nat × Int)
  cols : List Int
  corner : Int
  deriving DecidableEq, Repr

/-- The value modulo 2^128 (R141). -/
def mod128 (v : Int) : Int := v % (2 ^ 128 : Nat)

/-- The syndromes that the checker forms of the outputs as they came out (R139, R140). -/
def syndromes (v : CheckView) (es : List PassError) : Syndromes :=
  let js := List.range v.cols
  let out : List (List Int) := (List.range v.rows.length).map fun r =>
    js.map fun j => v.delta r j + errOutput es (v.rows.getD r 0) j
  { rows := (List.range v.rows.length).map fun r =>
      let m := v.rows.getD r 0
      (m, mod128 (v.c r + errColumn es m - (out.getD r []).sum))
    cols := js.map fun j => mod128 (v.p j + errRow es j - (out.map fun o => o.getD j 0).sum)
    corner := mod128 (v.corner + errCorner es - (out.map List.sum).sum) }

/-- The checker's reading of a pass (R142, R144): the rows are data rows. -/
inductive Verdict where
  | checked
  /-- One output column and its rows. -/
  | outputs (column : Nat) (rows : List Nat)
  /-- An element row, the feeder path, or no pattern of one unit: the engine. -/
  | engine (rows : List Nat)
  /-- Row or column syndromes alone: the checker path. -/
  | checkerPath (rows : List Nat)
  deriving DecidableEq, Repr

/-- The syndromes read by the table of R142. The disputed rows are those with a nonzero row syndrome, and `all` rows when
only column syndromes are nonzero (R149); the same of a corner alone (notes/assumptions/86.md). -/
def readSyndromes (all : List Nat) (y : Syndromes) : Verdict :=
  let rs := y.rows.filter fun r => r.2 != 0
  let cs := (List.range y.cols.length).filter fun j => y.cols.getD j 0 != 0
  if rs.isEmpty && cs.isEmpty && y.corner == 0 then .checked
  else match cs with
    | [] => if rs.isEmpty then .engine all else .checkerPath (rs.map (·.1))
    | [j] =>
      if rs.isEmpty then .checkerPath all
      else if mod128 (rs.map (·.2)).sum == y.cols.getD j 0 && y.corner == y.cols.getD j 0 then
        .outputs j (rs.map (·.1))
      else .engine (rs.map (·.1))
    | _ => if rs.isEmpty then .checkerPath all else .engine (rs.map (·.1))

/-! ### Residue lanes (R144) -/

/-- The modulus of the residue lanes. -/
def residueMod : Int := 2 ^ 31 - 1

/-- ρ(n × 2^k) (R144). -/
def rho (n k : Int) : Int := n * 2 ^ (k % 31).toNat % residueMod

/-- ρ(P) of a product, from ρ of each significand and the exponent sum: the independent residue multiplier. -/
def rhoProduct (a b : Val) (q : Int) : Int :=
  match a, b with
  | .fin n m e, .fin n' m' e' => rho (rho (sval n m) 0 * rho (sval n' m') 0) (e + e' + q)
  | _, _ => 0

/-- What truncation at 2^L discards of a product, as ρ(D), and the kept units t (R82, R144). -/
def splitAt (l : Int) (v : Val) : Int × Int :=
  match v with
  | .fin n m e =>
    if e ≥ l then (0, sval n (m * 2 ^ (e - l).toNat))
    else
      let sh := (l - e).toNat
      (rho (sval n (m % 2 ^ sh)) e, sval n (m / 2 ^ sh))
  | _ => (0, 0)

/-- The residue lane of output (m, n) agrees with the output (R144). -/
def residueOk (s : State) (x : Slot) (e : Nat) (d : List W64) (tile : Tbl Byte) (t m n : Nat)
    (es : List PassError) : Bool :=
  let l := frameLsb d (readAnchor s x e d m n)
  let ks := List.range (kFed d)
  let ps := ks.map fun k => product s x e d tile m t n k
  let delta := (ps.map fun p => (splitAt l p).2).sum + errOutput es m n
  let lane := (ks.map fun k =>
    let q := if isMx (cFmtA d) then blockScale s x e d tile m t n (k / 32) else some 0
    match q with
    | some q => rhoProduct (elemA s x e d m t k) (elemB d tile k n) q - (splitAt l (ps.getD k .nan)).1
    | none => 0).sum + errResidue es m n
  rho delta l == lane % residueMod

/-- The residue lanes read: every output whose lane disagrees is located; outputs of one column point at it, others
at the engine (notes/assumptions/86.md). -/
def readResidues (bad : List (Nat × Nat)) : Verdict :=
  match bad with
  | [] => .checked
  | (m, j) :: r =>
    let rows := ((m, j) :: r).foldl (fun (o : List Nat) b => if o.contains b.1 then o else o ++ [b.1]) []
    if r.all fun b => b.2 == j then .outputs j rows else .engine rows

/-! ### The verdict on a pass -/

/-- Data rows that tile t feeds. -/
def fedRows (d : List W64) (t : Nat) : List Nat := (List.range (cRows d)).filter fun m => rowFed d m t

/-- The reading of the fed data rows of a product pass with `all` rows, by the residue lanes of every output, or by the
checksum row and column (R142, R144, R145), over the K positions that `mask` lets in. -/
def readPass (s : State) (x : Slot) (e : Nat) (p : PassRun) (windowed : Bool) (all rows : List Nat) (mask : Nat → Bool)
    (es : List PassError) : Verdict :=
  let d := p.desc
  let t := p.index
  if windowed then
    readResidues (rows.flatMap fun m => ((List.range (cCols d)).filter fun n =>
      !residueOk s x e d p.tile t m n es).map fun n => (m, n))
  else readSyndromes all (syndromes (checkView s x e d p.tile t rows mask) es)

/-- A product pass in which any anchor word has WINDOWED = 1 (R145). The first product pass of an exact chain writes
WINDOWED = 0 itself, whatever stood in the words before (R110). -/
def windowedPass (s : State) (x : Slot) (e : Nat) (d : List W64) : Bool :=
  (isMx (cFmtA d) || cFmtA d == 0x09 || x.products != 0) && anyWindowed s x e d

/-- What the lining reads of a pass (R137, R145): scale and anchor passes carry no checksum; a product pass with a
windowed element is checked by the residue lanes for every output, any other by the checksum row and column. -/
def passVerdict (s : State) (x : Slot) (e : Nat) (p : PassRun) (es : List PassError) : Verdict :=
  if p.phase != 3 then .checked
  else readPass s x e p (windowedPass s x e p.desc) (List.range (cRows p.desc)) (fedRows p.desc p.index) (fun _ => true) es

/-- What a verdict disputes: kind of strike, location (R142, R144), data rows (R149). -/
def disputed : Verdict → Option (Nat × Nat × List Nat)
  | .checked => none
  | .outputs j rs => some (1, j, rs)
  | .engine rs => some (1, 0xFFFF, rs)
  | .checkerPath rs => some (2, 256, rs)

/-- What the array adds wrongly to an output, in units of its frame: an error of an exact pass is in units of
2^U. -/
def frameErr (s : State) (x : Slot) (e : Nat) (p : PassRun) (es : List PassError) (a : AnchorWord) (m n : Nat) :
    Int :=
  let v := errOutput es m n
  if v = 0 || a.windowed || windowedPass s x e p.desc then v
  else v * (2 ^ (checkUnit s x e p.desc p.tile p.index (fedRows p.desc p.index) - frameLsb p.desc a).toNat : Nat)

end Sys2Proof.Machine
end

