-- ==== Sys2Proof/Machine/Elements.lean ====
section
/-! DEFINITION. What a descriptor of the element engines says and computes (chapters 03 and 04): R89–R93, R130, each
result rounded as its rule says. -/

namespace Sys2Proof.Machine

/-! ### Fields of a descriptor (R130) -/

def eOp (d : List W64) : Nat := fld (wd d 0) 63 56
def eIn (d : List W64) : Nat := fld (wd d 0) 55 48
def eOut (d : List W64) : Nat := fld (wd d 0) 47 40
def eRound (d : List W64) : Nat := fld (wd d 0) 39 36
def eOvf (d : List W64) : Bool := bitOf (wd d 0) 35
def eCount (d : List W64) : Nat := fld (wd d 0) 31 0 + 1
def eSrc0 (d : List W64) : Nat := fld (wd d 1) 63 38
def eSrc1 (d : List W64) : Nat := fld (wd d 1) 37 12
def eSrc2 (d : List W64) : Nat := fld (wd d 2) 63 38
def eDst (d : List W64) : Nat := fld (wd d 2) 37 12
/-- Row length n of a row operation. -/
def eRow (d : List W64) : Nat := fld (wd d 3) 63 44 + 1
def eEps (d : List W64) : Val := f32 (fld (wd d 3) 31 0)
def eFlat (d : List W64) : Nat := fld (wd d 6) 63 30

/-- Operation codes of R130; all others are reserved. -/
def isEeOp (op : Nat) : Bool :=
  (1 ≤ op && op ≤ 0x0B) || (0x10 ≤ op && op ≤ 0x16) || (0x20 ≤ op && op ≤ 0x24) || op == 0x30

/-- Element format that QUANT_MX writes under an FMT_OUT code; 0: none (R93, R130). -/
def quantFmt (f : Nat) : Nat :=
  if isMx f then f else if f = 0x06 then 0x11 else if f = 0x07 then 0x12
  else if f = 0x02 then 0x16 else 0

/-- An output format of the operation (R130). -/
def eOutOk (op f : Nat) : Bool := if op = 0x30 then quantFmt f != 0 else isOutFmt f && f != 0x21

/-- Elements that the operation writes: framesum and framedot give one per row (R90). -/
def eOutputs (d : List W64) : Nat :=
  if eOp d = 0x20 || eOp d = 0x21 then cdiv (eCount d) (eRow d) else eCount d

/-- The descriptor breaks R130, or the flat indices of its outputs leave the generator's range (R88). -/
def elemBad (d : List W64) : Bool :=
  d.length != 8 || !isEeOp (eOp d) || !isElemFmt (eIn d) || !eOutOk (eOp d) (eOut d) ||
  eRound d ≥ 4 || (eRound d == 3 && eFlat d + eOutputs d > 2 ^ 34) ||
  !rsvdZero d [(0, 34, 32), (1, 11, 0), (2, 11, 0), (3, 43, 32), (6, 29, 0), (7, 63, 0)]

/-! ### A descriptor of the DMA (R127) -/

def dRows (d : List W64) : Nat := fld (wd d 1) 15 0 + 1
def dRowBytes (d : List W64) : Nat := fld (wd d 1) 37 16
/-- Bytes that a DMA descriptor moves. -/
def dBytes (d : List W64) : Nat := dRows d * dRowBytes d

/-! ### Results -/

/-- The rounding of output element i (R85–R88). -/
def elemRounding (d : List W64) (chip i : Nat) : Rounding :=
  { mode := eRound d, inf := eOvf d,
    u := if eRound d = 3 then
        stochasticWord (wd d 4) (eFlat d + i) (fld (wd d 5) 63 32) (fld (wd d 5) 31 0) chip
      else 0 }

/-- Inputs beside SRC0 that an operation reads: elements of SRC1 and of SRC2. Which of them hold γ and β of layernorm
and rmsnorm, and that one row of ROW_LEN elements in FMT_IN serves every row, R130 does not state (DESIGN CHOICE,
notes/assumptions/88.md). -/
def extraInputs (d : List W64) : Nat × Nat :=
  match eOp d with
  | 0x01 | 0x02 | 0x03 | 0x05 | 0x07 | 0x08 | 0x0A | 0x21 => (eCount d, 0)
  | 0x04 => (eCount d, eCount d)
  | 0x23 => (eRow d, eRow d)
  | 0x24 => (eRow d, 0)
  | _ => (0, 0)

/-- The values an operation gives before the output conversion, with its discards. -/
def elemResults (d : List W64) (xs ys zs : List Val) : List Val × Nat :=
  if eOp d < 0x20 then
    ((List.range xs.length).map fun i =>
      elemFn (eOp d) (xs.getD i .nan) (ys.getD i .nan) (zs.getD i .nan), 0)
  else
    let rs := rowsOf (eRow d) xs.length xs
    let qs := rowsOf (eRow d) ys.length ys
    let outs := (List.range rs.length).map fun r =>
      rowFn (eOp d) (eEps d) (rs.getD r []) (qs.getD r []) ys zs
    (outs.flatMap (·.1), (outs.map (·.2)).sum)

/-- QUANT_MX (R93): scales, element codes and counts over the rows' blocks of 32. R130 does not mark QUANT_MX as a row
operation; its rows are taken from ROW_LEN (DESIGN CHOICE, notes/assumptions/88.md). -/
def quantRows (d : List W64) (chip : Nat) (xs : List Val) : List Nat × List Nat × Counts :=
  let f := quantFmt (eOut d)
  let blocks := (rowsOf (eRow d) xs.length xs).flatMap fun r => rowsOf 32 r.length r
  let r := blocks.foldl (fun (a : List Nat × List Nat × Counts) b =>
    let q := quantBlock f (elemRounding d chip) a.2.1.length b
    (a.1 ++ [q.1], a.2.1 ++ q.2.1, a.2.2.add q.2.2)) ([], [], {})
  r

/-! ### The pocket -/

/-- n elements from a partition offset, as values. -/
def readVals (s : State) (x : Slot) (e f off n : Nat) : List Val :=
  (List.range n).map fun k => decodeElem f (elemCode f (fun i => partByte s x e (off + i)) k)

/-- Writes of a descriptor: (offset, bytes). -/
abbrev Writes := List (Nat × List Byte)

/-- What a descriptor computes: its writes and its counts. -/
def elemWork (s : State) (x : Slot) (e chip : Nat) (d : List W64) : Writes × Counts :=
  let n := extraInputs d
  let xs := readVals s x e (eIn d) (eSrc0 d) (eCount d)
  if eOp d = 0x30 then
    let q := quantRows d chip xs
    ([(eDst d, packElems (quantFmt (eOut d)) q.2.1),
      (eSrc2 d, q.1.map fun v => BitVec.ofNat 8 v)], q.2.2)
  else
    let ys := readVals s x e (eIn d) (eSrc1 d) n.1
    let zs := readVals s x e (eIn d) (eSrc2 d) n.2
    let r := elemResults d xs ys zs
    let outs := (List.range r.1.length).map fun i =>
      roundTo (eOut d) (elemRounding d chip i) (r.1.getD i .nan)
    ([(eDst d, packElems (eOut d) (outs.map (·.1)))],
      outs.foldl (fun c o => c.add o.2) { discards := r.2 })

/-- Regions a descriptor reads. -/
def elemReads (d : List W64) : List (Nat × Nat) :=
  let n := extraInputs d
  [(eSrc0 d, packedBytes (eIn d) (eCount d)), (eSrc1 d, packedBytes (eIn d) n.1),
    (eSrc2 d, packedBytes (eIn d) n.2)].filter (·.2 != 0)

/-- Regions a descriptor writes: lengths fixed by its fields. -/
def elemWriteSpans (d : List W64) : List (Nat × Nat) :=
  if eOp d = 0x30 then
    let whole := eCount d / eRow d
    let blocks := whole * cdiv (eRow d) 32 + cdiv (eCount d % eRow d) 32
    [(eDst d, packedBytes (quantFmt (eOut d)) (eCount d)), (eSrc2 d, blocks)]
  else [(eDst d, packedBytes (eOut d) (eOutputs d))]

/-- The chip whose stochastic generator and counters a context uses (R88). -/
def slotChip (s : State) (x : Slot) : Nat := fld (wd (job s x.job).block 1) 63 54

/-- Format of the elements that a descriptor writes. -/
def eWritten (d : List W64) : Nat := if eOp d = 0x30 then quantFmt (eOut d) else eOut d

/-- The writes of a descriptor, of the groups of 256 outputs below `groups` alone (R146): a scale goes with its
block's last element. -/
def writesBelow (d : List W64) (groups : Nat) (ws : Writes) : Writes :=
  let n := 256 * groups
  match ws with
  | [] => []
  | w :: rest => (w.1, w.2.take (packedBytes (eWritten d) n)) ::
      rest.map fun v => (v.1, v.2.take (n / eRow d * cdiv (eRow d) 32 + n % eRow d / 32))

/-- Outputs among those named whose code is not the one that the descriptor gives. -/
def wrongCodes (d : List W64) (ws : Writes) (cs : List (Nat × Nat)) : List (Nat × Nat) :=
  let bs := ws.head?.elim [] (·.2)
  cs.filter fun c => c.1 < eOutputs d && elemCode (eWritten d) (fun i => (bs.getD i 0).toNat) c.1 != c.2

/-- Writes made. -/
def putWrites (s : State) (x : Slot) (e : Nat) (ws : Writes) : State :=
  ws.foldl (fun s p => partWrite s x e p.1 p.2) s

/-- Beats of an operation per 256 elements (R130). -/
def opBeats (op : Nat) : Nat :=
  match op with
  | 0x05 => 4 | 0x06 => 4 | 0x10 => 11 | 0x11 => 17 | 0x12 => 16 | 0x13 => 17 | 0x14 => 18 | 0x15 => 25 | 0x16 => 8
  | 0x20 => 2 | 0x21 => 2 | 0x22 => 19 | 0x23 => 7 | 0x24 => 4 | 0x30 => 3 | _ => 1

/-- Beats of a descriptor (R130): row operations take 24 more per row. -/
def elemBeats (d : List W64) : Nat :=
  cdiv (eCount d) 256 * opBeats (eOp d) +
    (if 0x20 ≤ eOp d && eOp d ≤ 0x24 then 24 * cdiv (eCount d) (eRow d) else 0)

end Sys2Proof.Machine
end

