-- ==== Sys2Proof/Machine/Domains.lean ====
section
/-! DEFINITION. Power domains at work (chapter 02): what each serves, their pass and task boundaries, and what takes
effect there. R44, R46, R65, R66. -/

namespace Sys2Proof.Machine

/-! ### What a domain serves (R44) -/

/-- The array, pocket and element domains of an engine. -/
def engineDomains (e : Nat) : List Nat :=
  [e / 4 * 16 + e % 4, e / 4 * 16 + 4 + e % 4, e / 4 * 16 + 8 + e % 4]

/-- The engine that an array, pocket or element domain serves. -/
def domainEngine (n : Nat) : Option Nat :=
  if n < 64 && n % 16 < 12 then some (n / 16 * 4 + n % 4) else none

/-- Domain of an array, and of a pocket. -/
def isArrayDomain (n : Nat) : Bool := n < 64 && n % 16 < 4
def isPocketDomain (n : Nat) : Bool := n < 64 && 4 ≤ n % 16 && n % 16 < 8

/-- Signal cores of a class S group's domain. -/
def domainCores (n : Nat) : List Nat :=
  if 64 ≤ n && n < 84 && (n - 64) % 10 < 4 then
    (List.range 8).map (· + 32 * ((n - 64) / 10) + 8 * ((n - 64) % 10))
  else []

/-- Domain of the unit behind a queue of a radio die (R283): the equaliser, the coding units, the beam unit. -/
def queueDomain (die q : Nat) : Option Nat :=
  if q = 0 then some (64 + 10 * die + 4)
  else if q < 8 then some (64 + 10 * die + 5)
  else if q = 8 then some (64 + 10 * die + 6)
  else none

/-- Host cores of a domain. -/
def domainHostCores (n : Nat) : List Nat :=
  if n = 86 || n = 87 then (List.range 4).map (· + 4 * (n - 86))
  else if n = 92 || n = 93 then (List.range 4).map (· + 4 * (n - 92) + 8)
  else []

/-! ### Boundaries (R46, R66) -/

/-- A core runs no task. -/
def coreIdle (s : State) (k : Nat) : Bool := (sigCore s k).task.isNone

/-- Descriptors that core k has pushed to a queue and that have not completed. -/
def coreQueue (s : State) (k q : Nat) : List (List W64) := tget [] (sigCore s k).queues q

/-- No descriptor waits at a unit of a domain of a radio die. -/
def unitsIdle (s : State) (n : Nat) : Bool :=
  let die := (n - 64) / 10
  (List.range 9).all fun q => queueDomain die q != some n ||
    (List.range 32).all fun i => (coreQueue s (32 * die + i) q).isEmpty

/-- Nothing is in flight on a domain: it is at a pass or task boundary. The task of an accelerator is a descriptor, that
of a host core its context (notes/assumptions/91.md). -/
def atBoundary (s : State) (n : Nat) : Bool :=
  match domainEngine n with
  | some e => (engine s e).pass.isNone
  | none => (domainCores n).all (coreIdle s) && (n < 64 || n ≥ 84 || unitsIdle s n) &&
      (domainHostCores n).all fun k => !(hostCore s k).loaded || (hostCore s k).sleeve == 0

/-- A boundary of a domain: a lowering that waited takes effect (R46). -/
def domainBoundary (s : State) (n : Nat) : State :=
  modDomain s n fun x => match x.vnext with
    | some i => { x with vindex := if now s < x.holdUntil then x.vindex else i, vnext := none }
    | none => x

/-! ### Voltage indices (R45, R48, R64) -/

/-- Lowest voltage index a domain may run at (R45, R46): its retention floor where one applies. -/
def floorIndex (n : Nat) : Nat :=
  match domainClass n with
  | .a => if isPocketDomain n then 8 else 0
  | .s => if (n - dieDomain0 (domainDie n)) < 4 then 4 else 0
  | .h => 4
  | _ => 0

/-- An index held within the floor and the ceiling of a domain (R45). -/
def clampIndex (n i : Nat) : Nat :=
  Nat.max (floorIndex n) (Nat.min (ceilingIndex (domainClass n)) i)

/-- A domain that carries radio work (R64): of class S, or of an engine leased to radio. -/
def isRadioDomain (s : State) (n : Nat) : Bool :=
  domainClass n == .s || (domainEngine n).any fun e => (engine s e).leased

/-- A domain held at its ceiling (R48, R64). -/
def heldAtCeiling (s : State) (n : Nat) : Bool :=
  (domain s n).sensorFault ||
  (isRadioDomain s n && (List.range 96).any fun m => domainDie m == domainDie n && (domain s m).tempFault)

/-- An engine's domains are switched on at their last voltage index; their pace sensors have still to pass (R46). An array
that throttle level 3 has switched off stays off (R65). -/
def wakeEngine (s : State) (e : Nat) : State :=
  (engineDomains e).foldl (fun s n => modDomain s n fun x =>
    if x.on || (isArrayDomain n && x.throttle == 3) then x else { x with on := true, unproven := true }) s

/-! ### Slots -/

/-- A slot is released: both registers of every element and the slot's chain state are cleared (R107). -/
def releaseSlot (s : State) (c : Nat × Nat) : State :=
  modEngine s c.1 fun e => { e with
    slots := tset {} e.slots c.2 {}
    active := none
    standby := none }

/-- The domains of an engine are on and their pace sensors have passed: a pass may start (R46). -/
def engineAwake (s : State) (e : Nat) : Bool :=
  (engineDomains e).all fun n => (domain s n).on && !(domain s n).unproven

/-- Throttle level that a domain takes: its die's, and none while its engine is leased to radio (R66). -/
def levelOf (s : State) (n : Nat) : Nat :=
  match domainEngine n with
  | some e => if (engine s e).leased then 0 else (diePwr s (domainDie n)).level
  | none => (diePwr s (domainDie n)).level

/-- A domain that something holds at its ceiling goes there at once (R46, R64). -/
def riseIfHeld (s : State) (n : Nat) : State :=
  if heldAtCeiling s n then modDomain s n fun x => { x with vindex := ceilingIndex (domainClass n), vnext := none } else s

/-- At level 2 and above a domain without paced work runs at its class floor from the boundary on at which it takes the
level (R65, R66), unless something holds it up (R48, R57). -/
def throttled (s : State) (n : Nat) (x : Domain) : Domain :=
  if x.throttle < 2 || x.paced || heldAtCeiling s n || now s < x.holdUntil then x
  else { x with vindex := clampIndex n 0, vnext := none }

/-- The level of a die taken over by one of its A or H domains at a boundary (R66); level 3 switches an array off there,
and an array that leaves level 3 comes on again (R65). S, I and F domains are never throttled. -/
def takeThrottle (s : State) (n : Nat) : State :=
  let level := levelOf s n
  match domainClass n with
  | .a =>
    let old := (domain s n).throttle
    match domainEngine n with
    | some e =>
      let off := level == 3 && isArrayDomain n && (engine s e).pass.isNone
      let s := modDomain s n fun x => throttled s n { x with throttle := level, on := x.on && !off }
      let s := modEngine s e fun x => { x with throttle := level }
      if old == 3 && level < 3 && isArrayDomain n then wakeEngine s e else s
    | none => s
  | .h => modDomain s n fun x => throttled s n { x with throttle := level }
  | _ => s

/-- A task of a domain has ended: at a boundary of the domain, what waited for one takes effect (R46, R66). -/
def taskBoundary (s : State) (n : Nat) : State :=
  if atBoundary s n then domainBoundary (takeThrottle s n) n else s

/-! ### Referees in service (R147, R150) -/

/-- A unit may serve as the referee of a suspect: the six conditions of R147. -/
def eligible (s : State) (d : Dispute) (r : Nat) : Bool :=
  r < 32 && r / 16 == d.suspect / 16 && r != d.suspect && !isFenced s r &&
  !(engine s (r % 16)).leased && (unitSt s r).hold == 0 &&
  !(s.lin.disputes.any fun x => x.suspect == r) && !d.refs.contains r

/-- Some unit may serve. -/
def anyEligible (s : State) (d : Dispute) : Bool := (List.range 32).any (eligible s d)

/-- Since when a dispute that waits for a referee has had none that is eligible (R150): looked at whenever a unit, a lease
or a dispute comes or goes. -/
def noteReferees (s : State) : State :=
  { s with lin := { s.lin with disputes := s.lin.disputes.map fun d =>
      if d.st != .staging || anyEligible s d then { d with noneSince := none }
      else if d.noneSince.isSome then d else { d with noneSince := some (now s) } } }

end Sys2Proof.Machine
end

