-- ==== Sys2Proof/Machine/RadioOps.lean ====
section
/-! DEFINITION. Radio, shared by the commands of chapters 08 to 10 and by the faults that stop cells:
cells and capacity (R230–R233, R263, R267), slot reports (R240), leases (R234, R253–R258), and what a
reset or a stall does to signal cores and accelerators (R286, R287, R292, R400, R404). -/

namespace Sys2Proof.Machine

/-! ### Accessors -/

def cell (s : State) (c : Nat) : Cell := tget {} s.rad.cells c
def setCell (s : State) (c : Nat) (v : Cell) : State :=
  { s with rad := { s.rad with cells := tset {} s.rad.cells c v } }
def modCell (s : State) (c : Nat) (f : Cell → Cell) : State := setCell s c (f (cell s c))
def radDie (s : State) (d : Nat) : RadDie := tget {} s.rad.dies d
def setRadDie (s : State) (d : Nat) (v : RadDie) : State :=
  { s with rad := { s.rad with dies := tset {} s.rad.dies d v } }
def modRadDie (s : State) (d : Nat) (f : RadDie → RadDie) : State := setRadDie s d (f (radDie s d))

/-- Who radio firmware's and the planner's accesses come from (R284, R369). -/
def radioIssuer : Issuer := { sleeve := 0 }

/-! ### Cell records and capacity (R231–R233, R263) -/

/-- Fields of the cell record (R231). -/
def cCell (r : List W64) : Nat := fld (wd r 0) 63 56
def cDie (r : List W64) : Nat := fld (wd r 0) 55 55
def cPort (r : List W64) : Nat := fld (wd r 0) 54 54
def cType (r : List W64) : Nat := fld (wd r 0) 53 50
def cPattern (r : List W64) : Nat := fld (wd r 0) 38 35
def cMaxIter (r : List W64) : Nat := fld (wd r 0) 34 30
def cTa4 (r : List W64) : Nat := fld (wd r 1) 63 48
def cT1aMax (r : List W64) : Nat := fld (wd r 1) 47 32
def cT1aMin (r : List W64) : Nat := fld (wd r 1) 31 16
def cHarqMib (r : List W64) : Nat := fld (wd r 1) 15 0
def cRuMac (r : List W64) : Nat := fld (wd r 2) 63 16
def cEaxc (r : List W64) : Nat := fld (wd r 2) 15 0
def cSsbPeriod (r : List W64) : Nat := fld (wd r 3) 63 48
def cSsbMask (r : List W64) : Nat := fld (wd r 3) 47 40

/-- Fronthaul port 0–3 of a cell (R231, R299). -/
def cFhPort (r : List W64) : Nat := 2 * cDie r + cPort r

/-- PRBs, receive streams, UL layers, DL layers, points at DDDSU and at DDSUU of a TYPE (R233). -/
def typeRow : Nat → Nat × Nat × Nat × Nat × Nat × Nat
  | 1 => (273, 4, 2, 4, 12, 18)
  | 2 => (273, 16, 8, 16, 64, 96)
  | 3 => (106, 4, 2, 4, 5, 8)
  | 4 => (273, 8, 4, 8, 24, 36)
  | _ => (0, 0, 0, 0, 0, 0)

def typePrbs (t : Nat) : Nat := (typeRow t).1
def typeStreams (t : Nat) : Nat := (typeRow t).2.1
def typeUl (t : Nat) : Nat := (typeRow t).2.2.1
def typeDl (t : Nat) : Nat := (typeRow t).2.2.2.1

/-- Points of a cell (R233). -/
def cPoints (r : List W64) : Nat :=
  if cPattern r = 1 then (typeRow (cType r)).2.2.2.2.1 else (typeRow (cType r)).2.2.2.2.2

/-- A cell on the air: RUNNING, MOVING_OUT before its frame, or STOPPING until its frame (R232, R259;
notes/assumptions/21.md). -/
def onAir (c : Cell) : Bool := c.st == .running || c.st == .movingOut || c.st == .stopping

/-- Cells on the air, by number. -/
def airCells (s : State) : List Nat :=
  (s.rad.cells.filter fun e => onAir e.2).map (·.1)

/-- Cells on the air of a die, and of a fronthaul port. -/
def dieCells (s : State) (d : Nat) : List Nat :=
  (airCells s).filter fun c => cDie (cell s c).record == d
def portCells (s : State) (p : Nat) : List Nat :=
  (airCells s).filter fun c => cFhPort (cell s c).record == p

/-- POINTS_MAX from the units in the plan (R263). -/
def pointsOf (sc dec enc : Nat) : Nat :=
  Nat.min (1536 * sc / 32) (Nat.min (1536 * dec / 4) (1536 * enc / 2))

/-- POINTS_MAX of a die (R263). -/
def pointsMax (s : State) (d : Nat) : Nat :=
  let x := radDie s d
  if x.fenced then 0 else pointsOf x.sc x.dec x.enc

/-- POINTS_USED of a die (R263). -/
def pointsUsed (s : State) (d : Nat) : Nat :=
  ((dieCells s d).map fun c => cPoints (cell s c).record).sum

/-- Signal cores of a die that are not fenced. -/
def freeCores (s : State) (d : Nat) : List Nat :=
  ((List.range 32).map (· + 32 * d)).filter fun k => !isFenced s (32 + k)

/-- The units of a die that the planner plans with (R251, R262, R294, R412): unfenced signal cores, a pair
counted as one, and unfenced decoders and encoders that are not held out. -/
def availUnits (s : State) (d : Nat) : Nat × Nat × Nat :=
  let ok (u : Nat) : Bool := !isFenced s u && (unitSt s u).hold == 0
  (((freeCores s d).filter fun k => ok (32 + k)).length,
   ((List.range 4).filter fun i => ok (112 + 6 * d + i)).length,
   ((List.range 2).filter fun i => ok (116 + 6 * d + i)).length)

/-- The planner takes up the units in service of a die (R252). -/
def takeUnits (s : State) (d : Nat) : State :=
  let a := availUnits s d
  modRadDie s d fun x => { x with sc := a.1, dec := a.2.1, enc := a.2.2, cores := freeCores s d }

/-- A cell holds points: on the air, or admitted for a coming frame (R233; notes/assumptions/21.md). -/
def holdsPoints (c : Cell) : Bool := onAir c || c.start.isSome

/-- A cell that the limits of 128 and of 24 and EQP_STATUS.CELLS count: RUNNING or MOVING_OUT (R233, R262). -/
def countedCell (c : Cell) : Bool := c.st == .running || c.st == .movingOut

/-- The limits of R233 with a cell added. -/
def cellAdmits (s : State) (r : List W64) : Bool :=
  let with' (p : Cell → Bool) : List (List W64) := (s.rad.cells.filter fun e =>
    p e.2 && cDie e.2.record == cDie r && e.1 != cCell r).map (·.2.record) ++ [r]
  let air := with' countedCell
  let rs := with' holdsPoints
  let ps := rs.filter fun x => cPort x == cPort r
  air.length ≤ 128 && (air.filter fun x => cType x == 2).length ≤ 24 &&
  (rs.map cPoints).sum ≤ pointsMax s (cDie r) && (ps.map cPoints).sum ≤ 768

/-- A cell leaves the air: CONFIGURED, with nothing scheduled (R232, R302). -/
def stopCell (s : State) (c : Nat) : State :=
  modCell s c fun x => { x with
    st := .configured, start := none, stop := none, moveOut := none, moveTo := 0, carry := 0 }

/-- RADIO_CAPACITY_LOST (R394) and its event (R364). -/
def capacityLost (s : State) (d before after : Nat) : State :=
  postEvent (raise s { code := 0x024, severity := 3, die := 4 + d, d0 := before, d1 := after }) 7 0 0

/-- Every cell of some kind stops at once, and what was to start there does not (R267, R302). -/
def stopCells (s : State) (p : Cell → Bool) : State :=
  ((s.rad.cells.filter fun e => holdsPoints e.2 && p e.2).map (·.1)).foldl stopCell s

/-- FENCED of a radio die becomes 1 (R267, R404, R406): its cells stop at once, and none starts. -/
def radioFenced (s : State) (d : Nat) : State :=
  if (radDie s d).fenced then s
  else
    let before := pointsMax s d
    let s := stopCells s fun x => cDie x.record == d
    capacityLost (modRadDie s d fun x => { x with fenced := true, shed := none }) d before 0

/-- At a frame boundary the highest-numbered cells of a die stop until the limits hold (R267). `fuel`
counts cells. -/
def shedCells (d : Nat) : Nat → State → State
  | 0, s => s
  | fuel + 1, s =>
    if pointsUsed s d ≤ pointsMax s d then s
    else match (dieCells s d).getLast? with
      | some c => shedCells d fuel (stopCell s c)
      | none => s

/-- The accounting record of sleeve 0 (R226): each cell configured since device reset with its SLOTS. -/
def radioAccount (s : State) : List (Nat × W64) :=
  (s.rad.cells.filter fun e => e.2.ever).map fun e =>
    (e.1, tget 0 e.2.slots 0 + tget 0 e.2.slots 1)

/-- Radio work is planned: a cell is on the air. -/
def radioWork (s : State) : Bool := !(airCells s).isEmpty

/-! ### Slot times (R230, R235, R246, R320) -/

/-- T_air of a slot of a frame, network time [ns]. -/
def airTime (frame slot : Nat) : Nat := frame * 10000000 + slot * 500000

/-- Start of symbol k within its slot [ns]: 30 kHz, normal cyclic prefix (TS 38.211 5.3.1, PRESUMED,
notes/assumptions/22.md). k = 14 is the slot's end. -/
def symbolStart (k : Nat) : Nat :=
  if k = 0 then 0 else if k ≥ 14 then 500000 else (2192 * k + 32) * 15625 / 960

/-- Slots of network time since the PTP epoch: the time of a HARQ update (R250), and of a slot's plan. -/
def slotNow (s : State) : Nat := networkNs s / 500000

/-- SFN of a frame (R320). -/
def sfnOf (s : State) (frame : Nat) : Nat := (frame + s.tim.sfnOffset) % 1024

/-- The frame nearest to now that carries an SFN. -/
def frameOfSfn (s : State) (sfn : Nat) : Nat :=
  let f := frameNow s
  let d : Nat := (sfn + 1024 - sfnOf s f) % 1024
  if d < 512 then f + d else f + d - 1024

/-- DL, special and UL slots of a pattern: 0 DL, 1 S, 2 UL (R231). -/
def slotKind (pattern slot : Nat) : Nat :=
  let i := slot % 5
  if pattern = 1 then (if i < 3 then 0 else if i = 3 then 1 else 2)
  else if i < 2 then 0 else if i = 2 then 1 else 2

/-- Symbols of a direction in a slot (R231): 14, or in the S slot 10 DL and the last 2 UL. -/
def dirSymbols (pattern slot dir : Nat) : List Nat :=
  match slotKind pattern slot, dir with
  | 0, 1 => List.range 14
  | 1, 1 => List.range 10
  | 1, 2 => [12, 13]
  | 2, 2 => List.range 14
  | _, _ => []

/-! ### Slot reports (R240) -/

/-- Free entries of the report ring: it is full when TAIL + 1 equals HEAD (R134). -/
def rptRoom (x : RadDie) : Nat :=
  let n := x.rpt.entries + 1
  (x.rpt.head + n - x.rpt.tail - 1) % n

/-- The first entry of a report whose place in the ring refuses it (R31), with that place. -/
def reportBar (s : State) (d : Nat) (words : List W64) : Option (Nat × Bar) :=
  let r := (radDie s d).rpt
  (List.range (words.length / 4)).findSome? fun i =>
    let a := r.addr + 32 * ((r.tail + i) % (r.entries + 1))
    match checkRange s radioIssuer .wr a 32 with
    | some b => some (a, b)
    | none => if windowPartial s a 32 then some (a, .dataEcc) else none

/-- A report's entries written into the ring, TAIL behind them. -/
def writeReport (s : State) (d : Nat) : List W64 → State
  | w0 :: w1 :: w2 :: w3 :: rest =>
    let r := (radDie s d).rpt
    let s := windowWrite s (r.addr + 32 * r.tail) (bytesOf [w0, w1, w2, w3])
    writeReport (modRadDie s d fun x => { x with
      rpt := { x.rpt with tail := (x.rpt.tail + 1) % (x.rpt.entries + 1) } }) d rest
  | _ => s

/-- A whole report dropped and counted (R240). -/
def loseReport (s : State) (d : Nat) : State :=
  modRadDie s d fun x =>
    if x.lost < 0xFFFF then { x with lost := x.lost + 1 } else { x with sat := true }

/-- What becomes of a report whose turn it is. -/
inductive ReportTurn where
  /-- Written, with the DIC message of EQP_RPT_SOURCE; or lost to a page that refuses it. -/
  | done (s : State)
  /-- The ring has no room, or a page of it is in move: the report stays in the buffer. -/
  | stays (s : State)

/-- A report written under R31, with RAW_TIME of this moment (R240); a page in move is waited for (R31). -/
def tryReport (s : State) (d : Nat) (words : List W64) : ReportTurn :=
  let x := radDie s d
  if words.length / 4 > rptRoom x then .stays s
  else match reportBar s d words with
    | none => .done (dicMessage (writeReport s d (words.set 2 s.tim.raw)) 0 x.source)
    | some (a, .wait) => .stays (park s a 32 (.reports d))
    | some (_, b) => .done (loseReport
        (if b == .stale then { s with pkg := { s.pkg with staleGen := s.pkg.staleGen + 1 } } else s) d)

/-- A report joins the buffer of 512; beyond them it is dropped and counted (R240). -/
def bufferReport (s : State) (d : Nat) (words : List W64) : State :=
  if (radDie s d).buffer.length < 512 then modRadDie s d fun x => { x with buffer := x.buffer ++ [words] }
  else loseReport s d

/-- A report goes to its ring, or to the buffer behind those that wait (R240). -/
def putReport (s : State) (d : Nat) (words : List W64) : State :=
  if !(radDie s d).buffer.isEmpty then bufferReport s d words
  else match tryReport s d words with
    | .done t => t
    | .stays t => bufferReport t d words

/-- Buffered reports written while there is room. `fuel` counts reports. -/
def drainReports (d : Nat) : Nat → State → State
  | 0, s => s
  | fuel + 1, s =>
    match (radDie s d).buffer with
    | [] => s
    | r :: rest => match tryReport s d r with
      | .done t => drainReports d fuel (modRadDie t d fun x => { x with buffer := rest })
      | .stays t => t

/-- The header of a slot report (R240): `h` is the header of the slot job. A FALLBACK owed by R257 goes with
the next report of the die. -/
def reportHead (s : State) (d : Nat) (h : List W64) (entries status missed tasksLate : Nat)
    (leaseUsed fallback : Bool) : List W64 :=
  [pack 64 [(60, 2), (58, fld (wd h 0) 59 58), (50, fld (wd h 0) 57 50), (40, fld (wd h 0) 49 40),
      (35, fld (wd h 0) 39 35), (23, entries)],
   pack 64 [(48, status), (32, missed), (0, fld (wd h 3) 63 32)],
   s.tim.raw,
   pack 64 [(48, Nat.min 0xFFFF tasksLate), (47, b2n leaseUsed),
     (46, b2n (fallback || (radDie s d).fallback))]]

/-- Allocations that have a report entry (R240): PUSCH, PUCCH, SRS. -/
def hasEntry (a : List W64) : Bool := fld (wd a 0) 63 60 == 2 || fld (wd a 0) 63 60 == 4 || fld (wd a 0) 63 60 == 5

/-- The entry of an allocation that was not processed (R241): nothing measured, decoded or written. -/
def blankEntry (a : List W64) : List W64 :=
  [pack 64 [(32, fld (wd a 3) 63 32), (16, fld (wd a 0) 59 44), (0, 0x8000)], pack 64 [(48, 0x8000)], 0, 0]

/-- The report of a slot job that is not run, or is ended early (R239, R404): one entry for each allocation that has one,
of those read so far (R240). -/
def reportStatus (s : State) (d : Nat) (h : List W64) (as : List (List W64)) (status : Nat) : State :=
  let es := (as.filter hasEntry).map blankEntry
  let words := reportHead s d h es.length status 0 0 false false ++ es.flatten
  putReport (modRadDie s d fun x => { x with fallback := false }) d words

/-! ### Signal cores and accelerator queues (R283–R287) -/

/-- Fields of a queue descriptor (R284). -/
def qOp (d : List W64) : Nat := fld (wd d 0) 63 56
def qSeq (d : List W64) : Nat := fld (wd d 0) 55 40
def qLen (d : List W64) : Nat := fld (wd d 0) 39 16
def qSrc (d : List W64) : Nat := fld (wd d 1) 47 0
def qDst (d : List W64) : Nat := fld (wd d 2) 47 0
def qComplOff (d : List W64) : Nat := fld (wd d 3) 63 45
def qParam (d : List W64) : Nat := fld (wd d 3) 31 0

/-- Block engines of a decoder queue as targets: 32 + 4 × decoder + engine (R248). -/
def engineTargets (queue : Nat) : List Nat := (List.range 4).map (· + 32 + 4 * (queue - 1))

/-- Targets that a descriptor of a queue may be listed for (R248, R283, R285): the queue's number; of a decoder its block
engines; of the egress buffer its port's, 16 + port. -/
def targetsOf (s : State) (queue : Nat) (d : List W64) : List Nat :=
  if 1 ≤ queue && queue ≤ 4 then engineTargets queue
  else if queue = 9 then [16 + cPort (cell s (qParam d / 2 ^ 24)).record] else [queue]

/-- Die of a signal core (R268). -/
def coreDie (k : Nat) : Nat := k / 32

/-- One place of a service order comes before another: by slot, then by PLAN_SEQ. -/
def PlanEntry.before (a b : PlanEntry) : Bool := a.slot < b.slot || (a.slot == b.slot && a.seq < b.seq)

/-- The first place that lists a core's descriptor, pushed or not yet pushed, with its target. -/
def placeOf (s : State) (k q : Nat) (d : List W64) (pushed : Bool) : Option (Nat × PlanEntry) :=
  (targetsOf s q d).findSome? fun t =>
    ((tget [] (radDie s (coreDie k)).plan t).find? fun e =>
      e.seq == qSeq d && e.core == k && e.job.isSome == pushed).map fun e => (t, e)

/-- The slot job that a pushed descriptor works for. -/
def descJob (s : State) (k q : Nat) (d : List W64) : Option Nat :=
  (placeOf s k q d true).bind fun x => x.2.job

/-- The timer of the unit behind a queue restarts (R397); the egress buffer and the local DMA have none. -/
def unitTimer (s : State) (die q : Nat) : State :=
  if q > 8 then s else modRadDie s die fun y => { y with timers := tset 0 y.timers q (now s) }

/-- A descriptor leaves its queue and its target's list, and its unit's timer restarts (R286, R397). -/
def retireDesc (s : State) (k q : Nat) (d : List W64) : State :=
  let place := placeOf s k q d true
  let s := modSigCore s k fun x => { x with
    queues := tmod [] x.queues q fun l => l.eraseP fun y => qSeq y == qSeq d }
  let s := unitTimer s (coreDie k) q
  place.elim s fun x => modRadDie s (coreDie k) fun y => { y with
    plan := tmod [] y.plan x.1 fun l => l.erase x.2 }

/-- The completion word of a descriptor (R287): 1 is added, or, when its payload failed CRC-32C twice or it was started
on a unit that stalled, its bit 63 is set. -/
def completionWord (s : State) (k : Nat) (d : List W64) (ok : Bool) : State :=
  let a := localKey k (qComplOff d)
  let w := leNat (physRead s a 8)
  physWrite s a (leBytes 8 (if ok then (w + 1) % 2 ^ 64 else if w < 2 ^ 63 then w + 2 ^ 63 else w))

/-- A descriptor completes (R287): its completion word. A task of its unit's domain ends (R46). -/
def completeDesc (s : State) (k q : Nat) (d : List W64) (ok : Bool) : State :=
  let s := retireDesc (completionWord s k d ok) k q d
  match queueDomain (coreDie k) q with
  | some n => taskBoundary s n
  | none => s

/-- The descriptor at the head of a target's list, with its core and its place, once it has been pushed (R286). -/
def headDesc (s : State) (die target q : Nat) : Option (Nat × List W64 × PlanEntry) :=
  (tget [] (radDie s die).plan target).head?.bind fun e =>
    if e.job.isNone then none
    else ((coreQueue s e.core q).find? fun d => qSeq d == e.seq && (targetsOf s q d).contains target).map
      fun d => (e.core, d, e)

/-- The descriptor that a target serves next (R286, R287): the head of its list, unless one that the core has pushed to
the same queue and that comes before it has still to complete. -/
def nextDesc (s : State) (die target q : Nat) : Option (Nat × List W64) :=
  (headDesc s die target q).bind fun x =>
    if (coreQueue s x.1 q).all fun y => (placeOf s x.1 q y true).all fun p => !p.2.before x.2.2
    then some (x.1, x.2.1) else none

/-- The unit behind a queue holds a started descriptor (R397). -/
def queueBusy (s : State) (die q : Nat) : Bool :=
  (if 1 ≤ q && q ≤ 4 then engineTargets q else [q]).any fun t => (headDesc s die t q).isSome

/-- A decoder or encoder is reset after a stall: the descriptors that its block engines have started complete with bit 63
(R400). -/
def failStarted (s : State) (u : Nat) : State :=
  let die := (u - 112) / 6
  let q := (u - 112) % 6 + 1
  ((if q ≤ 4 then engineTargets q else [q]).filterMap fun t => headDesc s die t q).foldl
    (fun s e => completeDesc s e.1 q e.2.1 false) s

/-- The allocations of an aborted task report failure (R287, R291, R293). -/
def failAllocs (s : State) (d : Nat) (t : Task) : State :=
  modRadDie s d fun x => { x with jobs := x.jobs.map fun j =>
    if j.id == t.job then { j with failed := j.failed ++ t.allocs } else j }

/-- One core's task is aborted (R291–R293): it ends, the planner marks its descriptors that were never pushed as
void (R286), and it owes a rerun or its allocations fail. A copy (R294) owes neither. -/
def abortOne (rerun : Bool) (s : State) (k : Nat) : State :=
  match (sigCore s k).task with
  | none => s
  | some t =>
    let d := coreDie k
    let void (e : PlanEntry) : Bool :=
      e.core == k && e.job.isNone && e.slot ≤ t.slot && t.s4.toNat ≤ e.seq && e.seq < t.s4.toNat + t.seqs
    let s := modRadDie s d fun x => { x with
      plan := (x.plan.map fun p => (p.1, p.2.filter fun e => !void e)).filter fun p => !p.2.isEmpty }
    let s := if (sigCore s k).copyOf.isSome then s
      else if rerun then modRadDie s d fun x => { x with reruns := x.reruns ++ [(k, t)] }
      else failAllocs s d t
    modSigCore s k fun x => { x with
      task := none, waiting := none, loops := [], partner := none, copyOf := none, outbox := [], tended := false }

/-- A task is aborted, and in paired operation its copy with it (R291–R294). -/
def abortTask (s : State) (k : Nat) (rerun : Bool := false) : State :=
  let x := sigCore s k
  (k :: (x.partner.toList ++ x.copyOf.toList)).foldl (abortOne rerun) s

/-- What a core in paired operation reads, writes and pushes to: the local memory and the queues of the core whose task
runs (R294; notes/assumptions/97.md). -/
def pairCore (s : State) (k : Nat) : Nat := (sigCore s k).copyOf.getD k

/-- A descriptor enters its queue, and the place that lists it notes the slot job (R283, R286). -/
def pushDesc (s : State) (k q : Nat) (d : List W64) : State :=
  let job := ((sigCore s k).task.map (·.job)).getD 0
  let place := placeOf s k q d false
  let s := if queueBusy s (coreDie k) q then s else unitTimer s (coreDie k) q
  let s := modSigCore s k fun x => { x with queues := tmod [] x.queues q fun l => l ++ [d] }
  place.elim s fun x => modRadDie s (coreDie k) fun y => { y with
    plan := tmod [] y.plan x.1 fun l => l.map fun e => if e == x.2 then { e with job := some job } else e }

/-- The engine reset of a signal core (R292, R401): registers and the instruction in flight; local memory,
instruction store and queues stay. -/
def resetSignalCore (s : State) (k : Nat) : State :=
  modSigCore (abortTask s k) k fun x => { x with
    v := [], acc := [], sreg := [], p := [], lc := [], loops := [], cmp := false, pc := 0 }

/-- A reset of the radio function (R404): its queues are cleared, and every slot job in flight ends with
TIMEOUT in its report. Cells, HARQ entries and plans stay. -/
def radioFunctionReset (s : State) (d : Nat) : State :=
  let js := (radDie s d).jobs
  let s := modRadDie s d fun x => { x with jobs := [], plan := [], pools := [], reruns := [] }
  let s := (List.range 32).foldl (fun s i => modSigCore s (32 * d + i) fun x => { x with
    queues := [] }) s
  js.foldl (fun s j => reportStatus s d j.header j.allocs (statusCode .timeout)) s

/-! ### Leases (R234, R253–R258) -/

/-- Fields of a plan record (R254). -/
def lpPeriod (r : List W64) : Nat := fld (wd r 0) 63 32
def lpEngines (r : List W64) : Nat := fld (wd r 0) 31 16
def lpCount (r : List W64) : Nat := fld (wd r 0) 15 8
/-- Entry i as its 32 bits. -/
def lpEntry (r : List W64) (i : Nat) : Nat := fld (wd r (2 + i / 2)) (31 + 32 * (i % 2)) (32 * (i % 2))
/-- Engine, task, first and last cell of each entry. -/
def lpEntries (r : List W64) : List (Nat × Nat × Nat × Nat) :=
  (List.range (lpCount r)).map fun i =>
    let e := lpEntry r i
    (e / 2 ^ 28, e / 2 ^ 26 % 4, e / 2 ^ 18 % 256, e / 2 ^ 10 % 256)

/-- Engines of a mask. -/
def maskEngines (m : Nat) : List Nat := (List.range 16).filter fun e => m / 2 ^ e % 2 == 1

/-- The lease mask that cadence admission uses (R194, R253): the one last set. -/
def leaseMask (s : State) : Nat := (s.rad.maskNext.map (·.2)).getD s.rad.mask

/-- The lease mask of a period (R253). -/
def maskAt (s : State) (period : Nat) : Nat :=
  match s.rad.maskNext with
  | some (p, m) => if diff32 period p ≥ 0 then m else s.rad.mask
  | none => s.rad.mask

/-- STATE of HLT_UNITu_LINING (R173). Where several hold at once the later stage is shown: a fence before a mandatory
hold before a referee pass before a disagreement that waits (DESIGN CHOICE, notes/assumptions/90.md). -/
def liningState (s : State) (u : Nat) : Nat :=
  let x := unitSt s u
  match x.fence with
  | .awaiting => 4 | .confirmed => 5 | .unconfirmed => 6
  | .none =>
    if x.hold == 1 then 3
    else if s.lin.disputes.any fun d => d.suspect == u && d.st != .staging then 2
    else if s.lin.disputes.any fun d => d.suspect == u then 1 else 0

/-- An engine is fenced, or in state 1–4 of HLT_UNITu_LINING (R173, R255 check 4). -/
def engineOut (s : State) (e : Nat) : Bool :=
  isFenced s e || (1 ≤ liningState s e && liningState s e ≤ 4)

/-- Engines of a plan that are leased in its period: those of ENGINES that pass checks 3 and 4 (R255). An
accepted plan keeps its engines whatever the mask (R253). -/
def planEngines (s : State) (p : LeasePlan) : List Nat :=
  let kept := s.rad.plans.any (·.period == p.period)
  (maskEngines (lpEngines p.record)).filter fun e =>
    !engineOut s e && (kept || maskAt s p.period / 2 ^ e % 2 == 1)

/-- A lease task serves a cell type: SRS weights type 0x2, the neural receiver every type (R234). -/
def taskServes (task t : Nat) : Bool := (task == 1 && t == 2) || (task == 2 && 1 ≤ t && t ≤ 4)

/-- Worst-case beats of a lease task per slot (R234). -/
def taskBeats (task t : Nat) : Nat :=
  if task = 1 then 36000
  else match t with | 1 => 18000 | 2 => 72000 | 3 => 7200 | 4 => 36000 | _ => 0

/-- What a plan's engines do in its period: (engine, task, cell), by entry and rising cell; only RUNNING cells are served
(R254). -/
def planTasks (s : State) (p : LeasePlan) : List (Nat × Nat × Nat) :=
  (lpEntries p.record).flatMap fun e =>
    ((List.range (e.2.2.2 + 1 - e.2.2.1)).map (· + e.2.2.1)).filterMap fun c =>
      let x := cell s c
      if x.st != .running || !taskServes e.2.1 (cType x.record) || p.dropped.contains (e.2.1, c) then none
      else match p.moved.find? fun m => m.1 == e.2.1 && m.2.1 == c with
        | some m => some (m.2.2, e.2.1, c)
        | none => some (e.1, e.2.1, c)

/-- Planned beats of an engine in the slot where all its tasks run: the UL slots of both patterns fall
together in slot 4 of each period of 5 (R231, R234). -/
def engineBeats (s : State) (p : LeasePlan) (e : Nat) : Nat :=
  ((planTasks s p).filter (·.1 == e)).foldl (fun a t => a + taskBeats t.2.1 (cType (cell s t.2.2).record)) 0

/-- One task moved to the first other leased engine of the plan with room; without room it is dropped (R257). -/
def moveTask (s : State) (e : Nat) (p : LeasePlan) (t : Nat × Nat) : LeasePlan :=
  let b := taskBeats t.1 (cType (cell s t.2).record)
  let p' := { p with moved := p.moved.filter fun m => !(m.1 == t.1 && m.2.1 == t.2) }
  match (planEngines s p).find? fun g =>
      g != e && !(unitSt s g).suspect && engineBeats s p g + b ≤ 600000 with
  | some g => { p' with moved := p'.moved ++ [(t.1, t.2, g)] }
  | none => { p' with dropped := p'.dropped ++ [t] }

/-- The tasks of an engine re-placed in a plan (R257): SRS weights first, then neural receivers, lowest cell
first, so that what finds no room is neural before SRS and highest cell first. -/
def replan (s : State) (e : Nat) (p : LeasePlan) : LeasePlan :=
  let mine := ((planTasks s p).filter (·.1 == e)).map (·.2)
  let order := sortBy (fun a b => decide (a.1 < b.1) || (a.1 == b.1 && a.2 ≤ b.2)) mine
  order.foldl (moveTask s e) p

/-- FALLBACK is owed on the dies of the cells named (R257). -/
def oweFallback (s : State) (cells : List Nat) : State :=
  (cells.map fun c => cDie (cell s c).record).foldl
    (fun s d => modRadDie s d fun x => { x with fallback := true }) s

/-- A leased engine is fenced or becomes a suspect (R257): its tasks take the classical path for the rest of
the period, and the periods already planned are re-placed. -/
def leaseReplan (s : State) (e : Nat) : State :=
  let s := match s.rad.current with
    | none => s
    | some p =>
      let mine := ((planTasks s p).filter (·.1 == e)).map (·.2)
      if mine.isEmpty then s
      else oweFallback { s with rad := { s.rad with
        current := some { p with dropped := p.dropped ++ mine } } } (mine.map (·.2))
  let hit := (s.rad.plans.flatMap fun p => (planTasks s p).filter (·.1 == e)).map (·.2.2)
  let s := oweFallback s hit
  { s with rad := { s.rad with plans := s.rad.plans.map (replan s e) } }

/-- The plan of a period that starts (R255, R257): the accepted one, or the previous plan repeated; tasks of
engines that no longer pass checks 3 and 4 are re-placed. -/
def periodPlan (s : State) (period : Nat) : Option LeasePlan :=
  match s.rad.plans.find? (·.period == period) with
  | some p => some (((maskEngines (lpEngines p.record)).filter (engineOut s)).foldl
      (fun p e => replan s e p) p)
  | none => s.rad.current.map fun p =>
      ((maskEngines (lpEngines p.record)).filter fun e =>
        engineOut s e || maskAt s period / 2 ^ e % 2 == 0).foldl
        (fun p e => replan s e p) { period := period, record := p.record }

/-- An accepted plan, in force or to come, leases an engine (R60, R255). -/
def planHolds (s : State) (e : Nat) : Bool :=
  (s.rad.current.toList ++ s.rad.plans).any fun p => (planEngines s p).contains e

/-- The engines of a lease (R120, R121, R256): slot 4 holds the lease context, paced, in the radio region. -/
def setLease (s : State) (es : List Nat) : State :=
  noteReferees <| (List.range 16).foldl (fun s e =>
    if es.contains e && !(engine s e).leased then
      let s := (engineDomains e).foldl takeThrottle (wakeEngine (modEngine s e fun x => { x with leased := true }) e)
      let s := (engineDomains e).foldl riseIfHeld s
      setSlot s e 4
        { valid := true, paced := true, base := 64 - cfgRadioMb s, size := cfgRadioMb s }
    else if !es.contains e && (engine s e).leased then
      (engineDomains e).foldl takeThrottle (releaseSlot (modEngine s e fun x => { x with leased := false }) (e, 4))
    else s) s

/-- The lease ends: no plan, and the engines return to tenants (R258, R323). -/
def endLease (s : State) : State :=
  setLease { s with rad := { s.rad with plans := [], previous := s.rad.current, current := none, leaseEnds := false } } []

/-- Raw ticks to the next lease start of an engine that is not leased now (R116): the first coming period
whose plan, accepted or repeated, takes it. -/
def leaseStartIn (s : State) (e : Nat) : Option Nat :=
  if (engine s e).leased then none
  else
    let f := frameNow s
    let takes (p : LeasePlan) : Bool := lpEngines p.record / 2 ^ e % 2 == 1
    ((List.range 100).find? fun i => match periodPlan s ((f + i + 1) % 2 ^ 32) with
      | some p => takes p
      | none => false).map fun i => ticksTo s ((f + i + 1) * 10000000)

/-- Tacor restarts (R258): the planners repeat the last plan they hold. -/
def planRepeat (s : State) : State :=
  { s with rad := { s.rad with planRepeat := true, repeatSince := now s } }

/-- Tacor runs again (R258): the engines of a lease that ended without it return to tenants. -/
def tacorBack (s : State) : State := if s.rad.current.isNone then setLease s [] else s

/-! ### Boot -/

/-- Radio firmware creates sleeve 0 and starts the slot planners with no cells and no plan (R205, R265): the
lease mask is the boot configuration's, and the planners take up the units in service. -/
def radioBoot (s : State) : State :=
  takeUnits (takeUnits { s with rad := { s.rad with mask := cfgLeaseMask s } } 0) 1

end Sys2Proof.Machine
end

