-- ==== Sys2Proof/Machine/Chunks.lean ====
section
/-! DEFINITION. Disputes of the lining as their memory holds them (chapter 05): the frames and the scratch (R148), the
chunk (R149), candidates (R171, R172), and who may serve as a referee (R147). -/

namespace Sys2Proof.Machine

/-! ### The lining's memory (R148) -/

/-- MiB of an engine's pocket that partitions may take (R120, R148). -/
def tenantMiB (s : State) : Nat := 63 - cfgRadioMb s

/-- The lining scratch of an engine (R148): the top 1 MiB of the tenant area. -/
def scratchKey (s : State) (e : Nat) : Nat := pocketKey e ((63 - cfgRadioMb s) * 2 ^ 20)

/-- A referee staging buffer: 1 MiB each in the ED0 frames of R148. -/
def stagingKey (b : Nat) : Nat := ed0Key (3456 + 16 * b) 0

/-- The staging buffer of a dispute and the scratch of its referees are zeroed (R150, R151). -/
def zeroReferee (s : State) (d : Dispute) : State :=
  let s := d.buffer.elim s fun b => physZero s (stagingKey b) (2 ^ 20)
  d.refs.foldl (fun s r => physZero s (scratchKey s (r % 16)) (2 ^ 20)) s

/-- The lining's own ED0 frames hold an uncorrectable word: the candidate queue (3,488–3,551) or the strike log and
the fitting results (3,552–3,583) (R148, R176). -/
def candidatesBad (s : State) : Bool := eccHit s (ed0Key 3488 0) (64 * 65536)
def liningLogBad (s : State) : Bool := eccHit s (ed0Key 3552 0) (32 * 65536)

/-- A record on an unreadable queue or log goes to the sideband (R176, R396); the checks themselves continue. -/
def reportUnreadable (s : State) (frame : Nat) : State :=
  raise s { code := 0x006, severity := 2, die := 6, d0 := frame, d1 := (Config.readerKind 4).toNat }

/-! ### Chunks (R149) -/

/-- Data rows in a chunk of up to 64 stream rows (R149). -/
def chunkRows (d : List W64) : Nat := Nat.max 1 (64 / srpd d)

/-- A staging buffer that no dispute uses (R148). -/
def freeBuffer (s : State) : Option Nat :=
  (List.range 2).find? fun b => !s.lin.disputes.any fun d => d.buffer == some b

/-- Places of a chunk in staging and in the scratch (R149): stream rows, partial rows, anchor-word rows, output rows,
then A's scales and the fed bitmap. -/
def chunkStream : Nat := 131072
def chunkPart : Nat := 163840
def chunkAnchor : Nat := 425984
def chunkOut : Nat := 458752
def chunkScale : Nat := 720896
def chunkFed : Nat := 753664

/-- The descriptor under which a referee runs a chunk of n data rows in the lining scratch, the first `fed` of them fed:
the row number is its H coordinate. -/
def chunkDesc (d : List W64) (n fed : Nat) : List W64 :=
  [wd d 0, pack 64 [(32, chunkStream)], pack 64 [(38, chunkOut), (12, chunkPart)],
   pack 64 [(38, chunkAnchor), (12, chunkScale)], pack 64 [(38, chunkOut), (16, 4096)],
   pack 64 [(48, fed), (32, 0xFFFF)], pack 64 [(48, n - 1), (42, 1), (0, 512)], 0, 0, 0, 0, 0, 0,
   wd d 13, wd d 14, pack 64 [(0, chunkFed)]]

/-- The chunk at work of a dispute. -/
def Dispute.chunk (d : Dispute) : List Nat := d.rows.take (chunkRows d.desc)

/-- The tile that the chunk holds: the pass's own. -/
def Dispute.tile (d : Dispute) : Nat := Nat.min d.index (cTiles d.desc - 1)

/-- Disputed rows in the order in which they are refereed: those that the pass fed, then the others, so that a chunk
feeds its first rows (R149). -/
def fedFirst (q : List W64) (t : Nat) (rows : List Nat) : List Nat :=
  (rows.filter fun m => rowFed q m t) ++ rows.filter fun m => !rowFed q m t

/-- Rows of the chunk that the pass fed. -/
def Dispute.fed (d : Dispute) : Nat := (d.chunk.filter fun m => rowFed d.desc m d.tile).length

/-- The chunk gathered from the suspect's partition into memory at a key (R149). -/
def gatherChunk (s : State) (d : Dispute) (key : Nat) : State :=
  let e := d.suspect % 16
  let x := slot s e d.slot
  let q := d.desc
  let t := d.tile
  let s := physCopy s key (partKey x e (tileAddr q t)) (tileBytes (cFmtB q))
  (d.chunk.zip (List.range d.chunk.length)).foldl (fun s mr =>
    let m := mr.1
    let r := mr.2
    let s := if rowFed q m t then
        physCopy s (key + chunkStream + 512 * r) (partKey x e (rowAddr q m t).toNat) (packedBytes (cFmtA q) (kFed q))
      else s
    let s := physCopy s (key + chunkPart + 4096 * r) (partKey x e (partOff q (d.products % 2 == 0) m 0)) (16 * cCols q)
    let s := physCopy s (key + chunkAnchor + 512 * r) (partKey x e (anchorOff q m 0)) (2 * cCols q)
    let s := if isMx (cFmtA q) && rowFed q m t then (List.range (blocksFed q)).foldl (fun s b =>
        physWrite s (key + chunkScale + (512 * r + b * b32 (cFmtA q)) / b32 (cFmtA q))
          [rdByte s.pkg.mem (partKey x e (scaleOffA q m t b).toNat)]) s else s
    if d.fedBefore.contains m then
      let a := key + chunkFed + r / 8
      physWrite s a [rdByte s.pkg.mem a ||| (1 <<< (r % 8))]
    else s) (physZero s (key + chunkFed) 64)

/-- A word of the chunk cannot be read where it lies in the suspect's partition (R160). -/
def chunkEcc (s : State) (d : Dispute) : Bool :=
  let e := d.suspect % 16
  let x := slot s e d.slot
  (passReads x d.desc 3 d.tile).any fun r => eccHit s (partKey x e r.1.toNat) r.2

/-- What a chunk holds, by offset, and a chunk put back at a key. -/
def chunkImage (s : State) (d : Dispute) : List Host.Cell :=
  let key := ed0Key 3456 0
  let m := (gatherChunk (physZero s key (2 ^ 20)) d key).pkg.mem
  (m.filter fun c => key ≤ c.1 && c.1 < key + 2 ^ 20).map fun c => (c.1 - key, c.2)
def placeImage (s : State) (key : Nat) (image : List Host.Cell) : State :=
  image.foldl (fun s c => physWrite s (key + c.1) [c.2]) (physZero s key (2 ^ 20))

/-- The chunks of a dispute, one behind the other. `fuel` counts rows. -/
def chunkImages (s : State) : Nat → Dispute → List (List Host.Cell)
  | 0, _ => []
  | fuel + 1, d =>
    if d.rows.isEmpty then []
    else chunkImage s d :: chunkImages s fuel { d with rows := d.rows.drop d.chunk.length }

/-! ### A chunk in the lining scratch (R149) -/

/-- The scratch as a partition that holds a chunk. -/
def chunkSlot (s : State) (d : Dispute) : Slot :=
  { valid := true, base := tenantMiB s, size := 1, fedBase := chunkFed, products := if d.products = 0 then 0 else 2 }

/-- The referee's pass over the chunk in engine e's scratch. -/
def chunkPass (s : State) (d : Dispute) (e : Nat) : PassRun :=
  let q := chunkDesc d.desc d.chunk.length d.fed
  { slot := d.slot, kind := 0, m := streamM q, paced := false, desc := q
    tile := loadTile s (scratchKey s e) (tileBytes (cFmtB q)) }

/-- Errors of the original pass by row of the chunk. -/
def chunkErrors (d : Dispute) : List PassError :=
  d.errors.filterMap fun e =>
    let row (m : Nat) : Option Nat := d.chunk.findIdx? (· == m)
    match e with
    | .output m j v => (row m).map fun r => .output r j v
    | .checkColumn m v => (row m).map fun r => .checkColumn r v
    | .residue m j v => (row m).map fun r => .residue r j v
    | .word m j v => (row m).map fun r => .word r j v
    | e => some e

/-! ### Candidates (R171, R172) -/

/-- Capture consent of a sleeve (R171). -/
def consentOf (s : State) (k : Nat) : Nat :=
  if k = 0 then cfgConsent0 s else fld (wd (sleeve s k).record 0) 49 42

/-- The state with a dispute's chunk in the suspect's scratch: out of its staging buffer, as a radio pass left it, or
gathered now. -/
def withChunk (s : State) (d : Dispute) : State :=
  let key := scratchKey s (d.suspect % 16)
  match d.buffer, d.images with
  | some b, _ => physCopy s key (stagingKey b) (2 ^ 20)
  | none, i :: _ => placeImage s key i
  | none, [] => gatherChunk s d key

/-- The operands of the disputed chunk (R149, R171): tile, stream rows, partial rows and anchor-word rows; of an
element-engine descriptor, the regions it reads. -/
def chunkOperands (s : State) (d : Dispute) : List Byte :=
  let e := d.suspect % 16
  if d.element then
    (elemReads d.desc).flatMap fun r => physRead s (partKey (slot s e d.slot) e r.1) r.2
  else
    let s := withChunk s d
    let k := scratchKey s e
    let rows (at0 stride len : Nat) : List Byte :=
      (List.range d.chunk.length).flatMap fun r => physRead s (k + at0 + stride * r) len
    physRead s k (tileBytes (cFmtB d.desc)) ++ rows chunkStream 512 (packedBytes (cFmtA d.desc) (kFed d.desc)) ++
      rows chunkPart 4096 (16 * cCols d.desc) ++ rows chunkAnchor 512 (2 * cCols d.desc)

/-- Bytes of a candidate's header that hold the syndromes (R172; layout: notes/assumptions/20.md). R172 sets the header's
size and does not say what becomes of syndromes that it has no room for: they are cut off (DESIGN CHOICE,
notes/assumptions/20.md). -/
def syndromeBytes : Nat := 3840

/-- The syndromes of the disputed chunk as bytes (R139, R140): the corner, the nonzero row syndromes by row of the
chunk, the nonzero column syndromes by column; of a windowed pass, the outputs whose residue lane disagrees. -/
def chunkSyndromes (s : State) (d : Dispute) : List Byte :=
  if d.element || d.passKind != 0 then []
  else
    let e := d.suspect % 16
    let s := withChunk s d
    let p := chunkPass s d e
    let x := chunkSlot s d
    let rows := List.range d.fed
    if d.windowed then
      rows.flatMap fun m => ((List.range (cCols p.desc)).filter fun n =>
        !residueOk s x e p.desc p.tile 0 m n (chunkErrors d)).flatMap fun n => leBytes 2 m ++ leBytes 2 n
    else
      let y := syndromes (checkView s x e p.desc p.tile 0 rows fun _ => true) (chunkErrors d)
      leBytes 16 y.corner.toNat ++
      ((y.rows.filter fun r => r.2 != 0).flatMap fun r => leBytes 2 r.1 ++ leBytes 16 r.2.toNat) ++
      (((List.range y.cols.length).filter fun j => y.cols.getD j 0 != 0).flatMap fun j =>
        leBytes 2 j ++ leBytes 16 (y.cols.getD j 0).toNat)

/-- Bytes of a candidate: its 4 KiB header (layout: notes/assumptions/20.md) and its operands. -/
def candidateBytes (c : Candidate) : List Byte :=
  let words : List W64 :=
    [pack 64 [(0, c.unit), (8, c.passKind), (16, c.verdict), (24, c.sleeve), (32, c.consent)], w64 c.location,
     pack 64 [(0, cFmtA c.desc), (8, cFmtB c.desc)]] ++ wordsOf 4 c.digest ++
    (List.range 16).map fun i => wd c.desc i
  (bytesOf words ++ List.replicate (4096 - syndromeBytes - 184) 0 ++
    (c.syndromes ++ List.replicate syndromeBytes 0).take syndromeBytes) ++ c.operands

/-- The operands of a dispute stand where they can be read. -/
def operandsStand (s : State) (d : Dispute) : Bool :=
  if d.element then (elemReads d.desc).all fun r => !eccHit s (partKey (slot s (d.suspect % 16) d.slot) (d.suspect % 16) r.1) r.2
  else match d.buffer with
    | some b => !eccHit s (stagingKey b) (2 ^ 20)
    | none => !d.images.isEmpty || !chunkEcc s d

/-- A fitting candidate is captured under the sleeve's consent (R171, R172): the location, the kind, the syndromes and
the digest of the chunk's operands, and from KEEP on the operands; a full queue keeps only the header, and the drop is
counted. The entry is written as a whole (R160). Operands that cannot be read are captured as none. -/
def capture (s : State) (d : Dispute) (verdict : Nat) : State :=
  let consent := consentOf s d.sleeve
  let operands := if operandsStand s d then chunkOperands s d else []
  let c : Candidate := { unit := d.suspect, location := d.location, passKind := d.passKind
                         desc := d.desc, verdict := verdict, sleeve := d.sleeve
                         consent := consent, digest := sha256 operands
                         operands := if consent = 0 then [] else operands.take 720896
                         syndromes := (chunkSyndromes s d).take syndromeBytes }
  let s := if candidatesBad s then reportUnreadable s 3488 else s
  match (List.range 4).find? fun i => (tget none s.lin.candidates i).isNone with
  | some i =>
    let s := physWrite (physZero s (ed0Key (3488 + 16 * i) 0) (2 ^ 20)) (ed0Key (3488 + 16 * i) 0) (candidateBytes c)
    { s with lin := { s.lin with candidates := tset none s.lin.candidates i (some c) } }
  | none => { s with lin := { s.lin with
      candDropped := s.lin.candDropped + 1
      headers := s.lin.headers ++ [{ c with operands := [] }] } }

/-! ### Who may serve (R147) -/

/-- The dispute of a suspect that is at work: the oldest (R151). -/
def disputeOf (s : State) (u : Nat) : Option Dispute := s.lin.disputes.find? (·.suspect == u)

/-- Beats that a dispute's chunk takes of a referee (R102, R130). -/
def refereeBeats (d : Dispute) : Nat :=
  if d.element then elemBeats d.desc else 514 + d.chunk.length * srpd d.desc

/-- Every other unit of the suspect's kind is fenced: only the suspect remains (R150). -/
def suspectAlone (s : State) (d : Dispute) : Bool :=
  (List.range 32).all fun r => r / 16 != d.suspect / 16 || r == d.suspect || isFenced s r

/-- Beats of referee passes that a unit has run within the last second. -/
def refereeUse (s : State) (r : Nat) : Nat :=
  (((unitSt s r).refBeats.filter fun b => since s b.1 < ticksPerS).map (·.2)).sum

/-- A pass of `beats` keeps the unit within 5 % of its beats averaged over 1 s, at guaranteed-minimum pace (R147). -/
def refereeRoom (s : State) (r beats : Nat) : Bool := refereeUse s r + beats ≤ 80000000

/-- A unit runs a fitting. -/
def fitAtWork (s : State) (u : Nat) : Bool := (unitSt s u).fit.any fun f => f.current.isSome

/-- A pass of `beats` ends before the next lease start of an engine, at guaranteed-minimum pace: 10.24
beats per raw tick (R116). -/
def beforeLease (s : State) (e beats : Nat) : Bool :=
  match leaseStartIn s e with
  | none => true
  | some t => beats * 100 ≤ t * 1024

/-- A unit may take a dispute's next chunk now: eligible, with room in its 5 %, the pass ends before a lease
start, no fitting of its pocket is at work, and its array is not stopped by throttle level 3 (R65). -/
def mayReferee (s : State) (d : Dispute) (r : Nat) : Bool :=
  !fitAtWork s (r % 16) && !fitAtWork s (16 + r % 16) && eligible s d r && refereeRoom s r (refereeBeats d) &&
  beforeLease s (r % 16) (refereeBeats d) && (engine s (r % 16)).throttle < 3

/-- Order of preference (R147): on another die first, then by resident contexts; lower is better. -/
def refereeRank (s : State) (d : Dispute) (r : Nat) : Nat :=
  (if unitDie r == unitDie d.suspect then 8 else 0) +
    ((List.range 4).filter fun i => (slot s (r % 16) i).valid).length

/-- The unit is among the best that may serve. -/
def preferred (s : State) (d : Dispute) (r : Nat) : Bool :=
  mayReferee s d r && (List.range 32).all fun q => !mayReferee s d q || refereeRank s d r ≤ refereeRank s d q

/-- An older dispute waits for the unit: requests beyond the 5 % queue in arrival order (R147). -/
def isQueued (s : State) (d : Dispute) (r : Nat) : Bool :=
  (s.lin.disputes.takeWhile (· != d)).any fun q =>
    q.st == .staging && disputeOf s q.suspect == some q && eligible s q r

/-- The unit serves as a referee: its scratch holds a chunk. -/
def isRefereeing (s : State) (u : Nat) : Bool :=
  s.lin.disputes.any fun d => d.st == .referee && d.refs.getLast? == some u

/-- A referee pass of the unit is at work, or due at its next boundary ahead of tenant work (R147). -/
def refereeDue (s : State) (r : Nat) : Bool :=
  isRefereeing s r || s.lin.disputes.any fun d =>
    d.st == .staging && disputeOf s d.suspect == some d && (d.element || d.buffer.isSome || (freeBuffer s).isSome) &&
    preferred s d r && !isQueued s d r

end Sys2Proof.Machine
end

