-- ==== Sys2Proof/Machine/Paths.lean ====
section
/-! DEFINITION. The paths of the package (chapter 01): the seams and the fixed routes over them (R17, R18), the
flits that cross a seam (R19), the channels of a frame (R25), and the trackers of the edge dies (R36, R37). -/

namespace Sys2Proof.Machine

/-! ### Seams and routes -/

/-- The dies that a seam joins (R17). -/
def seamDies (n : Nat) : Nat × Nat :=
  [(6, 7), (0, 6), (2, 6), (1, 7), (3, 7), (0, 1), (2, 3), (4, 6), (4, 0), (4, 2), (5, 7), (5, 1),
    (5, 3)].getD n (6, 6)

/-- The fixed routes of R18 in its order: the two dies, and the seams crossed from the first one. -/
def fixedRoutes : List (Nat × Nat × List Nat) :=
  [(0, 2, [1, 2]), (0, 3, [5, 3, 4]), (0, 7, [1, 0]), (0, 5, [5, 11]), (1, 2, [5, 1, 2]), (1, 3, [3, 4]),
    (1, 6, [3, 0]), (1, 4, [5, 8]), (2, 7, [2, 0]), (2, 5, [6, 12]), (3, 6, [4, 0]), (3, 4, [6, 9]),
    (6, 5, [0, 10]), (7, 4, [0, 7]), (4, 5, [7, 0, 10])]

/-- Seams that a transfer from die a to die b crosses, in order (R16–R18): none within a die, the seam between two
dies that face each other, else the fixed route, which is the same in both directions. -/
def seamsCrossed (a b : Nat) : List Nat :=
  if a = b then []
  else match (List.range 13).find? fun n => seamDies n == (a, b) || seamDies n == (b, a) with
    | some n => [n]
    | none =>
      match fixedRoutes.find? fun r => r.1 == a && r.2.1 == b with
      | some r => r.2.2
      | none => match fixedRoutes.find? fun r => r.1 == b && r.2.1 == a with
        | some r => r.2.2.reverse
        | none => []

/-- A received flit of a seam: 8 bytes of header, 240 of payload, and the CRC-64 of those 248, which the receiving
die checks (R19, R162; its byte order: notes/assumptions/87.md). -/
def flitGood (flit : List Byte) : Bool :=
  flit.length == 256 && crc64 (flit.take 248) == leNat (flit.drop 248)

/-! ### Memory -/

/-- Die of a frame from LOC and FRAME (R29). -/
def frameDie (loc frame : Nat) : Nat := if loc = 1 then frame / 2 ^ 22 % 4 else 4 + frame / 2 ^ 22 % 4

/-- LPDDR6 channels of a die (R23): 8 on a radio die, 16 on an edge die. -/
def dieChannels (d : Nat) : Nat := if d < 6 then 8 else 16

/-- Channel of byte `off` of an LPDDR6 frame (R25): striped in 256-byte units from the lowest channel on. -/
def frameChannel (d off : Nat) : Nat := off % 65536 / 256 % dieChannels d

/-- What a transfer passes over: a seam, a bonded stack's port, a channel of an LPDDR6 die (R36). -/
inductive SharedPath where
  | seam (n : Nat)
  | stack (die : Nat)
  | channel (die ch : Nat)
  deriving DecidableEq, Repr

/-- The places that an access of [addr, addr + len) of the page window passes over from a die. -/
def accessPaths (s : State) (die addr len : Nat) : List SharedPath :=
  (pageParts addr len).flatMap fun p =>
    let w := ownEntry s (p.1 / 65536)
    let d := frameDie (ownLoc w) (ownFrame w)
    (seamsCrossed die d).map .seam ++
      if ownLoc w == 1 then [.stack d]
      else ((List.range (Nat.min (dieChannels d) ((p.1 % 256 + p.2.2 + 255) / 256))).map fun i =>
        .channel d (frameChannel d (p.1 + 256 * i)))

/-! ### Trackers (R36, R37) -/

/-- Trackers of an edge die, and how radio and the tenants share them. -/
def trackersPerDie : Nat := 32768
def trackerShare (radio : Bool) : Nat := if radio then 4096 else trackersPerDie - 4096

/-- The outstanding-transaction limit of the device (R37, R39). -/
def outstandingLimit : Nat := 2 * trackersPerDie

/-- The edge die whose trackers hold the memory transactions of a die: the one in its half of the package
(DESIGN CHOICE, notes/assumptions/87.md). -/
def trackerDie (die : Nat) : Nat := if die = 0 || die = 2 || die = 4 || die = 6 then 6 else 7

/-- A fabric transaction is radio's: a HARQ carry, or work of a job of sleeve 0. -/
def trackRadio (s : State) (t : Track) : Bool := t.cell.isSome || (t.job != 0 && (job s t.job).owner == 0)

/-- Fabric transactions that an edge die's trackers hold for a share: those of its ports. -/
def fabricTrackers (s : State) (ed : Nat) (radio : Bool) : Nat :=
  (s.fab.pairs.map fun e =>
    if (tget none s.fab.routes e.1).any fun p => 6 + p / 8 == ed then
      (e.2.tracks.filter fun t => trackRadio s t == radio).length else 0).sum

/-- Memory transactions under way: DMA descriptors that have not completed. Any other access ends in the step in which
it is issued, and one that waits for a page in move has not been issued (DEDUCED, notes/assumptions/87.md). -/
def memoryTrackers (s : State) (ed : Nat) (radio : Bool) : Nat :=
  ((List.range 16).filter fun e => trackerDie (unitDie e) == ed).foldl (fun n e =>
    n + ((List.range 5).map fun i =>
      if ((slot s e i).sleeve == 0) == radio then (slot s e i).dma.length else 0).sum) 0

def trackersUsed (s : State) (ed : Nat) (radio : Bool) : Nat :=
  fabricTrackers s ed radio + memoryTrackers s ed radio

/-- A share of an edge die has a tracker left; else a new issue of that share waits, and none is dropped (R36, R37). -/
def trackerFree (s : State) (ed : Nat) (radio : Bool) : Bool := trackersUsed s ed radio < trackerShare radio

/-- An access that a unit issues for a sleeve finds a tracker of its share free (R36). -/
def unitTracker (s : State) (u sl : Nat) : Bool := trackerFree s (trackerDie (unitDie u)) (sl == 0)

end Sys2Proof.Machine
end

