-- ==== Sys2Proof/Machine/FabricOps.lean ====
section
/-! DEFINITION. The Voravatra fabric, shared by its commands and by the faults that touch it: ports and
counters (R334, R355), packets and pair sequences (R338, R347), chip maps (R337), barriers (R344,
R349, R353), and what a job's fault and end do to its map (R351, R337). -/

namespace Sys2Proof.Machine

/-! ### Accessors -/

def vfPort (s : State) (p : Nat) : VfPort := tget {} s.fab.ports p
def setVfPort (s : State) (p : Nat) (v : VfPort) : State :=
  { s with fab := { s.fab with ports := tset {} s.fab.ports p v } }
def modVfPort (s : State) (p : Nat) (f : VfPort → VfPort) : State := setVfPort s p (f (vfPort s p))
def pairOf (s : State) (d : Nat) : Pair := tget {} s.fab.pairs d
def setPair (s : State) (d : Nat) (v : Pair) : State :=
  { s with fab := { s.fab with pairs := tset {} s.fab.pairs d v } }
def modPair (s : State) (d : Nat) (f : Pair → Pair) : State := setPair s d (f (pairOf s d))
/-- Home port of a device (R336). -/
def homePort (s : State) (d : Nat) : Option Nat := tget none s.fab.routes d

/-- Counters of a port in the order of R355: HDR_CRC, PAYLOAD_CRC, BAD_PACKET, MISROUTED, DUPLICATES,
STALE_GENERATION, DENIED, REPLAYS, RETRANSMITS, TARGET_LOST, LANE_DROPS, PORT_DOWNS, UNCONFIGURED. -/
def vfCount (s : State) (p i : Nat) : State :=
  modVfPort s p fun x => { x with ctrs := tmod {} x.ctrs i fun c => c.add 0x7FFFFFFF 1 }

/-- Whether a device of a map can be reached; this device always can (R337). -/
def reachable (s : State) (d : Nat) : Bool := d == s.fab.dev || (homePort s d).isSome

def mapOf (s : State) (num : Nat) : Option ChipMap := s.fab.maps.find? (·.num == num)
/-- The chip map of the job on a handle. -/
def mapOfJob (s : State) (h : Nat) : Option ChipMap :=
  s.fab.maps.find? fun m => m.handle == h && !m.sink
def modMap (s : State) (num : Nat) (f : ChipMap → ChipMap) : State :=
  { s with fab := { s.fab with maps := s.fab.maps.map fun m => if m.num == num then f m else m } }
/-- Handles that chip maps and sinks hold (R337). -/
def mapHandles (s : State) : List Nat := s.fab.maps.map (·.handle)

/-- The job that runs on a map's handle, if any. -/
def mapJob (s : State) (m : ChipMap) : Option Nat :=
  if m.sink || (job s m.handle).st == .free then none else some m.handle

/-- CHIP_INDEX of a job (R182). -/
def chipIndex (s : State) (h : Nat) : Nat := fld (wd (job s h).block 1) 63 54

/-- The chip index of this device in a chip map (R337). -/
def ownChip (s : State) (m : ChipMap) : Nat := m.devs.findIdx (· == s.fab.dev)

/-! ### Packets (R338) -/

/-- Types of packets. -/
def pPut : Nat := 1
def pGetReq : Nat := 2
def pGetData : Nat := 3
def pAtomic : Nat := 4
def pAtomicResp : Nat := 5
def pAck : Nat := 6
def pNack : Nat := 7
def pArrive : Nat := 8
def pRelease : Nat := 9
def pColl : Nat := 10

/-- Fields of a packet header. -/
def hType (p : Packet) : Nat := fld (wd p.header 0) 63 60
def hSrc (p : Packet) : Nat := fld (wd p.header 0) 59 50
def hDst (p : Packet) : Nat := fld (wd p.header 0) 49 40
def hChip (p : Packet) : Nat := fld (wd p.header 0) 39 30
def hLen (p : Packet) : Nat := fld (wd p.header 0) 29 17
def hJob (p : Packet) : Nat := fld (wd p.header 1) 63 40
def hFgen (p : Packet) : Nat := fld (wd p.header 1) 39 32
def hSeq (p : Packet) : Nat := fld (wd p.header 1) 31 0
def hAddr (p : Packet) : Nat := fld (wd p.header 2) 63 16
def hOpc (p : Packet) : Nat := fld (wd p.header 3) 63 60
def hRelaxed (p : Packet) : Bool := bitOf (wd p.header 3) 59
def hFetch (p : Packet) : Bool := bitOf (wd p.header 3) 58
def hSync (p : Packet) : Bool := bitOf (wd p.header 3) 57
def hArmed (p : Packet) : Bool := bitOf (wd p.header 3) 56
def hSnap (p : Packet) : Bool := bitOf (wd p.header 3) 55

/-- HDR_CRC: CRC-32C over header bytes 0–23 followed by bytes 28–31 (R338). -/
def headerCrc (h : List W64) : Nat :=
  let bs := bytesOf ((List.range 4).map (wd h))
  crc32c (bs.take 24 ++ bs.drop 28)

/-- A packet without sequence number: type, destination, chip of the sender, job number, FGEN, ADDR, the
flag fields of W3, and payload. -/
def mkPacket (s : State) (typ dst chip num fgen addr : Nat) (w3 : List (Nat × Nat))
    (payload : List Byte) : Packet :=
  { header := [pack 64 [(60, typ), (50, s.fab.dev), (40, dst), (30, chip), (17, payload.length)],
      pack 64 [(40, num), (32, fgen)], pack 64 [(16, addr)], pack 64 w3]
    payload := payload
    payloadCrc := BitVec.ofNat 32 (crc32c payload) }

/-- The packet with SEQ, SYNC and HDR_CRC written. -/
def stampPacket (p : Packet) (seq : Nat) (sync : Bool) : Packet :=
  let h := [wd p.header 0, w64 ((wd p.header 1).toNat / 2 ^ 32 * 2 ^ 32 + seq),
    wd p.header 2, w64 (((wd p.header 3).toNat / 2 ^ 58 * 2 + b2n sync) * 2 ^ 57 +
      (wd p.header 3).toNat % 2 ^ 57 / 2 ^ 32 * 2 ^ 32)]
  { p with header := [wd h 0, wd h 1, wd h 2, w64 ((wd h 3).toNat + headerCrc h)] }

/-- A packet leaves by a port; its payload bytes are counted (R355). -/
def emitPacket (s : State) (port : Nat) (p : Packet) : State :=
  modVfPort (emit s (.packet port p)) port fun x => { x with
    txBytes := x.txBytes + w64 p.payload.length }

/-- A sequenced packet is sent and tracked until its acknowledgement (R336, R347). While a route change
waits for older packets, or its share of the edge die's trackers is full (R36, R37), it waits, behind what waits
already. None: the device is unreachable, or its home port is down. -/
def sendPacket (s : State) (p : Packet) (t : Track) : Option State :=
  let dst := hDst p
  match homePort s dst with
  | none => none
  | some port =>
    if !(vfPort s port).up || !s.fab.configured then none
    else
      let x := pairOf s dst
      if ((tget none s.fab.routeNext dst).isSome && !x.tracks.isEmpty) || !x.held.isEmpty ||
          !trackerFree s (6 + port / 8) (trackRadio s t) then
        some (setPair s dst { x with held := x.held ++ [{ t with packet := p }] })
      else
        let p := stampPacket p x.next x.sync
        let t := { t with seq := x.next, packet := p, first := now s }
        some (setPair (emitPacket s port p) dst { x with
          next := (x.next + 1) % 2 ^ 32, sync := false, tracks := x.tracks ++ [t] })

/-- An ACK or a NACK: not sequenced (R338). -/
def sendReply (s : State) (typ dst seq status : Nat) : State :=
  match homePort s dst with
  | none => s
  | some port =>
    if !(vfPort s port).up then s
    else emitPacket s port (stampPacket
      (mkPacket s typ dst 0 0 0 (status * 2 ^ 32) [] []) seq false)

/-- Packets of a job's snapshot that no acknowledgement has released (R200). -/
def snapTracks (s : State) (h : Nat) : Bool :=
  s.fab.pairs.any fun e => (e.2.tracks ++ e.2.held).any fun t => t.snap == some h

/-- Packets of a list sent in order; none when one cannot be sent. -/
def sendAll (s : State) : List (Packet × Track) → Option State
  | [] => some s
  | (p, t) :: rest => match sendPacket s p t with
    | none => none
    | some s' => sendAll s' rest

/-- Payload bytes of a sleeve's fabric traffic (R226) and of its job (R191). -/
def countFabric (s : State) (k h bytes : Nat) : State :=
  let s := modSleeve s k fun v => { v with acct := { v.acct with
    bytesFabric := v.acct.bytesFabric + w64 bytes } }
  if h = 0 then s
  else modJob s h fun j => { j with ctr := { j.ctr with bytes := j.ctr.bytes + w64 bytes } }

/-! ### Loss (R334, R350) -/

/-- A device is lost to the barriers of its jobs (R344) and to the snapshots that drain to it (R200). -/
def markLost (s : State) (d : Nat) : State :=
  let f (m : ChipMap) : ChipMap := if m.devs.contains d then { m with lost := true } else m
  let g (j : Job) : Job := { j with snap := j.snap.map fun n => { n with lost := n.lost || n.peer == some d } }
  { s with fab := { s.fab with maps := s.fab.maps.map f }, jobs := s.jobs.map fun e => (e.1, g e.2) }

/-- A cell whose HARQ carry has ended leaves the device (R259 step 7, R260). -/
def endCarry (s : State) (c : Nat) : State :=
  modCell s c fun x => { ever := x.ever, slots := x.slots }

/-- Every carry under way ends: what was sent for it is no longer tracked (R347). -/
def endCarries (s : State) : State :=
  ((s.fab.pairs.flatMap fun e => e.2.tracks ++ e.2.held).filterMap (·.cell)).foldl endCarry s

/-- Every packet toward a device that awaits its acknowledgement is given up (R350): the jobs whose
descriptors complete with TARGET_LOST. A lost carry leaves the destination without entries (R260). -/
def dropTracks (s : State) (d : Nat) (which : Track → Bool) : State × List Nat :=
  let x := pairOf s d
  let gone := x.tracks.filter which ++ x.held.filter which
  let port := (homePort s d).getD 16
  let s := gone.foldl (fun s _ => if port < 16 then vfCount s port 9 else s) s
  let s := setPair s d { x with tracks := x.tracks.filter fun t => !which t
                                held := x.held.filter fun t => !which t }
  let s := if gone.isEmpty then s else markLost s d
  let s := (gone.filterMap (·.cell)).foldl endCarry s
  (s, (gone.filter fun t => t.desc != 0).map (·.job))

/-- Devices homed on a port. -/
def homedOn (s : State) (p : Nat) : List Nat :=
  (s.fab.routes.filter fun e => e.2 == some p).map (·.1)

/-- PORT_EVENT and its host event (R364, R394): family 1 fronthaul, 2 Voravatra; event 1 lane drop, 2 port
down. -/
def portEvent (s : State) (family die port event : Nat) : State :=
  let s := raise s { code := 0x030, severity := if event = 1 then 1 else 3, die := die
                     d0 := family + 256 * port, d1 := event }
  postEvent s 6 0 0 [pack 64 [(56, die), (48, port), (40, event)]]

/-- A Voravatra port goes down (R334): the jobs whose descriptors complete with TARGET_LOST. -/
def fabPortDown (s : State) (p : Nat) : State × List Nat :=
  let s := modVfPort s p fun x => { x with
    up := false, degraded := false, lanes := 0, low := [], replay := none }
  let s := portEvent (vfCount s p 11) 2 (6 + p / 8) p 2
  let s := if s.fab.configured then emit s (.notice "PORT_DOWN" s.fab.fmDev p) else s
  (homedOn s p).foldl (fun a d =>
    let r := dropTracks a.1 d fun _ => true
    (r.1, a.2 ++ r.2)) (s, [])

/-- The ports of ED1 go down with their die (R406). -/
def fabricDieDown (s : State) : State × List Nat :=
  (List.range 8).foldl (fun a i =>
    if (vfPort a.1 (8 + i)).up then
      let r := fabPortDown a.1 (8 + i)
      (r.1, a.2 ++ r.2)
    else a) (s, [])

/-! ### A job's fault and end (R351, R337) -/

/-- Nothing of a job's fabric work goes on: descriptors, collective, its place at a barrier. Packets on
their way are acknowledged as before and complete nothing. -/
def stopFabric (s : State) (h : Nat) : State :=
  { s with fab := { s.fab with
    runs := tdel s.fab.runs h
    colls := tdel s.fab.colls h
    early := s.fab.early.filter fun e => e.1 != h
    maps := s.fab.maps.map fun m => if m.handle == h then
      { m with waits := 0, released := false, arrivals := [] } else m
    pairs := s.fab.pairs.map fun e => (e.1, { e.2 with
      tracks := e.2.tracks.map fun t => if t.job == h && h != 0 then { t with job := 0, desc := 0 }
        else t }) } }

/-- A fault or cancel of a job with CHIPS > 1 on this chip (R351): FGEN is raised and JOB_FAULT goes to
the fabric manager. A teardown that the fabric manager named does neither. -/
def fabricJobFault (s : State) (h status : Nat) : State :=
  match mapOfJob s h with
  | none => s
  | some m =>
    let s := stopFabric s h
    if m.torn then s
    else emit (modMap s m.num fun m => { m with fgen := (m.fgen + 1) % 256 })
      (.notice "JOB_FAULT" m.num status)

/-- A job has ended: its chip map remains no longer (R337). -/
def fabricJobFree (s : State) (h : Nat) : State :=
  let s := stopFabric s h
  { s with fab := { s.fab with maps := s.fab.maps.filter fun m => m.handle != h || m.sink } }

/-! ### Barriers (R344, R349, R353) -/

/-- Combination of barrier values (R344): COP 0x5 wrapping sum, 0x6 signed minimum, 0x7 signed maximum. -/
def combine64 (cop : Nat) (a b : W64) : W64 :=
  match cop with
  | 5 => a + b
  | 6 => if a.toInt ≤ b.toInt then a else b
  | 7 => if a.toInt ≤ b.toInt then b else a
  | _ => 0

def combineAll (cop : Nat) : List W64 → W64
  | [] => 0
  | [a] => if cop = 0 then 0 else a
  | a :: r => combine64 cop a (combineAll cop r)

/-- The barrier of a job is released on this chip: a start barrier lets step 0 begin; a boundary barrier
waits for STEP_BOUNDARY; a descriptor waits for its completion. -/
def barrierReleased (s : State) (m : ChipMap) (snap : Bool) (value : W64) : State :=
  let s := modMap s m.num fun x => { x with
    value := value
    waits := if x.waits = 1 then 0 else x.waits
    released := x.waits != 1
    snap := snap && x.waits == 2 }
  if m.waits = 1 then modJob s m.handle fun j => { j with barrierStep := none } else s

/-- The chip that lags at a barrier (R349): the last to arrive, more than LAG_NS after the one before. -/
def lagging (s : State) (arrivals : List (Nat × Nat × Bool × W64)) : Option Nat :=
  match (sortBy (fun a b => decide (b.2.1 ≤ a.2.1)) arrivals) with
  | a :: b :: _ => if (a.2.1 - b.2.1) * 32 > s.fab.lagNs * 5 then some a.1 else none
  | _ => none

/-- The statistics of a barrier (R349): SLOW_CHIP when one chip has lagged in 16 of the last 64, whose count
then restarts. -/
def lagCount (s : State) (m : ChipMap) : State :=
  let l := lagging s m.arrivals
  let lags := (l :: m.lags).take 64
  match l with
  | none => modMap s m.num fun x => { x with lags := lags }
  | some c =>
    if (lags.filter (· == some c)).length < 16 then modMap s m.num fun x => { x with lags := lags }
    else
      let s := emit (emit s (.notice "SLOW_CHIP" m.num c)) (.notice "SLOW_CHIP to device"
        (m.devs.getD c 0) c)
      modMap s m.num fun x => { x with lags := lags.map fun y => if y == some c then none else y }

/-- Chip 0 releases a barrier that every chip has reached. A packet that cannot be sent is lost with its
device. -/
def releaseBarrier (s : State) (m : ChipMap) : State :=
  let snap := m.waits == 2 && m.arrivals.all (·.2.2.1)
  let value := combineAll m.cop (m.arrivals.map (·.2.2.2))
  let payload := if m.cop = 0 then [] else bytesOf [value]
  let s := lagCount s m
  let s := (List.range m.devs.length).foldl (fun s c =>
    if c = 0 then s
    else
      let d := m.devs.getD c 0
      let p := mkPacket s pRelease d 0 m.num m.fgen 0 [(55, b2n snap)] payload
      match sendPacket s p { seq := 0, packet := p, first := 0, job := m.handle } with
      | some s' => s'
      | none => markLost s d) s
  let s := modMap s m.num fun x => { x with arrivals := [], cop := 0 }
  match mapOf s m.num with
  | some m' => barrierReleased s m' snap value
  | none => s

/-- Chip 0 records an arrival (R344, R349) and releases the barrier once every chip, itself among them, has
arrived. -/
def recordArrival (s : State) (num chip : Nat) (armed : Bool) (value : W64) : State :=
  let s := modMap s num fun m => { m with
    arrivals := m.arrivals.filter (·.1 != chip) ++ [(chip, now s, armed, value)] }
  match mapOf s num with
  | none => s
  | some m =>
    if m.waits != 0 && (List.range m.devs.length).all fun c => m.arrivals.any (·.1 == c)
    then releaseBarrier s m else s

/-- This chip arrives at a barrier (R344): kind 1 start, 2 boundary, 3 a BARRIER descriptor with its COP and
value. ARMED: a snapshot is pending (R353). -/
def arriveBarrier (s : State) (h kind cop : Nat) (value : W64) (desc : Nat) : State :=
  match mapOfJob s h with
  | none => s
  | some m =>
    let armed := kind == 2 && (job s h).snap.isSome
    let chip := chipIndex s h
    let s := modMap s m.num fun x => { x with
      waits := kind, arrivedAt := now s, released := false, snap := false, cop := cop }
    if chip = 0 then recordArrival s m.num 0 armed value
    else
      let d := m.devs.getD 0 0
      let p := mkPacket s pArrive d chip m.num m.fgen 0 [(56, b2n armed)]
        (if cop = 0 then [] else bytesOf [value])
      match sendPacket s p { seq := 0, packet := p, first := 0, job := h, desc := desc } with
      | some s' => s'
      | none => markLost s d

end Sys2Proof.Machine
end

