-- ==== Sys2Proof/Machine/FhOps.lean ====
section
/-! DEFINITION. Fronthaul ports, shared by the commands of chapter 10 and by boot and sleeve removal: rates
(R309, R312), counters (R325), entries written back (R313, R328), a port that goes down (R302), flow entries
of a sleeve (R306), and links at boot (R327, R330, R331). -/

namespace Sys2Proof.Machine

/-! ### Accessors -/

def fhPort (s : State) (p : Nat) : FhPort := tget {} s.fh.ports p
def setFhPort (s : State) (p : Nat) (v : FhPort) : State :=
  { s with fh := { s.fh with ports := tset {} s.fh.ports p v } }
def modFhPort (s : State) (p : Nat) (f : FhPort → FhPort) : State := setFhPort s p (f (fhPort s p))

/-- Event counters of a port (R325): 0 FCS, 1 UNMATCHED, 2 RED, 3 TENANT_CAP, 4 RING_FULL, 5 EARLY_IQ,
6 LATE_IQ, 7 TX_LATE, 8 TOO_LONG, 9 LANE_DROPS, 10 PORT_DOWNS, 11 TIMING_RING_FULL. -/
def fhCount (s : State) (p i : Nat) : State :=
  modFhPort s p fun x => { x with ctrs := tmod {} x.ctrs i fun c => c.add 0x7FFFFFFF 1 }

/-- Die index of a fronthaul port (R299). -/
def fhDie (p : Nat) : Nat := 4 + p / 2

/-- Who reads and writes the rings and buffers of a sleeve (R31): no job, so SHARED pages only for a tenant. -/
def ringIssuer (k : Nat) : Issuer := { sleeve := k, sharedOnly := k != 0 }

/-- Wire time of a frame of B bytes in units of 1/300 ns (R312): 3 per byte at 800 Gb/s, 4 at 600 Gb/s. -/
def wireUnits (x : FhPort) (bytes : Nat) : Nat := (bytes + 20) * (if x.degraded then 4 else 3)

/-- Bytes on the wire, FCS included, of the frame as the queue holds it. -/
def frameLen (f : EgFrame) : Nat := f.bytes.length + 4

/-! ### Rings -/

/-- The manager is told of the sleeve whose ring has stopped on a page that the ownership check refuses
(R328, R364). The number of this port event is not stated and stays free (notes/assumptions/41.md). -/
def ringStopped (s : State) (k p : Nat) : State :=
  let (w, s) := takeFree s 61
  postEvent s 6 (statusCode .denied) k [pack 64 [(56, fhDie p), (48, p), (40, w.toNat % 256)]]

/-- A transmit ring stops (R328). -/
def stopTx (s : State) (p r : Nat) : State :=
  ringStopped (modFhPort s p fun x => { x with tx := tmod {} x.tx r fun t =>
    { t with ring := { t.ring with stopped := true } } }) (tget {} (fhPort s p).tx r).sleeve p

/-- A transmit entry written back (R313): STATUS by its code, DONE, READY 0 and the timestamp, network time in
units of 2^−32 ns, or 0. -/
def writeBackCode (s : State) (p r addr st ts : Nat) : State :=
  let i := ringIssuer (tget {} (fhPort s p).tx r).sleeve
  let wait (s : State) : State := park s addr 32 (.txBack p r addr st ts)
  match devRead s i addr 32 with
  | .error .wait => wait s
  | .error _ => stopTx s p r
  | .ok bs =>
    let w0 := pack 64 [(45, fld (leW64 bs) 63 45), (29, st), (2, fld (leW64 bs) 28 2), (1, 1)]
    let w3 := leW64 (bs.drop 24)
    let words := [w0, leW64 (bs.drop 8), w64 (ts / 2 ^ 32),
      pack 64 [(48, ts / 2 ^ 16 % 2 ^ 16), (0, fld w3 47 0)]]
    match devWrite s i .wr addr (bytesOf words) with
    | .ok s' => s'
    | .error .wait => wait s
    | .error _ => stopTx s p r

/-- A transmit entry written back with a status (R313). -/
def writeBack (s : State) (p r addr : Nat) (st : Status) (ts : Nat) : State :=
  writeBackCode s p r addr (statusCode st) ts

/-- The receive ring that a flow number names (R304, R305, R308): a flow entry's, 512 the timing ring, 513 the
radio control ring; with the sleeve that owns it. -/
def rxRing (x : FhPort) (flow : Nat) : Nat × PortRing :=
  if flow = 512 then (0, x.timingRx)
  else if flow = 513 then (0, x.controlRx)
  else
    let f := tget {} x.flows flow
    let w := wd f.words 4
    (fld (wd f.words 0) 62 57, { addr := fld w 47 0, entries := fld w 63 52 + 1, pos := f.pos
                                 stopped := f.stopped })

/-- Position and stop of a receive ring. -/
def setRx (s : State) (p flow pos : Nat) (stopped : Bool) : State :=
  modFhPort s p fun x =>
    if flow = 512 then { x with timingRx := { x.timingRx with pos := pos, stopped := stopped } }
    else if flow = 513 then { x with controlRx := { x.controlRx with pos := pos, stopped := stopped } }
    else { x with flows := tmod {} x.flows flow fun f => { f with pos := pos, stopped := stopped } }

/-- An accepted frame written into its receive ring (R308, R328): `frame` without its FCS, `time` in units of
2^−32 ns. -/
def deliver (s : State) (p flow colour : Nat) (frame : List Byte) (time : Nat) : State :=
  let (k, r) := rxRing (fhPort s p) flow
  let i := ringIssuer k
  let at0 := r.addr + 32 * r.pos
  let stop (s : State) : State := ringStopped (setRx s p flow r.pos true) k p
  if r.entries = 0 || r.stopped then fhCount s p (if flow = 512 then 11 else 4)
  else match devRead s i at0 32 with
    | .error .wait => park s at0 32 (.rxFrame p flow colour frame time)
    | .error _ => stop s
    | .ok bs =>
      let w0 := leW64 bs
      let buf := fld w0 47 0
      if bitOf (leW64 (bs.drop 8)) 0 then fhCount s p (if flow = 512 then 11 else 4)
      else match devWrite s i .wr buf frame with
        | .error .wait => park s buf frame.length (.rxFrame p flow colour frame time)
        | .error _ => stop s
        | .ok s1 =>
          let words := [w64 buf,
            pack 64 [(48, frame.length), (46, colour), (37, if flow < 512 then flow else 0), (0, 1)],
            w64 (time / 2 ^ 32), pack 64 [(48, time / 2 ^ 16 % 2 ^ 16)]]
          match devWrite s1 i .wr at0 (bytesOf words) with
          | .error .wait => park s at0 32 (.rxFrame p flow colour frame time)
          | .error _ => stop s
          | .ok s2 =>
            modSleeve (setRx s2 p flow ((r.pos + 1) % r.entries) false) k fun v => { v with
              acct := { v.acct with bytesDma := v.acct.bytesDma + w64 frame.length } }

/-- A DL symbol that is not sent (R252, R309): its bit in MISSED_SYMBOLS of the slot job. -/
def missSymbol (s : State) (m : Nat × Nat × Nat × Nat) : State :=
  modRadDie s (cDie (cell s m.1).record) fun x => { x with jobs := x.jobs.map fun j =>
    if j.dir == 1 && j.cell == m.1 && j.frame == m.2.1 && j.slot == m.2.2.1 then
      { j with missed := j.missed ||| 2 ^ m.2.2.2 } else j }

/-- A queued frame that will not be sent: its entry is written back with a status, or its symbol is
missed. -/
def failEgress (s : State) (p : Nat) (st : Status) (f : EgFrame) : State :=
  let s := match f.entry with
    | some (r, addr) => writeBack s p r addr st 0
    | none => s
  match f.symbol with
  | some m => missSymbol s m
  | none => s

/-! ### Links -/

/-- A fronthaul port goes down (R302): its cells stop at once, and none that was to start there does without a new
CELL_START; radio capacity lost is reported, queued egress completes with TARGET_LOST, PORT_DOWNS counts. -/
def fhPortDown (s : State) (p : Nat) : State :=
  let before := pointsMax s (p / 2)
  let s := stopCells s fun x => cFhPort x.record == p
  let frames := (fhPort s p).queues.flatMap (·.2)
  let s := modFhPort s p fun x => { x with
    up := false, degraded := false, lanes := 0, low := [], retraining := false, restoring := false
    queues := [], deficits := [], turn := 3, turnPaid := false }
  let s := frames.foldl (fun s f => failEgress s p .targetLost f) s
  let s := portEvent (fhCount s p 10) 1 (fhDie p) p 2
  capacityLost s (p / 2) before (pointsMax s (p / 2))

/-- A port runs on all four lanes (R303, R327). -/
def fhLinkUp (s : State) (p : Nat) : State :=
  modFhPort s p fun x => { x with
    up := true, degraded := false, dropped := 0, lanes := 15, low := [], retraining := false, restoring := false }

/-- The seeds of the whitening registers (R331): 0x7FFF_FFFF XOR (l + 1). -/
def whiteningSeeds : List (BitVec 31) :=
  (List.range 4).map fun l => (0x7FFFFFFF : BitVec 31) ^^^ BitVec.ofNat 31 (l + 1)

/-- One bit of the whitening sequence, with the register after it (R331): s(n) = s(n − 28) XOR s(n − 31), the newest bit
in bit 0. -/
def whiteningBit (r : BitVec 31) : Bool × BitVec 31 :=
  let b := xor (bitOf r 27) (bitOf r 30)
  (b, BitVec.ofNat 31 (r.toNat * 2 + b2n b))

/-- The bits of a line whitened (R331), and the receiver's removal of it. -/
def whiten : BitVec 31 → List Bool → List Bool
  | _, [] => []
  | r, d :: ds => xor d (whiteningBit r).1 :: whiten (whiteningBit r).2 ds

/-- A Voravatra port runs on all four lanes, whitening seeded (R331). -/
def vfLinkUp (s : State) (p : Nat) : State :=
  modVfPort s p fun x => { x with
    up := true, degraded := false, dropped := 0, lanes := 15, low := [], replay := none
    whitening := whiteningSeeds }

/-- Links at boot (R327 step 2, R330): every port trains on four lanes; the ports of a die with a die-level
fault stay down. -/
def portsBoot (s : State) : State :=
  let s := (List.range 4).foldl (fun s p =>
    if s.hlt.hr.dies.contains (fhDie p) then s else fhLinkUp s p) s
  (List.range 16).foldl (fun s p =>
    if s.hlt.hr.dies.contains (6 + p / 8) then s else vfLinkUp s p) s

/-- SLEEVE_REMOVE clears every flow entry of the sleeve (R306); the byte counters stay (R307). -/
def clearFlows (s : State) (k : Nat) : State :=
  (List.range 4).foldl (fun s p => modFhPort s p fun x => { x with
    flows := ((x.flows.filter fun e => fld (wd e.2.words 0) 62 57 == k).map (·.1)).foldl (fun t n =>
      tmod {} t n fun f => { green := f.green, yellow := f.yellow, red := f.red }) x.flows }) s

/-! ### Gates (R310–R312) -/

/-- The entry of a list that holds at an offset in its cycle, and what is left of it [ns]. -/
def gateWalk : List (Nat × Nat) → Nat → Nat → Nat × Nat
  | [], _, _ => (0, 0)
  | e :: rest, off, i => if off < e.2 then (i, e.2 - off) else gateWalk rest (off - e.2) (i + 1)

/-- The entry of a list at a network time [ns], and what is left of it. -/
def gateAtTime (g : GateList) (ns : Nat) : Nat × Nat :=
  gateWalk g.entries (((ns : Int) - g.base) % g.cycle).toNat 0

/-- The gate of a queue is open in an entry's GATES. -/
def gateBit (gates q : Nat) : Bool := gates / 2 ^ q % 2 == 1

/-- The first closing of a queue's gate from a time on, along entries with their remaining lengths. -/
def closeWalk (q : Nat) : List (Nat × Nat) → Nat → Option Nat
  | [], _ => none
  | e :: rest, t => if gateBit e.1 q then closeWalk q rest (t + e.2) else some t

/-- The next closing of a queue's gate in a list, from a network time on [ns]. -/
def nextClose (g : GateList) (q ns : Nat) : Option Nat :=
  let (i, left) := gateAtTime g ns
  closeWalk q (((g.entries.getD i (0, 0)).1, left) :: (g.entries.drop (i + 1) ++ g.entries.take i)) ns

/-- The closing that the hem looks at (R311, R312): in the active list, or in the pending one where that comes
into force before. -/
def hemClose (x : FhPort) (q ns : Nat) : Option Nat :=
  match nextClose x.gates q ns, x.pending with
  | c, none => c
  | some c, some g => if c < g.base then some c else nextClose g q (Nat.max ns g.base)
  | none, some g => nextClose g q (Nat.max ns g.base)

/-- The longest open interval of a queue's gate in a list; none: it never closes (R312). -/
def longestOpen (g : GateList) (q : Nat) : Option Nat :=
  if g.entries.all fun e => gateBit e.1 q then none
  else
    let r := (g.entries ++ g.entries).foldl (fun (a : Nat × Nat) e =>
      let run := if gateBit e.1 q then a.1 + e.2 else 0
      (run, Nat.max a.2 run)) (0, 0)
    some r.2

/-- The entry in force takes its position from network time (R310, R319). -/
def gateNow (s : State) (p : Nat) : State :=
  modFhPort s p fun x => { x with gateAt := (gateAtTime x.gates (networkNs s)).1 }

end Sys2Proof.Machine
end

