-- ==== Sys2Proof/Machine/Hss.lean ====
section
/-! DEFINITION. HSS signatures under RFC 8554 with LMS_SHA256_M32_H20 and LMOTS_SHA256_N32_W4: how the FL8
checks fitting sets, images and key changes (R167, R425). -/

namespace Sys2Proof.Machine

/-- Typecodes of the two parameter sets: LMOTS_SHA256_N32_W4 and LMS_SHA256_M32_H20. -/
def otsType : Nat := 3
def lmsType : Nat := 8

/-- Lengths in bytes: a one-time signature of 67 chains, a tree signature of height 20, a tree's public key. -/
def otsLen : Nat := 4 + 32 + 67 * 32
def lmsLen : Nat := 4 + otsLen + 4 + 20 * 32
def lmsKeyLen : Nat := 4 + 4 + 16 + 32

/-- The 67 chain values that stand for a message digest: its 64 nibbles, high one first, and three of the checksum. -/
def otsDigits (q : List Byte) : List Nat :=
  let ds := q.flatMap fun b => [b.toNat / 16, b.toNat % 16]
  let c := (ds.map fun d => 15 - d).sum
  ds ++ [c / 256 % 16, c / 16 % 16, c % 16]

/-- A chain of hashes from position `from0` over n steps. -/
def otsChain (who : List Byte) (i : Nat) : Nat → Nat → List Byte → List Byte
  | 0, _, v => v
  | n + 1, j, v => otsChain who i n (j + 1) (sha256 (who ++ beBytes 2 i ++ beBytes 1 j ++ v))

/-- The one-time public key that a signature gives of a message; `who` names tree and leaf. -/
def otsKey (who sig msg : List Byte) : List Byte :=
  let c := (sig.drop 4).take 32
  let ds := otsDigits (sha256 (who ++ beBytes 2 0x8181 ++ c ++ msg))
  sha256 (who ++ beBytes 2 0x8080 ++ (ds.zip (List.range 67)).flatMap fun d =>
    otsChain who d.2 (15 - d.1) d.1 ((sig.drop (36 + 32 * d.2)).take 32))

/-- The root that a path of nodes leads to from node `node`. -/
def lmsRoot (tree : List Byte) : Nat → Nat → List Byte → List Byte → List Byte
  | 0, _, _, v => v
  | h + 1, node, path, v =>
    let other := path.take 32
    lmsRoot tree h (node / 2) (path.drop 32) (sha256 (tree ++ beBytes 4 (node / 2) ++ beBytes 2 0x8383 ++
      if node % 2 = 1 then other ++ v else v ++ other))

/-- A tree's public key: typecodes, identifier, root. -/
def lmsKeyOk (key : List Byte) : Bool :=
  key.length == lmsKeyLen && beNat (key.take 4) == lmsType && beNat ((key.drop 4).take 4) == otsType

/-- A tree signature of a message verifies under a tree's public key. -/
def lmsVerify (key msg sig : List Byte) : Bool :=
  let tree := (key.drop 8).take 16
  let q := beNat (sig.take 4)
  let ots := (sig.drop 4).take otsLen
  let rest := sig.drop (4 + otsLen)
  lmsKeyOk key && sig.length == lmsLen && beNat (ots.take 4) == otsType && beNat (rest.take 4) == lmsType &&
  q < 2 ^ 20 &&
  (let leaf := sha256 (tree ++ beBytes 4 (2 ^ 20 + q) ++ beBytes 2 0x8282 ++
      otsKey (tree ++ beBytes 4 q) ots msg)
   lmsRoot tree 20 (2 ^ 20 + q) (rest.drop 4) leaf == (key.drop 24).take 32)

/-- The signed public keys of an HSS signature in order, then the message under the last tree. `n` counts them. -/
def hssLevels (msg : List Byte) : Nat → List Byte → List Byte → Bool
  | 0, key, sig => lmsVerify key msg sig
  | n + 1, key, sig =>
    let next := (sig.drop lmsLen).take lmsKeyLen
    lmsVerify key next (sig.take lmsLen) && hssLevels msg n next (sig.drop (lmsLen + lmsKeyLen))

/-- An HSS signature of a message verifies under a key of 60 bytes (R167, RFC 8554 section 6.3). -/
def hssVerify (key msg sig : List Byte) : Bool :=
  let levels := beNat (key.take 4)
  key.length == 60 && beNat (sig.take 4) + 1 == levels && (levels == 1 || levels == 2) &&
  hssLevels msg (levels - 1) (key.drop 4) (sig.drop 4)

end Sys2Proof.Machine
end

