-- ==== Sys2Proof/Machine/Operands.lean ====
section
/-! DEFINITION. Operands of Tacor commands: the parties and their rights (R369), arguments and results
in the one encoding of R372, address arguments, completion on every path (R371, R217, R386, R357),
and `serve`, the frame in which every Tacor command runs. -/

namespace Sys2Proof.Machine

/-- The parties that reach Tacor (R369). -/
inductive Party where
  | manager | bmc | fabric | radio | tenant (sleeve : Nat)
  deriving DecidableEq, Repr

/-- The party of a path (R369). -/
def partyOf : Src → Party
  | .mailbox w _ => if w = 0 then .manager else if w = 64 then .radio else .tenant w
  | .subq k _ => .tenant k
  | .sideband _ => .bmc
  | .fabric _ _ _ => .fabric

/-- The path exists: windows 0–64 with slots 0–14, sleeves 1–63 (R361, R370), CONTROL packets from FM_DEV
on a management port of a configured device (R335, R357). -/
def srcExists (s : State) : Src → Bool
  | .mailbox w i => w ≤ 64 && i ≤ 14
  | .subq k _ => 1 ≤ k && k ≤ 63
  | .sideband _ => true
  | .fabric p d _ => p ≤ 15 && s.fab.configured && d == s.fab.fmDev && s.fab.mgmt / 2 ^ p % 2 == 1

def isManager (p : Party) : Bool := p == .manager
def isMgmt (p : Party) : Bool := p == .manager || p == .bmc
def isRadio (p : Party) : Bool := p == .radio
def isMgrRadio (p : Party) : Bool := p == .manager || p == .radio
def isMgmtRadio (p : Party) : Bool := isMgmt p || p == .radio
/-- Tenants, the manager and the BMC. -/
def isSleeveUser : Party → Bool
  | .tenant _ => true
  | p => isMgmt p

/-- Words of the path's argument space (R372 rule 1). -/
def argSpace : Src → Nat
  | .mailbox _ _ => 30 | .subq _ _ => 15 | .sideband _ => 504 | .fabric _ _ _ => 504

/-- Words of the path's result space (R372 rule 8). -/
def resultSpace : Src → Nat
  | .mailbox _ _ => 30 | .subq _ _ => 3 | .sideband _ => 504 | .fabric _ _ _ => 504

/-- Argument word i. -/
def arg (c : Cmd) (i : Nat) : W64 := wd c.args i
/-- Argument word i as a number. -/
def argN (c : Cmd) (i : Nat) : Nat := (arg c i).toNat

/-- The status of a code (R376). -/
def statusOf (code : Nat) : Status :=
  ([.ok, .busy, .badField, .denied, .noSpace, .notQuiesced, .targetLost, .staleGeneration, .checkFailed, .undecided,
    .fenced, .timeout, .stepRefused, .unsigned, .rollback] : List Status).getD code .ok

/-- What a failed check of an address argument answers (R32, R160, R369). BUSY stands for a page in move, for which the
command waits (`Answer.ofArg`). -/
def barStatus : Bar → Status
  | .denied => .denied | .stale => .staleGeneration | .wait => .busy | .badEntry => .denied
  | .entryEcc => .denied | .dataEcc => .checkFailed

/-- The issuer as which a party's device address is checked (R369). A tenant's command belongs to no
job: SHARED pages only. -/
def partyIssuer : Party → Issuer
  | .tenant k => { sleeve := k, sharedOnly := true }
  | _ => { sleeve := 0 }

/-- An address argument names host memory (R369). -/
def isHostAddr (a : W64) : Bool := bitOf a 63

/-- The host address or device address of an address argument. -/
def addrOf (a : W64) : Nat := a.toNat % 2 ^ 63

/-- The check of an address argument for a range of bytes and an access kind (R369). With the CXL link down
every argument that names host memory is TARGET_LOST (R367). -/
def checkArg (s : State) (p : Party) (k : Kind) (a : W64) (len : Nat) : Option Status :=
  match p with
  | .tenant t =>
    if isHostAddr a then
      if !s.mgt.cxlUp then some .targetLost
      else if !inHostRange (sleeve s t) (addrOf a) len then some .denied
      else if !hostReachable s then some .denied else none
    else (checkRange s (partyIssuer p) k (addrOf a) len).map barStatus
  | .radio => (checkRange s (partyIssuer p) k a.toNat len).map barStatus
  | _ =>
    if isHostAddr a then
      if !s.mgt.cxlUp then some .targetLost
      else if s.mgt.stageBase == 0 then some .badField
      else if !(s.mgt.stageBase.toNat ≤ addrOf a &&
          addrOf a + len ≤ s.mgt.stageBase.toNat + s.mgt.stageLen.toNat) then some .denied
      else none
    else if !inWindow (addrOf a) len then some .denied
    else if (pagesOf (addrOf a) len).any (fun q => (pageHome s q).1 == 0) then some .denied
    else none

/-- The bytes of an address argument (R369): `host` is what host memory holds there. -/
def readArg (s : State) (p : Party) (host : List Byte) (a : W64) (len : Nat) :
    Except Status (List Byte) :=
  match checkArg s p .rd a len with
  | some st => .error st
  | none =>
    if isHostAddr a && p != .radio then .ok ((host ++ List.replicate len 0).take len)
    else if windowEcc s (addrOf a) len then .error .checkFailed
    else .ok (windowRead s (addrOf a) len)

/-- The read of an address argument is counted where it is one of a tenant's host memory (R226). -/
def argRead (s : State) (p : Party) (a : W64) (len : Nat) : State :=
  match p with
  | .tenant k => if isHostAddr a then hostRead s k (addrOf a) len else s
  | _ => s

/-- Bytes written at an address argument (R369). -/
def writeArg (s : State) (p : Party) (a : W64) (bytes : List Byte) : Except Status State :=
  match checkArg s p .wr a bytes.length with
  | some st => .error st
  | none =>
    if isHostAddr a && p != .radio then
      match p with
      | .tenant t => .ok (hostWrite s t (addrOf a) bytes)
      | _ => .ok (emit s (.hostWrite 0 none (addrOf a) bytes))
    else if windowPartial s (addrOf a) bytes.length then .error .checkFailed
    else .ok (windowWrite s (addrOf a) bytes)

/-- The result reaches the issuer (R371 step 4, R217, R386, R357), and the command leaves its queue. -/
def finish (s : State) (src : Src) (op : Nat) (st : Status) (res : List W64) : State :=
  let s := { s with mgt := { s.mgt with accepted := s.mgt.accepted.filter (·.src != src) } }
  match src with
  | .mailbox w i =>
    let m := mslot s w i
    let s := setMslot s w i { m with
      opcode := op, status := statusCode st, state := 3, args := res ++ m.args.drop res.length }
    if w = 0 then msix s 0
    else if w = 64 then dicMessage s 0 129
    else if (sleeve s w).intMask % 2 == 1 then s else msix s (30 + 2 * w)
  | .subq k tag => postCq s k tag (statusCode st) res
  | .sideband tag => emit s (.sideband tag (statusCode st) res)
  | .fabric p d tag => emit s (.fabricReply p d tag (statusCode st) res)

/-- The journal entry of a command that has been applied and waits (R368, R377 step 4). -/
def journal (s : State) (src : Src) (op : Nat) : State :=
  { s with mgt := { s.mgt with
      accepted := s.mgt.accepted.filter (·.src != src) ++
        [{ src := src, opcode := op, raw := now s, waiting := true }] } }

/-- Completion with the result at its place: in the path's space, or at the result address
(R372 rule 8); a result address in a page in move is waited for (R31). -/
def complete (s : State) (src : Src) (op : Nat) (resAddr : W64) (st : Status)
    (res : List W64) : State :=
  if res.length ≤ resultSpace src then finish s src op st res
  else if resAddr == 0 then finish s src op .noSpace (res.take (resultSpace src))
  else match writeArg s (partyOf src) resAddr (bytesOf res) with
    | .ok s' => finish s' src op st []
    | .error .busy => park (journal s src op) (addrOf resAddr) (8 * res.length) (.result src op resAddr (statusCode st) res)
    | .error e => finish s src op e []

/-- Microseconds in raw ticks (156.25 per µs). -/
def usTicks (us : Nat) : Nat := us * 625 / 4

/-- What a command's rules answer. -/
inductive Answer where
  /-- Done, with the result words. -/
  | ok (s : State) (res : List W64)
  /-- Refused: nothing changed. -/
  | fail (st : Status)
  /-- Ended with a status that is not OK after some effect. -/
  | failIn (s : State) (st : Status) (res : List W64)
  /-- An address argument lies in a page in move: the command waits, without effect (R31 condition 4). -/
  | wait (addr len : Nat)
  /-- Applied, with its journal entry standing; it completes at once or later, when its condition is met. -/
  | defer (f : State → State)

/-- What a command answers whose address argument fails its check: a page in move is waited for. -/
def Answer.ofArg (a : W64) (len : Nat) : Status → Answer
  | .busy => .wait (addrOf a) len
  | st => .fail st

/-- A refusal after a read keeps what the read counted. -/
def Answer.keeping (s : State) : Answer → Answer
  | .fail st => .failIn s st []
  | a => a

/-- The commands a QUIESCING or QUIESCED sleeve may still issue (R219). -/
def quiesceAllowed (op : Nat) : Bool := op == 0x181 || op == 0x186 || op == 0x107 || op == 0x10F

/-- Commands of a queue accepted and not completed (R369, R370). -/
def queued (s : State) (p : Party) : Nat := (s.mgt.accepted.filter fun a => partyOf a.src == p).length

/-- Commands of a queue accepted and not completed as a command of that queue that is being served sees them:
itself among them (R369, R370). -/
def queuedWith (s : State) (src : Src) (p : Party) : Nat :=
  queued s p + if partyOf src == p && !(s.mgt.accepted.any (·.src == src)) then 1 else 0

/-- The queue of a path is full for a command that is not yet accepted (R369, R371 step 2, R374). An entry of a
submission queue is met when it is fetched (R216). -/
def queueFull (s : State) (src : Src) : Bool :=
  (match src with | .subq _ _ => false | _ => true) && 32 < queuedWith s src (partyOf src)

/-- What meets a command before its own rules: a full queue (R371), the state of the issuing sleeve (R206, R219), the
issuer's rights (R369), and the argument list (R372 rule 9). -/
def gate (op argc : Nat) (allow : Party → Bool) (c : Cmd) (s : State) : Option Status :=
  let p := partyOf c.src
  let sl : Option Status := match p with
    | .tenant k =>
      match (sleeve s k).st with
      | .absent => some .denied
      | .resetting => some .busy
      | .removing => some .busy
      | .quiescing => if quiesceAllowed op then none else some .busy
      | .quiesced => if quiesceAllowed op then none else some .busy
      | .active => none
    | _ => none
  if queueFull s c.src then some .busy
  else match sl with
  | some st => some st
  | none =>
    if !allow p then some .denied
    else if c.args.length < argc || c.args.length > argSpace c.src then some .badField
    else if (c.args.drop (argc + 1)).any (· != 0) then some .badField
    else none

/-- The end of a command that waited: it has the opcode of its journal entry. -/
def finishLater (s : State) (src : Src) (st : Status) (res : List W64) : State :=
  let op := ((s.mgt.accepted.find? (·.src == src)).map (·.opcode)).getD 0
  complete s src op 0 st res

/-- A command that waits with nothing done stays accepted (R31, R371). -/
def acceptStill (s : State) (src : Src) (op : Nat) : State :=
  if s.mgt.accepted.any (·.src == src) then s
  else { s with mgt := { s.mgt with accepted := s.mgt.accepted ++ [{ src := src, opcode := op, raw := now s }] } }

/-- Class 3 opcodes (R373). -/
def isTelemetry (op : Nat) : Bool :=
  [0x000, 0x003, 0x005, 0x007, 0x207, 0x283, 0x301, 0x305, 0x385, 0x406].contains op

/-- Class of a command (R373). -/
def commandClass (op : Nat) : Nat :=
  if isTelemetry op then 3
  else if (0x200 ≤ op && op ≤ 0x27F) || (0x387 ≤ op && op ≤ 0x389) then 0
  else if op == 0x404 || op == 0x405 || (0x480 ≤ op && op ≤ 0x4FF) then 1 else 2

/-- An accepted command that has been taken up: it waits for its condition, or for a page in move. -/
def takenUp (s : State) (a : Accepted) : Bool :=
  a.waiting || s.pkg.waiters.any fun w => match w.2 with | .tacor _ c => c.src == a.src | _ => false

/-- A command of the same queue and class that was accepted before this one has not been taken up: it comes first
(R216, R371 step 3, R373). -/
def behind (s : State) (src : Src) (op : Nat) : Bool :=
  (s.mgt.accepted.takeWhile (·.src != src)).any fun a =>
    partyOf a.src == partyOf src && commandClass a.opcode == commandClass op && !takenUp s a

/-- A Tacor command served: opcode, number of argument words, rights, and the command's own rules. One whose turn in
its queue has not come changes nothing yet. -/
def serve (op argc : Nat) (allow : Party → Bool) (c : Cmd) (s : State)
    (body : Party → State → Answer) : State :=
  if s.boot.phase == .held || !srcExists s c.src then s
  else if s.mgt.tacor != 1 then
    match c.src with
    | .sideband tag => emit s (.pldm tag [4])
    | .subq _ _ => s
    | src => finish s src op .busy []
  else if behind s c.src op then s
  else match gate op argc allow c s with
    | some st => finish s c.src op st []
    | none => match body (partyOf c.src) s with
      | .ok s' res => complete s' c.src op (arg c argc) .ok res
      | .fail st => finish s c.src op st []
      | .failIn s' st res => complete s' c.src op (arg c argc) st res
      | .wait a len => park (acceptStill s c.src op) a len (.tacor op c)
      | .defer f => f (journal s c.src op)

/-- The first failing check of a list decides the status. -/
def firstFail : List (Bool × Status) → Option Status
  | [] => none
  | (bad, st) :: r => if bad then some st else firstFail r

/-- A command's rules as a list of checks followed by its effect. -/
def checked (checks : List (Bool × Status)) (k : Answer) : Answer :=
  match firstFail checks with
  | some st => .fail st
  | none => k

end Sys2Proof.Machine
end

