-- ==== Sys2Proof/Machine/Lifecycle.lean ====
section
/-! DEFINITION. What faults, fences, teardowns and resets do, once for every command that causes one:
pages and frames (R30, R211, R212), completion records (R191, R163, R164), teardown (R198), sleeve
reset and removal (R221, R222), strikes, fences and holds (R153–R155, R411–R414), the health score
(R415, R416), die faults (R406) and the device reset (R401, R407). -/

namespace Sys2Proof.Machine

/-! ### Pages and frames -/

/-- Frames of a kind in service, in allocation order, as runs of (first FRAME number, count): kind 0
bonded DRAM, kind 1 edge LPDDR6 without the reserved frames of R35. -/
def frameRuns (s : State) (kind : Nat) : List (Nat × Nat) :=
  if kind = 0 then
    (List.range 4).filterMap fun d =>
      if s.pkg.bondedOk.getD d false then some (d * 2 ^ 22, 1310720) else none
  else
    [(2 * 2 ^ 22 + 4096, s.pkg.density.getD 2 0 * 262144 - 4096),
      (3 * 2 ^ 22, s.pkg.density.getD 3 0 * 262144)]

/-- LOC code of a page kind (R29, R211). -/
def kindLoc (kind : Nat) : Nat := kind + 1

/-- Frame number i of the runs. -/
def nthFrame : List (Nat × Nat) → Nat → Option Nat
  | [], _ => none
  | (b, n) :: r, i => if i < n then some (b + i) else nthFrame r (i - n)

/-- Frames that back a valid page or a page in move, or are retired (R30). -/
def usedFrames (s : State) : List Nat :=
  s.pkg.retired ++ s.pkg.moves.flatMap (fun m =>
    [frameKey m.loc m.frame, frameKey m.oldLoc m.oldFrame]) ++
  s.pkg.owner.filterMap fun e =>
    if ownValid e.2 && ownLoc e.2 != 0 then some (frameKey (ownLoc e.2) (ownFrame e.2)) else none

/-- The lowest n free frames of a kind, from candidate i on, within `fuel` candidates. -/
def findFrames (runs : List (Nat × Nat)) (loc : Nat) (used : List Nat) :
    Nat → Nat → Nat → List Nat
  | 0, _, _ => []
  | _, 0, _ => []
  | fuel + 1, n + 1, i =>
    match nthFrame runs i with
    | none => []
    | some f =>
      if used.contains (frameKey loc f) then findFrames runs loc used fuel (n + 1) (i + 1)
      else f :: findFrames runs loc used fuel n (i + 1)

/-- n free frames of a kind; fewer when the kind has no more. -/
def freeFrames (s : State) (kind n : Nat) : List Nat :=
  findFrames (frameRuns s kind) (kindLoc kind) (usedFrames s) (n + (usedFrames s).length) n 0

/-- Page numbers in use: every valid entry, and pages kept out of service. -/
def usedPages (s : State) : List Nat := (s.pkg.owner.map (·.1)) ++ s.pkg.ownerEcc

/-- The lowest n page numbers not in use. -/
def findPages (used : List Nat) : Nat → Nat → Nat → List Nat
  | 0, _, _ => []
  | _, 0, _ => []
  | fuel + 1, n + 1, i =>
    if used.contains i then findPages used fuel (n + 1) (i + 1)
    else i :: findPages used fuel n (i + 1)

def freePages (s : State) (n : Nat) : List Nat :=
  (findPages (usedPages s) (n + (usedPages s).length) n 0).filter (· < 24 * 2 ^ 20)

/-- One page backed by a zeroed frame and given to a sleeve (R29, R211, R212). -/
def givePage (s : State) (k : Nat) (own : Option (Nat × Nat)) (kind perms page frame : Nat) :
    State :=
  let s := physZero s (frameBase (kindLoc kind) frame) 65536
  let s := setOwn s page (ownPack k (own.map (·.1) |>.getD 0) (own.map (·.2) |>.getD 0) perms false
    (kindLoc kind) own.isNone frame)
  modSleeve s k fun v => { v with
    pages := v.pages ++ [{ page := page, kind := kind, perms := perms, job := own.map (·.1) }] }

/-- Pages of a kind that a sleeve holds (R211). -/
def heldPages (v : Sleeve) (kind : Nat) : Nat := (v.pages.filter (·.kind == kind)).length

/-- Quota of a kind (R209). -/
def quota (v : Sleeve) (kind : Nat) : Nat :=
  if kind = 0 then fld (wd v.record 1) 63 40 else fld (wd v.record 1) 39 16

/-- n pages taken whole, or none (R211): sleeve pages when `own` is none, job pages otherwise. -/
def takePages (s : State) (k : Nat) (own : Option (Nat × Nat)) (kind perms n : Nat) :
    Option (State × List Nat) :=
  let ps := freePages s n
  let fs := freeFrames s kind n
  if heldPages (sleeve s k) kind + n > quota (sleeve s k) kind || ps.length < n || fs.length < n
  then none
  else some ((ps.zip fs).foldl (fun s pf => givePage s k own kind perms pf.1 pf.2) s, ps)

/-- A frame leaves a page: zeroed, and retired when a scrub asked for it (R160, R212). -/
def dropFrame (s : State) (loc frame : Nat) : State :=
  let s := physZero s (frameBase loc frame) 65536
  let key := frameKey loc frame
  if s.pkg.retireLater.contains key then
    { s with pkg := { s.pkg with
        retired := s.pkg.retired ++ [key]
        retireLater := s.pkg.retireLater.filter (· != key) } }
  else s

/-- A page of a sleeve is freed (R211, R212, R33); its move ends with it. -/
def dropPage (s : State) (k page : Nat) : State :=
  let f := pageHome s page
  let s := if f.1 == 0 then s else dropFrame s f.1 f.2
  let s := { s with pkg := { s.pkg with moves := s.pkg.moves.filter fun m => m.page != page } }
  modSleeve (setOwn s page 0) k fun v => { v with pages := v.pages.filter (·.page != page) }

def dropPages (s : State) (k : Nat) (ps : List Nat) : State := ps.foldl (fun s p => dropPage s k p) s

/-- A page starts to move to a free frame of a kind of memory (R34): LOC reads 0b00 until the copy is done. Without a
free frame it stays where it is. -/
def startMove (s : State) (page loc frame dest : Nat) : State :=
  match (freeFrames s (dest - 1) 1).head? with
  | none => s
  | some f =>
    { s with pkg := { s.pkg with
        moves := s.pkg.moves ++
          [{ page := page, loc := dest, frame := f, oldLoc := loc, oldFrame := frame }]
        owner := tmod 0 s.pkg.owner page fun w => w &&& ~~~((3 : W64) <<< 30)
        movesOwed := s.pkg.movesOwed.filter (· != frameKey loc frame) } }

/-! ### Completion records -/

/-- Sticky saturation of the five counters, DISCARDS in bit 4 (R191). -/
def satBits (c : Counters) : Nat :=
  b2n c.discards.sat * 16 + b2n c.overflows.sat * 8 + b2n c.nanToNumber.sat * 4 +
  b2n c.windowed.sat * 2 + b2n c.choices.sat

/-- W3–W9 of R191 for a record of KIND 0, 1, 2 or 4. -/
def counterWords (c : Counters) : List W64 :=
  [pack 64 [(32, c.discards.count), (0, c.overflows.count)],
   pack 64 [(32, c.nanToNumber.count), (0, c.windowed.count)],
   pack 64 [(32, c.choices.count), (0, satBits c)],
   c.beats, c.bytes, c.energy,
   pack 64 [(32, c.misses.count), (31, b2n c.misses.sat), (30, b2n c.estimated)]]

/-- W0 of a record (R191). -/
def recHead (j : Job) (h gen kind status : Nat) : W64 :=
  pack 64 [(48, status), (36, h), (28, gen), (22, j.owner), (19, kind),
    (18, fld (wd j.block 0) 11 11), (16, fld (wd j.block 0) 15 12 % 4)]

/-- The generation that JOB_SUBMIT returned for the job, which its records and JOB_STATUS carry
(notes/assumptions/23.md). -/
def jobGen (j : Job) : Nat := if j.torn then (j.gen + 255) % 256 else j.gen

/-- A record of KIND 0, 1, 2 or 4; FAULT_ADDR and FAULT_UNIT are 0 but for KIND 2 (R191). -/
def recWords (s : State) (j : Job) (h gen kind status step faultAddr faultUnit : Nat) (w11 : W64)
    (digest : List W64) : List W64 :=
  [recHead j h gen kind status, w64 step, s.tim.raw] ++ counterWords j.ctr ++
  [if kind = 2 then pack 64 [(16, faultAddr), (0, faultUnit)] else 0, w11, 0, 0, 0, 0] ++
  (if digest.isEmpty then List.replicate 8 0 else digest)

/-- A sequence-event record, KIND 3 (R191, R193). -/
def seqWords (s : State) (j : Job) (h number event pages : Nat) (w11 : W64) : List W64 :=
  [recHead j h j.gen 3 0, w64 j.step, s.tim.raw,
   pack 64 [(32, number), (24, event), (0, pages % 2 ^ 24)], 0,
   pack 64 [(32, j.ctr.choices.count), (0, satBits j.ctr)]] ++ (counterWords j.ctr).drop 3 ++
  [0, w11] ++ List.replicate 12 0

/-- The byte string cut into 64 KiB chunks (R163). -/
def chunks64k : Nat → List Byte → List (List Byte)
  | 0, _ => []
  | n + 1, bs => if bs.isEmpty then [] else bs.take 65536 :: chunks64k n (bs.drop 65536)

/-- Outputs of a job: device address and byte length of each entry of its output list (R182). -/
def jobOutputs (s : State) (j : Job) : List (Nat × Nat) :=
  (List.range (fld (wd j.header 4) 47 32)).map fun i =>
    let ws := wordsOf 2 (windowRead s (fld (wd j.block 4) 47 0 + 16 * i) 16)
    (fld (wd ws 0) 47 0, (wd ws 1).toNat)

/-- The outputs of a job are read under R31: its output list first, then each range that it gives. -/
def outputsBar (s : State) (j : Job) (i : Issuer) : Option Bar :=
  let list := (fld (wd j.block 4) 47 0, 16 * fld (wd j.header 4) 47 32)
  let bar (o : Nat × Nat) : Option Bar :=
    if o.2 = 0 then none
    else match checkRange s i .rd o.1 o.2 with
      | some b => some b
      | none => if windowEcc s o.1 o.2 then some .dataEcc else none
  match bar list with
  | some b => some b
  | none => (jobOutputs s j).findSome? bar

/-- The CRC list over outputs in order (R163). -/
def crcList : Nat → List (List Byte) → List Byte
  | _, [] => []
  | i, o :: r =>
    let cs := chunks64k (o.length / 65536 + 1) o
    leBytes 4 i ++ leBytes 8 o.length ++ leBytes 4 cs.length ++
      cs.flatMap (fun c => leBytes 8 (crc64 c)) ++ crcList (i + 1) r

/-- The digest block (R164). -/
def digestBlock (lens : List Nat) (withheld written : Bool) (digest : List Byte)
    (listAddr listBytes : Nat) : List W64 :=
  wordsOf 4 digest ++
  [w64 (lens.foldl (· + ·) 0),
   pack 64 [(32, (lens.map fun l => cdiv l 65536).foldl (· + ·) 0), (16, lens.length), (8, 1),
     (1, b2n withheld), (0, b2n written)],
   pack 64 [(0, listAddr)], w64 listBytes]

/-- The digest of a job that has ended (R163, R164): the output list and every output are read, and the CRC list is
written at LIST_ADDR when one is named, each under R31. An access that fails faults the job (R160, R204), and a page in
move is waited for (R31). -/
def jobDigest (s : State) (h : Nat) : Except Bar (State × List W64) :=
  let j := job s h
  let i : Issuer := { sleeve := j.owner, job := h, gen := j.gen }
  let la := fld (wd j.block 5) 47 0
  match outputsBar s j i with
  | some b => .error b
  | none =>
    let outs := jobOutputs s j
    let list := crcList 0 (outs.map fun o => windowRead s o.1 o.2)
    let lens := outs.map (·.2)
    let d := sha256 list
    if la == 0 then .ok (s, digestBlock lens false false d 0 list.length)
    else match devWrite s i .wr la list with
      | .ok s' => .ok (s', digestBlock lens false true d la list.length)
      | .error b => .error b

/-- Address of entry i of a job's completion ring (R182). -/
def complAddr (j : Job) (i : Nat) : Nat := fld (wd j.block 2) 47 0 + 192 * i

/-- The completion ring's posting index moves on (R190). -/
def nextRecord (j : Job) : Job :=
  { j with complTail := (j.complTail + 1) % (fld (wd j.block 2) 63 52 + 1) }

/-- Posting a record to the completion ring (R190, R191): none when the ring is full. An entry is free
when its first word is 0 (notes/assumptions/9.md). -/
def postRecord (s : State) (h : Nat) (record : List W64) : Except Bar (Option State) :=
  let j := job s h
  let i : Issuer := { sleeve := j.owner, job := h, gen := j.gen }
  let a := complAddr j j.complTail
  match devRead s i a 8 with
  | .error b => .error b
  | .ok bs =>
    if leNat bs != 0 then .ok none
    else match devWrite s i .wr a (bytesOf record) with
      | .error b => .error b
      | .ok s' => .ok (some (modJob s' h nextRecord))

/-- A record whose ring entry cannot be written goes to the sleeve's fault queue (R204, R217); an access dropped for its
generation is counted (R32). -/
def postInstead (s : State) (k : Nat) (record : List W64) (b : Bar) : State :=
  postFault (if b == .stale then { s with pkg := { s.pkg with staleGen := s.pkg.staleGen + 1 } } else s) k record

/-- A record at a ring entry that its page's move has kept waiting; to the sleeve's fault queue where it cannot be
posted (R204, R217). -/
def postAt (s : State) (k a : Nat) (record : List W64) : State :=
  let i : Issuer := { sleeve := k }
  match devRead s i a 8 with
  | .error b => postInstead s k record b
  | .ok bs => if leNat bs != 0 then postFault s k record
    else match devWrite s i .wr a (bytesOf record) with
      | .error b => postInstead s k record b
      | .ok s' => s'

/-- The last record of a job: to its ring, once the entry's page is not in move (R31); when the ring is full or
unwritable, to the sleeve's fault queue (R204, R217). -/
def postLast (s : State) (h : Nat) (record : List W64) : State :=
  let j := job s h
  let a := complAddr j j.complTail
  match postRecord s h record with
  | .ok (some s') => s'
  | .ok none => postFault s j.owner record
  | .error .wait => park (modJob s h nextRecord) a 192 (.record j.owner a record)
  | .error b => postInstead s j.owner record b

/-- The page that the job's next record goes to has a bad ownership entry, or one with an uncorrectable word: it faults
the job and resets its sleeve (R32). -/
def ringBad (s : State) (k a : Nat) : Bool :=
  match checkRange s { sleeve := k } .wr a 8 with
  | some .badEntry => true
  | some .entryEcc => true
  | _ => false

/-! ### The health score -/

/-- 2^64 × 2^(−2^k / 604,800), rounded, for k = 0 to 19. -/
def decayTable : List Nat := [
  18446722932338324499, 18446701790991327001, 18446659508370020750, 18446574943418162452,
  18446405814677456453, 18446067561848037075, 18445391074796770725, 18444038175121343085,
  18441332673453433356, 18435922860645626566, 18425107995512355671, 18403497294144690437,
  18360351902875522980, 18274364334997527826, 18103595437429051712, 17766830094921732434,
  17111976528784725301, 15873789951854343339, 13659711785924967835, 10114940898457186594]

/-- Product of the table's factors for the bits of r. -/
def decayBits : List Nat → Nat → Nat → Nat
  | [], _, acc => acc
  | c :: cs, r, acc => decayBits cs (r / 2) (if r % 2 = 1 then (acc * c + 2 ^ 63) / 2 ^ 64 else acc)

/-- 2^64 × d(a) of an age in whole seconds (R415, notes/assumptions/11.md). -/
def decay (a : Nat) : Nat :=
  decayBits decayTable (a % 604800) (2 ^ 64) / 2 ^ (a / 604800)

/-- TAI of the health clock [ns] (R409): network time while the timebase is LOCKED or HOLDOVER, else
the manager's time advanced by the raw counter. -/
def healthClock (s : State) : Option Nat :=
  if s.tim.state ≥ 2 then some (networkNs s)
  else s.hlt.clock.map fun c => c.1 + (now s - c.2) * 32 / 5

/-- Penalties of R415 in the order of its table, in units of 2^−64. -/
def penalties (s : State) : List Nat :=
  let age (t : Nat) := since s t / ticksPerS
  let seedAge (w : W64) := fld w 31 0 + since s s.hlt.seedRaw / ticksPerS
  let strikes (c : Bool) := ((s.lin.strikes.filter (·.confirmed == c)).map fun x =>
      decay (age x.raw)) ++ ((s.hlt.seed.filter (bitOf · 55 == c)).map fun w => decay (seedAge w))
  let entries := (s.hlt.hr.entries.filter (·.counted)).map fun e =>
    match healthClock s, e.stamp with
    | some n, some t => decay ((n - t) / 1000000000)
    | _, _ => decay 0
  let us := List.range 124
  let one := 2 ^ 64
  [60 * (strikes true).foldl (· + ·) 0, 15 * (strikes false).foldl (· + ·) 0,
   40 * entries.foldl (· + ·) 0,
   250 * one * (us.filter fun u => (unitSt s u).fence == .confirmed).length,
   100 * one * (us.filter fun u => (unitSt s u).hold != 0 && !isFenced s u).length,
   700 * one * s.hlt.hr.dies.length]

/-- S of R415, rounded half up and never below 0. -/
def rawScore (s : State) : Nat :=
  let p := (penalties s).foldl (· + ·) 0
  let top := 1000 * 2 ^ 64
  if p ≥ top then 0 else (2 * (top - p) + 2 ^ 64) / 2 ^ 65

/-- Replacement is advised (R416): two units fenced as confirmed, or a die-level fault. -/
def mayAdvise (s : State) : Bool :=
  !s.hlt.hr.dies.isEmpty ||
  ((List.range 124).filter fun u => (unitSt s u).fence == .confirmed).length ≥ 2

/-- Score as reported and level (R416). -/
def scoreLevel (s : State) : Nat × Nat :=
  let v := rawScore s
  if v ≥ 900 then (v, 0) else if v ≥ 700 then (v, 1) else if v ≥ 400 then (v, 2)
  else if mayAdvise s then (v, 3) else (400, 2)

/-- The score recomputed; a change of level writes HEALTH_LEVEL (R415, R416). -/
def refreshHealth (s : State) : State :=
  let sl := scoreLevel s
  let old := s.hlt.level
  let s := { s with hlt := { s.hlt with score := sl.1, level := sl.2 } }
  if sl.2 = old then s else raise s { code := 0x041, severity := 0, d0 := old, d1 := sl.2 }

/-- A change of the health record: at once in the running device, and in the NVM unless writes are
inhibited (R408). -/
def setRec (s : State) (r : HealthRec) : State :=
  let s := { s with hlt := { s.hlt with hr := r } }
  if s.pwr.inhibit then s else { s with nvm := { s.nvm with health := r } }

/-! ### Resets of the device -/

/-- The conditions of R421 and R457 under which the dies leave reset. -/
def releaseOk (s : State) : Bool :=
  s.pins.railsOk && s.pins.refclk && s.pins.cardResetN && !s.pins.thermtrip

/-- A device reset (R401, R407): everything but the NVM and the balls is cleared, after the end cause
is written where one is named and NVM writes are allowed. The commands that wait are the sender's. -/
def deviceReset (s : State) (cause : Option Nat) : State :=
  let nvm := match cause with
    | some c => if s.pwr.inhibit then s.nvm
        else { s.nvm with health := { s.nvm.health with cause := some c } }
    | none => s.nvm
  { State.reset with
    nvm := nvm
    pins := { s.pins with ppsOut := false, jtagBalls := s.pins.jtagBalls }
    boot := { phase := if releaseOk s then .released else .held,
              flash := if s.boot.update.isSome then some [] else s.boot.flash }
    out := if s.mgt.cxlUp then .cxlDown :: s.out else s.out
    freeCount := s.freeCount
    pending := s.pending }

/-! ### Teardown of a job -/

/-- A snapshot in progress is abandoned with a KIND 4 record (R200). -/
def abandonSnap (s : State) (h status : Nat) : State :=
  let j := job s h
  match j.snap with
  | none => s
  | some n =>
    let s := modJob s h fun j => { j with snap := none, holds := j.holds.filter (· != .snapshot) }
    postLast s h (recWords s j h j.gen 4 status (n.taken.getD j.step) 0 0xFFFF 0 [])

/-- A full fitting run of a unit's class is due: what a suspect runs (R151, R400). A run under way gives way to it, and the
indices to run are filled in when it starts. -/
def markSuspect (s : State) (u : Nat) : State :=
  modUnit s u fun x => { x with suspect := true, fitDue := true, fit := none }

/-- One referee of a job that is torn down is abandoned (R151): UNRESOLVED, no strike, and the suspect runs its
fittings; its disagreement is captured without a verdict, unless one has been given (R171). A pass of a unit under
mandatory referee was no disagreement. -/
def abandonDispute (s : State) (d : Dispute) : State :=
  let s := if d.mandatory || d.st == .replay then s else capture s d 0
  let s := markSuspect (zeroReferee s d) d.suspect
  if d.mandatory then s
  else { s with lin := { s.lin with unresolved := s.lin.unresolved ++
    [{ unit := d.suspect, location := d.location, job := d.job, sleeve := d.sleeve, raw := now s }] } }

/-- Referees of a job that is torn down are abandoned (R151). -/
def abandonDisputes (s : State) (h : Nat) : State :=
  let ds := s.lin.disputes.filter fun d => d.job == h && !d.radio
  let s := ds.foldl abandonDispute s
  noteReferees { s with lin := { s.lin with
      disputes := s.lin.disputes.filter fun d => !(d.job == h && !d.radio) } }

/-- A pass of a slot is in flight on its engine. -/
def inFlight (s : State) (e i : Nat) : Bool :=
  (engine s e).pass.any (fun p => p.slot == i) || (engine s e).behind.any fun p => p.slot == i

/-- Slots that hold a context of a job. -/
def jobSlots (s : State) (h : Nat) : List (Nat × Nat) :=
  (job s h).ctxs.filter fun c => (slot s c.1 c.2).valid && (slot s c.1 c.2).job == h

/-- No further pass or descriptor of the job starts (R198 step 2). -/
def stopSlot (s : State) (c : Nat × Nat) : State :=
  let s := modSlot s c.1 c.2 fun x => { x with
    run := none, waiting := none, dma := [], chainOpen := false, refHold := false,
    rerunOwed := false, moveOwed := false, fring := { x.fring with head := x.fring.tail },
    dring := { x.dring with head := x.dring.tail }, ering := { x.ering with head := x.ering.tail } }
  modEngine s c.1 fun e => if e.nextSlot == some c.2 then { e with nextSlot := none } else e

/-- Steps 1 to 3 of a teardown (R198): the generation is bumped, nothing further starts, a snapshot and
the job's referees are abandoned. A job that is FREE or DRAINING is left as it is. -/
def beginTeardown (s : State) (h status kind : Nat) (waiter : Option Src := none) : State :=
  let j := job s h
  if j.st == .free || j.st == .draining then s
  else
    let s := abandonSnap s h (if (job s h).snap.any (·.lost) then statusCode .targetLost else statusCode .notQuiesced)
    let s := abandonDisputes s h
    let s := (jobSlots s h).foldl stopSlot s
    let s := modJob s h fun j => { j with
      st := .draining, gen := (j.gen + 1) % 256, torn := true, holds := [], cadence := none, status := status
      tear := some { status := status, kind := kind, startRaw := now s, waiter := waiter } }
    fabricJobFault s h status

/-- A fault of a job (R197): its teardown, with the status and what the record names. -/
def faultJob (s : State) (h : Nat) (st : Status) (addr : Nat := 0) (unit : Nat := 0xFFFF) : State :=
  let j := job s h
  if j.st == .free || j.st == .draining then s
  else beginTeardown (modJob s h fun j => { j with faultAddr := addr, faultUnit := unit }) h
    (statusCode st) 2

/-- The fault of a context: of its job, or, in the lease context, the slot planner's (R245, R152). -/
def faultSlot (s : State) (e i : Nat) (st : Status) (addr : Nat := 0) : State :=
  let x := slot s e i
  if i = 4 || x.job = 0 then emit (stopSlot s (e, i)) (.notice "lease pass failed" e (statusCode st))
  else faultJob s x.job st addr e

/-- The partition of a slot is zeroed (R122). -/
def zeroPartition (s : State) (c : Nat × Nat) : State :=
  let x := slot s c.1 c.2
  physZero s (pocketKey c.1 (x.base * 2 ^ 20)) (x.size * 2 ^ 20)

/-- Partition sizes [MiB] of a job's contexts (R184). -/
def Job.sizes (j : Job) : List Nat := j.lowered.contexts.map (·.size)

/-- Pages of a job's save area that hold context number n (R187): 16 for a MiB, behind those of the contexts before
it. -/
def savePart (j : Job) (n : Nat) : List Nat :=
  (j.savePages.drop (16 * (j.sizes.take n).sum)).take (16 * j.sizes.getD n 0)

/-- A partition at a key of a pocket copied to pages, which so become DIRTY (R29), and back. -/
def savePages (s : State) (key : Nat) (ps : List Nat) : State :=
  (ps.zip (List.range ps.length)).foldl (fun s x =>
    physCopy (markDirty s (x.1 * 65536) 65536) (windowKey s (x.1 * 65536)) (key + x.2 * 65536) 65536) s
def loadPages (s : State) (key : Nat) (ps : List Nat) : State :=
  (ps.zip (List.range ps.length)).foldl (fun s x =>
    physCopy s (key + x.2 * 65536) (windowKey s (x.1 * 65536)) 65536) s

/-- The accounting record of a tenant sleeve (R226). -/
def accountWords (s : State) (k : Nat) : List W64 :=
  let a := (sleeve s k).acct
  [a.beats, a.bytesDma, a.bytesFabric, a.bytesHost, a.energy,
   pack 64 [(32, a.jobsEnded), (0, a.misses)],
   pack 64 [(1, b2n a.sat), (0, b2n a.estimated)], s.tim.raw]

/-- Jobs of a sleeve that hold a handle and are not abandoned. -/
def liveJobs (s : State) (k : Nat) : List Nat :=
  (s.jobs.filter fun e => e.2.owner == k && e.2.st != .free &&
    !(match e.2.tear with | some t => t.abandoned | none => false)).map (·.1)

/-- A page of a reset sleeve gets its entry again from Tacor's page list, with a fresh frame where its
own was retired (R221 steps 3 and 4). A page in move is zeroed where its bytes lie, and its move goes on (R34). -/
def rewritePage (s : State) (k : Nat) (p : PageRec) : State :=
  let w := ownEntry s p.page
  let key := frameKey (ownLoc w) (ownFrame w)
  let home := pageHome s p.page
  if s.pkg.moves.any fun m => m.page == p.page then
    setOwn (physZero s (frameBase home.1 home.2) 65536) p.page (ownPack k 0 0 p.perms false 0 true 0)
  else
  let keep := ownLoc w == kindLoc p.kind && !s.pkg.retired.contains key
  let frame := if keep then some (ownFrame w) else (freeFrames s p.kind 1).head?
  match frame with
  | none => setOwn s p.page 0
  | some f =>
    setOwn (physZero s (frameBase (kindLoc p.kind) f) 65536) p.page
      (ownPack k 0 0 p.perms false (kindLoc p.kind) true f)

/-- Zero over every entry of the two queues in host memory (R221 step 5): a write that fails follows R218; a sleeve in
QUEUE_FAULT has its queues no longer written. -/
def zeroQueues (s : State) (k : Nat) : State :=
  let v := sleeve s k
  let cq := (wd v.record 3).toNat
  let fq := (wd v.record 4).toNat
  let n := 32 * qEntries v 47 32
  let m := 192 * qEntries v 31 16
  if v.queueFault then s
  else if !hostReachable s || !inHostRange v cq n || !inHostRange v fq m then queueFault s k
  else countHost (emit (markHostDirty (markHostDirty s k cq n) k fq m) (.queuesZeroed k (pasidOf s k))) k (n + m)

/-- Steps 3 to 7 of a sleeve reset (R221). -/
def finishReset (s : State) (k status : Nat) (waiter : Option Src) : State :=
  let v := sleeve s k
  let s := (v.pages.filter (·.job.isNone)).foldl (fun s p => rewritePage s k p) s
  let s := modSleeve s k fun v => { v with
    sqTail := 0, cqHead := 0, fqHead := 0, sqHead := 0, cqNext := 0, fqNext := 0
    cqPhase := true, fqPhase := true, backlog := [] }
  let s := zeroQueues s k
  let s := postFault s k ([pack 64 [(48, status), (22, k), (19, 2)], 0, s.tim.raw] ++
    List.replicate 7 0 ++ [0xFFFF] ++ List.replicate 13 0)
  let s := raise s { code := 0x025, severity := 2, sleeve := some k, status := status, d0 := status }
  let s := modSleeve s k fun v => { v with st := .active, resetting := none }
  match waiter with
  | some src => finishLater s src .ok []
  | none => s

/-- Jobs of a sleeve whose drain has failed and not yet ended (R198). -/
def stuckJobs (s : State) (k : Nat) : List Nat :=
  (s.jobs.filter fun e => e.2.owner == k && e.2.tear.any (·.abandoned)).map (·.1)

/-- The pages of a job whose drain has failed stay out of service when its sleeve goes (R221 step 1). -/
def strandPages (s : State) (k h : Nat) : State :=
  let ps := ((sleeve s k).pages.filter (·.job == some h)).map (·.page)
  modJob s h fun j => { j with stranded := j.stranded ++ ps }

/-- A fitting candidate of a removed sleeve that the fleet has not fetched is erased, its entry and the bytes of its
frames, if its consent was KEEP_UNTIL_REMOVAL (R171, R222 step 2). -/
def eraseCandidate (s : State) (k i : Nat) : State :=
  match tget none s.lin.candidates i with
  | none => s
  | some c =>
    if c.sleeve != k || c.consent != 2 || c.fetched then s
    else
      let s := physZero s (ed0Key (3488 + 16 * i) 0) (2 ^ 20)
      { s with lin := { s.lin with candidates := tset none s.lin.candidates i none } }

/-- Steps of a removal after the drains (R222). -/
def finishRemove (s : State) (k : Nat) (src : Src) : State :=
  let res := accountWords s k
  let stuck := stuckJobs s k
  let s := stuck.foldl (fun s h => strandPages s k h) s
  let s := dropPages s k (((sleeve s k).pages.filter fun p => !p.job.any stuck.contains).map (·.page))
  let s := (List.range 4).foldl (fun s i => eraseCandidate s k i) s
  finishLater (clearFlows (setSleeve s k {}) k) src .ok res

/-- When the last drain of a RESETTING or REMOVING sleeve has ended, the reset or removal goes on. -/
def settleSleeve (s : State) (k : Nat) : State :=
  if !(liveJobs s k).isEmpty then s
  else match (sleeve s k).st, (sleeve s k).resetting, (sleeve s k).removing with
    | .resetting, some (st, w), _ => finishReset s k st w
    | .removing, _, some src => finishRemove s k src
    | _, _, _ => s

/-- The SLEEVE_QUIESCE commands that wait for a sleeve complete with a status (R219). -/
def endQuiesce (s : State) (k : Nat) (st : Status) : State :=
  let ws := (sleeve s k).quiescers
  ws.foldl (fun s w => finishLater s w.1 st []) (modSleeve s k fun v => { v with quiescers := [] })

/-- The SLEEVE_QUIESCE commands whose limits have passed complete with TIMEOUT, the others wait on (R219). -/
def expireQuiesce (s : State) (k : Nat) : State :=
  let due := (sleeve s k).quiescers.filter fun w => w.2 ≤ now s
  due.foldl (fun s w => finishLater s w.1 .timeout []) (modSleeve s k fun v => { v with
    quiescers := v.quiescers.filter fun w => now s < w.2 })

/-- The JOB_SUBMIT commands of a sleeve that wait for draining pages complete with a status (R198, R206). -/
def endSubmits (s : State) (k : Nat) (st : Status) : State :=
  let ws := (sleeve s k).submits
  ws.foldl (fun s w => finishLater s w.1 st []) (modSleeve s k fun v => { v with submits := [] })

/-- What waits on a sleeve gives way to a reset or a removal: SLEEVE_QUIESCE and JOB_SUBMIT (R219, R206), and a reset or
removal under way, over which a FORCE proceeds (R222; notes/assumptions/57.md). -/
def giveWay (s : State) (k : Nat) : State :=
  let s := endSubmits (endQuiesce s k .busy) k .busy
  let v := sleeve s k
  ((v.resetting.bind (·.2)).toList ++ v.removing.toList).foldl (fun s w => finishLater s w .busy [])
    (modSleeve s k fun v => { v with resetting := none, removing := none })

/-- A sleeve reset starts (R221 steps 1 and 2). -/
def sleeveResetOp (s : State) (k : Nat) (st : Status) (waiter : Option Src) : State :=
  let s := giveWay s k
  let s := modSleeve s k fun v => { v with
    st := .resetting, resetting := some (statusCode st, waiter) }
  let s := (liveJobs s k).foldl (fun s h => beginTeardown s h (statusCode st) 2) s
  settleSleeve s k

/-- The reset of a sleeve whose context met an ownership entry that cannot be trusted (R32), once. -/
def entryReset (s : State) (k : Nat) : State :=
  if k = 0 || (sleeve s k).st == .resetting || (sleeve s k).st == .removing || (sleeve s k).st == .absent then s
  else sleeveResetOp s k .denied none

/-- The last record of a job that ends on its own account: where its ring's entry cannot be trusted the sleeve is reset
(R32). -/
def endPost (s : State) (h : Nat) (record : List W64) : State :=
  let j := job s h
  let bad := ringBad s j.owner (complAddr j j.complTail)
  let s := postLast s h record
  if bad then entryReset (faultJob s h .denied) j.owner else s

/-- A failed access of a job's own record, list or tensor (R31, R32, R160, R204): one to a page in move waits with its
caller. -/
def jobBar (s : State) (h addr : Nat) (b : Bar) : State :=
  let k := (job s h).owner
  match b with
  | .wait => s
  | .stale => { s with pkg := { s.pkg with staleGen := s.pkg.staleGen + 1 } }
  | .denied => faultJob s h .denied addr
  | .dataEcc => faultJob s h .checkFailed addr
  | _ =>
    entryReset (faultJob s h .denied addr) k

/-- Snapshots whose target peer has been lost are abandoned with TARGET_LOST; their jobs go on (R200). -/
def settleSnaps (s : State) : State :=
  s.jobs.foldl (fun s e =>
    if e.2.snap.any (·.lost) then
      let bad := ringBad s e.2.owner (complAddr e.2 e.2.complTail)
      let s := abandonSnap s e.1 (statusCode .targetLost)
      if bad then entryReset (faultJob s e.1 .denied) e.2.owner else s
    else s) s

/-- Steps 6 and 7 of a teardown (R198): partitions, save area and pages are zeroed and freed, the record
is posted, the handle is FREE, and what waited for the end goes on. -/
def finishTeardown (s : State) (h : Nat) : State :=
  let s := abandonSnap s h (if (job s h).snap.any (·.lost) then statusCode .targetLost else statusCode .notQuiesced)
  let j := job s h
  match j.tear with
  | none => s
  | some t =>
    let cs := jobSlots s h
    let i : Issuer := { sleeve := j.owner, job := h, gen := j.gen }
    let lens := if (outputsBar s j i).isNone then (jobOutputs s j).map (·.2) else []
    let bad := !j.ended && j.core.isNone && ringBad s j.owner (complAddr j j.complTail)
    let s := cs.foldl zeroPartition s
    let s := cs.foldl releaseSlot s
    let s := dropPages s j.owner
      (((sleeve s j.owner).pages.filter (·.job == some h)).map (·.page) ++ j.stranded)
    let dg := if t.kind = 1 && t.status != 0 then
        digestBlock lens (t.status == statusCode .undecided) false [] (fld (wd j.block 5) 47 0) 0 else []
    let step := j.lastBoundary.getD j.step
    let s := match j.core with
      | some k => taskBoundary (setHostCore s k {}) (unitDomain (96 + k))
      | none => s
    let record := recWords s j h (jobGen j) t.kind t.status (if t.kind = 2 then j.step else step)
      j.faultAddr j.faultUnit 0 dg
    let s := if j.ended then s
      else if j.core.isSome then postFault s j.owner record else postLast s h record
    let s := modJob s h fun j => { j with
      st := .free, tear := none, ctxs := [], core := none, pool := {}, snap := none, saved := []
      status := t.status, savePages := [], unposted := [], boundary := none, stranded := [] }
    let s := modSleeve s j.owner fun v => { v with acct := { v.acct with
      jobsEnded := Nat.min 0xFFFFFFFF (v.acct.jobsEnded + 1)
      sat := v.acct.sat || v.acct.jobsEnded == 0xFFFFFFFF } }
    let s := match t.waiter with
      | some src => finishLater s src .ok []
      | none => s
    let s := settleSleeve (fabricJobFree s h) j.owner
    if bad then entryReset s j.owner else s

/-! ### Moving contexts, strikes, fences -/

/-- The lowest base at which a partition of `size` MiB overlaps no other (R121). -/
def freeBase (s : State) (e size : Nat) : Option Nat :=
  (List.range (tenantMiB s + 1)).find? fun b =>
    b + size ≤ tenantMiB s && (List.range 4).all fun i =>
      let x := slot s e i
      !x.valid || b + size ≤ x.base || x.base + x.size ≤ b

/-- The lowest free tenant slot of an engine. -/
def freeSlot (s : State) (e : Nat) : Option Nat := (List.range 4).find? fun i => !(slot s e i).valid

/-- An engine that may take a tenant context (R185): unfenced, outside the lease, not under hold. -/
def placeable (s : State) (e : Nat) : Bool :=
  !isFenced s e && !isFenced s (16 + e) && !(engine s e).leased && (unitSt s e).hold == 0 &&
  (unitSt s (16 + e)).hold == 0

/-- The engine lies outside the lease ceiling (R194). -/
def outsideCeiling (s : State) (e : Nat) : Bool := leaseMask s / 2 ^ e % 2 == 0

/-- MODE of a job (R182): 0 free, 1 paced, 2 cadence. -/
def jobMode (j : Job) : Nat := fld (wd j.block 0) 15 12

/-- An engine that a job's context may be placed on (R185): for a paced or cadence job, outside the lease ceiling; no
other context of the job is on it. -/
def eligibleFor (s : State) (h e : Nat) : Bool :=
  placeable s e && (jobMode (job s h) == 0 || outsideCeiling s e) && !(jobSlots s h).any fun c => c.1 == e

/-- Counters of a job (R94, R191); the lease context has none. -/
def addCounts (s : State) (h : Nat) (c : Counts) (windowed : Nat := 0) : State :=
  if h = 0 then s
  else modJob s h fun j => { j with ctr := { j.ctr with
    discards := j.ctr.discards.add 0xFFFFFFFF c.discards
    overflows := j.ctr.overflows.add 0xFFFFFFFF c.overflows
    nanToNumber := j.ctr.nanToNumber.add 0xFFFFFFFF c.nanToNumber
    windowed := j.ctr.windowed.add 0xFFFFFFFF windowed } }

def blkPeriod (b : List W64) : Nat := fld (wd b 6) 63 32

/-- Sum of fractions as (numerator, denominator). -/
def fracSum : List (Nat × Nat) → Nat × Nat
  | [] => (0, 1)
  | (a, b) :: r =>
    let t := fracSum r
    (a * t.2 + t.1 * b, b * t.2)

/-- C / PERIOD of a cadence job that does not run in free order (R194, R195). -/
def cadenceShare (j : Job) : Option (Nat × Nat) :=
  match j.cadence with
  | some c => if c.freeOrder || j.st == .free then none else some (c.characterised, blkPeriod j.block * 1000)
  | none => none

/-- C / PERIOD of the cadence jobs placed on an engine (R194). -/
def cadenceLoad (s : State) (e : Nat) : List (Nat × Nat) :=
  (s.jobs.filter fun x => (jobSlots s x.1).any (·.1 == e)).filterMap fun x => cadenceShare x.2

/-- The sum of C / PERIOD stays at or below 0.75 (R194). -/
def loadOk (l : List (Nat × Nat)) : Bool := (fracSum l).1 * 4 ≤ (fracSum l).2 * 3

/-- A place on another engine for a context of a job (R188), which has room for its cadence (R194). -/
def findPlace (s : State) (h notOn size : Nat) : Option (Nat × Nat × Nat) :=
  ((List.range 16).filter fun e => e != notOn && eligibleFor s h e &&
      (cadenceShare (job s h)).all fun f => loadOk (f :: cadenceLoad s e)).findSome? fun e =>
    match freeSlot s e, freeBase s e size with
    | some i, some b => some (e, i, b)
    | _, _ => none

/-- A partition cannot be copied: a word of it is uncorrectable, and the copy that reads it faults the job (R160). -/
def partitionBad (s : State) (e i : Nat) : Bool :=
  let x := slot s e i
  eccHit s (pocketKey e (x.base * 2 ^ 20)) (x.size * 2 ^ 20)

/-- The context in a slot goes to its job's save area (R187): its bytes, and the job waits. -/
def evictSlot (s : State) (e i : Nat) : State :=
  let x := slot s e i
  if partitionBad s e i then faultSlot s e i .checkFailed
  else
  let n := ((job s x.job).ctxs.findIdx fun c => c == (e, i))
  let s := savePages s (pocketKey e (x.base * 2 ^ 20)) (savePart (job s x.job) n)
  let s := releaseSlot (zeroPartition s (e, i)) (e, i)
  modJob s x.job fun j => { j with
    st := if j.st == .running then .waiting else j.st
    saved := j.saved ++ [(n, x)]
    ctxs := j.ctxs }

/-- A context moves to another engine through the pocket's DMA port, or to its save area (R188); one with DMA
descriptors in flight does so once they have completed (R123). One of a job that drains stays until it is zeroed
(R198). -/
def moveSlot (s : State) (e i : Nat) : State :=
  let x := slot s e i
  if !x.valid || i = 4 || x.job = 0 || (job s x.job).st == .draining then s
  else if !x.dma.isEmpty then modSlot s e i fun x => { x with moveOwed := true }
  else if partitionBad s e i then faultSlot s e i .checkFailed
  else match findPlace s x.job e x.size with
    | none => evictSlot s e i
    | some (e', i', b) =>
      let s := physCopy s (pocketKey e' (b * 2 ^ 20)) (pocketKey e (x.base * 2 ^ 20))
        (x.size * 2 ^ 20)
      let s := releaseSlot (zeroPartition s (e, i)) (e, i)
      let s := wakeEngine (setSlot s e' i' { x with base := b }) e'
      modJob s x.job fun j => { j with
        ctxs := j.ctxs.map fun c => if c = (e, i) then (e', i') else c }

/-- The passes in flight on an engine are lost: each is owed to its context again, with the context's next descriptor
held until the rerun reaches its boundary (R115). -/
def losePasses (s : State) (e : Nat) : State :=
  let lost := ((engine s e).pass.toList ++ (engine s e).behind).map (·.slot)
  let s := lost.foldl (fun s i => modSlot s e i fun x => { x with
    run := x.run.map fun r => { r with started := r.next }, rerunOwed := x.run.isSome }) s
  modEngine s e fun x => { x with pass := none, behind := [], nextSlot := none }

/-- An engine is fenced: no new pass; its contexts move (R136, R188), one under referee when that has ended
(R151), and the replay of a stall ends (R399). A pass in flight that has no
boundary to come on a fenced engine is owed as a rerun. -/
def clearEngine (s : State) (e : Nat) : State :=
  let s := losePasses { s with hlt := { s.hlt with stalls := tset none s.hlt.stalls e none } } e
  let s := (List.range 4).foldl (fun s i =>
    if (slot s e i).refHold then s else moveSlot s e i) s
  leaseReplan s e

/-- A pocket has failed: nothing can be copied from it, and the jobs of its contexts end with FENCED (R136,
R188). -/
def failPocket (s : State) (e : Nat) : State :=
  (List.range 4).foldl (fun s i =>
    if (slot s e i).valid && (slot s e i).job != 0 then faultSlot s e i .fenced else s) s

/-- The context a host core runs is faulted with a status (R161, R400, R412). -/
def faultCore (s : State) (k : Nat) (st : Status) : State :=
  let c := hostCore s k
  if c.loaded then faultJob s c.handle st 0 (96 + k) else s

/-- The stack of a DIC target empties, and what stood on it becomes PENDING (R382). -/
def dicClear (s : State) (t : Nat) : State :=
  let c := dicCore s t
  let s := c.stack.foldl (fun s e => setDicSrc s e.1
    { dicSrc s e.1 with active := false, pending := true, rearm := false }) s
  setDicCore s t { c with stack := [], frozen := false }

/-- An engine reset of a unit (R401): its logic, in-flight pass or instruction and its registers;
pocket, memories, slots, rings and chain state stay. -/
def resetUnit (s : State) (u : Nat) : State :=
  if u < 16 then modEngine (losePasses s u) u fun x => { x with active := none, standby := none }
  else if u < 32 then s
  else if u < 96 then resetSignalCore s (u - 32)
  else if u < 112 then dicClear s (4 + (u - 96))
  else s

/-- A counted engine reset (R402): HLT_UNITu_ACTIVITY, and an ENGINE_RESET record with its cause. -/
def countReset (s : State) (u cause : Nat) : State :=
  let x := unitSt s u
  let times := (x.resetTimes ++ [now s]).filter fun t => since s t ≤ 600 * ticksPerS
  let s := setUnit s u { x with
    resets := Nat.min 255 (x.resets + 1), actSat := x.actSat || x.resets == 255
    resetTimes := times }
  raise s { code := 0x021, severity := 3, die := unitDie u, unit := u, domain := unitDomain u
            count := times.length, d0 := cause }

/-- A FENCE record (R394). -/
def fenceRecord (s : State) (u cause : Nat) : State :=
  raise s { code := 0x011, severity := 3, die := unitDie u, unit := u, domain := unitDomain u
            d0 := cause }

/-- A unit leaves service when it is fenced or held out: contexts, leases, cells and host-core
contexts follow (R136, R188, R257, R412). The slot planner takes the fence of a signal core, decoder or
encoder up at the next slot boundary (R252, R267). -/
def takeOut (s : State) (u : Nat) : State :=
  if u < 32 then clearEngine s (u % 16)
  else if u < 96 then s
  else if u < 112 then faultCore s (u - 96) .fenced
  else s

/-- A fence (R154, R411, R414): the unit's state, the fence list for a confirmed fence, the FENCE
record with its cause, and what leaves the unit. -/
def fenceUnit (s : State) (u : Nat) (f : Fence) (cause : Nat) : State :=
  let s := modUnit s u fun x => { x with fence := f, hold := 0 }
  let s := if f == .confirmed && !s.hlt.hr.fenceList.contains u then
      setRec s { s.hlt.hr with fenceList := s.hlt.hr.fenceList ++ [u] } else s
  refreshHealth (noteReferees (takeOut (fenceRecord s u cause) u))

/-- Hold form of a unit (R412). -/
def holdForm (u : Nat) : Nat := if u < 32 then 1 else if u < 96 then 2 else 3

/-- Manager hold (R412): the form, the MANAGER_HOLD record, and for held-out units what leaves them. -/
def holdUnit (s : State) (u : Nat) : State :=
  let s := modUnit s u fun x => { x with hold := holdForm u }
  let s := raise s { code := 0x013, severity := 3, die := unitDie u, unit := u
                     domain := unitDomain u, d0 := holdForm u }
  let s := if u < 32 then leaseReplan s (u % 16)
    else if u < 96 then s
    else takeOut s u
  refreshHealth (noteReferees s)

/-- Self-fences in the last 60 min (R412). -/
def budgetUsed (s : State) : Nat :=
  (s.hlt.selfFences.filter fun t => since s t < 3600 * ticksPerS).length

/-- A fence that the FL8 decides at run time (R411), within the budget of R412. A unit that is fenced or
held already is not counted twice. -/
def selfFence (s : State) (u : Nat) (f : Fence) (cause : Nat) : State :=
  let x := unitSt s u
  if x.fence != .none || x.hold != 0 then s
  else if budgetUsed s < 2 then
    fenceUnit { s with hlt := { s.hlt with selfFences := s.hlt.selfFences ++ [now s] } } u f cause
  else holdUnit s u

/-- A strike (R153): the log, the unit's count, the STRIKE record; a confirmed one fences (R154). The
record counts unconfirmed strikes alone (R392, R405), and names the strike's job and sleeve. An unreadable log is
reported (R176). -/
def strike (s : State) (u kind location jobH sl : Nat) (confirmed : Bool) : State :=
  let x := unitSt s u
  let un := if confirmed then x.unconfirmed
    else (x.unconfirmed ++ [now s]).filter fun t => since s t < 3600 * ticksPerS
  let s := setUnit s u { x with
    strikes := Nat.min 255 (x.strikes + 1), liningSat := x.liningSat || x.strikes == 255
    unconfirmed := un }
  let s := if liningLogBad s then reportUnreadable s 3552 else s
  let s := { s with lin := { s.lin with strikes := s.lin.strikes ++
    [{ unit := u, kind := kind, location := location, job := jobH, sleeve := sl
       confirmed := confirmed, raw := now s }] } }
  let s := raise s { code := 0x010, severity := 3, die := unitDie u, unit := u
                     domain := unitDomain u, count := if confirmed then 0 else un.length
                     sleeve := if jobH = 0 && sl = 0 then none else some sl
                     job := if jobH = 0 then none else some (jobH, (job s jobH).gen)
                     d0 := kind + 256 * b2n confirmed, d1 := location }
  refreshHealth (if confirmed then selfFence s u .confirmed 1 else s)

/-- A check disagreement of a unit is counted (R173). -/
def countDisagree (s : State) (u : Nat) : State :=
  modUnit s u fun x => { x with
    disagree := Nat.min 0xFFFF (x.disagree + 1), liningSat := x.liningSat || x.disagree == 0xFFFF }

/-! ### Die-level faults -/

/-- Frames of a die: LOC and the die select of its FRAME numbers (R29). -/
def dieFrames (d : Nat) : Nat × Nat := if d < 4 then (1, d) else (2, d - 4)

/-- A frame lies on a die (R29). -/
def frameOnDie (d loc frame : Nat) : Bool := loc == (dieFrames d).1 && frame / 2 ^ 22 == (dieFrames d).2

/-- Pages of a sleeve whose bytes lie on a die, those in move among them (R34). -/
def pagesOnDie (s : State) (k d : Nat) : List PageRec :=
  (sleeve s k).pages.filter fun p =>
    let h := pageHome s p.page
    ownValid (ownEntry s p.page) && frameOnDie d h.1 h.2

/-- The moves that a lost die ends (R34, R406): one from its frames has nothing left to copy, and the page of one toward
its frames stays where its bytes lie (notes/assumptions/78.md). -/
def loseMoves (s : State) (d : Nat) : State :=
  let gone := s.pkg.moves.filter fun m => frameOnDie d m.loc m.frame || frameOnDie d m.oldLoc m.oldFrame
  let s := { s with pkg := { s.pkg with moves := s.pkg.moves.filter fun m => !gone.contains m } }
  gone.foldl (fun s m => { s with pkg := { s.pkg with
    owner := tmod 0 s.pkg.owner m.page fun w =>
      (w &&& ~~~((0xC0FFFFFF : W64))) ||| pack 64 [(30, m.oldLoc), (0, m.oldFrame)] } }) s

/-- Jobs with a job page on a die, and jobs of sleeves with a sleeve page there, are faulted with
CHECK_FAILED; each such sleeve page gets a fresh zeroed frame of its kind, or VALID 0 (R406). -/
def losePages (s : State) (d : Nat) : State :=
  let s := loseMoves s d
  (List.range 63).foldl (fun s i =>
    let k := i + 1
    let lost := pagesOnDie s k d
    let all := lost.any (·.job.isNone)
    let hs := (liveJobs s k).filter fun h => all || lost.any (·.job == some h)
    let s := hs.foldl (fun s h => faultJob s h .checkFailed) s
    (lost.filter (·.job.isNone)).foldl (fun s p =>
      match (freeFrames s p.kind 1).head? with
      | some f => setOwn (physZero s (frameBase (kindLoc p.kind) f) 65536) p.page
          (ownPack k 0 0 p.perms false (kindLoc p.kind) true f)
      | none => setOwn s p.page 0) s) s

/-- A die leaves the memory service: its frames back no further page (R26, R406). -/
def memoryOut (s : State) (d : Nat) : State :=
  if d < 4 then { s with pkg := { s.pkg with bondedOk := s.pkg.bondedOk.set d false } }
  else { s with pkg := { s.pkg with density := s.pkg.density.set (d - 4) 0 } }

/-- Units of a die that a die-level fault fences (R406). -/
def dieUnits (d : Nat) : List Nat :=
  if d < 4 then (List.range 4).map (fun i => 4 * d + i) ++ (List.range 4).map (fun i => 16 + 4 * d + i)
  else if d = 7 then (List.range 8).map fun i => 104 + i else []

/-- A die-level fault (R406): DIE_FAULT, the health record, and what the die takes with it. -/
def dieFault (s : State) (d cause : Nat) : State :=
  let s := raise s { code := 0x040, severity := 4, die := d, d0 := cause }
  let s := if s.hlt.hr.dies.contains d then s
    else setRec s { s.hlt.hr with dies := s.hlt.hr.dies ++ [d] }
  let s := refreshHealth s
  if d = 6 then deviceReset s (some 7)
  else
    let s := if d < 4 || d = 7 then losePages (memoryOut s d) d else s
    let s := (dieUnits d).foldl (fun s u =>
      if isFenced s u then s else fenceUnit s u .unconfirmed 7) s
    if d = 4 || d = 5 then radioFenced s (d - 4)
    else if d = 7 then
      let r := fabricDieDown s
      settleSnaps (r.2.foldl (fun s h => faultJob s h .targetLost) r.1)
    else s

end Sys2Proof.Machine
end

