-- ==== Sys2Proof/Machine/Flags.lean ====
section
/-! DEFINITION. Status and flag words computed from the state: every read-only or mixed register that the
manual gives a bit layout and that more than one command returns (R22, R59, R132, R173, R363, R383,
R418, R427). -/

namespace Sys2Proof.Machine

/-- STATUS of the manager page (R363). -/
def statusReg (s : State) : Nat :=
  let m := s.mgt
  (pack 32 [(30, m.tacor), (29, b2n (cfgSharing s)), (28, b2n m.pasidOn), (24, m.width),
    (20, m.rate), (18, Nat.min 2 (m.restarts.filter fun t => since s t ≤ 600 * ticksPerS).length)]).toNat

/-- WSTATUS of a mailbox window (R370). -/
def wstatusReg (s : State) (w : Nat) : Nat :=
  (pack 32 [(30, s.mgt.tacor), (16, queued s (partyOf (.mailbox w 0)))]).toNat +
  ((List.range 15).map fun i => if (mslot s w i).state = 3 then 2 ^ i else 0).sum

/-- A saturating counter register: SAT in [31], the count below. -/
def ctrReg (c : SatCtr) : Nat := b2n c.sat * 2 ^ 31 + c.count

/-- HLT_SEAMn_STATUS (R22). -/
def seamReg (x : Seam) : Nat :=
  (pack 32 [(31, b2n x.sat), (30, b2n x.failed), (26, (x.spares.map (·.2)).sum),
    (0, x.retries)]).toNat

/-- PWR_DOMn_STATUS (R59). -/
def domainReg (x : Domain) : Nat :=
  (pack 32 [(31, b2n x.on), (30, b2n x.paced), (28, x.throttle), (24, x.excluded.length),
    (23, b2n x.sensorFault), (22, b2n x.tempFault), (21, b2n x.paceFault), (8, x.vindex),
    (0, x.temp)]).toNat

/-- A pace table entry (R50). -/
def paceReg (x : PaceEntry) : Nat := (pack 32 [(30, x.tag), (22, x.temp), (0, x.pace)]).toNat

/-- MXE_STATUS (R132). -/
def mxeStatus (s : State) (e : Nat) : Nat :=
  let x := engine s e
  let (busy, act, kind) := match x.pass with
    | some p => (true, p.slot, p.kind) | none => (false, 0, 0)
  (pack 32 [(31, b2n (isFenced s e)), (30, b2n x.leased), (29, b2n busy), (26, act),
    (22, ((List.range 4).map fun i => if (slot s e i).valid then 2 ^ i else 0).sum),
    (20, kind), (19, b2n ((unitSt s e).hold == 1)), (18, b2n x.reruns.sat),
    (0, x.reruns.count)]).toNat

/-- MXE_CTX_PART (R133). -/
def ctxPart (x : Slot) : Nat :=
  (pack 32 [(31, b2n x.valid), (25, x.sleeve), (24, b2n x.paced), (18, x.base), (12, x.size),
    (0, x.job)]).toNat

/-- MXE_FRING and its kin (R134). -/
def ringReg (r : Ring) : Nat := (pack 64 [(52, r.entries), (0, r.addr)]).toNat

/-- HLT_UNITu_LINING (R173). -/
def liningReg (s : State) (u : Nat) : Nat :=
  let x := unitSt s u
  (pack 32 [(31, b2n x.liningSat), (28, liningState s u), (16, x.strikes), (0, x.disagree)]).toNat

/-- Counted engine resets in the current 10 min window (R405). -/
def resetsWin (s : State) (u : Nat) : Nat :=
  ((unitSt s u).resetTimes.filter fun t => since s t ≤ 600 * ticksPerS).length

/-- HLT_UNITu_ACTIVITY (R418). -/
def activityReg (s : State) (u : Nat) : Nat :=
  let x := unitSt s u
  (pack 32 [(31, b2n x.actSat), (16, x.hangs), (8, Nat.min 255 (resetsWin s u)),
    (0, x.resets)]).toNat

/-- Source of the health clock (R409, R418). -/
def clockSource (s : State) : Nat :=
  if s.tim.state ≥ 2 then 1 else if s.hlt.clock.isSome then 2 else 0

/-- HLT_HEALTH (R418). -/
def healthReg (s : State) : Nat :=
  let us := List.range 124
  (pack 32 [(31, b2n s.hlt.hr.withdrawn), (28, s.hlt.level), (26, Nat.min 2 (budgetUsed s)),
    (24, clockSource s), (17, (us.filter fun u => (unitSt s u).fence == .confirmed).length),
    (10, (us.filter fun u => (unitSt s u).hold != 0).length), (0, s.hlt.score)]).toNat

/-- HLT_DIES (R418). -/
def diesReg (s : State) : Nat := (s.hlt.hr.dies.map fun d => 2 ^ d).sum

/-- BOOT_MBOX_STATUS (R427). -/
def bootReg (s : State) : Nat :=
  let b := s.boot
  (pack 32 [(28, b.stage), (27, b2n b.request), (26, b2n b.hostSource), (16, b.rejected),
    (0, b.result)]).toNat

/-- DIC_SRCn (R383). -/
def dicSrcReg (x : DicSrc) : Nat :=
  (pack 32 [(31, b2n x.pending), (30, b2n x.active), (29, b2n x.rearm), (28, b2n x.sat),
    (0, x.count)]).toNat

/-- DIC_CORE_STATUS (R383). -/
def dicCoreReg (x : DicCore) : Nat :=
  let top := x.stack.head?.getD (0, 0)
  (pack 32 [(31, b2n x.frozen), (30, b2n x.enable), (25, x.stack.length), (21, top.2),
    (0, top.1)]).toNat

/-- DIC_STACKi, entry 0 the bottom (R383). -/
def dicStackReg (x : DicCore) (i : Nat) : Nat :=
  match x.stack.reverse[i]? with
  | some e => (pack 32 [(31, 1), (12, e.2), (0, e.1)]).toNat
  | none => 0

/-- DIC_COUNTS (R383). -/
def dicCounts (s : State) : Nat :=
  (pack 32 [(31, b2n s.mgt.dicSat), (16, s.mgt.dicDenied), (0, s.mgt.dicNoRoute)]).toNat

/-- Package power over the last 1 s [mW] (R466): the mean of the windows held. -/
def powerMw (s : State) : Nat :=
  if s.pwr.totals.isEmpty then 0 else s.pwr.totals.sum * 1000 / s.pwr.totals.length

/-- Energy of a die since device reset [µJ], wrapping (R466). -/
def dieEnergy (s : State) (d : Nat) : W64 :=
  (List.range (dieDomains d)).foldl (fun a i => a + (domain s (dieDomain0 d + i)).energy) 0

end Sys2Proof.Machine
end

