-- ==== Sys2Proof/Machine/SleeveCmds.lean ====
section
/-! DEFINITION. The sleeve commands and the doorbell page (chapter 07): R205–R229. -/

namespace Sys2Proof.Machine

/-- Code of a sleeve state (R206). -/
def sleeveCode : SleeveState → Nat
  | .absent => 0 | .active => 1 | .quiescing => 2 | .quiesced => 3 | .resetting => 4 | .removing => 5

/-- Frames of a kind that tenants may have (R35, R210 check 5). -/
def tenantFrames (s : State) (kind : Nat) : Nat :=
  ((frameRuns s kind).map (·.2)).foldl (· + ·) 0 -
    (s.pkg.retired.filter fun k => k / 2 ^ 24 == kindLoc kind &&
      (kind == 0 || 2 ≤ k / 2 ^ 22 % 4)).length

/-- Quotas of a kind over every sleeve but `k` (R210). -/
def otherQuotas (s : State) (k kind : Nat) : Nat :=
  ((s.slv.filter fun e => e.1 != k && e.2.st != .absent).map fun e => quota e.2 kind).foldl (· + ·) 0

/-- A sleeve record breaks its map (R209). -/
def recordBad (s : State) (r : List W64) : Bool :=
  let w0 := wd r 0
  fld w0 57 50 == 0 || fld w0 49 42 > 2 || fld w0 19 12 == 0 || fld w0 19 12 > 64 ||
  fld w0 11 0 == 0 || (!cfgSharing s && fld w0 39 20 != 0) ||
  !rsvdZero r [(1, 15, 0), (2, 11, 0), (3, 11, 0), (4, 11, 0), (5, 15, 0), (6, 63, 0), (7, 63, 0)]

/-- The PASID is bound to another sleeve (R210 check 4). -/
def pasidTaken (s : State) (k : Nat) (r : List W64) : Bool :=
  cfgSharing s && s.slv.any fun e => e.1 != k && e.2.st != .absent &&
    fld (wd e.2.record 0) 39 20 == fld (wd r 0) 39 20

/-- The quotas of a record would exceed the tenant frames (R210 check 5). -/
def quotasExceed (s : State) (k : Nat) (r : List W64) : Bool :=
  otherQuotas s k 0 + fld (wd r 1) 63 40 > tenantFrames s 0 ||
  otherQuotas s k 1 + fld (wd r 1) 39 16 > tenantFrames s 1

/-- The checks of SLEEVE_CREATE and SLEEVE_IMPORT in the order of R210, with what else refuses a
sleeve: WITHDRAWN (R410), a device with Tacor and the sideband only (R26, R422), PASID (R207). -/
def createChecks (s : State) (r : List W64) : List (Bool × Status) :=
  let k := fld (wd r 0) 63 58
  [(k == 0 || s.hlt.hr.withdrawn || s.boot.minimal || (cfgSharing s && !s.mgt.pasidOn), .denied),
   ((sleeve s k).st != .absent, .badField),
   (recordBad s r, .badField),
   (pasidTaken s k r, .badField),
   (quotasExceed s k r, .noSpace)]

/-- SLEEVE_CREATE (R209, R210). -/
def execSleeveCreate (cmd : Cmd) (s : State) : Host.Outcome State Fault Refusal :=
  .next <| serve 0x100 8 isMgmt cmd s fun _ s =>
    let r := cmd.args.take 8
    checked (createChecks s r) <|
      .ok (setSleeve s (fld (wd r 0) 63 58) { st := .quiesced, record := r }) []

/-- SLEEVE_SET (R209, R210). -/
def execSleeveSet (cmd : Cmd) (s : State) : Host.Outcome State Fault Refusal :=
  .next <| serve 0x101 8 isMgmt cmd s fun _ s =>
    let r := cmd.args.take 8
    let k := fld (wd r 0) 63 58
    let v := sleeve s k
    let old := v.record
    checked [(k == 0, .denied),
      (v.st == .absent || recordBad s r || fld (wd r 0) 39 20 != fld (wd old 0) 39 20 ||
        (r.drop 2).take 4 != (old.drop 2).take 4, .badField),
      (fld (wd r 1) 63 40 < heldPages v 0 || fld (wd r 1) 39 16 < heldPages v 1 ||
        quotasExceed s k r, .noSpace)] <|
      .ok (setSleeve s k { v with record := r }) []

/-- A sleeve named by a command: 0 is DENIED (R205), above 63 and ABSENT are BAD_FIELD. -/
def nameChecks (s : State) (k : Nat) (rest : List (Bool × Status) := []) : List (Bool × Status) :=
  (k == 0, .denied) :: (k > 63 || (sleeve s k).st == .absent, .badField) :: rest

/-- Total length of the host ranges with range i set to a length (R208). -/
def rangesTotal (v : Sleeve) (i len : Nat) : Nat :=
  ((List.range 8).map fun j => if j = i then len else (tget (0, 0) v.ranges j).2).foldl (· + ·) 0

/-- SLEEVE_HOST_RANGE (R208): accepted only when QUIESCED. -/
def execSleeveHostRange (cmd : Cmd) (s : State) : Host.Outcome State Fault Refusal :=
  .next <| serve 0x102 4 isMgmt cmd s fun _ s =>
    let k := argN cmd 0
    let i := argN cmd 1
    let base := argN cmd 2
    let len := argN cmd 3
    checked (nameChecks s k [(i > 7 || base % 4096 != 0 || len % 4096 != 0 || base + len > 2 ^ 64 ||
        rangesTotal (sleeve s k) i len > 2 ^ 38, .badField),
       ((sleeve s k).st != .quiesced, .notQuiesced)]) <|
      .ok (modSleeve s k fun v => { v with ranges := tset (0, 0) v.ranges i (base, len) }) []

/-- The quiesce conditions of R219 that jobs, referees and snapshots of a sleeve must meet. -/
def quiesceDone (s : State) (k : Nat) : Bool :=
  (s.jobs.all fun e => e.2.owner != k || e.2.core.isSome || e.2.st == .free || e.2.st == .waiting ||
    (e.2.st == .held && e.2.holds.contains .quiesce)) &&
  (s.jobs.all fun e => e.2.owner != k || (match e.2.snap with | some n => n.taken.isNone | none => true)) &&
  (s.lin.disputes.all fun d => d.sleeve != k || d.radio) &&
  s.jobs.all fun e => e.2.owner != k || !e.2.lowered.weights.any fun p => s.pkg.moves.any fun m => m.page == p

/-- A job that stands at a step boundary when the quiesce starts is held at once (R219): one HELD already, and a cadence
job between two runs. -/
def holdsAtOnce (k : Nat) (j : Job) : Bool :=
  j.owner == k && (j.st == .held || (j.st == .running && j.cadence.any (!·.inProgress)))

def holdStanding (s : State) (k : Nat) : State :=
  { s with jobs := s.jobs.map fun e => (e.1,
      if holdsAtOnce k e.2 && !e.2.holds.contains .quiesce then
        { e.2 with st := .held, holds := e.2.holds ++ [.quiesce] }
      else e.2) }

/-- SLEEVE_QUIESCE (R219). -/
def execSleeveQuiesce (cmd : Cmd) (s : State) : Host.Outcome State Fault Refusal :=
  .next <| serve 0x103 2 isMgmt cmd s fun _ s =>
    let k := argN cmd 0
    let ms := argN cmd 1
    checked (nameChecks s k [(ms > 1000, .badField),
      ((sleeve s k).st == .resetting || (sleeve s k).st == .removing, .busy)]) <|
      if (sleeve s k).st == .quiesced then .ok s []
      else .defer fun s => holdStanding (modSleeve s k fun v => { v with
        st := .quiescing
        quiescers := v.quiescers ++ [(cmd.src, now s + usTicks (1000 * if ms = 0 then 100 else ms))] }) k

/-- QUIESCE_COMPLETE (R219): with all conditions met the posted host writes are pushed, the sleeve is
QUIESCED and SLEEVE_QUIESCE returns OK; with one open the event cannot occur. -/
def execQuiesceComplete (k : Nat) (s : State) : Host.Outcome State Fault Refusal :=
  .next <|
    if (sleeve s k).st == .quiescing && quiesceDone s k then
      endQuiesce (modSleeve (emit s (.orderingRead k (pasidOf s k))) k fun v => { v with st := .quiesced }) k .ok
    else s

/-- QUIESCE_TIMEOUT (R219): the SLEEVE_QUIESCE whose limit passes returns TIMEOUT; the sleeve stays QUIESCING. -/
def execQuiesceTimeout (k : Nat) (s : State) : Host.Outcome State Fault Refusal :=
  .next <| if (sleeve s k).st == .quiescing then expireQuiesce s k else s

/-- A hold of a job ends; with no hold left the job runs again (R189). -/
def releaseHold (h : HoldCause) (j : Job) : Job :=
  let hs := j.holds.filter (· != h)
  { j with holds := hs, st := if j.st == .held && hs.isEmpty then (if j.saved.isEmpty then .running else .waiting)
                                else j.st }

/-- The jobs of a sleeve leave a hold. -/
def releaseSleeve (s : State) (k : Nat) (h : HoldCause) : State :=
  { s with jobs := s.jobs.map fun e => (e.1, if e.2.owner == k then releaseHold h e.2 else e.2) }

/-- The queues of a sleeve are covered by its host ranges (R210). -/
def queuesCovered (v : Sleeve) : Bool :=
  inHostRange v (wd v.record 2).toNat (128 * qEntries v 63 48) &&
  inHostRange v (wd v.record 3).toNat (32 * qEntries v 47 32) &&
  inHostRange v (wd v.record 4).toNat (192 * qEntries v 31 16)

/-- SLEEVE_RESUME (R220, R210, R218). -/
def execSleeveResume (cmd : Cmd) (s : State) : Host.Outcome State Fault Refusal :=
  .next <| serve 0x104 1 isMgmt cmd s fun _ s =>
    let k := argN cmd 0
    checked (nameChecks s k [(!queuesCovered (sleeve s k), .badField),
      ((sleeve s k).st == .resetting || (sleeve s k).st == .removing, .busy)]) <|
      let s := endQuiesce s k .busy
      let s := modSleeve s k fun v => { v with st := .active, queueFault := false }
      .ok (releaseSleeve s k .quiesce) []

/-- SLEEVE_RESET and SLEEVE_REMOVE are refused unless QUIESCED or forced (R222). -/
def forceChecks (s : State) (k force : Nat) : List (Bool × Status) :=
  nameChecks s k [(force > 1, .badField), (force == 0 && (sleeve s k).st != .quiesced, .notQuiesced)]

/-- SLEEVE_RESET (R221, R222). -/
def execSleeveReset (cmd : Cmd) (s : State) : Host.Outcome State Fault Refusal :=
  .next <| serve 0x105 2 isMgmt cmd s fun _ s =>
    let k := argN cmd 0
    checked (forceChecks s k (argN cmd 1)) <|
      .defer fun s => sleeveResetOp s k .ok (some cmd.src)

/-- SLEEVE_REMOVE (R222): the drains of R221 step 1, then the removal and its final accounting record. -/
def execSleeveRemove (cmd : Cmd) (s : State) : Host.Outcome State Fault Refusal :=
  .next <| serve 0x106 2 isMgmt cmd s fun _ s =>
    let k := argN cmd 0
    checked (forceChecks s k (argN cmd 1)) <|
      .defer fun s =>
        let s := modSleeve (giveWay s k) k fun v => { v with st := .removing, removing := some cmd.src }
        settleSleeve ((liveJobs s k).foldl (fun s h => beginTeardown s h 0 2) s) k

/-- A tenant may name its own sleeve only (R227). -/
def ownOnly (p : Party) (k : Nat) : Bool := match p with | .tenant t => t != k | _ => false

/-- SLEEVE_STATUS (R227, R466). -/
def execSleeveStatus (cmd : Cmd) (s : State) : Host.Outcome State Fault Refusal :=
  .next <| serve 0x107 1 isSleeveUser cmd s fun p s =>
    let k := argN cmd 0
    let v := sleeve s k
    checked ((ownOnly p k, .denied) :: nameChecks s k) <|
      .ok s ([w64 (sleeveCode v.st)] ++ (List.range 8).map (fun i => wd v.record i) ++
        [w64 (heldPages v 0), w64 (heldPages v 1),
         w64 ((s.jobs.filter fun e => e.2.owner == k).map fun e => (jobSlots s e.1).length).sum,
         w64 (s.jobs.filter fun e => e.2.owner == k && e.2.st != .free).length])

/-- PAGES_ALLOC (R211, R212): the pages whole, their numbers at the list address. -/
def execPagesAlloc (cmd : Cmd) (s : State) : Host.Outcome State Fault Refusal :=
  .next <| serve 0x108 5 isSleeveUser cmd s fun p s =>
    let k := argN cmd 0
    let n := argN cmd 1
    let kind := argN cmd 2
    let perms := argN cmd 3
    checked ((ownOnly p k, .denied) :: nameChecks s k [(kind > 1 || perms > 15, .badField),
       (heldPages (sleeve s k) kind + n > quota (sleeve s k) kind, .noSpace)]) <|
      match checkArg s p .wr (arg cmd 4) (8 * n) with
      | some st => .ofArg (arg cmd 4) (8 * n) st
      | none =>
        match takePages s k none kind perms n with
        | none => .fail .noSpace
        | some (s, ps) =>
          match writeArg s p (arg cmd 4) (ps.flatMap (leBytes 8)) with
          | .ok s => .ok s []
          | .error st => .fail st

/-- Device ranges that the input list and the output list of a job name (R182). -/
def jobRanges (s : State) (j : Job) : List (Nat × Nat) :=
  (List.range (fld (wd j.header 4) 63 48)).map (fun i =>
    let ws := wordsOf 2 (windowRead s (fld (wd j.block 3) 47 0 + 16 * i) 16)
    (fld (wd ws 0) 47 0, (wd ws 1).toNat)) ++ jobOutputs s j

/-- A page is named in the lists of an unfinished job of the sleeve (R211). -/
def pageInUse (s : State) (k page : Nat) : Bool := s.jobs.any fun e =>
  e.2.owner == k && e.2.st != .free && (jobRanges s e.2).any fun r =>
    r.1 < (page + 1) * 65536 && page * 65536 < r.1 + r.2

/-- A sleeve page that the sleeve may free (R211). -/
def isSleevePage (v : Sleeve) (page : Nat) : Bool :=
  !v.bitmapPages.contains page && v.pages.any fun p => p.page == page && p.job.isNone

/-- PAGES_FREE (R211, R212): the pages whole, or none. -/
def execPagesFree (cmd : Cmd) (s : State) : Host.Outcome State Fault Refusal :=
  .next <| serve 0x109 3 isSleeveUser cmd s fun p s =>
    let k := argN cmd 0
    let n := argN cmd 1
    checked ((ownOnly p k, .denied) :: nameChecks s k) <|
      match readArg s p cmd.hostData (arg cmd 2) (8 * n) with
      | .error st => .ofArg (arg cmd 2) (8 * n) st
      | .ok bs =>
        let ps := (wordsOf n bs).map BitVec.toNat
        let s := argRead s p (arg cmd 2) (8 * n)
        .keeping s <| checked [(ps.any (pageInUse s k), .notQuiesced),
          (ps.any fun q => !isSleevePage (sleeve s k) q, .denied)] <|
          .ok (dropPages s k ps) []

/-- DIRTY of every page of a sleeve cleared (R225 step 1). -/
def clearDirty (s : State) (ps : List Nat) : State :=
  ps.foldl (fun s p => { s with pkg := { s.pkg with
    owner := tmod 0 s.pkg.owner p fun w => w &&& ~~~((1 : W64) <<< 32) } }) s

/-- Pages of the dirty bitmap (R223). -/
def bitmapSize (v : Sleeve) : Nat := cdiv (rangesTotal v 8 0) (2 ^ 31)

/-- 64-bit words of the bitmap (R223). -/
def bitmapWords (v : Sleeve) : Nat := cdiv (rangesTotal v 8 0) (2 ^ 18)

/-- Pages the bitmap still lacks. -/
def bitmapNeed (v : Sleeve) : Nat := bitmapSize v - v.bitmapPages.length

/-- Logging starts with the pages taken: a clear bitmap and clean pages (R223, R225). -/
def dirtyStart (s : State) (k : Nat) (ps : List Nat) : State :=
  let s := modSleeve s k fun v => { v with dirtyOn := true, bitmapPages := v.bitmapPages ++ ps }
  let s := (sleeve s k).bitmapPages.foldl (fun s p =>
    physZero (backInvalidate s (p * 65536) 65536) (windowKey s (p * 65536)) 65536) s
  clearDirty s ((sleeve s k).pages.map (·.page))

/-- SLEEVE_DIRTY_START (R223, R225). -/
def execSleeveDirtyStart (cmd : Cmd) (s : State) : Host.Outcome State Fault Refusal :=
  .next <| serve 0x10A 1 isMgmt cmd s fun _ s =>
    let k := argN cmd 0
    checked (nameChecks s k) <|
      match takePages s k none 1 8 (bitmapNeed (sleeve s k)) with
      | none => .fail .noSpace
      | some (s, ps) => .ok (dirtyStart s k ps) []

/-- Words of the bitmap cleared (R224 step 1). -/
def clearBitmap (s : State) (k first n : Nat) : State :=
  (List.range n).foldl (fun s i => setBitmapWord s (sleeve s k) (first + i) 0) s

/-- A word of the bitmap that is asked for cannot be read (R160). -/
def bitmapBad (s : State) (v : Sleeve) (first n : Nat) : Bool := (List.range n).any fun i =>
  (bitmapAddr v (first + i)).any fun a => windowEcc s a 8

/-- The sleeve's device pages whose DIRTY is 1, up to a count (R224 step 2). -/
def dirtyPages (s : State) (k max : Nat) : List Nat :=
  let v := sleeve s k
  ((v.pages.map (·.page)).filter fun q => !v.bitmapPages.contains q && ownDirty (ownEntry s q)).take max

/-- SLEEVE_DIRTY_READ (R224): bitmap words, then the count of the page numbers written at the list
address (notes/assumptions/12.md). -/
def execSleeveDirtyRead (cmd : Cmd) (s : State) : Host.Outcome State Fault Refusal :=
  .next <| serve 0x10B 5 isMgmt cmd s fun p s =>
    let k := argN cmd 0
    let first := argN cmd 1
    let n := argN cmd 2
    let v := sleeve s k
    checked (nameChecks s k [(!v.dirtyOn || n > 512 || first + n > bitmapWords v, .badField),
      (bitmapBad s v first n, .checkFailed)]) <|
      let ws := (List.range n).map fun i => bitmapWord s v (first + i)
      let ps := dirtyPages s k (argN cmd 4)
      match writeArg (clearDirty (clearBitmap s k first n) ps) p (arg cmd 3) (ps.flatMap (leBytes 8)) with
      | .error st => .fail st
      | .ok s => .ok (emit s (.orderingRead k (pasidOf s k))) (ws ++ [w64 ps.length])

/-- SLEEVE_DIRTY_STOP (R227). -/
def execSleeveDirtyStop (cmd : Cmd) (s : State) : Host.Outcome State Fault Refusal :=
  .next <| serve 0x10C 1 isMgmt cmd s fun _ s =>
    let k := argN cmd 0
    checked (nameChecks s k) <|
      let s := dropPages s k (sleeve s k).bitmapPages
      .ok (modSleeve s k fun v => { v with dirtyOn := false, bitmapPages := [] }) []

/-- The export record (R225): sleeve record, host ranges, and the sleeve pages with kind and
permissions, padded to whole 4 KiB (the layout: notes/assumptions/13.md). -/
def exportBytes (v : Sleeve) : List Byte :=
  let ps := v.pages.filter fun p => p.job.isNone && !v.bitmapPages.contains p.page
  let ws := (List.range 8).map (fun i => wd v.record i) ++
    (List.range 8).flatMap (fun i =>
      let r := tget (0, 0) v.ranges i
      [w64 r.1, w64 r.2]) ++
    [w64 ps.length] ++ pack32 (ps.map fun p => p.page + p.kind * 2 ^ 24 + p.perms * 2 ^ 25)
  let bs := bytesOf ws
  bs ++ List.replicate (cdiv bs.length 4096 * 4096 - bs.length) 0

/-- SLEEVE_EXPORT (R225): accepted only when QUIESCED. -/
def execSleeveExport (cmd : Cmd) (s : State) : Host.Outcome State Fault Refusal :=
  .next <| serve 0x10D 2 isMgmt cmd s fun p s =>
    let k := argN cmd 0
    checked (nameChecks s k [((sleeve s k).st != .quiesced, .notQuiesced)]) <|
      match writeArg s p (arg cmd 1) (exportBytes (sleeve s k)) with
      | .ok s => .ok s []
      | .error st => .fail st

/-- The pages of an export record: number, kind, permissions. -/
def exportPages (bs : List Byte) : List (Nat × Nat × Nat) :=
  let n := leNat ((bs.drop 192).take 8)
  (List.range n).map fun i =>
    let v := leNat ((bs.drop (200 + 4 * i)).take 4)
    (v % 2 ^ 24, v / 2 ^ 24 % 2, v / 2 ^ 25 % 16)

/-- The pages of an import given back at their numbers, or none (R225 step 5). -/
def importPages (s : State) (k : Nat) (ps : List (Nat × Nat × Nat)) : Option State :=
  let kindOf (kind : Nat) := ps.filter fun p => p.2.1 == kind
  let f0 := freeFrames s 0 (kindOf 0).length
  let f1 := freeFrames s 1 (kindOf 1).length
  if ps.any (fun p => (usedPages s).contains p.1 || ownValid (ownEntry s p.1)) || f0.length < (kindOf 0).length ||
      f1.length < (kindOf 1).length || (kindOf 0).length > quota (sleeve s k) 0 ||
      (kindOf 1).length > quota (sleeve s k) 1 then none
  else
    let give (s : State) (x : (Nat × Nat × Nat) × Nat) : State :=
      givePage s k none x.1.2.1 x.1.2.2 x.1.1 x.2
    some (((kindOf 1).zip f1).foldl give (((kindOf 0).zip f0).foldl give s))

/-- Host ranges that a sleeve may not have (R208). -/
def rangesBad (rs : Tbl (Nat × Nat)) : Bool :=
  rs.any (fun r => r.2.1 % 4096 != 0 || r.2.2 % 4096 != 0 || r.2.1 + r.2.2 > 2 ^ 64) ||
  (rs.map (·.2.2)).sum > 2 ^ 38

/-- SLEEVE_IMPORT (R225). -/
def execSleeveImport (cmd : Cmd) (s : State) : Host.Outcome State Fault Refusal :=
  .next <| serve 0x10E 1 isMgmt cmd s fun p s =>
    match readArg s p cmd.hostData (arg cmd 0) 4096 with
    | .error st => .fail st
    | .ok bs0 =>
      let n := leNat ((bs0.drop 192).take 8)
      match readArg s p cmd.hostData (arg cmd 0) (cdiv (200 + 4 * n) 4096 * 4096) with
      | .error st => .fail st
      | .ok bs =>
        let r := wordsOf 8 bs
        let k := fld (wd r 0) 63 58
        let rs := (List.range 8).foldl (fun t i =>
          let ws := wordsOf 2 (bs.drop (64 + 16 * i))
          tset (0, 0) t i ((wd ws 0).toNat, (wd ws 1).toNat)) []
        checked (createChecks s r ++ [(rangesBad rs, .badField)]) <|
          match importPages (setSleeve s k { st := .quiesced, record := r, ranges := rs }) k
              (exportPages bs) with
          | none => .fail .noSpace
          | some s => .ok s []

/-- SLEEVE_ACCOUNT_READ (R226): of sleeve 0, its slot jobs by cell (R205). -/
def execSleeveAccountRead (cmd : Cmd) (s : State) : Host.Outcome State Fault Refusal :=
  .next <| serve 0x10F 1 (fun p => isSleeveUser p || isRadio p) cmd s fun p s =>
    let k := argN cmd 0
    if k == 0 then
      checked [((match p with | .tenant _ => true | _ => false), .denied)] <|
        let cs := radioAccount s
        .ok s ([w64 cs.length] ++ cs.flatMap (fun c => [w64 c.1, c.2]) ++ [s.tim.raw])
    else
      checked ((ownOnly p k || isRadio p, .denied) :: nameChecks s k) <| .ok s (accountWords s k)

/-! ### The doorbell page -/

/-- A doorbell page reaches its sleeve: the link is up and the sleeve is one of 1–63, not ABSENT. -/
def doorbellUp (s : State) (k : Nat) : Bool :=
  s.mgt.cxlUp && 1 ≤ k && k ≤ 63 && (sleeve s k).st != .absent

/-- A write of SQ_TAIL, CQ_HEAD or FQ_HEAD (R215): an index beyond its queue is ignored and sets
DB_ERROR. -/
def doorbellWrite (s : State) (k : Nat) (value : W32) (hi lo : Nat) (f : Sleeve → Nat → Sleeve) :
    State :=
  if !doorbellUp s k then s
  else
    let i := fld value 15 0
    if i ≥ qEntries (sleeve s k) hi lo then modSleeve s k fun v => { v with dbError := true }
    else modSleeve s k fun v => f v i

/-- SQ_TAIL_WRITE (R215). -/
def execSqTailWrite (k : Nat) (value : W32) (s : State) : Host.Outcome State Fault Refusal :=
  .next <| doorbellWrite s k value 63 48 fun v i => { v with sqTail := i }

/-- Completions that waited for room are written, in order (R218). -/
def flushCq (s : State) (k : Nat) : State :=
  let b := (sleeve s k).backlog
  b.foldl (fun s e => postCq s k e.1 e.2.1 e.2.2) (modSleeve s k fun v => { v with backlog := [] })

/-- CQ_HEAD_WRITE (R218). -/
def execCqHeadWrite (k : Nat) (value : W32) (s : State) : Host.Outcome State Fault Refusal :=
  .next <| flushCq (doorbellWrite s k value 47 32 fun v i => { v with cqHead := i }) k

/-- FQ_HEAD_WRITE (R215). -/
def execFqHeadWrite (k : Nat) (value : W32) (s : State) : Host.Outcome State Fault Refusal :=
  .next <| doorbellWrite s k value 31 16 fun v i => { v with fqHead := i }

/-- STATE of a doorbell page (R215). -/
def doorbellState (v : Sleeve) : Nat :=
  b2n v.dbError * 64 + b2n v.queueFault * 32 + b2n v.fqLost.sat * 16 + sleeveCode v.st

/-- BAR0 offset of a doorbell page (R361). -/
def doorbellAddr (k : Nat) : Nat := 0x40000 + 0x1000 * k

/-- DOORBELL_STATE_READ (R215): the read clears DB_ERROR; an ABSENT sleeve's page reads 0. -/
def execDoorbellStateRead (k : Nat) (s : State) : Host.Outcome State Fault Refusal :=
  .next <|
    if !s.mgt.cxlUp then s
    else if !doorbellUp s k then emit s (.readValue (doorbellAddr k + 0xC) 0)
    else modSleeve (emit s (.readValue (doorbellAddr k + 0xC) (doorbellState (sleeve s k)))) k
      fun v => { v with dbError := false }

/-- FQ_LOST_READ (R215): the read clears the count. -/
def execFqLostRead (k : Nat) (s : State) : Host.Outcome State Fault Refusal :=
  .next <|
    if !s.mgt.cxlUp then s
    else if !doorbellUp s k then emit s (.readValue (doorbellAddr k + 0x10) 0)
    else modSleeve (emit s (.readValue (doorbellAddr k + 0x10) (sleeve s k).fqLost.count)) k
      fun v => { v with fqLost := { v.fqLost with count := 0 } }

end Sys2Proof.Machine
end

