-- ==== Sys2Proof/Machine/Program.lean ====
section
/-! DEFINITION. The checks of an FTG 1.0 program and of its submission block (R73–R75, R77, R85–R88,
R177–R183): what is refused with BAD_FIELD. -/

namespace Sys2Proof.Machine

/-! ### Header, tensors, operations (R177–R179) -/

def noTensor : Nat := 0xFFFFFFFF
def pWord (p : List Byte) (i : Nat) : W64 := leW64 (p.drop (8 * i))
def pTensors (p : List Byte) : Nat := fld (pWord p 1) 63 32
def pOps (p : List Byte) : Nat := fld (pWord p 1) 31 0
def pBody (p : List Byte) : Nat := fld (pWord p 3) 31 0
def pChips (p : List Byte) : Nat := fld (pWord p 3) 63 54 + 1

/-- The four words of tensor i, and the eight of operation i. -/
def tensorAt (p : List Byte) (i : Nat) : List W64 := wordsOf 4 (p.drop (64 + 32 * i))
def opAt (p : List Byte) (i : Nat) : List W64 := wordsOf 8 (p.drop (64 + 32 * pTensors p + 64 * i))

def tFmt (t : List W64) : Nat := fld (wd t 0) 63 56
def tRank (t : List W64) : Nat := fld (wd t 0) 55 53
def tRole (t : List W64) : Nat := fld (wd t 0) 52 49
def tBind (t : List W64) : Nat := fld (wd t 0) 31 0
def tDim (t : List W64) (k : Nat) : Nat :=
  if k % 2 = 0 then fld (wd t (1 + k / 2)) 63 32 else fld (wd t (1 + k / 2)) 31 0
def tDims (t : List W64) : List Nat := (List.range (tRank t)).map (tDim t)
/-- The innermost extent, and the one before it. -/
def tLast (t : List W64) : Nat := tDim t (tRank t - 1)
def tElems (t : List W64) : Nat := (tDims t).foldl (· * ·) 1

def oCode (o : List W64) : Nat := fld (wd o 0) 63 56
def oRound (o : List W64) : Nat := fld (wd o 0) 55 52
def oRelaxed (o : List W64) : Bool := bitOf (wd o 0) 50
def oOutFmt (o : List W64) : Nat := fld (wd o 0) 47 40
def oShift (o : List W64) : Nat := fld (wd o 0) 39 32
def oEe (o : List W64) : Nat := fld (wd o 0) 31 24
/-- IN0, IN1, IN2. -/
def oIn (o : List W64) (k : Nat) : Nat :=
  if k = 0 then fld (wd o 1) 63 32 else if k = 1 then fld (wd o 1) 31 0 else fld (wd o 2) 63 32
def oOut (o : List W64) : Nat := fld (wd o 2) 31 0
def oParam (o : List W64) : W64 := wd o 4

/-- The header breaks R177. -/
def headerWrong (p : List Byte) : Bool :=
  let ws := wordsOf 8 p
  fld (wd ws 0) 63 32 != 0x46544731 || fld (wd ws 0) 31 16 != 0x0100 ||
  !rsvdZero ws [(0, 15, 0), (3, 53, 32), (4, 31, 0), (5, 63, 0), (6, 63, 0), (7, 63, 0)] ||
  pTensors p == 0 || pTensors p > 65536 || pOps p == 0 || pOps p > 262144 ||
  pBody p % 64 != 0 || pBody p > 16777216 || pBody p < 64 + 32 * pTensors p + 64 * pOps p

/-- Elements of a half of a KV token, and the bytes per token (R180). -/
def kvHalf (t : List W64) : Nat := tDim t 1 * tDim t 2
def kvBytes (t : List W64) : Nat :=
  2 * (kvHalf t * elemBits (tFmt t)) / 8 + if isMx (tFmt t) then 2 * kvHalf t / 32 else 0

/-- The KV pool tensor breaks R178 or R180. -/
def kvWrong (t : List W64) : Bool :=
  tRank t != 3 || tDim t 0 != 2 || !isMatrixFmt (tFmt t) || kvHalf t * elemBits (tFmt t) % 8 != 0 ||
  (isMx (tFmt t) && tDim t 2 % 32 != 0) || tBind t == 0 || tBind t > 65536 || tBind t != kvBytes t

/-- A tensor entry breaks R178. -/
def tensorWrong (p : List Byte) (t : List W64) : Bool :=
  !(isElemFmt (tFmt t) || tFmt t == 0x20 || tFmt t == 0x21) || tRank t == 0 || tRank t == 7 ||
  fld (wd t 0) 48 32 != 0 || ((List.range 6).any fun k => k ≥ tRank t && tDim t k != 0) ||
  (match tRole t with
    | 1 => tBind t ≥ fld (pWord p 4) 63 48
    | 2 => tBind t ≥ fld (pWord p 4) 47 32
    | 5 => kvWrong t
    | r => r > 5 || tBind t != 0)

/-! ### Operations -/

/-- Inputs an operation must name, from IN0 on (R179, R180). -/
def needInputs (o : List W64) : Nat :=
  match oCode o with
  | 0x01 | 0x02 | 0x0B => 2
  | 0x03 => match oEe o with
    | 0x04 => 3
    | 0x01 | 0x02 | 0x03 | 0x05 | 0x07 | 0x08 | 0x0A => 2
    | _ => 1
  | 0x04 => if oEe o = 0x21 then 2 else 1
  | _ => 1

/-- Further inputs that a ROW operation may name (R180). -/
def rowInputs (ee : Nat) : Nat :=
  match ee with
  | 0x21 | 0x24 => 1 | 0x23 => 2 | _ => 0

/-- Bits of PARAMS W4 that an operation uses (R179). -/
def paramMask (code : Nat) : Nat :=
  match code with
  | 0x01 => 1 | 0x02 => 0xFFFFFFFFFFFF0000 | 0x04 | 0x08 => 0xFFFFFFFF | 0x06 => 0xFFFFFF | _ => 0

/-- The permutation of COPY: a source dimension for each output dimension (R179). -/
def permWrong (w : W64) (rank : Nat) : Bool :=
  let ds := (List.range rank).map fun k => fld w (4 * k + 3) (4 * k)
  ds.any (· ≥ rank) || ds.dedup.length != rank || w.toNat / 16 ^ rank != 0

/-- A further input of a ROW operation has a shape or a format that R180 does not allow. -/
def furtherWrong (a t : List W64) : Bool :=
  !isElemFmt (tFmt t) || !((tRank t == 1 && tDim t 0 == tLast a) || tDims t == tDims a)

/-- K of a matrix operation (R77). -/
def matrixK (o a b : List W64) : Nat :=
  if oCode o = 0x01 then tLast a else tDim b 0 * tDim b 1 * tDim b 2

/-- The block dimensions of the two operands do not hold whole blocks (R75, R181): IN0 is row-blocked, IN1
column-blocked. -/
def blocksWrong (o a b : List W64) : Bool :=
  let kb := if oCode o = 0x01 then tDim b (tRank b - 2) else tDim b 2
  (isMx (tFmt a) && tLast a % 32 != 0) || (isMx (tFmt b) && kb % 32 != 0)

/-- The operands of MATMUL or CONV2D break R74, R75, R77, R179 or R181. -/
def matrixWrong (o a b : List W64) : Bool :=
  !isMatrixFmt (tFmt a) || !isMatrixFmt (tFmt b) || !pairOk (tFmt a) (tFmt b) ||
  (oCode o == 0x02 && tRank b != 4) || matrixK o a b > 2 ^ 20 || blocksWrong o a b ||
  (oCode o == 0x01 && bitOf (oParam o) 0 && isMx (tFmt b))

/-- The EE_OP does not fit the operation (R179). -/
def eeWrong (o : List W64) : Bool :=
  let ee := oEe o
  match oCode o with
  | 0x03 => !((1 ≤ ee && ee ≤ 0x0B) || (0x10 ≤ ee && ee ≤ 0x16))
  | 0x04 => !(0x20 ≤ ee && ee ≤ 0x24)
  | _ => ee != 0

/-- An operation entry breaks R179 or R180, or one of the rules of chapter 03 (R98). -/
def opWrong (p : List Byte) (pool : Option (List W64)) (o : List W64) : Bool :=
  let code := oCode o
  let t (k : Nat) := tensorAt p (oIn o k)
  let none' (k : Nat) := oIn o k == noTensor
  let noOut := code == 0x07 || code == 0x0C
  code == 0 || code > 0x0C || oRound o > 3 || (oRelaxed o && code != 0x0A) ||
  fld (wd o 0) 49 48 != 0 || fld (wd o 0) 23 0 != 0 || !isOutFmt (oOutFmt o) || oShift o > 63 ||
  eeWrong o ||
  ([oIn o 0, oIn o 1, oIn o 2, oOut o].any fun x => x != noTensor && x ≥ pTensors p) ||
  ((List.range (needInputs o)).any none') || (oOut o == noTensor) != noOut ||
  (oParam o).toNat &&& paramMask code != (oParam o).toNat || [5, 6, 7].any (fun k => wd o k != 0) ||
  (oRound o == 3 && !noOut && tElems (tensorAt p (oOut o)) > 2 ^ 34) ||
  (match code with
    | 0x01 | 0x02 => matrixWrong o (t 0) (t 1)
    | 0x04 => !isElemFmt (tFmt (t 0)) ||
      ((List.range 2).any fun k => if k < rowInputs (oEe o) then !none' (k + 1) &&
        furtherWrong (t 0) (t (k + 1)) else !none' (k + 1)) || oOutFmt o == 0x21 || tLast (t 0) > 2 ^ 20
    | 0x03 | 0x05 => oOutFmt o == 0x21 || (List.range (needInputs o)).any fun k => !isElemFmt (tFmt (t k))
    | 0x06 => permWrong (oParam o) (tRank (t 0))
    | 0x07 => match pool with
      | some q => tFmt (t 0) != tFmt q && tFmt (t 0) != 0x0A
      | none => true
    | 0x08 => match pool with
      | some q => !pairOk (tFmt (t 0)) (tFmt q) || tDim q 2 > 2 ^ 20
      | none => true
    | 0x0B => tFmt (t 1) != 0x20
    | 0x0C => tFmt (t 0) != 0x20 || pool.isNone
    | _ => false)

/-- The KV pool tensors of a program. -/
def poolsOf (p : List Byte) : List (List W64) :=
  ((List.range (pTensors p)).map (tensorAt p)).filter (tRole · == 5)

/-- Bytes of a token of the program's KV pool; 0: it has none (R178). -/
def poolTokenBytes (p : List Byte) : Nat := ((poolsOf p).head?.map tBind).getD 0

/-- A tensor is both IN1 of a MATMUL or CONV2D and IN0 of a MATMUL, CONV2D or ATTEND (R181). -/
def sharedOperand (ops : List (List W64)) : Bool :=
  let in1 := (ops.filter fun o => oCode o == 1 || oCode o == 2).map fun o => oIn o 1
  ops.any fun o => (oCode o == 1 || oCode o == 2 || oCode o == 8) && in1.contains (oIn o 0)

/-- The submission block breaks R182. -/
def blockWrong (b : List W64) (p : List Byte) (hasPool : Bool) : Bool :=
  let mode := fld (wd b 0) 15 12
  let period := fld (wd b 6) 63 32
  let deadline := fld (wd b 6) 31 0
  mode > 2 || fld (wd b 0) 63 16 % 64 != 0 || fld (wd b 2) 47 0 % 64 != 0 ||
  !rsvdZero b [(0, 4, 0), (1, 53, 32), (2, 51, 48), (3, 63, 48), (4, 63, 48), (5, 63, 48),
    (7, 15, 0)] ||
  fld (wd b 1) 63 54 ≥ pChips p || (pChips p == 1 && fld (wd b 1) 31 0 != 0) ||
  (if mode = 2 then period < 1000 || period > 10000000 || deadline == 0 || deadline > period
    else period != 0 || deadline != 0) ||
  (!hasPool && (fld (wd b 7) 63 40 != 0 || fld (wd b 7) 39 16 != 0)) ||
  (bitOf (wd b 0) 5 && mode != 0)

/-- STRICT meets RELAXED or DYNAMIC (R183 check 3). -/
def strictWrong (b : List W64) (ops : List (List W64)) : Bool :=
  bitOf (wd b 0) 11 && (bitOf (wd b 0) 5 || ops.any oRelaxed)

/-- Checks 2 and 3 of R183. -/
def programBad (b : List W64) (p : List Byte) : Bool :=
  headerWrong p ||
  (let ts := (List.range (pTensors p)).map (tensorAt p)
   let ops := (List.range (pOps p)).map (opAt p)
   let pools := poolsOf p
   ts.any (tensorWrong p) || pools.length > 1 || ops.any (opWrong p pools.head?) ||
   sharedOperand ops || blockWrong b p (!pools.isEmpty) || strictWrong b ops)

end Sys2Proof.Machine
end

