-- ==== Sys2Proof/Machine/Tensors.lean ====
section
/-! DEFINITION. What the operations of an FTG program compute (R179–R181): tensors with their layout, and
each operation as a function from tensors to a tensor. An operation whose tensors have shapes that the spec gives
no result for answers none (notes/assumptions/92.md). -/

namespace Sys2Proof.Machine

/-! ### Layout (R181) -/

/-- A tensor: format, extents, outermost first, whether it is column-blocked, the lsb exponent of the operand formats
under which a wide partial was formed where that is known, and its bytes. -/
structure Tensor where
  fmt : Nat
  dims : List Nat
  col : Bool := false
  lsb : Option Int := none
  bytes : List Byte := []
  deriving DecidableEq, Repr

def extentProduct (l : List Nat) : Nat := l.foldl (· * ·) 1

def Tensor.elems (t : Tensor) : Nat := extentProduct t.dims
/-- Extents counted from the innermost: 0 is the innermost one; beyond the outermost they are 1. -/
def Tensor.extent (t : Tensor) (i : Nat) : Nat := t.dims.reverse.getD i 1
/-- Extents outside the two innermost. -/
def Tensor.outer (t : Tensor) : List Nat := t.dims.take (t.dims.length - 2)

/-- The block that element i lies in: along the innermost dimension, or, column-blocked, along the one before it
(R103, R181). -/
def Tensor.blockOf (t : Tensor) (i : Nat) : Nat :=
  let n := t.extent 0
  let k := t.extent 1
  if t.col then (i / (k * n) * n + i % n) * cdiv k 32 + i / n % k / 32
  else i / n * cdiv n 32 + i % n / 32

def Tensor.blocks (t : Tensor) : Nat :=
  let n := t.extent 0
  let k := t.extent 1
  if t.col then t.elems / (k * n) * n * cdiv k 32 else t.elems / n * cdiv n 32

/-- The elements of block b, in order. -/
def Tensor.members (t : Tensor) (b : Nat) : List Nat :=
  let n := t.extent 0
  let k := t.extent 1
  let len := if t.col then k else n
  let line := b / cdiv len 32
  ((List.range 32).map (b % cdiv len 32 * 32 + ·)).filterMap fun p =>
    if p < len then some (if t.col then line / n * (k * n) + p * n + line % n else line * n + p) else none

/-- Bytes of the elements, and of the whole tensor with its scales or anchor words. -/
def Tensor.elemBytes (t : Tensor) : Nat := packedBytes t.fmt t.elems
def Tensor.size (t : Tensor) : Nat :=
  t.elemBytes + if isMx t.fmt then t.blocks else if t.fmt = 0x21 then 2 * t.elems else 0

def Tensor.byte (t : Tensor) (i : Nat) : Nat := (t.bytes.getD i 0).toNat

/-- The code of element i: 16 bytes of a wide partial. -/
def Tensor.code (t : Tensor) (i : Nat) : Nat :=
  if t.fmt = 0x21 then leNat ((t.bytes.drop (16 * i)).take 16) else elemCode t.fmt t.byte i

/-- What stands beside the elements: scale byte i, or the anchor word of element i. -/
def Tensor.side (t : Tensor) (i : Nat) : Nat :=
  if t.fmt = 0x21 then leNat ((t.bytes.drop (t.elemBytes + 2 * i)).take 2) else t.byte (t.elemBytes + i)

/-- The element without its scale, and its block's scale exponent (R75). -/
def Tensor.raw (t : Tensor) (i : Nat) : Val := decodeElem t.fmt (t.code i)
def Tensor.scale (t : Tensor) (i : Nat) : Option Int :=
  if isMx t.fmt then scaleExp (t.side (t.blockOf i)) else some 0

/-- The value of element i (R73, R75), exact also where an MX element with its scale lies outside the range or the
precision of FP32, which R89 does not speak of (DESIGN CHOICE, notes/assumptions/84.md). -/
def Tensor.val (t : Tensor) (i : Nat) : Val :=
  match t.scale i with
  | some q => scaleVal q (t.raw i)
  | none => .nan

/-- A tensor from its element codes and what stands beside them. -/
def Tensor.filled (t : Tensor) (code side : Nat → Nat) : Tensor :=
  let es := List.range t.elems
  { t with bytes :=
      if t.fmt = 0x21 then es.flatMap (fun i => leBytes 16 (code i)) ++ es.flatMap fun i => leBytes 2 (side i)
      else packElems t.fmt (es.map code) ++
        if isMx t.fmt then (List.range t.blocks).map fun b => BitVec.ofNat 8 (side b) else [] }

/-! ### Operations -/

/-- The operation closes a frame: MATMUL, CONV2D, REDUCE_CHIPS. -/
def closesFrame (code : Nat) : Bool := code == 1 || code == 2 || code == 9

/-- Roundings of an operation by flat index of the output (R85–R88). SHIFT scales what is closed from a frame, of which
alone R87 speaks; the element engines, whose descriptors have no SHIFT (R130), convert without one (DEDUCED,
notes/assumptions/84.md). -/
def opRounding (o : List W64) (number step chip i : Nat) : Rounding :=
  { mode := oRound o, inf := bitOf (wd o 0) 51, shift := if closesFrame (oCode o) then oShift o else 0
    u := if oRound o = 3 then stochasticWord (wd o 3) i number step chip else 0 }

/-- The dot product closed into an output element: its code, and its anchor word in a wide partial (R80, R81). -/
def Dot.close (q : Dot) (f : Nat) (r : Rounding) : Nat × Nat :=
  if f = 0x21 then (q.frame.encode, q.word.encode) else ((roundTo f r (q.frame.val q.lsb)).1, 0)

/-- A frame under a smaller lsb exponent. -/
def Frame.lower (f : Frame) (bits : Nat) : Frame :=
  match f with | .fin v => .fin (v * 2 ^ bits) | g => g

/-- Two wide partials of one output combined (R79): under the smaller of their lsb exponents, as far as both have
products (DESIGN CHOICE, notes/assumptions/92.md). -/
def Dot.combine (a b : Dot) : Dot :=
  if a.word.empty && a.frame == .fin 0 then { b with discards := a.discards + b.discards }
  else if b.word.empty && b.frame == .fin 0 then { a with discards := a.discards + b.discards }
  else
    let l := min a.lsb b.lsb
    { frame := (a.frame.lower (a.lsb - l).toNat).add (b.frame.lower (b.lsb - l).toNat)
      word := { (if a.lsb ≤ b.lsb then a.word else b.word) with empty := a.word.empty && b.word.empty }
      lsb := l, discards := a.discards + b.discards }

/-- Element i of a wide partial under operand formats of lsb exponent q, as a dot product; none: its KIND is reserved
(R78). -/
def Tensor.wide (t : Tensor) (q : Int) (i : Nat) : Option Dot :=
  (decodeFrame (t.code i)).map fun f =>
    let w := decodeAnchor (t.side i)
    { frame := f, word := w, lsb := w.lsb q, discards := 0 }

/-- A dot product onto element i of IN2 where there is one (R179). -/
def ontoWide (onto : Option Tensor) (q : Int) (i : Nat) (d : Dot) : Option Dot :=
  match onto with
  | none => some d
  | some c => (c.wide q i).map (·.combine d)

/-- The output elements of an operation that closes frames (R111, R179). -/
def closeAll (o : List W64) (out : Tensor) (rnd : Nat → Rounding) (q : Int) (dot : Nat → Option Dot) : Option Tensor :=
  match (List.range out.elems).mapM fun i => (dot i).map fun d => d.close (oOutFmt o) (rnd i) with
  | none => none
  | some rs => some { out.filled (fun i => (rs.getD i (0, 0)).1) (fun i => (rs.getD i (0, 0)).2) with
      lsb := if out.fmt = 0x21 then some q else none }

/-- IN2 that a matrix operation accumulates onto: a wide partial of the same extents and formats; one that came from
outside the program counts as of the operation's own formats (DESIGN CHOICE, notes/assumptions/92.md). -/
def ontoOk (out : Tensor) (q : Int) (c : Option Tensor) : Bool :=
  c.all fun c => c.elems == out.elems && c.lsb.all (· == q)

/-- What the other chips show of output element i (R84). -/
abbrev Views := List (List ChipView)
def Views.element (v : Views) (i : Nat) : List ChipView := v.map fun c => c.getD i {}

/-- MATMUL (R179): the outer extents of IN0 are rows; IN1 of rank 2 serves all of them, one with the same outer
extents serves its own. -/
def matmul (o : List W64) (a b : Tensor) (c : Option Tensor) (out : Tensor) (rnd : Nat → Rounding) (v : Views) :
    Option Tensor :=
  let turned := bitOf (oParam o) 0
  let k := a.extent 0
  let n := b.extent (if turned then 1 else 0)
  let q := lsbExp a.fmt + lsbExp b.fmt
  if k == 0 || b.dims.length < 2 || b.extent (if turned then 0 else 1) != k || out.elems != a.elems / k * n ||
      !(b.dims.length == 2 || b.outer == a.outer) || out.fmt != oOutFmt o || !ontoOk out q c then none
  else closeAll o out rnd q fun i =>
    let r := i / n
    let base := if b.dims.length = 2 then 0 else r / a.extent 1 * (k * n)
    let terms := (List.range k).map fun x =>
      let j := base + if turned then i % n * k + x else x * n + i % n
      { a := a.raw (r * k + x), b := b.raw j
        scale := match a.scale (r * k + x), b.scale j with | some u, some v => some (u + v) | _, _ => none }
    ontoWide c q i (dotProduct a.fmt b.fmt terms (v.element i))

/-- A coordinate of the input for an output coordinate and a kernel coordinate (R179); none: padding. -/
def convAt (stride dilation pad size y k : Nat) : Option Nat :=
  let v := y * stride + k * dilation
  if pad ≤ v && v - pad < size then some (v - pad) else none

/-- CONV2D over NHWC, IN1 as [ky][kx][c][n] (R179): padding adds no product. -/
def conv2d (o : List W64) (a b : Tensor) (c : Option Tensor) (out : Tensor) (rnd : Nat → Rounding) (v : Views) :
    Option Tensor :=
  let w := oParam o
  let q := lsbExp a.fmt + lsbExp b.fmt
  match a.dims, b.dims, out.dims with
  | [na, ha, wa, ca], [kh, kw, kc, n], [no, ho, wo, co] =>
    if na != no || ca != kc || co != n || out.fmt != oOutFmt o || !ontoOk out q c then none
    else closeAll o out rnd q fun i =>
      let y := i / (n * wo) % ho
      let x := i / n % wo
      let img := i / (n * wo * ho)
      let terms := (List.range (kh * kw * kc)).filterMap fun j =>
        match convAt (fld w 63 56) (fld w 47 40) (fld w 31 24) ha y (j / (kw * kc)),
            convAt (fld w 55 48) (fld w 39 32) (fld w 23 16) wa x (j / kc % kw) with
        | some yy, some xx =>
          let ia := ((img * ha + yy) * wa + xx) * ca + j % kc
          let ib := j * n + i % n
          some { a := a.raw ia, b := b.raw ib
                 scale := match a.scale ia, b.scale ib with | some u, some v => some (u + v) | _, _ => none }
        | _, _ => none
      ontoWide c q i (dotProduct a.fmt b.fmt terms (v.element i))
  | _, _, _ => none

/-- Values rounded into OUT (R85–R88). -/
def roundAll (o : List W64) (out : Tensor) (rnd : Nat → Rounding) (vs : List Val) : Option Tensor :=
  if out.fmt != oOutFmt o || out.fmt == 0x21 || vs.length != out.elems then none
  else some (out.filled (fun i => (roundTo out.fmt (rnd i) (vs.getD i .nan)).1) fun _ => 0)

/-- ELEMENTWISE (R89, R91, R92, R179): the inputs that the EE_OP reads have as many elements as OUT. -/
def elementwise (o : List W64) (ins : List Tensor) (out : Tensor) (rnd : Nat → Rounding) : Option Tensor :=
  let used := ins.take (needInputs o)
  if used.any fun t => t.elems != out.elems || !isElemFmt t.fmt then none
  else roundAll o out rnd <| (List.range out.elems).map fun i =>
    let v (k : Nat) := ((used[k]?).map (·.val i)).getD .nan
    elemFn (oEe o) (v 0) (v 1) (v 2)

/-- A row of a further input (R180): one of rank 1 serves every row. -/
def furtherRow (n r : Nat) : Option Tensor → List Val
  | none => []
  | some t => (List.range n).map fun i => t.val (if t.dims.length = 1 then i else r * n + i)

/-- ROW (R90, R92, R180): a row is the innermost dimension of IN0. IN1 is the second row of framedot and γ of the
norms, IN2 is β. -/
def rowOp (o : List W64) (a : Tensor) (b c : Option Tensor) (out : Tensor) (rnd : Nat → Rounding) : Option Tensor :=
  let n := a.extent 0
  if n == 0 || !isElemFmt a.fmt then none
  else roundAll o out rnd <| (List.range (a.elems / n)).flatMap fun r =>
    let ys := furtherRow n r b
    (rowFn (oEe o) (f32 (fld (oParam o) 31 0)) ((List.range n).map fun i => a.val (r * n + i)) ys ys
      (furtherRow n r c)).1

/-- QUANT_MX (R93, R181): along OUT's block dimension, each block over the elements it holds. -/
def quantTensor (a out : Tensor) (rnd : Nat → Rounding) : Option Tensor :=
  if !isMx out.fmt || a.dims != out.dims || !isElemFmt a.fmt then none
  else
    let qs := (List.range out.blocks).map fun b =>
      let ms := out.members b
      (ms, quantBlock out.fmt (fun j => rnd (ms.getD j 0)) 0 (ms.map a.val))
    let codes : Tbl Nat := qs.flatMap fun q => q.1.zip q.2.2.1
    some (out.filled (tget 0 codes) fun b => ((qs[b]?).map (·.2.1)).getD 0)

/-- The scale of a block of OUT whose elements come from one block of the source: none where they come from
several with different scales, for which the spec gives none. -/
def copiedScale (a : Tensor) (froms : List (Option Nat)) : Option Nat :=
  match (froms.map fun j => (j.map fun i => a.side (a.blockOf i)).getD 0).dedup with
  | [] => some 0
  | [v] => some v
  | _ => none

/-- Elements of the source taken bit for bit by index; none: zero bytes. With them what stands beside the elements;
`unstated` is the scale where the spec gives none. -/
def selectAll (a out : Tensor) (src : Nat → Option Nat) (unstated : Nat → Nat) : Tensor :=
  { out.filled (fun i => ((src i).map a.code).getD 0) (fun i =>
      if out.fmt = 0x21 then ((src i).map a.side).getD 0
      else (copiedScale a ((out.members i).map src)).getD (unstated i)) with lsb := a.lsb }

/-- Index of an element from its coordinates, and its coordinates from the index. -/
def flatOf (dims xs : List Nat) : Nat := (dims.zip xs).foldl (fun a d => a * d.1 + d.2) 0
def coordsOf (dims : List Nat) (i : Nat) : List Nat :=
  (List.range dims.length).map fun k => i / extentProduct (dims.drop (k + 1)) % dims.getD k 1

/-- COPY (R179): dimension k of OUT is dimension PERM[k] of IN0. -/
def copyTensor (o : List W64) (a out : Tensor) (unstated : Nat → Nat) : Option Tensor :=
  let perm := (List.range a.dims.length).map fun k => fld (oParam o) (4 * k + 3) (4 * k)
  if a.fmt != out.fmt || out.dims != perm.map (a.dims.getD · 0) then none
  else some <| selectAll a out (fun i =>
    let xs := coordsOf out.dims i
    some (flatOf a.dims ((List.range a.dims.length).map fun d =>
      ((perm.zip xs).find? (·.1 == d)).elim 0 (·.2)))) unstated

/-- The signed value of an INT32 element. -/
def Tensor.int32 (t : Tensor) (i : Nat) : Int := (BitVec.ofNat 32 (t.code i)).toInt

/-- GATHER (R180): an index outside DIM0 of IN0 gives a row of zero bytes. -/
def gatherTensor (a b out : Tensor) (unstated : Nat → Nat) : Option Tensor :=
  let row := extentProduct a.dims.tail
  if a.fmt != out.fmt || b.fmt != 0x20 || out.elems != b.elems * row || out.dims.reverse.take (a.dims.length - 1) !=
      a.dims.tail.reverse then none
  else some <| selectAll a out (fun i =>
    let x := b.int32 (i / row)
    if 0 ≤ x && x < a.dims.headD 0 then some (x.toNat * row + i % row) else none) unstated

/-- The token that row r of IN0 of KV_APPEND gives (R180): K and V, each with its scales behind its elements, and what
the conversion counts (R86, R93). -/
def kvToken (pool a : Tensor) (rnd : Nat → Rounding) (r : Nat) : Option (List Byte × Counts) :=
  let h := pool.extent 1 * pool.extent 0
  let half : Tensor := { fmt := pool.fmt, dims := pool.dims.drop 1 }
  let total (cs : List Counts) : Counts := cs.foldl Counts.add {}
  let one (x : Nat) : List Byte × Counts :=
    let base := (2 * r + x) * h
    let t : Tensor × Counts :=
      if a.fmt = pool.fmt then (half.filled (fun i => a.code (base + i)) fun b => a.side (base / 32 + b), {})
      else if isMx pool.fmt then
        let qs := (List.range (h / 32)).map fun b =>
          quantBlock pool.fmt (fun j => rnd (base + 32 * b + j)) 0
            ((List.range 32).map fun j => a.val (base + 32 * b + j))
        (half.filled (fun i => ((qs[i / 32]?).map fun q => q.2.1.getD (i % 32) 0).getD 0)
          fun b => ((qs[b]?).map (·.1)).getD 0, total (qs.map (·.2.2)))
      else
        let cs := (List.range h).map fun i => roundTo pool.fmt (rnd (base + i)) (a.val (base + i))
        (half.filled (fun i => (cs.getD i (0, {})).1) fun _ => 0, total (cs.map (·.2)))
    (t.1.bytes, t.2)
  if a.dims.drop 1 == pool.dims then some ((one 0).1 ++ (one 1).1, (one 0).2.add (one 1).2) else none

/-- K or V of a token. -/
def kvHalfOf (pool : Tensor) (v : Bool) (token : List Byte) : Tensor :=
  let half : Tensor := { fmt := pool.fmt, dims := pool.dims.drop 1 }
  { half with bytes := (token.drop (if v then half.size else 0)).take half.size }

/-- One head of ATTEND for one sequence (R180): D values before the output rounding. -/
def attendHead (a pool : Tensor) (scale : Val) (r h : Nat) (tokens : List (List Byte)) : List Val :=
  let d := pool.extent 0
  let q := (r * pool.extent 1 + h) * d
  let ks := tokens.map (kvHalfOf pool false)
  let vs := tokens.map (kvHalfOf pool true)
  let scores := ks.map fun k =>
    let t := dotProduct a.fmt pool.fmt <| (List.range d).map fun i =>
      { a := a.raw (q + i), b := k.raw (h * d + i)
        scale := match a.scale (q + i), k.scale (h * d + i) with | some u, some v => some (u + v) | _, _ => none }
    mul32 (step32 (t.frame.val t.lsb)) scale
  let m := match scores with | [] => .zero false | x :: xs => xs.foldl maxV x
  let es := scores.map fun x => expV (sub32 x m)
  let sum := (frame32 (es.map fun e => (e, oneV))).1
  (List.range d).map fun i => div32 (frame32 (es.zip (vs.map fun v => v.val (h * d + i)))).1 sum

/-- ATTEND (R180): row r against the tokens of running sequence r; rows beyond them are +0. -/
def attend (o : List W64) (a pool out : Tensor) (rnd : Nat → Rounding) (seqs : List (List (List Byte))) :
    Option Tensor :=
  if a.dims.drop 1 != pool.dims.drop 1 || out.elems != a.elems then none
  else
    let heads := pool.extent 1
    let rows := a.dims.headD 0
    roundAll o out rnd <| (List.range rows).flatMap fun r =>
      match seqs[r]? with
      | none => List.replicate (heads * pool.extent 0) (.zero false)
      | some ts => (List.range heads).flatMap fun h => attendHead a pool (f32 (fld (oParam o) 31 0)) r h ts

/-- REDUCE_CHIPS (R84 steps 3 and 4, R179): this chip's wide partials and the other chips', combined by R79 and rounded
once. -/
def reduceChips (o : List W64) (a out : Tensor) (others : List (List Byte)) (rnd : Nat → Rounding) : Option Tensor :=
  if a.fmt != 0x21 || a.elems != out.elems || out.fmt != oOutFmt o then none
  else match a.lsb with
    | none => none
    | some q => closeAll o out rnd q fun i =>
        others.foldl (fun d bs => d.bind (ontoWide (some { a with bytes := bs }) q i)) (a.wide q i)

/-- SCATTER_ADD with RELAXED 0 at its destination (R342): each element of OUT and those of the slots, in ascending chip
index, summed with framesum (R90). That the element which stood there takes part is a DESIGN CHOICE
(notes/assumptions/92.md). -/
def scatterAdd (o : List W64) (out : Tensor) (slots : List (List Byte)) (rnd : Nat → Rounding) : Option Tensor :=
  if !isElemFmt out.fmt then none
  else roundAll o out rnd <| (List.range out.elems).map fun i =>
    (frameSum ((out :: slots.map fun bs => { out with bytes := bs }).map fun t => (t.val i, oneV))).1

/-- Rows of the flags of SEQ_END that mark a departure (R179). -/
def endedRows (a : Tensor) (n : Nat) : List Nat :=
  (List.range (Nat.min n (a.dims.headD 0))).filter fun r => a.int32 r != 0

end Sys2Proof.Machine
end

