-- ==== Sys2Proof/Machine/Graph.lean ====
section
/-! DEFINITION. One step of an FTG program (R177–R181): every operation of the table in order, on tensors in the
job's memory. What the descriptors of the rings compute is the same result in parts (R184); here it stands whole
(notes/assumptions/92.md). -/

namespace Sys2Proof.Machine

/-- Who a job's own accesses come from (R31). -/
def jobIssuer (s : State) (h : Nat) : Issuer :=
  { sleeve := (job s h).owner, job := h, gen := (job s h).gen }

/-- Tokens a KV page holds (R192). -/
def tpp (j : Job) : Nat := 65536 / j.tokenBytes

/-- The operations of a program. -/
def progOps (p : List Byte) : List (List W64) := (List.range (pOps p)).map (opAt p)

/-- The program appends a token to each running sequence in a step (R180). -/
def appends (p : List Byte) : Bool := (progOps p).any fun o => oCode o == 7

/-- The lsb exponent of the operand formats of a wide partial (R81): those of the operation that forms it, or of one
that accumulates onto it; what copies or reduces it keeps them. `fuel` bounds the operations looked through. -/
def wideLsb (p : List Byte) : Nat → Nat → Option Int
  | 0, _ => none
  | fuel + 1, i =>
    let formats (o : List W64) : Int := lsbExp (tFmt (tensorAt p (oIn o 0))) + lsbExp (tFmt (tensorAt p (oIn o 1)))
    let matrix (o : List W64) : Bool := oCode o == 1 || oCode o == 2
    match (progOps p).find? fun o => oOut o == i with
    | some o =>
      if matrix o then some (formats o)
      else if oCode o == 6 || oCode o == 9 || oCode o == 0x0B then wideLsb p fuel (oIn o 0) else none
    | none => ((progOps p).find? fun o => matrix o && oIn o 2 == i).map formats

/-- Tensor i as its entry describes it; IN1 of a matrix operation is column-blocked (R178, R181). -/
def progTensor (p : List Byte) (i : Nat) : Tensor :=
  let t := tensorAt p i
  { fmt := tFmt t, dims := tDims t
    lsb := if tFmt t = 0x21 then wideLsb p (pOps p) i else none
    col := isMx (tFmt t) && (progOps p).any fun o => (oCode o == 1 || oCode o == 2) && oIn o 1 == i }

/-- A tensor whose contents the spec does not give: free bytes. -/
def freeTensor (j : Job) (number : Nat) (t : Tensor) : Tensor :=
  { t with bytes := (List.range t.size).map (Config.tensorByte j.program j.step number) }

/-- The course of a step: the state, the tensors it has computed, whether KV_APPEND has run, and the sequences that
SEQ_END has marked. -/
structure GraphRun where
  st : State
  env : List (Nat × Tensor) := []
  appended : Bool := false
  ended : List Nat := []

/-- What keeps a step from going on: the address and the failed check of an access. -/
abbrev Halt := Nat × Bar

def orHalt {α : Type} (a : Nat) : Except Bar α → Except Halt α
  | .ok x => .ok x
  | .error b => .error (a, b)

/-- The device address in entry i of a list (R182). -/
def listEntry (s : State) (h list i : Nat) : Except Halt Nat :=
  match orHalt (list + 16 * i) (devRead s (jobIssuer s h) (list + 16 * i) 16) with
  | .ok bs => .ok (fld (leW64 bs) 47 0)
  | .error e => .error e

/-- Where a tensor lies in the job's memory: its list entry's address, or what lowering gave it; none: nowhere. -/
def tensorHome (s : State) (h i : Nat) : Except Halt (Option Nat) :=
  let j := job s h
  let t := tensorAt j.program i
  match tRole t with
  | 1 => (listEntry s h (fld (wd j.block 3) 47 0) (tBind t)).map some
  | 2 => (listEntry s h (fld (wd j.block 4) 47 0) (tBind t)).map some
  | _ => .ok ((j.lowered.tensors.find? (·.1 == i)).map (·.2))

/-- A tensor as an operation reads it: as the step has computed it, else from memory. -/
def loadTensor (r : GraphRun) (h i : Nat) : Except Halt Tensor :=
  match r.env.find? (·.1 == i) with
  | some e => .ok e.2
  | none =>
    let j := job r.st h
    let t := progTensor j.program i
    match tensorHome r.st h i with
    | .error e => .error e
    | .ok none => .ok (freeTensor j (2 ^ 20 + i) t)
    | .ok (some a) => (orHalt a (devRead r.st (jobIssuer r.st h) a t.size)).map fun bs => { t with bytes := bs }

/-- A tensor as an operation leaves it, in memory where it lies there. -/
def storeTensor (r : GraphRun) (h i : Nat) (t : Tensor) : Except Halt GraphRun :=
  let put (s : State) : GraphRun := { r with st := s, env := (i, t) :: r.env.filter (·.1 != i) }
  match tensorHome r.st h i with
  | .error e => .error e
  | .ok none => .ok (put r.st)
  | .ok (some a) => (orHalt a (devWrite r.st (jobIssuer r.st h) .wr a t.bytes)).map put

/-- Running sequences in ascending number: the rows of a batch tensor (R179). -/
def batch (j : Job) : List Seq :=
  sortBy (fun a b => a.number ≤ b.number) (j.pool.seqs.filter (·.st == .running))

/-- Device address of token t of a sequence (R192). -/
def tokenAddr (j : Job) (q : Seq) (t : Nat) : Option Nat :=
  (q.pages[t / tpp j]?).map fun p => p * 65536 + t % tpp j * j.tokenBytes

/-- The KV pool tensor of a program. -/
def poolTensor (p : List Byte) : Tensor :=
  match (poolsOf p).head? with
  | some t => { fmt := tFmt t, dims := tDims t }
  | none => { fmt := 0, dims := [] }

/-- A format that no ring descriptor converts into (R86, R125, R130): KV_APPEND into such a pool counts here, the others
where the descriptors count. -/
def countedHere (f : Nat) : Bool := f == 0x01 || f == 0x03 || f == 0x04 || f == 0x05

/-- The tokens of rows r, r + 1, … of IN0 written, each at index L of its sequence. -/
def appendTokens (h n : Nat) (a : Tensor) (rnd : Nat → Rounding) : List Seq → Nat → State → Except Halt State
  | [], _, s => .ok s
  | q :: qs, r, s =>
    let j := job s h
    match tokenAddr j q q.len with
    | none => appendTokens h n a rnd qs (r + 1) s
    | some addr =>
      let pool := poolTensor j.program
      let token := (kvToken pool a rnd r).getD
        ((List.range j.tokenBytes).map fun i => Config.tensorByte j.program j.step n (r * 65536 + i), {})
      match devWrite s (jobIssuer s h) .wr addr token.1 with
      | .error b => .error (addr, b)
      | .ok s => appendTokens h n a rnd qs (r + 1) (if countedHere pool.fmt then addCounts s h token.2 else s)

/-- KV_APPEND (R180): one token per running sequence at its index L. -/
def kvAppend (r : GraphRun) (h n : Nat) (a : Tensor) (rnd : Nat → Rounding) : Except Halt GraphRun :=
  (appendTokens h n a rnd ((batch (job r.st h)).take (a.dims.headD 0)) 0 r.st).map fun s =>
    { r with st := s, appended := true }

/-- The tokens that each running sequence holds, those of this step among them once KV_APPEND has run (R180). -/
def heldTokens (r : GraphRun) (h : Nat) : Except Halt (List (List (List Byte))) :=
  let j := job r.st h
  (batch j).mapM fun q =>
    ((List.range (q.len + if r.appended then 1 else 0)).filterMap (tokenAddr j q)).mapM fun a =>
      orHalt a (devRead r.st (jobIssuer r.st h) a j.tokenBytes)

/-- What operation n of the step has in a list of the other chips' parts. -/
def ofOp {α : Type} (l : List (Nat × List α)) (n : Nat) : List α := ((l.find? (·.1 == n)).map (·.2)).getD []

/-- The bytes that the relaxed atomics of a SCATTER_ADD have left in its OUT tensor: their order of arrival decides them
(R342), so the step's report gives them (notes/assumptions/92.md). -/
def landedTensor (o : StepObs) (n : Nat) (t : Tensor) : Option Tensor :=
  (o.landed.find? (·.1 == n)).map fun x => { t with bytes := (x.2 ++ List.replicate t.size 0).take t.size }

/-- A wide partial that REDUCE_CHIPS sums, by itself or through what accumulates onto it (R84). -/
def summedTensors (p : List Byte) : List Nat :=
  (progOps p).foldr (fun o l =>
    if oCode o == 9 then oIn o 0 :: l
    else if (oCode o == 1 || oCode o == 2) && l.contains (oOut o) then oIn o 2 :: l else l) []

/-- The operation's dot products are split over the chips of the job (R84). -/
def splitOp (p : List Byte) (o : List W64) : Bool :=
  pChips p > 1 && (oCode o == 1 || oCode o == 2) && (summedTensors p).contains (oOut o)

/-- Every chip operation of the step has completed on this chip (R84, R190): the other chips' views of each split
operation are here, at the root their partials, and each SCATTER_ADD is reported. The root of REDUCE_CHIPS is chip 0
(DESIGN CHOICE, notes/assumptions/92.md). -/
def chipsDone (j : Job) (obs : StepObs) : Bool :=
  let p := j.program
  let others := pChips p - 1
  (List.range (pOps p)).all fun n =>
    let o := opAt p n
    (!splitOp p o || (ofOp obs.views n).length == others) &&
    (oCode o != 9 || fld (wd j.block 1) 63 54 != 0 || (ofOp obs.partials n).length == others) &&
    (oCode o != 0x0A || pChips p == 1 || obs.slots.any (·.1 == n) || obs.landed.any (·.1 == n))

/-- What operation number n computes from its inputs (R179, R180): its OUT tensor; none: the spec gives no result for
tensors of these shapes. -/
def opResult (j : Job) (obs : StepObs) (n : Nat) (o : List W64) (ins : List (Option Tensor)) (out : Tensor)
    (seqs : List (List (List Byte))) : Option Tensor :=
  let rnd := opRounding o n j.step (fld (wd j.block 1) 63 54)
  let i0 := (ins.getD 0 none).getD out
  let i1 := ins.getD 1 none
  let i2 := ins.getD 2 none
  let free (i : Nat) : Nat := (Config.tensorByte j.program j.step n i).toNat
  match oCode o with
  | 0x01 => matmul o i0 (i1.getD i0) (i2.filter (·.fmt == 0x21)) out rnd (ofOp obs.views n)
  | 0x02 => conv2d o i0 (i1.getD i0) (i2.filter (·.fmt == 0x21)) out rnd (ofOp obs.views n)
  | 0x03 => elementwise o (ins.filterMap id) out rnd
  | 0x04 => rowOp o i0 i1 i2 out rnd
  | 0x05 => quantTensor i0 out rnd
  | 0x06 => copyTensor o i0 out free
  | 0x08 => attend o i0 (poolTensor j.program) out rnd seqs
  | 0x09 => reduceChips o i0 out (ofOp obs.partials n) rnd
  | 0x0B => gatherTensor i0 (i1.getD i0) out free
  | _ => none

/-- What SCATTER_ADD number n makes of this chip's OUT tensor; none: no other chip has added to it (R179, R342). -/
def scattered (obs : StepObs) (n : Nat) (o : List W64) (out : Tensor) (rnd : Nat → Rounding) : Option Tensor :=
  if oRelaxed o then landedTensor obs n out
  else if (ofOp obs.slots n).isEmpty then none else scatterAdd o out (ofOp obs.slots n) rnd

/-- One operation of a step. REDUCE_CHIPS writes OUT on the root chip alone (R343, ROOT_ONLY). -/
def runOp (h : Nat) (obs : StepObs) (r : GraphRun) (n : Nat) : Except Halt GraphRun :=
  let j := job r.st h
  let o := opAt j.program n
  let input (k : Nat) : Except Halt (Option Tensor) :=
    if oIn o k == noTensor then .ok none else (loadTensor r h (oIn o k)).map some
  match [0, 1, 2].mapM input with
  | .error e => .error e
  | .ok ins =>
    let i0 := (ins.getD 0 none).getD { fmt := 0, dims := [] }
    match oCode o with
    | 0x07 => kvAppend r h n i0 (opRounding o n j.step (fld (wd j.block 1) 63 54))
    | 0x0C =>
      let qs := batch j
      .ok { r with ended := r.ended ++ (endedRows i0 qs.length).filterMap fun x => (qs[x]?).map (·.number) }
    | 0x0A => match loadTensor r h (oOut o) with
      | .error e => .error e
      | .ok out => match scattered obs n o out (opRounding o n j.step (fld (wd j.block 1) 63 54)) with
        | none => .ok r
        | some t => storeTensor r h (oOut o) t
    | c =>
      if c = 9 && fld (wd j.block 1) 63 54 != 0 then .ok r else
      let out := progTensor j.program (oOut o)
      match (if c = 8 then heldTokens r h else .ok []) with
      | .error e => .error e
      | .ok seqs =>
        match opResult j obs n o ins out seqs with
        | some t => storeTensor r h (oOut o) t
        | none => storeTensor r h (oOut o) (freeTensor j n out)

/-- Every operation of the table, in order (R177). -/
def runStep (s : State) (h : Nat) (obs : StepObs) : Except Halt GraphRun :=
  (List.range (pOps (job s h).program)).foldlM (runOp h obs) { st := s }

end Sys2Proof.Machine
end

