-- ==== Sys2Proof/Machine/JobCmds.lean ====
section
/-! DEFINITION. Jobs, steps, the sequence pool, cadence, snapshots and teardown (chapter 06):
R182–R204. -/

namespace Sys2Proof.Machine

/-! ### Fields of a submission block and its header -/

def blkProgram (b : List W64) : Nat := fld (wd b 0) 63 16
def blkMode (b : List W64) : Nat := fld (wd b 0) 15 12
def blkStepRecords (b : List W64) : Bool := bitOf (wd b 0) 10
def blkEngines (b : List W64) : Nat := fld (wd b 0) 9 6 + 1
def blkDynamic (b : List W64) : Bool := bitOf (wd b 0) 5
def blkRingEntries (b : List W64) : Nat := fld (wd b 2) 63 52 + 1
def blkRing (b : List W64) : Nat := fld (wd b 2) 47 0
def blkDeadline (b : List W64) : Nat := fld (wd b 6) 31 0
def blkPoolBonded (b : List W64) : Nat := fld (wd b 7) 63 40
def blkPoolSpill (b : List W64) : Nat := fld (wd b 7) 39 16
def hdrSteps (h : List W64) : Nat := (wd h 2).toNat
def hdrChips (h : List W64) : Nat := fld (wd h 3) 63 54 + 1
def hdrBody (h : List W64) : Nat := fld (wd h 3) 31 0
def hdrInputs (h : List W64) : Nat := fld (wd h 4) 63 48
def hdrOutputs (h : List W64) : Nat := fld (wd h 4) 47 32

/-- The first release after time t (R194): releases fall at the multiples of PERIOD on the raw counter, each at the tick
it falls in. That the counter's zero is the origin is DEDUCED (notes/assumptions/93.md). -/
def releaseAfter (period t : Nat) : Nat := usTicks (cdiv (4 * (t + 1)) (625 * Nat.max 1 period) * Nat.max 1 period)

/-! ### Submission (R183) -/

/-- The characterised time C [ns] of one release (R194): its passes' beats at 1.6 Gbeat/s (R45), its DMA bytes at a
tenth of the 409.6 GB/s of a pocket's DMA port (R23), plus 20 %. -/
def characterisedNs (prog : List Byte) : Nat :=
  cdiv (768 * Config.releaseBeats prog + 30 * Config.releaseBytes prog) 1024

/-- Loads by engine, with one more job on the lowest n cadence engines that have room for it; none: there are not n. -/
def reserve (s : State) (n : Nat) (share : Nat × Nat) (loads : List (List (Nat × Nat))) :
    Option (List (List (Nat × Nat))) :=
  let es := ((List.range 16).filter fun e => outsideCeiling s e && loadOk (share :: loads.getD e [])).take n
  if es.length < n then none
  else some ((List.range 16).map fun e => if es.contains e then share :: loads.getD e [] else loads.getD e [])

/-- Loads by engine of every admitted cadence job (R194): one not placed yet counts on the lowest engines with room
(DESIGN CHOICE, notes/assumptions/93.md). -/
def admittedLoads (s : State) : List (List (Nat × Nat)) :=
  s.jobs.foldl (fun l x =>
    match cadenceShare x.2 with
    | none => l
    | some f => (reserve s (blkEngines x.2.block - (jobSlots s x.1).length) f l).getD l)
    ((List.range 16).map (cadenceLoad s))

/-- The admission test of R194. -/
def admitCadence (s : State) (c : Nat) (b : List W64) : Bool :=
  c ≤ blkDeadline b * 1000 && (reserve s (blkEngines b) (c, blkPeriod b * 1000) (admittedLoads s)).isSome

/-- The sleeve a submission belongs to: the tenant's own; for the manager and the BMC, the owner of the
page that holds PROGRAM (notes/assumptions/14.md). -/
def submitter (s : State) (p : Party) (b : List W64) : Option Nat :=
  match p with
  | .tenant k => some k
  | .radio => none
  | .fabric => none
  | _ =>
    let w := ownEntry s (blkProgram b / 65536)
    if ownValid w && ownOwner w != 0 then some (ownOwner w) else none

/-- Bytes of the CRC list that the output list gives (R163). -/
def crcListBytes (lens : List Nat) : Nat := (lens.map fun n => 16 + 8 * cdiv n 65536).sum

/-- A range does not lie in pages of the issuer with the permission; a page in move does (R31, R183). -/
def rangeDenied (s : State) (i : Issuer) (k : Kind) (addr len : Nat) : Bool :=
  !inWindow addr len || (pagesOf addr len).any fun p =>
    match ownCheck s i k p with | none => false | some .wait => false | some _ => true

/-- Check 1 of R183: the ranges that the block names lie in pages of the sleeve with the permission. -/
def rangesDenied (s : State) (k : Nat) (b h : List W64) : Bool :=
  let i : Issuer := { sleeve := k, sharedOnly := true }
  let j : Job := { block := b, header := h }
  let la := fld (wd b 5) 47 0
  rangeDenied s i .rd (blkProgram b) (Nat.max 64 (hdrBody h)) ||
  rangeDenied s i .wr (blkRing b) (192 * blkRingEntries b) ||
  rangeDenied s i .rd (fld (wd b 3) 47 0) (16 * hdrInputs h) ||
  rangeDenied s i .rd (fld (wd b 4) 47 0) (16 * hdrOutputs h) ||
  (la != 0 && rangeDenied s i .wr la (Nat.max 1 (crcListBytes ((jobOutputs s j).map (·.2)))))

/-- The lowest FREE handle of 1–4,095 (R183). -/
def freeHandle (s : State) : Option Nat :=
  let used := (s.jobs.filter fun e => e.2.st != .free).map (·.1) ++ mapHandles s
  ((findPages (0 :: used) (used.length + 2) 1 0).filter (· ≤ 4095)).head?

/-- Handles a sleeve holds (R209). -/
def handlesHeld (s : State) (k : Nat) : Nat :=
  (s.jobs.filter fun e => e.2.owner == k && e.2.st != .free).length

/-- Pages of an accepted job taken from its sleeve: its pool pages, its save area, and pages for its rings with
PERM_WR 0 (R183 check 4, R184, R187). With them the pool's pages and those of the save area. -/
def takeJobPages (s : State) (k h gen : Nat) (b : List W64) (prog : List Byte) :
    Option (State × List Nat × List Nat) :=
  let own := some (h, gen)
  match takePages s k own 0 12 (blkPoolBonded b) with
  | none => none
  | some (s, p0) => match takePages s k own 1 12 (blkPoolSpill b) with
    | none => none
    | some (s, p1) => match takePages s k own 1 12 (Config.savePages prog) with
      | none => none
      | some (s, sv) => match takePages s k own 1 8 (Config.ringPages prog) with
        | none => none
        | some (s, _) => some (s, p0 ++ p1, sv)

/-- The chip map that a submission with CHIPS > 1 names (R337, R352): DENIED when it is another sleeve's,
BAD_FIELD when there is none, when it does not fit, or when its number has a job already. -/
def submitMap (s : State) (k : Nat) (b h : List W64) : Except Status Nat :=
  match mapOf s (fld (wd b 1) 31 8) with
  | none => .error .badField
  | some m =>
    if m.sleeve != k then .error .denied
    else if m.sink || m.devs.length != hdrChips h || m.devs[fld (wd b 1) 63 54]? != some s.fab.dev ||
        !(m.devs.all (reachable s)) || (job s m.handle).st != .free then .error .badField
    else .ok m.handle

/-- The handle that a submission runs on: the lowest FREE one, or its chip map's (R183, R337). -/
def submitHandle (s : State) (k : Nat) (b h : List W64) : Except Status Nat :=
  if hdrChips h > 1 then submitMap s k b h
  else match freeHandle s with
    | none => .error .noSpace
    | some n => .ok n

/-- Why a submission is refused: its status, and whether pages were lacking. -/
abbrev Refused := Status × Bool

/-- A submission under the checks of R183; on success the job is LOWERING under its handle. -/
def submit (s : State) (p : Party) (b : List W64) : Except Refused (State × Nat) :=
  match submitter s p b with
  | none => .error (.denied, false)
  | some k =>
    let h := wordsOf 8 (windowRead s (blkProgram b) 64)
    let prog := windowRead s (blkProgram b) (hdrBody h)
    if (sleeve s k).st == .absent || rangesDenied s k b h then .error (.denied, false)
    else if programBad b prog then .error (.badField, false)
    else match submitHandle s k b h with
      | .error st => .error (st, false)
      | .ok n =>
        let gen := (job s n).gen
        let c := characterisedNs prog
        match takeJobPages s k n gen b prog with
        | none => .error (.noSpace, true)
        | some (s', pages, save) =>
          if handlesHeld s k ≥ fld (wd (sleeve s k).record 0) 11 0 then .error (.noSpace, false)
          else if blkMode b == 2 && !admitCadence s c b then .error (.noSpace, false)
          else
            let s' := { s' with mgt := { s'.mgt with submissions := s'.mgt.submissions + 1 } }
            .ok (setJob s' n {
              st := .lowering, gen := gen, owner := k, held := true, block := b, header := h
              program := prog, order := s'.mgt.submissions, savePages := save
              tokenBytes := poolTokenBytes prog, pool := { pages := pages }
              cadence := if blkMode b == 2 then some { characterised := c, nextRelease := 0 }
                else none }, n)

/-- A job of a sleeve still drains its pages (R198). -/
def drainsPages (s : State) (k : Nat) : Bool := s.jobs.any fun e => e.2.owner == k && e.2.tear.isSome

/-- Handle and generation that JOB_SUBMIT returns. -/
def submitResult (s : State) (n : Nat) : List W64 := [w64 n, w64 (job s n).gen]

/-- JOB_SUBMIT (R183): OK with handle and generation; one that needs pages still draining waits for them (R198). -/
def execJobSubmit (cmd : Cmd) (s : State) : Host.Outcome State Fault Refusal :=
  .next <| serve 0x180 8 isSleeveUser cmd s fun p s =>
    let b := cmd.args.take 8
    match submit s p b with
    | .ok (s, n) => .ok s (submitResult s n)
    | .error (st, lacking) =>
      let k := (submitter s p b).getD 0
      if lacking && drainsPages s k then
        .defer fun s => modSleeve s k fun v => { v with submits := v.submits ++ [(cmd.src, b)] }
      else .fail st

/-- The submissions of a sleeve that wait for draining pages are tried again, in their order (R198). -/
def retrySubmits (s : State) (k : Nat) : State :=
  let ws := (sleeve s k).submits
  ws.foldl (fun s w =>
    match submit s (partyOf w.1) w.2 with
    | .ok (s, n) => finishLater s w.1 .ok (submitResult s n)
    | .error (st, lacking) =>
      if lacking && drainsPages s k then modSleeve s k fun v => { v with submits := v.submits ++ [w] }
      else finishLater s w.1 st []) (modSleeve s k fun v => { v with submits := [] })

/-! ### Lowering (R184, R187) -/

/-- Pages of a job with PERM_WR 0, which hold its rings (R184). -/
def ringPages (s : State) (h : Nat) : List Nat :=
  ((sleeve s (job s h).owner).pages.filter fun p => p.job == some h && p.perms == 8).map (·.page)

/-- The rings of a lowered context: first byte and length (R124, R184). -/
def Lowered.rings (c : Lowered) : List (Nat × Nat) :=
  [(c.fring, 128 * (c.feeder.length + 1)), (c.dring, 64 * (c.dma.length + 1)), (c.ering, 64 * (c.element.length + 1))]

/-- No two ranges of a list meet. -/
def disjointRanges : List (Nat × Nat) → Bool
  | [] => true
  | r :: rs => rs.all (fun q => r.1 + r.2 ≤ q.1 || q.1 + q.2 ≤ r.1) && disjointRanges rs

/-- The operation is a MATMUL or a CONV2D. -/
def isMatrixOp (o : List W64) : Bool := oCode o == 1 || oCode o == 2

/-- A chain of a MATMUL or CONV2D writes columns of its block of 256 alone, by its FLAT_BASE and N_VALID (R111, R125),
and stands on the engine that the block falls to, round-robin (R184). -/
def fedOk (prog : List Byte) (engines n : Nat) (f : Fed) : Bool :=
  let o := opAt prog f.op
  let cols := Nat.max 1 (tLast (tensorAt prog (oOut o)))
  let first := cFlat f.words % cols
  f.words.length == 16 && f.op < pOps prog &&
  (fld (wd f.words 0) 63 60 != 1 || !isMatrixOp o ||
    (f.block % engines == n && first / 256 == f.block && first + cCols f.words ≤ Nat.min cols (256 * (f.block + 1))))

/-- Every operation has descriptors (R184): a chain that closes each block of columns of a MATMUL or CONV2D, and an
element-engine descriptor for each ELEMENTWISE, ROW and QUANT_MX. -/
def allCovered (prog : List Byte) (o : LowerObs) : Bool :=
  (List.range (pOps prog)).all fun n =>
    let op := opAt prog n
    if isMatrixOp op then
      (List.range (cdiv (tLast (tensorAt prog (oOut op))) 256)).all fun b => o.contexts.any fun c =>
        c.feeder.any fun f => f.op == n && f.block == b && fld (wd f.words 0) 63 60 == 1 && cClose f.words
    else !(oCode op == 3 || oCode op == 4 || oCode op == 5) || o.contexts.any fun c => c.element.any (·.1 == n)

/-- Beats and DMA bytes of one step as lowered (R194). -/
def loweredBeats (o : LowerObs) : Nat :=
  (o.contexts.map fun c => (c.feeder.map fun f => if fld (wd f.words 0) 63 60 = 1 then
      (chainPasses f.words).length * passBeats f.words else 0).sum + (c.element.map fun d => elemBeats d.2).sum).sum
def loweredBytes (o : LowerObs) : Nat := (o.contexts.map fun c => (c.dma.map dBytes).sum).sum

/-- Weight and state tensors have a place (R178, R187, R199): weights in the pages that are to lie in bonded DRAM, state
in the job's own pages. -/
def placedOk (s : State) (h : Nat) (o : LowerObs) : Bool :=
  let j := job s h
  let own := ((sleeve s j.owner).pages.filter (·.job == some h)).map (·.page)
  (List.range (pTensors j.program)).all fun i =>
    let role := tRole (tensorAt j.program i)
    if role != 3 && role != 4 then true
    else match o.tensors.find? (·.1 == i) with
      | none => false
      | some t => (pagesOf t.2 (progTensor j.program i).size).all (if role = 3 then o.weights else own).contains

/-- What lowering reports stands (R124, R184, R187): a context for each engine, rings in the job's PERM_WR 0 pages, a
save area as large as the partitions, and of a cadence job the beats and bytes it was admitted with (R194). -/
def loweringOk (s : State) (h : Nat) (o : LowerObs) : Bool :=
  let j := job s h
  let pages := ringPages s h
  let rings := o.contexts.flatMap Lowered.rings
  o.contexts.length == blkEngines j.block &&
  16 * (o.contexts.map (·.size)).sum == j.savePages.length && allCovered j.program o && placedOk s h o &&
  (blkMode j.block != 2 || (loweredBeats o == Config.releaseBeats j.program &&
    loweredBytes o == Config.releaseBytes j.program)) &&
  (rings.all fun r => r.1 % 64 == 0 && (pagesOf r.1 r.2).all pages.contains) && disjointRanges rings &&
  (o.contexts.zip (List.range o.contexts.length)).all fun c =>
    1 ≤ c.1.size && [c.1.feeder.length, c.1.dma.length, c.1.element.length].all (· < 4096) &&
    (c.1.feeder.all (fedOk j.program (blkEngines j.block) c.2)) && (c.1.dma.all (·.length == 8)) &&
    c.1.element.all fun d => d.2.length == 8 && d.1 < pOps j.program

/-- A page of weights lies in bonded DRAM (R187). -/
def landed (s : State) (page : Nat) : Bool :=
  ownLoc (ownEntry s page) == 1 && !s.pkg.moves.any fun m => m.page == page

/-- The weight pages of a job that lie elsewhere move to bonded frames (R187, R34), as far as frames are free. -/
def bringWeights (s : State) (h : Nat) : State :=
  let j := job s h
  j.lowered.weights.foldl (fun s p =>
    let w := ownEntry s p
    if !ownValid w || ownOwner w != j.owner || ownLoc w != 2 || s.pkg.moves.any fun m => m.page == p then s
    else startMove s p 2 (ownFrame w) 1) s

/-- The state tensors of a restored job are written where lowering has placed them (R199, R201). -/
def putCarried (s : State) (h : Nat) : State :=
  let j := job s h
  modJob (j.carried.foldl (fun s c => match j.lowered.tensors.find? (·.1 == c.1) with
    | some t => windowWrite s t.2 c.2
    | none => s) s) h fun j => { j with carried := [] }

/-- LOWERING_DONE (R184): WAITING, with its weights on their way, or the end of the job with BAD_FIELD. -/
def execLoweringDone (h : Nat) (ok : Bool) (lowered : LowerObs) (s : State) : Host.Outcome State Fault Refusal :=
  .next <|
    if (job s h).st != .lowering then s
    else if !ok then beginTeardown s h (statusCode .badField) 1
    else if !loweringOk s h lowered then s
    else
      let s := putCarried (modJob s h fun j => { j with st := .waiting, lowered := lowered }) h
      if (sleeve s (job s h).owner).st == .active then bringWeights s h else s

/-! ### The descriptors of a step (R124, R184) -/

/-- A word of a descriptor that names its operation and step (R184). -/
def opStep (n step : Nat) : W64 := pack 64 [(32, n), (0, step % 2 ^ 32)]

/-- A chain descriptor, and an element-engine descriptor, with OP_NUMBER and STEP_NUMBER filled in (R125, R130). -/
def Fed.fill (step : Nat) (f : Fed) : List W64 :=
  if fld (wd f.words 0) 63 60 = 1 then f.words.set 14 (opStep f.op step) else f.words
def fillElement (step : Nat) (d : Nat × List W64) : List W64 := d.2.set 5 (opStep d.1 step)

/-- Descriptors written behind a ring's TAIL, which then moves past them (R124). -/
def fillRing (s : State) (r : Ring) (ds : List (List W64)) (size : Nat) : State × Ring :=
  ds.foldl (fun x d =>
    (windowWrite x.1 (x.2.addr + size * x.2.tail) (bytesOf d),
      { x.2 with tail := (x.2.tail + 1) % (x.2.entries + 1) })) (s, r)

/-- A step starts (R190): the descriptors of every context stand in its rings. -/
def startStep (s : State) (h : Nat) : State :=
  let j := job s h
  (j.ctxs.zip j.lowered.contexts).foldl (fun s c =>
    let x := slot s c.1.1 c.1.2
    let (s, f) := fillRing s x.fring (c.2.feeder.map (Fed.fill j.step)) 128
    let (s, d) := fillRing s x.dring c.2.dma 64
    let (s, e) := fillRing s x.ering (c.2.element.map (fillElement j.step)) 64
    modSlot s c.1.1 c.1.2 fun x => { x with fring := f, dring := d, ering := e }) s

/-! ### Placement (R185, R187) -/

/-- A context that may be evicted (R187): of a job in free mode, with no pass or DMA in flight, not held by a referee. -/
def evictable (s : State) (e i : Nat) : Bool :=
  let x := slot s e i
  x.valid && x.job != 0 && jobMode (job s x.job) == 0 && x.dma.isEmpty && !x.refHold && !inFlight s e i

/-- Among the contexts of other jobs that may be evicted, this one has started no pass for the longest
time (R187). -/
def longestIdle (s : State) (h e i : Nat) : Bool :=
  let x := slot s e i
  (List.range 16).all fun e' => (List.range 4).all fun i' =>
    let y := slot s e' i'
    !(evictable s e' i' && y.job != h) || x.lastStart ≤ y.lastStart

/-- Tenant admission of a die by its throttle level (R65): no new job at level 1, none at all above. -/
def admits (s : State) (d : Nat) (isNew : Bool) : Bool :=
  (diePwr s d).level == 0 || ((diePwr s d).level == 1 && !isNew)

/-- One place of a job is possible (R185, R121, R187). -/
def placeOk (s : State) (h : Nat) (size : Nat) (p : Place) : Bool :=
  let j := job s h
  let x := slot s p.engine p.slot
  p.engine < 16 && p.slot < 4 && eligibleFor s h p.engine && p.size == size && 1 ≤ size &&
  p.base + p.size ≤ tenantMiB s &&
  admits s (p.engine / 4) (j.saved.isEmpty && j.ctxs.isEmpty) &&
  (if p.evict then evictable s p.engine p.slot && x.job != h && longestIdle s h p.engine p.slot else !x.valid) &&
  ((List.range 4).all fun i => i == p.slot ||
    (let y := slot s p.engine i
     !y.valid || p.base + p.size ≤ y.base || y.base + y.size ≤ p.base)) &&
  (cadenceShare j).all fun f => loadOk (f :: cadenceLoad s p.engine)

/-- Contexts of a job still to place: those in its save area, or all of them. -/
def toPlace (j : Job) : List (Nat × Slot) :=
  if j.saved.isEmpty && j.ctxs.isEmpty then
    (List.range j.sizes.length).map fun n => (n, { size := j.sizes.getD n 1 })
  else j.saved

/-- An empty ring for n descriptors of a step (R134). -/
def ringFor (addr n : Nat) : Ring := { entries := n, addr := addr }

/-- The context is paced: its job's mode is, and it does not run in free order (R185, R195). -/
def pacedNow (j : Job) : Bool := jobMode j != 0 && !j.cadence.any (·.freeOrder)

/-- One context placed: an eviction first where named, then the slot, and the saved partition. -/
def placeOne (s : State) (h : Nat) (c : Nat × Slot) (p : Place) : State :=
  let s := if p.evict then evictSlot s p.engine p.slot else s
  let j := job s h
  let back := j.saved.any (·.1 == c.1)
  let s := if back then loadPages s (pocketKey p.engine (p.base * 2 ^ 20)) (savePart j c.1) else s
  let l := j.lowered.contexts.getD c.1 { size := 0, fring := 0, dring := 0, ering := 0 }
  let x : Slot := if back then { c.2 with base := p.base, paced := pacedNow j }
    else { valid := true, sleeve := j.owner, paced := pacedNow j, base := p.base, size := p.size, job := h
           fring := ringFor l.fring l.feeder.length, dring := ringFor l.dring l.dma.length
           ering := ringFor l.ering l.element.length }
  let s := wakeEngine (setSlot s p.engine p.slot x) p.engine
  modJob s h fun j => { j with
    ctxs := if c.1 < j.ctxs.length then j.ctxs.set c.1 (p.engine, p.slot)
      else j.ctxs ++ [(p.engine, p.slot)]
    saved := j.saved.filter (·.1 != c.1) }

/-- Resident tenant contexts of a sleeve (R209). -/
def residents (s : State) (k : Nat) : Nat :=
  ((List.range 16).map fun e => ((List.range 4).filter fun i =>
    (slot s e i).valid && (slot s e i).sleeve == k).length).sum

/-- The places of a job are possible one after another, each once those before it are taken: an eviction may free room
for the next (R187). -/
def placesOk (h : Nat) : List ((Nat × Slot) × Place) → State → Bool
  | [], _ => true
  | c :: cs, s => placeOk s h c.1.2.size c.2 && placesOk h cs (placeOne s h c.1 c.2)

/-- All the places named for a WAITING job stand (R185, R209): the contexts of a new job in ascending engine number, the
order in which they take blocks of columns (R184). -/
def placesStand (s : State) (h : Nat) (places : List Place) : Bool :=
  let j := job s h
  let cs := toPlace j
  let k := sleeve s j.owner
  j.st == .waiting && k.st == .active && places.length == cs.length && j.lowered.weights.all (landed s) &&
  (s.jobs.all fun e => !(e.2.owner == j.owner && e.2.st == .waiting) || j.order ≤ e.2.order) &&
  (places.map (·.engine)).dedup.length == places.length &&
  (j.saved.length != 0 || places.length == blkEngines j.block) &&
  (j.saved.length != 0 || List.Pairwise (· < ·) (places.map (·.engine))) &&
  placesOk h (cs.zip places) s &&
  residents s j.owner + places.length ≤ fld (wd k.record 0) 19 12

/-- A job starts with its placement: it has several chips and no context yet (R344). -/
def startsAtBarrier (j : Job) : Bool := hdrChips j.header > 1 && j.saved.isEmpty && j.ctxs.isEmpty

/-- The contexts of a job placed, and the job RUNNING; the step it starts with stands in its rings, but for a cadence
job's, whose first release is to come (R185, R194). -/
def placeAll (s : State) (h : Nat) (places : List Place) : State :=
  let starts := startsAtBarrier (job s h)
  let isNew := (job s h).saved.isEmpty && (job s h).cadence.isNone
  let s := ((toPlace (job s h)).zip places).foldl (fun s c => placeOne s h c.1 c.2) s
  let s := if isNew then startStep s h else s
  modJob s h fun j => { j with
    st := .running
    barrierStep := if starts then some 0 else j.barrierStep
    cadence := j.cadence.map fun c =>
      if c.nextRelease == 0 then { c with nextRelease := releaseAfter (blkPeriod j.block) (now s) }
      else c }

/-! ### The sequence pool (R192, R193) -/

/-- Pages of the pool that back running sequences or are free for them: bonded ones. -/
def poolPages (s : State) (j : Job) (kind : Nat) : List Nat :=
  ((sleeve s j.owner).pages.filter fun p => p.kind == kind && j.pool.pages.contains p.page).map
    (·.page)

/-- Pool pages of a kind that no sequence holds. -/
def poolFree (s : State) (j : Job) (kind : Nat) : List Nat :=
  (poolPages s j kind).filter fun p => !(j.pool.seqs.any fun q => q.pages.contains p)

/-- Two pages exchange their frames, the first keeping its contents (R34): `p` moves to the other
kind of memory, `q` takes the frame it leaves, zeroed. -/
def swapPages (s : State) (k p q : Nat) : State :=
  let wp := ownEntry s p
  let wq := ownEntry s q
  let place (w v : W64) : W64 := (w &&& ~~~(0xC0FFFFFF : W64)) ||| (v &&& (0xC0FFFFFF : W64))
  let kp := frameBase (ownLoc wp) (ownFrame wp)
  let kq := frameBase (ownLoc wq) (ownFrame wq)
  let s := physZero (physCopy s kq kp 65536) kp 65536
  let s := setOwn (setOwn s p (place wp wq)) q (place wq wp)
  let kind (x : Nat) := (((sleeve s k).pages.find? (·.page == x)).map (·.kind)).getD 0
  modSleeve s k fun v => { v with pages := v.pages.map fun r =>
    if r.page = p then { r with kind := kind q }
    else if r.page = q then { r with kind := kind p } else r }

/-- What a boundary's pool work gathers: events as (number, EVENT, pages), and the counts of W11. -/
structure PoolWork where
  events : List (Nat × Nat × Nat) := []
  joined : Nat := 0
  deferred : Nat := 0
  preempted : Nat := 0
  departed : Nat := 0
  /-- Sequences pre-empted at this boundary. -/
  fresh : List Nat := []
  choices : Nat := 0

def setSeqs (s : State) (h : Nat) (f : List Seq → List Seq) : State :=
  modJob s h fun j => { j with pool := { j.pool with seqs := f j.pool.seqs } }

def seqUpdate (n : Nat) (f : Seq → Seq) (qs : List Seq) : List Seq :=
  qs.map fun q => if q.number = n then f q else q

/-- Stage 1: departures (R192): sequences that SEQ_END marked, whose SEQ_LEAVE names this step, or that
have reached 2^20 tokens (R180). A queued join whose SEQ_LEAVE names this step leaves the queue, holding no page
(notes/assumptions/81.md). -/
def departures (s : State) (h : Nat) (ended : List Nat) (w : PoolWork) : State × PoolWork :=
  let j := job s h
  let leaves (n : Nat) : Bool := j.pool.leaves.any fun l => l.1 == n && l.2 == j.step
  let gone := j.pool.seqs.filter fun q => ended.contains q.number || leaves q.number ||
    (q.st == .running && q.len ≥ 2 ^ 20)
  let unjoined := j.pool.joins.filter fun a => leaves a.number
  let s := (gone.flatMap (·.pages)).foldl (fun s p =>
    physZero s (windowKey s (p * 65536)) 65536) s
  let s := modJob s h fun j => { j with pool := { j.pool with
    seqs := j.pool.seqs.filter fun q => !(gone.any (·.number == q.number))
    joins := j.pool.joins.filter fun a => !leaves a.number
    leaves := j.pool.leaves.filter fun l => l.2 != j.step } }
  (s, { w with departed := w.departed + gone.length + unjoined.length
               events := w.events ++ gone.map (fun q => (q.number, 6, q.pages.length)) ++
                 unjoined.map fun a => (a.number, 6, 0) })

/-- The youngest running sequence (R192). -/
def youngest (j : Job) : Option Seq :=
  (j.pool.seqs.filter (·.st == .running)).foldl
    (fun a q => match a with | some x => if x.number < q.number then some q else a | none => some q)
    none

/-- One pre-emption under the sleeve's KV policy (R193). -/
def preempt (s : State) (h : Nat) (w : PoolWork) : State × PoolWork :=
  let j := job s h
  match youngest j with
  | none => (s, w)
  | some q =>
    let drop := bitOf (wd (sleeve s j.owner).record 0) 41
    let room := poolFree s j 1
    let w := { w with preempted := w.preempted + 1, fresh := w.fresh ++ [q.number] }
    if !drop && q.pages.length ≤ room.length then
      let s := (q.pages.zip room).foldl (fun s x => swapPages s j.owner x.1 x.2) s
      (setSeqs s h (seqUpdate q.number fun q => { q with st := .spilled }),
        { w with events := w.events ++ [(q.number, 3, q.pages.length)] })
    else
      let kept := q.pages.map fun p => windowRead s (p * 65536) 65536
      (setSeqs s h (seqUpdate q.number fun q => { q with st := .dropped, pages := [], lost := kept }),
        { w with events := w.events ++ [(q.number, 4, q.pages.length)] })

/-- Pages a sequence of a length needs (R192). -/
def pagesFor (j : Job) (len : Nat) : Nat := cdiv len (tpp j)

/-- Growth of one sequence, pre-empting the youngest until it has its page or is pre-empted itself. -/
def growOne (h n : Nat) : Nat → State × PoolWork → State × PoolWork
  | 0, x => x
  | fuel + 1, (s, w) =>
    let j := job s h
    match j.pool.seqs.find? (·.number == n) with
    | none => (s, w)
    | some q =>
      if q.st != .running || q.pages.length ≥ pagesFor j (q.len + 1) then (s, w)
      else match poolFree s j 0 with
        | p :: _ => growOne h n fuel
            (setSeqs s h (seqUpdate n fun q => { q with pages := q.pages ++ [p] }), w)
        | [] => growOne h n fuel (preempt s h w)

/-- Sequence numbers in ascending order. -/
def sortedNumbers (qs : List Seq) : List Nat := sortBy (fun a b => a ≤ b) (qs.map (·.number))

/-- Stage 2: growth, in ascending sequence number (R192). -/
def growth (s : State) (h : Nat) (w : PoolWork) : State × PoolWork :=
  let qs := (job s h).pool.seqs
  (sortedNumbers (qs.filter (·.st == .running))).foldl
    (fun x n => growOne h n (2 * qs.length + 4) x) (s, w)

/-- Dropped pages computed again from the sequence's tokens (R192): what they held (R95, notes/assumptions/94.md). -/
def recompute (s : State) (j : Job) (q : Seq) (ps : List Nat) : State :=
  (ps.zip (List.range ps.length)).foldl (fun s x =>
    windowWrite s (x.1 * 65536) ((q.lost[x.2]?).getD
      ((List.range 65536).map fun i => Config.tensorByte j.program j.step (2 ^ 21 + q.number) (x.2 * 65536 + i)))) s

/-- Stage 3: resumes in ascending number, each only if all its pages fit; the first that does not fit
ends the stage and skips the joins (R192). -/
def resumes (h : Nat) : List Nat → State × PoolWork → (State × PoolWork) × Bool
  | [], x => (x, true)
  | n :: r, (s, w) =>
    let j := job s h
    match j.pool.seqs.find? (·.number == n) with
    | none => resumes h r (s, w)
    | some q =>
      let need := pagesFor j (q.len + 1)
      let room := poolFree s j 0
      if need > room.length then ((s, w), false)
      else
        let s := if q.st == .spilled then
            (q.pages.zip room).foldl (fun s x => swapPages s j.owner x.1 x.2) s else s
        let extra := (poolFree s (job s h) 0).take (need - q.pages.length)
        let s := if q.st == .dropped then recompute s j q (extra.take (pagesFor j q.len)) else s
        let s := setSeqs s h (seqUpdate n fun q => { q with
          st := .running, pages := q.pages ++ extra, lost := [] })
        resumes h r (s, { w with events := w.events ++ [(n, 5, need)] })

/-- Stage 4: joins, whole or deferred with every later join (R192). -/
def joins (h : Nat) : List Join → State × PoolWork → State × PoolWork
  | [], x => x
  | a :: r, (s, w) =>
    let j := job s h
    let need := pagesFor j (a.tokens + 1)
    let room := poolFree s j 0
    if need > room.length then
      (s, { w with deferred := w.deferred + (r.length + 1)
                   events := w.events ++ (a :: r).map fun x =>
                     (x.number, 2, pagesFor j (x.tokens + 1)) })
    else
      let s := modJob s h fun j => { j with pool := { j.pool with
        seqs := j.pool.seqs ++ [{ number := a.number, len := a.tokens, st := .running
                                  pages := room.take need }]
        highest := some (Nat.max a.number (j.pool.highest.getD 0))
        joins := j.pool.joins.filter (·.number != a.number) } }
      joins h r (s, { w with joined := w.joined + 1, events := w.events ++ [(a.number, 1, need)] })

/-- Joins by number, those with JOIN_STEP 0 in arrival order over their own positions. -/
def arrivalOrder : List Join → List Join → List Join
  | [], _ => []
  | a :: r, z :: zs => if a.step = 0 then z :: arrivalOrder r zs else a :: arrivalOrder r (z :: zs)
  | a :: r, [] => a :: arrivalOrder r []

/-- Joins of this boundary in the order they are taken, and by number: ascending number; with DYNAMIC 1, joins with
JOIN_STEP 0 in arrival order (R192). A join of an earlier step is one that was deferred, and stays deferred until it
fits (notes/assumptions/81.md). -/
def joinOrder (j : Job) : List Join × List Join :=
  let byNumber := sortBy (fun a b => a.number ≤ b.number) (j.pool.joins.filter fun a => a.step ≤ j.step)
  if blkDynamic j.block then
    (arrivalOrder byNumber ((j.pool.joins.filter fun a => a.step ≤ j.step).filter (·.step == 0)), byNumber)
  else (byNumber, byNumber)

/-- Joins with JOIN_STEP 0 among those admitted that stand elsewhere than their number puts them (R97, R192). -/
def misplaced (order byNumber : List Join) (admitted : Nat) : Nat :=
  (((order.take admitted).zip byNumber).filter fun x => x.1.number != x.2.number && x.1.step == 0).length

/-- The sequence pool at a boundary (R192): lengths rise by the token of a KV_APPEND (R180), then the four stages. -/
def applyPool (s : State) (h : Nat) (ended : List Nat) : State × PoolWork :=
  if (job s h).tokenBytes = 0 then (s, {})
  else
    let s := if appends (job s h).program then setSeqs s h fun qs => qs.map fun q =>
        if q.st == .running then { q with len := q.len + 1 } else q else s
    let (s, w) := departures s h ended {}
    let (s, w) := growth s h w
    let waiting := (job s h).pool.seqs.filter fun q =>
      q.st != .running && !w.fresh.contains q.number
    let ((s, w), go) := resumes h (sortedNumbers waiting) (s, w)
    let (order, byNumber) := joinOrder (job s h)
    if go then
      let (s, w) := joins h order (s, w)
      (s, { w with choices := misplaced order byNumber w.joined })
    else (s, { w with deferred := w.deferred + order.length
                      events := w.events ++ order.map fun x =>
                        (x.number, 2, pagesFor (job s h) (x.tokens + 1)) })

/-! ### Step boundaries (R190) -/

/-- The entry at the posting index of the completion ring is free (R190, notes/assumptions/9.md). -/
def ringHasRoom (s : State) (j : Job) : Bool := leNat (windowRead s (complAddr j j.complTail) 8) == 0

/-- Records posted in order, each with RAW_TIME at posting (R191), until the ring is full or an access fails: those
left. A record whose job's generation is no longer the entry's is dropped and counted (R32). -/
def postAll (s : State) (h : Nat) : List (List W64) → State × Except (Bar × List (List W64)) (List (List W64))
  | [] => (s, .ok [])
  | r :: rs => match postRecord s h (r.set 2 s.tim.raw) with
    | .error .stale => postAll (jobBar s h 0 .stale) h rs
    | .error b => (s, .error (b, r :: rs))
    | .ok none => (s, .ok (r :: rs))
    | .ok (some s') => postAll s' h rs

/-- W11 of a boundary (R191). -/
def poolCounts (w : PoolWork) : W64 :=
  let c (n : Nat) := Nat.min n 0xFFFF
  pack 64 [(48, c w.joined), (32, c w.deferred), (16, c w.preempted), (0, c w.departed)]

/-- State tensors of a job with their device addresses (R178, R199). -/
def stateTensors (j : Job) : List (Nat × Nat) :=
  j.lowered.tensors.filter fun t => tRole (tensorAt j.program t.1) == 4

/-- Contents of the dropped pages of a job's sequences, which are computed again when they resume (R192, R201). -/
def lostPages (j : Job) : List (List Byte) := j.pool.seqs.flatMap (·.lost)

/-- What a snapshot records beside the pages (R199; layout: notes/assumptions/15.md): the submission block, the step, the
counters, CHIPS and the number of pages, and the pool's sequences; behind them the places of the state tensors and each
page with its kind, permissions and CRC-32C. -/
def snapBody (s : State) (h : Nat) (pages : List Nat) : List W64 :=
  let j := job s h
  let code : SeqState → Nat := fun | .running => 0 | .spilled => 1 | .dropped => 2
  let entry (p : Nat) := (sleeve s j.owner).pages.find? (·.page == p)
  let seqs := j.pool.seqs.flatMap fun q => [pack 64 [(32, q.number), (0, q.len)],
    pack 64 [(60, code q.st), (32, q.lost.length), (0, q.pages.length)]] ++ pack32 q.pages
  j.block ++ [w64 (j.lastBoundary.getD j.step)] ++ counterWords j.ctr ++
    [pack 64 [(32, hdrChips j.header), (0, pages.length)], pack 64 [(32, seqs.length), (0, j.pool.seqs.length)],
      pack 64 [(40, (lostPages j).length), (0, j.pool.highest.elim 0 (· + 1))], w64 (stateTensors j).length] ++ seqs ++
    (stateTensors j).map (fun t => pack 64 [(48, t.1), (0, t.2)]) ++
    pages.map fun p => pack 64 [(32, crc32c (windowRead s (p * 65536) 65536)),
      (28, (entry p).elim 0 (·.perms)), (24, (entry p).elim 0 (·.kind)), (0, p)]

/-- The 4 KiB header and what of the lists it has no room for, which follows the pages (R199). -/
def snapHeader (s : State) (h : Nat) (pages : List Nat) : List Byte × List Byte :=
  let body := bytesOf (snapBody s h pages)
  let all := bytesOf [pack 64 [(32, body.length / 8), (0, crc32c body)]] ++ body
  ((all ++ List.replicate 4096 0).take 4096, all.drop 4096)

/-- Pages of a job in ascending page number (R199). -/
def jobPages (s : State) (h : Nat) : List Nat :=
  sortBy (fun a b => a ≤ b) (((sleeve s (job s h).owner).pages.filter (·.job == some h)).map (·.page))

/-- The image of a snapshot as it lies at its target: pieces by offset. -/
def snapImage (s : State) (h : Nat) (pages : List Nat) : List (Nat × List Byte) :=
  let hd := snapHeader s h pages
  let lost := lostPages (job s h)
  let rest := 4096 + pages.length * 65536
  (0, hd.1) :: (pages.zip (List.range pages.length)).map (fun x =>
    (4096 + x.2 * 65536, windowRead s (x.1 * 65536) 65536)) ++
  (if hd.2.isEmpty then [] else [(rest, hd.2)]) ++
  (lost.zip (List.range lost.length)).map fun x => (rest + hd.2.length + 65536 * x.2, x.1)

/-- Bytes of a snapshot at its target. -/
def snapBytes (s : State) (h : Nat) (pages : List Nat) : Nat :=
  4096 + 65536 * (pages.length + (lostPages (job s h)).length) + (snapHeader s h pages).2.length

/-- The sink of a sleeve through which this device and a peer reach each other (R337, R353). -/
def snapSink (s : State) (k d : Nat) : Option ChipMap :=
  s.fab.maps.find? fun m => m.sink && m.sleeve == k && m.devs.contains d && m.devs.contains s.fab.dev

/-- The PUT packets that carry an image to a peer (R199, R338, R353). -/
def snapPackets (s : State) (h d target : Nat) (m : ChipMap) (image : List (Nat × List Byte)) :
    List (Packet × Track) :=
  image.flatMap fun x => (List.range (cdiv x.2.length 4096)).map fun i =>
    let p := mkPacket s pPut d (ownChip s m) m.num m.fgen (target + x.1 + 4096 * i) []
      ((x.2.drop (4096 * i)).take 4096)
    (p, { seq := 0, packet := p, first := 0, snap := some h })

/-- The pieces of an image written to their target pages as the job's own accesses (R31, R32); a page in move is waited
for, with what is left. -/
def landPieces (s : State) (h : Nat) : List (Nat × List Byte) → State
  | [] => s
  | x :: xs =>
    match devWrite s { sleeve := (job s h).owner, job := h, gen := (job s h).gen } .wr x.1 x.2 with
    | .ok t => landPieces t h xs
    | .error .wait => park s x.1 x.2.length (.snapshot h (job s h).gen (x :: xs))
    | .error b => jobBar s h x.1 b

/-- Pieces of a job's snapshot wait for a page in move. -/
def snapWaits (s : State) (h : Nat) : Bool :=
  s.pkg.waiters.any fun w => match w.2 with | .snapshot g _ _ => g == h | _ => false

/-- The image goes to its target: pages of the sleeve on this device, or over the fabric (R199); a peer that cannot be
reached is lost. -/
def drainSnap (s : State) (h : Nat) (n : Snap) (image : List (Nat × List Byte)) : State :=
  let k := (job s h).owner
  match n.peer with
  | none => landPieces s h (image.map fun x => (n.target + x.1, x.2))
  | some d =>
    let lost (s : State) : State := modJob s h fun j => { j with snap := j.snap.map fun n => { n with lost := true } }
    match snapSink s k d with
    | none => lost s
    | some m => match sendAll s (snapPackets s h d n.target m image) with
      | none => lost s
      | some t => countFabric t k h (image.map (·.2.length)).sum

/-- A snapshot is due at the boundary: SNAPSHOT_BEGIN has named a target, and with several chips all take it together
(R200, R353). -/
def snapDue (s : State) (h : Nat) : Bool :=
  let j := job s h
  j.snap.any (·.taken.isNone) && !(hdrChips j.header > 1 && !(mapOfJob s h).any (·.snap))

/-- The pause of a snapshot at a boundary (R200): the pages are marked copy-on-write, so the image is that of this
boundary. A page that cannot be read faults the job (R160). -/
def takeSnapshot (s : State) (h : Nat) : State :=
  match (job s h).snap with
  | none => s
  | some n =>
    let ps := jobPages s h
    if !snapDue s h then s
    else if ps.any fun p => windowEcc s (p * 65536) 65536 then faultJob s h .checkFailed
    else
      let image := snapImage s h ps
      let s := modJob s h fun j => { j with snap := some { n with taken := some (j.lastBoundary.getD j.step), total := ps.length } }
      settleSnaps (drainSnap s h n image)

/-- A ring of a context has no entry left. -/
def ringEmpty (r : Ring) : Bool := r.head == r.tail

/-- Nothing of the job's step is left (R190): every ring has run empty, and no pass, WAIT, DMA, rerun or dispute is
open. -/
def stepDrained (s : State) (h : Nat) : Bool :=
  ((jobSlots s h).all fun c =>
    let x := slot s c.1 c.2
    x.run.isNone && x.waiting.isNone && x.dma.isEmpty && !x.refHold && !x.rerunOwed && !inFlight s c.1 c.2 &&
    ringEmpty x.fring && ringEmpty x.dring && ringEmpty x.ering) &&
  s.lin.disputes.all fun d => d.job != h || d.radio

/-- The job has no further step (R177): the last one of STEPS, or, open-ended, an empty pool after the first step. A
join that waits in the queue keeps the pool from being empty, which R177 leaves open (DESIGN CHOICE,
notes/assumptions/81.md). -/
def lastStep (j : Job) : Bool :=
  (hdrSteps j.header != 0 && j.step + 1 ≥ hdrSteps j.header) ||
  (hdrSteps j.header == 0 && j.tokenBytes != 0 && j.pool.seqs.isEmpty && j.pool.joins.isEmpty)

/-- The end of a cadence run (R195): a run that ends after its deadline adds 1 to MISSES. -/
def endRun (s : State) (h : Nat) : State :=
  match (job s h).cadence with
  | none => s
  | some c =>
    let late := c.inProgress && now s > c.startRaw + usTicks (blkDeadline (job s h).block)
    let s := modJob s h fun j => { j with
      cadence := some { c with inProgress := false }
      ctr := if late then { j.ctr with misses := j.ctr.misses.add 0xFFFFFFFF 1 } else j.ctr }
    if late then modSleeve s (job s h).owner fun v => { v with acct := { v.acct with
      misses := Nat.min 0xFFFFFFFF (v.acct.misses + 1)
      sat := v.acct.sat || v.acct.misses == 0xFFFFFFFF } } else s

/-- A job is held at its boundary for a cause (R189). -/
def holdJob (s : State) (h : Nat) (c : HoldCause) : State :=
  modJob s h fun j => { j with st := .held
                               holds := if j.holds.contains c then j.holds else j.holds ++ [c] }

/-- The barrier of a job has done its work. -/
def leaveBarrier (s : State) (h : Nat) : State :=
  match mapOfJob s h with
  | some m => modMap s m.num fun m => { m with waits := 0, released := false }
  | none => s

/-- The boundary once its records are posted (R190): the snapshot with its pause, then the next step or the end. A
cadence job's next step starts with its release (R194). -/
def leaveBoundary (s : State) (h : Nat) (last : Bool) : State :=
  let paused := snapDue s h && !last
  let s := modJob (takeSnapshot s h) h fun j => { j with unposted := [] }
  if (job s h).st == .draining then s
  else if last then
    modJob s h fun j => { j with
      st := .ending, ended := true, tear := some { status := 0, kind := 1, startRaw := now s } }
  else
    let s := modJob s h fun j => { j with step := j.step + 1 }
    let s := if (job s h).cadence.isNone then startStep s h else s
    let s := if paused then holdJob s h .snapshot else s
    if (sleeve s (job s h).owner).st == .quiescing then holdJob s h .quiesce else s

/-- A boundary whose access meets a page in move goes on when the move is done (R31, R34). -/
def parkBoundary (s : State) (h addr : Nat) (o : StepObs) : State :=
  if s.pkg.waiters.any fun w => match w.2 with | .command (.stepBoundary g _) => g == h | _ => false then s
  else park s addr 1 (.command (.stepBoundary h o))

/-- The boundary's records posted; a full ring holds the job with those left (R190), an entry in move is waited for, and
a ring that cannot be written faults the job (R32, R204). -/
def postBoundary (s : State) (h : Nat) (records : List (List W64)) : State :=
  let last := records.getLast?.any fun r => fld (wd r 0) 21 19 == 1
  let r := postAll s h records
  let s := r.1
  let a := complAddr (job s h) (job s h).complTail
  match r.2 with
  | .ok [] => leaveBoundary s h last
  | .ok left => modJob (holdJob s h .ringFull) h fun j => { j with unposted := left }
  | .error (.wait, left) => parkBoundary (modJob s h fun j => { j with unposted := left }) h a {}
  | .error (b, _) => jobBar s h a b

/-- The frame of pool bookkeeping that a handle's entries lie in (R35, R204; notes/assumptions/95.md). -/
def poolFrame (h : Nat) : Nat := 3072 + h / 16

/-- Pool bookkeeping that cannot be read faults every job whose entries lie in its frame (R204). -/
def poolUnreadable (s : State) (h : Nat) : State :=
  (s.jobs.filter fun e => e.1 / 16 == h / 16 && e.2.tokenBytes != 0).foldl
    (fun s e => faultJob s e.1 .checkFailed) s

/-- A page that the boundary's own work must not find in move: the pool's pages, and LIST_ADDR at a step that may be
the last (R31, R164). -/
def boundaryBlocked (s : State) (h : Nat) : Option Nat :=
  let j := job s h
  let la := fld (wd j.block 5) 47 0
  let n := crcListBytes ((jobOutputs s j).map (·.2))
  let mayEnd := la != 0 && (hdrSteps j.header == 0 || j.step + 1 ≥ hdrSteps j.header)
  let list := if mayEnd then pagesOf la (Nat.max 1 n) else []
  ((j.pool.pages ++ list).find? fun p => s.pkg.moves.any fun m => m.page == p).map (· * 65536)

/-- The boundary once the step's tensors stand (R190): pool, end of the cadence run, digest, records. -/
def applyBoundary (s : State) (h : Nat) (ended : List Nat) : State :=
  let (s, w) := applyPool s h ended
  let s := (job s h).ctxs.foldl (fun s c => modSlot s c.1 c.2 fun x => x.completes (now s)) s
  let s := modJob s h fun j => { j with
    boundary := none, lastBoundary := some j.step
    ctr := { j.ctr with choices := j.ctr.choices.add 0xFFFFFFFF w.choices } }
  let last := lastStep (job s h)
  match (if last then jobDigest s h else .ok (s, [])) with
  | .error b => jobBar s h (fld (wd (job s h).block 5) 47 0) b
  | .ok (s, dg) =>
    let s := endRun s h
    let j := job s h
    let counts := poolCounts w
    postBoundary s h (w.events.map (fun e => seqWords s j h e.1 e.2.1 e.2.2 counts) ++
      (if blkStepRecords j.block then
        [recWords s j h j.gen 0 0 j.step 0 0xFFFF counts []] else []) ++
      (if last then [recWords s j h j.gen 1 0 j.step 0 0xFFFF counts dg] else []))

/-- The work of a boundary (R190) once it may run: the step's operations (R177), then what `applyBoundary` does. -/
def runBoundary (s : State) (h : Nat) (o : StepObs) : State :=
  let j := job s h
  let wait (a : Nat) : State := parkBoundary (modJob s h fun j => { j with boundary := some o }) h a o
  if j.tokenBytes != 0 && eccHit s (ed0Key (poolFrame h) 0) 65536 then poolUnreadable s h
  else match boundaryBlocked s h with
  | some a => wait a
  | none => match runStep s h o with
    | .error (a, .wait) => wait a
    | .error (a, b) => jobBar s h a b
    | .ok r => applyBoundary r.st h r.ended

/-- A boundary that a restart, a page in move or a full ring kept back is run, or posts what is left (R190). -/
def continueBoundary (s : State) (h : Nat) : State :=
  match (job s h).boundary with
  | some o => runBoundary s h o
  | none => if (job s h).unposted.isEmpty then s else postBoundary s h (job s h).unposted

/-- A job that was held goes on: RUNNING, or WAITING while a context lies in its save area (R187, R189). -/
def resumeJob (s : State) (h : Nat) : State :=
  let s := modJob s h fun j => { j with st := if j.saved.isEmpty then .running else .waiting, holds := [] }
  if (job s h).st == .running then continueBoundary s h else s

/-- A saved partition has a word that cannot be read: the DMA that brings it back faults the job (R160). -/
def savedBad (s : State) (h : Nat) : Bool :=
  (job s h).saved.any fun c => (savePart (job s h) c.1).any fun p => windowEcc s (p * 65536) 65536

/-- JOB_PLACED (R185, R187, R344): the job gets all its engines and RUNS, or stays WAITING, its weights on their way; a
job of several chips first arrives at its start barrier. -/
def execJobPlaced (h : Nat) (places : List Place) (s : State) : Host.Outcome State Fault Refusal :=
  .next <|
    if !placesStand s h places then
      if (job s h).st == .waiting && (sleeve s (job s h).owner).st == .active then bringWeights s h else s
    else if savedBad s h then faultJob s h .checkFailed
    else
      let t := placeAll s h places
      let t := if startsAtBarrier (job s h) then arriveBarrier t h 1 0 0 0 else t
      if (job t h).st == .running then continueBoundary t h else t

/-- A job with CHIPS > 1 has not passed the boundary barrier of its step yet (R344). -/
def waitsBoundary (s : State) (h : Nat) : Bool :=
  hdrChips (job s h).header > 1 && !(mapOfJob s h).any fun m => m.waits == 2 && m.released

/-- The chip reaches the boundary barrier, once (R344); its fabric ring has nothing left (R190). -/
def enterBoundary (s : State) (h : Nat) : State :=
  if (mapOfJob s h).any (fun m => m.waits == 0) && (tget [] s.fab.runs h).isEmpty then
    arriveBarrier s h 2 0 0 0
  else s

/-- STEP_BOUNDARY (R190): while Tacor restarts the job is HELD at the boundary; one kept back goes on. A cadence job
between two runs has no step in progress (R194). -/
def execStepBoundary (h : Nat) (o : StepObs) (s : State) : Host.Outcome State Fault Refusal :=
  .next <|
    let j := job s h
    if j.st != .running || j.core.isSome then s
    else if j.boundary.isSome || !j.unposted.isEmpty then continueBoundary s h
    else if !stepDrained s h || !chipsDone j o || j.barrierStep.isSome || j.cadence.any (!·.inProgress) then s
    else if waitsBoundary s h then enterBoundary s h
    else if s.mgt.tacor != 1 then
      modJob (holdJob (leaveBarrier s h) h .tacorRestart) h fun j => { j with boundary := some o }
    else runBoundary (leaveBarrier s h) h o

/-- A cause of HELD has cleared. -/
def holdCleared (s : State) (j : Job) : HoldCause → Bool
  | .ringFull => ringHasRoom s j
  | .tacorRestart => s.mgt.tacor == 1
  | .snapshot => true
  | .quiesce => (sleeve s j.owner).st == .active

/-- JOB_HOLD_RELEASE (R189): the job returns to RUNNING; a boundary that was held goes on. -/
def execJobHoldRelease (h : Nat) (s : State) : Host.Outcome State Fault Refusal :=
  .next <|
    if (job s h).st != .held || (job s h).holds.any (fun c => !holdCleared s (job s h) c) then s
    else resumeJob s h

/-- CADENCE_RELEASE (R194, R195, R65): the release runs, or is skipped and counted. -/
def execCadenceRelease (h : Nat) (s : State) : Host.Outcome State Fault Refusal :=
  .next <|
    let j := job s h
    match j.cadence with
    | none => s
    | some c =>
      if (j.st != .running && j.st != .held) || now s < c.nextRelease then s
      else
        let paused := (jobSlots s h).any fun x => (diePwr s (x.1 / 4)).level ≥ 2
        let next := releaseAfter (blkPeriod j.block) c.nextRelease
        if c.inProgress || paused || j.st == .held || (sleeve s j.owner).st != .active then
          let s := modJob s h fun j => { j with
            cadence := some { c with nextRelease := next }
            ctr := { j.ctr with misses := j.ctr.misses.add 0xFFFFFFFF 1 } }
          modSleeve s j.owner fun v => { v with acct := { v.acct with
            misses := Nat.min 0xFFFFFFFF (v.acct.misses + 1)
            sat := v.acct.sat || v.acct.misses == 0xFFFFFFFF } }
        else startStep (modJob s h fun j => { j with
          cadence := some { c with nextRelease := next, inProgress := true, startRaw := now s } }) h

/-! ### Snapshots (R199–R201) -/

/-- SNAPSHOT_DRAIN_DONE (R200): KIND 4 with STEP at the boundary, once every packet to a peer has landed, or the
abandonment. -/
def execSnapshotDrainDone (h : Nat) (r : DrainResult) (s : State) :
    Host.Outcome State Fault Refusal :=
  .next <|
    let j := job s h
    match j.snap with
    | none => s
    | some n => match n.taken with
      | none => s
      | some step =>
        let st : Status := match r with
          | .landed => .ok | .targetLost => .targetLost | .crcFailed => .checkFailed
        if r == .landed && (snapTracks s h || snapWaits s h) then s
        else
          let s := modJob s h fun j => { j with snap := none }
          endPost s h (recWords s j h j.gen 4 (statusCode st) step 0 0xFFFF 0 [])

/-! ### Teardown (R198) -/

/-- No pass of the job is in flight (R198 steps 2 and 5). -/
def jobDrained (s : State) (h : Nat) : Bool := (jobSlots s h).all fun c => !inFlight s c.1 c.2

/-- TEARDOWN_DRAIN_DONE (R198 steps 5 to 7). -/
def execTeardownDrainDone (h : Nat) (s : State) : Host.Outcome State Fault Refusal :=
  .next <|
    if ((job s h).st == .draining || (job s h).st == .ending) && jobDrained s h
    then retrySubmits (finishTeardown s h) (job s h).owner else s

/-- TEARDOWN_TIMEOUT (R198): the teardown fails; the job's record carries TIMEOUT, its pages stay out of
service, and the sleeve is reset. -/
def execTeardownTimeout (h : Nat) (s : State) : Host.Outcome State Fault Refusal :=
  .next <|
    let j := job s h
    match j.tear with
    | none => s
    | some t =>
      if j.st != .draining || t.abandoned || since s t.startRaw < s.fab.linkMs * ticksPerMs then s
      else
        let st := statusCode .timeout
        let record := recWords s j h (jobGen j) 2 st j.step j.faultAddr j.faultUnit 0 []
        let s := if j.core.isSome then postFault s j.owner record else postLast s h record
        let s := modJob s h fun j => { j with
          status := st, ended := true, tear := some { t with status := st, kind := 2, abandoned := true } }
        match (sleeve s j.owner).st with
        | .resetting => settleSleeve s j.owner
        | .removing => settleSleeve s j.owner
        | .absent => s
        | _ => sleeveResetOp s j.owner .timeout none

/-! ### Commands -/

/-- A handle that a command names (R202): another sleeve's is DENIED; one that holds no job is unknown. -/
def handleChecks (s : State) (p : Party) (h : Nat) (rest : List (Bool × Status) := []) :
    List (Bool × Status) :=
  (h > 4095, .badField) ::
  ((job s h).st != .free && ownOnly p (job s h).owner, .denied) ::
  ((job s h).st == .free, .badField) :: rest

/-- Code of a job state (R189). -/
def jobCode : JobState → Nat
  | .free => 0 | .lowering => 1 | .waiting => 2 | .running => 3 | .held => 4 | .ending => 5
  | .draining => 6

/-- JOB_STATUS (R202, R466). The bring-in estimate of R187 is a free value while the job waits. -/
def execJobStatus (cmd : Cmd) (s : State) : Host.Outcome State Fault Refusal :=
  .next <| serve 0x181 1 isSleeveUser cmd s fun p s =>
    let h := argN cmd 0
    let j := job s h
    checked [(h > 4095, .badField),
      (j.st != .free && ownOnly p j.owner, .denied),
      (!j.held || ownOnly p j.owner, .badField)] <|
      let (est, s) := if j.st == .waiting then takeFree s 1 else (0, s)
      let status := if j.st == .free || j.ended then j.status else 0
      .ok s ([w64 (jobCode j.st), w64 (jobGen j), w64 status,
        (j.lastBoundary.map w64).getD 0xFFFFFFFFFFFFFFFF, est] ++ counterWords j.ctr)

/-- JOB_CANCEL (R202, R198): OK when the teardown has ended. -/
def execJobCancel (cmd : Cmd) (s : State) : Host.Outcome State Fault Refusal :=
  .next <| serve 0x182 2 isSleeveUser cmd s fun p s =>
    let h := argN cmd 0
    let j := job s h
    checked (handleChecks s p h [(j.st == .draining || j.st == .ending, .notQuiesced),
      (j.gen != argN cmd 1, .staleGeneration)]) <|
      .defer fun s => beginTeardown s h 0 2 (some cmd.src)

/-- SEQ_JOIN (R192, R193). A number that the pool has seen is one that a boundary has admitted; a queued join keeps its
number to itself (DEDUCED, notes/assumptions/96.md). A prompt of more than 2^20 tokens, for which R202 names no status,
is refused with BAD_FIELD (DESIGN CHOICE, notes/assumptions/96.md). -/
def execSeqJoin (cmd : Cmd) (s : State) : Host.Outcome State Fault Refusal :=
  .next <| serve 0x183 5 isSleeveUser cmd s fun p s =>
    let h := argN cmd 0
    let n := argN cmd 1
    let step := argN cmd 4
    let j := job s h
    checked (handleChecks s p h
      [(j.tokenBytes == 0 || j.pool.highest.any (n ≤ ·) || j.pool.joins.any (·.number == n) || n ≥ 2 ^ 32 ||
          argN cmd 3 > 2 ^ 20 || j.st == .draining || j.st == .ending, .badField),
       (step != 0 && (match j.lastBoundary with | some b => step ≤ b | none => false), .stepRefused),
       (j.pool.seqs.length + j.pool.joins.length ≥ 4096, .noSpace)]) <|
      match readArg s p cmd.hostData (arg cmd 2) 1 with
      | .error st => .ofArg (arg cmd 2) 1 st
      | .ok _ => .ok (modJob s h fun j => { j with pool := { j.pool with
          joins := j.pool.joins ++ [{ number := n, prompt := argN cmd 2, tokens := argN cmd 3
                                      step := step }] } }) []

/-- SEQ_LEAVE (R202). -/
def execSeqLeave (cmd : Cmd) (s : State) : Host.Outcome State Fault Refusal :=
  .next <| serve 0x184 3 isSleeveUser cmd s fun p s =>
    let h := argN cmd 0
    let n := argN cmd 1
    let step := argN cmd 2
    let j := job s h
    checked (handleChecks s p h
      [(!(j.pool.seqs.any (·.number == n)) && !(j.pool.joins.any (·.number == n)), .badField),
       ((match j.lastBoundary with | some b => step ≤ b | none => false), .stepRefused)]) <|
      .ok (modJob s h fun j => { j with pool := { j.pool with
        leaves := j.pool.leaves ++ [(n, step)] } }) []

/-- Snapshots in progress on the device (R199). -/
def snapshots (s : State) : Nat := (s.jobs.filter fun e => e.2.snap.isSome).length

/-- A job that is held behind a boundary: its snapshot is that boundary's (R225 step 3). -/
def atBoundaryHold (j : Job) : Bool :=
  j.st == .held && j.lastBoundary.isSome && j.unposted.isEmpty && j.boundary.isNone

/-- SNAPSHOT_BEGIN (R199). The target word: [47:0] the device address; bit 63 set for a peer, whose
device number is in [57:48] (notes/assumptions/15.md). -/
def execSnapshotBegin (cmd : Cmd) (s : State) : Host.Outcome State Fault Refusal :=
  .next <| serve 0x185 2 isSleeveUser cmd s fun p s =>
    let h := argN cmd 0
    let t := arg cmd 1
    let peer := bitOf t 63
    let ps := jobPages s h
    let len := snapBytes s h ps
    let k := (job s h).owner
    let edge := (pagesOf (fld t 47 0) len).all fun q =>
      let w := ownEntry s q
      ownValid w && ownOwner w == k && ownLoc w == 2 && ownShared w
    checked (handleChecks s p h
      [((job s h).st == .draining || (job s h).st == .ending || (job s h).core.isSome, .badField),
       ((job s h).snap.isSome || snapshots s ≥ 2, .busy),
       (ps.length > 4194304, .noSpace),
       (if peer then (snapSink s k (fld t 57 48)).isNone else !edge || !inWindow (fld t 47 0) len, .denied)]) <|
      let s := modJob s h fun j => { j with snap := some {
        target := fld t 47 0, peer := if peer then some (fld t 57 48) else none
        taken := none, total := ps.length, copied := 0 } }
      .ok (if atBoundaryHold (job s h) then takeSnapshot s h else s) []

/-- SNAPSHOT_STATUS (R202): pages copied and remaining. How many of a running drain are copied is a free
value, bounded by the total. -/
def execSnapshotStatus (cmd : Cmd) (s : State) : Host.Outcome State Fault Refusal :=
  .next <| serve 0x186 1 isSleeveUser cmd s fun p s =>
    let h := argN cmd 0
    checked (handleChecks s p h [((job s h).snap.isNone, .badField)]) <|
      match (job s h).snap with
      | none => .fail .badField
      | some n =>
        if n.taken.isNone then .ok s [0, w64 n.total]
        else
          let (f, s) := takeFree s 2
          let c := f.toNat % (n.total + 1)
          .ok s [w64 c, w64 (n.total - c)]

/-- The sequences of a snapshot header, their pages mapped to the new job's, and the contents of dropped pages taken in
order from `lost`. -/
def restoreSeqs (m : Nat → Nat) : Nat → List W64 → List (List Byte) → List Seq
  | 0, _, _ => []
  | n + 1, ws, lost =>
    let k := fld (wd ws 1) 31 0
    let l := fld (wd ws 1) 59 32
    let st : SeqState := match fld (wd ws 1) 63 60 with | 0 => .running | 1 => .spilled | _ => .dropped
    let ps := (List.range k).map fun i =>
      m (if i % 2 = 0 then fld (wd ws (2 + i / 2)) 31 0 else fld (wd ws (2 + i / 2)) 63 32)
    { number := fld (wd ws 0) 63 32, len := fld (wd ws 0) 31 0, st := st, pages := ps, lost := lost.take l } ::
      restoreSeqs m n (ws.drop (2 + cdiv k 2)) (lost.drop l)

/-- Counters of R191 from words W3–W9 of a record. -/
def readCounters (ws : List W64) : Counters :=
  let c (w : W64) (hi lo sat : Nat) : SatCtr := { sat := bitOf (wd ws 2) sat, count := fld w hi lo }
  { discards := c (wd ws 0) 63 32 4, overflows := c (wd ws 0) 31 0 3
    nanToNumber := c (wd ws 1) 63 32 2, windowed := c (wd ws 1) 31 0 1
    choices := c (wd ws 2) 63 32 0, beats := wd ws 3, bytes := wd ws 4, energy := wd ws 5
    misses := { sat := bitOf (wd ws 6) 31, count := fld (wd ws 6) 63 32 }
    estimated := bitOf (wd ws 6) 30 }

/-- What SNAPSHOT_RESTORE reads: the header's first word, the words of its body, and the whole image (R201,
notes/assumptions/15.md). -/
structure SnapImage where
  head : W64
  ws : List W64
  all : List Byte

/-- Pages, sequences and state tensors that a snapshot names. -/
def SnapImage.chips (m : SnapImage) : Nat := fld (wd m.ws 16) 63 32
def SnapImage.pages (m : SnapImage) : Nat := fld (wd m.ws 16) 31 0
def SnapImage.seqWords (m : SnapImage) : Nat := fld (wd m.ws 17) 63 32
def SnapImage.states (m : SnapImage) : Nat := (wd m.ws 19).toNat
def SnapImage.stateWords (m : SnapImage) : List W64 := (List.range m.states).map fun i => wd m.ws (20 + m.seqWords + i)
def SnapImage.pageWords (m : SnapImage) : List W64 :=
  (List.range m.pages).map fun i => wd m.ws (20 + m.seqWords + m.states + i)
def SnapImage.page (m : SnapImage) (i : Nat) : List Byte := (m.all.drop (4096 + 65536 * i)).take 65536
def SnapImage.lost (m : SnapImage) : List (List Byte) :=
  (List.range (fld (wd m.ws 18) 63 40)).map fun i =>
    (m.all.drop (4096 + 65536 * (m.pages + i) + (8 * m.ws.length - 4088))).take 65536
def SnapImage.seqs (m : SnapImage) (f : Nat → Nat) : List Seq :=
  restoreSeqs f (fld (wd m.ws 17) 31 0) (m.ws.drop 20) m.lost

/-- n bytes of the image from a device address of the job that was saved. -/
def SnapImage.bytesAt (m : SnapImage) (a n : Nat) : List Byte :=
  let numbers := m.pageWords.map fun w => fld w 23 0
  (pagesOf a n).flatMap fun p =>
    let start := Nat.max a (p * 65536)
    ((m.page (numbers.findIdx (· == p))).drop (start % 65536)).take (Nat.min (a + n) (p * 65536 + 65536) - start)

/-- The image read as the issuer may read it (R369), or why not and over how many bytes. -/
def readSnap (s : State) (p : Party) (cmd : Cmd) : Except (Status × Nat) SnapImage :=
  let a := arg cmd 0
  match readArg s p cmd.hostData a 4096 with
  | .error st => .error (st, 4096)
  | .ok hd =>
    let n := fld (wd (wordsOf 18 hd) 17) 31 0
    let lost := fld (wd (wordsOf 20 hd) 19) 63 40
    let words := fld (leW64 hd) 63 32
    let len := 4096 + 65536 * (n + lost) + (8 * words - 4088)
    match readArg s p cmd.hostData a len with
    | .error st => .error (st, len)
    | .ok all =>
      .ok { head := leW64 hd, ws := wordsOf words ((all.take 4096).drop 8 ++ all.drop (4096 + 65536 * n)), all := all }

/-- A CRC-32C of the image fails: its header's or a page's (R201). -/
def SnapImage.bad (m : SnapImage) : Bool :=
  m.ws.isEmpty || crc32c (bytesOf m.ws) != fld m.head 31 0 ||
    (List.range m.pages).any fun i => crc32c (m.page i) != fld (wd m.pageWords i) 63 32

/-- Kind and permissions of a page: a snapshot's page goes to a page of the new job like its own (R201). -/
def pageLike (s : State) (k page : Nat) : Nat × Nat :=
  match (sleeve s k).pages.find? (·.page == page) with
  | some r => (r.kind, r.perms)
  | none => (2, 0)

/-- The new page for each page of the image, in order; none: the new job lacks one of its kind. -/
def matchPages (like : Nat → Nat × Nat) : List W64 → List Nat → Option (List (Nat × Nat))
  | [], _ => some []
  | w :: ws, news =>
    match news.find? fun p => like p == (fld w 27 24, fld w 31 28) with
    | none => none
    | some p => (matchPages like ws (news.filter (· != p))).map fun l => (fld w 23 0, p) :: l

/-- The new job takes the image over: its pages, the step after the boundary, counters and pool (R201); none: its pages
are not those of the snapshot. -/
def restoreInto (s : State) (n : Nat) (m : SnapImage) : Option State :=
  (matchPages (pageLike s (job s n).owner) m.pageWords (jobPages s n)).map fun l =>
    let f (q : Nat) := (l.find? (·.1 == q)).elim 0 (·.2)
    let s := ((List.range m.pages).zip l).foldl (fun s x => windowWrite s (x.2.2 * 65536) (m.page x.1)) s
    let highest := fld (wd m.ws 18) 39 0
    modJob s n fun j => { j with
      step := (wd m.ws 8).toNat + 1, lastBoundary := some (wd m.ws 8).toNat
      ctr := readCounters (m.ws.drop 9)
      carried := m.stateWords.map fun w =>
        (fld w 63 48, m.bytesAt (fld w 47 0) (progTensor j.program (fld w 63 48)).size)
      pool := { j.pool with seqs := m.seqs f, highest := if highest = 0 then none else some (highest - 1) } }

/-- SNAPSHOT_RESTORE (R201): a job from a complete snapshot with the same CHIPS, checked as JOB_SUBMIT. -/
def execSnapshotRestore (cmd : Cmd) (s : State) : Host.Outcome State Fault Refusal :=
  .next <| serve 0x187 9 isSleeveUser cmd s fun p s =>
    match readSnap s p cmd with
    | .error e => .ofArg (arg cmd 0) e.2 e.1
    | .ok m =>
      let s := argRead s p (arg cmd 0) m.all.length
      .keeping s <| if m.bad then .fail .checkFailed
      else match submit s p ((cmd.args.drop 1).take 8) with
        | .error (st, _) => .fail st
        | .ok (t, n) =>
          if hdrChips (job t n).header != m.chips then .fail .badField
          else match restoreInto t n m with
            | none => .fail .badField
            | some t => .ok t (submitResult t n)

end Sys2Proof.Machine
end

