-- ==== Sys2Proof/Machine/MgmtCmds.lean ====
section
/-! DEFINITION. Host attachment, mailboxes, Tacor's restart, the doorbell interrupt controller, host
cores, sideband and console (chapter 12): R360–R391, R466. -/

namespace Sys2Proof.Machine

/-! ### Mailboxes -/

/-- Opcodes that R375 and the command tables define. -/
def definedOpcode (op : Nat) : Bool :=
  op ≤ 7 || (0x100 ≤ op && op ≤ 0x10F) || (0x180 ≤ op && op ≤ 0x187) ||
  (0x200 ≤ op && op ≤ 0x207) || (0x280 ≤ op && op ≤ 0x283) || (0x300 ≤ op && op ≤ 0x305) ||
  (0x380 ≤ op && op ≤ 0x38A) || (0x400 ≤ op && op ≤ 0x407) || (0x480 ≤ op && op ≤ 0x48A) ||
  (0x500 ≤ op && op ≤ 0x507)

/-- MAILBOX_POST (R371): a slot that is not FREE ignores the write; BUSY at once while Tacor is not
RUNNING or the queue holds 32 commands; ACCEPTED otherwise. -/
def execMailboxPost (w i : Nat) (opcode : BitVec 16) (tag : W32) (args : List W64) (s : State) :
    Host.Outcome State Fault Refusal :=
  .next <|
    let src := Src.mailbox w i
    if s.boot.phase == .held || !srcExists s src || (w ≤ 63 && !s.mgt.cxlUp) ||
        (mslot s w i).state != 0 then s
    else
      let m : MSlot := { opcode := opcode.toNat, tag := tag.toNat, args := args.take 30 }
      if s.mgt.tacor != 1 || queued s (partyOf src) ≥ 32 then
        setMslot s w i { m with status := statusCode .busy, state := 3 }
      else
        let s := setMslot s w i { m with state := 2 }
        { s with mgt := { s.mgt with accepted := s.mgt.accepted ++
          [{ src := src, opcode := opcode.toNat, raw := now s }] } }

/-- RESERVED_COMMAND (R375): refused with BAD_FIELD. -/
def execReservedCommand (opcode : Nat) (cmd : Cmd) (s : State) : Host.Outcome State Fault Refusal :=
  .next <|
    if definedOpcode opcode then s
    else serve opcode 0 (fun _ => true) { cmd with args := [] } s fun _ _ => .fail .badField

/-- TELEMETRY_DROP (R374): a telemetry command not started 10 ms after its acceptance gets BUSY, counted. -/
def execTelemetryDrop (src : Src) (s : State) : Host.Outcome State Fault Refusal :=
  .next <|
    match s.mgt.accepted.find? (·.src == src) with
    | none => s
    | some a =>
      if a.waiting || !isTelemetry a.opcode || since s a.raw < 10 * ticksPerMs then s
      else
        let s := { s with mgt := { s.mgt with
          telemetryDropped := s.mgt.telemetryDropped.add 0x7FFFFFFF 1 } }
        finish s src a.opcode .busy []

/-! ### Watchdog and restart (R377, R378) -/

/-- Code of a restart cause (R394). -/
def restartCode : RestartCause → Nat
  | .watchdog => 1 | .dispatcher => 2 | .ecc => 3 | .dicOrder => 4

/-- Steps 1 and 2 of a restart; the third within 10 min is a device reset (R378, R405). -/
def startRestart (s : State) (c : RestartCause) : State :=
  let times := (s.mgt.restarts.filter fun t => since s t ≤ 600 * ticksPerS) ++ [now s]
  let s := raise s { code := 0x026, severity := 3, die := 6, d0 := restartCode c
                     d1 := times.length, count := times.length }
  if times.length ≥ 3 then deviceReset s (some 5)
  else
    let s := (List.range 4).foldl dicClear s
    let s := physZero s (memKey 4 0) (6 * 2 ^ 20)
    msix (planRepeat { s with mgt := { s.mgt with
      tacor := 2, restarts := times, restartAt := now s, eid := none, receiver := none } }) 1

/-- TACOR_WATCHDOG (R377). -/
def execTacorWatchdog (c : RestartCause) (s : State) : Host.Outcome State Fault Refusal :=
  .next <| if s.boot.phase != .booted || s.mgt.tacor == 0 then s else startRestart s c

/-- The hold of a restart ends: a job with no other goes on (R377 step 4, R189). -/
def endRestartHold (s : State) (h : Nat) : State :=
  let hs := (job s h).holds
  if !hs.contains .tacorRestart then s
  else if hs.all (· == .tacorRestart) then resumeJob s h
  else modJob s h fun j => { j with holds := hs.filter (· != .tacorRestart) }

/-- Tenant jobs that a restart held go on (R377 step 4). -/
def releaseRestartHolds (s : State) : State := (s.jobs.map (·.1)).foldl endRestartHold s

/-- Step 4 of a restart: the journal is read (R377). -/
def readJournal (s : State) : State :=
  let s := { s with pkg := { s.pkg with waiters := s.pkg.waiters.filter fun w => !w.2.isTacor } }
  let s := ((s.mgt.accepted.filter fun a => !a.waiting)).foldl
    (fun s a => finish s a.src a.opcode .busy []) s
  (s.slv.map (·.1)).foldl (fun s k =>
    if (sleeve s k).st == .quiescing then
      let s := endQuiesce s k .busy
      releaseSleeve (modSleeve s k fun v => { v with st := .active }) k .quiesce
    else s) s

/-- TACOR_RESTART_LIMIT (R378): a restart that has lasted 10 s. -/
def execTacorRestartLimit (s : State) : Host.Outcome State Fault Refusal :=
  .next <| if s.mgt.tacor != 2 || since s s.mgt.restartAt < 10 * ticksPerS then s else deviceReset s (some 5)

/-! ### Status commands -/

/-- MGMT_STATUS (R389, R466): the command itself is accepted and not completed. The core-µs of the classes are measured: free values. -/
def execMgmtStatus (cmd : Cmd) (s : State) : Host.Outcome State Fault Refusal :=
  .next <| serve 0x000 0 isMgmtRadio cmd s fun _ s =>
    let (a, s) := takeFree s 3
    let (b, s) := takeFree s 3
    let (c, s) := takeFree s 3
    let (d, s) := takeFree s 3
    .ok s ([w64 (statusReg s), 67] ++
      ([Party.manager, .bmc, .fabric, .radio] ++ (List.range 63).map fun i => Party.tenant (i + 1)).map
        (fun p => w64 (queuedWith s cmd.src p)) ++
      [a, b, c, d, w64 (ctrReg s.mgt.telemetryDropped)])

/-- TELEMETRY_READ (R389, R466). -/
def execTelemetryRead (cmd : Cmd) (s : State) : Host.Outcome State Fault Refusal :=
  .next <| serve 0x007 0 isMgmt cmd s fun _ s =>
    .ok s ((List.range 8).map (fun d => w64 (diePwr s d).tj) ++ [w64 (powerMw s)] ++
      (List.range 8).map (dieEnergy s))

/-! ### Host cores (R384, R385) -/

/-- The core is the upper one of a lockstep pair (R161). -/
def upperOfPair (s : State) (k : Nat) : Bool := k % 2 == 1 && cfgLockstep s / 2 ^ (k / 2) % 2 == 1

/-- Bytes of an HSS signature, by its level count (R165, R424). -/
def hssLength (head : List Byte) : Nat := if beNat head = 0 then 2832 else 5716

/-- What HC_LOAD checks, in order (R384, R385, R426). -/
def hcLoadChecks (s : State) (cmd : Cmd) (p : Party) : List (Bool × Status) :=
  let core := argN cmd 0
  let k := argN cmd 1
  let addr := argN cmd 2
  let len := argN cmd 3
  let sigAt := argN cmd 5
  let key := cfgKey s 10
  [(core < 16 && cfgRadioCores s / 2 ^ core % 2 == 1, .denied),
    (p == .radio && k != 0, .denied),
    (core > 15 || k > 63 || argN cmd 4 ≥ len || upperOfPair s core ||
      (k != 0 && (sleeve s k).st == .absent) || (k == 0 && !s.boot.sleeve0), .badField),
    ((checkRange s { sleeve := k, sharedOnly := k != 0 } .rd addr len).isSome, .denied),
    ((hostCore s core).loaded, .notQuiesced),
    (isFenced s (96 + core) || (unitSt s (96 + core)).hold != 0, .fenced),
    (k == 0 && (key.all (· == 0) || !hssVerify key (windowRead s addr len)
      (windowRead s sigAt (hssLength (windowRead s sigAt 4)))), .unsigned),
    ((k != 0 && handlesHeld s k ≥ fld (wd (sleeve s k).record 0) 11 0) || (freeHandle s).isNone, .noSpace)]

/-- A host core takes a context on a handle (R385). -/
def loadCore (s : State) (cmd : Cmd) (h : Nat) : State :=
  let core := argN cmd 0
  let k := argN cmd 1
  let gen := (job s h).gen
  let s := setJob s h { st := .running, gen := gen, owner := k, held := true, core := some core }
  setHostCore s core { loaded := true, sleeve := k, handle := h, gen := gen
                       image := argN cmd 2, length := argN cmd 3, entry := argN cmd 4 }

/-- HC_LOAD (R385). -/
def execHcLoad (cmd : Cmd) (s : State) : Host.Outcome State Fault Refusal :=
  .next <| serve 0x001 (if argN cmd 1 = 0 then 6 else 5) isMgrRadio cmd s fun p s =>
    checked (hcLoadChecks s cmd p) <|
      let h := (freeHandle s).getD 0
      .ok (loadCore s cmd h) [w64 h, w64 (job s h).gen]

/-- HC_STOP (R385): the context is torn down by R198, and the core's engine reset domain is reset. -/
def execHcStop (cmd : Cmd) (s : State) : Host.Outcome State Fault Refusal :=
  .next <| serve 0x002 1 isMgrRadio cmd s fun p s =>
    let core := argN cmd 0
    let c := hostCore s core
    checked [(core > 15 || !c.loaded, .badField), (p == .radio && c.sleeve != 0, .denied),
      ((job s c.handle).st == .draining, .notQuiesced)] <|
      .defer fun s => resetUnit (beginTeardown s c.handle 0 2 (some cmd.src)) (96 + core)

/-- HC_STATUS (R389): sleeve, handle, generation, retired instructions, beats. -/
def execHcStatus (cmd : Cmd) (s : State) : Host.Outcome State Fault Refusal :=
  .next <| serve 0x003 1 isMgmtRadio cmd s fun _ s =>
    let c := hostCore s (argN cmd 0)
    checked [(argN cmd 0 > 15 || !c.loaded, .badField)] <|
      .ok s [w64 c.sleeve, w64 c.handle, w64 c.gen, c.retired, c.beats]

/-- HC_EXIT_CALL (R385): the context ends; its status is posted as a KIND 1 record. -/
def execHcExitCall (core : Nat) (status : BitVec 16) (s : State) :
    Host.Outcome State Fault Refusal :=
  .next <|
    let c := hostCore s core
    if !c.loaded then s else beginTeardown s c.handle status.toNat 1

/-! ### The doorbell interrupt controller (R379–R383) -/

/-- DIC_ROUTE_SET (R380, R389). -/
def execDicRouteSet (cmd : Cmd) (s : State) : Host.Outcome State Fault Refusal :=
  .next <| serve 0x004 2 isMgrRadio cmd s fun p s =>
    let n := argN cmd 0
    let r := arg cmd 1
    let x := dicSrc s n
    checked [(n > 4095 || fld r 63 32 != 0 || fld r 15 0 != 0 || fld r 24 20 > 19, .badField),
      ((p == .radio && fld r 30 25 != 0) || n < 128 || (n < 256 && fld r 30 25 != 0), .denied)] <|
      let w : W32 := BitVec.ofNat 32 r.toNat
      if x.pending || x.active then
        .ok { s with mgt := { s.mgt with routeNext := tset none s.mgt.routeNext n (some w) } } []
      else .ok { s with mgt := { s.mgt with routes := tset 0 s.mgt.routes n w } } []

/-- A deferred route takes effect when its source is idle (R380). -/
def applyRoute (s : State) (n : Nat) : State :=
  match tget none s.mgt.routeNext n with
  | none => s
  | some w =>
    if (dicSrc s n).pending || (dicSrc s n).active then s
    else { s with mgt := { s.mgt with
      routes := tset 0 s.mgt.routes n w, routeNext := tset none s.mgt.routeNext n none } }

/-- DIC_STATUS (R389). -/
def execDicStatus (cmd : Cmd) (s : State) : Host.Outcome State Fault Refusal :=
  .next <| serve 0x005 1 isMgmtRadio cmd s fun _ s =>
    let t := argN cmd 0
    checked [(t > 19, .badField)] <|
      .ok s ([w64 (dicCoreReg (dicCore s t))] ++
        pack32 ((List.range 16).map (dicStackReg (dicCore s t))) ++ [w64 (dicCounts s)])

/-- DIC_DOORBELL (R379, R381, R382). -/
def execDicDoorbell (sl : Nat) (value : W32) (s : State) : Host.Outcome State Fault Refusal :=
  .next <| if s.boot.phase == .held then s else dicMessage s sl value.toNat

/-- A target takes deliveries: not fenced, off or in reset (R381). -/
def dicTargetUp (s : State) (t : Nat) : Bool :=
  if t < 4 then s.mgt.tacor == 1 else !isFenced s (96 + (t - 4))

/-- The PENDING source of a target that goes first: lowest PRIO, then lowest number (R381). -/
def dicNext (s : State) (t : Nat) : Option (Nat × Nat) :=
  let ps := (s.mgt.srcs.filter fun e => e.2.pending && !e.2.active && bitOf (dicRoute s e.1) 31 &&
    fld (dicRoute s e.1) 24 20 == t).map fun e => (e.1, fld (dicRoute s e.1) 19 16)
  ps.foldl (fun a e => match a with
    | none => some e
    | some b => if e.2 < b.2 then some e else some b) none

/-- DIC_DELIVERY (R381). -/
def execDicDelivery (t : Nat) (s : State) : Host.Outcome State Fault Refusal :=
  .next <|
    let c := dicCore s t
    match dicNext s t with
    | none => s
    | some (n, prio) =>
      if t > 19 || !c.enable || c.frozen || !dicTargetUp s t ||
          (match c.stack.head? with | some top => top.2 ≤ prio | none => false) then s
      else
        let s := setDicCore s t { c with stack := (n, prio) :: c.stack }
        emit (setDicSrc s n { dicSrc s n with pending := false, active := true })
          (.dicInterrupt t n)

/-- DIC_EOI (R382): a write that matches the top pops it and rearms; any other freezes the stack,
raises DIC_ORDER and resets the core. -/
def execDicEoi (t : Nat) (value : W32) (s : State) : Host.Outcome State Fault Refusal :=
  .next <|
    let n := fld value 11 0
    let c := dicCore s t
    if t > 19 then s
    else match c.stack with
      | top :: rest =>
        if top.1 = n && !c.frozen then
          let x := dicSrc s n
          let s := setDicCore s t { c with stack := rest }
          applyRoute (setDicSrc s n { x with active := false, pending := x.rearm, rearm := false }) n
        else dicOrder s t n top.1
      | [] => dicOrder s t n 0
where
  dicOrder (s : State) (t n top : Nat) : State :=
    let s := setDicCore s t { dicCore s t with frozen := true }
    let s := raise s { code := 0x027, severity := 3, die := if t < 12 then 6 else 7
                       unit := if t < 4 then 0xFF else 96 + (t - 4), d0 := n, d1 := top }
    if t < 4 then startRestart s .dicOrder
    else
      let u := 96 + (t - 4)
      faultCore (countReset (resetUnit s u) u 3) (t - 4) .checkFailed

/-- Address of DIC_SRCn (R383). -/
def dicSrcAddr (n : Nat) : Nat := 0x030060000000 + 0x88000 + 4 * n

/-- DIC_SRC_READ (R383): the read clears COUNT. -/
def execDicSrcRead (n : Nat) (s : State) : Host.Outcome State Fault Refusal :=
  .next <|
    if n > 4095 || s.boot.phase == .held then s
    else
      let x := dicSrc s n
      setDicSrc (emit s (.readValue (dicSrcAddr n) (dicSrcReg x))) n { x with count := 0 }

/-! ### CXL (R360–R367) -/

/-- A line enters the snoop filter of 2 Mi lines; a full filter back-invalidates its oldest (R365). -/
def holdLine (s : State) (line : Nat) : State :=
  if s.mgt.snoop.contains line then s
  else if s.mgt.snoop.length < 2097152 then
    { s with mgt := { s.mgt with snoop := s.mgt.snoop ++ [line] } }
  else
    let s := match s.mgt.snoop with | l :: _ => emit s (.backInvalidate l) | [] => s
    { s with mgt := { s.mgt with snoop := s.mgt.snoop.drop 1 ++ [line] } }

/-- What a CXL.mem access meets before it is served (R365, R366). -/
inductive CxlBar where
  | refused (status sleeve : Nat) | wait | serve
  deriving DecidableEq, Repr

/-- The check of a CXL.mem access by its page's owner (R213, R365, R366). -/
def cxlCheck (s : State) (k : Kind) (addr len : Nat) : CxlBar :=
  let w := ownEntry s (addr / 65536)
  let v := sleeve s (ownOwner w)
  if s.pkg.ownerEcc.contains (addr / 65536) || ownLoc w == 3 || fld w 28 24 != 0 then
    .refused (statusCode .checkFailed) 0
  else if !ownValid w || !ownShared w || !bitOf (wd v.record 0) 40 || v.st == .absent ||
      v.st == .resetting then .refused (statusCode .denied) (ownOwner w)
  else match checkRange s { sleeve := ownOwner w, sharedOnly := true } k addr len with
    | none => .serve
    | some .wait => .wait
    | some _ => .refused (statusCode .denied) (ownOwner w)

/-- A CXL.mem read that its page lets through. -/
def cxlReadNow (s : State) (addr len : Nat) : State :=
  let data := windowRead s addr len
  if windowEcc s addr len then
    postEvent (emit (emit s (.cxlData addr data true)) (.mediaEvent addr)) 3
      (statusCode .checkFailed) (ownOwner (ownEntry s (addr / 65536))) [w64 addr]
  else
    let lines := (List.range (cdiv (addr % 64 + len) 64)).map (· + addr / 64)
    lines.foldl holdLine (emit s (.cxlData addr data false))

/-- CXL_MEM_READ (R365, R366): one that finds no tracker of the tenants' share on ED0 waits (R36). -/
def execCxlMemRead (addr len : Nat) (s : State) : Host.Outcome State Fault Refusal :=
  .next <|
    if !s.mgt.cxlUp || s.boot.phase != .booted || !inWindow addr len || !trackerFree s 6 false then s
    else match cxlCheck s .rd addr len with
      | .refused st k => postEvent (emit s (.cxlData addr (List.replicate len 0) false)) 2 st k
          [w64 addr]
      | .wait => { s with pkg := { s.pkg with
          waiters := s.pkg.waiters ++ [(addr / 65536, .cxlRead addr len)] } }
      | .serve => cxlReadNow s addr len

/-- A CXL.mem write that its page lets through: committed, DIRTY set. A word covered only in part that is
uncorrectable is met as a read would meet it (R160). -/
def cxlWriteNow (s : State) (addr : Nat) (data : List Byte) : State :=
  let part := windowPartial s addr data.length
  let s' := (pageParts addr data.length).foldl
    (fun s p => physWrite s (windowKey s p.1) ((data.drop p.2.1).take p.2.2))
    (markDirty s addr data.length)
  if part then postEvent (emit s' (.mediaEvent addr)) 3 (statusCode .checkFailed)
    (ownOwner (ownEntry s (addr / 65536))) [w64 addr] else s'

/-- CXL_MEM_WRITE (R365, R366, R36). -/
def execCxlMemWrite (addr : Nat) (data : List Byte) (s : State) :
    Host.Outcome State Fault Refusal :=
  .next <|
    if !s.mgt.cxlUp || s.boot.phase != .booted || !inWindow addr data.length || !trackerFree s 6 false then s
    else match cxlCheck s .wr addr data.length with
      | .refused st k => postEvent s 2 st k [w64 addr]
      | .wait => { s with pkg := { s.pkg with
          waiters := s.pkg.waiters ++ [(addr / 65536, .cxlWrite addr data)] } }
      | .serve => cxlWriteNow s addr data

/-- What a link-down or hot reset resets, and what it ends (R367): the function's configuration space and
the manager page; QUEUE_FAULT for every ACTIVE sleeve; lines the host held are lost. -/
def linkDown (s : State) : State :=
  { s with
    mgt := { s.mgt with
      cxlUp := false, pasidOn := false, width := 0, rate := 0, evtBase := 0, evtEntries := 0
      evtHead := 0, evtTail := 0, evtPhase := true, evtLost := {}, stageBase := 0, stageLen := 0
      snoop := [] }
    slv := s.slv.map fun e =>
      (e.1, if e.2.st == .active then { e.2 with queueFault := true } else e.2) }

/-- CXL_LINK_DOWN (R367, R455). -/
def execCxlLinkDown (c : LinkDownCause) (s : State) : Host.Outcome State Fault Refusal :=
  .next <|
    let s := if c == .perst then { s with pins := { s.pins with perstN := false } } else s
    if s.mgt.cxlUp then linkDown s else s

/-- CXL_LINK_UP (R360, R363): width and rate as trained, down to x4 and 32 GT/s. -/
def execCxlLinkUp (width rate : Nat) (s : State) : Host.Outcome State Fault Refusal :=
  .next <|
    let w := if width = 4 then 1 else if width = 8 then 2 else if width = 16 then 4 else 0
    let r := if rate = 32 then 5 else if rate = 64 then 6 else if rate = 128 then 7 else 0
    if s.boot.phase == .held || s.mgt.cxlHeld || w = 0 || r = 0 then s
    else { s with
      pins := { s.pins with perstN := true }
      mgt := { s.mgt with cxlUp := true, width := w, rate := r } }

/-- PASID_ENABLE_CHANGE (R207): PASID_ON follows the bit. -/
def execPasidEnableChange (on : Bool) (s : State) : Host.Outcome State Fault Refusal :=
  .next <| if s.mgt.cxlUp then { s with mgt := { s.mgt with pasidOn := on } } else s

/-- EVT_LOST_READ (R363): the read clears the count. -/
def execEvtLostRead (s : State) : Host.Outcome State Fault Refusal :=
  .next <|
    if !s.mgt.cxlUp then s
    else
      let s := emit s (.readValue 0x4001C (ctrReg s.mgt.evtLost))
      { s with mgt := { s.mgt with evtLost := { s.mgt.evtLost with count := 0 } } }

/-! ### Sideband and console (R386–R388) -/

/-- First key and bytes of a sideband area (R387, R148). -/
def areaBase : Nat → Nat
  | 0 => ed0Key 3392 0
  | _ => ed0Key 3584 0
def areaSize : Nat → Nat
  | 0 => 4 * 2 ^ 20
  | _ => 32 * 2 ^ 20

/-- SIDEBAND_UPLOAD (R387): byte data follow the three words (R372 rule 6). -/
def execSidebandUpload (cmd : Cmd) (s : State) : Host.Outcome State Fault Refusal :=
  .next <| serve 0x006 (3 + cdiv (argN cmd 2 % 8192) 8) (· == .bmc) cmd s fun _ s =>
    let a := argN cmd 0
    let off := argN cmd 1
    let len := argN cmd 2
    checked [(a > 1 || len > 4032, .badField), (off + len > areaSize a, .noSpace)] <|
      .ok (physWrite s (areaBase a + off) ((bytesOf (cmd.args.drop 3)).take len)) []

/-- ENTDAA (R386). -/
def execEntdaa (address : Nat) (s : State) : Host.Outcome State Fault Refusal :=
  .next <| if s.boot.phase == .held then s
    else { s with mgt := { s.mgt with i3c := some address } }

/-- The FL8 answers on the sideband: it has its dynamic address. -/
def sidebandUp (s : State) : Bool := s.boot.phase != .held && s.mgt.i3c.isSome

/-- SET_ENDPOINT_ID (R386): an MCTP control message, answered during a restart too. -/
def execSetEndpointId (eid : Nat) (s : State) : Host.Outcome State Fault Refusal :=
  .next <| if !sidebandUp s then s else { s with mgt := { s.mgt with eid := some eid } }

/-- A PLDM request (R386): ERROR_NOT_READY (4) before RUNNING and during a restart. -/
def pldmServe (s : State) (tag : Nat) (k : State → State) : State :=
  if !sidebandUp s then s
  else if s.mgt.tacor != 1 then emit s (.pldm tag [4]) else k s

/-- PLDM_DISCOVERY (R386): the PLDM types carried. -/
def execPldmDiscovery (tag : Nat) (s : State) : Host.Outcome State Fault Refusal :=
  .next <| pldmServe s tag fun s => emit s (.pldm tag [0, 0, 2, 63])

/-- A numeric sensor (R386, numbering: notes/assumptions/16.md): 0–7 Tj per die, 8 package power [mW],
9 the health score. -/
def pldmSensor (s : State) (n : Nat) : Option Nat :=
  if n < 8 then some (diePwr s n).tj else if n = 8 then some (powerMw s)
  else if n = 9 then some s.hlt.score else none

/-- PLDM_SENSOR_READ (R386). -/
def execPldmSensorRead (tag sensor : Nat) (s : State) : Host.Outcome State Fault Refusal :=
  .next <| pldmServe s tag fun s =>
    match pldmSensor s sensor with
    | some v => emit s (.pldm tag [0, v])
    | none => emit s (.pldm tag [0x80])

/-- SET_EVENT_RECEIVER (R396). -/
def execSetEventReceiver (eid : Nat) (s : State) : Host.Outcome State Fault Refusal :=
  .next <| pldmServe s 0 fun s => { s with mgt := { s.mgt with receiver := some eid } }

/-- A record leaves the PLDM queue (R396). -/
def pldmAck (s : State) (n : Nat) : State :=
  { s with hlt := { s.hlt with pldm := s.hlt.pldm.filter (· != n) } }

/-- POLL_FOR_PLATFORM_EVENT_MESSAGE (R396): the acknowledged record leaves, the oldest one left is
returned. -/
def execPollForPlatformEventMessage (tag : Nat) (ack : Option Nat) (s : State) :
    Host.Outcome State Fault Refusal :=
  .next <| pldmServe s tag fun s =>
    let s := match ack with | some n => pldmAck s n | none => s
    match s.hlt.pldm with
    | [] => emit s (.pldm tag [0])
    | n :: _ => emit s (.pldm tag (0 :: n ::
        ((s.hlt.log.find? (·.number == n)).map fun r => r.words.map BitVec.toNat).getD []))

/-- PLATFORM_EVENT_MESSAGE_RESPONSE (R396). -/
def execPlatformEventMessageResponse (number : Nat) (s : State) :
    Host.Outcome State Fault Refusal :=
  .next <| pldmServe s 0 fun s => pldmAck s number

/-- A console line served as a class 3 command (R388). -/
def uartServe (s : State) (k : State → State) : State :=
  if s.boot.phase == .held || s.mgt.tacor != 1 then s else k s

/-- UART_STATUS (R388). -/
def execUartStatus (s : State) : Host.Outcome State Fault Refusal :=
  .next <| uartServe s fun s => emit s (.uart "status" (statusReg s))

/-- UART_ERRORS (R388): one line per record in the log. -/
def execUartErrors (s : State) : Host.Outcome State Fault Refusal :=
  .next <| uartServe s fun s =>
    s.hlt.log.foldr (fun r s => emit s (.uart "error" r.number)) (emit s (.uart "errors"
      s.hlt.log.length))

/-- UART_IDENTITY (R388, R435). -/
def execUartIdentity (s : State) : Host.Outcome State Fault Refusal :=
  .next <| uartServe s fun s => emit s (.uart "identity" (Config.fused 16).toNat)

/-- UART_OTHER_INPUT (R388): discarded. -/
def execUartOtherInput (_line : List Byte) (s : State) : Host.Outcome State Fault Refusal :=
  .next s

end Sys2Proof.Machine
end

