-- ==== Sys2Proof/Machine/HealthCmds.lean ====
section
/-! DEFINITION. Error records, hangs, escalation and the health commands (chapter 13): R392–R420. -/

namespace Sys2Proof.Machine

/-! ### Error records -/

/-- An error record from its event (R392). -/
def errorWords (s : State) (number : Nat) (e : ErrEvent) : List W64 :=
  let ws : List W64 :=
    [pack 64 [(32, number), (20, e.code), (16, e.severity), (15, b2n e.sleeve.isSome),
      (14, b2n e.job.isSome), (8, e.sleeve.getD 0)],
     w64 e.raw,
     pack 64 [(32, s.hlt.hr.incarnation), (20, (e.job.map (·.1)).getD 0),
      (12, (e.job.map (·.2)).getD 0)],
     pack 64 [(48, e.status), (40, e.die), (32, e.unit), (24, e.domain), (16, e.func),
      (0, e.count)],
     w64 e.d0, w64 e.d1,
     pack 64 [(54, s.hlt.score), (51, s.hlt.level)]]
  ws ++ [pack 64 [(32, crc32c ((bytesOf ws).take 56 ++ [0, 0, 0, 0]))]]

/-- A record enters the PLDM queue of 64; beyond that the oldest is dropped from the queue (R396). -/
def pldmQueue (q : List Nat) (n : Nat) : List Nat := (q ++ [n]).drop (q.length + 1 - 64)

/-- One event becomes a record and is reported on every path (R395, R396). -/
def recordEvent (s : State) (e : ErrEvent) : State :=
  let n := s.hlt.nextNumber
  let r : ErrRec := { number := n, words := errorWords s n e }
  let s := { s with hlt := { s.hlt with
    log := (r :: s.hlt.log).take 32768
    nextNumber := (n + 1) % 2 ^ 32
    pldm := pldmQueue s.hlt.pldm n } }
  let s := if s.mgt.receiver.isSome then emit s (.pldmEvent n) else s
  emit (postEvent s 5 e.status (e.sleeve.getD 0) [w64 n]) (.uart "error" n)

/-- ERROR_RECORD (R395): the oldest event of a die's queue becomes a record while Tacor runs. -/
def execErrorRecord (die : Nat) (s : State) : Host.Outcome State Fault Refusal :=
  .next <|
    if s.mgt.tacor != 1 then s
    else match tget [] s.hlt.queues die with
      | [] => s
      | e :: r =>
        recordEvent { s with hlt := { s.hlt with queues := tset [] s.hlt.queues die r } } e

/-! ### Hangs -/

/-- A stall of a unit is counted in HANGS (R418). -/
def countHang (s : State) (u : Nat) : State :=
  modUnit s u fun x => { x with
    hangs := Nat.min 255 (x.hangs + 1), actSat := x.actSat || x.hangs == 255 }

/-- A HANG record (R394); a stall with one context in question names its sleeve and job (R392). -/
def hangRecord (s : State) (kind unit die func suspects : Nat) (sl : Option Nat := none)
    (jb : Option (Nat × Nat) := none) : State :=
  raise s { code := 0x020, severity := 3, die := die, unit := unit, func := func, sleeve := sl, job := jb
            domain := if unit < 124 then unitDomain unit else 0xFF, d0 := kind, d1 := suspects }

/-- An entry of a context's rings has started and not ended (R397). -/
def slotBusy (s : State) (e i : Nat) : Bool :=
  let x := slot s e i
  x.valid && (x.run.isSome || !x.dma.isEmpty || inFlight s e i)

/-- No timer runs for the context (R398). -/
def timerStopped (s : State) (e i : Nat) : Bool :=
  let x := slot s e i
  let j := job s x.job
  x.preempted || x.refHold || (x.job != 0 && (j.st == .held || j.st == .waiting)) ||
    j.barrierStep.isSome || ((mapOfJob s x.job).any fun m => m.waits != 0 && !m.released) ||
    (i != 4 && (diePwr s (unitDie e)).level ≥ 2)

/-- Window of an engine's or a context's hang timer (R397): one slot for the lease context, and for the engine while that
is active. -/
def hangWindow (s : State) (lease : Bool) : Nat := if lease then ticksPerSlot else s.hlt.hangMs * ticksPerMs

/-- The engine's progress has stood still for its window (R397). -/
def engineStill (s : State) (e : Nat) : Bool :=
  decide (hangWindow s (slot s e 4).valid ≤ since s (engine s e).timerAt)

/-- A tenant context with an entry started within the window, which ends at the stall (R399). -/
def isSuspect (s : State) (e i : Nat) : Bool :=
  let x := slot s e i
  let w := Nat.max (hangWindow s (slot s e 4).valid) (since s (engine s e).timerAt)
  slotBusy s e i && (decide (since s x.entryAt ≤ w) || decide (since s x.lastStart ≤ w))

/-- Steps 1 and 2 of R399: the record, the suspects, the reset, the holds, the lease. -/
def startStall (s : State) (e kind : Nat) (suspects : List Nat) : State :=
  let s := countHang s e
  let who : Option Slot := match suspects with | [i] => some (slot s e i) | _ => none
  let s := hangRecord s kind e (unitDie e) 0xFF ((suspects.map fun i => 2 ^ i).sum) (who.map (·.sleeve))
    (who.bind fun x => if x.job = 0 then none else some (x.job, (job s x.job).gen))
  let s := resetUnit (countReset s e 1) e
  let heldSlots := (List.range 4).filter fun i => (slot s e i).valid
  let stall : Option Stall :=
    if suspects.isEmpty then none else some { suspects := suspects, held := heldSlots }
  let s := { s with hlt := { s.hlt with stalls := tset none s.hlt.stalls e stall } }
  if (engine s e).leased then leaseReplan (markSuspect s e) e else s

/-- ENGINE_STALL (R397–R399): some context's timer runs, and the engine's progress has stood still for the window; the
suspects are the tenant contexts with an entry started within it. -/
def execEngineStall (e : Nat) (s : State) : Host.Outcome State Fault Refusal :=
  .next <|
    if e ≥ 16 || isFenced s e || (tget none s.hlt.stalls e).isSome then s
    else if !engineStill s e || !((List.range 5).any fun i => slotBusy s e i && !timerStopped s e i) then s
    else startStall s e 1 ((List.range 4).filter (isSuspect s e))

/-- CONTEXT_STALL (R397, R399): the context's progress has stood still for its window, and it alone is the suspect. -/
def execContextStall (e i : Nat) (s : State) : Host.Outcome State Fault Refusal :=
  .next <|
    if e ≥ 16 || i ≥ 5 || isFenced s e || (tget none s.hlt.stalls e).isSome then s
    else if !slotBusy s e i || timerStopped s e i || since s (slot s e i).timerAt < hangWindow s (i == 4) then s
    else startStall s e 2 (if i < 4 then [i] else [])

/-- A stall ends when no suspect is left: the held contexts are released (R399 step 4). -/
def settleStall (s : State) (e : Nat) (t : Stall) : State :=
  let done := t.suspects.isEmpty && t.moved.isEmpty && t.seeking.isEmpty
  { s with hlt := { s.hlt with stalls := tset none s.hlt.stalls e (if done then none else some t) } }

/-- An engine that could serve as a referee with room for a context (R147, R188, R399). -/
def refereePlace (s : State) (notOn e i base size : Nat) : Bool :=
  e < 16 && i < 4 && e != notOn && placeable s e && !(slot s e i).valid &&
  !(s.lin.disputes.any fun d => d.suspect == e || d.refs.contains e) &&
  (tget none s.hlt.stalls e).isNone && base + size ≤ tenantMiB s &&
  (List.range 4).all fun k =>
    let x := slot s e k
    !x.valid || base + size ≤ x.base || x.base + x.size ≤ base

/-- A context moved to a named place (R188). -/
def moveTo (s : State) (e i e' i' base : Nat) : State :=
  let x := slot s e i
  if partitionBad s e i then faultSlot s e i .checkFailed
  else
  let s := physCopy s (pocketKey e' (base * 2 ^ 20)) (pocketKey e (x.base * 2 ^ 20))
    (x.size * 2 ^ 20)
  let s := releaseSlot (zeroPartition s (e, i)) (e, i)
  let s := wakeEngine (setSlot s e' i' { x with base := base }) e'
  modJob s x.job fun j => { j with
    ctxs := j.ctxs.map fun c => if c = (e, i) then (e', i') else c }

/-- This stall's counted reset is taken back (R399, R402). -/
def uncountReset (s : State) (u : Nat) : State :=
  modUnit s u fun x => { x with resets := x.resets - 1, resetTimes := x.resetTimes.dropLast }

/-- STALL_REPLAY_DONE (R399): the outcome of the suspect in a slot. -/
def execStallReplayDone (e i : Nat) (outcome : ReplayOutcome) (s : State) :
    Host.Outcome State Fault Refusal :=
  .next <|
    match tget none s.hlt.stalls e with
    | none => s
    | some t =>
      match outcome with
      | .ended =>
        if t.suspects.head? != some i then s
        else settleStall s e { t with suspects := t.suspects.tail }
      | .stalledAgain e' i' base size =>
        let waits := t.seeking.any fun k => k.1 == i
        if t.suspects.head? == some i || waits then
          let s := if waits then s else resetUnit s e
          let t := { t with suspects := t.suspects.filter (· != i) }
          if size == (slot s e i).size && refereePlace s e e' i' base size then
            settleStall (moveTo s e i e' i' base) e
              { t with moved := t.moved ++ [(i, e', i')], seeking := t.seeking.filter (·.1 != i) }
          else settleStall s e { t with seeking := if waits then t.seeking else t.seeking ++ [(i, now s)] }
        else s
      | .movedEnded =>
        if !(t.moved.any fun m => m.1 == i) then s
        else
          let s := { s with hlt := { s.hlt with stalls := tset none s.hlt.stalls e none } }
          selfFence s e .unconfirmed 2
      | .movedStalled =>
        match t.moved.find? (·.1 == i) with
        | some (_, e', i') =>
          let s := faultJob (resetUnit s e') (slot s e' i').job .timeout 0 e'
          settleStall (uncountReset s e) e { t with moved := t.moved.filter (·.1 != i) }
        | none => s

/-- STALL_NO_REFEREE (R399): no engine within 100 ms; the suspect's job is faulted with TIMEOUT. -/
def execStallNoReferee (e i : Nat) (s : State) : Host.Outcome State Fault Refusal :=
  .next <|
    match tget none s.hlt.stalls e with
    | none => s
    | some t =>
      if !(t.seeking.any fun k => k.1 == i && since s k.2 ≥ 100 * ticksPerMs) then s
      else settleStall (faultSlot s e i .timeout) e { t with seeking := t.seeking.filter (·.1 != i) }

/-- HOST_CORE_STALL (R400): counted reset, the context faulted with TIMEOUT; a core of RADIO_CORES
gets radio firmware again from its flash copy. -/
def execHostCoreStall (k : Nat) (s : State) : Host.Outcome State Fault Refusal :=
  .next <|
    let radio := s.boot.radioFw && cfgRadioCores s / 2 ^ k % 2 == 1
    if k ≥ 16 || !((hostCore s k).loaded || radio) then s
    else
      let u := 96 + k
      let sl := if (hostCore s k).loaded then some (hostCore s k).sleeve else some 0
      let s := hangRecord (countHang s u) 5 u (unitDie u) 0xFF 0 sl
      let s := faultCore (resetUnit (countReset s u 1) u) k .timeout
      if radio then emit s (.notice "radio firmware reloaded" k 0) else s

/-! ### Die functions -/

/-- Function `f` exists on die `d` (R403). -/
def functionExists (d f : Nat) : Bool :=
  (f == 0 && d < 4) || (f == 1 && (d == 4 || d == 5)) || (f == 2 && 4 ≤ d && d < 8) ||
  (f == 3 && d == 6)

/-- Resets of a die function in the last hour (R405). -/
def functionResets (s : State) (d f : Nat) : List Nat :=
  (tget [] s.hlt.funcResets (d * 4 + f)).filter fun t => since s t < 3600 * ticksPerS

/-- A die function reset (R404): FUNC_RESET, and for the radio function its slot jobs end. -/
def resetFunction (s : State) (d f cause : Nat) : State :=
  if !functionExists d f || s.hlt.funcFenced.contains (d * 4 + f) then s
  else
    let ts := functionResets s d f ++ [now s]
    let s := { s with hlt := { s.hlt with funcResets := tset [] s.hlt.funcResets (d * 4 + f) ts } }
    let s := raise s { code := 0x022, severity := 3, die := d, func := f, count := ts.length
                       d0 := cause }
    if f = 1 then radioFunctionReset s (d - 4) else s

/-- Queue toward a radio unit (R283): units 0–3 LDPC decoders, 4 and 5 encoders, 6 the equaliser pipeline, 7 the polar
unit, 8 the beam unit. -/
def unitQueue (unit : Nat) : Nat := if unit < 6 then unit + 1 else if unit = 6 then 0 else unit

/-- A radio unit holds a started descriptor (R397). -/
def holdsStarted (s : State) (die unit : Nat) : Bool :=
  queueBusy s die (unitQueue unit)

/-- ACCELERATOR_STALL (R397, R400) of a unit of RD0 or RD1 that holds a started descriptor and has completed none for one
slot. -/
def execAcceleratorStall (die unit : Nat) (s : State) : Host.Outcome State Fault Refusal :=
  .next <|
    if !(die == 4 || die == 5) || unit > 8 || s.boot.phase != .booted || !holdsStarted s (die - 4) unit ||
        since s (tget 0 (radDie s (die - 4)).timers (unitQueue unit)) < ticksPerSlot then s
    else if unit < 6 then
      let u := 112 + 6 * (die - 4) + unit
      let s := hangRecord (countHang s u) 4 u die 0xFF 0
      failStarted (countReset s u 1) u
    else resetFunction (hangRecord s 4 0xFF die 0xFF 0) die 1 2

/-- CONTROLLER_STALL (R400, R404). -/
def execControllerStall (die func : Nat) (s : State) : Host.Outcome State Fault Refusal :=
  .next <|
    if !functionExists die func || func == 1 || s.hlt.funcFenced.contains (die * 4 + func) ||
        s.boot.phase != .booted then s
    else resetFunction (hangRecord s 6 0xFF die func 0) die func 2

/-- CONTROLLER_FAULT (R404). -/
def execControllerFault (die func : Nat) (s : State) : Host.Outcome State Fault Refusal :=
  .next <| if s.boot.phase != .booted then s else resetFunction s die func 1

/-! ### Escalation -/

/-- ENGINE_RESET_THRESHOLD (R405): the third counted engine reset in 10 min fences the unit. -/
def execEngineResetThreshold (u : Nat) (s : State) : Host.Outcome State Fault Refusal :=
  .next <| if u ≥ 124 || resetsWin s u < 3 then s else selfFence s u .unconfirmed 2

/-- FUNCTION_RESET_THRESHOLD (R404, R405): the second die function reset in 1 h fences the function. -/
def execFunctionResetThreshold (die func : Nat) (s : State) : Host.Outcome State Fault Refusal :=
  .next <|
    if !functionExists die func || (functionResets s die func).length < 2 ||
        s.hlt.funcFenced.contains (die * 4 + func) then s
    else
      let s := { s with hlt := { s.hlt with funcFenced := s.hlt.funcFenced ++ [die * 4 + func] } }
      let s := raise s { code := 0x023, severity := 4, die := die, func := func }
      if func = 3 then
        let s := { s with mgt := { s.mgt with cxlHeld := true } }
        if s.mgt.cxlUp then linkDown s else s
      else if die = 4 || die = 5 then radioFenced s (die - 4)
      else dieFault s die 0x023

/-! ### Health clock, WITHDRAWN, marks -/

/-- The newest boot entry. -/
def currentEntry (s : State) : Option BootEntry := s.hlt.hr.entries.head?

/-- The current boot entry is stamped when the health clock first becomes known (R409). -/
def stampEntry (s : State) : State :=
  match healthClock s, s.hlt.hr.entries with
  | some n, e :: r =>
    if e.stamp.isSome then s
    else
      let s := setRec s { s.hlt.hr with entries := { e with stamp := some n } :: r }
      refreshHealth { s with hlt := { s.hlt with evaluated := false } }
  | _, _ => s

/-- Counted entries within the window of the current one (R409). -/
def countedBoots (s : State) : Nat :=
  match currentEntry s with
  | none => 0
  | some c => (s.hlt.hr.entries.filter fun e => e.counted &&
      match c.stamp, e.stamp with
      | some n, some t => n - t ≤ 86400 * 1000000000
      | _, _ => true).length

/-- WITHDRAWN_EVALUATION (R409): once the boot entry is stamped, or 60 s after TACOR reached RUNNING. -/
def execWithdrawnEvaluation (s : State) : Host.Outcome State Fault Refusal :=
  .next <|
    let due := (currentEntry s).any (·.stamp.isSome) || since s s.hlt.runningAt ≥ 60 * ticksPerS
    if s.mgt.tacor != 1 || s.hlt.evaluated || !due then s
    else
      let s := { s with hlt := { s.hlt with evaluated := true } }
      if !((currentEntry s).any (·.counted)) || countedBoots s < 4 || s.hlt.hr.withdrawn then s
      else raise (setRec s { s.hlt.hr with withdrawn := true })
        { code := 0x042, severity := 5, d0 := countedBoots s }

/-- HEALTH_SCORE_UPDATE (R415). -/
def execHealthScoreUpdate (s : State) : Host.Outcome State Fault Refusal :=
  .next <| if s.mgt.tacor != 1 then s else refreshHealth s

/-- CLEAN_MARK_EXPIRY (R407): the FL8 is still running 60 s after HEALTH_SHUTDOWN. -/
def execCleanMarkExpiry (s : State) : Host.Outcome State Fault Refusal :=
  .next <|
    if !(s.hlt.shutdownAt.any fun t => since s t ≥ 60 * ticksPerS) then s
    else
      let s := { s with hlt := { s.hlt with shutdownAt := none } }
      setRec s { s.hlt.hr with clean := false }

/-- DEFERRED_DEVICE_RESET (R419): 10 ms after HEALTH_DEVICE_RESET. -/
def execDeferredDeviceReset (s : State) : Host.Outcome State Fault Refusal :=
  .next <| if s.hlt.resetAt.any fun t => since s t ≥ 10 * ticksPerMs then deviceReset s none else s

/-! ### Commands -/

/-- A penalty in units of 0.01, rounded half up (R466). -/
def centi (p : Nat) : Nat := (200 * p + 2 ^ 64) / 2 ^ 65

/-- HEALTH_STATUS (R419, R466). -/
def execHealthStatus (cmd : Cmd) (s : State) : Host.Outcome State Fault Refusal :=
  .next <| serve 0x480 0 isMgmtRadio cmd s fun _ s =>
    let held := (List.range 124).filter fun u => (unitSt s u).hold != 0
    let es := s.hlt.hr.entries
    .ok s ([w64 (healthReg s), w64 (diesReg s)] ++ (penalties s).map (fun p => w64 (centi p)) ++
      [w64 held.length] ++ held.map (fun u => pack 64 [(8, (unitSt s u).hold), (0, u)]) ++
      [w64 es.length] ++ es.flatMap fun e =>
        [pack 64 [(32, e.incarnation), (9, b2n e.stamp.isSome), (8, b2n e.counted), (0, e.cause)],
         w64 (e.stamp.getD 0)])

/-- HEALTH_LOG_READ (R419): records from a number on, in number order; fewer than the count when the
log ends. -/
def execHealthLogRead (cmd : Cmd) (s : State) : Host.Outcome State Fault Refusal :=
  .next <| serve 0x481 3 isMgmtRadio cmd s fun p s =>
    let first := argN cmd 0
    let rs := (((s.hlt.log.reverse.dropWhile fun r => r.number != first)).take (argN cmd 1))
    checked [(argN cmd 1 == 0 || argN cmd 1 > 64 || rs.isEmpty, .badField)] <|
      match writeArg s p (arg cmd 2) (bytesOf (rs.flatMap (·.words))) with
      | .ok s => .ok s []
      | .error e => .ofArg (arg cmd 2) (64 * rs.length) e

/-- HEALTH_CONFIG (R397, R419). -/
def execHealthConfig (cmd : Cmd) (s : State) : Host.Outcome State Fault Refusal :=
  .next <| serve 0x482 1 isManager cmd s fun _ s =>
    checked [(argN cmd 0 < 5 || argN cmd 0 > 1000, .badField)] <|
      .ok { s with hlt := { s.hlt with hangMs := argN cmd 0 } } []

/-- HEALTH_CLOCK_SET (R409, R419). -/
def execHealthClockSet (cmd : Cmd) (s : State) : Host.Outcome State Fault Refusal :=
  .next <| serve 0x483 1 isMgmt cmd s fun _ s =>
    checked [(s.tim.state ≥ 2, .notQuiesced)] <|
      .ok (stampEntry { s with hlt := { s.hlt with clock := some (argN cmd 0, now s) } }) []

/-- HEALTH_SEED (R417, R419). -/
def execHealthSeed (cmd : Cmd) (s : State) : Host.Outcome State Fault Refusal :=
  .next <| serve 0x484 2 isMgmt cmd s fun p s =>
    let n := argN cmd 0
    checked [(n > 512, .badField)] <|
      match readArg s p cmd.hostData (arg cmd 1) (8 * n) with
      | .error e => .fail e
      | .ok bs =>
        let ws := wordsOf n bs
        checked [(ws.any fun w => fld w 63 56 > 123 || fld w 54 32 != 0, .badField)] <|
          .ok (refreshHealth { s with hlt := { s.hlt with seed := ws, seedRaw := now s } }) []

/-- HEALTH_UNIT_CONFIRM (R413, R419). -/
def execHealthUnitConfirm (cmd : Cmd) (s : State) : Host.Outcome State Fault Refusal :=
  .next <| serve 0x485 1 isMgmt cmd s fun _ s =>
    checked [(argN cmd 0 > 123, .badField), (s.pwr.inhibit, .busy)] <|
      .ok (fenceUnit (modUnit s (argN cmd 0) fun x => { x with clearing := false })
        (argN cmd 0) .confirmed 5) []

/-- HEALTH_UNIT_CLEAR (R413, R419). -/
def execHealthUnitClear (cmd : Cmd) (s : State) : Host.Outcome State Fault Refusal :=
  .next <| serve 0x486 1 isMgmt cmd s fun _ s =>
    let u := argN cmd 0
    checked [(u > 123 || ((unitSt s u).fence == .none && (unitSt s u).hold == 0), .badField),
        (s.pwr.inhibit, .busy)] <|
      .ok (modUnit s u fun x => { x with clearing := true, clearSince := now s, clearRuns := 0 }) []

/-- HEALTH_DIE_CLEAR (R419). -/
def execHealthDieClear (cmd : Cmd) (s : State) : Host.Outcome State Fault Refusal :=
  .next <| serve 0x487 1 isMgmt cmd s fun _ s =>
    checked [(argN cmd 0 > 7, .badField), (s.pwr.inhibit, .busy)] <|
      .ok (refreshHealth (setRec s { s.hlt.hr with
        dies := s.hlt.hr.dies.filter (· != argN cmd 0) })) []

/-- HEALTH_REINSTATE (R410, R419): admission proceeds, and radio firmware creates sleeve 0 (R265). -/
def execHealthReinstate (cmd : Cmd) (s : State) : Host.Outcome State Fault Refusal :=
  .next <| serve 0x488 0 isMgmt cmd s fun _ s =>
    checked [(!s.hlt.hr.withdrawn, .notQuiesced), (s.pwr.inhibit, .busy)] <|
      let s := setRec s { s.hlt.hr with
        withdrawn := false, entries := s.hlt.hr.entries.map fun e => { e with counted := false } }
      let s := if s.boot.radioFw && !s.boot.minimal && !s.boot.sleeve0 then
          radioBoot { s with boot := { s.boot with sleeve0 := true } } else s
      .ok (refreshHealth (raise s { code := 0x043, severity := 0 })) []

/-- The CLEAN mark (R407). -/
def writeClean (s : State) : State := setRec s { s.hlt.hr with clean := true }

/-- HEALTH_SHUTDOWN (R407, R419). -/
def execHealthShutdown (cmd : Cmd) (s : State) : Host.Outcome State Fault Refusal :=
  .next <| serve 0x489 0 isMgmt cmd s fun _ s =>
    checked [(s.pwr.inhibit, .busy)] <|
      .ok (writeClean { s with hlt := { s.hlt with shutdownAt := some (now s) } }) []

/-- HEALTH_DEVICE_RESET (R419). -/
def execHealthDeviceReset (cmd : Cmd) (s : State) : Host.Outcome State Fault Refusal :=
  .next <| serve 0x48A 0 isMgmt cmd s fun _ s =>
    checked [(s.pwr.inhibit, .busy)] <|
      .ok (writeClean { s with hlt := { s.hlt with resetAt := some (now s) } }) []

end Sys2Proof.Machine
end

