-- ==== Sys2Proof/Machine/RadioCmds.lean ====
section
/-! DEFINITION. Radio (chapter 08): cells and their moves, slot jobs, the slot planner, leases.
R230–R267, R274, R286. -/

namespace Sys2Proof.Machine

/-! ### Cells (R231–R233, R249, R259) -/

/-- SSB periods of R231 [ms]. -/
def ssbPeriods : List Nat := [5, 10, 20, 40, 80, 160]

/-- A cell record breaks the map of R231. -/
def cellBad (r : List W64) : Bool :=
  let t := cType r
  !(1 ≤ t && t ≤ 4) || fld (wd r 0) 47 39 + 1 != typePrbs t ||
  (cPattern r != 1 && cPattern r != 2) || !(1 ≤ cMaxIter r && cMaxIter r ≤ 25) ||
  fld (wd r 0) 29 20 > 1007 || cTa4 r > 300 || !(100 ≤ cT1aMax r && cT1aMax r ≤ 500) ||
  !(50 ≤ cT1aMin r && cT1aMin r + 50 ≤ cT1aMax r) || !(8 ≤ cHarqMib r && cHarqMib r ≤ 512) ||
  !ssbPeriods.contains (cSsbPeriod r) ||
  !rsvdZero r [(0, 49, 48), (0, 19, 0), (3, 39, 0), (4, 63, 0), (5, 63, 0), (6, 63, 0), (7, 63, 0)]

/-- The HARQ region of a cell fits the RD LPDDR6 of its die beside those of its other cells and 4 GiB (R249,
R24): 8 channels of the die's density. -/
def harqFits (s : State) (r : List W64) : Bool :=
  let others := s.rad.cells.filter fun e =>
    e.2.st != .absent && cDie e.2.record == cDie r && e.1 != cCell r
  (others.map fun e => cHarqMib e.2.record).sum + cHarqMib r + 4096 ≤
    8 * s.pkg.density.getD (cDie r) 0 * 1024

/-- The record of a cell in the first eight arguments. -/
def recordArgs (cmd : Cmd) : List W64 := (List.range 8).map (arg cmd)

/-- CELL_CONFIG (R231, R249, R264): ABSENT to CONFIGURED, or a change while CONFIGURED; a cell admitted for a coming frame
must be admissible with its new record (R233). A cell changes its die only by a move (R232). -/
def execCellConfig (cmd : Cmd) (s : State) : Host.Outcome State Fault Refusal :=
  .next <| serve 0x200 8 isMgmtRadio cmd s fun _ s =>
    let r := recordArgs cmd
    let x := cell s (cCell r)
    checked [(cellBad r, .badField),
      (x.st != .absent && x.st != .configured, .notQuiesced),
      (x.st == .configured && cDie x.record != cDie r, .badField),
      (!harqFits s r || (x.start.isSome && !cellAdmits s r), .noSpace)] <|
      .ok (modCell s (cCell r) fun x => { x with st := .configured, record := r, ever := true }) []

/-- A frame that CELL_START and CELL_STOP may name (R232). -/
def frameOk (s : State) (f : Nat) : Bool := frameNow s + 2 ≤ f && f ≤ frameNow s + 1000

/-- The device refuses new cells: WITHDRAWN, or a minimal boot (R410). -/
def noCells (s : State) : Bool := s.hlt.hr.withdrawn || s.boot.minimal

/-- CELL_START (R232, R233, R265, R410). -/
def execCellStart (cmd : Cmd) (s : State) : Host.Outcome State Fault Refusal :=
  .next <| serve 0x201 2 isMgmtRadio cmd s fun _ s =>
    let c := argN cmd 0
    let f := argN cmd 1
    let x := cell s c
    checked [(noCells s, .denied), (!timeLocked s, .busy),
      (c > 255 || x.st != .configured || x.start.isSome || !frameOk s f, .badField),
      (!cellAdmits s x.record, .noSpace)] <|
      .ok (modCell s c fun x => { x with start := some f }) []

/-- CELL_STOP (R232): STOPPING until F. -/
def execCellStop (cmd : Cmd) (s : State) : Host.Outcome State Fault Refusal :=
  .next <| serve 0x202 2 isMgmtRadio cmd s fun _ s =>
    let c := argN cmd 0
    let f := argN cmd 1
    checked [(c > 255 || (cell s c).st != .running || !frameOk s f, .badField)] <|
      .ok (modCell s c fun x => { x with st := .stopping, stop := some f }) []

/-- CELL_MOVE_OUT (R259 step 2): before F − 2. -/
def execCellMoveOut (cmd : Cmd) (s : State) : Host.Outcome State Fault Refusal :=
  .next <| serve 0x203 3 isMgmtRadio cmd s fun _ s =>
    let c := argN cmd 0
    let f := argN cmd 1
    checked [(c > 255 || f < frameNow s + 3 || argN cmd 2 ≥ 2 ^ 58, .badField),
      ((cell s c).st != .running, .notQuiesced)] <|
      .ok (modCell s c fun x => { x with
        st := .movingOut, moveOut := some f, moveTo := argN cmd 2, carry := 0 }) []

/-- CELL_MOVE_IN (R259 step 1, R337): before F − 4; the cell is CONFIGURED and fabric job number 0 opens. -/
def execCellMoveIn (cmd : Cmd) (s : State) : Host.Outcome State Fault Refusal :=
  .next <| serve 0x204 9 isMgmtRadio cmd s fun _ s =>
    let r := recordArgs cmd
    let f := argN cmd 8
    checked [(noCells s, .denied), (!timeLocked s, .busy),
      (cellBad r || f < frameNow s + 5 || (cell s (cCell r)).st != .absent, .badField),
      (!cellAdmits s r || !harqFits s r, .noSpace)] <|
      .ok (modCell s (cCell r) fun x => { x with
        st := .configured, record := r, ever := true, start := some f, job0 := some f, harq := [] }) []

/-- The changes of one cell whose frame has come (R232, R319): an unlocked timebase starts none. -/
def cellFrame (s : State) (frame c : Nat) : State :=
  let due (f : Option Nat) : Bool := match f with | some f => f ≤ frame | none => false
  let x := cell s c
  if x.st == .configured && due x.start then
    modCell s c fun x => { x with
      st := if timeLocked s then .running else .configured, start := none }
  else if x.st == .stopping && due x.stop then stopCell s c
  else s

/-- What a frame boundary does (R232, R267, R323): scheduled starts and stops, the stops after a loss of lock,
and the stops that POINTS_MAX asks for. A cell that moves out sends no more (R259 step 4). -/
def frameBoundary (frame : Nat) (s : State) : State :=
  let s := (s.rad.cells.map (·.1)).foldl (fun s c => cellFrame s frame c) s
  let gone := s.rad.lockStop.filter fun c => onAir (cell s c)
  let s := gone.foldl stopCell { s with rad := { s.rad with lockStop := [] } }
  [0, 1].foldl (fun s d => match (radDie s d).shed with
    | none => s
    | some before =>
      let s := modRadDie s d fun x => { x with shed := none }
      let s' := shedCells d (dieCells s d).length s
      if dieCells s' d == dieCells s d then s'
      else capacityLost s' d before (pointsMax s' d)) s

/-- CELL_FRAME_BOUNDARY (R232, R267, R319, R323). -/
def execCellFrameBoundary (frame : Nat) (s : State) : Host.Outcome State Fault Refusal :=
  .next <| frameBoundary frame s

/-! ### HARQ carry of a move (R259, R260) -/

/-- The HARQ region as it travels: its length in bytes, then RNTI, process, NDI, length and LLRs of each entry
(notes/assumptions/28.md). -/
def harqBytes (es : List HarqEntry) : List Byte :=
  let body := es.flatMap fun e => leBytes 2 e.rnti ++ leBytes 1 e.harqId ++ leBytes 1 (b2n e.ndi) ++
    leBytes 4 e.llrs.length ++ e.llrs
  leBytes 8 body.length ++ body

/-- The entries of a region that has travelled, updated at a slot; `fuel` counts bytes. -/
def harqEntries (slot : Nat) : Nat → List Byte → List HarqEntry
  | 0, _ => []
  | fuel + 1, bs =>
    if bs.length < 8 then []
    else
      let n := leNat ((bs.drop 4).take 4)
      { rnti := leNat (bs.take 2), harqId := leNat ((bs.drop 2).take 1), ndi := leNat ((bs.drop 3).take 1) == 1
        llrs := (bs.drop 8).take n, updated := slot } :: harqEntries slot fuel (bs.drop (8 + n))

/-- HARQ_CARRY_SEND (R259 steps 5 and 7): once frame F has come and the cell's last slot job is reported, the
region goes out under fabric job number 0; with no address, no entries or no way, the cell is ABSENT at
once. -/
def execHarqCarrySend (c : Nat) (s : State) : Host.Outcome State Fault Refusal :=
  .next <|
    let x := cell s c
    if x.st != .movingOut || x.carry != 0 ||
        !(x.moveOut.any fun f => f ≤ frameNow s) ||
        ((radDie s (cDie x.record)).jobs.any fun j => j.cell == c) then s
    else
      let dev := x.moveTo / 2 ^ 48
      let parts := (List.range (cdiv (harqBytes x.harq).length 4096)).map fun i =>
        ((harqBytes x.harq).drop (4096 * i)).take 4096
      if x.moveTo = 0 || x.harq.isEmpty then endCarry s c
      else
        let packets := (parts.zip (List.range parts.length)).map fun p =>
          let k := mkPacket s pPut dev 0 0 0 (x.moveTo % 2 ^ 48 + 4096 * p.2) [] p.1
          (k, ({ seq := 0, packet := k, first := 0, cell := some c } : Track))
        match sendAll s packets with
        | some s' => modCell s' c fun x => { x with carry := 1 }
        | none => endCarry s c

/-- The bytes of a carry that its PUTs have written from an address on, in sleeve 0's pages under R31: at most a HARQ
region's size and the heads of its entries. -/
def carriedBytes (s : State) (c addr : Nat) : Except Bar (List Byte) :=
  match devRead s radioIssuer addr 8 with
  | .error b => .error b
  | .ok hd => if leNat hd > 2 * cHarqMib (cell s c).record * 2 ^ 20 then .ok []
    else devRead s radioIssuer (addr + 8) (leNat hd)

/-- HARQ_CARRY_LANDED (R259 step 6, R260): the carried entries, read where the PUTs of fabric job number 0 wrote them, join
those of the cell; a carry that fails its CRC leaves none. -/
def execHarqCarryLanded (c : Nat) (crcOk : Bool) (addr : Nat) (s : State) : Host.Outcome State Fault Refusal :=
  .next <|
    let x := cell s c
    if x.job0.isNone || !crcOk then s
    else match carriedBytes s c addr with
      | .error .wait => park s addr 8 (.command (.harqCarryLanded c crcOk addr))
      | .error _ => modCell s c fun x => { x with job0 := none }
      | .ok bs => modCell s c fun x => { x with
          job0 := none
          harq := x.harq ++ (harqEntries (slotNow s) bs.length bs).filter fun e =>
            !(x.harq.any fun h => h.rnti == e.rnti && h.harqId == e.harqId) }

/-- MOVE_JOB0_CLOSE (R337): at F + 10 ms. -/
def execMoveJob0Close (c : Nat) (s : State) : Host.Outcome State Fault Refusal :=
  .next <| modCell s c fun x => { x with job0 := none }

/-! ### Leases (R253–R258) -/

/-- The record of a lease plan (R254, R372 rule 4): in the arguments where the path has room for 256 bytes,
else at the address of the one argument. -/
def planRecord (s : State) (p : Party) (cmd : Cmd) : Except Status (List W64) :=
  if argSpace cmd.src ≥ 32 then .ok ((List.range 32).map (arg cmd))
  else match readArg s p cmd.hostData (arg cmd 0) 256 with
    | .error st => .error st
    | .ok bs => .ok (wordsOf 32 bs)

/-- A plan record breaks R254. -/
def planBad (r : List W64) : Bool :=
  lpCount r > 60 || fld (wd r 0) 7 0 != 0 || wd r 1 != 0 ||
  (List.range (lpCount r)).any fun i =>
    let e := lpEntry r i
    e % 1024 != 0 || e / 2 ^ 26 % 4 == 0 || e / 2 ^ 26 % 4 == 3 ||
      lpEngines r / 2 ^ (e / 2 ^ 28) % 2 == 0

/-- The checks of R255 in their order; a plan whose check point has passed is no longer replaced. -/
def planChecks (s : State) (r : List W64) : List (Bool × Status) :=
  let gap := diff32 (lpPeriod r) (frameNow s)
  let es := maskEngines (lpEngines r)
  let p : LeasePlan := { period := lpPeriod r, record := r }
  [(gap < 2, .timeout), (gap > 100, .badField), (planBad r, .badField),
   (es.any fun e => maskAt s (lpPeriod r) / 2 ^ e % 2 == 0, .denied),
   (es.any (engineOut s), .fenced),
   (es.any fun e => engineBeats s p e > 600000, .noSpace),
   (s.rad.plans.any fun q => q.period == p.period && q.fixed, .timeout)]

/-- LEASE_PLAN (R255): accepted, it replaces an earlier plan of its period, and the planners leave
PLAN_REPEAT (R377). In the period PERIOD − 2 the check point has passed, and the plan is fixed at once. -/
def execLeasePlan (cmd : Cmd) (s : State) : Host.Outcome State Fault Refusal :=
  .next <| serve 0x205 (if argSpace cmd.src ≥ 32 then 32 else 1) isMgmtRadio cmd s fun p s =>
    match planRecord s p cmd with
    | .error st => .ofArg (arg cmd 0) 256 st
    | .ok r => checked (planChecks s r) <|
        .ok { s with rad := { s.rad with
          plans := s.rad.plans.filter (·.period != lpPeriod r) ++
            [{ period := lpPeriod r, record := r, fixed := diff32 (lpPeriod r) (frameNow s) ≤ 2 }]
          planRepeat := false } } []

/-- A cadence job fits with the jobs that do not run in free order (R194): its engines, or for a job not yet
placed enough engines. -/
def cadenceStill (s : State) (h : Nat) : Bool :=
  let j := job s h
  match j.cadence with
  | none => true
  | some c =>
    let es := (jobSlots s h).map (·.1)
    if es.isEmpty then admitCadence { s with jobs := tdel s.jobs h } c.characterised j.block
    else es.all fun e => outsideCeiling s e && loadOk (cadenceLoad s e)

/-- A cadence job runs in free order, or paced again. -/
def setFreeOrder (s : State) (h : Nat) (on : Bool) : State :=
  let s := modJob s h fun j => { j with cadence := j.cadence.map fun c => { c with freeOrder := on } }
  (jobSlots s h).foldl (fun s x => modSlot s x.1 x.2 fun y => { y with paced := !on }) s

/-- The test of R194 repeated (R195): of the jobs that no longer fit together, the youngest handles run in
free order (the highest numbers, notes/assumptions/29.md). -/
def retestCadence (s : State) : State :=
  let hs := (s.jobs.filter fun e => e.2.st != .free && e.2.cadence.isSome).map (·.1)
  let s := hs.foldl (fun s h => setFreeOrder s h true) s
  hs.foldl (fun s h =>
    let t := setFreeOrder s h false
    if cadenceStill t h then t else s) s

/-- Set bits of a mask. -/
def maskCount (m : Nat) : Nat := (maskEngines m).length

/-- The first period after the current one that has no accepted plan (R253). `fuel` counts plans. -/
def firstFreePeriod (s : State) : Nat → Nat → Nat
  | 0, p => p
  | fuel + 1, p =>
    if s.rad.plans.any (·.period == p % 2 ^ 32) then firstFreePeriod s fuel (p + 1) else p % 2 ^ 32

/-- LEASE_CEILING_SET (R253, R195). -/
def execLeaseCeilingSet (cmd : Cmd) (s : State) : Host.Outcome State Fault Refusal :=
  .next <| serve 0x206 1 isMgmt cmd s fun _ s =>
    let m := argN cmd 0
    checked [(m ≥ 65536 || maskCount m > 12, .badField)] <|
      let now := frameNow s
      .ok (retestCadence { s with rad := { s.rad with
        mask := maskAt s now
        maskNext := some (firstFreePeriod s s.rad.plans.length (now + 1), m) } }) []

/-- A period begins under its plan (R253, R255, R257): cells whose tasks the plan has newly dropped or moved owe a
FALLBACK, the mask and the plans of past periods move on, and the plan's engines are leased. Engines of a lease that ended
without Tacor return only once it runs (R258). -/
def startPeriod (s : State) (period : Nat) : State :=
  let plan := periodPlan s period
  let changed (p : LeasePlan) : List (Nat × Nat) := p.dropped ++ p.moved.map fun m => (m.1, m.2.1)
  let known := ((s.rad.plans.find? (·.period == period)).or s.rad.current).elim [] changed
  let hit := ((plan.elim [] changed).filter fun x => !known.contains x).map (·.2)
  let es := match plan with | none => [] | some p => planEngines s p
  let s := oweFallback s hit
  let m := maskAt s period
  let t : State := { s with rad := { s.rad with
    previous := s.rad.current
    current := plan
    mask := m
    maskNext := if s.rad.maskNext.any fun x => diff32 period x.1 ≥ 0 then none else s.rad.maskNext
    plans := s.rad.plans.filter fun p => diff32 p.period period > 0 } }
  if plan.isNone && s.mgt.tacor != 1 then t else setLease t es

/-- LEASE_PERIOD_START (R253, R255–R258): the lease ends, or the period's plan takes effect. -/
def execLeasePeriodStart (period : Nat) (s : State) : Host.Outcome State Fault Refusal :=
  .next <|
    if !s.rad.leaseEnds then startPeriod s period
    else if s.mgt.tacor == 1 then endLease s
    else { s with rad := { s.rad with plans := [], previous := s.rad.current, current := none, leaseEnds := false } }

/-- LEASE_CHECK_POINT (R255): the plan of the period is fixed. -/
def execLeaseCheckPoint (period : Nat) (s : State) : Host.Outcome State Fault Refusal :=
  .next { s with rad := { s.rad with
    plans := s.rad.plans.map fun p => if p.period == period then { p with fixed := true } else p } }

/-- LEASE_END_NO_TACOR (R258): the lease ends at the next period boundary. -/
def execLeaseEndNoTacor (s : State) : Host.Outcome State Fault Refusal :=
  .next <|
    if s.rad.planRepeat && s.mgt.tacor != 1 && since s s.rad.repeatSince ≥ 2 * ticksPerS then { s with rad := { s.rad with leaseEnds := true } }
    else s

/-! ### Registers and status (R262–R264) -/

/-- EQP_STATUS (R262). -/
def eqpStatus (s : State) (d : Nat) : W32 :=
  let x := radDie s d
  pack 32 [(31, b2n x.fenced), (30, b2n s.rad.planRepeat), (29, b2n (timeLocked s)), (23, x.sc),
    (20, x.dec), (18, x.enc), (10, ((dieCells s d).filter fun c => countedCell (cell s c)).length)]

/-- EQP_CAPACITY (R263). -/
def eqpCapacity (s : State) (d : Nat) : W32 := pack 32 [(16, pointsMax s d), (0, pointsUsed s d)]

/-- Code of a cell state (R232). -/
def cellCode : CellState → Nat
  | .absent => 0 | .configured => 1 | .running => 2 | .movingOut => 3 | .stopping => 4

/-- The plans held, in ascending PERIOD: the running period's, then the accepted ones. -/
def plansHeld (s : State) : List LeasePlan :=
  s.rad.current.toList ++ sortBy (fun a b => decide (diff32 a.period b.period ≤ 0)) s.rad.plans

/-- RADIO_STATUS (R264, R466). -/
def execRadioStatus (cmd : Cmd) (s : State) : Host.Outcome State Fault Refusal :=
  .next <| serve 0x207 1 isMgmtRadio cmd s fun _ s =>
    let d := argN cmd 0
    checked [(d > 1, .badField)] <|
      let cs := s.rad.cells.filter fun e => e.2.st != .absent && cDie e.2.record == d
      let item (e : Nat × Cell) : W64 := pack 64 [(20, cPoints e.2.record), (16, cPort e.2.record),
        (12, cType e.2.record), (8, cellCode e.2.st), (0, e.1)]
      .ok s ([(eqpStatus s d).setWidth 64, (eqpCapacity s d).setWidth 64, w64 cs.length] ++
        cs.map item ++ [w64 (plansHeld s).length] ++
        (plansHeld s).flatMap fun p => (List.range 32).map (wd p.record))

/-! ### Slot jobs (R235–R239) -/

/-- Fields of a slot job's header (R236). -/
def sjDir (h : List W64) : Nat := fld (wd h 0) 59 58
def sjCell (h : List W64) : Nat := fld (wd h 0) 57 50
def sjSfn (h : List W64) : Nat := fld (wd h 0) 49 40
def sjSlot (h : List W64) : Nat := fld (wd h 0) 39 35
def sjAllocs (h : List W64) : Nat := fld (wd h 0) 34 23
def sjAddr (h : List W64) : Nat := fld (wd h 1) 63 16

/-- A header breaks R236. -/
def sjBad (h : List W64) : Bool :=
  fld (wd h 0) 63 60 != 1 || sjDir h == 0 || sjDir h == 3 || sjSlot h > 19 || sjAddr h % 64 != 0 ||
  !rsvdZero h [(0, 22, 0), (1, 15, 0), (2, 15, 0), (3, 31, 0), (4, 63, 0), (5, 63, 0), (6, 63, 0),
    (7, 63, 0)]

/-- Fields of an allocation entry (R237). -/
def alType (a : List W64) : Nat := fld (wd a 0) 63 60
def alRnti (a : List W64) : Nat := fld (wd a 0) 59 44
def alPrb (a : List W64) : Nat := fld (wd a 0) 33 25
def alPrbs (a : List W64) : Nat := fld (wd a 0) 24 16 + 1
def alSym (a : List W64) : Nat := fld (wd a 0) 15 12
def alSyms (a : List W64) : Nat := fld (wd a 0) 11 8 + 1
def alLayers (a : List W64) : Nat := fld (wd a 0) 7 4 + 1
def alQm (a : List W64) : Nat := fld (wd a 0) 3 0
def alHarq (a : List W64) : Nat := fld (wd a 1) 27 23
def alNdi (a : List W64) : Bool := bitOf (wd a 1) 22
def alCtrl (a : List W64) : Nat := fld (wd a 4) 63 56

/-- An allocation entry breaks R237 in a job of a direction of a cell type. -/
def allocBad (dir cellType : Nat) (a : List W64) : Bool :=
  let t := alType a
  t == 0 || t > 6 || (t == 1 && dir != 1) || (t == 2 && dir != 2) || alSym a > 13 ||
  alQm a > 5 || (alQm a == 5 && dir != 1) ||
  ((t == 1 || t == 2) && alQm a == 0 && !(t == 2 && bitOf (wd a 1) 21)) ||
  fld (wd a 1) 6 5 > 1 || fld (wd a 2) 47 44 > 4 || fld (wd a 4) 39 32 > 192 ||
  fld (wd a 3) 31 16 > (if cellType = 2 then 1023 else 0) ||
  (if t = 3 then !([1, 2, 4, 8, 16] : List Nat).contains (alCtrl a)
   else if t = 4 then decide (alCtrl a > 4) else alCtrl a != 0) ||
  (t != 3 && (a.drop 5).any (· != 0)) ||
  !rsvdZero a [(1, 4, 0), (2, 10, 0), (3, 15, 0), (4, 31, 0)]

/-- The allocations exceed the cell type's PRBs or layers (R239): each by itself, and the data allocations
that share a PRB and a symbol together. -/
def allocsExceed (dir cellType : Nat) (as : List (List W64)) : Bool :=
  let data := as.filter fun a => alType a == 1 || alType a == 2
  let most := if dir = 1 then typeDl cellType else typeUl cellType
  (as.any fun a => alPrb a + alPrbs a > typePrbs cellType) ||
  data.any fun a => data.any fun b =>
    ((data.filter fun x => alPrb x ≤ alPrb a && alPrb a < alPrb x + alPrbs x &&
      alSym x ≤ alSym b && alSym b < alSym x + alSyms x).map alLayers).sum > most

/-- The slot of a cell is this device's to run (R232, R259): RUNNING, STOPPING before its frame, or a cell admitted for a
coming frame from that frame on. -/
def runsSlot (x : Cell) (frame : Nat) : Bool :=
  match x.st with
  | .running => true
  | .stopping => x.stop.any fun f => frame < f
  | .movingOut => true
  | .configured => x.start.any fun f => f ≤ frame
  | .absent => false

/-- The deadline of a slot job, network time [ns] (R235). -/
def sjDeadline (r : List W64) (dir frame slot : Nat) : Nat :=
  airTime frame slot - (if dir = 1 then (1050 + cT1aMax r) * 1000 else 1000000)

/-- What a slot job that has been fetched comes to (R239, R259): the status that refuses it, or none. `arrival` is the
network time at which it reached the ring. -/
def sjRefused (s : State) (d arrival : Nat) (h : List W64) (as : List (List W64)) : Option Status :=
  let x := cell s (sjCell h)
  let r := x.record
  let frame := frameOfSfn s (sjSfn h)
  let late := arrival > sjDeadline r (sjDir h) frame (sjSlot h) * 2 ^ 32
  firstFail [(sjBad h || cDie r != d || !runsSlot x frame, .badField),
    (as.any (allocBad (sjDir h) (cType r)), .badField),
    (x.st == .movingOut && x.moveOut.any fun f => f ≤ frame, .denied),
    ((radDie s d).seen.contains (sjCell h, frame, sjSlot h, sjDir h), .badField),
    (late, .timeout),
    (allocsExceed (sjDir h) (cType r) as, .noSpace)]

/-- The IQ of a slot that a late UL job names is discarded, what has come and what comes (R239). -/
def discardIq (s : State) (d c frame slot : Nat) : State :=
  let s := modRadDie s d fun x => { x with lateUl := x.lateUl ++ [(c, frame, slot)] }
  { s with rad := { s.rad with iq := s.rad.iq.filter fun q => !(q.cell == c && q.frame == frame && q.slot == slot) } }

/-- The slot job joins those of its die, or its report is written at once. -/
def takeSlotJob (s : State) (d arrival : Nat) (h : List W64) (as : List (List W64)) : State :=
  let key := (sjCell h, frameOfSfn s (sjSfn h), sjSlot h, sjDir h)
  match sjRefused s d arrival h as with
  | some st =>
    let s := if st == .timeout || st == .noSpace then
      modRadDie s d fun x => { x with seen := x.seen ++ [key] } else s
    let s := if st == .timeout && sjDir h == 2 then discardIq s d key.1 key.2.1 key.2.2.1 else s
    reportStatus s d h as (statusCode st)
  | none => modRadDie s d fun x => { x with
      seen := x.seen ++ [key]
      nextId := x.nextId + 1
      jobs := x.jobs ++ [{ id := x.nextId, dir := sjDir h, cell := sjCell h, frame := key.2.1
                           slot := sjSlot h, header := h, allocs := as }] }

/-- Ring entries fetched in order under R31, until TAIL or an entry whose page is being moved. `fuel` counts
entries. -/
def fetchSlotJobs (d : Nat) : Nat → State → State
  | 0, s => s
  | fuel + 1, s =>
    let r := (radDie s d).sj
    if r.head == r.tail then s
    else
      let arrival := (radDie s d).arrivals.headD 0
      let skip (s : State) : State := modRadDie s d fun x => { x with
        sj := { x.sj with head := (x.sj.head + 1) % (x.sj.entries + 1) }, arrivals := x.arrivals.drop 1 }
      match devRead s radioIssuer (r.addr + 64 * r.head) 64 with
      | .error .wait => park s (r.addr + 64 * r.head) 64 (.slotJobs d)
      | .error _ => fetchSlotJobs d fuel (skip s)
      | .ok bs =>
        let h := wordsOf 8 bs
        if sjBad h then fetchSlotJobs d fuel (reportStatus (skip s) d h [] (statusCode .badField))
        else match devRead s radioIssuer (sjAddr h) (64 * sjAllocs h) with
          | .error .wait => park s (sjAddr h) (64 * sjAllocs h) (.slotJobs d)
          | .error b => fetchSlotJobs d fuel (reportStatus (skip s) d h [] (statusCode (barStatus b)))
          | .ok bs =>
            let as := (List.range (sjAllocs h)).map fun i => wordsOf 8 (bs.drop (64 * i))
            fetchSlotJobs d fuel (takeSlotJob (skip s) d arrival h as)

/-- EQP_SJ_TAIL_WRITE (R235, R239): a TAIL that would pass HEAD is ignored and counted. A fenced radio
function fetches nothing. -/
def execEqpSjTailWrite (d : Nat) (value : W32) (s : State) : Host.Outcome State Fault Refusal :=
  .next <|
    if d > 1 then s
    else
      let r := (radDie s d).sj
      let n := r.entries + 1
      let t := fld value 11 0
      if t ≥ n || (r.tail + n - r.head) % n + (t + n - r.tail) % n ≥ n then
        modRadDie s d fun x =>
          if x.overrun < 0x7FFF then { x with overrun := x.overrun + 1 } else { x with sat := true }
      else
        let s := modRadDie s d fun x => { x with
          sj := { x.sj with tail := t }
          arrivals := x.arrivals ++ List.replicate ((t + n - r.tail) % n) (networkTime s) }
        if (radDie s d).fenced then s else fetchSlotJobs d n s

/-- EQP_RPT_HEAD_WRITE (R240): entries are freed, and buffered reports are written. -/
def execEqpRptHeadWrite (d : Nat) (value : W32) (s : State) : Host.Outcome State Fault Refusal :=
  .next <|
    if d > 1 || fld value 11 0 > (radDie s d).rpt.entries then s
    else
      let s := modRadDie s d fun x => { x with rpt := { x.rpt with head := fld value 11 0 } }
      drainReports d (radDie s d).buffer.length s

/-! ### The slot boundary (R238, R246, R251, R252, R274) -/

/-- SSB indices due in a slot (R238): two per slot in the first four slots of a half frame of the period
(TS 38.213 case C, PRESUMED, notes/assumptions/24.md). -/
def ssbDue (r : List W64) (sfn slot : Nat) : List Nat :=
  let w := (sfn * 20 + slot) % (2 * Nat.max 5 (cSsbPeriod r))
  if w < 4 then [2 * w, 2 * w + 1].filter fun b => cSsbMask r / 2 ^ b % 2 == 1 else []

/-- A radio frame of a cell: Ethernet header with the port's VLAN, then an eCPRI message (R304, R305, R326).
-/
def radioFrame (s : State) (c message eaxc : Nat) (body : List Byte) : List Byte :=
  let x := fhPort s (cFhPort (cell s c).record)
  let tag := if x.vlan = 0xFFFF then [] else beBytes 2 0x8100 ++ beBytes 2 (x.pcp * 8192 + x.vlan)
  beBytes 6 (cRuMac (cell s c).record) ++ beBytes 6 x.mac ++ tag ++ beBytes 2 0xAEFE ++
    [0x10, BitVec.ofNat 8 message] ++ beBytes 2 (body.length + 4) ++ beBytes 2 eaxc ++ beBytes 2 0 ++
    body

/-- A radio frame joins its queue in the order of the window openings (R309), scheduled by the mapping in force for a raw
tick: a symbol for 1 µs after its window opens (R319). -/
def queueRadio (s : State) (p q : Nat) (f : EgFrame) : State :=
  let f := { f with sched := now s + ticksTo s (f.opens + if f.symbol.isSome then 1000 else 0) }
  modFhPort s p fun x => { x with
    queues := tmod [] x.queues q fun l =>
      (l.filter fun y => y.opens ≤ f.opens) ++ [f] ++ l.filter fun y => y.opens > f.opens }

/-- The C-plane message of one stream of a cell's slot and direction (R246), by the O-RAN CUS-plane specification, with a
section extension behind its section. -/
def cplaneFrame (s : State) (c frame slot dir stream : Nat) (ext : List Byte) : List Byte :=
  let r := (cell s c).record
  let desc := leBytes 1 dir ++ leBytes 8 frame ++ leBytes 1 slot ++ leBytes 1 stream
  radioFrame s c 2 ((cEaxc r + stream) % 65536)
    ((List.range 24).map (Config.blockUnit 100 desc (bytesOf r ++ ext)) ++ ext)

/-- The C-plane of a cell's slot and direction (R246): one message per stream, sent 125 µs before the window of symbol 0
opens. -/
def sendCplane (s : State) (c frame slot dir : Nat) : State :=
  let r := (cell s c).record
  let opens := airTime frame slot - (cT1aMax r + 125) * 1000
  (List.range (typeStreams (cType r))).foldl (fun s i =>
    queueRadio s (cFhPort r) 1 { bytes := cplaneFrame s c frame slot dir i []
                                 cplane := if dir = 1 then some (c, frame, slot, i) else none
                                 opens := opens, closes := opens + 125000 }) s

/-- Weights attached to the DL C-plane of a type 0x2 cell's slot while it waits in its queue (R230, R246): each stream's
message takes its share of the section extension, in stream order (notes/assumptions/25.md). -/
def attachWeights (s : State) (c frame slot : Nat) (ext : List Byte) : State :=
  let r := (cell s c).record
  let per := cdiv ext.length (Nat.max 1 (typeStreams (cType r)))
  if cType r != 2 then s
  else modFhPort s (cFhPort r) fun x => { x with
    queues := tmod [] x.queues 1 fun l => l.map fun f => match f.cplane with
      | some (c', f', sl, i) => if c' == c && f' == frame && sl == slot then
          { f with bytes := cplaneFrame s c frame slot 1 i ((ext.drop (per * i)).take per) } else f
      | none => f }

/-- The planner's work for one cell and one slot: SSB and CSI-RS that are due, and the C-plane of each
direction with a slot job or such a signal. -/
def planCell (s : State) (d frame slot : Nat) (csiRs : List Nat) (c : Nat) : State :=
  let x := cell s c
  let r := x.record
  let ours := match x.st with
    | .movingOut => x.moveOut.all fun f => frame < f
    | .stopping => x.stop.all fun f => frame < f
    | .running => true
    | _ => runsSlot x frame && timeLocked s
  if !ours || cDie r != d then s
  else
    let ssb := ssbDue r (sfnOf s frame) slot
    let s := ssb.foldl (fun s b => emit s (.notice "SSB" c b)) s
    let s := if csiRs.contains c then emit s (.notice "CSI-RS" c slot) else s
    let has (dir : Nat) : Bool := (radDie s d).jobs.any fun j =>
      j.cell == c && j.frame == frame && j.slot == slot && j.dir == dir
    let s := if has 1 || !ssb.isEmpty || csiRs.contains c then sendCplane s c frame slot 1 else s
    if has 2 then sendCplane s c frame slot 2 else s

/-- Signal cores of a group of a die, and the group's power domain (R44). -/
def groupCores (d g : Nat) : List Nat := (List.range 8).map (· + 32 * d + 8 * g)
def groupDomain (d g : Nat) : Nat := 64 + 10 * d + g

/-- A group is switched off (R46, R274): only when all its cores are RELOADABLE and none has a task; local
memory and instruction stores are lost. -/
def groupOff (s : State) (d g : Nat) : State :=
  if g > 3 || !(domain s (groupDomain d g)).on ||
      !((groupCores d g).all fun k => (sigCore s k).reloadable && coreIdle s k) then s
  else
    let s := modDomain s (groupDomain d g) fun x => { x with on := false }
    (groupCores d g).foldl (fun s k =>
      physZero (modSigCore s k fun x => { x with store := [] }) (localKey k 0) (2 ^ 19)) s

/-- A group is switched on one slot before its first task (R46, R274): stores from the image, local memory
zeroed. -/
def groupOn (s : State) (d g : Nat) : State :=
  if g > 3 || (domain s (groupDomain d g)).on then s
  else
    let s := modDomain s (groupDomain d g) fun x => { x with on := true }
    (groupCores d g).foldl (fun s k =>
      physZero (modSigCore s k fun x => { x with store := x.image }) (localKey k 0) (2 ^ 19)) s

/-- A plan that the planner may make (R252, R289): its cores are unfenced cores of the die, none with more than 480,000
planned beats. -/
def slotPlanOk (s : State) (d : Nat) (p : SlotPlan) : Bool :=
  let ok (k : Nat) : Bool := (radDie s d).cores.contains k
  p.beats.all (fun b => ok b.1 && b.2 ≤ 480000) && p.lists.all fun t => t.2.all fun e => ok e.2

/-- The lists of a slot's plan join what the targets still have to serve, in ascending PLAN_SEQ (R286). -/
def takePlan (s : State) (d : Nat) (p : SlotPlan) : State :=
  if !slotPlanOk s d p then s
  else
    let n := slotNow s
    modRadDie s d fun x => { x with
      plan := p.lists.foldl (fun t e => tmod [] t e.1 fun l => sortBy (fun a b => !b.before a)
        (l ++ e.2.map fun y => { slot := n, seq := y.1, core := y.2 })) x.plan }

/-- SLOT_BOUNDARY (R238, R246, R248, R251, R252, R267, R274, R286, R289): the planner takes up the units in
service, plans the slot after the next, and gives each target its list. -/
def execSlotBoundary (d : Nat) (groupsOff groupsOn : List Nat) (plan : SlotPlan) (csiRs : List Nat) (s : State) :
    Host.Outcome State Fault Refusal :=
  .next <|
    if d > 1 then s
    else
      let before := pointsMax s d
      let s := takeUnits s d
      let s := if pointsUsed s d > pointsMax s d && (radDie s d).shed.isNone then
        modRadDie s d fun x => { x with shed := some before } else s
      let old := frameNow s - 2
      let s := modRadDie s d fun x => { x with
        pools := []
        seen := x.seen.filter fun k => old ≤ k.2.1
        lateUl := x.lateUl.filter fun k => old ≤ k.2.1 }
      let s := takePlan s d plan
      let s := { s with rad := { s.rad with iq := s.rad.iq.filter fun r => old ≤ r.frame } }
      let s := groupsOn.foldl (fun s g => groupOn s d g) (groupsOff.foldl (fun s g => groupOff s d g) s)
      let n := slotNow s + 2
      (s.rad.cells.map (·.1)).foldl (fun s c => planCell s d (n / 20) (n % 20) csiRs c) s

end Sys2Proof.Machine
end

