-- ==== Sys2Proof/Machine/PowerOps.lean ====
section
/-! DEFINITION. Pace, voltage and throttling (chapter 02), shared by the windows, the samples and the
engines: R45–R57, R63–R66. -/

namespace Sys2Proof.Machine

/-! ### Voltage -/

/-- A voltage index asked for (R46, R57): a raise at once; a lowering at the next boundary, and not
within 100 ms of a late beat. -/
def setIndex (s : State) (n i : Nat) : State :=
  let x := domain s n
  let i := if heldAtCeiling s n then ceilingIndex (domainClass n) else clampIndex n i
  if i ≥ x.vindex then setDomain s n { x with vindex := i, vnext := none }
  else if now s < x.holdUntil then s
  else if atBoundary s n then setDomain s n { x with vindex := i, vnext := none }
  else setDomain s n { x with vnext := some i }

/-! ### Pace -/

/-- Entry i of a domain's pace table (R50). -/
def paceEntry (x : Domain) (i : Nat) : PaceEntry := tget {} x.table i

/-- Relied pace at index i (R51): a fraction kept exact as numerator and denominator. While the table's PACE at the
present index is 0, where R51 divides by it, k is taken as 1 (DESIGN CHOICE, notes/assumptions/91.md). -/
def reliedPace (x : Domain) (i : Nat) : Nat × Nat :=
  let here := (paceEntry x x.vindex).pace
  if here = 0 || x.live ≥ here then ((paceEntry x i).pace, 1)
  else ((paceEntry x i).pace * x.live, here)

/-- Guard of a class [0.1 %] (R51). -/
def guardOf (s : State) : VClass → Nat
  | .a => s.pwr.guardA | .s => s.pwr.guardS | .h => s.pwr.guardH | _ => 0

/-- The guarded voltage (R51) for a required pace of num/den Mbeat/s: the lowest index whose relied pace is at least
the required pace × (1 + guard); the ceiling when none is. -/
def guardedIndex (s : State) (n num den : Nat) : Nat :=
  let x := domain s n
  let c := ceilingIndex (domainClass n)
  ((List.range (c + 1)).find? fun i =>
    (paceEntry x i).tag != 0 &&
      (let r := reliedPace x i
       1000 * r.1 * den ≥ num * (1000 + guardOf s (domainClass n)) * r.2)).getD c

/-- Required pace of a domain (R53) [Mbeat/s] as a fraction: the largest ratio of beats to the interval from release
tick to release tick, in reference periods of 6.4 ns. None: the domain has no paced work. -/
def requiredPace (sched : List (Nat × Nat × Nat)) (n : Nat) : Option (Nat × Nat) :=
  ((sched.filter fun t => t.1 == n && t.2.2 != 0).map (·.2)).foldl (fun m t =>
    let r := (625 * t.1, 4 * t.2)
    match m with
    | none => some r
    | some q => if r.1 * q.2 > q.1 * r.2 then some r else some q) none

/-! ### Sensors (R47, R48) -/

/-- Twice the median of a list of readings. -/
def median2 (rs : List Nat) : Nat :=
  let l := sortBy (fun a b => decide (a ≤ b)) rs
  l.getD (l.length / 2) 0 + l.getD ((l.length - 1) / 2) 0

/-- A reading differs from the median by more than 10 % (R48). -/
def deviates (m2 r : Nat) : Bool :=
  (2 * r > m2 && (2 * r - m2) * 10 > m2) || (2 * r < m2 && (m2 - 2 * r) * 10 > m2)

/-- One more sample of a domain's sensors: the samples in a row in which each has deviated (R48). -/
def countDeviations (t : Tbl Nat) (rs : List Nat) : Tbl Nat :=
  (List.range rs.length).foldl (fun t i =>
    tset 0 t i (if deviates (median2 rs) (rs.getD i 0) then tget 0 t i + 1 else 0)) t

/-- Lowest reading of the sensors that are not excluded (R47). -/
def lowest (excluded rs : List Nat) : Option Nat :=
  ((List.range rs.length).filter fun i => !excluded.contains i).foldl (fun m i =>
    some (match m with | some x => Nat.min x (rs.getD i 0) | none => rs.getD i 0)) none

/-- Sensors of a domain (R47). -/
def sensorCount (n : Nat) : Nat :=
  match domainClass n with
  | .a => 8 | .s => 4 | .h => 4 | _ => 0

/-- A unit suspect (R400) with what follows for a lease (R257). -/
def suspectUnit (s : State) (u : Nat) : State :=
  let s := markSuspect s u
  if u < 32 && (engine s (u % 16)).leased then leaseReplan s (u % 16) else s

/-- Sensor i of a domain is excluded (R48): with more than two, SENSOR_FAULT, the ceiling, a record, and the domain's
matrix engine, element engine or host cores suspect. -/
def excludeSensor (s : State) (n i : Nat) : State :=
  let x := domain s n
  let s := setDomain s n { x with excluded := x.excluded ++ [i] }
  if x.excluded.length < 2 || x.sensorFault then s
  else
    let s := modDomain s n fun x => { x with
      sensorFault := true, vindex := ceilingIndex (domainClass n), vnext := none }
    let s := raise s { code := 0x007, severity := 3, die := domainDie n, domain := n, d0 := i, d1 := 1 }
    ((domainUnits n).filter fun u => u < 32 || (96 ≤ u && u < 112)).foldl suspectUnit s

/-! ### Late beats -/

/-- A late beat of a domain (R57): counted, one voltage step up, not lowered for 100 ms, radio work
first at the next boundary; at the ceiling its time counts toward PACE_FAULT. -/
def lateBeat (s : State) (n : Nat) : State :=
  let x := domain s n
  let top := ceilingIndex (domainClass n)
  setDomain s n { x with
    late := x.late.add 0x7FFFFFFF 1
    vindex := Nat.min top (x.vindex + 1)
    vnext := none
    holdUntil := now s + 100 * ticksPerMs
    radioFirst := true
    lates := if x.vindex ≥ top then
        (x.lates.filter fun t => since s t ≤ ticksPerS) ++ [now s]
      else x.lates }

/-- An operand wait of a domain (R56). -/
def operandWait (s : State) (n : Nat) : State :=
  modDomain s n fun x => { x with wait := x.wait.add 0x7FFFFFFF 1 }

/-- The bound of a core rail holds back tenant passes of a die (R448, R444): 350 W in the last window or
310 W over ten. VIN_CORE_A feeds the dies of even index, VIN_CORE_B the others. -/
def railBound (s : State) (d : Nat) : Bool :=
  let es := s.pwr.rails.map fun r => if d % 2 = 0 then r.1 else r.2
  es.headD 0 > 350 || es.sum > 3100

/-! ### Throttling -/

/-- Budget B of the window [mJ] (R60): the cap times 1 ms. -/
def budgetB (s : State) : Nat := s.pwr.cap

/-- A temperature sensor of a die has failed (R64). -/
def dieTempFault (s : State) (d : Nat) : Bool :=
  (List.range (dieDomains d)).any fun i => (domain s (dieDomain0 d + i)).tempFault

/-- Entry condition of a throttle level 1–3 on a die (R64, R65). -/
def tableCond (s : State) (d level : Nat) : Bool :=
  let t := (diePwr s d).tj
  let p := s.pwr
  match level with
  | 1 => t ≥ p.tempThrottle || p.debt * 10 > budgetB s || dieTempFault s d
  | 2 => t ≥ p.tempThrottle + 3 || p.debt * 4 > budgetB s || dieTempFault s d
  | _ => t ≥ p.tempStop || dieTempFault s d

/-- A level is asked for (R65), level 1 by the supply sag too (R68). -/
def entryCond (s : State) (d level : Nat) : Bool := tableCond s d level || (level == 1 && s.pwr.sag)

/-- Entry temperature of a level (R65). -/
def entryTemp (s : State) (level : Nat) : Nat :=
  match level with
  | 1 => s.pwr.tempThrottle | 2 => s.pwr.tempThrottle + 3 | _ => s.pwr.tempStop

/-- The highest level whose entry condition holds (R65). -/
def entryLevel (s : State) (d : Nat) : Nat :=
  if entryCond s d 3 then 3 else if entryCond s d 2 then 2 else if entryCond s d 1 then 1 else 0

/-- A die's level set; domains at a boundary take it now (R66). -/
def setLevel (s : State) (d level : Nat) : State :=
  let old := (diePwr s d).level
  let s := setDiePwr s d { diePwr s d with
    level := level, held1 := level != 0 && ((diePwr s d).held1 || level > 1 || tableCond s d 1) }
  let s := (List.range (dieDomains d)).foldl (fun s i =>
    if atBoundary s (dieDomain0 d + i) then takeThrottle s (dieDomain0 d + i) else s) s
  if level = 3 && old < 3 then
    raise s { code := 0x00B, severity := 0, die := d, d0 := (diePwr s d).tj }
  else s

/-- THROTTLE_ENTER (R65): a die goes up to the highest level whose entry condition holds; a cause of R65 at level 1
outlasts the sag (R68). -/
def enterThrottle (s : State) (d : Nat) : State :=
  if entryLevel s d > (diePwr s d).level then setLevel s d (entryLevel s d)
  else if (diePwr s d).level != 0 && tableCond s d 1 then setDiePwr s d { diePwr s d with held1 := true }
  else s

def enterThrottles (s : State) : State := (List.range 8).foldl enterThrottle s

/-! ### Active beats (R58) -/

/-- Active beats added to those of the window that have the same purpose. -/
def addActive : List Active → Active → List Active
  | [], a => [a]
  | b :: rest, a =>
    if b.domain == a.domain && b.sleeve == a.sleeve && b.job == a.job && b.gen == a.gen && b.radio == a.radio then
      { b with beats := b.beats + a.beats, est := b.est + a.est } :: rest
    else b :: addActive rest a

def noteActive (s : State) (a : Active) : State :=
  { s with pwr := { s.pwr with active := addActive s.pwr.active a } }

/-- Beats of a context's pass or descriptor in some domains of its engine; the lease context's are radio's. -/
def noteBeats (s : State) (ns : List Nat) (x : Slot) (lease : Bool) (beats est : Nat) : State :=
  ns.foldl (fun s n => noteActive s { domain := n, sleeve := x.sleeve, job := x.job, gen := (job s x.job).gen
                                      radio := lease, beats := beats, est := est }) s

/-- Beats of a referee pass or a fitting on a matrix or element engine: device overhead (R58). -/
def noteOverhead (s : State) (u beats : Nat) : State :=
  if u < 16 then noteBeats s ((engineDomains u).take 2) {} false beats 0
  else if u < 32 then noteBeats s ((engineDomains (u % 16)).drop 1) {} false beats 0
  else s

end Sys2Proof.Machine
end

