-- ==== Sys2Proof/Machine/SignalOps.lean ====
section
/-! DEFINITION. Signal cores at work (chapter 09), shared by the native instructions: registers and lanes
(R269), encodings (R280, R282), local memory (R271, R272), arithmetic (R277–R279), hardware loops, and the
course of one instruction with its checks (R290–R293). -/

namespace Sys2Proof.Machine

/-! ### Registers and lanes (R269) -/

def vReg (x : SigCore) (i : Nat) : V512 := tget 0 x.v i
def setV (x : SigCore) (i : Nat) (v : V512) : SigCore := { x with v := tset 0 x.v i v }
def accReg (x : SigCore) (i : Nat) : BitVec 1280 := tget 0 x.acc i
def setAcc (x : SigCore) (i : Nat) (a : BitVec 1280) : SigCore := { x with acc := tset 0 x.acc i a }
/-- S0 reads 0 and ignores writes. -/
def sReg (x : SigCore) (i : Nat) : W32 := if i = 0 then 0 else tget 0 x.sreg i
def setS (x : SigCore) (i : Nat) (v : W32) : SigCore :=
  if i = 0 then x else { x with sreg := tset 0 x.sreg i v }
def pReg (x : SigCore) (i : Nat) : Nat := (tget 0 x.p i).toNat
def setP (x : SigCore) (i : Nat) (v : Int) : SigCore :=
  { x with p := tset 0 x.p i (BitVec.ofInt 19 v) }

/-- Lane i of a vector. -/
def lane (v : V512) (i : Nat) : W32 := v.extractLsb' (32 * i) 32
/-- A vector from its 16 lanes. -/
def ofLanes (f : Nat → W32) : V512 :=
  BitVec.ofNat 512 ((List.range 16).foldr (fun i a => a * 2 ^ 32 + (f i).toNat) 0)
/-- Real part: the lower half; imaginary part: the upper half. -/
def reI (w : W32) : Int := (w.extractLsb' 0 16).toInt
def imI (w : W32) : Int := (w.extractLsb' 16 16).toInt
def cpx (re im : Int) : W32 := (BitVec.ofInt 16 im ++ BitVec.ofInt 16 re : BitVec 32)
/-- FP16 parts (R73). -/
def reF (w : W32) : Val := decodeElem 0x08 (fld w 15 0)
def imF (w : W32) : Val := decodeElem 0x08 (fld w 31 16)
def cpxCode (re im : Nat) : W32 := pack 32 [(16, im % 2 ^ 16), (0, re % 2 ^ 16)]

/-- Byte j of a vector. -/
def vByte (v : V512) (j : Nat) : Byte := v.extractLsb' (8 * j) 8
/-- A vector from its 64 bytes. -/
def ofBytes (bs : List Byte) : V512 := BitVec.ofNat 512 (leNat (bs.take 64))
def vBytes (v : V512) : List Byte := leBytes 64 v.toNat
/-- int16 value i of the 32 in a vector. -/
def vHalf (v : V512) (i : Nat) : Int := (v.extractLsb' (16 * i) 16).toInt

/-- Saturation to a two's complement range, and whether it took place. -/
def satTo (bits : Nat) (v : Int) : Int × Bool :=
  let top : Int := 2 ^ (bits - 1) - 1
  let bottom : Int := -(2 ^ (bits - 1))
  if v > top then (top, true) else if v < bottom then (bottom, true) else (v, false)
def sat16 (v : Int) : Int := (satTo 16 v).1
/-- INT8 LLRs saturate to ±127. -/
def sat127 (v : Int) : Int := if v > 127 then 127 else if v < -127 then -127 else v

/-- Right shift with half-up rounding (R278). -/
def shiftHalfUp (v : Int) (sh : Nat) : Int :=
  if sh = 0 then v else (v + 2 ^ (sh - 1)) / (2 ^ sh : Nat)

/-- A value rounded half-up into FP16, beyond the range to ±largest finite (R279): the code, and whether it
overflowed. -/
def toF16 (v : Val) : Nat × Bool :=
  let r := roundTo 0x08 { mode := 1, inf := false } v
  (r.1, decide (r.2.overflows > 0))

/-! ### Products and accumulators (R277, R279) -/

/-- Parts of the exact complex product a × b; CONJ negates b.im first, NEG the parts. -/
def cmulI (a b : W32) (conj neg : Bool) : Int × Int :=
  let bi := if conj then -(imI b) else imI b
  let re := reI a * reI b - imI a * bi
  let im := reI a * bi + imI a * reI b
  if neg then (-re, -im) else (re, im)

/-- The two exact products of each part. -/
def cmulF (a b : W32) (conj neg : Bool) : (Val × Val) × (Val × Val) :=
  let bi := if conj then (imF b).negate else imF b
  let t (v : Val) : Val := if neg then v.negate else v
  ((t (mulV (reF a) (reF b)), t (mulV (imF a) bi).negate),
   (t (mulV (reF a) bi), t (mulV (imF a) (reF b))))

/-- Lane i of an accumulator: 40-bit parts, or FP32 parts in the low 64 bits. R269 does not say which half holds the real
part: the low one (DESIGN CHOICE, notes/assumptions/30.md). -/
def accLane (a : BitVec 1280) (i : Nat) : BitVec 80 := a.extractLsb' (80 * i) 80
def accI (w : BitVec 80) : Int × Int := ((w.extractLsb' 0 40).toInt, (w.extractLsb' 40 40).toInt)
def accF (w : BitVec 80) : Val × Val := (f32 (fld w 31 0), f32 (fld w 63 32))
/-- An accumulator from its 16 lanes. -/
def ofAccLanes (f : Nat → BitVec 80) : BitVec 1280 :=
  BitVec.ofNat 1280 ((List.range 16).foldr (fun i a => a * 2 ^ 80 + (f i).toNat) 0)

/-- One accumulator lane with a product added: the lane, and whether a part saturated. -/
def macI (w : BitVec 80) (p : Int × Int) : BitVec 80 × Bool :=
  let re := satTo 40 ((accI w).1 + p.1)
  let im := satTo 40 ((accI w).2 + p.2)
  ((BitVec.ofInt 40 im.1 ++ BitVec.ofInt 40 re.1 : BitVec 80), re.2 || im.2)

/-- The FP16 form: each part with its two exact products, rounded once to FP32 half-up. -/
def macF (w : BitVec 80) (p : (Val × Val) × (Val × Val)) : BitVec 80 :=
  let r (a : Val) (t : Val × Val) : Nat :=
    (roundFloat fp32Fmt { mode := 1, inf := false } (addV (addV a t.1) t.2)).1
  pack 80 [(0, r (accF w).1 p.1), (32, r (accF w).2 p.2)]

/-- Every lane of an accumulator with a product of lanes added (R277, R279). -/
def macAll (x : SigCore) (acc : Nat) (fp conj neg : Bool) (a b : Nat → W32) : SigCore :=
  let old := accReg x acc
  if fp then setAcc x acc (ofAccLanes fun i => macF (accLane old i) (cmulF (a i) (b i) conj neg))
  else
    let r (i : Nat) := macI (accLane old i) (cmulI (a i) (b i) conj neg)
    { setAcc x acc (ofAccLanes fun i => (r i).1) with
      accSat := x.accSat || (List.range 16).any fun i => (r i).2 }

/-- VEXT of one lane (R278, R279): the lane, and whether a part saturated. -/
def extractLane (w : BitVec 80) (sh : Nat) (fp : Bool) : W32 × Bool :=
  if fp then
    let re := toF16 (accF w).1
    let im := toF16 (accF w).2
    (cpxCode re.1 im.1, re.2 || im.2)
  else
    let re := satTo 16 (shiftHalfUp (accI w).1 sh)
    let im := satTo 16 (shiftHalfUp (accI w).2 sh)
    (cpx re.1 im.1, re.2 || im.2)

/-! ### Encodings (R280, R282) -/

/-- An instruction word from its opcode and its fields (lowest bit, width, value); none: a value does not fit
its field, and no word stands for the instruction. -/
def encodeFields (op : Nat) (fs : List (Nat × Nat × Nat)) : Option W32 :=
  if fs.all fun f => f.2.2 < 2 ^ f.2.1 then
    some (pack 32 ((26, op) :: fs.map fun f => (f.1, f.2.2)))
  else none

/-- Layout of VADD and its like: VD, VA, VB, FP. -/
def encVvv (op vd va vb : Nat) (fp : Bool) : Option W32 :=
  encodeFields op [(21, 5, vd), (16, 5, va), (11, 5, vb), (10, 1, b2n fp)]
/-- Layout of VLD and its like: V or S, P, POSTINC, IMM. -/
def encMem (op r p : Nat) (postinc : Bool) (imm : BitVec 16) : Option W32 :=
  encodeFields op [(21, 5, r), (18, 3, p), (17, 1, b2n postinc), (0, 16, imm.toNat)]
/-- Layout of VLD2 and VST2. -/
def encMem2 (op v pa pb : Nat) (postinc : Bool) (imm : BitVec 14) : Option W32 :=
  encodeFields op [(21, 5, v), (18, 3, pa), (15, 3, pb), (14, 1, b2n postinc), (0, 14, imm.toNat)]

/-- Opcode of a word. -/
def opOf (w : W32) : Nat := fld w 31 26

/-- RSVD bits of each native opcode as one mask; none: a reserved opcode (R280, R282). -/
def rsvdMask (op : Nat) : Option Nat :=
  match op with
  | 0x01 => some 0x3FF | 0x02 => some 0x3FF | 0x03 => some 0x3FF | 0x04 => some 0xFBFF
  | 0x05 => some 0xFFFF | 0x06 => some 0x3FF | 0x07 => some 0x3FF | 0x08 => some 0x3F
  | 0x09 => some 0x7FF | 0x0A => some 0x3FF | 0x0B => some 0xFFFF | 0x0C => some 0x7F
  | 0x0D => some 0x1FFF | 0x0E => some 0x7F | 0x0F => some 0x7FF
  | 0x10 => some 0x38000FF | 0x11 => some 0x380001F | 0x12 => some 0x1C00FF
  | 0x18 => some 0x7FF | 0x19 => some 0x7FF | 0x1A => some 0 | 0x1B => some 0x1FFFF
  | 0x1C => some 0x7F | 0x1D => some 0xFFE000 | 0x1E => some 0x1FFF
  | 0x20 => some 0x10000 | 0x21 => some 0x10000 | 0x22 => some 0x10000 | 0x23 => some 0x10000
  | 0x24 => some 0 | 0x25 => some 0 | 0x30 => some 0xF83F | 0x31 => some 0x3E307FF
  | 0x32 => some 0x1FF83F | 0x3F => some 0x3FFFFFF
  | _ => none

/-- An operand that the tables mark as constrained does not hold (R280–R282). -/
def constrained (w : W32) : Bool :=
  match opOf w with
  | 0x11 => fld w 16 16 != 0
  | 0x12 => fld w 15 10 > 39 || (bitOf w 8 && fld w 15 10 != 0)
  | 0x24 => fld w 21 21 != 0
  | 0x25 => fld w 21 21 != 0
  | 0x0B => fld w 16 16 != 0
  | 0x0C => fld w 15 13 > 5
  | 0x0D => fld w 15 13 > 5
  | 0x1E => fld w 25 23 > 5
  | _ => false

/-- The opcodes that compatibility mode decodes as native (R276). -/
def compatNative (op : Nat) : Bool := op == 0x30 || op == 0x31 || op == 0x32 || op == 0x3F

/-- A word whose execution is an illegal-instruction fault in a mode (R276, R280, R282). In compatibility mode
the other words are FL5 instructions. -/
def illegalWord (mode : Bool) (w : W32) : Bool :=
  if mode && !compatNative (opOf w) then false
  else match rsvdMask (opOf w) with
    | none => true
    | some m => w.toNat &&& m != 0 || constrained w

/-! ### Paired operation (R294) -/

/-- A line or a descriptor that has passed the comparison of a pair, or of a core that works alone (R294). -/
def releaseOne (s : State) (k : Nat) : Release → State
  | .line off bs => physWrite s (localKey k off) bs
  | .desc q d => pushDesc s k q d

/-- Lines and descriptors of a pair compared in their order and released; a difference aborts both copies, with a strike
(R291, R294). `fuel` counts them. -/
def releasePair (k p : Nat) : Nat → State → State
  | 0, s => s
  | fuel + 1, s =>
    match (sigCore s k).outbox, (sigCore s p).outbox with
    | a :: as, b :: bs =>
      if a == b then
        let s := modSigCore s k fun x => { x with outbox := as }
        releasePair k p fuel (releaseOne (modSigCore s p fun x => { x with outbox := bs }) k a)
      else abortTask (strike s (32 + k) 3 0xFFFF 0 0 true) k true
    | _, _ => s

/-! ### Local memory (R271, R272) -/

/-- What an access meets. -/
inductive MemBar where
  /-- The line lies outside local memory or is not aligned (R272). -/
  | fault
  /-- An uncorrectable word at this offset (R293). -/
  | ecc (offset : Nat)
  deriving DecidableEq, Repr

/-- Device address of a byte of a core's local memory (R27). -/
def localAddr (k off : Nat) : Nat := 0x021000000000 + k * 0x80000 + off

/-- The range of an access, if it is one aligned line, or lies within one line. -/
def memRange (addr : Int) (n : Nat) : Option Nat :=
  if addr < 0 || addr + n > 524288 || addr.toNat % 64 + n > 64 then none else some addr.toNat

/-- Bytes at an offset with the lines laid over them that a core in paired operation has written and not yet released
(R294). -/
def overlaid (pending : List Release) (off : Nat) (bs : List Byte) : List Byte :=
  pending.foldl (fun bs r => match r with
    | .line o new => (bs.zip (List.range bs.length)).map fun x =>
        if o ≤ off + x.2 && off + x.2 < o + new.length then new.getD (off + x.2 - o) 0 else x.1
    | .desc _ _ => bs) bs

/-- A core in paired operation: the main core or its copy (R294). -/
def isPaired (x : SigCore) : Bool := x.partner.isSome || x.copyOf.isSome

/-- Bytes of local memory read by the core. -/
def coreRead (s : State) (k : Nat) (addr : Int) (n : Nat) : Except MemBar (List Byte) :=
  match memRange addr n with
  | none => .error .fault
  | some a =>
    let key := localKey (pairCore s k) a
    if eccHit s key n then .error (.ecc a)
    else .ok (overlaid (sigCore s k).outbox a (physRead s key n))

/-- What a pair has written and pushed is compared and released (R294). -/
def settlePair (k : Nat) (s : State) : State :=
  let m := pairCore s k
  match (sigCore s m).partner with
  | none => s
  | some p => releasePair m p (sigCore s m).outbox.length s

/-- A line or a descriptor leaves a core: at once, or in paired operation after its comparison (R294). A core whose task
has been aborted releases nothing. -/
def releaseFrom (s : State) (k : Nat) (r : Release) : State :=
  if (sigCore s k).task.isNone then s
  else if isPaired (sigCore s k) then settlePair k (modSigCore s k fun x => { x with outbox := x.outbox ++ [r] })
  else releaseOne s k r

/-- Bytes of local memory written by the core: an uncorrectable word covered in part is read (R160). -/
def coreWrite (s : State) (k : Nat) (addr : Int) (bs : List Byte) : Except MemBar State :=
  match memRange addr bs.length with
  | none => .error .fault
  | some a => if !(eccPartial s (localKey (pairCore s k) a) bs.length).isEmpty then .error (.ecc a)
    else .ok (releaseFrom s k (.line a bs))

/-! ### The course of an instruction -/

/-- What an instruction comes to. -/
inductive Retire where
  /-- It retires and the next one follows. -/
  | next (s : State) (beats : Nat)
  /-- It retires and execution continues at an instruction. -/
  | jump (s : State) (beats pc : Nat)
  /-- A QPUSH with status 1 retires without progress (R287). -/
  | full (s : State)
  /-- A WAITC waits (R287). -/
  | waits (s : State)
  /-- Its line or descriptor differs from the other copy's: the task is aborted (R294). -/
  | aborted (s : State)
  /-- TEND. -/
  | ended (s : State)
  /-- Illegal instruction or access fault (R293). -/
  | fault
  /-- Uncorrectable local memory (R293). -/
  | ecc (offset : Nat)

/-- An instruction that has written lines or pushed a descriptor retires with a change of registers, unless that aborted its
task (R291, R294). -/
def Retire.released (s : State) (k beats : Nat) (f : SigCore → SigCore) : Retire :=
  if (sigCore s k).task.isNone then .aborted s else .next (modSigCore s k f) beats

/-- A memory access that failed. -/
def Retire.ofBar : MemBar → Retire
  | .fault => .fault
  | .ecc a => .ecc a

/-- Hardware loops at an instruction (R282): every loop that ends there counts down; the innermost one with
iterations left goes back to its start. -/
def endLoops (pc : Nat) : Tbl (BitVec 16) → List LoopRun → Tbl (BitVec 16) × List LoopRun × Option Nat
  | lc, [] => (lc, [], none)
  | lc, l :: r =>
    if l.stop = pc then
      let c := tget 0 lc l.lc
      if c.toNat > 1 then (tset 0 lc l.lc (c - 1), l :: r, some l.start)
      else endLoops pc (tset 0 lc l.lc 0) r
    else (lc, l :: r, none)

/-- The next instruction in sequence. -/
def advancePc (x : SigCore) : SigCore :=
  let r := endLoops x.pc x.lc x.loops
  { x with lc := r.1, loops := r.2.1, pc := r.2.2.getD ((x.pc + 1) % 8192) }

/-- Beats of a task (R295) and a retired instruction, at which the core's timer restarts (R292). -/
def retired (x : SigCore) (beats t : Nat) : SigCore :=
  { x with beats := x.beats + w64 beats, progress := x.progress + 1, timerAt := t, waiting := none }

/-- RADIO_FW_FAULT (R394): rows 1 and 4 of R293. -/
def fwRecord (s : State) (k : Nat) : State :=
  raise s { code := 0x028, severity := 2, die := 4 + coreDie k, unit := 32 + k
            domain := unitDomain (32 + k), d0 := (sigCore s k).pc, d1 := k }

/-- A radio firmware fault (R293, R394): the task is aborted, no strike. -/
def firmwareFault (s : State) (k : Nat) : State := abortTask (fwRecord s k) k

/-- An uncorrectable word in a core's memory (R160, R293): recorded, the task is aborted. -/
def coreEcc (s : State) (k addr : Nat) : State :=
  abortTask (raise s { code := 0x006, severity := 2, die := 4 + coreDie k, unit := 32 + k
                       domain := unitDomain (32 + k), d0 := addr
                       d1 := (Config.readerKind 5).toNat }) k

/-- What the core does with the outcome of an instruction. -/
def settle (s0 : State) (k : Nat) : Retire → State
  | .next s b => modSigCore s k fun x => advancePc (retired x b (now s))
  | .jump s b pc => modSigCore s k fun x => { retired x b (now s) with pc := pc % 8192 }
  | .full s => modSigCore s k fun x => advancePc { x with beats := x.beats + 1 }
  | .waits s => s
  | .aborted s => s
  | .ended s => modSigCore s k fun x => retired x 1 (now s)
  | .fault => firmwareFault s0 k
  | .ecc a => coreEcc s0 k (localAddr (pairCore s0 k) a)

/-- SCC_CHECKS (R297): one more mismatch, or one more corrected error. -/
def countMismatch (s : State) (k : Nat) : State :=
  modSigCore s k fun x =>
    if x.mismatch < 0x7FFF then { x with mismatch := x.mismatch + 1 } else { x with checksSat := true }
def countCorrected (s : State) (k : Nat) : State :=
  modSigCore s k fun x =>
    if x.eccCorr < 0xFFFF then { x with eccCorr := x.eccCorr + 1 } else { x with checksSat := true }

/-- The instruction word at the program counter. -/
def fetched (x : SigCore) : W32 := tget 0 x.store x.pc

/-- A core executes one instruction when its task has come to that word: the checks of R291 and R293 first,
then the instruction's own effect. An instruction that the core has not come to does nothing
(notes/assumptions/30.md). -/
def coreRuns (k : Nat) (compat : Bool) (word : Option W32) (chk : CoreCheck) (s : State)
    (body : State → Retire) : State :=
  let x := sigCore s k
  if k ≥ 64 || x.task.isNone || x.tended || word != some (fetched x) || (x.mode && !compat) then s
  else match chk with
    | .ok => settle s k (body s)
    | .corrected =>
      let s := countCorrected s k
      settle s k (body s)
    | .replayPasses =>
      let s := strike (countMismatch s k) (32 + k) 3 0xFFFF 0 0 false
      settle s k (body s)
    | .replayFails => abortTask (strike (countMismatch s k) (32 + k) 3 0xFFFF 0 0 true) k true
    | .storeEcc =>
      let s := coreEcc (fwRecord s k) k (0x030000000000 + (4 + coreDie k) * 0x10000000 + 0x40000 +
        0x8000 * (k % 32) + 4 * x.pc)
      modSigCore s k fun x => { x with storeBad := true }

/-- An instruction that changes registers of its core only. -/
def regInstr (k beats : Nat) (word : Option W32) (chk : CoreCheck) (s : State)
    (f : SigCore → SigCore) : State :=
  coreRuns k false word chk s fun s => .next (modSigCore s k f) beats

/-- Beats of an int16 or an FP16 form (R280, R282). -/
def formBeats (fp : Bool) : Nat := if fp then 2 else 1

/-- A vector instruction of two operands, lane by lane. -/
def laneInstr (k vd va vb : Nat) (fp : Bool) (word : Option W32) (chk : CoreCheck) (s : State)
    (f : W32 → W32 → W32) : State :=
  regInstr k (formBeats fp) word chk s fun x =>
    setV x vd (ofLanes fun i => f (lane (vReg x va) i) (lane (vReg x vb) i))

/-- Free values as one number of up to 64 × words bits. -/
def takeFreeNat (s : State) (site : Nat) : Nat → Nat × State
  | 0 => (0, s)
  | n + 1 =>
    let (a, s) := takeFreeNat s site n
    let (w, s) := takeFree s site
    (a * 2 ^ 64 + w.toNat, s)

/-- A free vector. -/
def takeFreeV (s : State) (site : Nat) : V512 × State :=
  let (n, s) := takeFreeNat s site 8
  (BitVec.ofNat 512 n, s)

end Sys2Proof.Machine
end

