-- ==== Sys2Proof/Machine/SignalCmds.lean ====
section
/-! DEFINITION. Tasks and native instructions of the signal cores (chapter 09), slot reports at a task's
end (chapter 08): R235, R240–R242, R249, R250, R252, R268–R293, R297. -/

namespace Sys2Proof.Machine

/-! ### Slot jobs: what the lease gives, and the IQ that has come (R244, R245, R253, R305) -/

/-- The lease plan of a slot's period (R253). -/
def planOf (s : State) (frame : Nat) : Option LeasePlan :=
  (s.rad.current.toList ++ s.rad.previous.toList).find? fun p => p.period == frame % 2 ^ 32

/-- The lease plan of a slot's period gives a cell a task (R254). -/
def planServes (s : State) (j : SlotJob) (task : Nat) : Bool :=
  (planOf s j.frame).any fun p => (planTasks s p).any fun t => t.2.1 == task && t.2.2 == j.cell

/-- The UL IQ of a range of PRBs of one symbol arrived, from every receive stream (R241, R305). -/
def iqArrived (s : State) (j : SlotJob) (symbol first count : Nat) : Bool :=
  let rs := s.rad.iq.filter fun q =>
    q.cell == j.cell && q.frame == j.frame && q.slot == j.slot && q.symbol == symbol
  (List.range (typeStreams (cType (cell s j.cell).record))).all fun st =>
    (List.range count).all fun i => rs.any fun q =>
      q.stream == st && q.prb ≤ first + i && first + i < q.prb + q.iq.length / 48

/-- Symbols of a slot whose UL IQ did not all arrive, as a mask (R240, R305). -/
def missingIq (s : State) (j : SlotJob) : Nat :=
  let r := (cell s j.cell).record
  ((dirSymbols (cPattern r) j.slot 2).filter fun k =>
    !iqArrived s j k 0 (typePrbs (cType r))).foldl (fun m k => m + 2 ^ k) 0

/-- End of the slot's last UL symbol + TA4_MAX: t0 of R244, network time [ns]. -/
def t0Of (s : State) (j : SlotJob) : Nat := airTime j.frame j.slot + 500000 + cTa4 (cell s j.cell).record * 1000

/-- The plan provides the neural receiver to an allocation that asks for it; the UL symbols of an S slot take the
classical path (R234, R243). -/
def neuralDue (s : State) (j : SlotJob) (a : List W64) : Bool :=
  alType a == 2 && bitOf (wd a 2) 43 && slotKind (cPattern (cell s j.cell).record) j.slot != 1 && planServes s j 2

/-- The neural receiver's LLRs are used in place of those of U2: no pass of its cell has failed its check, its own has
passed it, and it has ended by t0 + 430 µs (R245). -/
def leaseUsed (s : State) (j : SlotJob) (a : List W64) (u : LeaseResult) : Bool :=
  neuralDue s j a && !j.fallback && u.passed && u.endNs ≤ t0Of s j + 430000

/-- The LLRs that U3 works on (R243, R245). -/
def llrsOf (s : State) (j : SlotJob) (a : List W64) (h : HarqTask) : List Byte :=
  match h.u2l with
  | some u => if leaseUsed s j a u then u.llrs else h.llrs
  | none => h.llrs

/-- SRS weights of the lease are due in a DL slot of a cell (R234, R246). -/
def weightsDue (s : State) (j : SlotJob) : Bool := j.dir == 1 && planServes s j 1

/-- 10 log10 (a / b) is at least n − 1/2 steps of 0.1 dB: 10^(2n − 1) ≤ (a / b)^200. -/
def reachesDb (n : Int) (a b : Nat) : Bool :=
  let e := 2 * n - 1
  if e < 0 then b ^ 200 ≤ a ^ 200 * 10 ^ e.natAbs else b ^ 200 * 10 ^ e.natAbs ≤ a ^ 200

/-- 10 log10 (a / b) in steps of 0.1 dB, rounded half-up and clamped (R242, R85). -/
def dbTenths (low high : Int) (a b : Nat) : Int :=
  low + ((List.range (high - low).toNat).filter fun i : Nat => reachesDb (low + i + 1) a b).length

/-- A measured ratio as its 16-bit field, 0x8000 where nothing is measured (R242). -/
def dbField (low high : Int) : Option (Nat × Nat) → Nat
  | none => 0x8000
  | some (0, 0) => 0x8000
  | some (a, b) => (dbTenths low high a b % 65536).toNat

/-! ### HARQ (R249, R250) -/

/-- Bytes of LLRs that a cell's HARQ region holds. Whether an entry's room is counted in bytes or in its 64 KiB frames is
not stated: bytes (DESIGN CHOICE, notes/assumptions/31.md). -/
def harqUsed (es : List HarqEntry) : Nat := (es.map fun e => e.llrs.length).sum

/-- The entry to evict: the oldest update, and of one slot the highest RNTI (R250). -/
def harqVictim : List HarqEntry → Option HarqEntry
  | [] => none
  | e :: r => match harqVictim r with
    | none => some e
    | some f => if f.updated < e.updated || (f.updated == e.updated && e.rnti < f.rnti) then some f
      else some e

/-- Entries evicted until the region has room for a new one. `fuel` counts entries. -/
def harqRoom (room : Nat) : Nat → List HarqEntry → List HarqEntry
  | 0, es => es
  | fuel + 1, es =>
    if harqUsed es ≤ room then es
    else match harqVictim es with
      | none => es
      | some v => harqRoom room fuel (es.filter (· != v))

/-- LLRs added position by position, saturated to ±127 (R249). -/
def addLlrs : List Byte → List Byte → List Byte
  | [], b => b
  | a, [] => a
  | a :: r, b :: q => BitVec.ofInt 8 (sat127 (a.toInt + b.toInt)) :: addLlrs r q

/-- A slot job of a die changed. -/
def modJobOf (s : State) (d id : Nat) (f : SlotJob → SlotJob) : State :=
  modRadDie s d fun x => { x with jobs := x.jobs.map fun y => if y.id == id then f y else y }

/-- The received LLRs of an allocation meet its HARQ entry (R243, R245, R249, R250). A retransmission is one whose NDI
matches the entry, or, without an entry, whose RV is not 0 (notes/assumptions/31.md). -/
def harqCombine (s : State) (d : Nat) (j : SlotJob) (h : HarqTask) : State :=
  let a := j.allocs.getD h.alloc []
  let x := cell s j.cell
  let mine (e : HarqEntry) : Bool := e.rnti == alRnti a && e.harqId == alHarq a
  let old := x.harq.find? mine
  let again := match old with
    | some e => e.ndi == alNdi a
    | none => fld (wd a 1) 29 28 != 0
  let fresh := again && (old.isNone || h.eccFails)
  let got := llrsOf s j a h
  let llrs := match old with
    | some e => if again && !h.eccFails then addLlrs e.llrs got else got
    | none => got
  let room := cHarqMib x.record * 2 ^ 20
  let rest := x.harq.filter fun e => !mine e
  let rest := harqRoom (room - llrs.length) rest.length rest
  let entry : HarqEntry :=
    { rnti := alRnti a, harqId := alHarq a, ndi := alNdi a, llrs := llrs, updated := slotNow s }
  let s := modCell s j.cell fun x => { x with
    harq := if llrs.length ≤ room then rest ++ [entry] else rest }
  modJobOf s d j.id fun y => { y with
    fresh := y.fresh ++ (if fresh then [h.alloc] else [])
    lease := y.lease ++ (if h.u2l.any (leaseUsed s j a) then [h.alloc] else []) }

/-! ### Tasks (R270) -/

/-- A core may take a task: idle, unfenced at the last slot boundary, its store in order, no suspect whose fitting run is
owed (R252, R293, R400, R412). -/
def coreReady (s : State) (k : Nat) : Bool :=
  coreIdle s k && (radDie s (coreDie k)).cores.contains k && !(sigCore s k).storeBad && !(unitSt s (32 + k)).suspect &&
    (domain s (unitDomain (32 + k))).on

/-- The partner of a core in paired operation: the lowest core of its die that is ready and not itself paired (R294;
notes/assumptions/97.md). -/
def partnerFor (s : State) (k : Nat) : Option Nat :=
  ((List.range 32).map (· + 32 * coreDie k)).find? fun p =>
    p != k && coreReady s p && (unitSt s (32 + p)).hold == 0

/-- A core begins a task (R270): registers, accumulators and flags start at 0; S1 to S4 and the program counter are the
task's. -/
def beginTask (s : State) (k : Nat) (t : Task) (s2 s3 : W32) (partner copyOf : Option Nat) : State :=
  modSigCore s k fun x =>
    let x := { x with
      v := [], acc := [], sreg := [], p := [], lc := [], loops := [], accSat := false, extSat := false, cmp := false
      mode := t.mode, pc := t.entry, waiting := none, task := some t, timerAt := now s, partner := partner, copyOf := copyOf
      outbox := [], tended := false }
    setS (setS (setS (setS x 1 t.s1) 2 s2) 3 s3) 4 t.s4

/-- The rerun that a task on a core would be: of a task that a failed replay aborted on another core (R291). -/
def rerunOf (s : State) (k : Nat) (t : Task) : Option (Nat × Task) :=
  (radDie s (coreDie k)).reruns.find? fun r =>
    r.1 != k && r.2.entry == t.entry && r.2.mode == t.mode && r.2.s1 == t.s1 && r.2.job == t.job

/-- TASK_START (R270, R249, R250, R291): S2 and S3 name the cell and slot of its slot job. A core in paired operation takes
a task only with a partner, which runs the task too (R294). A rerun finds its HARQ combining done. -/
def execTaskStart (k entry : Nat) (mode : Bool) (s1 s2 s3 s4 : W32) (seqs slotJob : Nat)
    (work : TaskWork) (s : State) : Host.Outcome State Fault Refusal :=
  .next <|
    let held := (unitSt s (32 + k)).hold != 0
    if k ≥ 64 || entry ≥ 8192 || !coreReady s k || (held && (partnerFor s k).isNone) then s
    else
      let d := coreDie k
      let j := (radDie s d).jobs.find? (·.id == slotJob)
      let s2 := (j.map fun j => BitVec.ofNat 32 j.cell).getD s2
      let s3 := (j.map fun j => BitVec.ofNat 32 (sfnOf s j.frame * 32 + j.slot)).getD s3
      let t : Task := { entry := entry, mode := mode, s1 := s1, s2 := s2, s3 := s3, s4 := s4, seqs := seqs, job := slotJob
                        allocs := work.allocs ++ (work.harq.map (·.alloc)).toList, slot := slotNow s }
      let partner := if held then partnerFor s k else none
      let s := beginTask s k t s2 s3 partner none
      let s := partner.elim s fun p => beginTask s p t s2 s3 none (some k)
      match rerunOf s k t, j, work.harq with
      | some r, _, _ => modRadDie s d fun x => { x with reruns := x.reruns.erase r }
      | none, some j, some h => if j.dir = 2 then harqCombine s d j h else s
      | _, _, _ => s

/-- What a unit has recorded for a slot job under a queue and a PLAN_SEQ. -/
def unitRec (j : SlotJob) (queue seq : Nat) : Option UnitRec := j.units.find? fun u => u.queue == queue && u.seq == seq

/-- Code blocks of an allocation that no decoder has decoded: their descriptors failed, or were never served (R287). -/
def blocksLost (j : SlotJob) (r : AllocResult) : Nat :=
  (r.blocks.filter fun b => (unitRec j b.1 b.2).isNone).length

/-- CRC_OK of an allocation (R241): radio firmware's finding; 0 where a task of it was aborted or a block is lost (R287,
R291), and after an uncorrectable error in the ingress buffer (R267). -/
def allocOk (j : SlotJob) (i : Nat) (r : AllocResult) : Bool :=
  r.crcOk && !r.iqBad && !j.failed.contains i && blocksLost j r == 0

/-- An entry of a slot report (R241, R242): EVM and SINR as the equaliser pipeline has written them, iterations as the
decoders have. An uncorrectable error in the ingress buffer leaves no data (R267). -/
def reportEntry (s : State) (j : SlotJob) (i : Nat) (a : List W64) (r : AllocResult) : List W64 :=
  let t := alType a
  let m := (r.measured.bind (unitRec j 0)).getD { queue := 0, seq := 0 }
  let evm := if t = 5 || (t = 4 && alCtrl a ≤ 1) then 0x8000 else m.evm
  let most := (r.blocks.filterMap fun b => (unitRec j b.1 b.2).map (·.iterations)).foldl Nat.max 0
  let lost := (dirSymbols (cPattern (cell s j.cell).record) j.slot 2).any fun k =>
    alSym a ≤ k && k < alSym a + alSyms a && !iqArrived s j k (alPrb a) (alPrbs a)
  let late := networkTime s > (t0Of s j + 1500000) * 2 ^ 32
  [pack 64 [(32, fld (wd a 3) 63 32), (16, alRnti a), (0, evm)],
   pack 64 [(48, m.sinr), (43, Nat.min 31 most), (31, Nat.min 4095 r.blocks.length),
     (19, Nat.min 4095 (r.blocksFailed + blocksLost j r)), (18, b2n (allocOk j i r)), (17, b2n (j.lease.contains i)),
     (16, b2n (j.fresh.contains i)), (15, b2n late), (14, b2n (lost || r.iqBad))],
   pack 64 [(32, r.dataBytes % 2 ^ 32)], 0]

/-- The symbols of an allocation of a slot job as a mask. -/
def allocSymbols (j : SlotJob) (i : Nat) : Nat :=
  let a := j.allocs.getD i []
  ((List.range 14).filter fun k => alSym a ≤ k && k < alSym a + alSyms a).foldl (fun m k => m + 2 ^ k) 0

/-- Reruns that a slot job still waits for when it completes found no room: their allocations fail (R291). -/
def endReruns (s : State) (d : Nat) (j : SlotJob) : State × SlotJob :=
  let owed := (radDie s d).reruns.filter fun r => r.2.job == j.id
  (modRadDie s d fun x => { x with reruns := x.reruns.filter fun r => r.2.job != j.id },
   { j with failed := j.failed ++ owed.flatMap (·.2.allocs) })

/-- A slot job completes (R235, R240, R249): its report, SLOTS, the HARQ entries whose block passed, its IQ. -/
def completeSlot (s : State) (d : Nat) (j : SlotJob) (r : SlotDone) : State :=
  let (s, j) := endReruns s d j
  let missing := if j.dir = 2 then missingIq s j
    else j.failed.foldl (fun m i => m ||| allocSymbols j i) (j.missed ||| r.missed) % 2 ^ 14
  let result (i : Nat) : AllocResult := r.results.getD i { crcOk := false }
  let indexed := (List.range j.allocs.length).zip j.allocs
  let es := (indexed.filter fun e => hasEntry e.2).map fun e =>
    reportEntry s j e.1 e.2 (result e.1)
  let used := (indexed.any fun e => j.lease.contains e.1) || (weightsDue s j && r.weights)
  let discarded := (indexed.any fun e => neuralDue s j e.2 && !j.lease.contains e.1) ||
    (weightsDue s j && !r.weights) || j.fallback
  let head := reportHead s d j.header es.length 0 missing j.tasksLate used discarded
  let passed := (indexed.filter fun e => alType e.2 == 2 && allocOk j e.1 (result e.1)).map (·.2)
  let s := modCell s j.cell fun x => { x with
    slots := tmod 0 x.slots d fun n => n + 1
    harq := if j.dir = 2 then x.harq.filter fun h =>
      !(passed.any fun a => alRnti a == h.rnti && alHarq a == h.harqId) else x.harq }
  let s := { s with rad := { s.rad with iq := s.rad.iq.filter fun q =>
    !(j.dir == 2 && q.cell == j.cell && q.frame == j.frame && q.slot == j.slot) } }
  let s := modRadDie s d fun x => { x with
    jobs := x.jobs.filter fun y => y.id != j.id, fallback := false }
  putReport s d (head ++ es.flatten)

/-- A late radio task counts in its slot job (R240, R252). -/
def lateTask (s : State) (d id : Nat) : State :=
  modRadDie s d fun x => { x with jobs := x.jobs.map fun j =>
    if j.id == id then { j with tasksLate := j.tasksLate + 1 } else j }

/-- A task has run to its end on a core (R270). -/
def taskOver (s : State) (k : Nat) : State :=
  taskBoundary (modSigCore s k fun x => { x with
    task := none, tasks := x.tasks + 1, loops := [], partner := none, copyOf := none, tended := false })
    (unitDomain (32 + k))

/-- The end of a task on its core, and in paired operation on its copy's too (R57, R252, R270, R294): a late one counts,
and the last task of a slot job writes its report. -/
def endTask (s : State) (k : Nat) (late : Bool) (done : Option SlotDone) : State :=
  let d := coreDie k
  let n := unitDomain (32 + k)
  let id := ((sigCore s k).task.map (·.job)).getD 0
  let s := noteActive s { domain := n, radio := true, beats := 1 }
  let s := if late then lateTask (lateBeat s n) d id else s
  let s := (k :: (sigCore s k).partner.toList).foldl taskOver s
  match (radDie s d).jobs.find? (·.id == id), done with
  | some j, some r => completeSlot s d j r
  | _, _ => s

/-- TEND (R270, R252, R57, R46, R294): the task ends. A copy waits for its pair's comparison; its main core comes to its
own end when the copy has come to that point, and lines or descriptors of one without the other's are a difference. -/
def execTend (k : Nat) (late : Bool) (done : Option SlotDone) (chk : CoreCheck) (s : State) :
    Host.Outcome State Fault Refusal :=
  .next <| coreRuns k true (encodeFields 0x3F []) chk s fun s =>
    let x := sigCore s k
    if x.copyOf.isSome then .ended (modSigCore s k fun x => { x with tended := true })
    else match x.partner with
      | none => .ended (endTask s k late done)
      | some p =>
        if !(sigCore s p).tended then .waits s
        else if x.outbox.isEmpty && (sigCore s p).outbox.isEmpty then .ended (endTask s k late done)
        else .aborted (abortTask (strike s (32 + k) 3 0xFFFF 0 0 true) k true)

/-! ### Multiply-accumulate (R277–R281) -/

/-- VMAC (R277, R279). -/
def execVmac (k acc va vb : Nat) (conj neg fp : Bool) (chk : CoreCheck) (s : State) :
    Host.Outcome State Fault Refusal :=
  .next <| regInstr k (formBeats fp)
    (encodeFields 0x10 [(21, 2, acc), (16, 5, va), (11, 5, vb), (10, 1, b2n conj), (9, 1, b2n neg),
      (8, 1, b2n fp)]) chk s fun x =>
    macAll x acc fp conj neg (fun i => lane (vReg x va) i) fun i => lane (vReg x vb) i

/-- TAPMOV (R281): step 1 reads the values held before the shift; an odd VW is illegal. -/
def execTapmov (k acc vw vc tap : Nat) (conj fp : Bool) (chk : CoreCheck) (s : State) :
    Host.Outcome State Fault Refusal :=
  .next <| coreRuns k false
    (encodeFields 0x11 [(21, 2, acc), (16, 5, vw), (11, 5, vc), (7, 4, tap), (6, 1, b2n conj),
      (5, 1, b2n fp)]) chk s fun s =>
    if vw % 2 = 1 then .fault
    else .next (modSigCore s k fun x =>
      let w := vReg x vw
      let w1 := vReg x (vw + 1)
      let h := lane (vReg x vc) tap
      let x := macAll x acc fp conj false (fun _ => h) fun i => lane w i
      let x := setV x vw (ofLanes fun i => if i = 0 then lane w1 15 else lane w (i - 1))
      setV x (vw + 1) (ofLanes fun i => if i = 0 then 0 else lane w1 (i - 1))) (formBeats fp)

/-- VEXT (R278, R279): SH above 39, or other than 0 with FP, is illegal. -/
def execVext (k vd acc sh : Nat) (clr fp : Bool) (chk : CoreCheck) (s : State) :
    Host.Outcome State Fault Refusal :=
  .next <| coreRuns k false
    (encodeFields 0x12 [(21, 5, vd), (16, 2, acc), (10, 6, sh), (9, 1, b2n clr), (8, 1, b2n fp)]) chk s
    fun s =>
      if sh > 39 || (fp && sh != 0) then .fault
      else .next (modSigCore s k fun x =>
        let r (i : Nat) := extractLane (accLane (accReg x acc) i) sh fp
        let x := { setV x vd (ofLanes fun i => (r i).1) with
          extSat := x.extSat || (List.range 16).any fun i => (r i).2 }
        if clr then setAcc x acc 0 else x) (formBeats fp)

/-! ### Loads and stores (R280, R282) -/

/-- P + unit × IMM. -/
def coreAddr (x : SigCore) (p : Nat) (unit : Int) (imm : Int) : Int := (pReg x p : Int) + unit * imm

/-- POSTINC: the pointer takes the address. -/
def postInc (on : Bool) (p : Nat) (addr : Int) (x : SigCore) : SigCore := if on then setP x p addr else x

/-- The address of a vector access is a whole line (R272). -/
def lineAddr (a : Int) : Bool := a % 64 == 0

/-- VLD. -/
def execVld (k vd p : Nat) (postinc : Bool) (imm : BitVec 16) (chk : CoreCheck) (s : State) :
    Host.Outcome State Fault Refusal :=
  .next <| coreRuns k false (encMem 0x20 vd p postinc imm) chk s fun s =>
    let a := coreAddr (sigCore s k) p 64 imm.toInt
    if !lineAddr a then .fault
    else match coreRead s k a 64 with
      | .error b => .ofBar b
      | .ok bs => .next (modSigCore s k fun x => postInc postinc p a (setV x vd (ofBytes bs))) 1

/-- VST. -/
def execVst (k vs p : Nat) (postinc : Bool) (imm : BitVec 16) (chk : CoreCheck) (s : State) :
    Host.Outcome State Fault Refusal :=
  .next <| coreRuns k false (encMem 0x21 vs p postinc imm) chk s fun s =>
    let a := coreAddr (sigCore s k) p 64 imm.toInt
    if !lineAddr a then .fault
    else match coreWrite s k a (vBytes (vReg (sigCore s k) vs)) with
      | .error b => .ofBar b
      | .ok s => .released s k 1 (postInc postinc p a)

/-- POSTINC of two pointers. One and the same pointer gets two additions in an order and number the spec
does not state: a free value (notes/assumptions/32.md). -/
def postInc2 (s : State) (k : Nat) (on : Bool) (pa pb : Nat) (a b : Int) : State :=
  if !on then s
  else if pa = pb then
    let (f, s) := takeFree s 40
    modSigCore s k fun x => setP x pa f.toNat
  else modSigCore s k fun x => setP (setP x pa a) pb b

/-- VLD2: an odd VD is illegal. -/
def execVld2 (k vd pa pb : Nat) (postinc : Bool) (imm : BitVec 14) (chk : CoreCheck) (s : State) :
    Host.Outcome State Fault Refusal :=
  .next <| coreRuns k false (encMem2 0x24 vd pa pb postinc imm) chk s fun s =>
    let a := coreAddr (sigCore s k) pa 64 imm.toInt
    let b := coreAddr (sigCore s k) pb 64 imm.toInt
    if vd % 2 = 1 || !lineAddr a || !lineAddr b then .fault
    else match coreRead s k a 64, coreRead s k b 64 with
      | .ok x, .ok y => .next (postInc2 (modSigCore s k fun c =>
          setV (setV c vd (ofBytes x)) (vd + 1) (ofBytes y)) k postinc pa pb a b) 1
      | .error e, _ => .ofBar e
      | _, .error e => .ofBar e

/-- VST2: an odd VS is illegal; both lines are checked before either is written. Two stores to one line leave
free bytes there. -/
def execVst2 (k vs pa pb : Nat) (postinc : Bool) (imm : BitVec 14) (chk : CoreCheck) (s : State) :
    Host.Outcome State Fault Refusal :=
  .next <| coreRuns k false (encMem2 0x25 vs pa pb postinc imm) chk s fun s =>
    let a := coreAddr (sigCore s k) pa 64 imm.toInt
    let b := coreAddr (sigCore s k) pb 64 imm.toInt
    if vs % 2 = 1 || !lineAddr a || !lineAddr b then .fault
    else
      let x := sigCore s k
      let (f, s) := if a = b then takeFreeV s 41 else (vReg x (vs + 1), s)
      match coreWrite s k a (vBytes (vReg x vs)) with
      | .error e => .ofBar e
      | .ok s1 => match coreWrite s1 k b (vBytes f) with
        | .error e => .ofBar e
        | .ok s2 => .released (if (sigCore s2 k).task.isNone then s2 else postInc2 s2 k postinc pa pb a b) k 1 id

/-- VLDS: the 32-bit word at P + 4 × IMM, within its line. -/
def execVlds (k sd p : Nat) (postinc : Bool) (imm : BitVec 16) (chk : CoreCheck) (s : State) :
    Host.Outcome State Fault Refusal :=
  .next <| coreRuns k false (encMem 0x22 sd p postinc imm) chk s fun s =>
    let a := coreAddr (sigCore s k) p 4 imm.toInt
    match coreRead s k a 4 with
    | .error b => .ofBar b
    | .ok bs => .next (modSigCore s k fun x =>
        postInc postinc p a (setS x sd (BitVec.ofNat 32 (leNat bs)))) 1

/-- VSTS. -/
def execVsts (k ss p : Nat) (postinc : Bool) (imm : BitVec 16) (chk : CoreCheck) (s : State) :
    Host.Outcome State Fault Refusal :=
  .next <| coreRuns k false (encMem 0x23 ss p postinc imm) chk s fun s =>
    let a := coreAddr (sigCore s k) p 4 imm.toInt
    match coreWrite s k a (leBytes 4 (sReg (sigCore s k) ss).toNat) with
    | .error b => .ofBar b
    | .ok s => .released s k 1 (postInc postinc p a)

/-! ### Vector arithmetic (R282) -/

/-- VADD. -/
def execVadd (k vd va vb : Nat) (fp : Bool) (chk : CoreCheck) (s : State) :
    Host.Outcome State Fault Refusal :=
  .next <| laneInstr k vd va vb fp (encVvv 0x01 vd va vb fp) chk s fun a b =>
    if fp then cpxCode (toF16 (addV (reF a) (reF b))).1 (toF16 (addV (imF a) (imF b))).1
    else cpx (sat16 (reI a + reI b)) (sat16 (imI a + imI b))

/-- VSUB. -/
def execVsub (k vd va vb : Nat) (fp : Bool) (chk : CoreCheck) (s : State) :
    Host.Outcome State Fault Refusal :=
  .next <| laneInstr k vd va vb fp (encVvv 0x02 vd va vb fp) chk s fun a b =>
    if fp then cpxCode (toF16 (subV (reF a) (reF b))).1 (toF16 (subV (imF a) (imF b))).1
    else cpx (sat16 (reI a - reI b)) (sat16 (imI a - imI b))

/-- VMUL: the exact complex product, rounded once. -/
def execVmul (k vd va vb : Nat) (fp : Bool) (chk : CoreCheck) (s : State) :
    Host.Outcome State Fault Refusal :=
  .next <| laneInstr k vd va vb fp (encVvv 0x03 vd va vb fp) chk s fun a b =>
    if fp then
      let p := cmulF a b false false
      cpxCode (toF16 (addV p.1.1 p.1.2)).1 (toF16 (addV p.2.1 p.2.2)).1
    else
      let p := cmulI a b false false
      cpx (sat16 (shiftHalfUp p.1 15)) (sat16 (shiftHalfUp p.2 15))

/-- VCONJ. -/
def execVconj (k vd va : Nat) (fp : Bool) (chk : CoreCheck) (s : State) :
    Host.Outcome State Fault Refusal :=
  .next <| laneInstr k vd va va fp (encodeFields 0x04 [(21, 5, vd), (16, 5, va), (10, 1, b2n fp)]) chk s
    fun a _ =>
      if fp then cpxCode (toF16 (reF a)).1 (toF16 (imF a).negate).1
      else cpx (reI a) (sat16 (-(imI a)))

/-- VPOW. -/
def execVpow (k vd va : Nat) (chk : CoreCheck) (s : State) : Host.Outcome State Fault Refusal :=
  .next <| laneInstr k vd va va false (encodeFields 0x05 [(21, 5, vd), (16, 5, va)]) chk s fun a _ =>
    BitVec.ofInt 32 (reI a * reI a + imI a * imI a)

/-- VMAX. -/
def execVmax (k vd va vb : Nat) (fp : Bool) (chk : CoreCheck) (s : State) :
    Host.Outcome State Fault Refusal :=
  .next <| laneInstr k vd va vb fp (encVvv 0x06 vd va vb fp) chk s fun a b =>
    if fp then cpxCode (toF16 (maxV (reF a) (reF b))).1 (toF16 (maxV (imF a) (imF b))).1
    else cpx (max (reI a) (reI b)) (max (imI a) (imI b))

/-- VMIN. -/
def execVmin (k vd va vb : Nat) (fp : Bool) (chk : CoreCheck) (s : State) :
    Host.Outcome State Fault Refusal :=
  .next <| laneInstr k vd va vb fp (encVvv 0x07 vd va vb fp) chk s fun a b =>
    if fp then cpxCode (toF16 (minV (reF a) (reF b))).1 (toF16 (minV (imF a) (imF b))).1
    else cpx (min (reI a) (reI b)) (min (imI a) (imI b))

/-- VSEL. -/
def execVsel (k vd va vb sm : Nat) (chk : CoreCheck) (s : State) : Host.Outcome State Fault Refusal :=
  .next <| regInstr k 1
    (encodeFields 0x08 [(21, 5, vd), (16, 5, va), (11, 5, vb), (6, 5, sm)]) chk s fun x =>
      setV x vd (ofLanes fun i =>
        if bitOf (sReg x sm) i then lane (vReg x va) i else lane (vReg x vb) i)

/-- VPERM. -/
def execVperm (k vd va vi : Nat) (chk : CoreCheck) (s : State) : Host.Outcome State Fault Refusal :=
  .next <| regInstr k 1 (encodeFields 0x09 [(21, 5, vd), (16, 5, va), (11, 5, vi)]) chk s fun x =>
    setV x vd (ofLanes fun i => lane (vReg x va) (fld (lane (vReg x vi) i) 3 0))

/-- VSCR: the sign of an LLR of −128 has no inverse in INT8; that byte is free
(notes/assumptions/32.md). -/
def execVscr (k vd va vs : Nat) (mode : Bool) (chk : CoreCheck) (s : State) :
    Host.Outcome State Fault Refusal :=
  .next <| coreRuns k false
    (encodeFields 0x0A [(21, 5, vd), (16, 5, va), (11, 5, vs), (10, 1, b2n mode)]) chk s fun s =>
      let x := sigCore s k
      let a := vReg x va
      let q := vReg x vs
      if mode then .next (modSigCore s k fun x => setV x vd (a ^^^ q)) 1
      else
        let odd := (List.range 64).any fun j => bitOf q j && vByte a j == 0x80
        let (f, s) := if odd then takeFreeV s 42 else (0, s)
        .next (modSigCore s k fun x => setV x vd (ofBytes ((List.range 64).map fun j =>
          if !bitOf q j then vByte a j else if vByte a j == 0x80 then vByte f j else -(vByte a j)))) 1

/-! ### Coding helpers (R282) -/

/-- One step of the Gold sequence generators (TS 38.211 5.2.1, PRESUMED, notes/assumptions/24.md): bit 0 of
each 31-bit state is the present bit. -/
def goldStep (g : Nat × Nat) : Nat × Nat :=
  let bit (w i : Nat) : Nat := w / 2 ^ i % 2
  (g.1 / 2 + (bit g.1 3 + bit g.1 0) % 2 * 2 ^ 30,
   g.2 / 2 + (bit g.2 3 + bit g.2 2 + bit g.2 1 + bit g.2 0) % 2 * 2 ^ 30)

/-- The next n bits, the first in bit 0, and the states after them. -/
def goldBits : Nat → Nat × Nat → Nat × (Nat × Nat)
  | 0, g => (0, g)
  | n + 1, g =>
    let r := goldBits n (goldStep g)
    ((g.1 % 2 + g.2 % 2) % 2 + 2 * r.1, r.2)

/-- The 512 bits of VGOLD. -/
def goldVector (g : Nat × Nat) : Nat × (Nat × Nat) := goldBits 512 g

/-- Bits [30:0] of lane 0 replaced. -/
def putState (v : V512) (st : Nat) : V512 := BitVec.ofNat 512 (v.toNat / 2 ^ 31 * 2 ^ 31 + st)

/-- VGOLD: an odd VG is illegal; where VD is one of the state registers, both hold a free value. -/
def execVgold (k vd vg : Nat) (chk : CoreCheck) (s : State) : Host.Outcome State Fault Refusal :=
  .next <| coreRuns k false (encodeFields 0x0B [(21, 5, vd), (16, 5, vg)]) chk s fun s =>
    if vg % 2 = 1 then .fault
    else
      let x := sigCore s k
      let r := goldVector ((vReg x vg).toNat % 2 ^ 31, (vReg x (vg + 1)).toNat % 2 ^ 31)
      let s := modSigCore s k fun x =>
        setV (setV x vg (putState (vReg x vg) r.2.1)) (vg + 1) (putState (vReg x (vg + 1)) r.2.2)
      if vd = vg || vd = vg + 1 then
        let (f, s) := takeFreeV s 43
        .next (modSigCore s k fun x => setV x vd f) 1
      else .next (modSigCore s k fun x => setV x vd (BitVec.ofNat 512 r.1)) 1

/-- Width and polynomial of the CRCs of TS 38.212 5.1 (PRESUMED, notes/assumptions/24.md): 24A, 24B, 24C,
16, 11, 6. -/
def crcPoly : Nat → Nat × Nat
  | 0 => (24, 0x864CFB) | 1 => (24, 0x800063) | 2 => (24, 0xB2B117) | 3 => (16, 0x1021)
  | 4 => (11, 0x621) | _ => (6, 0x21)

/-- One bit into a CRC of a width. -/
def crcPolyBit (w poly st bit : Nat) : Nat :=
  let t := st * 2 % 2 ^ w
  if (st / 2 ^ (w - 1) + bit) % 2 = 1 then t ^^^ poly else t

/-- Bytes into a CRC, the most significant bit of each first. -/
def crcRun (w poly st : Nat) (bs : List Byte) : Nat :=
  bs.foldl (fun st b => ((List.range 8).reverse).foldl
    (fun st i => crcPolyBit w poly st (b.toNat / 2 ^ i % 2)) st) st

/-- VCRC: POLY 6 and 7 are illegal. LEN − 1 is the field. -/
def execVcrc (k sc va poly len : Nat) (chk : CoreCheck) (s : State) :
    Host.Outcome State Fault Refusal :=
  .next <| coreRuns k false
    (if len = 0 then none else
      encodeFields 0x0C [(21, 5, sc), (16, 5, va), (13, 3, poly), (7, 6, len - 1)]) chk s fun s =>
      if poly > 5 then .fault
      else .next (modSigCore s k fun x =>
        let c := crcPoly poly
        setS x sc (BitVec.ofNat 32 (crcRun c.1 c.2 ((sReg x sc).toNat % 2 ^ c.1)
          ((vBytes (vReg x va)).take len)))) 1

/-- Bits of a constellation point and its normalisation (TS 38.211 5.1, PRESUMED,
notes/assumptions/24.md). -/
def qamBits : Nat → Nat
  | 0 => 1 | 1 => 2 | 2 => 4 | 3 => 6 | 4 => 8 | _ => 10
def qamNorm : Nat → Nat
  | 0 => 2 | 1 => 2 | 2 => 10 | 3 => 42 | 4 => 170 | _ => 682

/-- Amplitude of one part from its bits, outermost first. -/
def qamPart : List Nat → Int
  | [] => 1
  | [b] => 1 - 2 * b
  | b :: r => (1 - 2 * (b : Int)) * (2 ^ r.length - qamPart r)

/-- An amplitude over √norm in Q15, rounded half-up. -/
def qamQ15 (norm : Nat) (a : Int) : Int :=
  let n : Int := ((Nat.sqrt (4 * a.natAbs * a.natAbs * 2 ^ 30 / norm) + 1) / 2 : Nat)
  if a < 0 then -n else n

/-- Point i of a stream of bits. -/
def qamPoint (qm i : Nat) (bits : Nat) : Int × Int :=
  let n := qamBits qm
  let b (j : Nat) : Nat := bits / 2 ^ (n * i + j) % 2
  if qm = 0 then
    let v := 1 - 2 * (b 0 : Int)
    (qamQ15 2 (if i % 2 = 0 then v else -v), qamQ15 2 v)
  else
    let part (o : Nat) : Int := qamPart ((List.range (n / 2)).map fun j => b (2 * j + o))
    (qamQ15 (qamNorm qm) (part 0), qamQ15 (qamNorm qm) (part 1))

/-- A value fits Q15. -/
def inQ15 (v : Int) : Bool := -32768 ≤ v && v ≤ 32767

/-- VQAM: QM 6 and 7 are illegal; a part beyond Q15 is free (notes/assumptions/32.md). -/
def execVqam (k vd va qm : Nat) (chk : CoreCheck) (s : State) : Host.Outcome State Fault Refusal :=
  .next <| coreRuns k false (encodeFields 0x0D [(21, 5, vd), (16, 5, va), (13, 3, qm)]) chk s fun s =>
    if qm > 5 then .fault
    else
      let bits := (vReg (sigCore s k) va).toNat
      let ps := (List.range 16).map fun i => qamPoint qm i bits
      let (f, s) := if ps.all fun p => inQ15 p.1 && inQ15 p.2 then (0, s) else takeFreeV s 44
      .next (modSigCore s k fun x => setV x vd (ofLanes fun i =>
        let p := ps.getD i (0, 0)
        cpx (if inQ15 p.1 then p.1 else reI (lane f i)) (if inQ15 p.2 then p.2 else imI (lane f i)))) 1

/-- VSAT8. -/
def execVsat8 (k vd va vb sh : Nat) (chk : CoreCheck) (s : State) :
    Host.Outcome State Fault Refusal :=
  .next <| regInstr k 1 (encodeFields 0x0E [(21, 5, vd), (16, 5, va), (11, 5, vb), (7, 4, sh)]) chk s
    fun x => setV x vd (ofBytes ((List.range 64).map fun i =>
      BitVec.ofInt 8 (sat127 (shiftHalfUp
        (if i < 32 then vHalf (vReg x va) i else vHalf (vReg x vb) (i - 32)) sh))))

/-- VLLRADD. -/
def execVllradd (k vd va vb : Nat) (chk : CoreCheck) (s : State) :
    Host.Outcome State Fault Refusal :=
  .next <| regInstr k 1 (encodeFields 0x0F [(21, 5, vd), (16, 5, va), (11, 5, vb)]) chk s fun x =>
    setV x vd (ofBytes ((List.range 64).map fun i =>
      BitVec.ofInt 8 (sat127 ((vByte (vReg x va) i).toInt + (vByte (vReg x vb) i).toInt))))

/-! ### Scalars and control (R282) -/

/-- Layout of SADD and SSUB. -/
def encSss (op sd sa sb : Nat) : Option W32 :=
  encodeFields op [(21, 5, sd), (16, 5, sa), (11, 5, sb)]

/-- SADD. -/
def execSadd (k sd sa sb : Nat) (chk : CoreCheck) (s : State) : Host.Outcome State Fault Refusal :=
  .next <| regInstr k 1 (encSss 0x18 sd sa sb) chk s fun x => setS x sd (sReg x sa + sReg x sb)

/-- SSUB. -/
def execSsub (k sd sa sb : Nat) (chk : CoreCheck) (s : State) : Host.Outcome State Fault Refusal :=
  .next <| regInstr k 1 (encSss 0x19 sd sa sb) chk s fun x => setS x sd (sReg x sa - sReg x sb)

/-- SLI. -/
def execSli (k sd : Nat) (imm : BitVec 21) (chk : CoreCheck) (s : State) :
    Host.Outcome State Fault Refusal :=
  .next <| regInstr k 1 (encodeFields 0x1A [(21, 5, sd), (0, 21, imm.toNat)]) chk s fun x =>
    setS x sd (imm.signExtend 32)

/-- SMOVP. -/
def execSmovp (k sr p : Nat) (dir : Bool) (chk : CoreCheck) (s : State) :
    Host.Outcome State Fault Refusal :=
  .next <| regInstr k 1 (encodeFields 0x1B [(21, 5, sr), (18, 3, p), (17, 1, b2n dir)]) chk s fun x =>
    if dir then setS x sr (BitVec.ofNat 32 (pReg x p))
    else setP x p ((sReg x sr).toNat % 2 ^ 19 : Nat)

/-- LOOP: the count comes from bits [15:0] of SN; 0 skips the body. -/
def execLoop (k : Nat) (lc : Bool) (sn stop : Nat) (chk : CoreCheck) (s : State) :
    Host.Outcome State Fault Refusal :=
  .next <| coreRuns k false (encodeFields 0x1C [(25, 1, b2n lc), (20, 5, sn), (7, 13, stop)]) chk s
    fun s =>
      let x := sigCore s k
      let n := (sReg x sn).setWidth 16
      let l := b2n lc
      let s := modSigCore s k fun x => { x with
        lc := tset 0 x.lc l n, loops := x.loops.filter fun r => r.lc != l }
      if n = 0 then .jump s 1 (stop + 1)
      else .jump (modSigCore s k fun x => { x with
        loops := { lc := l, start := (x.pc + 1) % 8192, stop := stop } :: x.loops }) 1 (x.pc + 1)

/-- BR: COND 1 branches only when CMP differs from NEG. -/
def execBr (k : Nat) (cond neg : Bool) (target : Nat) (chk : CoreCheck) (s : State) :
    Host.Outcome State Fault Refusal :=
  .next <| coreRuns k false
    (encodeFields 0x1D [(25, 1, b2n cond), (24, 1, b2n neg), (0, 13, target)]) chk s fun s =>
      if !cond || (sigCore s k).cmp != neg then .jump s 2 target else .next s 1

/-- The comparisons of SCMP. -/
def scalarCond (cond : Nat) (a b : W32) : Bool :=
  match cond with
  | 0 => a == b | 1 => a != b | 2 => decide (a.toInt < b.toInt) | 3 => decide (b.toInt ≤ a.toInt)
  | 4 => decide (a.toNat < b.toNat) | _ => decide (b.toNat ≤ a.toNat)

/-- SCMP: COND 6 and 7 are illegal. -/
def execScmp (k cond sa sb : Nat) (chk : CoreCheck) (s : State) : Host.Outcome State Fault Refusal :=
  .next <| coreRuns k false (encodeFields 0x1E [(23, 3, cond), (18, 5, sa), (13, 5, sb)]) chk s fun s =>
    if cond > 5 then .fault
    else .next (modSigCore s k fun x => { x with cmp := scalarCond cond (sReg x sa) (sReg x sb) }) 1

/-! ### Queues (R283, R284, R287) -/

/-- Lifting sizes of TS 38.212 table 5.3.2-1 (PRESUMED, notes/assumptions/24.md). -/
def liftingSize (z : Nat) : Bool :=
  2 ≤ z && z ≤ 384 && ([2, 3, 5, 7, 9, 11, 13, 15] : List Nat).any fun a =>
    (List.range 8).any fun j => z == a * 2 ^ j

/-- OP and PARAM are ones that R285 lists for a queue. -/
def opListed (q : Nat) (d : List W64) : Bool :=
  let op := qOp d
  let p := qParam d
  if q = 0 then 1 ≤ op && op ≤ 3 && p % 2 ^ 24 == 0
  else if q ≤ 4 then op == 1 && liftingSize (p / 2 ^ 22 % 512)
  else if q ≤ 6 then op == 1 && p % 2 ^ 22 == 0 && liftingSize (p / 2 ^ 22 % 512)
  else if q = 7 then
    (if op = 1 || op = 2 then p % 2 ^ 14 == 0
     else if op = 3 then p % 2 ^ 14 == 0 && p / 2 ^ 22 == 0
     else op == 4 && p % 2 ^ 24 == 0)
  else if q = 8 then
    (if op = 1 then p % 2 ^ 20 == 0 else (op == 2 || op == 3) && p % 2 ^ 24 == 0)
  else if q = 9 then op == 1 && p % 2 ^ 20 == 0 && qDst d == 0
  else op == 1 && p == 0

/-- Descriptors of a queue that a core in paired operation has pushed and not yet released (R294). -/
def heldBack (s : State) (k q : Nat) : List (List W64) :=
  (sigCore s k).outbox.filterMap fun r => match r with
    | .desc p d => if p == q then some d else none
    | .line _ _ => none

/-- Entries of a core's queue that are taken, as that core counts them (R283, R294). -/
def queueTaken (s : State) (k q : Nat) : Nat := (coreQueue s (pairCore s k) q).length + (heldBack s k q).length

/-- A descriptor is refused with status 2 (R283–R285): a reserved QUEUE, a nonzero RSVD bit, a LEN or
COMPL_OFF outside its range, an OP or PARAM that R285 does not list, or a PLAN_SEQ for which the plan of that target lists
no place that is still to be pushed. -/
def pushRefused (s : State) (k q : Nat) (d : List W64) : Bool :=
  q > 10 || !rsvdZero d [(0, 15, 0), (1, 63, 48), (2, 63, 48), (3, 44, 32)] || qLen d == 0 ||
  qComplOff d % 8 != 0 || !opListed q d ||
  (placeOf s (pairCore s k) q d false).isNone || (heldBack s k q).any fun y => qSeq y == qSeq d

/-- QPUSH: bytes 0–31 of VS as a descriptor; the status into SD (R283). A descriptor of a pair is released after its
comparison (R294). -/
def execQpush (k vs sd queue : Nat) (chk : CoreCheck) (s : State) : Host.Outcome State Fault Refusal :=
  .next <| coreRuns k true (encodeFields 0x30 [(21, 5, vs), (16, 5, sd), (6, 5, queue)]) chk s fun s =>
    let d := wordsOf 4 (vBytes (vReg (sigCore s k) vs))
    if pushRefused s k queue d then .next (modSigCore s k fun x => setS x sd 2) 1
    else if queueTaken s k queue ≥ 16 then .full (modSigCore s k fun x => setS x sd 1)
    else .released (releaseFrom s k (.desc queue d)) k 1 fun x => setS x sd 0

/-- QPOP: free entries of a queue; for a reserved QUEUE a free value (notes/assumptions/32.md). -/
def execQpop (k sd queue : Nat) (chk : CoreCheck) (s : State) : Host.Outcome State Fault Refusal :=
  .next <| coreRuns k true (encodeFields 0x32 [(21, 5, sd), (6, 5, queue)]) chk s fun s =>
    let (n, s) := if queue > 10 then
        let (f, s) := takeFree s 45
        (f.setWidth 32, s)
      else (BitVec.ofNat 32 (16 - queueTaken s k queue), s)
    .next (modSigCore s k fun x => setS x sd n) 1

/-- WAITC (R287): the core is held until the 64-bit word at P is at least SV. -/
def execWaitc (k p sv : Nat) (chk : CoreCheck) (s : State) : Host.Outcome State Fault Refusal :=
  .next <| coreRuns k true (encodeFields 0x31 [(18, 3, p), (11, 5, sv)]) chk s fun s =>
    let x := sigCore s k
    match coreRead s k (pReg x p) 8 with
    | .error b => .ofBar b
    | .ok bs =>
      if leNat bs ≥ (sReg x sv).toNat then .next s 1
      else .waits (modSigCore s k fun x => { x with waiting := some p })

/-! ### Compatibility mode (R275, R276) -/

/-- A register file with some registers free: each register i < n takes bits of a free number. -/
def freeRegs {w : Nat} (n mask : Nat) (f : Nat) (t : Tbl (BitVec w)) : Tbl (BitVec w) :=
  (List.range n).foldl (fun t i => tset 0 t i (BitVec.ofNat w (f / 2 ^ (w * i) % 2 ^ mask))) t

/-- The effect of an FL5 instruction is that of a document the spec names and does not hold: registers,
accumulators, flags and program counter take free values in the parts that compatibility mode reaches, and
one X line and one Y line may be written (R275; notes/assumptions/33.md). -/
def fl5Effect (s : State) (k : Nat) : State :=
  let (v, s) := takeFreeNat s 46 128
  let (a, s) := takeFreeNat s 47 40
  let (r, s) := takeFreeNat s 48 16
  let (p, s) := takeFreeNat s 49 3
  let (c, s) := takeFreeNat s 50 1
  let (xl, s) := takeFreeNat s 51 1
  let (xb, s) := takeFreeNat s 52 8
  let (yb, s) := takeFreeNat s 53 8
  let s := modSigCore s k fun x => { x with
    v := freeRegs 16 256 v x.v
    acc := freeRegs 2 640 a x.acc
    sreg := tdel (freeRegs 32 32 r x.sreg) 0
    p := freeRegs 8 19 p x.p
    lc := freeRegs 2 16 (c % 2 ^ 32) x.lc
    cmp := c / 2 ^ 32 % 2 == 1
    accSat := x.accSat || c / 2 ^ 33 % 2 == 1
    extSat := x.extSat || c / 2 ^ 34 % 2 == 1
    pc := c / 2 ^ 40 % 8192 }
  let put (s : State) (on : Bool) (off n : Nat) : State :=
    if on then releaseFrom s k (.line off (leBytes 64 n)) else s
  put (put s (xl % 2 == 1) (xl / 2 % 4096 * 64) xb) (xl / 2 ^ 20 % 2 == 1)
    (0x40000 + xl / 2 ^ 21 % 4096 * 64) yb

/-- FL5_INSTRUCTION (R275, R276): one that addresses FL5 peripherals is illegal. -/
def execFl5Instruction (k : Nat) (word : W32) (peripheral : Bool) (chk : CoreCheck) (s : State) :
    Host.Outcome State Fault Refusal :=
  .next <|
    if !(sigCore s k).mode || compatNative (opOf word) then s
    else coreRuns k true (some word) chk s fun s =>
      if peripheral then .fault
      else
        let t := fl5Effect s k
        if (sigCore t k).task.isNone then .aborted t else .jump t 1 (sigCore t k).pc

/-- ILLEGAL_INSTRUCTION (R280, R282, R293): the word at the program counter is none of the instruction set. -/
def execIllegalInstruction (k : Nat) (word : W32) (s : State) : Host.Outcome State Fault Refusal :=
  .next <|
    if illegalWord (sigCore s k).mode word then
      coreRuns k true (some word) .ok s fun _ => .fault
    else s

/-! ### Stall, store (R273, R292) -/

/-- Units that a WAITC of the core waits for: decoders and encoders with a descriptor whose completion word
is the one at the pointer (R292). The units of a die's radio function and the local DMA have no unit number (R392). -/
def waitTargets (s : State) (k : Nat) : List Nat :=
  match (sigCore s k).waiting with
  | none => []
  | some p => (List.range 6).filterMap fun i =>
      if (coreQueue s (pairCore s k) (i + 1)).any fun d => qComplOff d == pReg (sigCore s k) p then
        some (112 + 6 * coreDie k + i) else none

/-- SC_STALL (R292, R398–R401): STALL, the abort, the counted reset, the suspects. -/
def execScStall (k : Nat) (s : State) : Host.Outcome State Fault Refusal :=
  .next <|
    if k ≥ 64 || coreIdle s k || since s (sigCore s k).timerAt < ticksPerSlot then s
    else
      let u := 32 + k
      let ts := waitTargets s k
      let s := hangRecord (countHang s u) 3 u (4 + coreDie k) 0xFF (u + 256 * ts.headD 0xFF)
      let s := modSigCore s k fun x => { x with stall := true }
      let s := countReset (resetUnit s u) u 5
      ts.foldl markSuspect (markSuspect s u)

/-- INSTRUCTION_STORE_WRITE (R273): taken while the core is idle; radio firmware's image in RD LPDDR6 holds
what it writes (R274, R298). -/
def execInstructionStoreWrite (k index : Nat) (word : W32) (s : State) :
    Host.Outcome State Fault Refusal :=
  .next <|
    if k ≥ 64 || index ≥ 8192 then s
    else if !coreIdle s k then modSigCore s k fun x => { x with iwriteRefused := true }
    else modSigCore s k fun x => { x with
      store := tset 0 x.store index word, image := tset 0 x.image index word, storeBad := false }

end Sys2Proof.Machine
end

