-- ==== Sys2Proof/Machine/AccelCmds.lean ====
section
/-! DEFINITION. The accelerators of the radio dies and the local DMA serve their queues (chapters 08 and
09): R246, R248, R283–R287. What a unit computes from its operands is that of standards outside the spec. -/

namespace Sys2Proof.Machine

/-! ### Accesses of a descriptor (R27, R28, R31, R284) -/

/-- Core and offset of a range of signal-core local memory (R27). -/
def localRange (addr len : Nat) : Option (Nat × Nat) :=
  if 0x021000000000 ≤ addr && addr + len ≤ 0x021002000000 then
    some ((addr - 0x021000000000) / 0x80000, (addr - 0x021000000000) % 0x80000)
  else none

/-- Bytes read as sleeve 0: a page under R31, or local memory. -/
def unitRead (s : State) (addr len : Nat) : Except Bar (List Byte) :=
  match localRange addr len with
  | some (k, off) =>
    if eccHit s (localKey k off) len then .error .dataEcc else .ok (physRead s (localKey k off) len)
  | none => devRead s radioIssuer addr len

/-- Bytes written as sleeve 0. -/
def unitWrite (s : State) (addr : Nat) (bs : List Byte) : Except Bar State :=
  match localRange addr bs.length with
  | some (k, off) =>
    if !(eccPartial s (localKey k off) bs.length).isEmpty then .error .dataEcc
    else .ok (physWrite s (localKey k off) bs)
  | none => devWrite s radioIssuer .wr addr bs

/-- The descriptor of a core's queue that one of the targets named serves next, when it is the one a row serves
(R286). -/
def servedBy (s : State) (k q op : Nat) (only : Nat → Bool) : Option (List W64) :=
  if k ≥ 64 then none
  else
    let ds := (coreQueue s k q).filter fun d =>
      (targetsOf s q d).any fun t => only t && nextDesc s (coreDie k) t q == some (k, d)
    ds.find? fun d => qOp d == op

/-- The descriptor that a queue's target serves next. -/
def servedDesc (s : State) (k q op : Nat) : Option (List W64) := servedBy s k q op fun _ => true

/-- A task of a unit that completes after its planned end (R57): a late beat of the unit's domain, and of the slot job
that the descriptor works for. -/
def unitLate (s : State) (k q : Nat) (d : List W64) : State :=
  match queueDomain (coreDie k) q with
  | none => s
  | some n => lateTask (lateBeat s n) (coreDie k) ((descJob s k q d).getD 0)

/-- What a unit records for the slot job that a descriptor works for (R241, R242). -/
def noteUnit (s : State) (k q : Nat) (d : List W64) (f : UnitRec → UnitRec) : State :=
  modJobOf s (coreDie k) ((descJob s k q d).getD 0) fun j => { j with
    units := j.units ++ [f { queue := q, seq := qSeq d }] }

/-- A descriptor ends with its output or without (R286), and its unit's domain has worked; past its planned end it is a
late beat too. -/
def endDesc (s : State) (k q : Nat) (d : List W64) (late ok : Bool) : State :=
  let s := match queueDomain (coreDie k) q with
    | some n => noteActive s { domain := n, radio := true, beats := 1 }
    | none => s
  completeDesc (if late then unitLate s k q d else s) k q d ok

/-- A descriptor whose access is refused ends without its output; a generation mismatch is counted (R32). -/
def refusedDesc (s : State) (k q : Nat) (d : List W64) (late : Bool) (b : Bar) : State :=
  endDesc (if b == .stale then { s with pkg := { s.pkg with staleGen := s.pkg.staleGen + 1 } } else s) k q d late false

/-- A unit serves the next descriptor of its list (R285–R287): the input is read, `out` gives the output, the
descriptor completes. A payload that fails CRC-32C twice, or an access that R31 refuses, sets bit 63
(notes/assumptions/34.md); for a page in move the unit waits with its command `c` (R31 condition 4), and without a tracker
it waits too (R36). `note` is what the unit records of it before it leaves its list, `after` what follows. -/
def serveOn (only : Nat → Bool) (c : Instr) (k q op : Nat) (o : UnitObs) (s : State)
    (out : List W64 → List Byte → List Byte) (note after : List W64 → List Byte → State → State := fun _ _ s => s) :
    State :=
  match servedBy s k q op only with
  | none => s
  | some d =>
    if !unitTracker s (32 + k) 0 then s
    else match unitRead s (qSrc d) (qLen d) with
    | .error .wait => park s (qSrc d) (qLen d) (.command c)
    | .error b => refusedDesc s k q d o.late b
    | .ok bs =>
      if !o.crcOk then endDesc s k q d o.late false
      else
        let r := out d bs
        if r.isEmpty then after d bs (endDesc (note d bs s) k q d o.late true)
        else match unitWrite s (qDst d) r with
          | .error .wait => park s (qDst d) r.length (.command c)
          | .error b => refusedDesc s k q d o.late b
          | .ok s' => after d bs (endDesc (note d bs s') k q d o.late true)

/-- A unit other than a decoder serves its next descriptor. -/
def serveDesc (c : Instr) (k q op : Nat) (o : UnitObs) (s : State) (out : List W64 → List Byte → List Byte)
    (note after : List W64 → List Byte → State → State := fun _ _ s => s) : State :=
  serveOn (fun _ => true) c k q op o s out note after

/-- `n` bytes that a unit computes by a standard outside the spec. -/
def unitBytes (kind n : Nat) (d : List W64) (bs : List Byte) : List Byte :=
  (List.range n).map (Config.blockUnit kind (bytesOf d) bs)

/-- An output whose length the spec does not give (notes/assumptions/34.md). -/
def openBytes (kind : Nat) (d : List W64) (bs : List Byte) : List Byte :=
  unitBytes kind (Config.blockLength kind (bytesOf d) bs) d bs

/-! ### Equaliser pipeline: queue 0 -/

/-- CHANNEL_ESTIMATION: estimates per PRG. -/
def execChannelEstimation (k : Nat) (o : UnitObs) (s : State) : Host.Outcome State Fault Refusal :=
  .next <| serveDesc (.channelEstimation k o) k 0 1 o s fun d bs => openBytes 1 d bs

/-- EVM and SINR of what an equaliser has measured, as their fields (R242). -/
def evmField (o : UnitObs) : Nat := dbField (-600) 100 o.evm
def sinrField (o : UnitObs) : Nat := dbField (-300) 600 o.sinr

/-- EQUALISATION (R242): INT8 LLRs, then EVM and SINR in 4 B. -/
def execEqualisation (k : Nat) (o : UnitObs) (s : State) : Host.Outcome State Fault Refusal :=
  .next <| serveDesc (.equalisation k o) k 0 2 o s
    (fun d bs => openBytes 2 d bs ++ leBytes 2 (evmField o) ++ leBytes 2 (sinrField o))
    (note := fun d _ s => noteUnit s k 0 d fun u => { u with evm := evmField o, sinr := sinrField o })

/-- SRS_CHANNEL_ESTIMATION (R242): estimates per 2-PRB group, then the wideband SINR in 2 B. -/
def execSrsChannelEstimation (k : Nat) (o : UnitObs) (s : State) :
    Host.Outcome State Fault Refusal :=
  .next <| serveDesc (.srsChannelEstimation k o) k 0 3 o s
    (fun d bs => openBytes 3 d bs ++ leBytes 2 (sinrField o))
    (note := fun d _ s => noteUnit s k 0 d fun u => { u with sinr := sinrField o })

/-! ### LDPC: queues 1 to 6 -/

/-- Base graph 2, and the lifting size Zc. -/
def qBg2 (d : List W64) : Bool := bitOf (wd d 3) 31
def qZc (d : List W64) : Nat := fld (wd d 3) 30 22

/-- Iterations of a block under its engine's pool (R248): at most min(MAX_ITER, 8 + I). -/
def iterations (pool : Nat) (d : List W64) (bs : List Byte) : Nat :=
  Nat.min (Nat.max 1 (Config.decodeIterations (bytesOf d) bs))
    (Nat.max 1 (Nat.min (fld (wd d 3) 21 17) (8 + pool)))

/-- LDPC_DECODE (R241, R248, R285): the block engine serves the next block of its own list: the K bits of the code block,
then the iterations used. -/
def execLdpcDecode (k decoder engineNo : Nat) (o : UnitObs) (s : State) :
    Host.Outcome State Fault Refusal :=
  .next <|
    if decoder > 3 || engineNo > 3 then s
    else
      let e := 4 * decoder + engineNo
      let pool := tget 0 (radDie s (coreDie k)).pools e
      serveOn (fun t => t == 32 + e) (.ldpcDecode k decoder engineNo o) k (1 + decoder) 1 o s
        (fun d bs =>
          let i := iterations pool d bs
          let bits := (if qBg2 d then 10 else 22) * qZc d
          (List.range (cdiv bits 8)).map (Config.blockUnit 10 (bytesOf d ++ leBytes 1 i) bs) ++
            [BitVec.ofNat 8 i])
        (note := fun d bs s => noteUnit s k (1 + decoder) d fun u => { u with iterations := iterations pool d bs })
        (after := fun d bs s =>
          let i := iterations pool d bs
          modRadDie s (coreDie k) fun x => { x with
            pools := tset 0 x.pools e (if i < 8 then pool + (8 - i) else pool - (i - 8)) })

/-- LDPC_ENCODE: the N coded bits. -/
def execLdpcEncode (k encoder : Nat) (o : UnitObs) (s : State) : Host.Outcome State Fault Refusal :=
  .next <|
    if encoder > 1 then s
    else serveDesc (.ldpcEncode k encoder o) k (5 + encoder) 1 o s fun d bs =>
      unitBytes 11 (cdiv ((if qBg2 d then 50 else 66) * qZc d) 8) d bs

/-! ### Polar unit: queue 7 -/

/-- Payload bits, and the code length N: the field 0 stands for 1,024, which its 10 bits cannot hold
(notes/assumptions/34.md). -/
def qPayload (d : List W64) : Nat := fld (wd d 3) 21 14
def qPolarN (d : List W64) : Nat := if fld (wd d 3) 31 22 = 0 then 1024 else fld (wd d 3) 31 22

/-- POLAR_DECODE: payload bits, then a CRC flag in 4 B. -/
def execPolarDecode (k : Nat) (o : UnitObs) (s : State) : Host.Outcome State Fault Refusal :=
  .next <| serveDesc (.polarDecode k o) k 7 1 o s fun d bs => unitBytes 20 (cdiv (qPayload d) 8 + 4) d bs

/-- POLAR_ENCODE: N coded bits. -/
def execPolarEncode (k : Nat) (o : UnitObs) (s : State) : Host.Outcome State Fault Refusal :=
  .next <| serveDesc (.polarEncode k o) k 7 2 o s fun d bs => unitBytes 21 (cdiv (qPolarN d) 8) d bs

/-- REED_MULLER_DECODE: payload bits. -/
def execReedMullerDecode (k : Nat) (o : UnitObs) (s : State) : Host.Outcome State Fault Refusal :=
  .next <| serveDesc (.reedMullerDecode k o) k 7 3 o s fun d bs => unitBytes 22 (cdiv (qPayload d) 8) d bs

/-- SEQUENCE_DETECTION: detected bits, then a metric in 4 B. -/
def execSequenceDetection (k : Nat) (o : UnitObs) (s : State) :
    Host.Outcome State Fault Refusal :=
  .next <| serveDesc (.sequenceDetection k o) k 7 4 o s fun d bs => openBytes 23 d bs ++ unitBytes 123 4 d bs

/-! ### Beam unit: queue 8 -/

/-- PRECODING: antenna streams. -/
def execPrecoding (k : Nat) (o : UnitObs) (s : State) : Host.Outcome State Fault Refusal :=
  .next <| serveDesc (.precoding k o) k 8 1 o s fun d bs => openBytes 30 d bs


/-- The DL slot that a descriptor works for: that of its slot job, else the first DL slot job of a cell. -/
def descSlot (s : State) (k c : Nat) (job : Option Nat) : Nat × Nat :=
  let js := (radDie s (coreDie k)).jobs.filter fun j => j.dir == 1 && j.cell == c
  match (job.bind fun id => js.find? (·.id == id)).or js.head? with
  | some j => (j.frame, j.slot)
  | none => ((slotNow s + 1) / 20, (slotNow s + 1) % 20)

/-- WEIGHT_ATTACHMENT (R230, R246): C-plane section extension type 1, into the slot's waiting C-plane. -/
def execWeightAttachment (k : Nat) (o : UnitObs) (s : State) : Host.Outcome State Fault Refusal :=
  .next <| serveDesc (.weightAttachment k o) k 8 2 o s (fun d bs => openBytes 31 d bs)
    (note := fun d bs s =>
      let c := qParam d / 2 ^ 24
      let sl := descSlot s k c (descJob s k 8 d)
      attachWeights s c sl.1 sl.2 (openBytes 31 d bs))

/-- WEIGHT_COMPUTATION: weights. -/
def execWeightComputation (k : Nat) (o : UnitObs) (s : State) :
    Host.Outcome State Fault Refusal :=
  .next <| serveDesc (.weightComputation k o) k 8 3 o s fun d bs => openBytes 32 d bs

/-! ### Egress buffer: queue 9 -/

/-- The samples of one PRB, complex int16, as block floating point (R233, R246): a 4-bit exponent, the least under which
the 24 values fit 9-bit mantissas, then the mantissas, shifted down (O-RAN layout, PRESUMED, notes/assumptions/36.md). -/
def bfpPrb (iq : List Byte) : List Byte :=
  let vs : List Int := (List.range 24).map fun i => (BitVec.ofNat 16 (leNat ((iq.drop (2 * i)).take 2))).toInt
  let fits (e : Nat) : Bool := vs.all fun v => -256 ≤ v / (2 ^ e : Nat) && v / (2 ^ e : Nat) ≤ 255
  let e := ((List.range 16).find? fits).getD 15
  leBytes 1 e ++ beBytes 27 (vs.foldl (fun (a : Nat) (v : Int) => a * 512 + ((v / (2 ^ e : Nat)) % 512).toNat) 0)

/-- A DL U-plane message of one symbol and stream from PRB 0 on (R246): application header, one section, its compression
header, its PRBs (O-RAN layout, PRESUMED, notes/assumptions/36.md). -/
def uplaneMessage (sfn slot symbol : Nat) (iq : List Byte) : List Byte :=
  let n := cdiv iq.length 48
  beBytes 1 0x90 ++ beBytes 1 (sfn % 256) ++ beBytes 2 (slot / 2 * 4096 + slot % 2 * 64 + symbol) ++
    beBytes 4 (if n < 256 then n else 0) ++ [0x91, 0] ++
    (List.range n).flatMap fun i => bfpPrb ((iq.drop (48 * i)).take 48)

/-- A symbol's frames into Q2 (R246, R301, R309): one per stream, block floating point at 28 B per PRB, its window
[T_air − T1A_MAX, T_air − T1A_MIN]. A port that retrains holds them. -/
def queueSymbol (s : State) (d : List W64) (sl : Nat × Nat) (iq : List Byte) : State :=
  let c := qParam d / 2 ^ 24
  let sym := qParam d / 2 ^ 20 % 16
  let r := (cell s c).record
  let p := cFhPort r
  let m := (c, sl.1, sl.2, sym)
  let air := airTime sl.1 sl.2 + symbolStart sym
  let per := 48 * Nat.max 1 (typePrbs (cType r))
  if !(fhPort s p).up && !(fhPort s p).retraining then missSymbol s m
  else (List.range (cdiv iq.length per)).foldl (fun s i =>
    queueRadio s p 2 { bytes := radioFrame s c 0 ((cEaxc r + i) % 65536)
                         (uplaneMessage (sfnOf s sl.1) sl.2 sym ((iq.drop (per * i)).take per))
                       opens := air - cT1aMax r * 1000, closes := air - cT1aMin r * 1000
                       symbol := some m }) s

/-- UPLANE_SYMBOL (R285, R246). -/
def execUplaneSymbol (k : Nat) (o : UnitObs) (s : State) : Host.Outcome State Fault Refusal :=
  .next <| serveDesc (.uplaneSymbol k o) k 9 1 o s (fun _ _ => [])
    (note := fun d bs s => queueSymbol s d (descSlot s k (qParam d / 2 ^ 24) (descJob s k 9 d)) bs)

/-! ### Local DMA: queue 10 -/

/-- LOCAL_DMA_COPY. -/
def execLocalDmaCopy (k : Nat) (o : UnitObs) (s : State) : Host.Outcome State Fault Refusal :=
  .next <| serveDesc (.localDmaCopy k o) k 10 1 o s fun _ bs => bs

end Sys2Proof.Machine
end

