-- ==== Sys2Proof/Machine/BootOps.lean ====
section
/-! DEFINITION. The steps of a cold boot (chapters 14, 15; R26, R49, R71, R135, R298, R420): image checks,
boot configuration, health entry, memories, and what a boot leaves. -/

namespace Sys2Proof.Machine

/-! ### Images (R424, R425) -/

/-- Bytes [off, off + n) of an image, zeros beyond its end. -/
def imgBytes (b : List Byte) (off n : Nat) : List Byte := ((b.drop off) ++ List.replicate n 0).take n

/-- Word i of an image (R8: little-endian). -/
def imgWord (b : List Byte) (i : Nat) : W64 := leW64 (imgBytes b (8 * i) 8)

def imgSections (b : List Byte) : Nat := fld (imgWord b 0) 15 8
def imgSvn (b : List Byte) : Nat := fld (imgWord b 1) 31 24
def imgStepping (b : List Byte) : Nat := fld (imgWord b 1) 23 8
def imgLen (b : List Byte) : Nat := fld (imgWord b 2) 63 32
def imgSigLen (b : List Byte) : Nat := fld (imgWord b 2) 31 0

/-- Word j of section entry i: the table of 64-byte entries starts at byte 64. -/
def secWord (b : List Byte) (i j : Nat) : W64 := imgWord b (8 + 8 * i + j)
def secKind (b : List Byte) (i : Nat) : Nat := fld (secWord b i 0) 63 56
def secOff (b : List Byte) (i : Nat) : Nat := fld (secWord b i 1) 63 32
def secLen (b : List Byte) (i : Nat) : Nat := fld (secWord b i 1) 31 0

/-- Longest section of a kind [bytes] (R424). -/
def secMax (radioMb kind : Nat) : Nat :=
  match kind with
  | 1 => 4 * 2 ^ 20 | 2 => 2 * 2 ^ 20 | 5 => radioMb * 2 ^ 20 | _ => 2 ^ 32

/-- One section entry breaks its map (R424). -/
def secBad (radioMb : Nat) (b : List Byte) (i : Nat) : Bool :=
  let k := secKind b i
  k == 0 || k > 5 || fld (secWord b i 0) 55 0 != 0 || secOff b i % 4096 != 0 ||
  secOff b i < 576 + imgSigLen b || secLen b i > secMax radioMb k ||
  secOff b i + secLen b i > imgLen b || secWord b i 6 != 0 || secWord b i 7 != 0

/-- Two sections overlap. -/
def secOverlap (b : List Byte) (i j : Nat) : Bool :=
  secOff b i < secOff b j + secLen b j && secOff b j < secOff b i + secLen b i

/-- Check 1 of R425 fails: MAGIC, FORMAT, lengths, section table, RSVD bits. -/
def headerBad (radioMb : Nat) (b : List Byte) : Bool :=
  let n := imgSections b
  let secs := List.range n
  fld (imgWord b 0) 63 32 != 0x464C3849 || fld (imgWord b 0) 31 16 != 1 || n < 4 || n > 5 ||
  fld (imgWord b 0) 7 0 != 0 || imgSvn b > 63 || fld (imgWord b 1) 7 0 != 0 ||
  imgLen b > 33554432 || imgLen b > b.length || !(imgSigLen b == 2832 || imgSigLen b == 5716) ||
  (List.range 5).any (fun i => imgWord b (3 + i) != 0) ||
  secs.any (secBad radioMb b) ||
  (List.range 8).any (fun i => n ≤ i && (List.range 8).any fun j => secWord b i j != 0) ||
  secs.any (fun i => secs.any fun j => i < j && secOverlap b i j) ||
  [1, 2, 3, 4].any (fun k => (secs.filter fun i => secKind b i == k).length != 1) ||
  (secs.filter fun i => secKind b i == 5).length > 1

/-- The section of a kind. -/
def secOf (b : List Byte) (kind : Nat) : List Byte :=
  match (List.range (imgSections b)).find? fun i => secKind b i == kind with
  | some i => imgBytes b (secOff b i) (secLen b i)
  | none => []

/-- The image key, bytes 0–59 of stage 1, has the fused hash and verifies bytes 0–575 (R425 check 2). -/
def imageSigned (b : List Byte) : Bool :=
  let key := (secOf b 1).take 60
  sha256 key == Config.imageKeyHash &&
    hssVerify key (imgBytes b 0 576) (imgBytes b 576 (imgSigLen b))

/-- Stepping of a die (R434): word 2d + 1 of the fused identity words is ID_DIE1. -/
def stepping (d : Nat) : Nat := fld (Config.fused (2 * d + 1)) 11 8

/-- Checks 1 to 4 of R425. -/
def checkHeader (s : State) (b : List Byte) : Status :=
  if headerBad (cfgRadioMb s) b then .badField
  else if !imageSigned b then .unsigned
  else if (List.range 8).any fun d => imgStepping b / 2 ^ stepping d % 2 == 0 then .denied
  else if imgSvn b < s.nvm.otpFloor then .rollback
  else .ok

/-- Check 5 of R425 for the sections that `which` selects. -/
def digestsOk (b : List Byte) (which : Nat → Bool) : Bool :=
  (List.range (imgSections b)).all fun i => !which (secKind b i) ||
    wordsOf 4 (sha256 (imgBytes b (secOff b i) (secLen b i))) ==
      [secWord b i 2, secWord b i 3, secWord b i 4, secWord b i 5]

/-- An image checked whole (R425); bytes that could not be read: TIMEOUT (R427). -/
def checkImage (s : State) (b : List Byte) : Status :=
  if b.isEmpty then .timeout
  else match checkHeader s b with
    | .ok => if digestsOk b fun _ => true then .ok else .checkFailed
    | st => st

/-- The host's image as the ROM checks it at GO (R428): its header, and the section that the ROM runs; no byte
read: TIMEOUT. -/
def mboxStatus (s : State) (b : List Byte) : Status :=
  if b.isEmpty then .timeout
  else match checkHeader s b with
    | .ok => if digestsOk b (· == 1) then .ok else .checkFailed
    | st => st

/-! ### Boot configuration (R432) -/

/-- The defaults of R432. -/
def defaultConfig : List W64 :=
  [pack 64 [(32, 0x42434647)],
   pack 64 [(58, 8), (42, 0x3333), (16, 3)]] ++ List.replicate 30 0

/-- A copy is valid: MAGIC and the CRC over bytes 0–247. -/
def copyValid (c : List Byte) : Bool :=
  c.length == 256 && fld (leW64 c) 63 32 == 0x42434647 &&
    fld (leW64 (c.drop 248)) 63 32 == crc32c (c.take 248)

/-- SEQ of a copy. -/
def copySeq (c : List Byte) : Nat := fld (leW64 c) 31 0

/-- The valid copy with the higher SEQ. -/
def validCopy (n : Nvm) : Option (List Byte) :=
  match copyValid n.copyA, copyValid n.copyB with
  | true, true => some (if copySeq n.copyA ≥ copySeq n.copyB then n.copyA else n.copyB)
  | true, false => some n.copyA
  | false, true => some n.copyB
  | false, false => none

/-- The record of the next boot: the valid copy, or the defaults. -/
def nextConfig (n : Nvm) : List W64 :=
  match validCopy n with
  | some c => wordsOf 32 c
  | none => defaultConfig

/-- Bits set in a field. -/
def popcount (n v : Nat) : Nat := ((List.range n).filter fun i => v / 2 ^ i % 2 == 1).length

/-- A record breaks the map of R432: what the FL8 supplies itself is not looked at. -/
def configBad (ws : List W64) : Bool :=
  let w := wd ws 1
  let pair (v k : Nat) := v / 2 ^ (2 * k) % 4
  !([0, 4, 8, 12, 16].contains (fld w 62 58)) || popcount 16 (fld w 57 42) > 12 || fld w 41 40 > 2 ||
  fld w 31 16 == 0 || fld w 15 0 != 0 ||
  (List.range 8).any (fun k => fld w 39 32 / 2 ^ k % 2 == 1 &&
    (pair (fld w 31 16) k == 1 || pair (fld w 31 16) k == 2)) ||
  fld (wd ws 9) 63 32 != 0 || fld (wd ws 17) 63 32 != 0 ||
  (List.range 13).any (fun i => wd ws (18 + i) != 0) || fld (wd ws 31) 31 0 != 0

/-! ### Health entry (R420 step 1, R407) -/

/-- End cause of the boot from the marks of the health record (R407). -/
def endCause (r : HealthRec) : Nat :=
  if r.entries.isEmpty then 0
  else if r.clean then 1
  else match r.cause with
    | some c => c
    | none => if r.sag then 3 else 8

/-- The health record after step 1: incarnation raised, a new entry, the marks cleared. -/
def bootRecord (r : HealthRec) : HealthRec :=
  let inc := Nat.min 0xFFFFFFFF (r.incarnation + 1)
  let c := endCause r
  { r with
    incarnation := inc
    entries := ({ incarnation := inc, cause := c, counted := decide (3 ≤ c), stamp := none } ::
      r.entries).take 8
    clean := false, sag := false, cause := none }

def bootHealth (s : State) : State := setRec s (bootRecord s.nvm.health)

/-! ### Dies, memories, pace (R422, R26, R71) -/

/-- A die-level fault at boot: recorded and entered; what the die takes with it follows. -/
def noteDie (s : State) (d cause : Nat) : State :=
  let s := raise s { code := 0x040, severity := 4, die := d, d0 := cause }
  if s.hlt.hr.dies.contains d then s else setRec s { s.hlt.hr with dies := s.hlt.hr.dies ++ [d] }

/-- Units of a die fenced at boot with a cause (R71, R26, R135): not confirmed. -/
def bootFence (s : State) (us : List Nat) (cause : Nat) : State :=
  us.foldl (fun s u => if isFenced s u then s else fenceUnit s u .unconfirmed cause) s

/-- What a die with a die-level fault loses at boot (R406, R420 step 2). -/
def dropDie (s : State) (d : Nat) : State :=
  if d < 4 then bootFence (memoryOut s d) (dieUnits d) 7
  else if d = 4 || d = 5 then radioFenced s (d - 4)
  else if d = 7 then bootFence (memoryOut s d) (dieUnits d) 7
  else s

/-- Dies of a failed seam that take a die-level fault: both, or the other one beside ED0 (R422). -/
def seamVictims (n : Nat) : List Nat := [(seamDies n).1, (seamDies n).2].filter (· != 6)

def seamSt (s : State) (n : Nat) : Seam := tget {} s.pkg.seams n
def setSeam (s : State) (n : Nat) (v : Seam) : State :=
  { s with pkg := { s.pkg with seams := tset {} s.pkg.seams n v } }

/-- The order in which the dies are read at boot (R422), each over the first seam that trains and joins it to a die
already read: the die and the seam. -/
def readDies (failed : List Nat) : Nat → List Nat → List (Nat × Nat)
  | 0, _ => []
  | k + 1, known =>
    match (List.range 13).find? fun n => !failed.contains n &&
        known.contains (seamDies n).1 != known.contains (seamDies n).2 with
    | none => []
    | some n =>
      let d := if known.contains (seamDies n).1 then (seamDies n).2 else (seamDies n).1
      (d, n) :: readDies failed k (d :: known)

/-- The seam that reaches a die from ED0 (R422). -/
def reachSeam (failed : List Nat) (d : Nat) : Option Nat :=
  ((readDies failed 7 [6]).find? (·.1 == d)).map (·.2)

/-- Seams that count as failed at boot (R422): those that do not train, and those that reach a die of a wrong type. -/
def seamsFailed (o : BootObs) : List Nat :=
  o.seamFail ++ o.types.filterMap fun t => reachSeam o.seamFail t.1

/-- Step 3 of R423: a failed seam leaves a boot with Tacor and the sideband only. -/
def bootSeams (s : State) (failed : List Nat) : State :=
  (failed.filter (· < 13)).foldl (fun s n =>
    let s := setSeam s n { seamSt s n with failed := true }
    let s := raise s { code := 0x003, severity := 5, d0 := n }
    let s := (seamVictims n).foldl (fun s d => noteDie s d 0x003) s
    { s with boot := { s.boot with minimal := true } }) s

/-- Die of an LPDDR6 channel (R14). -/
def channelDie (c : Nat) : Nat := if c < 8 then 4 else if c < 16 then 5 else if c < 32 then 6 else 7

/-- A memory that failed training (R26): MEMORY_TRAINING, and what its die loses. -/
def memoryFailed (s : State) (d detail : Nat) : State :=
  let s := raise s { code := 0x004, severity := 4, die := d, d0 := detail }
  let s := memoryOut s d
  if d = 4 || d = 5 then radioFenced s (d - 4)
  else
    let s := dropDie (noteDie s d 0x004) d
    if d = 6 then { s with boot := { s.boot with minimal := true } } else s

/-- Densities, and the memories that fail training (R24, R26). A die whose channels differ (density 0)
counts as one whose channel failed. -/
def bootMemories (s : State) (o : BootObs) : State :=
  let s := { s with pkg := { s.pkg with
    density := (List.range 4).map fun i => o.density.getD i 0
    bondedOk := [true, true, true, true] } }
  let s := o.stackFail.foldl (fun s d => if d < 4 then memoryFailed s d d else s) s
  (List.range 4).foldl (fun s i =>
    let bad := o.channelFail.filter fun c => c < 48 && channelDie c == 4 + i
    match bad with
    | c :: _ => memoryFailed s (4 + i) c
    | [] => if o.density.getD i 0 = 0 then memoryFailed s (4 + i) (if i < 2 then 8 * i else 16 * (i - 1))
        else s) s

/-- Domains at boot (R71 step 1, R46): A, S and H domains at their ceiling; ED1's index 5 is held off. -/
def bootDomains (s : State) : State :=
  (List.range 96).foldl (fun s n =>
    setDomain s n { on := n != 95, vindex := ceilingIndex (domainClass n) }) s

/-- Step 2 of R71: every pace sensor against its siblings, sample after sample, with what R48 does at the tenth sample
in a row in which a sensor deviates. -/
def bootSensors (s : State) (readings : List (Nat × List Nat)) : State :=
  readings.foldl (fun s r =>
    if r.1 ≥ 96 || sensorCount r.1 = 0 || r.2.length != sensorCount r.1 then s
    else
      let s := modDomain s r.1 fun x => { x with deviation := countDeviations x.deviation r.2 }
      ((List.range r.2.length).filter fun i =>
        !(domain s r.1).excluded.contains i && tget 0 (domain s r.1).deviation i ≥ 10).foldl (fun s i =>
        excludeSensor s r.1 i) s) s

/-- Guaranteed pace of a class [Mbeat/s] (R45). -/
def guaranteedPace : VClass → Nat
  | .a => 1600 | .s => 1200 | .h => 1200 | _ => 0

/-- A domain whose measured pace at the ceiling is below 1.06 × the guaranteed pace of its class (R71 step 4). -/
def slowDomain (s : State) (n : Nat) : Bool :=
  let e := paceEntry (domain s n) (ceilingIndex (domainClass n))
  e.tag != 0 && e.pace * 100 < 106 * guaranteedPace (domainClass n)

/-- Step 4 of R71: the units of a slow domain are fenced; the equaliser, coding and beam units of a radio die have no
unit number, and their loss is the die's (R267). -/
def fenceSlow (s : State) (n : Nat) : State :=
  if (domainUnits n).isEmpty then (if domainClass n == .s then radioFenced s (domainDie n - 4) else s)
  else bootFence s (domainUnits n) 4

/-- Steps 2 to 4 of R71: sensors, pace tables tagged LIGHT, domains that are too slow. -/
def bootPace (s : State) (o : BootObs) : State :=
  let s := bootSensors s o.sensors
  let s := o.pace.foldl (fun s x =>
    if x.1 < 96 && x.2.1 ≤ ceilingIndex (domainClass x.1) && ceilingIndex (domainClass x.1) != 0 then
      modDomain s x.1 fun d => { d with
        table := tset {} d.table x.2.1
          { tag := 1, temp := Nat.min 255 x.2.2.2, pace := x.2.2.1 % 65536 }
        live := if x.2.1 = d.vindex then x.2.2.1 else d.live }
    else s) s
  let s := ((List.range 96).filter (slowDomain s)).foldl fenceSlow s
  (List.range 4).foldl (fun s d =>
    if (dieUnits d).all (isFenced s) && !s.hlt.hr.dies.contains d then noteDie s d 0x011 else s) s

/-- Step 5 of R71: the first energy window opens with no debt and with F = B, which leaves tenants nothing (R60). -/
def bootWindow (s : State) : State :=
  { s with pwr := { s.pwr with
    budget := s.pwr.cap, fixed := s.pwr.cap, precharge := 0, debt := 0, grant := 0, remaining := 0, windows := 1 } }

/-- Step 3 of R135 (R120, R424): radio firmware loads the radio models into the radio region of every unfenced
pocket. -/
def loadModels (s : State) (models : List Byte) : State :=
  ((List.range 16).filter fun e => !isFenced s e).foldl (fun s e =>
    physWrite s (pocketKey e ((64 - cfgRadioMb s) * 2 ^ 20)) models) s

/-- Host cores run their fittings at boot (R169). -/
def bootFittings (s : State) : State :=
  ((List.range 16).filter fun k => !isFenced s (96 + k)).foldl (fun s k =>
    modUnit s (96 + k) fun x => { x with fitDue := true }) s

/-- Units of the fence list are fenced as confirmed, cause 6 (R414, R420 step 2). -/
def bootFenceList (s : State) : State :=
  s.hlt.hr.fenceList.foldl (fun s u => fenceUnit s u .confirmed 6) s

/-- Sources 0–127 are Tacor's own, routed to it at boot (R379, notes/assumptions/17.md). -/
def bootRoutes (s : State) : State :=
  { s with mgt := { s.mgt with
    routes := (List.range 128).foldl (fun t n => tset 0 t n (pack 32 [(31, 1)])) s.mgt.routes
    cores := (List.range 4).foldl (fun t n => tset {} t n { enable := true }) s.mgt.cores } }

/-- Step 8 of R423: Tacor RUNNING, BOOT as record 0, the score; step 9: sleeve 0. -/
def bootRunning (s : State) (o : BootObs) : State :=
  let e := (currentEntry s).getD { incarnation := 0, cause := 0, counted := false, stamp := none }
  let s := { s with
    boot := { s.boot with phase := .booted, stage := 9, radioFw := o.radioFw
                          sleeve0 := o.radioFw && !s.hlt.hr.withdrawn && !s.boot.minimal }
    mgt := { s.mgt with tacor := 1 }
    hlt := { s.hlt with runningAt := now s } }
  let s := refreshHealth s
  let s := recordEvent s { code := 0x001, severity := 0, d0 := e.cause, d1 := countedBoots s
                           raw := now s }
  let s := bootRoutes s
  let s := portsBoot s
  stampEntry (refreshHealth (if s.boot.sleeve0 then radioBoot s else s))

/-- Steps 5 to 9 of R423 with an image whose header, signature and stage 1 have been checked. A later
section that fails its digest goes back to the boot mailbox (R428, R441). -/
def bootFrom (s : State) (b : List Byte) (host : Bool) (o : BootObs) : State :=
  if !digestsOk b fun _ => true then
    { s with boot := { s.boot with
      phase := .waitingImage, stage := 4, request := true, hostSource := false
      result := statusCode .checkFailed
      rejected := if host then Nat.min 1023 (s.boot.rejected + 1) else s.boot.rejected } }
  else
    let s := { s with boot := { s.boot with
      image := some { bytes := b, host := host }, hostSource := host, request := false
      result := 0, phase := .released } }
    let s := bootMemories s o
    let s := bootWindow (bootPace s o)
    let s := bootFenceList s
    let s := s.hlt.hr.dies.foldl dropDie s
    let s := physWrite s (memKey 4 (6 * 2 ^ 20)) (secOf b 2)
    let s := bootFence s (o.testFail.filter (· < 124)) 4
    let s := if o.radioFw then loadModels s (secOf b 5) else s
    bootRunning (bootFittings s) o

end Sys2Proof.Machine
end

