-- ==== Sys2Proof/Machine/BootCmds.lean ====
section
/-! DEFINITION. Power-up, resets, boot, images, identity, attestation and the JTAG port (chapters 14 and
15): R421–R441, R451–R457, R463; supply and thermal trips R67, R68. -/

namespace Sys2Proof.Machine

/-! ### Balls, rails and resets -/

/-- POWER_UP (R421, R451, R454): rails reached, REFCLK_156 stable, CARD_RESET_N high; ED0 is released and
the raw counter starts at 0, unless THERMTRIP_N is asserted (R457). -/
def execPowerUp (s : State) : Host.Outcome State Fault Refusal :=
  .next <|
    let p := { s.pins with railsOk := true, refclk := true, cardResetN := true, jtagBalls := false }
    if s.boot.phase != .held then s
    else if p.thermtrip then { s with pins := p }
    else { s with pins := p, boot := { s.boot with phase := .released }, tim := { s.tim with raw := 0 } }

/-- CARD_RESET (R453): 156 consecutive low samples; the device stays in reset while the ball is low. -/
def execCardReset (samples : Nat) (s : State) : Host.Outcome State Fault Refusal :=
  .next <|
    if samples < 156 then s
    else
      let s' := { s with pins := { s.pins with cardResetN := false } }
      if s.boot.phase == .held then s' else deviceReset s' (some 2)

/-- REFCLK_LOST (R454, R328). -/
def execRefclkLost (ns ppm : Nat) (s : State) : Host.Outcome State Fault Refusal :=
  .next <|
    if ns < 100 && ppm ≤ 1000 then s
    else
      let s' := { s with pins := { s.pins with refclk := false } }
      if s.boot.phase == .held then s' else deviceReset s' (some 6)

/-- RAIL_FAULT (R452): a device reset without an end cause; THERMTRIP_N follows VDD_IO_1V8 by R457. -/
def execRailFault (_rail : Rail) (s : State) : Host.Outcome State Fault Refusal :=
  .next <|
    let s' := { s with pins := { s.pins with railsOk := false } }
    if s.boot.phase == .held then s' else deviceReset s' none

/-- BROWN_OUT (R68): every domain off, a device reset. -/
def execBrownOut (s : State) : Host.Outcome State Fault Refusal :=
  .next <|
    let s' := { s with pins := { s.pins with railsOk := false } }
    if s.boot.phase == .held then s' else deviceReset s' none

/-- THERMAL_TRIP (R67, R457): THERMTRIP_N low, every domain off, held in reset; no record. -/
def execThermalTrip (tj : Nat) (s : State) : Host.Outcome State Fault Refusal :=
  .next <|
    if tj < 110 || s.boot.phase == .held then s
    else emit (deviceReset { s with pins := { s.pins with thermtrip := true } } none)
      (.ball "THERMTRIP_N" false)

/-- THERMTRIP_RELEASE (R457): VDD_IO_1V8 is below 1.0 V. -/
def execThermtripRelease (s : State) : Host.Outcome State Fault Refusal :=
  .next <|
    if !s.pins.thermtrip then s
    else emit { s with pins := { s.pins with thermtrip := false, railsOk := false } }
      (.ball "THERMTRIP_N" true)

/-! ### State of the balls (R464) -/

/-- The ball groups of R464. -/
inductive BallGroup where
  | serdesTx | serdesRx | cxl | lpClock | lpData | lpResetN | xspiClk | xspiCsN | xspiResetN | xspiData | ppsOut
  | synceOut | uartTx | i3c | thermtripN | jtagTdo
  deriving DecidableEq, Repr

/-- What a ball does: outside reset it serves its interface. -/
inductive BallLevel where
  | undriven | highZ | txOff | terminated | idle | low | high | tap | serving
  deriving DecidableEq, Repr

/-- The column "Unpowered" of R464. -/
def ballUnpowered : BallGroup → BallLevel
  | .serdesRx | .lpData | .xspiData | .i3c => .highZ
  | _ => .undriven

/-- The column "In reset, rails up" of R464. -/
def ballInReset : BallGroup → BallLevel
  | .serdesTx => .txOff
  | .serdesRx => .terminated
  | .cxl => .idle
  | .lpClock | .lpResetN | .xspiClk | .xspiResetN | .ppsOut | .synceOut => .low
  | .xspiCsN | .uartTx => .high
  | .lpData | .xspiData | .i3c => .highZ
  | .thermtripN => .undriven
  | .jtagTdo => .tap

/-- The column "After THERMTRIP" of R464. -/
def ballTripped : BallGroup → BallLevel
  | .thermtripN => .low
  | g => ballInReset g

/-- State of a ball group (R464). Rails that are not all within their limits stand for an unpowered device
(notes/assumptions/98.md). LP_RESET_N and XSPI_RESET_N stay low in the boot until the memories train and the flash is
read (R458, R461); THERMTRIP_N is driven in a trip alone (R457). -/
def ballState (s : State) (g : BallGroup) : BallLevel :=
  if s.pins.thermtrip then ballTripped g
  else if !s.pins.railsOk then ballUnpowered g
  else if s.boot.phase == .held then ballInReset g
  else match g with
    | .thermtripN => .undriven
    | .jtagTdo => .tap
    | .lpResetN => if s.boot.phase == .booted then .serving else .low
    | .xspiResetN => if s.boot.phase == .released then .low else .serving
    | _ => .serving

/-! ### Boot -/

/-- What the ROM reads from the flash (R427, R430): what this device has written to it or read from it before, else the
operand; nothing where the flash cannot be read. -/
def flashRead (s : State) (flash : List Byte) : List Byte :=
  match s.boot.flash with
  | some (b :: r) => if flash.isEmpty then [] else b :: r
  | _ => flash

/-- Outcome of the check of the flash image (R425, R427): a flash whose write was interrupted holds no valid image
(R430). -/
def flashStatus (s : State) (flash : List Byte) : Status :=
  let st := checkImage s (flashRead s flash)
  if s.boot.flash == some [] && st == .ok then .checkFailed else st

/-- COLD_BOOT (R423). The boot waits at step 2 while a core rail is below 1.71 V; a flash image that
fails any check leaves the ROM waiting in the boot mailbox (R427, R428). -/
def execColdBoot (flash : List Byte) (o : BootObs) (s : State) : Host.Outcome State Fault Refusal :=
  .next <|
    if s.boot.phase != .released then s
    else if !o.coreRailOk then { s with boot := { s.boot with stage := 2 } }
    else
      let s := bootHealth (bootDomains (emit s (.uart "ROM" 0)))
      let s := emit s (.uart "boot" s.hlt.hr.incarnation)
      let s := emit s (.uart "cause" (((currentEntry s).map (·.cause)).getD 0))
      let s := { s with boot := { s.boot with
        config := nextConfig s.nvm, configDefault := (validCopy s.nvm).isNone, types := o.types } }
      let s := bootSeams s (seamsFailed o)
      let st := flashStatus s flash
      let s := emit s (.uart "image" (statusCode st))
      if st != .ok then
        { s with boot := { s.boot with
          phase := .waitingImage, stage := 4, request := true, result := statusCode st } }
      else bootFrom { s with boot := { s.boot with flash := some (flashRead s flash) } } (flashRead s flash) false o

/-- GO written to the boot mailbox (R427, R428): the ROM asks the host for the image; a second GO while its check runs
is ignored. -/
def postImage (s : State) : State :=
  if s.boot.phase != .waitingImage || s.boot.posted then s
  else emit { s with boot := { s.boot with posted := true } }
    (.notice "boot image read" s.boot.mboxAddr.toNat s.boot.mboxLen.toNat)

/-- BOOT_MBOX_GO (R428): the ROM reads and checks the host's image. -/
def execBootMboxGo (image : List Byte) (down : Bool) (o : BootObs) (s : State) :
    Host.Outcome State Fault Refusal :=
  .next <|
    if s.boot.phase != .waitingImage || !s.mgt.cxlUp then s
    else if down then
      linkDown { s with boot := { s.boot with result := statusCode .timeout, posted := false } }
    else
      let s := { s with boot := { s.boot with posted := false } }
      let b := image.take s.boot.mboxLen.toNat
      let st := mboxStatus s b
      let s := emit s (.uart "image" (statusCode st))
      if st != .ok then
        { s with boot := { s.boot with
          result := statusCode st, rejected := Nat.min 1023 (s.boot.rejected + 1) } }
      else bootFrom s b true o

/-! ### Boot commands (R440) -/

/-- Bytes 0–575 of the image in use. -/
def imageHead (s : State) : List Byte :=
  match s.boot.image with
  | some i => imgBytes i.bytes 0 576
  | none => List.replicate 576 0

/-- The flash holds the image in use (R431): the SHA-256 of bytes 0–575 of both is the same. An image that came from the
host is not reloaded. -/
def flashMatches (s : State) : Bool :=
  !s.boot.hostSource && s.boot.flash.any fun b => sha256 (imgBytes b 0 576) == sha256 (imageHead s)

/-- TACOR_RESTART_DONE (R377, R378, R431): an image that fails re-verification is reloaded from the flash, when that can
be read and its header is the one in use; otherwise the device resets with TACOR_FAIL. -/
def execTacorRestartDone (imageOk flashOk : Bool) (s : State) :
    Host.Outcome State Fault Refusal :=
  .next <|
    if s.mgt.tacor != 2 then s
    else if !imageOk && !(flashOk && flashMatches s) then deviceReset s (some 5)
    else
      let s := if imageOk then s else physWrite s (memKey 4 (6 * 2 ^ 20)) (secOf (s.boot.flash.getD []) 2)
      let s := tacorBack { s with mgt := { s.mgt with tacor := 1 } }
      postEvent (releaseRestartHolds (readJournal s)) 4 0 0

/-- BOOT_STATUS (R440, R466). -/
def execBootStatus (cmd : Cmd) (s : State) : Host.Outcome State Fault Refusal :=
  .next <| serve 0x500 0 isMgmtRadio cmd s fun _ s =>
    .ok s ([w64 (bootReg s)] ++ wordsOf 8 (imageHead s) ++
      [w64 s.nvm.otpFloor, w64 (b2n s.boot.configDefault)])

/-- BOOT_CONFIG_READ (R440): the record in force, then the record for the next boot. -/
def execBootConfigRead (cmd : Cmd) (s : State) : Host.Outcome State Fault Refusal :=
  .next <| serve 0x501 1 isMgmt cmd s fun p s =>
    match writeArg s p (arg cmd 0) (bytesOf (s.boot.config ++ nextConfig s.nvm)) with
    | .ok s => .ok s []
    | .error e => .fail e

/-- The input of a command that may come from a sideband area (R387, R440): from the sideband, a source
word of 0 names the area (notes/assumptions/18.md). -/
def readSource (s : State) (cmd : Cmd) (p : Party) (a : W64) (area len : Nat) :
    Except Status (List Byte) :=
  if p == .bmc && a == 0 then
    if len > areaSize area then .error .badField
    else if eccHit s (areaBase area) len then .error .checkFailed
    else .ok (physRead s (areaBase area) len)
  else readArg s p cmd.hostData a len

/-- A record as the FL8 writes it (R433): MAGIC, the next SEQ and the CRC supplied. -/
def sealConfig (n : Nvm) (ws : List W64) : List Byte :=
  let seq := match validCopy n with | some c => copySeq c + 1 | none => 0
  let body := bytesOf (pack 64 [(32, 0x42434647), (0, seq % 2 ^ 32)] ::
    (List.range 30).map fun i => wd ws (i + 1))
  body ++ bytesOf [pack 64 [(32, crc32c body)]]

/-- The record is written over the copy that is not the newest valid one (R432, R433). -/
def writeCopy (n : Nvm) (c : List Byte) : Nvm :=
  match validCopy n with
  | some v => if v == n.copyA then { n with copyB := c } else { n with copyA := c }
  | none => { n with copyA := c }

/-- BOOT_CONFIG_SET (R433). -/
def execBootConfigSet (cmd : Cmd) (s : State) : Host.Outcome State Fault Refusal :=
  .next <| serve 0x502 1 isMgmt cmd s fun p s =>
    checked [(s.pwr.inhibit, .busy)] <|
      match readSource s cmd p (arg cmd 0) 0 256 with
      | .error e => .fail e
      | .ok bs =>
        let ws := wordsOf 32 bs
        checked [(configBad ws, .badField)] <|
          .ok { s with nvm := writeCopy s.nvm (sealConfig s.nvm ws) } []

/-- BOOT_IMAGE_UPDATE (R430): the image is checked, then the flash write runs. -/
def execBootImageUpdate (cmd : Cmd) (s : State) : Host.Outcome State Fault Refusal :=
  .next <| serve 0x503 2 isMgmt cmd s fun p s =>
    checked [(s.boot.update.isSome, .busy),
        (argN cmd 1 > 33554432 || argN cmd 1 = 0, .badField)] <|
      match readSource s cmd p (arg cmd 0) 1 (argN cmd 1) with
      | .error e => .fail e
      | .ok bs =>
        match checkImage s bs with
        | .ok => .defer fun s => { s with boot := { s.boot with update := some (bs, cmd.src) } }
        | st => .fail st

/-- FLASH_WRITE_DONE (R430): OK, or TIMEOUT when the readback differs. -/
def execFlashWriteDone (readbackOk : Bool) (s : State) : Host.Outcome State Fault Refusal :=
  .next <|
    match s.boot.update with
    | none => s
    | some (bs, src) =>
      let s := emit s (.flashWrite 0 bs)
      let s := { s with boot := { s.boot with
        update := none, flash := if readbackOk then some bs else none } }
      finishLater s src (if readbackOk then .ok else .timeout) []

/-- BOOT_ROLLBACK_COMMIT (R429): the floor rises to the SVN of the running image. -/
def execBootRollbackCommit (cmd : Cmd) (s : State) : Host.Outcome State Fault Refusal :=
  .next <| serve 0x504 0 isMgmt cmd s fun _ s =>
    checked [(s.pwr.inhibit, .busy)] <|
      .ok { s with nvm := { s.nvm with otpFloor := Nat.max s.nvm.otpFloor (imgSvn (imageHead s)) } } []

/-- Type code that a die reports (R14, R422). -/
def dieType (s : State) (d : Nat) : Nat :=
  ((s.boot.types.find? (·.1 == d)).map (·.2 % 16)).getD (if d < 4 then 1 else if d < 6 then 2 else 3)

/-- ID_DIE0 and ID_DIE1 of a die (R434). -/
def idDie0 (d : Nat) : Nat := fld (Config.fused (2 * d)) 31 3 * 8
def idDie1 (s : State) (d : Nat) : Nat :=
  fld (Config.fused (2 * d + 1)) 31 16 * 2 ^ 16 + dieType s d * 2 ^ 12 + fld (Config.fused (2 * d + 1)) 11 8 * 2 ^ 8
/-- ID_SERIAL (R435). -/
def idSerial : W64 := Config.fused 16
/-- ID_PCI (R435): device ID 0x0F08 and Dravyon's PCI-SIG vendor ID. -/
def idPci : Nat := 0x0F08 * 2 ^ 16 + fld (Config.fused 17) 15 0

/-- The 256-byte attestation report (R437). -/
def attestReport (s : State) (nonce : List W64) (index : Nat) : List W64 :=
  [pack 64 [(32, 0x41545331), (16, 1), (0, 5716)]] ++
  (List.range 4).map (fun i => wd nonce i) ++
  [idSerial,
   pack 64 [(32, s.hlt.hr.incarnation), (24, s.nvm.otpFloor), (21, s.hlt.level), (11, s.hlt.score),
     (1, b2n s.boot.hostSource), (0, b2n s.hlt.hr.withdrawn)],
   s.tim.raw] ++
  (List.range 8).map (fun d => pack 64 [(32, idDie0 d), (0, idDie1 s d)]) ++
  wordsOf 4 (sha256 (imageHead s)) ++ wordsOf 4 (sha256 (bytesOf s.boot.config)) ++
  [w64 index] ++ List.replicate 7 0

/-- ATTEST (R437, R438): the index is spent in the NVM before the signature is computed. -/
def execAttest (cmd : Cmd) (s : State) : Host.Outcome State Fault Refusal :=
  .next <| serve 0x505 5 isMgmt cmd s fun p s =>
    let i := s.nvm.attestIndex
    checked [(s.pwr.inhibit, .busy), (s.nvm.attestBad, .checkFailed), (i ≥ 2 ^ 40, .noSpace)] <|
      match checkArg s p .wr (arg cmd 4) 5972 with
      | some e => .fail e
      | none =>
        let report := bytesOf (attestReport s (cmd.args.take 4) i)
        let s := { s with nvm := { s.nvm with attestIndex := i + 1 } }
        match writeArg s p (arg cmd 4)
            (report ++ ((Config.attestSign i report) ++ List.replicate 5716 0).take 5716) with
        | .ok s => .ok s []
        | .error e => .failIn s e []

/-- ATTEST_KEY_READ (R436). -/
def execAttestKeyRead (cmd : Cmd) (s : State) : Host.Outcome State Fault Refusal :=
  .next <| serve 0x506 1 isMgmt cmd s fun p s =>
    match writeArg s p (arg cmd 0) Config.attestCert with
    | .ok s => .ok s []
    | .error e => .fail e

/-- ID_READ (R435): the identity registers of each die, the package's, and HLT_INCARNATION. -/
def execIdRead (cmd : Cmd) (s : State) : Host.Outcome State Fault Refusal :=
  .next <| serve 0x507 0 isMgmtRadio cmd s fun _ s =>
    .ok s ((List.range 8).flatMap (fun d => [w64 (idDie0 d), w64 (idDie1 s d)]) ++
      [idSerial, w64 idPci, w64 s.hlt.hr.incarnation])

/-! ### JTAG (R439) -/

/-- A TAP instruction, while the rails are up. -/
def tap (s : State) (code : Nat) (k : State → State) : State :=
  if !s.pins.railsOk then s else k { s with boot := { s.boot with jtag := code } }

/-- BYPASS. -/
def execBypass (s : State) : Host.Outcome State Fault Refusal :=
  .next <| tap s 0 fun s => emit s (.jtag 0)

/-- The IDCODE word: ED0 stepping, 0x0F08, the JEDEC manufacturer code, 1. -/
def idcodeWord : Nat :=
  stepping 6 * 2 ^ 28 + 0x0F08 * 2 ^ 12 + fld (Config.fused 18) 10 0 * 2 + 1

/-- IDCODE. -/
def execIdcode (s : State) : Host.Outcome State Fault Refusal :=
  .next <| tap s 1 fun s => emit s (.jtag idcodeWord)

/-- SAMPLE/PRELOAD: the sampled balls, whose order in the scan chain the spec does not give (free). -/
def execSamplePreload (s : State) : Host.Outcome State Fault Refusal :=
  .next <| tap s 2 fun s =>
    let r := takeFree s 20
    emit r.2 (.jtag r.1.toNat)

/-- EXTEST drives the balls while CARD_RESET_N is low, and is BYPASS at any other time. -/
def execExtest (s : State) : Host.Outcome State Fault Refusal :=
  .next <|
    if s.pins.cardResetN then tap s 0 fun s => emit s (.jtag 0)
    else tap s 3 fun s => { s with pins := { s.pins with jtagBalls := true } }

end Sys2Proof.Machine
end

