-- ==== Sys2Proof/Machine/EngineOps.lean ====
section
/-! DEFINITION. Engines at work, shared by the rows of chapter 04 and by the referee of chapter 05: the
access of a context, the course of a chain descriptor, the choice and start of passes, what a pass
leaves at its boundary, and disputes. R57, R62, R101–R117, R136, R142–R152. -/

namespace Sys2Proof.Machine

/-! ### Accesses of a context (R31, R32, R160) -/

/-- Who a context's accesses come from. -/
def slotIssuer (s : State) (x : Slot) : Issuer :=
  { sleeve := x.sleeve, job := x.job, gen := (job s x.job).gen }

/-- A drop counted in STALE_GENERATION (R32). -/
def countStale (s : State) : State := { s with pkg := { s.pkg with staleGen := s.pkg.staleGen + 1 } }

/-- ECC_UNCORRECTABLE met by a context of an engine (R160, R392, R394): its sleeve and job, CHECK_FAILED. -/
def contextEcc (s : State) (e i addr : Nat) : State :=
  let x := slot s e i
  raise s { code := 0x006, severity := 2, sleeve := some x.sleeve
            job := if x.job = 0 then none else some (x.job, (job s x.job).gen)
            status := statusCode .checkFailed, die := unitDie e, unit := e, d0 := addr
            d1 := (Config.readerKind 0).toNat }

/-- What a failed access of a context does (R32, R160). An access to a page in move waits (`contextBar`). -/
def barFault (s : State) (e i addr : Nat) (b : Bar) : State :=
  let x := slot s e i
  match b with
  | .wait => s
  | .stale => countStale s
  | .denied => faultSlot s e i .denied addr
  | .dataEcc =>
    faultSlot (contextEcc s e i addr) e i .checkFailed addr
  | _ =>
    let s := faultSlot s e i .denied addr
    if x.sleeve = 0 || (sleeve s x.sleeve).st == .resetting || (sleeve s x.sleeve).st == .removing
    then s else sleeveResetOp s x.sleeve .denied none

/-- A failed access of a context's command: one to a page in move waits, in arrival order, with the command (R31
condition 4, R34). -/
def contextBar (s : State) (e i addr len : Nat) (c : Instr) (b : Bar) : State :=
  if b == .wait then park s addr len (.command c) else barFault s e i addr b

/-- An uncorrectable word met by a pass, the DMA or the element engine (R136, R160). -/
def pocketEcc (s : State) (e i : Nat) : State :=
  faultSlot (contextEcc s e i 0) e i .checkFailed

/-- A ring holds an entry that the engine has not fetched: `ahead` entries have been. -/
def ringReady (r : Ring) (ahead : Nat) : Bool :=
  (r.tail + (r.entries + 1) - r.head) % (r.entries + 1) > ahead

/-- Address of the entry after `ahead` fetched ones. -/
def ringEntry (r : Ring) (bytes ahead : Nat) : Nat :=
  r.addr + bytes * ((r.head + ahead) % (r.entries + 1))

/-- A ring entry of n words is fetched under R31 (R124), once a tracker of the sleeve's share is free (R36): the command
runs when it is what the ring holds (notes/assumptions/65.md). -/
def fetchEntry (s : State) (e i addr n : Nat) (c : Instr) (d : List W64) (k : State → State) : State :=
  if !unitTracker s e (slot s e i).sleeve then s
  else match devRead s (slotIssuer s (slot s e i)) addr (8 * n) with
  | .error b => contextBar s e i addr (8 * n) c b
  | .ok bs => if wordsOf n bs == d then k s else s

/-- HEAD moves past one completed entry (R124). -/
def ringNext (r : Ring) : Ring := { r with head := (r.head + 1) % (r.entries + 1) }

/-- A context is held by the replay of a stall on its engine, or by that of a suspect that has moved there to run alone
(R399). -/
def stallHeld (s : State) (e i : Nat) : Bool :=
  (match tget none s.hlt.stalls e with
  | none => false
  | some t => t.held.contains i && t.suspects.head? != some i) ||
  (i < 4 && s.hlt.stalls.any fun q => q.2.any fun t =>
    t.moved.any (fun m => m.2.1 == e) && !t.moved.any fun m => m.2 == (e, i))

/-- The feeder begins a descriptor; the timer of an engine that had none at work starts with it (R397). -/
def feederStarts (s : State) (e i : Nat) : State :=
  let idle := (engine s e).pass.isNone && (List.range 5).all fun k => (slot s e k).run.isNone
  let s := modSlot s e i fun x => x.starts (now s)
  if idle then modEngine s e fun y => { y with timerAt := now s } else s

/-- The slot holds a context at work: not held by a referee or a replay, its job RUNNING (R136, R189,
R399). -/
def slotRuns (s : State) (e i : Nat) : Bool :=
  let x := slot s e i
  e < 16 && i < 5 && x.valid && !x.refHold && !x.moveOwed && !stallHeld s e i &&
  (x.job == 0 || ((job s x.job).st == .running && (job s x.job).barrierStep.isNone))

/-- The context may fetch its next descriptor: no rerun is owed to it (R115). -/
def slotFree (s : State) (e i : Nat) : Bool := slotRuns s e i && !(slot s e i).rerunOwed

/-! ### The course of a chain descriptor (R109, R112) -/

/-- Passes of a phase (R109): an MX anchor phase runs only when an element is windowed. -/
def phasePasses (s : State) (x : Slot) (e : Nat) (d : List W64) (phase : Nat) : Nat :=
  match phase with
  | 1 => scalePasses d
  | 2 => if isMx (cFmtA d) && !anyWindowed s x e d then 0 else cTiles d
  | _ => cTiles d

/-- A chain descriptor has ended: HEAD advances; CLOSE ends the chain (R112, R397). -/
def endChain (s : State) (e i : Nat) (d : List W64) : State :=
  modSlot s e i fun x =>
    let x := { x with run := none, fring := ringNext x.fring }.completes (now s)
    if cClose d then { x with chainOpen := false, phase := 0, products := 0, chainK := 0 } else x

/-- A phase is entered: the anchor phase of a chain begins with its classification (R109), whose words must lie in
the partition (R126) and be readable (R136). -/
def enterPhase (s : State) (e i : Nat) (d : List W64) (phase : Nat) : State :=
  let x := slot s e i
  if phase = 2 && x.phase < 2 then
    if !(classifyRuns d).all fun r => inPart x r.1 r.2 then faultSlot s e i .denied
    else if (classifyRuns d).any fun r => eccHit s (partKey x e r.1.toNat) r.2 then pocketEcc s e i
    else
    let r := classify s x e d
    modSlot (addCounts r.1 x.job {} r.2) e i fun x => { x with phase := 2 }
  else modSlot s e i fun x => { x with phase := Nat.max x.phase (if phase = 1 then 0 else phase) }

/-- The run goes on to the first phase that has a pass left; without one the descriptor ends. `fuel`
counts phases. -/
def settleRun (e i : Nat) : Nat → State → State
  | 0, s => s
  | fuel + 1, s =>
    match (slot s e i).run with
    | none => s
    | some r =>
      match r.phases with
      | [] => endChain s e i r.desc
      | p :: rest =>
        let s := if r.next = 0 then enterPhase s e i r.desc p else s
        if (slot s e i).run.isNone || r.next < phasePasses s (slot s e i) e r.desc p then s
        else settleRun e i fuel (modSlot s e i fun x => { x with
          run := some { r with phases := rest, next := 0, started := 0 } })

/-- The phase and the number of the pass that the slot starts next: passes of one phase start one behind the other
(R105); a later phase and the next descriptor wait for the boundary of the last one (notes/assumptions/66.md). -/
def nextPass (x : Slot) : Option (List W64 × Nat × Nat) :=
  match x.run with
  | some r => match r.phases with
    | p :: _ =>
      if r.started < (if p = 1 then scalePasses r.desc else cTiles r.desc) then some (r.desc, p, r.started) else none
    | [] => none
  | none => none

/-- PASS_KIND of a phase (R132): 0 product, 1 anchor, 2 scale. -/
def kindOf (phase : Nat) : Nat := if phase = 1 then 2 else if phase = 2 then 1 else 0

/-! ### Starting a pass -/

/-- Format group of a pass in the energy table (R465). -/
def energyGroup (d : List W64) (phase : Nat) : Nat :=
  if phase != 3 then 3
  else if isTwoProduct (cFmtA d) then 1
  else if cFmtA d == 0x08 || cFmtA d == 0x09 then 2 else 0

/-- Entry of the energy table [pJ per beat]: 16 bits, 0 above the class ceiling (R465). -/
def energyEntry (dom group index : Nat) : Nat :=
  if index > ceilingIndex (domainClass dom) then 0
  else Config.energyTable dom group index % 65536

/-- Array domain of an engine (R44). -/
def arrayDomain (e : Nat) : Nat := unitDomain e

/-- The energy estimate of a pass [pJ] with its 10 % at a voltage index (R62), and at the present one. -/
def passEnergyAt (e : Nat) (d : List W64) (phase index : Nat) : Nat :=
  passBeats d * energyEntry (arrayDomain e) (energyGroup d phase) index * 11 / 10
def passEnergy (s : State) (e : Nat) (d : List W64) (phase : Nat) : Nat :=
  passEnergyAt e d phase (domain s (arrayDomain e)).vindex

/-- The job of a slot has started: one of its contexts has run a pass, or a step has ended (R62). -/
def jobStarted (s : State) (h : Nat) : Bool :=
  (job s h).lastBoundary.isSome || (job s h).step != 0 ||
  (job s h).ctxs.any fun c => (slot s c.1 c.2).lastStart != 0

/-- The engine's array is fenced or at work with a fitting. -/
def engineStops (s : State) (e : Nat) : Bool := isFenced s e || (unitSt s e).fit.any fun f => f.current.isSome

/-- Fittings are due ahead of tenant passes, and never ahead of radio work (R169). -/
def fittingsAhead (s : State) (e : Nat) : Bool := (unitSt s e).fit.any fun f => f.urgent

/-- What the throttle levels leave to a tenant context of an engine (R62, R65, R66): no job that has not started from
level 1 on, no paced or cadence work from level 2 on, nothing at level 3. -/
def levelAllows (s : State) (e i : Nat) : Bool :=
  let x := slot s e i
  let level := (engine s e).throttle
  ((diePwr s (unitDie e)).level == 0 || jobStarted s x.job) && level < 3 &&
  (level < 2 || !(x.paced || (job s x.job).cadence.isSome))

/-- A tenant pass may start on an engine under its lease, the throttle level in force on it, its core rail, the
referee's and replay's holds, and behind a referee pass that is due (R62, R65, R66, R116, R147, R448). -/
def tenantOk (s : State) (e i : Nat) : Bool :=
  slotRuns s e i && (nextPass (slot s e i)).isSome && !fittingsAhead s e && !(engine s e).leased &&
  !railBound s (unitDie e) && levelAllows s e i && !refereeDue s e

/-- A free pass of a slot is ready and fits what remains of the grant (R61, R62). -/
def freeReady (s : State) (e i : Nat) : Bool := i < 4 && !(slot s e i).paced && tenantOk s e i
def freeFits (s : State) (e i : Nat) : Bool :=
  match nextPass (slot s e i) with
  | some (d, p, _) => passEnergy s e d p ≤ s.pwr.remaining
  | none => false

/-- A job has been passed over for energy in 20 windows in a row (R62). -/
def isPassedOver (s : State) (e i : Nat) : Bool := tget 0 s.pwr.passedOver (slot s e i).job ≥ 20

/-- Candidates of R62 step 1 in order: jobs passed over for 20 windows, then by credit, highest first;
equal credit by ascending slot (R186). -/
def candidatesOf (s : State) (e : Nat) : List Nat :=
  sortBy (fun a b =>
    let pa := isPassedOver s e a
    let pb := isPassedOver s e b
    if pa != pb then pa
    else decide ((slot s e a).credit > (slot s e b).credit) ||
      ((slot s e a).credit == (slot s e b).credit && a ≤ b))
    ((List.range 4).filter (freeReady s e))

/-- The tenant pass chosen next (R62 step 3), within what remains of the grant also where the job has been passed over
for 20 windows (R61), and the jobs ahead of it that energy passed over. -/
def chooseTenant (s : State) (e : Nat) : Option Nat × List Nat :=
  let cs := candidatesOf s e
  (cs.find? (freeFits s e), (cs.takeWhile fun i => !freeFits s e i).map fun i => (slot s e i).job)

/-- Jobs passed over for energy in the current window (R62). -/
def passOver (s : State) (hs : List Nat) : State :=
  { s with pwr := { s.pwr with
    overNow := hs.foldl (fun l h => if l.contains h then l else l ++ [h]) s.pwr.overNow } }

/-- A job that energy passed over starts, and counts anew (R62). -/
def startsNow (s : State) (h : Nat) : State :=
  { s with pwr := { s.pwr with
    passedOver := tset 0 s.pwr.passedOver h 0, overNow := s.pwr.overNow.filter (· != h) } }

/-- The choice is made at a boundary (R62); a context with a pass ready that is not chosen is pre-empted
(R113). -/
def selectNext (s : State) (e : Nat) : State :=
  let c := chooseTenant s e
  let s := modEngine (passOver s c.2) e fun x => { x with nextSlot := c.1 }
  (List.range 4).foldl (fun s i =>
    if (slot s e i).valid then modSlot s e i fun x => { x with
      preempted := x.run.isSome && !x.paced && c.1.isSome && c.1 != some i } else s) s

/-- A register's content when tile t of a descriptor loads (R105). -/
def tileReg (s : State) (e i : Nat) (d : List W64) (t : Nat) : TileReg :=
  { slot := i, addr := tileAddr d t, orient := cOrient d, fmt := cFmtB d
    bytes := loadTile s (partKey (slot s e i) e (tileAddr d t)) (tileBytes (cFmtB d)) }

/-- A register holds the tile of a pass by its tag: the slot, the tile address and the orientation (R105, R107). A tile of
more bytes than were loaded loads again (notes/assumptions/66.md). -/
def TileReg.holds (r : TileReg) (i : Nat) (d : List W64) (t : Nat) : Bool :=
  r.slot == i && r.addr == tileAddr d t && r.orient == cOrient d && tileBytes (cFmtB d) ≤ tileBytes r.fmt

/-- The tile that a pass streams past: not loaded again when the active register holds it, out of the standby register
when that does, else loaded now (R105). -/
def tileFor (s : State) (e i : Nat) (d : List W64) (t : Nat) : TileReg :=
  match (engine s e).active.filter (·.holds i d t), (engine s e).standby.filter (·.holds i d t) with
  | some r, _ => r
  | none, some r => r
  | none, none => tileReg s e i d t

/-- The tile of the pass that follows in the descriptor: the next of the phase, or the first of the phase behind it; a
scale pass streams past block scales, not past a tile (R109). -/
def nextTile (x : Slot) (d : List W64) (phase t : Nat) : Option Nat :=
  if t + 1 < (if phase = 1 then scalePasses d else cTiles d) then (if phase = 1 then none else some (t + 1))
  else if (x.run.elim [] (·.phases)).length > 1 then some 0 else none

/-- The registers once the first row of a pass has entered (R105): its tile is active, and the tile of the pass that
follows in the descriptor loads into standby, unless the active register holds it. A scale pass holds block scales, no
tile. -/
def loadRegisters (s : State) (e i : Nat) (d : List W64) (phase t : Nat) : State :=
  let r := if phase = 1 then none else some (tileFor s e i d t)
  modEngine s e fun y => { y with
    active := r
    standby := match nextTile (slot s e i) d phase t with
      | none => none
      | some t' => if r.any (·.holds i d t') then none else some (tileReg s e i d t') }

/-- A pass enters the array: the next boundary is its own, or it comes behind those in flight. -/
def Engine.enter (y : Engine) (p : PassRun) : Engine :=
  match y.pass with
  | none => { y with pass := some p }
  | some _ => { y with behind := y.behind ++ [p] }

/-- The first stream row enters (R101, R105, R107, R186): the registers, the pass in flight, credit and
the energy of a free pass. A pass whose addresses leave the partition faults its context (R126); one on an engine whose
domains are off, or whose pace sensors have not passed since they came on, does not start yet (R46). -/
def startPass (s : State) (e i : Nat) : State :=
  let x := slot s e i
  match nextPass x with
  | none => s
  | some (d, p, n) =>
    if !passInside x d p n then faultSlot s e i .denied
    else if !engineAwake s e then wakeEngine s e
    else
      let s := if x.paced then s else { startsNow s x.job with pwr := { (startsNow s x.job).pwr with
        remaining := s.pwr.remaining - passEnergy s e d p } }
      let tile := if p = 1 then [] else (tileFor s e i d n).bytes
      let s := modEngine (loadRegisters s e i d p n) e fun y => y.enter {
        slot := i, kind := kindOf p, m := streamM d, paced := x.paced, desc := d, phase := p, index := n
        tile := tile }
      modSlot s e i fun x => { x with
        credit := x.credit - passBeats d, lastStart := now s, lateTick := false, preempted := false
        run := x.run.map fun r => { r with started := r.started + 1 } }

/-! ### The course of passes in flight -/

/-- The pass at its boundary has left the array. -/
def popPass (s : State) (e : Nat) : State :=
  modEngine s e fun y => { y with pass := y.behind.head?, behind := y.behind.tail }

/-- Passes of a slot that have started leave the array unfinished, and start again (R115). -/
def dropPasses (s : State) (e i : Nat) : State :=
  let s := modEngine s e fun y =>
    let all := (y.pass.toList ++ y.behind).filter fun p => p.slot != i
    { y with pass := all.head?, behind := all.tail }
  modSlot s e i fun x => { x with run := x.run.map fun r => { r with started := r.next } }

/-- A pass is discarded and owed to its context again, with what had started behind it (R115). -/
def discardPass (s : State) (e : Nat) (p : PassRun) : State :=
  modSlot (modEngine (dropPasses s e p.slot) e fun x => { x with reruns := x.reruns.add 0xFFFF 1 }) e p.slot
    fun x => { x with rerunOwed := x.run.isSome }

/-! ### Disputes (R147–R152) -/

/-- A dispute joins the others (R150, R151): the feeder ring is held. Of a radio pass, which waits for no referee, the
operands are kept as they stand, for the strike decision in tenant time (R152, notes/assumptions/68.md). A descriptor of
an element engine needs no staging: the dispute holds where its lanes went wrong. -/
def openDispute (s : State) (d : Dispute) : State :=
  let e := d.suspect % 16
  let s := if d.mandatory then s else countDisagree s d.suspect
  let d := if d.radio && !d.element then { d with images := chunkImages s d.rows.length d } else d
  let s := noteReferees { s with lin := { s.lin with disputes := s.lin.disputes ++ [d] } }
  if d.radio then emit s (.notice "lease pass discarded" e 4)
  else modSlot s e d.slot fun x => { x with refHold := true }

/-- A lease pass has left no result (R152, R245): the slot jobs at work whose cells have a lease task on the engine
use the classical path's values, and their reports say so. -/
def leaseFailed (s : State) (e : Nat) : State :=
  let cells : List Nat := match s.rad.current with
    | none => []
    | some p => ((planTasks s p).filter (·.1 == e)).map (·.2.2)
  (cells.map fun c => cDie (cell s c).record).foldl (fun s d => modRadDie s d fun (x : RadDie) => { x with
    jobs := x.jobs.map fun (j : SlotJob) => if cells.contains j.cell && j.dir == 2 then { j with fallback := true } else j }) s

/-- The dispute of a pass: what the referee needs of it (R149, R150). -/
def passDispute (s : State) (e : Nat) (p : PassRun) (es : List PassError) (kind location : Nat)
    (rows : List Nat) (mandatory : Bool) : Dispute :=
  let x := slot s e p.slot
  let t := Nat.min p.index (cTiles p.desc - 1)
  { suspect := e, slot := p.slot, job := x.job, gen := (job s x.job).gen, sleeve := x.sleeve
    radio := p.slot == 4, mandatory := mandatory, kind := kind, location := location, rows := fedFirst p.desc t rows
    desc := p.desc, passKind := p.kind, index := p.index, products := x.products
    closes := cClose p.desc && p.index + 1 == cTiles p.desc
    fedBefore := rows.filter fun m => fedBit s x e m
    windowed := p.phase == 3 && windowedPass s x e p.desc
    errors := es, st := .staging }

/-- A suspect's context is released when none of its disputes is left (R150, R151): the entry it held
completes, and on a fenced engine it moves now (R151). -/
def endReferee (s : State) (u i : Nat) (element : Bool) : State :=
  let e := u % 16
  if s.lin.disputes.any fun d => d.suspect % 16 == e && d.slot == i && !d.radio then s
  else
    let s := modSlot s e i fun x => { x with refHold := false }
    let s := if element then modSlot s e i fun x =>
        { x with ering := ringNext x.ering }.completes (now s)
      else settleRun e i 4 s
    if isFenced s e || isFenced s (16 + e) then moveSlot s e i else s

/-! ### The boundary of a pass -/

/-- Beats of a pass or of an element-engine descriptor charged to its job and sleeve (R191, R226). -/
def chargeBeats (s : State) (x : Slot) (beats : Nat) : State :=
  if x.job = 0 then s
  else
    let s := modJob s x.job fun j => { j with ctr := { j.ctr with beats := j.ctr.beats + w64 beats } }
    modSleeve s x.sleeve fun v => { v with acct := { v.acct with beats := v.acct.beats + w64 beats } }

/-- Beats of a pass are counted (R58, R131, R191, R226), with the estimate of its energy. -/
def countBeats (s : State) (e i : Nat) (beats est : Nat) : State :=
  let x := slot s e i
  let s := noteBeats s ((engineDomains e).take 2) x (i == 4) beats est
  let s := modEngine s e fun y =>
    { y with beats := y.beats + w64 beats, passes := y.passes + 1 }.completes (now s)
  chargeBeats s x beats

/-- The rule by which a product pass of a slot runs. -/
def passRule (s : State) (e : Nat) (p : PassRun) (es : List PassError) : PassRule :=
  let x := slot s e p.slot
  let chip := fld (wd (job s x.job).block 1) 63 54
  { x := x, e := e, d := p.desc, tile := p.tile, t := p.index
    rounds := cClose p.desc && p.index + 1 == cTiles p.desc
    rnd := chainRounding p.desc chip, err := frameErr s x e p es }

/-- The anchor words that a scale or anchor pass left wrong, with the right ones, of the state that it leaves. -/
def wrongWords (s : State) (x : Slot) (e : Nat) (d : List W64) (es : List PassError) : List (Nat × Nat × Nat) :=
  es.filterMap fun q => match q with
    | .word m n v =>
      let w := partNat s x e (anchorOff d m n) 2
      if m < cRows d && n < cCols d && w != v % 65536 then some (m, n, w) else none
    | _ => none

/-- Those words as they came out. -/
def putWords (s : State) (x : Slot) (e : Nat) (d : List W64) (es : List PassError) : State :=
  es.foldl (fun s q => match q with
    | .word m n v => if m < cRows d && n < cCols d then partWrite s x e (anchorOff d m n) (leBytes 2 (v % 65536)) else s
    | _ => s) s

/-- What a pass that has reached its boundary leaves in the partition (R109–R111); none: an input cannot
be read, or a partial has a reserved KIND (R136). -/
def passEffect (s : State) (e : Nat) (p : PassRun) (es : List PassError) : Option State :=
  let i := p.slot
  let x := slot s e i
  if passEcc s x e p.desc p.phase p.index then none
  else match p.phase with
    | 1 =>
      let s := putWords (scalePass s x e p.desc p.index (x.phase == 0)) x e p.desc es
      some (modSlot s e i fun x => { x with phase := Nat.max x.phase 1 })
    | 2 => some (putWords (anchorPass s x e p.desc p.tile p.index) x e p.desc es)
    | _ =>
      let o := productPass s (passRule s e p es)
      if o.badPartial then none
      else some (modSlot (addCounts o.st x.job o.counts) e i fun x => { x with products := x.products + 1 })

/-- The passes of the slot move on by one. -/
def stepRun (s : State) (e i : Nat) : State :=
  modSlot s e i fun x => { x with run := x.run.map fun r => { r with next := r.next + 1 } }

/-- Throttle and voltage changes at a boundary of an engine (R46, R66, R114). -/
def boundaryPower (s : State) (e : Nat) : State :=
  (engineDomains e).foldl (fun s n => domainBoundary (takeThrottle s n) n) s

/-- A checked pass goes on to the next; under mandatory referee it is refereed first (R412). -/
def passGoesOn (s : State) (e : Nat) (d : Dispute) : State :=
  if (unitSt s e).hold == 1 && d.slot < 4 then openDispute (dropPasses s e d.slot) { d with mandatory := true }
  else settleRun e d.slot 4 s

/-- The result and the verdict of a pass at its boundary (R137, R150, R152): a radio pass that disagrees leaves no
result, its slot takes the classical path, and the lease context goes on behind it (R256); any other keeps what it wrote until the referee has spoken, and
what had started behind it starts again. `forced`: the copies of a unit differed twice (R146). -/
def passResult (s : State) (e : Nat) (p : PassRun) (es : List PassError) (forced : Bool) : State :=
  let i := p.slot
  let x := slot s e i
  let v := if forced then Verdict.engine (fedRows p.desc p.index) else passVerdict s x e p es
  match disputed v with
  | some (k, loc, rows) =>
    let d := { passDispute s e p es k loc rows false with
      words := if p.kind = 0 then [] else ((passEffect s e p []).map fun t => wrongWords t x e p.desc es).getD [] }
    match passEffect s e p es with
    | none => pocketEcc s e i
    | some t =>
      if i == 4 then leaseFailed (settleRun e i 4 (stepRun (openDispute (dropPasses s e i) d) e i)) e
      else openDispute (dropPasses (stepRun t e i) e i) d
  | none => match passEffect s e p es with
    | none => pocketEcc s e i
    | some t => passGoesOn (stepRun t e i) e (passDispute s e p es 1 0xFFFF (fedRows p.desc p.index) false)

/-- A late beat of an engine's pass (R57): the release ticks of the tenant contexts on the engine move back by one
interval. -/
def engineLate (s : State) (e : Nat) : State :=
  (List.range 4).foldl (fun s i =>
    if (slot s e i).valid && (slot s e i).paced then modSlot s e i fun x => { x with tickBack := true } else s)
    (lateBeat s (arrayDomain e))

/-- Everything a boundary does (R114): the pass and its verdict; teardown, which leaves nothing to do;
selection of the next tenant pass; throttle and voltage. -/
def passEnds (s : State) (e : Nat) (p : PassRun) (es : List PassError) (forced late : Bool) : State :=
  let i := p.slot
  let s := if late then engineLate s e else s
  let s := countBeats (popPass s e) e i (514 + p.m) (passEnergy s e p.desc p.phase)
  let s := modSlot s e i fun x => { x with rerunOwed := false, mismatched := false }
  let s := if (slot s e i).run.isNone then s else passResult s e p es forced
  boundaryPower (selectNext s e) e

end Sys2Proof.Machine
end

