-- ==== Sys2Proof/Machine/ElementCmds.lean ====
section
/-! DEFINITION. The element engines at work (chapter 04): the rows of R130, shadow mismatches (R146). -/

namespace Sys2Proof.Machine

/-! ### A descriptor at work -/

/-- A descriptor's regions stand: inside the partition (R121), and readable (R136, R160). -/
def elemBar (s : State) (x : Slot) (e : Nat) (d : List W64) : Option Status :=
  if !((elemReads d ++ elemWriteSpans d).all fun r => inPart x r.1 r.2) then some .denied
  else if ((elemReads d).any fun r => eccHit s (partKey x e r.1) r.2) ||
      ((elemWriteSpans d).any fun r => !(eccPartial s (partKey x e r.1) r.2).isEmpty) then some .checkFailed
  else none

/-- A descriptor's dispute: a disagreement of its lanes, or its turn under mandatory referee (R146, R412). -/
def elemDispute (s : State) (e i : Nat) (d : List W64) (lanes shadows : List (Nat × Nat)) (mandatory : Bool) :
    Dispute :=
  let x := slot s e i
  let ws := (elemWork s x e (slotChip s x) d).1
  { suspect := 16 + e, slot := i, job := x.job, gen := (job s x.job).gen, sleeve := x.sleeve
    radio := i == 4, mandatory := mandatory, element := true, kind := 1, location := 0xFFFF, rows := [0], desc := d
    lanes := wrongCodes d ws lanes, shadows := wrongCodes d ws shadows, st := .staging }

/-- An element-engine descriptor carried out (R121, R129, R136, R160). Under mandatory referee its entry
completes only when the referee has spoken (R412). -/
def elemRun (s : State) (e i : Nat) (d : List W64) : State :=
  let x := slot s e i
  match elemBar s x e d with
  | some .checkFailed => pocketEcc s e i
  | some st => faultSlot s e i st
  | none =>
    let w := elemWork s x e (slotChip s x) d
    let s := noteBeats (putWrites s x e w.1) ((engineDomains e).drop 1) x (i == 4) (elemBeats d) 0
    let s := addCounts (chargeBeats s x (elemBeats d)) x.job w.2
    let s := modSlot s e i fun x => { x with shadowed := false }
    if (unitSt s (16 + e)).hold == 1 && i < 4 then openDispute s (elemDispute s e i d [] [] true)
    else modSlot s e i fun x => { x with ering := ringNext x.ering }.completes (now s)

/-- The element engine may start a descriptor of a slot: unfenced, no fitting at work, and none due ahead of a
tenant's (R169), no referee's work due ahead of it (R147), and the throttle level allows it (R65). -/
def elementFree (s : State) (e i : Nat) : Bool :=
  slotFree s e i && !isFenced s (16 + e) && ringReady (slot s e i).ering 0 && !fitAtWork s (16 + e) &&
  (i == 4 || (!((unitSt s (16 + e)).fit.any fun f => f.urgent) && levelAllows s e i && !refereeDue s (16 + e)))

/-- A row of the table: the entry is fetched under R31; a reserved OP is refused (R130, R126); another
row's OP is not this row's. -/
def elemCmd (op e i : Nat) (d : List W64) (c : Instr) (s : State) : State :=
  if !elementFree s e i then s
  else if !engineAwake s e then wakeEngine s e
  else fetchEntry s e i (ringEntry (slot s e i).ering 64 0) 8 c d fun s =>
    if !isEeOp (eOp d) then faultSlot s e i .badField
    else if eOp d != op then s
    else if elemBad d then faultSlot s e i .badField
    else elemRun s e i d

/-- A shadow mismatch of the element engine in a group of 256 outputs (R146): the groups before it are written, it is
not, a strike and a rerun, which RERUNS counts although R132 names passes only (DESIGN CHOICE,
notes/assumptions/89.md); seen again on the rerun, a disagreement. -/
def shadowMismatch (s : State) (e i group : Nat) (lanes shadows : List (Nat × Nat)) : State :=
  let x := slot s e i
  let a := ringEntry x.ering 64 0
  let d := wordsOf 8 (windowRead s a 64)
  if !elementFree s e i || (checkRange s (slotIssuer s x) .rd a 64).isSome || elemBad d ||
      256 * group ≥ eOutputs d || (elemBar s x e d).isSome then s
  else
    let q := elemDispute s e i d lanes shadows false
    let s := putWrites s x e (writesBelow d group (elemWork s x e (slotChip s x) d).1)
    if x.shadowed then
      let s := openDispute (modSlot s e i fun x => { x with shadowed := false }) q
      if i = 4 then leaseFailed (modSlot s e i fun x => { x with ering := ringNext x.ering }.completes (now s)) e
      else s
    else
      let s := strike s (16 + e) 3 0xFFFF x.job x.sleeve false
      modEngine (modSlot s e i fun x => { x with shadowed := true }) e fun y => { y with
        reruns := y.reruns.add 0xFFFF 1 }

/-- ADD (R89). -/
def execAdd (e i : Nat) (d : List W64) (s : State) : Host.Outcome State Fault Refusal :=
  .next (elemCmd 0x01 e i d (.add e i d) s)

/-- SUB (R89). -/
def execSub (e i : Nat) (d : List W64) (s : State) : Host.Outcome State Fault Refusal :=
  .next (elemCmd 0x02 e i d (.sub e i d) s)

/-- MUL (R89). -/
def execMul (e i : Nat) (d : List W64) (s : State) : Host.Outcome State Fault Refusal :=
  .next (elemCmd 0x03 e i d (.mul e i d) s)

/-- FMA (R89). -/
def execFma (e i : Nat) (d : List W64) (s : State) : Host.Outcome State Fault Refusal :=
  .next (elemCmd 0x04 e i d (.fma e i d) s)

/-- DIV (R89). -/
def execDiv (e i : Nat) (d : List W64) (s : State) : Host.Outcome State Fault Refusal :=
  .next (elemCmd 0x05 e i d (.div e i d) s)

/-- SQRT (R89). -/
def execSqrt (e i : Nat) (d : List W64) (s : State) : Host.Outcome State Fault Refusal :=
  .next (elemCmd 0x06 e i d (.sqrt e i d) s)

/-- MAX: IEEE 754-2019 maximum (R89). -/
def execMax (e i : Nat) (d : List W64) (s : State) : Host.Outcome State Fault Refusal :=
  .next (elemCmd 0x07 e i d (.max e i d) s)

/-- MIN: IEEE 754-2019 minimum (R89). -/
def execMin (e i : Nat) (d : List W64) (s : State) : Host.Outcome State Fault Refusal :=
  .next (elemCmd 0x08 e i d (.min e i d) s)

/-- RINT (R89). -/
def execRint (e i : Nat) (d : List W64) (s : State) : Host.Outcome State Fault Refusal :=
  .next (elemCmd 0x09 e i d (.rint e i d) s)

/-- SCALEB (R89). -/
def execScaleb (e i : Nat) (d : List W64) (s : State) : Host.Outcome State Fault Refusal :=
  .next (elemCmd 0x0A e i d (.scaleb e i d) s)

/-- CONVERT (R89). -/
def execConvert (e i : Nat) (d : List W64) (s : State) : Host.Outcome State Fault Refusal :=
  .next (elemCmd 0x0B e i d (.convert e i d) s)

/-- EXP (R91). -/
def execExp (e i : Nat) (d : List W64) (s : State) : Host.Outcome State Fault Refusal :=
  .next (elemCmd 0x10 e i d (.exp e i d) s)

/-- LOG (R91). -/
def execLog (e i : Nat) (d : List W64) (s : State) : Host.Outcome State Fault Refusal :=
  .next (elemCmd 0x11 e i d (.log e i d) s)

/-- SIGMOID (R92). -/
def execSigmoid (e i : Nat) (d : List W64) (s : State) : Host.Outcome State Fault Refusal :=
  .next (elemCmd 0x12 e i d (.sigmoid e i d) s)

/-- SILU (R92). -/
def execSilu (e i : Nat) (d : List W64) (s : State) : Host.Outcome State Fault Refusal :=
  .next (elemCmd 0x13 e i d (.silu e i d) s)

/-- TANH (R92). -/
def execTanh (e i : Nat) (d : List W64) (s : State) : Host.Outcome State Fault Refusal :=
  .next (elemCmd 0x14 e i d (.tanh e i d) s)

/-- GELU (R92). -/
def execGelu (e i : Nat) (d : List W64) (s : State) : Host.Outcome State Fault Refusal :=
  .next (elemCmd 0x15 e i d (.gelu e i d) s)

/-- RSQRT (R92). -/
def execRsqrt (e i : Nat) (d : List W64) (s : State) : Host.Outcome State Fault Refusal :=
  .next (elemCmd 0x16 e i d (.rsqrt e i d) s)

/-- FRAMESUM (R90). -/
def execFramesum (e i : Nat) (d : List W64) (s : State) : Host.Outcome State Fault Refusal :=
  .next (elemCmd 0x20 e i d (.framesum e i d) s)

/-- FRAMEDOT (R90). -/
def execFramedot (e i : Nat) (d : List W64) (s : State) : Host.Outcome State Fault Refusal :=
  .next (elemCmd 0x21 e i d (.framedot e i d) s)

/-- SOFTMAX (R92). -/
def execSoftmax (e i : Nat) (d : List W64) (s : State) : Host.Outcome State Fault Refusal :=
  .next (elemCmd 0x22 e i d (.softmax e i d) s)

/-- LAYERNORM (R92). -/
def execLayernorm (e i : Nat) (d : List W64) (s : State) : Host.Outcome State Fault Refusal :=
  .next (elemCmd 0x23 e i d (.layernorm e i d) s)

/-- RMSNORM (R92). -/
def execRmsnorm (e i : Nat) (d : List W64) (s : State) : Host.Outcome State Fault Refusal :=
  .next (elemCmd 0x24 e i d (.rmsnorm e i d) s)

/-- QUANT_MX (R93). -/
def execQuantMx (e i : Nat) (d : List W64) (s : State) : Host.Outcome State Fault Refusal :=
  .next (elemCmd 0x30 e i d (.quantMx e i d) s)

end Sys2Proof.Machine
end

