-- ==== Sys2Proof/Machine/EngineCmds.lean ====
section
/-! DEFINITION. The matrix engines and their DMA (chapter 04): passes, chain, WAIT, SIGNAL and DMA
descriptors, faults within a pass. R54–R57, R101–R128, R136, R146, R157. -/

namespace Sys2Proof.Machine

/-! ### Passes -/

/-- A paced pass of a slot may start on its tick: the lease context's under the lease (R120), a tenant's under its own
conditions and only when it ends before the next lease start (R116). -/
def pacedOk (s : State) (e i : Nat) : Bool :=
  match nextPass (slot s e i) with
  | none => false
  | some (d, _, _) =>
    !engineStops s e && (slot s e i).paced &&
      if i = 4 then (engine s e).leased && slotRuns s e 4 else tenantOk s e i && beforeLease s e (passBeats d)

/-- The tick of a slot's pass (R54, R56, R57). -/
def passTick (s : State) (e i : Nat) (landed : Bool) : State :=
  if i != 4 && (slot s e i).tickBack then modSlot s e i fun x => { x with tickBack := false }
  else if !pacedOk s e i then s
  else if !landed then modSlot s e i fun x => { x with lateTick := true }
  else
    let t := startPass (modDomain s (arrayDomain e) fun y => { y with radioFirst := false }) e i
    if (slot s e i).lateTick && !(slot t e i).lateTick && i == 4 then operandWait t (arrayDomain e) else t

/-- RELEASE_TICK (R54, R56, R116): a paced pass starts on its tick; one whose operands have not landed
starts when they land, and that start is counted. -/
def execReleaseTick (target : TickTarget) (landed : Bool) (s : State) :
    Host.Outcome State Fault Refusal :=
  .next <| match target with
    | .pass e i => passTick s e i landed
    | .radioTask n =>
      if n ≥ 96 || domainClass n != .s then s
      else if landed then s else operandWait s n

/-- FREE_PASS_START (R54, R55, R62, R116). -/
def execFreePassStart (e i beatsToTick : Nat) (s : State) : Host.Outcome State Fault Refusal :=
  .next <| match nextPass (slot s e i) with
    | none => s
    | some (d, _, _) =>
      if e < 16 && !engineStops s e && (chooseTenant s e).1 == some i &&
          passBeats d ≤ beatsToTick && beforeLease s e (passBeats d) then startPass s e i else s

/-- PASS_BOUNDARY (R102, R114). -/
def execPassBoundary (e : Nat) (obs : PassObs) (s : State) : Host.Outcome State Fault Refusal :=
  .next <| match (engine s e).pass with
    | none => s
    | some p => if e < 16 then passEnds s e p obs.errors false obs.late else s

/-- A mismatch of the duplicated units on the array path (R146): a strike and a rerun; seen again on the
rerun, a disagreement. -/
def pathMismatch (s : State) (e : Nat) (p : PassRun) (errors : List PassError) : State :=
  let x := slot s e p.slot
  if x.mismatched then passEnds s e p errors true false
  else
    let s := strike s e 3 0xFFFF x.job x.sleeve false
    modSlot (discardPass s e p) e p.slot fun x => { x with mismatched := true }

/-- PASS_FAULT (R115, R146): a fault before the boundary. -/
def execPassFault (e : Nat) (kind : PassFaultKind) (s : State) : Host.Outcome State Fault Refusal :=
  .next <| if e ≥ 16 then s else match kind with
    | .shadow i group lanes shadows => shadowMismatch s e i group lanes shadows
    | .duplicatedUnit errors => match (engine s e).pass with
      | some p => pathMismatch s e p errors
      | none => s
    | _ => match (engine s e).pass with
      | some p => discardPass s e p
      | none => s

/-- ENGINE_HANG (R136): the engine domain is reset with the pocket kept, the reset is counted, the pass
is owed again. -/
def execEngineHang (e : Nat) (s : State) : Host.Outcome State Fault Refusal :=
  .next <| if e ≥ 16 then s else match (engine s e).pass with
    | none => s
    | some p => countReset (resetUnit (discardPass s e p) e) e 2

/-! ### Feeder descriptors -/

/-- A feeder entry is fetched under R31 by a context that may go on; `k` runs with its descriptor. -/
def fetchFeeder (s : State) (e i : Nat) (c : Instr) (d : List W64) (k : State → State) : State :=
  let x := slot s e i
  if !slotFree s e i || isFenced s e || x.run.isSome || x.waiting.isSome || !ringReady x.fring 0
  then s
  else fetchEntry s e i (ringEntry x.fring 128 0) 16 c d k

/-- KIND of a feeder or DMA descriptor; 0x0 and 0x4–0xF are reserved (R125, R127). -/
def descKind (d : List W64) : Nat := fld (wd d 0) 63 60
def kindReserved (k : Nat) : Bool := k = 0 || k > 3

/-- A row of the feeder: its own KIND runs, a reserved one is refused (R126), another row's is not its. -/
def feederRow (kind e i : Nat) (c : Instr) (d : List W64) (s : State) (k : State → State) : State :=
  fetchFeeder s e i c d fun s =>
    if kindReserved (descKind d) then faultSlot s e i .badField
    else if descKind d != kind then s
    else k s

/-- CHAIN (R125, R126, R110, R112): refused whole, or its phases and passes stand ready. -/
def execChain (e i : Nat) (d : List W64) (s : State) : Host.Outcome State Fault Refusal :=
  .next <| feederRow 1 e i (.chain e i d) d s fun s =>
    let x := slot s e i
    if d.length != 16 || descBad d || chainOrderBad x d then faultSlot s e i .badField
    else if cFirst d && !inPart x (cFed d) 8192 then faultSlot s e i .denied
    else
      let s := if cFirst d then
          physZero (modSlot s e i fun x => { x with
            chainOpen := true, phase := 0, products := 0, chainK := 0, fedBase := cFed d })
            (partKey x e (cFed d)) 8192
        else s
      let s := modSlot (feederStarts s e i) e i fun x => { x with
        chainK := x.chainK + descK d, run := some { desc := d, phases := descPhases d } }
      settleRun e i 4 s

/-- RSVD bits of a WAIT or SIGNAL descriptor: all but its own fields (R125). -/
def waitBad (d : List W64) : Bool :=
  d.length != 16 || fld (wd d 0) 58 0 != 0 || fld (wd d 1) 63 48 != 0 ||
  (d.drop 3).any (· != 0) || fld (wd d 1) 47 0 % 8 != 0 ||
  (!bitOf (wd d 0) 59 && fld (wd d 1) 47 26 != 0)

/-- The completion word of a descriptor (R125): in the partition or in the page window. -/
def readWord (s : State) (e i : Nat) (space : Bool) (addr : Nat) : Except Bar Nat :=
  let x := slot s e i
  if space then
    match devRead s (slotIssuer s x) addr 8 with
    | .error b => .error b
    | .ok bs => .ok (leNat bs)
  else if !inPart x addr 8 then .error .denied
  else if eccHit s (partKey x e addr) 8 then .error .dataEcc
  else .ok (partNat s x e addr 8)

/-- A word written in the partition or in the page window. -/
def writeWord (s : State) (e i : Nat) (space : Bool) (addr value : Nat) : Except Bar State :=
  let x := slot s e i
  if space then devWrite s (slotIssuer s x) .wr addr (leBytes 8 value)
  else if !inPart x addr 8 then .error .denied
  else .ok (partWrite s x e addr (leBytes 8 value))

/-- A feeder entry that is no chain ends: HEAD and the context's progress (R124, R397). -/
def endFeeder (s : State) (e i : Nat) : State :=
  modSlot s e i fun x => { x with waiting := none, fring := ringNext x.fring }.completes (now s)

/-- A WAIT whose word has been reached (R117, R131). -/
def endWait (s : State) (e i : Nat) : State :=
  modEngine (endFeeder s e i) e fun y => y.completes (now s)

/-- WAIT (R117, R125): the ring is held until the word is at least VALUE. -/
def execWait (e i : Nat) (d : List W64) (s : State) : Host.Outcome State Fault Refusal :=
  .next <| feederRow 2 e i (.wait e i d) d s fun s =>
    if waitBad d then faultSlot s e i .badField
    else
      let space := bitOf (wd d 0) 59
      let addr := fld (wd d 1) 47 0
      match readWord s e i space addr with
      | .error b => contextBar s e i addr 8 (.wait e i d) b
      | .ok v => if v ≥ (wd d 2).toNat then endWait s e i
        else modSlot s e i fun x => { x with
          waiting := some { space := space, addr := addr, value := (wd d 2).toNat } }

/-- WAIT_SATISFIED (R117): the word is read again when the context is selected. -/
def execWaitSatisfied (e i : Nat) (s : State) : Host.Outcome State Fault Refusal :=
  .next <| match (slot s e i).waiting with
    | none => s
    | some w =>
      if !slotFree s e i then s
      else match readWord s e i w.space w.addr with
        | .error b => contextBar s e i w.addr 8 (.waitSatisfied e i) b
        | .ok v => if v ≥ w.value then endWait s e i else s

/-- SIGNAL (R125): VALUE is written into the word. -/
def execSignal (e i : Nat) (d : List W64) (s : State) : Host.Outcome State Fault Refusal :=
  .next <| feederRow 3 e i (.signal e i d) d s fun s =>
    if waitBad d then faultSlot s e i .badField
    else
      let addr := fld (wd d 1) 47 0
      match writeWord s e i (bitOf (wd d 0) 59) addr (wd d 2).toNat with
      | .error b => contextBar s e i addr 8 (.signal e i d) b
      | .ok s => endFeeder s e i

/-! ### DMA (R127, R128, R156, R157) -/

def dDev (d : List W64) (r : Nat) : Int := fld (wd d 0) 47 0 + r * sfld (wd d 2) 63 32
def dPocket (d : List W64) (r : Nat) : Nat := fld (wd d 1) 63 38 + r * fld (wd d 2) 31 6
def dSignal (d : List W64) : Bool := bitOf (wd d 0) 59
def dWaitFirst (d : List W64) : Bool := bitOf (wd d 0) 58
def dCompl (d : List W64) : Nat := fld (wd d 3) 63 38
/-- A DMA descriptor breaks its layout (R127, R10): W5 and W6 matter only under WAIT_FIRST, COMPL_OFF only under
SIGNAL. -/
def dmaBad (d : List W64) : Bool :=
  d.length != 8 || dRowBytes d == 0 || dRowBytes d % 64 != 0 || (dSignal d && dCompl d % 8 != 0) ||
  !rsvdZero d [(0, 57, 48), (2, 5, 0), (3, 37, 32), (7, 63, 0)] || (dWaitFirst d && fld (wd d 5) 63 48 != 0) ||
  (descKind d == 3 && fld (wd d 0) 47 26 != 0)

/-- A write into the partition; one that covers only part of an uncorrectable word fails (R160). -/
def pocketWrite (s : State) (x : Slot) (e off : Nat) (bytes : List Byte) : Except Bar State :=
  if (eccPartial s (partKey x e off) bytes.length).isEmpty then .ok (partWrite s x e off bytes)
  else .error .dataEcc

/-- The bytes of row r at its source, read and checked (R31, R160). -/
def dmaSource (s : State) (e i : Nat) (d : List W64) (r : Nat) : Except Bar (List Byte) :=
  let x := slot s e i
  let n := dRowBytes d
  let dev := dDev d r
  if !inPart x (dPocket d r) n || dev < 0 then .error .denied
  else if descKind d = 1 then devRead s (slotIssuer s x) dev.toNat n
  else if descKind d = 2 then
    if eccHit s (partKey x e (dPocket d r)) n then .error .dataEcc else .ok (physRead s (partKey x e (dPocket d r)) n)
  else if !inPart x dev n then .error .denied
  else if eccHit s (partKey x e dev.toNat) n then .error .dataEcc
  else .ok (physRead s (partKey x e dev.toNat) n)

/-- The bytes of row r written at its destination. -/
def dmaTarget (s : State) (e i : Nat) (d : List W64) (r : Nat) (bs : List Byte) : Except Bar State :=
  let x := slot s e i
  if descKind d = 2 then devWrite s (slotIssuer s x) .wr (dDev d r).toNat bs
  else pocketWrite s x e (dPocket d r) bs

/-- Payload bytes as they arrive: those named by their offset have flipped bits. -/
def flipped (flips : List (Nat × Byte)) (off : Nat) (bs : List Byte) : List Byte :=
  (bs.zip (List.range bs.length)).map fun b =>
    flips.foldl (fun v f => if f.1 = off + b.2 then v ^^^ f.2 else v) b.1

/-- The payload of a descriptor at its source, row after row; a row that cannot be read has no bytes. -/
def dmaPayload (s : State) (e i : Nat) (d : List W64) : List Byte :=
  (List.range (dRows d)).flatMap fun r => match dmaSource s e i d r with
    | .ok bs => bs
    | .error _ => []

/-- Bytes of the payload that pass their CRC-32C before the first segment of 4 KiB that fails it (R156); none: every
segment passes. -/
def firstBad (payload : List Byte) (flips : List (Nat × Byte)) : Option Nat :=
  ((List.range (cdiv payload.length 4096)).find? fun k =>
    let seg := (payload.drop (4096 * k)).take 4096
    (flips.any fun f => f.1 / 4096 == k) && crc32c (flipped flips (4096 * k) seg) != crc32c seg).map (4096 * ·)

/-- One row moved: read and checked, then written as far as its segments have passed their CRC. -/
def dmaRow (s : State) (e i : Nat) (d : List W64) (flips : List (Nat × Byte)) (good : Option Nat) (r : Nat) :
    Except Bar State :=
  match dmaSource s e i d r with
  | .error b => .error b
  | .ok bs =>
    let off := r * dRowBytes d
    let bs := flipped flips off bs
    dmaTarget s e i d r (match good with | none => bs | some g => bs.take (g - off))

/-- The rows in order; a row that fails leaves those before it moved (R157). -/
def dmaRows (e i : Nat) (d : List W64) (flips : List (Nat × Byte)) (good : Option Nat) :
    List Nat → State → State × Option (Nat × Bar)
  | [], s => (s, none)
  | r :: rs, s => match dmaRow s e i d flips good r with
    | .error b => (s, some ((dDev d r).toNat, b))
    | .ok s' => dmaRows e i d flips good rs s'

/-- One attempt of a descriptor: the state it leaves, the row that could not be moved, whether a segment failed its
CRC. -/
def dmaAttempt (s : State) (e i : Nat) (d : List W64) (flips : List (Nat × Byte)) :
    State × Option (Nat × Bar) × Bool :=
  let good := if flips.isEmpty then none else firstBad (dmaPayload s e i d) flips
  let r := dmaRows e i d flips good (List.range (dRows d)) s
  (r.1, r.2, good.isSome)

/-- The first row whose page is in move holds the whole descriptor back (R31 condition 4). -/
def dmaWaits (s : State) (e i : Nat) (d : List W64) : Option Nat :=
  if descKind d = 3 then none
  else ((List.range (dRows d)).find? fun r =>
    checkRange s (slotIssuer s (slot s e i)) (if descKind d = 1 then .rd else .wr)
      (dDev d r).toNat (dRowBytes d) == some .wait).map fun r => (dDev d r).toNat

/-- WAIT_FIRST of a descriptor is met (R127). -/
def dmaReady (s : State) (e i : Nat) (d : List W64) : Except Bar Bool :=
  if !dWaitFirst d then .ok true
  else match devRead s (slotIssuer s (slot s e i)) (fld (wd d 5) 47 0) 8 with
    | .error b => .error b
    | .ok bs => .ok (decide (leNat bs ≥ (wd d 6).toNat))

/-- A DMA descriptor that has been fetched: WAIT_FIRST tested, the bytes moved; it then awaits its completion in ring
order (R127, R128). One with a row that did not land never completes: a stale access is dropped and counted (R32). -/
def dmaStart (s : State) (e i : Nat) (d : List W64) (flips : List (Nat × Byte)) (c : Instr) : State :=
  let wa := fld (wd d 5) 47 0
  match dmaReady s e i d with
  | .error b => contextBar s e i wa 8 c b
  | .ok false => s
  | .ok true => match dmaWaits s e i d with
    | some addr => contextBar s e i addr (dRowBytes d) c .wait
    | none =>
      let r := dmaAttempt s e i d flips
      let queued (t : State) : State := modSlot t e i fun x =>
        { x.starts (now s) with dma := x.dma ++ [{ desc := d, failed := r.2.2 }] }
      match r.2.1 with
      | none => queued r.1
      | some (addr, b) => barFault r.1 e i addr b

/-- A DMA row of the table: fetched under R31 once its share of the trackers has room (R36, R37). -/
def dmaCmd (kind e i : Nat) (d : List W64) (flips : List (Nat × Byte)) (c : Instr) (s : State) : State :=
  let x := slot s e i
  if !slotFree s e i || !ringReady x.dring x.dma.length || !trackerFree s (trackerDie (unitDie e)) (x.sleeve == 0)
  then s
  else fetchEntry s e i (ringEntry x.dring 64 x.dma.length) 8 c d fun s =>
    if kindReserved (descKind d) then faultSlot s e i .badField
    else if descKind d != kind then s
    else if dmaBad d then faultSlot s e i .badField
    else dmaStart s e i d flips c

/-- DMA_IN, DMA_OUT and DMA_COPY (R127). -/
def execDmaIn (e i : Nat) (d : List W64) (flips : List (Nat × Byte)) (s : State) : Host.Outcome State Fault Refusal :=
  .next (dmaCmd 1 e i d flips (.dmaIn e i d flips) s)
def execDmaOut (e i : Nat) (d : List W64) (flips : List (Nat × Byte)) (s : State) : Host.Outcome State Fault Refusal :=
  .next (dmaCmd 2 e i d flips (.dmaOut e i d flips) s)
def execDmaCopy (e i : Nat) (d : List W64) (flips : List (Nat × Byte)) (s : State) :
    Host.Outcome State Fault Refusal :=
  .next (dmaCmd 3 e i d flips (.dmaCopy e i d flips) s)

/-- Bytes moved are counted in the job's record and the sleeve's account (R191, R226). -/
def countDma (s : State) (x : Slot) (n : Nat) : State :=
  if x.job = 0 then s
  else
    let s := modJob s x.job fun j => { j with ctr := { j.ctr with bytes := j.ctr.bytes + w64 n } }
    modSleeve s x.sleeve fun v => { v with acct := { v.acct with
      bytesDma := v.acct.bytesDma + w64 n } }

/-- A context whose move waits for its DMA descriptors leaves once the last has completed (R123). -/
def moveOwing (s : State) (e i : Nat) : State :=
  let x := slot s e i
  if x.moveOwed && x.dma.isEmpty then moveSlot (modSlot s e i fun x => { x with moveOwed := false }) e i else s

/-- The oldest descriptor has landed: COMPL_ADD is added, HEAD advances (R128). -/
def dmaLanded (s : State) (e i : Nat) (d : List W64) : State :=
  let x := slot s e i
  let next (t : State) : State := moveOwing (countDma (modSlot t e i fun x =>
    { x with dma := x.dma.drop 1, dring := ringNext x.dring }.completes (now s)) x (dBytes d)) e i
  if !dSignal d then next s
  else match readWord s e i false (dCompl d) with
    | .error b => barFault s e i (dCompl d) b
    | .ok v => next (partWrite s x e (dCompl d)
        (leBytes 8 ((v + fld (wd d 3) 31 0) % 2 ^ 64)))

/-- A descriptor has failed its CRC on both attempts (R157, R176): the job faults with CHECK_FAILED, the record names
the TAG, and since the source's ECC was good both times the DMA's engine takes a strike. -/
def dmaFailed (s : State) (e i : Nat) (d : List W64) : State :=
  let x := slot s e i
  let s := raise s { code := 0x015, severity := 2, sleeve := some x.sleeve
                     job := if x.job = 0 then none else some (x.job, (job s x.job).gen), status := 8
                     die := unitDie e, unit := e, d0 := (wd d 4).toNat }
  faultSlot (strike s e 2 0xFFFF x.job x.sleeve false) e i .checkFailed

/-- DMA_COMPLETE (R128, R157, R176): a descriptor with a segment that failed its CRC reruns once from its source; a
word of the source that cannot be read faults the job as R160 says. -/
def execDmaComplete (e i : Nat) (flips : List (Nat × Byte)) (s : State) : Host.Outcome State Fault Refusal :=
  .next <|
    match (slot s e i).dma with
    | [] => s
    | r :: rest =>
      if !r.failed then dmaLanded s e i r.desc
      else if r.reran then dmaFailed s e i r.desc
      else
        let a := dmaAttempt s e i r.desc flips
        match a.2.1 with
        | some (addr, b) => contextBar a.1 e i addr (dRowBytes r.desc) (.dmaComplete e i flips) b
        | none => modSlot a.1 e i fun x => { x with dma := { r with reran := true, failed := a.2.2 } :: rest }

end Sys2Proof.Machine
end

