-- ==== Sys2Proof/Machine/TimeCmds.lean ====
section
/-! DEFINITION. Network time (R316–R324, R327): the commands TIME_CONFIG to TIME_READ, the apply tick, the
lock states, compare units, the timing balls, and the latched reads. -/

namespace Sys2Proof.Machine

def modTim (s : State) (f : Tim → Tim) : State := { s with tim := f s.tim }

/-- The device is held in reset: nothing of the timebase runs (R316, R329). -/
def timeOff (s : State) : Bool := s.boot.phase == .held

/-! ### Lock states (R323) -/

/-- PPS_OUT at a level (R322). -/
def setPps (s : State) (level : Bool) : State :=
  if s.pins.ppsOut == level then s
  else emit { s with pins := { s.pins with ppsOut := level } } (.ball "PPS_OUT" level)

/-- LOCKED or HOLDOVER is left for ACQUIRING (R323, R324, R394): LOCK_LOSSES, TIME_EVENT with its cause,
PPS_OUT low. -/
def lockLost (s : State) (cause : Nat) : State :=
  let s := modTim s fun t => { t with
    state := 1
    lockLosses := Nat.min 0xFFFF (t.lockLosses + 1)
    countsSat := t.countsSat || t.lockLosses == 0xFFFF }
  setPps (raise s { code := 0x031, severity := 3, die := 6, d0 := 1, d1 := cause }) false

/-- A loss of lock that is no forced step: every RUNNING and MOVING_OUT cell stops at the next frame
boundary (R323). -/
def lockStops (s : State) (cause : Nat) : State :=
  let s := lockLost s cause
  { s with rad := { s.rad with lockStop := airCells s } }

/-- A forced step larger than JUMP_NS at its apply tick (R317, R323). -/
def forcedStep (s : State) : State :=
  let s := modTim s fun t => { t with forced := true }
  let s := if timeLocked s then lockLost s 4
    else modTim s fun t => { t with state := 1 }
  endLease ((airCells s).foldl stopCell s)

/-! ### Compare units (R321) -/

def cmpUnit (s : State) (n : Nat) : Cmp := tget {} s.tim.cmps n
def setCmp (s : State) (n : Nat) (v : Cmp) : State :=
  modTim s fun t => { t with cmps := tset {} t.cmps n v }

/-- A write of TBS_CMPn (R324). -/
def writeCmp (s : State) (n : Nat) (w : W64) : State :=
  let x := cmpUnit s n
  setCmp s n { target := fld w 63 32, armed := x.armed || bitOf w 31, fired := x.fired && !bitOf w 30
               source := fld w 11 0 }

/-- An armed unit whose target is due sends its message, sets FIRED and disarms (R318, R321). -/
def fireCmp (s : State) (n : Nat) : State :=
  let x := cmpUnit s n
  if x.armed && due32 (now32 s) x.target then
    dicMessage (setCmp s n { x with armed := false, fired := true }) 0 x.source
  else s

/-- COMPARE_ARM (R321, R324). -/
def execCompareArm (n : Nat) (value : W64) (s : State) : Host.Outcome State Fault Refusal :=
  .next <| if timeOff s || n > 15 then s else writeCmp s n value

/-- COMPARE_FIRE (R318, R321). -/
def execCompareFire (n : Nat) (s : State) : Host.Outcome State Fault Refusal :=
  .next <| if timeOff s || n > 15 then s else fireCmp s n

/-! ### Rate and step (R317, R319) -/

/-- A change at its apply tick A (R317): BASE becomes NT(A) by the old INCR, plus the step; RAW_BASE becomes
A; INCR the new value. -/
def applyTim (t : Tim) (a : Apply) : Tim :=
  let base : Int := (ntAt t a.tick : Int) + a.step * (2 ^ 32 : Nat)
  { t with base := BitVec.ofInt 96 base, rawBase := w64 a.tick, incr := a.rate.getD t.incr }

/-- One change applied, with what a step does at once (R319): gate lists take their position anew, compare units
that it passes fire, frames that it passes are acted on. Scheduled raw ticks stay. -/
def applyChange (s : State) (a : Apply) : State :=
  let before := frameNow s
  let s := modTim s fun t => applyTim t a
  let s := if a.forced then forcedStep s else s
  let s := (List.range 4).foldl gateNow s
  let s := if a.step > 0 then (List.range 16).foldl fireCmp s else s
  if frameNow s > before then frameBoundary (frameNow s) s else s

/-- TIME_APPLY_TICK (R317): every change whose apply tick has come, in order. -/
def execTimeApplyTick (s : State) : Host.Outcome State Fault Refusal :=
  .next <|
    let due := s.tim.applies.filter fun a => a.tick ≤ now s
    due.foldl applyChange (modTim s fun t => { t with
      applies := t.applies.filter fun a => now s < a.tick })

/-- The first TIME_RATE or TIME_STEP leaves FREE (R323); the change waits for its apply tick, RAW + 512. -/
def schedule (s : State) (rate : Option Nat) (step : Int) (forced : Bool) : State :=
  modTim s fun t => { t with
    state := if t.state = 0 then 1 else t.state
    applies := t.applies ++ [{ tick := now s + 512, rate := rate, step := step, forced := forced }] }

/-- TIME_RATE (R316, R317, R326). -/
def execTimeRate (cmd : Cmd) (s : State) : Host.Outcome State Fault Refusal :=
  .next <| serve 0x387 1 isMgmtRadio cmd s fun _ s =>
    checked [(argN cmd 0 < 0x664C2F837 || 0x66809D495 < argN cmd 0, .badField)] <|
      .ok (schedule s (some (argN cmd 0)) 0 false) []

/-- TIME_STEP (R317, R326): a step beyond JUMP_NS without FORCE is refused, flagged and counted. -/
def execTimeStep (cmd : Cmd) (s : State) : Host.Outcome State Fault Refusal :=
  .next <| serve 0x388 2 isMgmtRadio cmd s fun _ s =>
    let step := (arg cmd 0).toInt
    let large := decide (step.natAbs > s.tim.jumpNs)
    checked [(argN cmd 1 > 1, .badField)] <|
      if large && argN cmd 1 == 0 then
        .failIn (modTim s fun t => { t with
          stepFlag := true
          stepRefused := Nat.min 0x7FFF (t.stepRefused + 1)
          countsSat := t.countsSat || t.stepRefused == 0x7FFF }) .stepRefused []
      else .ok (schedule s none step large) []

/-- TIME_LOCK (R323, R326, R409). -/
def execTimeLock (cmd : Cmd) (s : State) : Host.Outcome State Fault Refusal :=
  .next <| serve 0x389 2 isMgmtRadio cmd s fun _ s =>
    let bound := argN cmd 0
    let gone := argN cmd 1 == 1
    checked [(argN cmd 1 > 1 || bound > 2047 || (gone && bound != 0), .badField)] <|
      let s := if gone then s
        else modTim s fun t => { t with bound := bound, lastLock := now s }
      if s.tim.state = 0 then .ok s []
      else if gone || bound > s.tim.lockBound then
        .ok (if timeLocked s then lockStops s (if gone then 1 else 2) else s) []
      else .ok (stampEntry (modTim s fun t => { t with state := 2 })) []

/-- TIME_READ (R326, R466): NT_NS, TBS_NT_FRAC, RAW and STATE. -/
def execTimeRead (cmd : Cmd) (s : State) : Host.Outcome State Fault Refusal :=
  .next <| serve 0x38A 0 isMgmtRadio cmd s fun _ s =>
    .ok s [w64 (networkNs s), w64 (networkTime s / 2 ^ 16 % 2 ^ 16 * 2 ^ 16), s.tim.raw, w64 s.tim.state]

/-- HOLDOVER_ENTER (R323): no TIME_LOCK for 1 s. -/
def execHoldoverEnter (s : State) : Host.Outcome State Fault Refusal :=
  .next <| if s.tim.state != 2 || since s s.tim.lastLock < ticksPerS then s
    else modTim s fun t => { t with state := 3, holdSince := now s }

/-- HOLDOVER_EXPIRE (R323): HOLDOVER_LIMIT has passed. -/
def execHoldoverExpire (s : State) : Host.Outcome State Fault Refusal :=
  .next <| if s.tim.state != 3 || since s s.tim.holdSince < s.tim.holdoverS * ticksPerS then s else lockStops s 3

/-! ### The timing balls (R322) -/

/-- The selected lane gives no recovered clock: no signal, no lock, or not in use. -/
def synceLost (s : State) : Bool :=
  let x := fhPort s s.tim.syncePort
  s.tim.noSignal.contains (s.tim.syncePort, s.tim.synceLane) || !x.up ||
    x.lanes / 2 ^ s.tim.synceLane % 2 == 0

/-- The arguments of TIME_CONFIG leave their ranges (R326). -/
def timeConfigBad (a : Nat → Nat) : Bool :=
  a 0 < 100 || a 0 > 1000000 || a 1 < 10 || a 1 > 1100 || a 2 < 1 || a 2 > 3600 || a 3 > 1023 || a 4 < 1 ||
    a 4 > 500 || a 5 > 3 || a 6 > 3 || a 7 > 1

/-- TIME_CONFIG (R317, R320, R322, R323, R326). -/
def execTimeConfig (cmd : Cmd) (s : State) : Host.Outcome State Fault Refusal :=
  .next <| serve 0x386 8 isMgmt cmd s fun _ s =>
    let a := argN cmd
    checked [(timeConfigBad a, .badField)] <|
      let s := modTim s fun t => { t with
        jumpNs := a 0, lockBound := a 1, holdoverS := a 2, sfnOffset := a 3, ppsWidth := a 4
        syncePort := a 5, synceLane := a 6, synceDiv := a 7 }
      .ok (modTim s fun t => { t with squelch := synceLost s }) []

/-- LOSS_OF_SIGNAL (R322): loss of signal or of lock on a lane; on the selected one SYNCE_CLK_OUT is held
low. -/
def execLossOfSignal (p lane : Nat) (s : State) : Host.Outcome State Fault Refusal :=
  .next <|
    if timeOff s || p > 3 || lane > 3 then s
    else modTim s fun t => { t with
      noSignal := if t.noSignal.contains (p, lane) then t.noSignal else t.noSignal ++ [(p, lane)]
      squelch := t.squelch || (t.syncePort == p && t.synceLane == lane) }

/-- LANE_SIGNAL_RESTORED (R322): SYNCE_CLK_OUT may leave its squelch. -/
def execLaneSignalRestored (p lane : Nat) (s : State) : Host.Outcome State Fault Refusal :=
  .next <|
    if timeOff s || p > 3 || lane > 3 then s
    else
      let s := modTim s fun t => { t with noSignal := t.noSignal.filter (· != (p, lane)) }
      if s.tim.syncePort == p && s.tim.synceLane == lane then
        modTim s fun t => { t with squelch := synceLost s }
      else s

/-- PPS_IN_EDGE (R322, R379): an edge within 500 ms of the last accepted one is ignored and counted. -/
def execPpsInEdge (s : State) : Host.Outcome State Fault Refusal :=
  .next <|
    if timeOff s then s
    else if s.tim.ppsSeen.any fun t => decide (since s t < 500 * ticksPerMs) then
      modTim s fun t => { t with ppsIgnored := t.ppsIgnored + 1 }
    else dicMessage (modTim s fun t => { t with
      ppsSeen := some (now s), ppsNs := w64 (networkNs s), ppsRaw := t.raw }) 0 128

/-- The level that PPS_OUT is due (R322): high for PPS_WIDTH from each whole second, in LOCKED and HOLDOVER. -/
def ppsDue (s : State) : Bool := timeLocked s && networkNs s % 1000000000 < s.tim.ppsWidth * 1000000

/-- PPS_OUT_PULSE (R322): it rises at a whole second and falls when PPS_WIDTH has passed; a level that is not due is
not taken. -/
def execPpsOutPulse (level : Bool) (s : State) : Host.Outcome State Fault Refusal :=
  .next <| if timeOff s || level != ppsDue s then s else setPps s level

/-! ### Latched reads and the copies (R324, R327) -/

/-- TBS_NT_NS_READ (R324): the read latches the fraction and RAW. -/
def execTbsNtNsRead (s : State) : Host.Outcome State Fault Refusal :=
  .next <|
    if timeOff s then s
    else emit (modTim s fun t => { t with
      ntFrac := networkTime s / 2 ^ 16 % 2 ^ 16, ntRaw := t.raw }) (.readValue 0x7010 (networkNs s))

/-- Network time by a radio die's copy of RAW (R316, R324). -/
def dieTime (s : State) (die : Nat) : Nat :=
  ntAt s.tim ((s.tim.raw.toNat : Int) + tget 0 s.tim.copyOff die).toNat

/-- FH_NT_NS_READ (R324): the read latches FH_NT_FRAC of the die. -/
def execFhNtNsRead (die : Nat) (s : State) : Host.Outcome State Fault Refusal :=
  .next <|
    if timeOff s || (die != 4 && die != 5) then s
    else emit (modTim s fun t => { t with
      fhFrac := tset 0 t.fhFrac die (dieTime s die / 2 ^ 16 % 2 ^ 16) })
      (.readValue 0x210000 (dieTime s die / 2 ^ 32))

/-- RAW_COPY_CHECK (R327): `difference` is the copy less RAW, in ticks. -/
def execRawCopyCheck (die : Nat) (difference : Int) (s : State) : Host.Outcome State Fault Refusal :=
  .next <|
    if timeOff s || (die != 4 && die != 5) then s
    else if difference.natAbs < 2 then
      modTim s fun t => { t with copyOff := tset 0 t.copyOff die difference }
    else
      let again := (tget none s.tim.copyBad die).any fun t => decide (since s t ≤ 3600 * ticksPerS)
      let s := raise (modTim s fun t => { t with
          copyFault := true, copyOff := tset 0 t.copyOff die 0
          copyBad := tset none t.copyBad die (some (now s)) })
        { code := 0x031, severity := 1, die := die, d0 := 2, d1 := (BitVec.ofInt 64 difference).toNat }
      if again then dieFault s die 0x031 else s

end Sys2Proof.Machine
end

