-- ==== Sys2Proof/Machine/FronthaulCmds.lean ====
section
/-! DEFINITION. The fronthaul (R299–R315, R325, R326, R328): lanes and links, ingress classification, radio
ingress, camera flows, egress with its gates and hems, transmit rings, and the FH commands. -/

namespace Sys2Proof.Machine

/-! ### Lanes and links (R300–R303) -/

/-- Consecutive samples below the limit, by lane (R300, R333). -/
def lowCounts (low : Tbl Nat) (lanes limit : Nat) (eyes : List Nat) : Tbl Nat :=
  (List.range 4).foldl (fun t l =>
    tset 0 t l (if lanes / 2 ^ l % 2 == 1 && eyes.getD l 0 < limit then Nat.min 10 (tget 0 low l + 1)
      else 0)) []

/-- The eye figures of a port (R300). -/
def eyeFigures (eyes : List Nat) : Tbl Nat :=
  (List.range 4).foldl (fun t l => tset 0 t l (Nat.min 255 (eyes.getD l 0))) []

/-- LANE_EYE_SAMPLE (R300, R333). -/
def execLaneEyeSample (family : PortFamily) (p : Nat) (eyes : List Nat) (s : State) :
    Host.Outcome State Fault Refusal :=
  .next <|
    match family with
    | .fronthaul =>
      if p > 3 || !(fhPort s p).up then s
      else modFhPort s p fun x => { x with
        eye := eyeFigures eyes, low := lowCounts x.low x.lanes x.eyeMin eyes }
    | .voravatra =>
      if p > 15 || !(vfPort s p).up then s
      else modVfPort s p fun x => { x with
        eye := eyeFigures eyes, low := lowCounts x.low x.lanes s.fab.eyeMin eyes }

/-- LANE_DROP (R300, R301, R322): a lane with 10 samples below EYE_MIN. -/
def execLaneDrop (p lane : Nat) (s : State) : Host.Outcome State Fault Refusal :=
  .next <|
    let x := fhPort s p
    if p > 3 || lane > 3 || !x.up || tget 0 x.low lane < 10 then s
    else
      let s := portEvent (fhCount s p 9) 1 (fhDie p) p 1
      let s := if s.tim.syncePort == p && s.tim.synceLane == lane then
        modTim s fun t => { t with squelch := true } else s
      if x.degraded || !x.degradeEn then fhPortDown s p
      else modFhPort s p fun x => { x with
        up := false, retraining := true, dropped := lane, lanes := 0, low := [] }

/-- THREE_LANE_LINK_UP (R301 steps 3 and 4). -/
def execThreeLaneLinkUp (p : Nat) (s : State) : Host.Outcome State Fault Refusal :=
  .next <|
    if !(fhPort s p).retraining || (fhPort s p).restoring then s
    else modFhPort s p fun x => { x with
      up := true, retraining := false, degraded := true, lanes := 15 - 2 ^ x.dropped, low := [] }

/-- THREE_LANE_TIMEOUT (R301 step 3, R302). -/
def execThreeLaneTimeout (p : Nat) (s : State) : Host.Outcome State Fault Refusal :=
  .next <| if !(fhPort s p).retraining || (fhPort s p).restoring then s else fhPortDown s p

/-- The retrain of FH_PORT_RESTORE begins (R303): the link is down, and egress frames wait for it. -/
def startRestore (s : State) (p : Nat) : State :=
  if !(fhPort s p).up && !(fhPort s p).retraining then s
  else if s.hlt.hr.dies.contains (fhDie p) then fhPortDown s p
  else modFhPort s p fun x => { x with
    up := false, degraded := false, dropped := 0, lanes := 0, low := [], retraining := true, restoring := true }

/-- FH_LINK_RETRY (R302, R303): every 10 ms, and at the end of the retrain of FH_PORT_RESTORE; the link comes up on four
lanes, or stays down. A retrain that fails takes the port down. -/
def execFhLinkRetry (p : Nat) (up : Bool) (s : State) : Host.Outcome State Fault Refusal :=
  .next <|
    let x := fhPort s p
    if p ≤ 3 && x.restoring then (if up then fhLinkUp s p else fhPortDown s p)
    else if s.boot.phase != .booted || p > 3 || x.up || x.retraining || !up ||
        s.hlt.hr.dies.contains (fhDie p) then s
    else fhLinkUp s p

/-! ### Ethernet frames -/

/-- A frame's addresses, VLAN ID where it carries a tag, EtherType, and what follows (R299, R304). -/
structure EthFrame where
  dst : Nat
  src : Nat
  vlan : Option Nat
  etype : Nat
  body : List Byte
  deriving DecidableEq, Repr

/-- A frame without FCS taken apart: untagged or with one IEEE 802.1Q tag (R299). -/
def parseEth (bs : List Byte) : EthFrame :=
  let dst := beNat (bs.take 6)
  let src := beNat ((bs.drop 6).take 6)
  let t := beNat ((bs.drop 12).take 2)
  if t = 0x8100 then
    { dst := dst, src := src, vlan := some (beNat ((bs.drop 14).take 2) % 4096)
      etype := beNat ((bs.drop 16).take 2), body := bs.drop 18 }
  else { dst := dst, src := src, vlan := none, etype := t, body := bs.drop 14 }

/-- PAUSE or priority flow control (R299). -/
def isPause (e : EthFrame) : Bool :=
  let op := beNat (e.body.take 2)
  e.etype == 0x8808 && (op == 1 || op == 0x0101)

/-- PTP, or ESMC: rule 2 of R304. -/
def isTiming (e : EthFrame) : Bool :=
  e.etype == 0x88F7 || (e.etype == 0x8809 && beNat (e.body.take 1) == 0x0A)

/-- UDP destination port over IPv4, or over IPv6 without extension headers (R306). -/
def udpPort (e : EthFrame) : Option Nat :=
  let b (i : Nat) : Nat := (e.body.getD i 0).toNat
  if e.etype = 0x0800 then
    if b 9 = 17 then
      let h := 4 * (b 0 % 16)
      some (b (h + 2) * 256 + b (h + 3))
    else none
  else if e.etype = 0x86DD then
    if b 6 = 17 then some (b 42 * 256 + b 43) else none
  else none

/-! ### Radio ingress (R305) -/

/-- The cell on the air of a port that an eCPRI frame belongs to (R304 rule 3, R231). -/
def ingressCell (s : State) (p src eaxc : Nat) : Option Nat :=
  (portCells s p).find? fun c =>
    let r := (cell s c).record
    cRuMac r == src && cEaxc r ≤ eaxc && eaxc < cEaxc r + typeStreams (cType r)

/-- Big-endian bits of a byte string from a bit offset. -/
def bitField (bs : List Byte) (start n : Nat) : Nat :=
  beNat ((bs.drop (start / 8)).take 3) / 2 ^ (24 - start % 8 - n) % 2 ^ n

/-- One PRB of block floating point with a 4-bit exponent and 9-bit mantissas, as complex int16 (R243 U0, R305;
O-RAN layout, notes/assumptions/36.md). -/
def prbSamples (bs : List Byte) : List Byte :=
  let e := (bs.getD 0 0).toNat % 16
  (List.range 24).flatMap fun i =>
    let m := bitField (bs.drop 1) (9 * i) 9
    let v : Int := (if m < 256 then (m : Int) else (m : Int) - 512) * (2 ^ e : Nat)
    leBytes 2 ((v % 65536).toNat)

/-- The sections of a U-plane message after its 4-byte application header: first PRB and samples of each; none:
a compression other than that of R305. `fuel` counts sections. -/
def uplaneSections (prbs : Nat) : Nat → List Byte → Option (List (Nat × List Byte))
  | 0, _ => some []
  | fuel + 1, bs =>
    if bs.length < 34 then some []
    else
      let w := beNat (bs.take 4)
      let start := w / 256 % 1024
      let n := if w % 256 = 0 then prbs else w % 256
      if (bs.getD 4 0).toNat != 0x91 then none
      else
        let data := bs.drop 6
        let have' := Nat.min n (data.length / 28)
        let iq := (List.range have').flatMap fun i => prbSamples ((data.drop (28 * i)).take 28)
        (uplaneSections prbs fuel (data.drop (28 * n))).map fun r => (start, iq) :: r

/-- The frame nearest to now whose SFN has the low 8 bits of a frame ID (R320). -/
def frameOfId (s : State) (id : Nat) : Nat :=
  let f := frameNow s
  let d : Nat := (id + 1024 - sfnOf s f) % 256
  if d < 128 then f + d else f + d - 256

/-- UL U-plane of a cell (R305): IQ that arrives in its window enters the slot buffer. -/
def uplaneIq (s : State) (p c eaxc : Nat) (msg : List Byte) : State :=
  let r := (cell s c).record
  let h := beNat ((msg.drop 2).take 2)
  let frame := frameOfId s (msg.getD 1 0).toNat
  let slot := h / 4096 * 2 + h / 64 % 64
  let symbol := h % 64
  match uplaneSections (typePrbs (cType r)) 64 (msg.drop 4) with
  | none => fhCount s p 1
  | some secs =>
    if secs.isEmpty || slot > 19 || h / 64 % 64 > 1 || symbol > 13 then fhCount s p 1
    else
      let ends := airTime frame slot + symbolStart (symbol + 1)
      if networkNs s < ends then fhCount s p 5
      else if networkNs s > ends + cTa4 r * 1000 then fhCount s p 6
      else if (radDie s (cDie r)).lateUl.contains (c, frame, slot) then s
      else { s with rad := { s.rad with iq := s.rad.iq ++ secs.map fun x =>
        { cell := c, frame := frame, slot := slot, symbol := symbol, stream := eaxc - cEaxc r
          prb := x.1, iq := x.2 } } }

/-- Rules 3 and 4 of R304, and R305: an eCPRI frame. -/
def radioIngress (s : State) (p : Nat) (e : EthFrame) (frame : List Byte) : State :=
  let eaxc := beNat ((e.body.drop 4).take 2)
  match ingressCell s p e.src eaxc with
  | none => fhCount s p 1
  | some c =>
    let b0 := (e.body.getD 0 0).toNat
    if b0 / 16 != 1 || b0 % 2 == 1 then fhCount s p 1
    else if (e.body.getD 1 0).toNat = 0 then uplaneIq s p c eaxc (e.body.drop 8)
    else deliver s p 513 0 frame (networkTime s)

/-! ### Camera flows (R306, R307) -/

/-- Fields of a flow entry (R306). -/
def fValid (w : List W64) : Bool := bitOf (wd w 0) 63
def fSleeve (w : List W64) : Nat := fld (wd w 0) 62 57
def fMeter (w : List W64) : Nat := fld (wd w 0) 56 56
def fVlan (w : List W64) : Nat := fld (wd w 0) 55 44
def fUdp (w : List W64) : Nat := fld (wd w 0) 43 28
def fMac (w : List W64) : Nat := fld (wd w 1) 63 16
def fCir (w : List W64) : Nat := fld (wd w 2) 63 44
def fPir (w : List W64) : Nat := fld (wd w 2) 43 24
def fCbs (w : List W64) : Nat := fld (wd w 3) 63 40
def fPbs (w : List W64) : Nat := fld (wd w 3) 39 16

/-- A flow entry matches a frame (R306). -/
def flowMatches (w : List W64) (e : EthFrame) : Bool :=
  fValid w && fMac w == e.dst &&
  (fVlan w == 0xFFF || (match e.vlan with | none => fVlan w == 0 | some v => v == fVlan w && v != 0)) &&
  (fUdp w == 0 || udpPort e == some (fUdp w))

/-- The colour of a frame of B bytes and the bucket levels after it (R307), in units of 1/1,250 byte: `c` is Tc,
`e` is Tp (RFC 2698) or Te (RFC 4115), both refilled. 0 green, 1 yellow, 2 red. -/
def meterColour (meter c e bytes : Nat) : Nat × Nat × Nat :=
  let b := bytes * 1250
  if meter = 0 then
    if e < b then (2, c, e)
    else if c < b then (1, c, e - b)
    else (0, c - b, e - b)
  else
    if c ≥ b then (0, c - b, e)
    else if e ≥ b then (1, c, e - b)
    else (2, c, e)

/-- A bucket refilled over raw ticks at a rate in Mb/s: 1 Mb/s gives 1/1,250 byte a tick (R307). -/
def refill (level ticks rate burst : Nat) : Nat := Nat.min (burst * 1250) (level + ticks * rate)

/-- The tenant meter of a port brought to now (R307). -/
def meterNow (s : State) (p : Nat) : State :=
  modFhPort s p fun x => { x with
    meter := refill x.meter (since s x.meterAt) (x.tenantRate * 100) 65536, meterAt := now s }

/-- A frame of a flow (R306–R308): `len` counts the FCS, `buffered` the tenant frames in the ingress buffer. -/
def flowFrame (s : State) (p n : Nat) (frame : List Byte) (len buffered : Nat) : State :=
  let f := tget {} (fhPort s p).flows n
  if (sleeve s (fSleeve f.words)).st != .active || f.stopped then fhCount s p 4
  else
    let t := since s f.last
    let r := meterColour (fMeter f.words) (refill f.c t (fCir f.words) (fCbs f.words))
      (refill f.e t (fPir f.words) (fPbs f.words)) len
    let s := modFhPort s p fun x => { x with flows := tmod {} x.flows n fun f => { f with
      c := r.2.1, e := r.2.2, last := now s
      green := f.green + (if r.1 = 0 then w64 len else 0)
      yellow := f.yellow + (if r.1 = 1 then w64 len else 0)
      red := f.red + (if r.1 = 2 then w64 len else 0) } }
    if r.1 = 2 then fhCount s p 2
    else if r.1 = 1 && buffered ≥ 524288 then s
    else
      let s := meterNow s p
      if (fhPort s p).meter < len * 1250 || buffered + len > 1048576 then fhCount s p 3
      else deliver (modFhPort s p fun x => { x with meter := x.meter - len * 1250 }) p n r.1 frame
        (networkTime s)

/-- FRAME_RECEIVED (R304, R302, R315, R328): `frame` from the destination address through the FCS. -/
def execFrameReceived (p : Nat) (frame : List Byte) (fcsOk eccOk : Bool) (buffered : Nat) (s : State) :
    Host.Outcome State Fault Refusal :=
  .next <|
    let x := fhPort s p
    if s.boot.phase == .held || p > 3 || x.retraining then s
    else if !x.up then fhCount s p 1
    else
      let s := modFhPort s p fun x => { x with rxBytes := x.rxBytes + w64 frame.length }
      let body := frame.take (frame.length - 4)
      let e := parseEth body
      if !fcsOk || !eccOk then fhCount s p 0
      else if frame.length < 64 || frame.length > 9216 || isPause e then fhCount s p 1
      else if isTiming e then deliver s p 512 0 body (networkTime s)
      else if e.etype = 0xAEFE then radioIngress s p e body
      else match (x.flows.find? fun f => flowMatches f.2.words e).map (·.1) with
        | some n => flowFrame s p n body frame.length buffered
        | none => fhCount s p 1

/-! ### Gates (R310, R311) -/

/-- GATE_ENTRY_CHANGE (R310): the entry that network time gives applies. -/
def execGateEntryChange (p : Nat) (s : State) : Host.Outcome State Fault Refusal :=
  .next <| if s.boot.phase == .held || p > 3 then s else gateNow s p

/-- The pending list replaces the active one when its cycle start has come (R311). -/
def switchGates (s : State) (p : Nat) : State :=
  match (fhPort s p).pending with
  | none => s
  | some g => if networkNs s < g.base then s
    else gateNow (modFhPort s p fun x => { x with gates := g, pending := none }) p

/-- GATE_LIST_SWITCH (R311). -/
def execGateListSwitch (p : Nat) (s : State) : Host.Outcome State Fault Refusal :=
  .next <| if s.boot.phase == .held || p > 3 then s else switchGates s p

/-! ### Egress (R309, R312, R313, R315) -/

/-- The gate of a queue is open in the entry that applies. -/
def gateOpen (x : FhPort) (q : Nat) : Bool := gateBit (x.gates.entries.getD x.gateAt (0xFF, 0)).1 q

/-- The hem of a queue of the group lets a frame start (R312). -/
def hemAllows (s : State) (x : FhPort) (q bytes : Nat) : Bool :=
  match hemClose x q (networkNs s) with
  | none => true
  | some c =>
    let g := x.group.getD (q - 3) (64, 1, 0)
    if g.2.1 = 1 then
      networkTime s * 300 + wireUnits x bytes * 2 ^ 32 ≤ c * 300 * 2 ^ 32
    else networkNs s + g.2.2 ≤ c

/-- What becomes of the frame at the head of a queue. -/
inductive HeadFate where
  | start | wait | txLate | tooLong | launchTimeout
  deriving DecidableEq, Repr

/-- The head of a queue judged (R309, R312, R313). A radio frame starts at its scheduled tick; one that a step has moved out
of its window is not sent (R319). -/
def headFate (s : State) (x : FhPort) (q : Nat) (f : EgFrame) : HeadFate :=
  let nt := networkTime s
  let ns := networkNs s
  let launched := match f.launch with | none => true | some t => due32 (now32 s) t
  if f.entry.isNone then
    if Nat.max nt (f.opens * 2 ^ 32) * 300 + wireUnits x (frameLen f) * 2 ^ 32 > f.closes * 300 * 2 ^ 32
    then .txLate
    else if now s < f.sched || !gateOpen x q then .wait
    else if f.symbol.isSome && ns < f.opens then .txLate else .start
  else if q < 3 then (if launched && gateOpen x q then .start else .wait)
  else if !launched then .wait
  else match longestOpen x.gates q with
    | some w =>
      if wireUnits x (frameLen f) > w * 300 && !(w == 0 && f.launch.isSome) then .tooLong
      else if gateOpen x q then (if hemAllows s x q (frameLen f) then .start else .wait)
      else if f.launch.isSome && (f.since.any fun t => t + x.gates.cycle ≤ ns) then .launchTimeout
      else .wait
    | none => if gateOpen x q && hemAllows s x q (frameLen f) then .start else .wait

def popHead (s : State) (p q : Nat) : State :=
  modFhPort s p fun x => { x with queues := tmod [] x.queues q List.tail }

/-- The status written back for a frame that is TOO_LONG: one of those of R313, which does not say which, so a free
value chooses it (notes/assumptions/42.md). -/
def tooLongStatus (w : W64) : Status :=
  match w.toNat % 5 with
  | 0 => .ok
  | 1 => .badField
  | 2 => .denied
  | 3 => .timeout
  | _ => .targetLost

/-- The head of a queue brought to a frame that may start, the frames before it dropped (R309, R312, R313).
`fuel` counts frames. -/
def headFrame (p q : Nat) : Nat → State → State × Option EgFrame
  | 0, s => (s, none)
  | fuel + 1, s =>
    let x := fhPort s p
    match tget [] x.queues q with
    | [] => (s, none)
    | f :: rest => match headFate s x q f with
      | .start => (s, some f)
      | .txLate => headFrame p q fuel (failEgress (fhCount (popHead s p q) p 7) p .timeout f)
      | .tooLong =>
        let (w, s) := takeFree s 60
        headFrame p q fuel (failEgress (fhCount (popHead s p q) p 8) p (tooLongStatus w) f)
      | .launchTimeout => headFrame p q fuel (failEgress (popHead s p q) p .timeout f)
      | .wait =>
        let closed := f.launch.isSome && !gateOpen x q &&
          (match f.launch with | none => false | some t => due32 (now32 s) t)
        let since' := if !closed then none else if f.since.isSome then f.since else some (networkNs s)
        (modFhPort s p fun x => { x with
          queues := tset [] x.queues q ({ f with since := since' } :: rest) }, none)

/-- The queue of the group that sends next (R309), from the one that has its turn: a queue without a frame that
may start passes its turn without a quantum. `fuel` counts turns. -/
def drrTurn (p : Nat) (ready : List (Nat × EgFrame)) : Nat → State → State × Option (Nat × EgFrame)
  | 0, s => (s, none)
  | fuel + 1, s =>
    let x := fhPort s p
    let pass (s : State) : State := modFhPort s p fun x => { x with
      turn := if x.turn = 7 then 3 else x.turn + 1, turnPaid := false }
    match ready.find? fun r => r.1 == x.turn with
    | none => drrTurn p ready fuel (pass s)
    | some r =>
      let quantum := if x.turnPaid then 0 else (x.group.getD (x.turn - 3) (64, 1, 0)).1
      let s := modFhPort s p fun x => { x with
        deficits := tmod 0 x.deficits x.turn (· + quantum), turnPaid := true }
      if frameLen r.2 ≤ tget 0 (fhPort s p).deficits x.turn then
        (modFhPort s p fun y => { y with
          deficits := tmod 0 y.deficits x.turn (· - frameLen r.2) }, some r)
      else drrTurn p ready fuel (pass s)

/-- ONE_STEP on a PTP Sync frame directly on Ethernet (R315): originTimestamp and correctionField. `ts` in units
of 2^−32 ns. -/
def oneStep (bytes : List Byte) (ts : Nat) : List Byte :=
  let h := if beNat ((bytes.drop 12).take 2) = 0x8100 then 18 else 14
  let e := parseEth bytes
  if e.etype != 0x88F7 || beNat (e.body.take 1) % 16 != 0 || e.body.length < 44 then bytes
  else
    let ns := ts / 2 ^ 32
    let corr := (beNat ((e.body.drop 8).take 8) + ts / 2 ^ 16 % 2 ^ 16) % 2 ^ 64
    bytes.take h ++ e.body.take 8 ++ beBytes 8 corr ++ (e.body.drop 16).take 18 ++
      beBytes 6 (ns / 1000000000) ++ beBytes 4 (ns % 1000000000) ++ e.body.drop 44

/-- A frame starts (R309, R313, R315, R226). -/
def startFrame (s : State) (p q : Nat) (f : EgFrame) : State :=
  let ts := networkTime s
  let bytes := if f.oneStep then oneStep f.bytes ts else f.bytes
  let s := popHead s p q
  let s := emit (modFhPort s p fun x => { x with
      txBytes := x.txBytes + w64 (frameLen f)
      deficits := if (tget [] x.queues q).isEmpty then tdel x.deficits q else x.deficits })
    (.frame p (bytes ++ leBytes 4 (fcs32 bytes)))
  match f.entry with
  | none => s
  | some (r, addr) =>
    let k := (tget {} (fhPort s p).tx r).sleeve
    let s := modSleeve s k fun v => { v with acct := { v.acct with
      bytesDma := v.acct.bytesDma + w64 f.bytes.length } }
    writeBack s p r addr .ok (if f.tsReq then ts else 0)

/-- The head of one queue brought forward, noted when it may start. -/
def queueHead (p : Nat) (a : State × List (Nat × EgFrame)) (q : Nat) : State × List (Nat × EgFrame) :=
  let r := headFrame p q ((tget [] (fhPort a.1 p).queues q).length + 1) a.1
  match r.2 with
  | none => (r.1, a.2)
  | some f => (r.1, a.2 ++ [(q, f)])

/-- EGRESS_FRAME_START (R309–R313): the port's wire is free; Q0 to Q2 in strict priority, then the group. -/
def execEgressFrameStart (p : Nat) (s : State) : Host.Outcome State Fault Refusal :=
  .next <|
    if p > 3 || !(fhPort s p).up then s
    else
      let top := [0, 1, 2].foldl (queueHead p) (s, [])
      match top.2 with
      | (q, f) :: _ => startFrame top.1 p q f
      | [] =>
        let group := [3, 4, 5, 6, 7].foldl (queueHead p) (top.1, [])
        if group.2.isEmpty then group.1
        else
          let r := drrTurn p group.2 1024 group.1
          match r.2 with
          | some (q, f) => startFrame r.1 p q f
          | none => r.1

/-! ### Transmit rings (R313, R314) -/

/-- What a ready entry becomes: a queued frame, a status, or a page in move to wait for. -/
inductive TxTake where
  | frame (f : EgFrame)
  | fail (st : Status)
  | wait
  deriving DecidableEq, Repr

/-- EtherTypes that rings 1 to 15 may not send, and RU addresses (R314). -/
def txDenied (s : State) (p r : Nat) (bytes : List Byte) : Bool :=
  let t := beNat ((bytes.drop 12).take 2)
  r != 0 && (t == 0x8100 || t == 0xAEFE || t == 0x88F7 || t == 0x8808 || t == 0x8809 ||
    (s.rad.cells.any fun c => c.2.st != .absent && cFhPort c.2.record == p &&
      cRuMac c.2.record == beNat (bytes.take 6)))

/-- A ready entry checked and its frame built (R302, R313, R314). -/
def takeEntry (s : State) (p r addr : Nat) (bs : List Byte) : TxTake :=
  let x := fhPort s p
  let ring := tget {} x.tx r
  let w0 := leW64 bs
  let w1 := leW64 (bs.drop 8)
  let w2 := leW64 (bs.drop 16)
  let len := fld w0 63 48
  let launch := if bitOf w0 45 then some (fld w2 63 32) else none
  let top := if ring.vlan = 0xFFFF then 9212 else 9208
  let ahead : Bool := match launch with | none => false | some t => decide (diff32 t (now32 s) > 1000000000)
  if fld w0 28 2 != 0 || fld w1 63 48 != 0 || fld (leW64 (bs.drop 24)) 47 32 != 0 ||
      len < 60 || len > top || (bitOf w0 46 && r != 0) then .fail .badField
  else if ahead then .fail .timeout
  else match devRead s (ringIssuer ring.sleeve) (fld w1 47 0) len with
    | .error .wait => .wait
    | .error _ => .fail .denied
    | .ok d =>
      if txDenied s p r d then .fail .denied
      else if !x.up && !x.retraining then .fail .targetLost
      else
        let tag := if ring.vlan = 0xFFFF then [] else beBytes 2 0x8100 ++ beBytes 2 ring.vlan
        .frame { bytes := d.take 6 ++ beBytes 6 x.mac ++ tag ++ d.drop 12
                 entry := some (r, addr), tsReq := bitOf w0 47, oneStep := bitOf w0 46
                 launch := launch }

/-- Ready entries of a transmit ring taken in order (R313, R328), up to one that is queued already. `fuel`
counts entries. -/
def pollRing (p r : Nat) : Nat → State → State
  | 0, s => s
  | fuel + 1, s =>
    let t := tget {} (fhPort s p).tx r
    let addr := t.ring.addr + 32 * t.ring.pos
    let queued := (tget [] (fhPort s p).queues t.queue).any fun f => f.entry == some (r, addr)
    if t.ring.entries = 0 || t.ring.stopped || queued then s
    else match devRead s (ringIssuer t.sleeve) addr 32 with
      | .error .wait => park s addr 32 (.command (.txRingPoll p r))
      | .error _ => stopTx s p r
      | .ok bs =>
        if !bitOf (leW64 bs) 0 then s
        else
          let next (s : State) : State := modFhPort s p fun x => { x with
            tx := tmod {} x.tx r fun t => { t with
              ring := { t.ring with pos := (t.ring.pos + 1) % Nat.max 1 t.ring.entries } } }
          match takeEntry s p r addr bs with
          | .wait => park s (fld (leW64 (bs.drop 8)) 47 0) (fld (leW64 bs) 63 48) (.command (.txRingPoll p r))
          | .fail st => pollRing p r fuel (writeBack (next s) p r addr st 0)
          | .frame f => pollRing p r fuel (modFhPort (next s) p fun x => { x with
              queues := tmod [] x.queues t.queue fun l => l ++ [f] })

/-- TX_RING_POLL (R313). -/
def execTxRingPoll (p r : Nat) (s : State) : Host.Outcome State Fault Refusal :=
  .next <|
    if s.boot.phase == .held || p > 3 || r > 15 then s
    else pollRing p r (tget {} (fhPort s p).tx r).ring.entries s

/-! ### Commands (R326) -/

/-- The five (QUANTUM, HEM_MODE, HEM_NS) of FH_PORT_CONFIG (R326). -/
def configGroup (a : Nat → Nat) : List (Nat × Nat × Nat) :=
  (List.range 5).map fun i => (a (7 + 3 * i), a (8 + 3 * i), a (9 + 3 * i))

/-- The arguments of FH_PORT_CONFIG leave their ranges (R326). -/
def portConfigBad (a : Nat → Nat) : Bool :=
  let vlanBad := !((1 ≤ a 5 && a 5 ≤ 4094) || a 5 == 0xFFFF)
  let ringBad (i : Nat) : Bool := a i % 32 != 0 || a i ≥ 2 ^ 48 || a (i + 1) > 4096 ||
    (a (i + 1) == 0 && a i != 0)
  a 0 > 3 || a 1 ≥ 2 ^ 48 || a 2 > 1 || a 3 > 255 || a 4 < 1 || a 4 > 2000 || vlanBad || a 6 > 7 ||
    ((configGroup a).any fun g => g.1 < 64 || g.1 > 65535 || g.2.1 > 1 || g.2.2 > 100000) ||
    ringBad 22 || ringBad 24

/-- A ring of sleeve 0 lies in pages that the ownership check refuses (R328). -/
def ringDenied (s : State) (addr entries : Nat) : Bool :=
  (checkRange s (ringIssuer 0) .wr addr (32 * entries)).isSome

/-- FH_PORT_CONFIG (R299, R307, R309, R312, R325, R326). -/
def execFhPortConfig (cmd : Cmd) (s : State) : Host.Outcome State Fault Refusal :=
  .next <| serve 0x380 26 isMgmt cmd s fun _ s =>
    let a := argN cmd
    checked [(portConfigBad a, .badField),
      (ringDenied s (a 22) (a 23) || ringDenied s (a 24) (a 25), .denied)] <|
      .ok (modFhPort (meterNow s (a 0)) (a 0) fun x => { x with
        mac := a 1, degradeEn := a 2 == 1, eyeMin := a 3, tenantRate := a 4, vlan := a 5, pcp := a 6
        group := configGroup a
        timingRx := { addr := a 22, entries := a 23 }
        controlRx := { addr := a 24, entries := a 25 } }) []

/-- A flow entry breaks the map of R306; SLEEVE 0 and an ABSENT sleeve apart. -/
def flowBad (w : List W64) : Bool :=
  !rsvdZero w [(0, 27, 0), (1, 15, 0), (2, 23, 0), (3, 15, 0), (4, 51, 48), (5, 63, 0), (6, 63, 0),
    (7, 63, 0)] ||
  (fValid w &&
    (fCir w < 1 || fCir w > 800000 || fPir w > 800000 || (fMeter w == 0 && fPir w < fCir w) ||
     fCbs w < 9216 || (if fMeter w = 1 && fPir w = 0 then fPbs w != 0 else fPbs w < 9216) ||
     fld (wd w 4) 47 0 % 32 != 0 || fld (wd w 4) 63 52 > 4095))

/-- A flow entry written or cleared (R306, R307): both buckets full, the byte counters go on. -/
def putFlow (s : State) (p n : Nat) (words : List W64) : State :=
  modFhPort s p fun x => { x with
    flows := tmod {} x.flows n fun f =>
      { words := words, c := fCbs words * 1250, e := fPbs words * 1250
        last := if words.isEmpty then 0 else now s
        green := f.green, yellow := f.yellow, red := f.red } }

/-- FH_FLOW_SET (R306): both buckets start full (R307); the byte counters go on. -/
def execFhFlowSet (cmd : Cmd) (s : State) : Host.Outcome State Fault Refusal :=
  .next <| serve 0x381 10 isMgmt cmd s fun _ s =>
    let p := argN cmd 0
    let n := argN cmd 1
    let w := (List.range 8).map fun i => arg cmd (2 + i)
    let k := fSleeve w
    checked [(p > 3 || n > 511 || flowBad w, .badField)] <|
      if !fValid w then .ok (putFlow s p n []) []
      else checked [(k == 0, .denied), ((sleeve s k).st == .absent, .badField),
        ((checkRange s (ringIssuer k) .wr (fld (wd w 4) 47 0)
          (32 * (fld (wd w 4) 63 52 + 1))).isSome, .denied)] <|
        .ok (putFlow s p n w) []

/-- The arguments of FH_EGRESS_SET leave their ranges (R313, R326). -/
def egressBad (a : Nat → Nat) : Bool :=
  a 0 > 3 || a 1 > 15 || a 2 > 63 || (a 1 == 0 && (a 2 != 0 || a 3 != 0)) ||
    (a 1 != 0 && (a 3 < 3 || a 3 > 7)) || !((1 ≤ a 4 && a 4 ≤ 4094) || a 4 == 0xFFFF) ||
    a 5 % 32 != 0 || a 5 ≥ 2 ^ 48 || a 6 < 1 || a 6 > 4096

/-- A transmit ring assigned (R313, R326): frames of its former assignment leave their queue and are written back
with TARGET_LOST. -/
def assignRing (s : State) (p r : Nat) (ring : TxRing) : State :=
  let old := tget {} (fhPort s p).tx r
  let mine (f : EgFrame) : Bool := match f.entry with | some e => e.1 == r | none => false
  let gone := (tget [] (fhPort s p).queues old.queue).filter mine
  let s := modFhPort s p fun x => { x with
    queues := tmod [] x.queues old.queue fun l => l.filter fun f => !mine f }
  let s := gone.foldl (fun s f => failEgress s p .targetLost f) s
  modFhPort s p fun x => { x with tx := tset {} x.tx r ring }

/-- FH_EGRESS_SET (R313, R326): frames of the ring's former assignment are written back with TARGET_LOST. -/
def execFhEgressSet (cmd : Cmd) (s : State) : Host.Outcome State Fault Refusal :=
  .next <| serve 0x382 7 (fun p => isMgmtRadio p && (isMgmt p || argN cmd 1 == 0)) cmd s fun _ s =>
    let a := argN cmd
    let p := a 0
    let r := a 1
    checked [(egressBad a, .badField),
      ((checkRange s (ringIssuer (a 2)) .rd (a 5) (32 * a 6)).isSome, .denied)] <|
      .ok (assignRing s p r { sleeve := a 2, queue := a 3, vlan := a 4
                              ring := { addr := a 5, entries := a 6 } }) []

/-- Words of a gate list with its header (R310). -/
def gateWords (ws : List W64) : Nat := 2 + cdiv (fld (wd ws 1) 63 48) 2

/-- The entries of a gate list (R310): GATES and INTERVAL. -/
def gateEntries (ws : List W64) : List (Nat × Nat) :=
  (List.range (fld (wd ws 1) 63 48)).map fun i =>
    let v := fld (wd ws (2 + i / 2)) (31 + 32 * (i % 2)) (32 * (i % 2))
    (v / 2 ^ 24, v % 2 ^ 24)

/-- A gate list breaks R310: its entries, its header, its cycle. -/
def gateListBad (ws : List W64) : Bool :=
  let es := gateEntries ws
  let cycle := fld (wd ws 0) 31 0
  es.isEmpty || es.length > 256 || fld (wd ws 1) 47 0 != 0 || cycle < 1000 || cycle > 1000000000 ||
    (es.any fun e => e.2 < 100) || (es.map (·.2)).sum != cycle

/-- The gate list of FH_GATE_LIST (R372 rule 4): in the arguments; with two argument words alone, at the address
that the second gives (notes/assumptions/37.md). -/
def gateArg (s : State) (party : Party) (cmd : Cmd) : Except Status (List W64) :=
  if cmd.args.length > 2 then .ok (cmd.args.drop 1)
  else match readArg s party cmd.hostData (arg cmd 1) 16 with
    | .error e => .error e
    | .ok hd =>
      let n := gateWords (wordsOf 2 hd)
      match readArg s party cmd.hostData (arg cmd 1) (8 * n) with
      | .error e => .error e
      | .ok bs => .ok (wordsOf n bs)

/-- The first cycle start BASE + n × CYCLE that has not passed, network time [ns] (R311, R318). -/
def cycleStart (s : State) (base cycle : Nat) : Nat :=
  let d := diff32 base (now32 s)
  let n : Int := if d ≥ 0 then 0 else (-d + cycle - 1) / cycle
  ((networkNs s : Int) + d + n * cycle).toNat

/-- FH_GATE_LIST (R310, R311): a list already due takes effect first. -/
def execFhGateList (cmd : Cmd) (s : State) : Host.Outcome State Fault Refusal :=
  .next <| serve 0x383 (if cmd.args.length > 2 then 1 + gateWords (cmd.args.drop 1) else 2) isMgmt cmd s
    fun party s =>
      let p := argN cmd 0
      checked [(p > 3, .badField)] <|
        match gateArg s party cmd with
        | .error e => .fail e
        | .ok ws =>
          let es := gateEntries ws
          let base := fld (wd ws 0) 63 32
          let cycle := fld (wd ws 0) 31 0
          checked [((es.any fun e => e.1 % 8 != 7), .denied),
            (gateListBad ws, .badField)] <|
            let s := switchGates s p
            .ok (modFhPort s p fun x => { x with
              pending := some { base := cycleStart s base cycle, cycle := cycle, entries := es } }) []

/-- FH_PORT_RESTORE (R302, R303): with FORCE the cells of the port stop first; then the link goes down and retrains on
four lanes. A port that is down already, or whose die has a die-level fault, is down until FH_LINK_RETRY finds its
link. -/
def execFhPortRestore (cmd : Cmd) (s : State) : Host.Outcome State Fault Refusal :=
  .next <| serve 0x384 2 isMgmt cmd s fun _ s =>
    let p := argN cmd 0
    checked [(p > 3 || argN cmd 1 > 1, .badField),
      ((portCells s p).any (fun c => countedCell (cell s c)) && argN cmd 1 == 0, .notQuiesced)] <|
      let before := pointsMax s (p / 2)
      let stops := argN cmd 1 == 1 && !(portCells s p).isEmpty
      let s := if argN cmd 1 == 1 then stopCells s fun x => cFhPort x.record == p else s
      let s := if stops then capacityLost s (p / 2) before (pointsMax s (p / 2)) else s
      .ok (startRestore s p) []

/-- FH_PORT_STATUS (R325). -/
def fhStatusReg (s : State) (p : Nat) : Nat :=
  let x := fhPort s p
  (pack 32 [(31, b2n x.up), (30, b2n x.degraded), (28, if x.degraded then x.dropped else 0),
    (24, x.lanes), (23, b2n x.pending.isSome), (8, Nat.min 255 ((portCells s p).filter fun c => countedCell (cell s c)).length)]).toNat

/-- FH_PORT_CONFIG, offset 0x004 (R325). -/
def fhConfigReg (x : FhPort) : Nat :=
  (pack 32 [(31, b2n x.degradeEn), (16, x.eyeMin), (0, x.tenantRate)]).toNat

/-- FH_LANE_EYE (R325). -/
def laneEyeReg (eye : Tbl Nat) : Nat := ((List.range 4).map fun l => tget 0 eye l * 2 ^ (8 * l)).sum

/-- A saturating event counter register: [31] SAT, [30:0] COUNT (R325). -/
def eventReg (c : SatCtr) : Nat := b2n c.sat * 2 ^ 31 + c.count

/-- FH_PORT_STATUS (R325, R326, R466). -/
def execFhPortStatus (cmd : Cmd) (s : State) : Host.Outcome State Fault Refusal :=
  .next <| serve 0x385 1 isMgmtRadio cmd s fun _ s =>
    let p := argN cmd 0
    let x := fhPort s p
    checked [(p > 3, .badField)] <|
      .ok s ([w64 (fhStatusReg s p), w64 (fhConfigReg x), w64 (laneEyeReg x.eye), x.rxBytes, x.txBytes] ++
        (List.range 12).map fun i => w64 (eventReg (tget {} x.ctrs i)))

end Sys2Proof.Machine
end

