-- ==== Sys2Proof/Machine/FabricCmds.lean ====
section
/-! DEFINITION. The Voravatra fabric (R330–R359): descriptors of the fabric rings, arriving packets,
acknowledgements, collectives and barriers, ports, and the FABRIC commands. -/

namespace Sys2Proof.Machine

/-! ### Descriptors (R340–R343) -/

def fdKind (d : List W64) : Nat := fld (wd d 0) 63 60
def fdOpc (d : List W64) : Nat := fld (wd d 0) 59 56
def fdSignal (d : List W64) : Bool := bitOf (wd d 0) 55
def fdWait (d : List W64) : Bool := bitOf (wd d 0) 54
def fdRelaxed (d : List W64) : Bool := bitOf (wd d 0) 53
def fdFetch (d : List W64) : Bool := bitOf (wd d 0) 52
def fdRootOnly (d : List W64) : Bool := bitOf (wd d 0) 51
def fdChip (d : List W64) : Nat := fld (wd d 0) 50 41
def fdLocal (d : List W64) : Nat := fld (wd d 1) 63 16
def fdRemote (d : List W64) : Nat := fld (wd d 2) 63 16
def fdLen (d : List W64) : Nat := fld (wd d 3) 63 32
def fdSigAdd (d : List W64) : Nat := fld (wd d 3) 31 0
def fdCompl (d : List W64) : Nat := fld (wd d 4) 63 16
def fdResult (d : List W64) : Nat := fld (wd d 5) 63 16
def fdWaitAddr (d : List W64) : Nat := fld (wd d 6) 63 16

/-- Element bytes, alignment and bytes of an old value of an AOP (R341); none: reserved. -/
def aopShape : Nat → Option (Nat × Nat × Nat)
  | 0x0 | 0x1 | 0x2 => some (8, 8, 8)
  | 0x3 | 0x4 | 0x5 => some (4, 4, 4)
  | 0x6 | 0x7 | 0x8 => some (8, 8, 8)
  | 0x9 => some (16, 8, 8)
  | 0xA => some (32, 16, 16)
  | _ => none

/-- The outcome of an atomic depends on the order of arrival (R342). -/
def aopOrdered (aop : Nat) (fetch : Bool) : Bool :=
  fetch || aop == 0x3 || aop == 0x6 || aop == 0x9 || aop == 0xA

/-- An atomic breaks R341 or R342: element size, alignment, CAS length, RELAXED. -/
def atomicBad (aop addr len : Nat) (relaxed fetch : Bool) : Bool :=
  match aopShape aop with
  | none => true
  | some (size, align, _) => len % size != 0 || addr % align != 0 ||
      ((aop == 0x9 || aop == 0xA) && len != size) || (aopOrdered aop fetch && !relaxed)

/-- Element bytes of a COP (R343); none: reserved, or BARRIER only. -/
def copSize : Nat → Option Nat
  | 0x1 | 0x2 => some 2
  | 0x3 | 0x4 => some 16
  | 0x5 | 0x6 | 0x7 => some 8
  | _ => none

/-- A descriptor breaks the map of R340, R341 or R343. -/
def fabDescBad (chips : Nat) (d : List W64) : Bool :=
  let k := fdKind d
  !rsvdZero d [(0, 40, 0), (1, 15, 0), (2, 15, 0), (4, 15, 0), (5, 15, 0), (6, 15, 0)] ||
  k == 0 || k > 5 || fdChip d ≥ chips ||
  (fdSignal d && k != 1) || ((fdRelaxed d || fdFetch d) && k != 3) || (fdRootOnly d && k != 4) ||
  (k < 3 && fdOpc d != 0) || (!(fdSignal d || fdFetch d) && fdResult d != 0) ||
  (k != 5 && fdLen d == 0) ||
  (k == 3 && atomicBad (fdOpc d) (fdRemote d) (fdLen d) (fdRelaxed d) (fdFetch d)) ||
  (k == 4 && (match copSize (fdOpc d) with | none => true | some n => fdLen d % n != 0)) ||
  (k == 5 && (if fdOpc d = 0 then fdLen d != 0
    else !(5 ≤ fdOpc d && fdOpc d ≤ 7) || fdLen d != 8))

/-! ### Accesses of a job's fabric work -/

/-- ECC_UNCORRECTABLE met by a fabric request (R160, R394). -/
def fabricEcc (s : State) (h addr : Nat) : State :=
  raise s { code := 0x006, severity := 2, sleeve := some (job s h).owner, job := some (h, (job s h).gen)
            status := 8, d0 := addr, d1 := (Config.readerKind 2).toNat }

/-- What a failed local access of a fabric descriptor does (R32, R160). An access to a page in move waits. -/
def fabBar (s : State) (h addr : Nat) (b : Bar) : State :=
  jobBar (if b == .dataEcc then fabricEcc s h addr else s) h addr b

/-- The job whose fabric ring a command's descriptor comes from. -/
def fabricRing : Instr → Option Nat
  | .put h _ | .get h _ | .addI64 h _ | .minI64 h _ | .maxI64 h _ | .addF32 h _ | .minF32 h _ | .maxF32 h _
  | .addF64 h _ | .minF64 h _ | .maxF64 h _ | .cas64 h _ | .cas128 h _ | .anchorMin h _ | .anchorMax h _
  | .scaleMax h _ | .sumWide h _ | .sumI64 h _ | .collectiveMinI64 h _ | .collectiveMaxI64 h _ | .barrier h _ => some h
  | _ => none

/-- The page that a descriptor of a job's fabric ring waits for: those behind it start after it (R345). -/
def ringWaits (s : State) (h : Nat) : Option Nat :=
  s.pkg.waiters.findSome? fun w => match w.2 with
    | .command c => if fabricRing c == some h then some w.1 else none
    | _ => none

/-- A descriptor waits for a page in move, in arrival order (R31 condition 4, R34). -/
def ringPark (s : State) (page : Nat) (c : Instr) : State :=
  { s with pkg := { s.pkg with waiters := s.pkg.waiters ++ [(page, .command c)] } }

/-- A failed local access of a descriptor that starts: one to a page in move waits with its command. -/
def descBar (s : State) (i : Issuer) (k : Kind) (h addr len : Nat) (c : Instr) (b : Bar) : State :=
  if b == .wait then
    ringPark s (((pagesOf addr len).find? fun p => ownCheck s i k p == some .wait).getD (addr / 65536)) c
  else fabBar s h addr b

/-- Jobs faulted with TARGET_LOST (R350). -/
def loseJobs (s : State) (hs : List Nat) : State :=
  settleSnaps (hs.foldl (fun s h => faultJob s h .targetLost) s)

/-! ### Completion in ring order (R345) -/

/-- Packets of a descriptor that no acknowledgement has released. -/
def outstanding (s : State) (h id : Nat) : Bool :=
  s.fab.pairs.any fun e => (e.2.tracks ++ e.2.held).any fun t => t.job == h && t.desc == id

def fabRuns (s : State) (h : Nat) : List FabRun := tget [] s.fab.runs h
def setRuns (s : State) (h : Nat) (l : List FabRun) : State :=
  { s with fab := { s.fab with runs := tset [] s.fab.runs h l } }
def modRun (s : State) (h id : Nat) (f : FabRun → FabRun) : State :=
  setRuns s h ((fabRuns s h).map fun r => if r.id == id then f r else r)

/-- The descriptors of a job that have completed leave its ring from the front: 1 is added to their completion
words (R340, R345). `fuel` counts descriptors. -/
def settleRuns (h : Nat) : Nat → State → State
  | 0, s => s
  | fuel + 1, s =>
    match fabRuns s h with
    | [] => s
    | r :: rest =>
      if outstanding s h r.id || r.landed < r.awaited then s
      else
        let i := jobIssuer s h
        let a := fdCompl r.desc
        match devRead s i a 8 with
        | .error .wait => park s a 8 (.fabricRing h)
        | .error b => fabBar s h a b
        | .ok bs => match devWrite s i .wr a (leBytes 8 ((leNat bs + 1) % 2 ^ 64)) with
          | .error b => fabBar s h a b
          | .ok s' => settleRuns h fuel (setRuns s' h rest)

def settleJob (s : State) (h : Nat) : State := settleRuns h ((fabRuns s h).length) s

/-- Every job's descriptors looked at again. -/
def settleAll (s : State) : State := (s.fab.runs.map (·.1)).foldl settleJob s

/-! ### Starting a descriptor -/

/-- A descriptor that its job's fabric engine may start: the job runs, its start barrier is behind it, and
WAIT_FIRST is met (R340, R344). -/
def fabReady (s : State) (h : Nat) (d : List W64) : Except Bar Bool :=
  if (job s h).st != .running || (job s h).barrierStep.isSome then .ok false
  else if !fdWait d then .ok true
  else match devRead s (jobIssuer s h) (fdWaitAddr d) 8 with
    | .error b => .error b
    | .ok bs => .ok (decide (leNat bs ≥ (wd d 7).toNat))

/-- A descriptor fetched by the row of its KIND, and its OPC where `opc` names one; `body` starts it under a
fresh run number. It starts behind those of its ring that wait (R345). -/
def fabStart (s : State) (h kind : Nat) (opc : Option Nat) (c : Instr) (d : List W64)
    (body : ChipMap → Nat → State → State) : State :=
  match mapOfJob s h with
  | none => s
  | some m =>
    if (job s h).st != .running || (job s h).barrierStep.isSome then s
    else if let some page := ringWaits s h then ringPark s page c
    else if fabDescBad m.devs.length d then faultJob s h .badField
    else if fdKind d != kind || !(opc.all (· == fdOpc d)) then s
    else match fabReady s h d with
      | .error b => descBar s (jobIssuer s h) .rd h (fdWaitAddr d) 8 c b
      | .ok false => s
      | .ok true =>
        let id := s.fab.nextId + 1
        body m id { s with fab := { s.fab with nextId := id } }

/-- A run joins the ring's running descriptors. -/
def addRun (s : State) (h : Nat) (r : FabRun) : State := setRuns s h (fabRuns s h ++ [r])

/-- The pieces of at most 4,096 bytes of a range: offsets and lengths (R339). -/
def pieces (len : Nat) : List (Nat × Nat) :=
  (List.range (cdiv len 4096)).map fun i => (4096 * i, Nat.min 4096 (len - 4096 * i))

/-- The packets of a started descriptor sent; a device that cannot be reached loses the job (R336, R350). -/
def sendRun (s : State) (h : Nat) (r : FabRun) (ps : List Packet) : State :=
  let bytes := (ps.map (·.payload.length)).sum
  match sendAll (addRun s h r) (ps.map fun p =>
      (p, ({ seq := 0, packet := p, first := 0, job := h, desc := r.id } : Track))) with
  | none => faultJob s h .targetLost
  | some s' => countFabric s' (job s h).owner h bytes

/-- PUT (R340, R345): the data, then the SIGNAL as an ADD_I64. -/
def execPut (h : Nat) (d : List W64) (s : State) : Host.Outcome State Fault Refusal :=
  .next <| fabStart s h 1 none (.put h d) d fun m id s =>
    match devRead s (jobIssuer s h) (fdLocal d) (fdLen d) with
    | .error b => descBar s (jobIssuer s h) .rd h (fdLocal d) (fdLen d) (.put h d) b
    | .ok bs =>
      let dst := m.devs.getD (fdChip d) 0
      let me := chipIndex s h
      let data := (pieces (fdLen d)).map fun p =>
        mkPacket s pPut dst me m.num m.fgen (fdRemote d + p.1) [] ((bs.drop p.1).take p.2)
      let sig := if fdSignal d then
          [mkPacket s pAtomic dst me m.num m.fgen (fdResult d) [] (leBytes 8 (fdSigAdd d))]
        else []
      sendRun s h { id := id, desc := d } (data ++ sig)

/-- GET (R340, R345, R346): a request carries its length and the local address of its reply. -/
def execGet (h : Nat) (d : List W64) (s : State) : Host.Outcome State Fault Refusal :=
  .next <| fabStart s h 2 none (.get h d) d fun m id s =>
    match checkRange s (jobIssuer s h) .wr (fdLocal d) (fdLen d) with
    | some b => descBar s (jobIssuer s h) .wr h (fdLocal d) (fdLen d) (.get h d) b
    | none =>
      let ps := (pieces (fdLen d)).map fun p =>
        mkPacket s pGetReq (m.devs.getD (fdChip d) 0) (chipIndex s h) m.num m.fgen (fdRemote d + p.1) []
          (bytesOf [w64 p.2, w64 (fdLocal d + p.1)])
      sendRun s h { id := id, desc := d, awaited := fdLen d } ps

/-- An ATOMIC descriptor of one AOP (R340–R342). -/
def atomicCmd (aop h : Nat) (d : List W64) (c : Instr) (s : State) : State :=
  fabStart s h 3 (some aop) c d fun m id s =>
    let i := jobIssuer s h
    let (size, _, old) := (aopShape aop).getD (8, 8, 8)
    let back := if fdFetch d then fdLen d / size * old else 0
    match devRead s i (fdLocal d) (fdLen d) with
    | .error b => descBar s i .rd h (fdLocal d) (fdLen d) c b
    | .ok bs =>
      match if fdFetch d then checkRange s i .wr (fdResult d) back else none with
      | some b => descBar s i .wr h (fdResult d) back c b
      | none =>
        let flags := [(60, aop), (59, b2n (fdRelaxed d)), (58, b2n (fdFetch d))]
        let target (off : Nat) : Nat := if aop ≥ 0x9 then fdRemote d else fdRemote d + off
        let ps := (pieces (fdLen d)).map fun p =>
          mkPacket s pAtomic (m.devs.getD (fdChip d) 0) (chipIndex s h) m.num m.fgen (target p.1) flags
            ((bs.drop p.1).take p.2)
        sendRun s h { id := id, desc := d, awaited := back } ps

/-- The ATOMIC rows (R341, R342). -/
def execAddI64 (h : Nat) (d : List W64) (s : State) : Host.Outcome State Fault Refusal :=
  .next (atomicCmd 0x0 h d (.addI64 h d) s)
def execMinI64 (h : Nat) (d : List W64) (s : State) : Host.Outcome State Fault Refusal :=
  .next (atomicCmd 0x1 h d (.minI64 h d) s)
def execMaxI64 (h : Nat) (d : List W64) (s : State) : Host.Outcome State Fault Refusal :=
  .next (atomicCmd 0x2 h d (.maxI64 h d) s)
def execAddF32 (h : Nat) (d : List W64) (s : State) : Host.Outcome State Fault Refusal :=
  .next (atomicCmd 0x3 h d (.addF32 h d) s)
def execMinF32 (h : Nat) (d : List W64) (s : State) : Host.Outcome State Fault Refusal :=
  .next (atomicCmd 0x4 h d (.minF32 h d) s)
def execMaxF32 (h : Nat) (d : List W64) (s : State) : Host.Outcome State Fault Refusal :=
  .next (atomicCmd 0x5 h d (.maxF32 h d) s)
def execAddF64 (h : Nat) (d : List W64) (s : State) : Host.Outcome State Fault Refusal :=
  .next (atomicCmd 0x6 h d (.addF64 h d) s)
def execMinF64 (h : Nat) (d : List W64) (s : State) : Host.Outcome State Fault Refusal :=
  .next (atomicCmd 0x7 h d (.minF64 h d) s)
def execMaxF64 (h : Nat) (d : List W64) (s : State) : Host.Outcome State Fault Refusal :=
  .next (atomicCmd 0x8 h d (.maxF64 h d) s)
def execCas64 (h : Nat) (d : List W64) (s : State) : Host.Outcome State Fault Refusal :=
  .next (atomicCmd 0x9 h d (.cas64 h d) s)
def execCas128 (h : Nat) (d : List W64) (s : State) : Host.Outcome State Fault Refusal :=
  .next (atomicCmd 0xA h d (.cas128 h d) s)

/-! ### Collectives (R343) -/

/-- An anchor word (R80). -/
def anchorOfWord (v : Nat) : AnchorWord :=
  let w : BitVec 16 := BitVec.ofNat 16 v
  { windowed := bitOf w 15, empty := bitOf w 14, exp := sfld w 9 0 }
def anchorToWord (a : AnchorWord) : Nat :=
  b2n a.windowed * 2 ^ 15 + b2n a.empty * 2 ^ 14 + Int.toNat (a.exp % 1024)

/-- ANCHOR_MIN and ANCHOR_MAX of two anchor words (R343): EMPTY words are neutral. -/
def combineAnchor (takeMax : Bool) (x y : Nat) : Nat :=
  let a := anchorOfWord x
  let b := anchorOfWord y
  let e := if a.empty then b.exp else if b.empty then a.exp
    else if takeMax then max a.exp b.exp else min a.exp b.exp
  anchorToWord { windowed := a.windowed || b.windowed, empty := a.empty && b.empty, exp := e }

/-- One element combined (R79, R343); none: a wide partial that R78 does not allow. -/
def combineElem (cop x y : Nat) : Option Nat :=
  match cop with
  | 0x1 => some (combineAnchor false x y)
  | 0x2 => some (combineAnchor true x y)
  | 0x3 =>
    let a : Int := sfld (BitVec.ofNat 16 x) 15 0
    let b : Int := sfld (BitVec.ofNat 16 y) 15 0
    some ((max a b) % 65536).toNat
  | 0x4 => match decodeFrame x, decodeFrame y with
    | some a, some b => some (a.add b).encode
    | _, _ => none
  | c => some (combine64 c (w64 x) (w64 y)).toNat

/-- A vector combined element by element. `fuel` counts elements. -/
def combineBytes (cop size : Nat) : Nat → List Byte → List Byte → Option (List Byte)
  | 0, _, _ => some []
  | fuel + 1, a, b =>
    match combineElem cop (leNat (a.take size)) (leNat (b.take size)) with
    | none => none
    | some v => (combineBytes cop size fuel (a.drop size) (b.drop size)).map fun r => leBytes size v ++ r

/-- Segment i of a vector over n chips: its first byte and its end (R343; notes/assumptions/40.md). -/
def segment (c : Coll) (n i : Nat) : Nat × Nat :=
  let size := (copSize c.cop).getD 8
  let e := c.len / size
  (i * e / n * size, (i + 1) * e / n * size)

/-- The pieces of a segment: byte offset in the vector and length. -/
def segPieces (c : Coll) (n i : Nat) : List (Nat × Nat) :=
  let (a, b) := segment c n i
  (pieces (b - a)).map fun p => (a + p.1, p.2)

/-- ADDR of a COLL packet: phase (0 reduce, 1 distribute), the chip at which it ends, and the offset. -/
def collAddr (phase last off : Nat) : Nat := phase * 2 ^ 42 + last * 2 ^ 32 + off

/-- Pieces that reach a chip in a collective of n chips (R343). -/
def collExpected (c : Coll) (n me : Nat) : Nat :=
  let count (i : Nat) : Nat := (segPieces c n i).length
  let all := (List.range n).map count
  let reduce := all.sum - count ((me + n - 1) % n)
  let spread := if !c.rootOnly then all.sum - count me
    else if me = c.root then all.sum - count me else 0
  reduce + spread

/-- The run of a job's collective. -/
def collRun (s : State) (h : Nat) : Nat := (((fabRuns s h).find? fun r => fdKind r.desc == 4).map (·.id)).getD 0

/-- A COLL packet of a job to a chip. -/
def sendColl (s : State) (h : Nat) (m : ChipMap) (c : Coll) (chip addr : Nat) (bs : List Byte) : State :=
  let p := mkPacket s pColl (m.devs.getD chip 0) (chipIndex s h) m.num m.fgen addr [(60, c.cop)] bs
  if (job s h).st == .draining then s
  else match sendPacket s p { seq := 0, packet := p, first := 0, job := h, desc := collRun s h } with
    | none => faultJob s h .targetLost
    | some s' => countFabric s' (job s h).owner h bs.length

/-- A piece of the result lands in the local vector. -/
def landColl (s : State) (h : Nat) (c : Coll) (off : Nat) (bs : List Byte) : State :=
  match devWrite s (jobIssuer s h) .wr (c.addr + off) bs with
  | .ok s' => s'
  | .error b => fabBar s h (c.addr + off) b

/-- A piece has its final value on the last chip of its reduction: it lands, or goes to the root, and is
distributed (R343). -/
def finalColl (s : State) (h : Nat) (m : ChipMap) (c : Coll) (off : Nat) (bs : List Byte) : State :=
  let n := m.devs.length
  let me := chipIndex s h
  if !c.rootOnly then
    sendColl (landColl s h c off bs) h m c ((me + 1) % n) (collAddr 1 ((me + n - 1) % n) off) bs
  else if me = c.root then landColl s h c off bs
  else sendColl s h m c c.root (collAddr 1 c.root off) bs

/-- A COLL packet of the collective in progress combined and forwarded (R343). A LEN or COP that differs
faults the job with BAD_FIELD; a wide partial that R78 does not allow, with CHECK_FAILED. -/
def applyColl (s : State) (h : Nat) (m : ChipMap) (c : Coll) (p : Packet) : State :=
  let n := m.devs.length
  let me := chipIndex s h
  let size := (copSize c.cop).getD 8
  let phase := hAddr p / 2 ^ 42
  let last := hAddr p / 2 ^ 32 % 1024
  let off := hAddr p % 2 ^ 32
  let len := p.payload.length
  let s := { s with fab := { s.fab with
    colls := tset none s.fab.colls h (some { c with final := c.final ++ [hAddr p] }) } }
  if hOpc p != c.cop || !((List.range n).any fun i => (segPieces c n i).contains (off, len)) then
    faultJob s h .badField
  else if phase = 0 then
    match devRead s (jobIssuer s h) (c.addr + off) len with
    | .error b => fabBar s h (c.addr + off) b
    | .ok own => match combineBytes c.cop size (len / size) p.payload own with
      | none => faultJob s h .checkFailed
      | some v =>
        if last = me then finalColl s h m c off v
        else sendColl s h m c ((me + 1) % n) (hAddr p) v
  else
    let s := landColl s h c off p.payload
    if last = me then s else sendColl s h m c ((me + 1) % n) (hAddr p) p.payload

/-- A collective is over on this chip once every piece has passed it: its descriptor may complete. -/
def endColl (s : State) (h : Nat) (m : ChipMap) : State :=
  match tget none s.fab.colls h with
  | none => s
  | some c =>
    if c.final.length < collExpected c m.devs.length (chipIndex s h) then s
    else
      let s := modRun s h (collRun s h) fun r => { r with landed := 1 }
      settleJob { s with fab := { s.fab with colls := tset none s.fab.colls h none } } h

/-- A COLL packet arrives: for the collective in progress, or kept for the next one. -/
def takeColl (s : State) (h : Nat) (m : ChipMap) (p : Packet) : State :=
  match tget none s.fab.colls h with
  | none => { s with fab := { s.fab with early := s.fab.early ++ [(h, p)] } }
  | some c =>
    if c.final.contains (hAddr p) then { s with fab := { s.fab with early := s.fab.early ++ [(h, p)] } }
    else endColl (applyColl s h m c p) h m

/-- A collective starts (R343): the segment that this chip starts goes out, and packets that came early are
taken. -/
def startColl (s : State) (h : Nat) (m : ChipMap) (id : Nat) (c : Coll) (d : List W64) (bs : List Byte) : State :=
  let n := m.devs.length
  let me := chipIndex s h
  let s := addRun { s with fab := { s.fab with colls := tset none s.fab.colls h (some c) } } h
    { id := id, desc := d, awaited := 1 }
  let last := (me + n - 1) % n
  let s := (segPieces c n last).foldl (fun s p =>
    sendColl s h m c ((me + 1) % n) (collAddr 0 last p.1) ((bs.drop p.1).take p.2)) s
  let mine := (s.fab.early.filter fun e => e.1 == h).map (·.2)
  let s := { s with fab := { s.fab with early := s.fab.early.filter fun e => e.1 != h } }
  endColl (mine.foldl (fun s p => takeColl s h m p) s) h m

/-- The collective of a descriptor. -/
def collOf (cop : Nat) (d : List W64) : Coll :=
  { cop := cop, len := fdLen d, addr := fdLocal d, compl := fdCompl d, rootOnly := fdRootOnly d
    root := fdChip d }

/-- A COLLECTIVE descriptor of one COP (R343). While one collective of the job runs, the next waits. -/
def collCmd (cop h : Nat) (d : List W64) (q : Instr) (s : State) : State :=
  if (tget none s.fab.colls h).isSome then s
  else fabStart s h 4 (some cop) q d fun m id s =>
    let i := jobIssuer s h
    let c := collOf cop d
    match checkRange s i .wr c.addr c.len, devRead s i c.addr c.len with
    | some b, _ => descBar s i .wr h c.addr c.len q b
    | _, .error b => descBar s i .rd h c.addr c.len q b
    | none, .ok bs => startColl s h m id c d bs

/-- The COLLECTIVE rows (R343). -/
def execAnchorMin (h : Nat) (d : List W64) (s : State) : Host.Outcome State Fault Refusal :=
  .next (collCmd 0x1 h d (.anchorMin h d) s)
def execAnchorMax (h : Nat) (d : List W64) (s : State) : Host.Outcome State Fault Refusal :=
  .next (collCmd 0x2 h d (.anchorMax h d) s)
def execScaleMax (h : Nat) (d : List W64) (s : State) : Host.Outcome State Fault Refusal :=
  .next (collCmd 0x3 h d (.scaleMax h d) s)
def execSumWide (h : Nat) (d : List W64) (s : State) : Host.Outcome State Fault Refusal :=
  .next (collCmd 0x4 h d (.sumWide h d) s)
def execSumI64 (h : Nat) (d : List W64) (s : State) : Host.Outcome State Fault Refusal :=
  .next (collCmd 0x5 h d (.sumI64 h d) s)
def execCollectiveMinI64 (h : Nat) (d : List W64) (s : State) : Host.Outcome State Fault Refusal :=
  .next (collCmd 0x6 h d (.collectiveMinI64 h d) s)
def execCollectiveMaxI64 (h : Nat) (d : List W64) (s : State) : Host.Outcome State Fault Refusal :=
  .next (collCmd 0x7 h d (.collectiveMaxI64 h d) s)

/-! ### Barriers (R344) -/

/-- A BARRIER descriptor whose barrier has been released: the combined value lands at LOCAL_ADDR, once its page is not
in move (R31), and it may complete. -/
def settleBarrier (s : State) (h : Nat) : State :=
  match mapOfJob s h with
  | none => s
  | some m =>
    if m.waits != 3 || !m.released then s
    else match (fabRuns s h).find? fun r => fdKind r.desc == 5 && r.landed < r.awaited with
      | none => s
      | some r =>
        let done (s : State) : State :=
          settleJob (modRun (modMap s m.num fun x => { x with waits := 0, released := false }) h r.id fun r =>
            { r with landed := 1 }) h
        if fdOpc r.desc = 0 then done s
        else match devWrite s (jobIssuer s h) .wr (fdLocal r.desc) (leBytes 8 m.value.toNat) with
          | .error .wait => park s (fdLocal r.desc) 8 (.barrierValue h)
          | .error b => fabBar s h (fdLocal r.desc) b
          | .ok s' => done s'

/-- BARRIER (R344). -/
def execBarrier (h : Nat) (d : List W64) (s : State) : Host.Outcome State Fault Refusal :=
  .next <| fabStart s h 5 none (.barrier h d) d fun m id s =>
    if m.waits != 0 then s
    else
      let v : Except Bar (List Byte) :=
        if fdOpc d = 0 then .ok [] else devRead s (jobIssuer s h) (fdLocal d) 8
      match v with
      | .error b => descBar s (jobIssuer s h) .rd h (fdLocal d) 8 (.barrier h d) b
      | .ok bs =>
        let s := addRun s h { id := id, desc := d, awaited := 1 }
        settleBarrier (arriveBarrier s h 3 (fdOpc d) (leW64 bs) id) h

/-- BARRIER_TIMEOUT (R344): a barrier not complete once BARRIER_TIMEOUT has passed since this chip's arrival. -/
def execBarrierTimeout (h : Nat) (s : State) : Host.Outcome State Fault Refusal :=
  .next <|
    match mapOfJob s h with
    | none => s
    | some m => if m.waits = 0 || m.released || since s m.arrivedAt < s.fab.barrierMs * ticksPerMs then s
      else faultJob s h (if m.lost then .targetLost else .timeout)

/-! ### Arriving packets (R346) -/

/-- What applying a packet does to the sequence: applied and acknowledged, dropped in silence, refused, or
waiting for a page in move. -/
inductive Rcv where
  | applied (s : State)
  | drop (s : State)
  | nack (s : State) (st : Status)
  | wait
  deriving DecidableEq, Repr

/-- Fabric job number 0 is open: a cell that moves in waits for its carry (R259, R337). -/
def job0Open (s : State) : Bool := s.rad.cells.any fun c => c.2.job0.isSome

/-- Who a request of a map is checked as (R31, R337, R346): a sink's, in SHARED pages only. -/
def mapIssuer (s : State) (m : ChipMap) : Issuer :=
  if m.sink then { sleeve := m.sleeve, sharedOnly := true, remote := true }
  else { sleeve := m.sleeve, job := m.handle, gen := (job s m.handle).gen, remote := true }

/-- A target access that failed (R346, R160): a page in move waits; an uncorrectable word faults the local
job. -/
def rcvBar (s : State) (h addr : Nat) : Bar → Rcv
  | .wait => .wait
  | .dataEcc => .nack (if h = 0 then fabricEcc s h addr else faultJob (fabricEcc s h addr) h .checkFailed addr)
      .checkFailed
  | _ => .nack s .denied

/-- One element of an atomic (R341, R342): the new value of the target from its old one and the operand. -/
def atomicElem (aop old x : Nat) : Nat :=
  let i64 (v : Nat) : Int := (w64 v).toInt
  let f (q : FloatFmt) (op : Val → Val → Val) : Nat :=
    (roundFloat q { mode := 0 } (op (decodeFloat q old) (decodeFloat q x))).1
  let f64 : FloatFmt := ⟨11, 52, 1023, true, 0x7FEFFFFFFFFFFFFF, some 0x7FF8000000000000⟩
  match aop with
  | 0x0 => (old + x) % 2 ^ 64
  | 0x1 => if i64 old ≤ i64 x then old else x
  | 0x2 => if i64 old ≤ i64 x then x else old
  | 0x3 => f fp32Fmt addV
  | 0x4 => f fp32Fmt minV
  | 0x5 => f fp32Fmt maxV
  | 0x6 => f f64 addV
  | 0x7 => f f64 minV
  | 0x8 => f f64 maxV
  | _ => old

/-- The elements of an atomic payload applied to the target's bytes, in order. `fuel` counts elements. -/
def atomicElems (aop size : Nat) : Nat → List Byte → List Byte → List Byte
  | 0, _, _ => []
  | fuel + 1, old, x =>
    leBytes size (atomicElem aop (leNat (old.take size)) (leNat (x.take size))) ++
      atomicElems aop size fuel (old.drop size) (x.drop size)

/-- New bytes of the target of an atomic packet (R341): a CAS swaps where the old bytes equal its first half. -/
def atomicBytes (aop : Nat) (old x : List Byte) : List Byte :=
  if aop ≥ 0x9 then (if old = x.take old.length then x.drop old.length else old)
  else
    let size := ((aopShape aop).getD (8, 8, 8)).1
    atomicElems aop size (old.length / size) old x

/-- A sequenced packet that answers one of a job (GET_DATA, ATOMIC_RESP); one that cannot be sent is lost with
its device. -/
def sendAnswer (s : State) (m : ChipMap) (dst : Nat) (p : Packet) : State :=
  let h := (mapJob s m).getD 0
  match sendPacket s p { seq := 0, packet := p, first := 0, job := h } with
  | none => markLost s dst
  | some s' => countFabric s' m.sleeve h p.payload.length

/-- The first run of a job that awaits reply bytes of a kind, with where they land (R340, R346). -/
def replyRun (s : State) (h kind : Nat) : Option FabRun :=
  (fabRuns s h).find? fun r => fdKind r.desc == kind && r.landed < r.awaited

/-- A COLL packet's piece of the vector lies in a page in move: the packet waits (R31, R346). -/
def collWaits (s : State) (h : Nat) (p : Packet) : Bool :=
  match tget none s.fab.colls h with
  | none => false
  | some c =>
    let a := c.addr + hAddr p % 2 ^ 32
    !c.final.contains (hAddr p) && (checkRange s (jobIssuer s h) .wr a p.payload.length == some .wait ||
      checkRange s (jobIssuer s h) .rd a p.payload.length == some .wait)

/-- The packets of a job, a sink or job number 0 applied (R337, R341, R343–R346). -/
def applyData (s : State) (port : Nat) (m : ChipMap) (p : Packet) : Rcv :=
  let h := (mapJob s m).getD 0
  let i := mapIssuer s m
  let a := hAddr p
  let count (s : State) : State := countFabric s m.sleeve h p.payload.length
  let reply (at0 : Nat) (r : FabRun) : Rcv :=
    match devWrite s (jobIssuer s h) .wr at0 p.payload with
    | .error b => rcvBar s h at0 b
    | .ok s' => .applied (settleJob (modRun (count s') h r.id fun r => { r with
        landed := r.landed + p.payload.length }) h)
  match hType p with
  | 0x1 => match devWrite s i .wr a p.payload with
    | .error b => rcvBar s h a b
    | .ok s' => .applied (count s')
  | 0x2 =>
    let len := (leW64 p.payload).toNat
    if p.payload.length != 16 || len > 4096 then .nack s .badField
    else match devRead s i a len with
      | .error b => rcvBar s h a b
      | .ok bs => .applied (sendAnswer (count s) m (hSrc p)
          (mkPacket s pGetData (hSrc p) (ownChip s m) m.num m.fgen
            (leNat ((p.payload.drop 8).take 8) % 2 ^ 48) [] bs))
  | 0x3 => match replyRun s h 2 with
    | none => .applied s
    | some r => reply a r
  | 0x4 =>
    if atomicBad (hOpc p) a p.payload.length (hRelaxed p) (hFetch p) then .nack (vfCount s port 2) .badField
    else
      let span := if hOpc p ≥ 0x9 then p.payload.length / 2 else p.payload.length
      match checkRange s i .at a span with
      | some b => rcvBar s h a b
      | none =>
        if windowEcc s a span then rcvBar s h a .dataEcc
        else
          let old := windowRead s a span
          let s := count (windowWrite s a (atomicBytes (hOpc p) old p.payload))
          .applied (if hFetch p then sendAnswer s m (hSrc p)
              (mkPacket s pAtomicResp (hSrc p) (ownChip s m) m.num m.fgen a [] old)
            else s)
  | 0x5 => match replyRun s h 3 with
    | none => .applied s
    | some r => reply (fdResult r.desc + r.landed) r
  | 0x8 =>
    if m.devs.getD 0 1024 != s.fab.dev then .nack s .denied
    else .applied (settleBarrier (recordArrival s m.num (hChip p) (hArmed p) (leW64 p.payload)) m.handle)
  | 0x9 =>
    if hChip p != 0 then .nack s .denied
    else if m.waits = 0 || m.released then .applied s
    else .applied (settleBarrier (barrierReleased s m (hSnap p) (leW64 p.payload)) m.handle)
  | _ => if collWaits s m.handle p then .wait else .applied (takeColl (count s) m.handle m p)

/-- The checks from JOB_NUM on (R346), in its order. -/
def applyPacket (s : State) (port : Nat) (p : Packet) : Rcv :=
  if hJob p = 0 then
    if !job0Open s || hType p != pPut then .nack s .denied
    else match devWrite s { sleeve := 0, remote := true } .wr (hAddr p) p.payload with
      | .error b => rcvBar s 0 (hAddr p) b
      | .ok s' => .applied s'
  else match mapOf s (hJob p) with
    | none => .nack s .denied
    | some m =>
      if hFgen p != m.fgen then .drop (vfCount s port 5)
      else if m.devs.getD (hChip p) 1024 != hSrc p || (m.sink && hType p != pPut) then .nack s .denied
      else applyData s port m p

/-- A packet waits for a page in move, behind others of its source. -/
def parkPacket (s : State) (port : Nat) (p : Packet) : State := park s (hAddr p) p.payload.length (.packet port p)

/-- A sequenced packet: SEQ, payload CRC, application, and the answer (R346, R347). -/
def receiveSeq (s : State) (port : Nat) (p : Packet) : State :=
  let src := hSrc p
  let seq := hSeq p
  let want := if hSync p then seq else (pairOf s src).expect
  let d := diff32 seq want
  if d < 0 then sendReply (vfCount s port 4) pAck src ((want + 2 ^ 32 - 1) % 2 ^ 32) 0
  else if d > 0 then sendReply s pNack src want 0
  else
    let s := modPair s src fun x => { x with expect := want }
    let step (s : State) : State := modPair s src fun x => { x with expect := (seq + 1) % 2 ^ 32 }
    if !p.payload.isEmpty && crc32c p.payload != p.payloadCrc.toNat then
      sendReply (vfCount s port 1) pNack src seq (statusCode .checkFailed)
    else match applyPacket s port p with
      | .applied s' => sendReply (step s') pAck src seq 0
      | .drop s' => step s'
      | .nack s' st =>
        sendReply (if st == .denied then vfCount s' port 6 else s') pNack src seq (statusCode st)
      | .wait => parkPacket s port p

/-- A packet of this source already waits (R345 rule 2). -/
def packetWaits (s : State) (src : Nat) : Bool :=
  s.pkg.waiters.any fun w => match w.2 with
    | .packet _ q => hSrc q == src
    | _ => false

/-- The checks that every packet meets first (R335, R346): header CRC, TYPE and LEN, destination. -/
def arrive (typ : Nat) (port : Nat) (p : Packet) (s : State) (body : State → State) : State :=
  if s.boot.phase == .held || port > 15 || !(vfPort s port).up then s
  else if !s.fab.configured then vfCount s port 12
  else if headerCrc p.header != fld (wd p.header 3) 31 0 then vfCount s port 0
  else if hType p = 0 || hType p > 11 || hLen p > 4096 || hLen p != p.payload.length then vfCount s port 2
  else if hDst p != s.fab.dev then vfCount s port 3
  else if hType p != typ then s
  else body (modVfPort s port fun x => { x with rxBytes := x.rxBytes + w64 p.payload.length })

/-- What a packet asks of memory finds a tracker of its sleeve's share on the edge die of its port (R36); an answer
belongs to a transaction that holds one. -/
def packetTracker (s : State) (port : Nat) (p : Packet) : Bool :=
  hType p == pGetData || hType p == pAtomicResp || hType p == pArrive || hType p == pRelease ||
    trackerFree s (6 + port / 8) ((mapOf s (hJob p)).any (·.sleeve == 0))

/-- A sequenced packet of a type arrives; one whose access finds no tracker waits at the port (R36). -/
def arriveSeq (typ port : Nat) (p : Packet) (s : State) : Host.Outcome State Fault Refusal :=
  .next <| arrive typ port p s fun s =>
    if !packetTracker s port p then s
    else if packetWaits s (hSrc p) then parkPacket s port p else receiveSeq s port p

/-- PUT_PACKET (R346). -/
def execPutPacket (port : Nat) (p : Packet) (s : State) : Host.Outcome State Fault Refusal :=
  arriveSeq pPut port p s
/-- GET_REQ (R346). -/
def execGetReq (port : Nat) (p : Packet) (s : State) : Host.Outcome State Fault Refusal :=
  arriveSeq pGetReq port p s
/-- GET_DATA (R346). -/
def execGetData (port : Nat) (p : Packet) (s : State) : Host.Outcome State Fault Refusal :=
  arriveSeq pGetData port p s
/-- ATOMIC_PACKET (R341, R346). -/
def execAtomicPacket (port : Nat) (p : Packet) (s : State) : Host.Outcome State Fault Refusal :=
  arriveSeq pAtomic port p s
/-- ATOMIC_RESP (R346). -/
def execAtomicResp (port : Nat) (p : Packet) (s : State) : Host.Outcome State Fault Refusal :=
  arriveSeq pAtomicResp port p s
/-- BARRIER_ARRIVE (R344, R346). -/
def execBarrierArrive (port : Nat) (p : Packet) (s : State) : Host.Outcome State Fault Refusal :=
  arriveSeq pArrive port p s
/-- BARRIER_RELEASE (R344, R346, R353). -/
def execBarrierRelease (port : Nat) (p : Packet) (s : State) : Host.Outcome State Fault Refusal :=
  arriveSeq pRelease port p s
/-- COLL (R343, R346). -/
def execColl (port : Nat) (p : Packet) (s : State) : Host.Outcome State Fault Refusal :=
  arriveSeq pColl port p s

/-! ### Acknowledgements (R347) -/

/-- Elements of an acknowledged packet that count as choices (R97, R342). -/
def choiceCount (p : Packet) : Nat :=
  if hType p = pAtomic && aopOrdered (hOpc p) (hFetch p) then
    p.payload.length / ((aopShape (hOpc p)).getD (8, 8, 8)).1
  else 0

/-- A packet has been acknowledged: its choices count, and a carry ends with its last packet (R259, R342). -/
def acked (s : State) (dev : Nat) (t : Track) : State :=
  let n := choiceCount t.packet
  let s := if t.job = 0 || n = 0 then s
    else modJob s t.job fun j => { j with ctr := { j.ctr with choices := j.ctr.choices.add 0xFFFFFFFF n } }
  match t.cell with
  | none => s
  | some c =>
    let x := pairOf s dev
    if (x.tracks ++ x.held).any fun t => t.cell == some c then s else endCarry s c

/-- What waits toward a device is sent in its order, as far as trackers are free (R37); a packet that cannot be sent
loses its job. -/
def flushHeld (s : State) (dev : Nat) : State :=
  let x := pairOf s dev
  if (tget none s.fab.routeNext dev).isSome && !x.tracks.isEmpty then s
  else x.held.foldl (fun s t => match sendPacket s t.packet t with
    | some s' => s'
    | none =>
      let s := markLost s dev
      let s := match t.cell with | some c => endCarry s c | none => s
      if t.desc = 0 then s else faultJob s t.job .targetLost) (modPair s dev fun x => { x with held := [] })

/-- Trackers have become free: what waits for them goes on, toward each device. -/
def flushAll (s : State) : State :=
  ((s.fab.pairs.filter fun e => !e.2.held.isEmpty).map (·.1)).foldl flushHeld s

/-- A route change takes effect once nothing is outstanding, and what waited for it is sent (R336). -/
def routeChange (s : State) (dev : Nat) : State :=
  match tget none s.fab.routeNext dev with
  | none => s
  | some r =>
    if !(pairOf s dev).tracks.isEmpty then s
    else
      let s := { s with fab := { s.fab with
        routes := tset none s.fab.routes dev r, routeNext := tset none s.fab.routeNext dev none } }
      flushHeld s dev

/-- Packets sent again, oldest first (R347). -/
def resend (s : State) (dev : Nat) (ts : List Track) : State :=
  match homePort s dev with
  | none => s
  | some port =>
    if !(vfPort s port).up then s
    else ts.foldl (fun s t => vfCount (emitPacket s port t.packet) port 8) s

/-- ACK (R347): every packet up to its SEQ is released. -/
def execAck (port : Nat) (p : Packet) (s : State) : Host.Outcome State Fault Refusal :=
  .next <| arrive pAck port p s fun s =>
    let dev := hSrc p
    let x := pairOf s dev
    let covered (t : Track) : Bool := decide (diff32 (hSeq p) t.seq ≥ 0)
    let done := x.tracks.filter covered
    let s := setPair s dev { x with tracks := x.tracks.filter fun t => !covered t }
    let s := done.foldl (fun s t => acked s dev t) s
    settleAll (flushAll (routeChange s dev))

/-- NACK (R347): status 0 asks for a resend from its SEQ; CHECK_FAILED is resent once; a second one, or any
other status, faults the job. -/
def execNack (port : Nat) (p : Packet) (s : State) : Host.Outcome State Fault Refusal :=
  .next <| arrive pNack port p s fun s =>
    let dev := hSrc p
    let x := pairOf s dev
    let st := hAddr p / 2 ^ 32
    if st = 0 then resend s dev (x.tracks.filter fun t => decide (diff32 t.seq (hSeq p) ≥ 0))
    else match x.tracks.find? fun t => t.seq == hSeq p with
      | none => s
      | some t =>
        if st = statusCode .checkFailed && !t.failed then
          resend (setPair s dev { x with tracks := x.tracks.map fun u =>
            if u.seq == t.seq then { u with failed := true } else u }) dev [t]
        else
          let s := match t.cell with | some c => endCarry s c | none => s
          if t.job = 0 then s
          else faultJob s t.job (if st = statusCode .checkFailed then .checkFailed
            else if st = statusCode .badField then .badField else .denied)

/-- ACK_TIMEOUT (R347): everything unacknowledged is sent again when the oldest packet has waited 100 µs, and once
more at 200 µs. -/
def execAckTimeout (dev : Nat) (s : State) : Host.Outcome State Fault Refusal :=
  .next <|
    match (pairOf s dev).tracks with
    | [] => s
    | o :: rest =>
      if o.resent ≥ 2 || since s o.first < (o.resent + 1) * usTicks 100 then s
      else resend (setPair s dev { pairOf s dev with tracks := { o with resent := o.resent + 1 } :: rest }) dev (o :: rest)

/-- LINK_TIMEOUT (R350): the packets that were first sent a link timeout ago are given up; their jobs fault with
TARGET_LOST. -/
def execLinkTimeout (dev : Nat) (s : State) : Host.Outcome State Fault Refusal :=
  .next <|
    let late (t : Track) : Bool := (pairOf s dev).tracks.contains t && since s t.first ≥ s.fab.linkMs * ticksPerMs
    if !(pairOf s dev).tracks.any late then s
    else
      let r := dropTracks s dev late
      flushAll (routeChange (loseJobs r.1 r.2) dev)

/-! ### Ports (R332–R334) -/

/-- A port goes down and takes with it the jobs whose packets it owed (R334, R350). -/
def vfDown (s : State) (p : Nat) : State :=
  let homed := homedOn s p
  let r := fabPortDown s p
  flushAll (homed.foldl routeChange (loseJobs r.1 r.2))

/-- Replays of a packet that have failed in a row when the port asks for one more (R332): none at its first failure. -/
def failedReplays (x : VfPort) (link : Nat) : Nat :=
  match x.replay with
  | some (l, n) => if l = link then n + 1 else 0
  | none => 0

/-- LINK_REPLAY_REQUEST (R332): the packet with link sequence number `link` fails; its eighth failed replay in a row takes
the port down. -/
def execLinkReplayRequest (p link : Nat) (s : State) : Host.Outcome State Fault Refusal :=
  .next <|
    if p > 15 || !(vfPort s p).up then s
    else
      let n := failedReplays (vfPort s p) link
      let s := modVfPort (vfCount s p 7) p fun x => { x with replay := some (link, n) }
      let s := emit s (.replayRequest (16 + p))
      if n ≥ 8 then vfDown s p else s

/-- FABRIC_LANE_DROP (R333): the port runs on three lanes, its replay buffer kept. -/
def execFabricLaneDrop (p lane : Nat) (s : State) : Host.Outcome State Fault Refusal :=
  .next <|
    let x := vfPort s p
    if p > 15 || lane > 3 || !x.up || tget 0 x.low lane < 10 then s
    else
      let s := portEvent (vfCount s p 10) 2 (6 + p / 8) p 1
      if x.degraded then vfDown s p
      else modVfPort s p fun x => { x with
        degraded := true, dropped := lane, lanes := 15 - 2 ^ lane, low := []
        whitening := whiteningSeeds }

/-- FABRIC_PORT_DOWN (R334). -/
def execFabricPortDown (p : Nat) (s : State) : Host.Outcome State Fault Refusal :=
  .next <| if p > 15 || !(vfPort s p).up then s else vfDown s p

/-- FABRIC_LINK_RETRY (R334): every 10 ms. -/
def execFabricLinkRetry (p : Nat) (up : Bool) (s : State) : Host.Outcome State Fault Refusal :=
  .next <|
    if s.boot.phase != .booted || p > 15 || (vfPort s p).up || !up ||
        s.hlt.hr.dies.contains (6 + p / 8) then s
    else vfLinkUp s p

/-! ### Commands (R357) -/

/-- The manager, through its mailbox or the management sideband, and the fabric manager (R357, R369). -/
def isFabricUser (p : Party) : Bool := isMgmt p || p == .fabric

/-- The arguments of FABRIC_CONFIG leave their ranges (R357). -/
def fabricConfigBad (a : Nat → Nat) : Bool :=
  a 0 > 1023 || a 1 > 1023 || a 2 > 0xFFFF || a 3 < 1 || a 3 > 50 || a 4 < 1 || a 4 > 60000 || a 5 < 10000 ||
    a 5 > 100000000 || a 6 > 255

/-- FABRIC_CONFIG (R333, R335, R344, R347, R349, R350, R357, R410, R422). -/
def execFabricConfig (cmd : Cmd) (s : State) : Host.Outcome State Fault Refusal :=
  .next <| serve 0x400 7 isMgmt cmd s fun _ s =>
    let a := argN cmd
    checked [(s.hlt.hr.withdrawn || s.boot.minimal, .denied), (fabricConfigBad a, .badField),
      (!s.fab.maps.isEmpty, .notQuiesced)] <|
      let s := endCarries s
      .ok { s with fab := { s.fab with
        configured := true, dev := a 0, fmDev := a 1, mgmt := a 2, linkMs := a 3, barrierMs := a 4
        lagNs := a 5, eyeMin := a 6, pairs := [] } } []

/-- One item of FABRIC_ROUTE_SET (R336): at once, or once nothing is outstanding to the device. -/
def setRoute (s : State) (dev : Nat) (r : Option Nat) : State :=
  routeChange { s with fab := { s.fab with routeNext := tset none s.fab.routeNext dev (some r) } } dev

/-- The items of FABRIC_ROUTE_SET: a device and its port (R357). -/
def routeItems (cmd : Cmd) : List (Nat × Nat) :=
  (List.range (Nat.min 1024 (argN cmd 0))).map fun i => (argN cmd (1 + 2 * i), argN cmd (2 + 2 * i))

/-- FABRIC_ROUTE_SET (R336, R357). -/
def execFabricRouteSet (cmd : Cmd) (s : State) : Host.Outcome State Fault Refusal :=
  .next <| serve 0x401 (1 + 2 * Nat.min 1024 (argN cmd 0)) isFabricUser cmd s fun _ s =>
    let n := argN cmd 0
    let items := routeItems cmd
    checked [(n > 1024 || items.any fun i => i.1 > 1023 || (i.2 > 15 && i.2 != 0xFF), .badField)] <|
      .ok (items.foldl (fun s i => setRoute s i.1 (if i.2 = 0xFF then none else some i.2)) s) []

/-- A chip map or sink installed on the lowest FREE handle (R337, R352); what JOB_STATUS gave of its last job is gone
(R202). -/
def installMap (s : State) (num fgen k : Nat) (devs : List Nat) (sink : Bool) : Answer :=
  checked [(num < 1 || num ≥ 2 ^ 24 || fgen > 255 || (mapOf s num).isSome || devs.isEmpty ||
      devs.length > 1024 || (devs.any (· > 1023)) || k < 1 || k > 63 ||
      (sleeve s k).st == .absent, .badField)] <|
    match freeHandle s with
    | none => .fail .noSpace
    | some h =>
      let s := modJob s h fun j => { j with held := false }
      .ok { s with fab := { s.fab with maps := s.fab.maps ++
        [{ num := num, fgen := fgen, sleeve := k, devs := devs, handle := h, sink := sink }] } } []

/-- FABRIC_JOB_MAP (R337, R357): the map at the address is one word per chip, its device ID. -/
def execFabricJobMap (cmd : Cmd) (s : State) : Host.Outcome State Fault Refusal :=
  .next <| serve 0x402 5 isFabricUser cmd s fun party s =>
    let n := argN cmd 2
    checked [(n < 1 || n > 1024, .badField)] <|
      match readArg s party cmd.hostData (arg cmd 4) (8 * n) with
      | .error e => .fail e
      | .ok bs => installMap s (argN cmd 0) (argN cmd 1) (argN cmd 3) ((wordsOf n bs).map (·.toNat)) false

/-- FABRIC_SINK (R337, R357): the map at the address is a count, then one word per device. -/
def execFabricSink (cmd : Cmd) (s : State) : Host.Outcome State Fault Refusal :=
  .next <| serve 0x403 4 isFabricUser cmd s fun party s =>
    match readArg s party cmd.hostData (arg cmd 3) 8 with
    | .error e => .fail e
    | .ok hd =>
      let n := leNat hd
      checked [(n < 1 || n > 1024, .badField)] <|
        match readArg s party cmd.hostData (arg cmd 3) (8 * (n + 1)) with
        | .error e => .fail e
        | .ok bs => installMap s (argN cmd 0) (argN cmd 1) (argN cmd 2)
            ((wordsOf n (bs.drop 8)).map (·.toNat)) true

/-- FABRIC_TEARDOWN (R337, R351, R357). -/
def execFabricTeardown (cmd : Cmd) (s : State) : Host.Outcome State Fault Refusal :=
  .next <| serve 0x404 3 isFabricUser cmd s fun _ s =>
    let num := argN cmd 0
    match mapOf s num with
    | none => .fail .badField
    | some m =>
      checked [(argN cmd 1 > 255 || argN cmd 2 > 14, .badField)] <|
        match mapJob s m with
        | none => .ok { s with fab := { s.fab with maps := s.fab.maps.filter (·.num != num) } } []
        | some h =>
          let s := modMap s num fun x => { x with fgen := argN cmd 1, torn := true }
          .ok (beginTeardown s h (argN cmd 2) 2) []

/-- FABRIC_DEVICE_LOST (R347, R350, R357). -/
def execFabricDeviceLost (cmd : Cmd) (s : State) : Host.Outcome State Fault Refusal :=
  .next <| serve 0x405 1 isFabricUser cmd s fun _ s =>
    let d := argN cmd 0
    checked [(d > 1023, .badField)] <|
      let r := dropTracks s d fun _ => true
      let s := loseJobs (markLost r.1 d) r.2
      .ok (flushAll (routeChange (setPair s d {}) d)) []

/-- VF_DEVICE (R355). -/
def vfDeviceReg (s : State) : Nat :=
  (pack 32 [(31, b2n s.fab.configured), (21, s.fab.dev), (11, s.fab.fmDev)]).toNat

/-- VF_PORT_STATUS (R356). -/
def vfStatusReg (s : State) (p : Nat) : Nat :=
  let x := vfPort s p
  (pack 32 [(31, b2n x.up), (30, b2n x.degraded), (28, if x.degraded then x.dropped else 0), (24, x.lanes),
    (23, s.fab.mgmt / 2 ^ p % 2), (0, (homedOn s p).length)]).toNat

/-- A map or sink in FABRIC_STATUS (R466). -/
def mapWords (s : State) (m : ChipMap) : List W64 :=
  [pack 64 [(52, m.handle), (48, b2n m.sink), (42, m.sleeve), (32, m.devs.length - 1), (8, m.num),
    (0, m.fgen)],
   w64 (if m.sink then 0 else jobCode (job s m.handle).st)]

/-- FABRIC_STATUS (R355, R357, R466). -/
def execFabricStatus (cmd : Cmd) (s : State) : Host.Outcome State Fault Refusal :=
  .next <| serve 0x406 1 isFabricUser cmd s fun _ s =>
    let p := argN cmd 0
    let x := vfPort s p
    checked [(p > 15 && p != 0xFF, .badField)] <|
      let regs := if p = 0xFF then [w64 (vfDeviceReg s)]
        else [w64 (vfStatusReg s p), w64 (laneEyeReg x.eye), x.rxBytes, x.txBytes] ++
          pack32 ((List.range 13).map fun i => eventReg (tget {} x.ctrs i))
      .ok s (regs ++ [w64 s.fab.maps.length] ++ s.fab.maps.flatMap (mapWords s))

/-- FABRIC_PORT_RESTORE (R333, R357): the replay buffer carries what is under way; a port that is down comes up at a
FABRIC_LINK_RETRY (R334). -/
def execFabricPortRestore (cmd : Cmd) (s : State) : Host.Outcome State Fault Refusal :=
  .next <| serve 0x407 1 isFabricUser cmd s fun _ s =>
    checked [(argN cmd 0 > 15, .badField)] <|
      .ok (if (vfPort s (argN cmd 0)).up then vfLinkUp s (argN cmd 0) else s) []

/-- SLOW_CHIP_RECEIVED (R349, R394, R400). -/
def execSlowChipReceived (num chip : Nat) (s : State) : Host.Outcome State Fault Refusal :=
  .next <|
    match mapOf s num with
    | none => s
    | some m =>
      let s := raise s { code := 0x032, severity := 0, d0 := num, d1 := chip }
      match mapJob s m with
      | none => s
      | some h => ((jobSlots s h).map (·.1)).eraseDups.foldl markSuspect s

end Sys2Proof.Machine
end

