-- ==== Sys2Proof/Machine/AccessCmds.lean ====
section
/-! DEFINITION. Register accesses by their access codes and by who may reach them (R9, R10, R15, R28), ring
tails (R124), accesses of host cores (R31, R160), and the end of a page move (R34). -/

namespace Sys2Proof.Machine

/-- The state after a meaning. -/
def afterOf (o : Host.Outcome State Fault Refusal) (s : State) : State :=
  match o with
  | .next t => t
  | _ => s

/-! ### Places (R27) -/

/-- First device address of the register regions (R27). -/
def regBase : Nat := 0x030000000000
/-- A device address lies in the register regions (R27). -/
def inRegs (addr : Nat) : Bool := regBase ≤ addr && addr < regBase + 0x80000000
/-- Die index of a register address (R27). -/
def regDie (addr : Nat) : Nat := (addr - regBase) / 0x10000000
/-- Offset of a register address in its die's region (R27). -/
def regOff (addr : Nat) : Nat := (addr - regBase) % 0x10000000

/-- SAT of a counter, W1C in bit 31 (R9). -/
def satW1c (c : SatCtr) (v : W64) : SatCtr := { c with sat := c.sat && !bitOf v 31 }

/-! ### Mailbox windows (R370, R371) -/

/-- A write of a word of a mailbox window: ignored in WSTATUS, in the reserved range and while the slot is
ACCEPTED; STATE takes 0b01 and 0b00 alone, 0b01 only in a FREE slot. -/
def mboxWrite (s : State) (w off : Nat) (v : W64) : State :=
  let i := (off - 0x100) / 0x100
  let r := (off - 0x100) % 0x100
  let m := mslot s w i
  if off < 0x100 || i > 14 || m.state == 2 || r % 8 != 0 then s
  else if r = 0 then
    match fld v 1 0 with
    | 0 => setMslot s w i { m with opcode := fld v 63 48, state := 0 }
    | 1 => if m.state != 0 then s
      else afterOf (execMailboxPost w i (BitVec.ofNat 16 (fld v 63 48)) (BitVec.ofNat 32 m.tag) m.args s) s
    | _ => s
  else if r = 8 then setMslot s w i { m with tag := fld v 63 32 }
  else
    let j := (r - 16) / 8
    setMslot s w i { m with args := (m.args ++ List.replicate (j + 1 - m.args.length) 0).set j v }

/-- A read of a word of a mailbox window (R370). -/
def mboxRead (s : State) (w off : Nat) : Nat :=
  let i := (off - 0x100) / 0x100
  let r := (off - 0x100) % 0x100
  let m := mslot s w i
  if off = 0 then wstatusReg s w
  else if off < 0x100 || i > 14 || r % 8 != 0 then 0
  else if r = 0 then (pack 64 [(48, m.opcode), (32, m.status), (0, m.state)]).toNat
  else if r = 8 then (pack 64 [(32, m.tag)]).toNat
  else (wd m.args ((r - 16) / 8)).toNat

/-! ### Ring tails (R124, R134) -/

/-- The ring of a slot changed. -/
def modRing (x : Slot) (k : RingKind) (f : Ring → Ring) : Slot :=
  match k with
  | .feeder => { x with fring := f x.fring }
  | .dma => { x with dring := f x.dring }
  | .element => { x with ering := f x.ering }

/-- TAIL written: the entries before it may be fetched. An index beyond ENTRIES is ignored
(notes/assumptions/46.md). -/
def tailWrite (s : State) (e i : Nat) (k : RingKind) (v : Nat) : State :=
  if e > 15 || i > 4 then s
  else modSlot s e i fun x => modRing x k fun r => if v ≤ r.entries then { r with tail := v } else r

/-- RING_TAIL_WRITE (R124). -/
def execRingTailWrite (e i : Nat) (k : RingKind) (value : W32) (s : State) :
    Host.Outcome State Fault Refusal :=
  .next <| if s.boot.phase == .held then s else tailWrite s e i k (fld value 11 0)

/-! ### Register blocks -/

/-- Registers of a matrix engine (R131–R134). MXE_CTX_PART is written only while its slot has no pass in flight;
SIZE 0 is reserved. A context that so leaves its slot leaves it zeroed and released (R107, R122). -/
def mxeWrite (s : State) (e r : Nat) (v : W64) : State :=
  let i := (r - 0x100) / 0x40
  let q := (r - 0x100) % 0x40
  let ring (k : RingKind) : State := modSlot s e i fun x => modRing x k fun g =>
    { g with entries := fld v 63 52, addr := fld v 47 0 }
  if r = 0 then
    modEngine s e fun x => { x with reruns := { x.reruns with sat := x.reruns.sat && !bitOf v 18 } }
  else if r < 0x100 || i > 4 then s
  else if q = 0 then
    let y := slot s e i
    if fld v 17 12 = 0 || inFlight s e i then s
    else modSlot (if y.valid && !(bitOf v 31 && fld v 11 0 == y.job && fld v 23 18 == y.base && fld v 17 12 == y.size)
        then releaseSlot (zeroPartition s (e, i)) (e, i) else s) e i fun x => { x with
      valid := bitOf v 31, sleeve := fld v 30 25, paced := bitOf v 24, base := fld v 23 18
      size := fld v 17 12, job := fld v 11 0 }
  else if q = 0x08 then ring .feeder
  else if q = 0x18 then ring .dma
  else if q = 0x28 then ring .element
  else if q = 0x14 then tailWrite s e i .feeder (fld v 11 0)
  else if q = 0x24 then tailWrite s e i .dma (fld v 11 0)
  else if q = 0x34 then tailWrite s e i .element (fld v 11 0)
  else s

/-- EQP registers (R261). -/
def eqpWrite (s : State) (d r : Nat) (v : W64) : State :=
  let w : W32 := v.setWidth 32
  if r = 0x008 then modRadDie s d fun x => { x with
    sj := { x.sj with entries := fld v 63 52, addr := fld v 47 0 } }
  else if r = 0x014 then afterOf (execEqpSjTailWrite d w s) s
  else if r = 0x018 then modRadDie s d fun x => { x with
    rpt := { x.rpt with entries := fld v 63 52, addr := fld v 47 0 } }
  else if r = 0x020 then afterOf (execEqpRptHeadWrite d w s) s
  else if r = 0x028 then modRadDie s d fun x => { x with source := fld v 11 0 }
  else if r = 0x030 then modRadDie s d fun x => { x with sat := x.sat && !bitOf v 31 }
  else s

/-- SCC registers (R295–R297). -/
def sccWrite (s : State) (k r : Nat) (v : W64) : State :=
  if r = 0 then modSigCore s k fun x => { x with
    stall := x.stall && !bitOf v 25, iwriteRefused := x.iwriteRefused && !bitOf v 24 }
  else if r = 4 then modSigCore s k fun x => { x with reloadable := bitOf v 0 }
  else if r = 0x1C then modSigCore s k fun x => { x with checksSat := x.checksSat && !bitOf v 31 }
  else s

/-- Fronthaul port registers (R325): FH_PORT_CONFIG is written by Tacor only. -/
def fhWrite (s : State) (p r : Nat) (v : W64) (tacor : Bool) : State :=
  if r = 4 then
    if !tacor || fld v 15 0 = 0 || fld v 15 0 > 2000 then s
    else modFhPort (meterNow s p) p fun x => { x with
      degradeEn := bitOf v 31, eyeMin := fld v 23 16, tenantRate := fld v 15 0 }
  else if 0x40 ≤ r && r < 0x70 && r % 4 = 0 then
    modFhPort s p fun x => { x with ctrs := tmod {} x.ctrs ((r - 0x40) / 4) fun c => satW1c c v }
  else s

/-- The radio blocks of RD0 (d = 0) or RD1 (R28, R261, R273, R295, R325). -/
def radioWrite (s : State) (d off : Nat) (v : W64) (tacor : Bool) : State :=
  if 0x20000 ≤ off && off < 0x21000 then eqpWrite s d (off - 0x20000) v
  else if 0x30000 ≤ off && off < 0x32000 then
    sccWrite s (32 * d + (off - 0x30000) / 0x100) ((off - 0x30000) % 0x100) v
  else if 0x40000 ≤ off && off < 0x140000 && off % 4 = 0 then
    afterOf (execInstructionStoreWrite (32 * d + (off - 0x40000) / 0x8000) ((off - 0x40000) % 0x8000 / 4)
      (v.setWidth 32) s) s
  else if 0x200000 ≤ off && off < 0x202000 then
    fhWrite s (2 * d + (off - 0x200000) / 0x1000) ((off - 0x200000) % 0x1000) v tacor
  else s

/-- An offset of the radio blocks (R28). -/
def radioBlock (off : Nat) : Bool :=
  (0x20000 ≤ off && off < 0x21000) || (0x30000 ≤ off && off < 0x32000) ||
  (0x40000 ≤ off && off < 0x140000) || (0x200000 ≤ off && off < 0x202000) ||
  off == 0x210000 || off == 0x210008

/-- Timebase registers (R324). -/
def tbsWrite (s : State) (r : Nat) (v : W64) : State :=
  if r = 0 then modTim s fun t => { t with
    stepFlag := t.stepFlag && !bitOf v 29, forced := t.forced && !bitOf v 28 }
  else if r = 0x40 then modTim s fun t => { t with countsSat := t.countsSat && !bitOf v 31 }
  else if 0x100 ≤ r && r < 0x180 && r % 8 = 0 then afterOf (execCompareArm ((r - 0x100) / 8) v s) s
  else s

/-- DIC registers (R379, R383), written by a sender of a sleeve. -/
def dicWrite (s : State) (sl off : Nat) (v : W64) : State :=
  let t := (off - 0x8C000) / 0x100
  let q := (off - 0x8C000) % 0x100
  let n := (off - 0x88000) / 4
  if off = 0x80000 then dicMessage s sl (fld v 31 0)
  else if off = 0x80004 then { s with mgt := { s.mgt with dicSat := s.mgt.dicSat && !bitOf v 31 } }
  else if 0x88000 ≤ off && off < 0x8C000 && off % 4 = 0 then
    setDicSrc s n { dicSrc s n with sat := (dicSrc s n).sat && !bitOf v 28 }
  else if 0x8C000 ≤ off && t ≤ 19 && q = 0 then
    setDicCore s t { dicCore s t with enable := bitOf v 30 }
  else if 0x8C000 ≤ off && t ≤ 19 && q = 4 then afterOf (execDicEoi t (v.setWidth 32) s) s
  else s

/-- Blocks of ED0 that ED1 lacks (R15, R22, R173, R324, R383, R418). -/
def ed0Write (s : State) (off : Nat) (v : W64) : State :=
  if 0x2000 ≤ off && off < 0x2034 && off % 4 = 0 then
    { s with pkg := { s.pkg with seams := tmod {} s.pkg.seams ((off - 0x2000) / 4) fun x =>
        { x with sat := x.sat && !bitOf v 31 } } }
  else if 0x3000 ≤ off && off < 0x31C0 && off % 4 = 0 then
    modUnit s ((off - 0x3000) / 4) fun x => { x with liningSat := x.liningSat && !bitOf v 31 }
  else if 0x7000 ≤ off && off < 0x8000 then tbsWrite s (off - 0x7000) v
  else if off = 0x800C then { s with hlt := { s.hlt with logLost := satW1c s.hlt.logLost v } }
  else if 0x9000 ≤ off && off < 0x91F0 && off % 4 = 0 then
    modUnit s ((off - 0x9000) / 4) fun x => { x with actSat := x.actSat && !bitOf v 31 }
  else if 0x80000 ≤ off && off < 0x90000 then dicWrite s 0 off v
  else if 0x90000 ≤ off && off < 0x91000 then mboxWrite s 64 (off - 0x90000) v
  else s

/-- Power registers of a die (R59). -/
def pwrWrite (s : State) (die off : Nat) (v : W64) : State :=
  let n := (off - 0x4000) / 0x20
  let r := (off - 0x4000) % 0x20
  if n ≥ dieDomains die then s
  else if r = 4 then modDomain s (dieDomain0 die + n) fun x => { x with late := satW1c x.late v }
  else if r = 0x10 then modDomain s (dieDomain0 die + n) fun x => { x with wait := satW1c x.wait v }
  else s

/-- A write by Tacor at an offset of a die's register region (R28). -/
def regionWrite (s : State) (die off : Nat) (v : W64) : State :=
  if 0x4000 ≤ off && off < 0x4200 then pwrWrite s die off v
  else if die < 4 then
    if 0x10000 ≤ off && off < 0x14000 then
      mxeWrite s (4 * die + (off - 0x10000) / 0x1000) ((off - 0x10000) % 0x1000) v
    else s
  else if die < 6 then radioWrite s (die - 4) off v true
  else if 0x60000 ≤ off && off < 0x60800 then
    let r := (off - 0x60000) % 0x100
    if 0x40 ≤ r && r < 0x74 && r % 4 = 0 then
      modVfPort s (8 * (die - 6) + (off - 0x60000) / 0x100) fun x => { x with
        ctrs := tmod {} x.ctrs ((r - 0x40) / 4) fun c => satW1c c v }
    else s
  else if die = 6 then ed0Write s off v
  else s

/-- Registers of the manager page (R363, R427). -/
def managerWrite (s : State) (r : Nat) (v : W64) : State :=
  let m := s.mgt
  if r = 0x008 then if fld v 11 0 != 0 then s else { s with mgt := { m with evtBase := v } }
  else if r = 0x010 then { s with mgt := { m with evtEntries := fld v 15 0 } }
  else if r = 0x014 then { s with mgt := { m with evtHead := fld v 15 0 } }
  else if r = 0x01C then { s with mgt := { m with evtLost := satW1c m.evtLost v } }
  else if r = 0x020 then if fld v 11 0 != 0 then s else { s with mgt := { m with stageBase := v } }
  else if r = 0x028 then
    if v.toNat % 4096 != 0 || v.toNat > 2 ^ 30 then s else { s with mgt := { m with stageLen := v } }
  else if r = 0x108 then
    if fld v 11 0 != 0 then s else { s with boot := { s.boot with mboxAddr := v } }
  else if r = 0x110 then { s with boot := { s.boot with mboxLen := v.setWidth 32 } }
  else if r = 0x114 then if bitOf v 0 then postImage s else s
  else s

/-- A write of the host to a BAR0 offset (R215, R361). -/
def bar0Write (s : State) (off : Nat) (v : W64) : State :=
  let w : W32 := v.setWidth 32
  let k := (off - 0x40000) / 0x1000
  let r := (off - 0x40000) % 0x1000
  if !s.mgt.cxlUp then s
  else if 0x40000 ≤ off && off < 0x41000 then managerWrite s r v
  else if 0x41000 ≤ off && off < 0x80000 then
    if r = 0 then afterOf (execSqTailWrite k w s) s
    else if r = 4 then afterOf (execCqHeadWrite k w s) s
    else if r = 8 then afterOf (execFqHeadWrite k w s) s
    else if r = 0x14 && doorbellUp s k then modSleeve s k fun x => { x with intMask := fld v 1 0 }
    else s
  else if 0x80000 ≤ off && off < 0xC0000 then
    mboxWrite s ((off - 0x80000) / 0x1000) ((off - 0x80000) % 0x1000) v
  else s

/-! ### Host cores (R28, R31, R160, R384) -/

/-- The core runs radio firmware of the flash image (R384). -/
def firmwareCore (s : State) (k : Nat) : Bool := s.boot.radioFw && cfgRadioCores s / 2 ^ k % 2 == 1

/-- As whom a core that runs code issues its accesses (R31, R384): its context, or, on a core of RADIO_CORES,
sleeve 0. -/
def coreIssuer (s : State) (k : Nat) : Option Issuer :=
  let c := hostCore s k
  if s.boot.phase != .booted || k > 15 then none
  else if c.loaded then
    if (job s c.handle).st == .running then some { sleeve := c.sleeve, job := c.handle, gen := c.gen } else none
  else if firmwareCore s k then some { sleeve := 0 } else none

/-- The context that runs on a core faults (R28, R32, R160). -/
def coreFault (s : State) (k addr : Nat) (st : Status) : State :=
  let c := hostCore s k
  if c.loaded then faultJob s c.handle st addr (96 + k) else s

/-- What an access that may not proceed does (R32, R160). -/
def coreBar (s : State) (k addr : Nat) (b : Bar) : State :=
  let c := hostCore s k
  match b with
  | .wait => s
  | .stale => countStale s
  | .denied => coreFault s k addr .denied
  | .dataEcc =>
    let s := raise s { code := 0x006, severity := 2, sleeve := some c.sleeve, die := unitDie (96 + k)
                       unit := 96 + k, status := statusCode .checkFailed, d0 := addr, d1 := (Config.readerKind 1).toNat }
    coreFault (emit s (.notice "access fault" k addr)) k addr .checkFailed
  | _ =>
    let s := coreFault s k addr .denied
    if !c.loaded || c.sleeve = 0 || (sleeve s c.sleeve).st == .resetting ||
        (sleeve s c.sleeve).st == .removing then s
    else sleeveResetOp s c.sleeve .denied none

/-- A DIC source that a core owns: its route is VALID and names the core (R383, notes/assumptions/47.md). -/
def ownsSource (s : State) (k n : Nat) : Bool :=
  n < 4096 && bitOf (dicRoute s n) 31 && fld (dicRoute s n) 24 20 == 4 + k

/-- The parts of the DIC that a core reaches: its own DIC_CORE_STATUS and DIC_EOI, the DIC_SRCn of the sources it
owns, and, to write, DIC_DOORBELL (R28, R383). -/
def coreDic (s : State) (k die off : Nat) : Bool :=
  die == 6 && (off == 0x8C000 + 0x100 * (4 + k) || off == 0x8C004 + 0x100 * (4 + k) ||
    (0x88000 ≤ off && off < 0x8C000 && off % 4 == 0 && ownsSource s k ((off - 0x88000) / 4)))

/-- A host core's write of a register; none: it does not reach the register (R28). -/
def coreRegWrite (s : State) (k sl die off : Nat) (v : W64) : Option State :=
  if coreDic s k die off || (die == 6 && off == 0x80000) then some (dicWrite s sl off v)
  else if sl = 0 && (die = 4 || die = 5) && radioBlock off then some (radioWrite s (die - 4) off v false)
  else if sl = 0 && die = 6 && 0x90000 ≤ off && off < 0x91000 then some (mboxWrite s 64 (off - 0x90000) v)
  else none

/-- Registers of the radio blocks as radio firmware reads them (R261–R263, R273, R295–R297, R325). -/
def radioReg (s : State) (d off : Nat) : Nat :=
  let x := radDie s d
  let r := off - 0x20000
  let k := 32 * d + (off - 0x30000) / 0x100
  let c := sigCore s k
  let p := 2 * d + (off - 0x200000) / 0x1000
  let f := fhPort s p
  let q := (off - 0x200000) % 0x1000
  if 0x20000 ≤ off && off < 0x21000 then
    if r = 0 then (eqpStatus s d).toNat else if r = 4 then (eqpCapacity s d).toNat
    else if r = 8 then ringReg x.sj else if r = 0x10 then x.sj.head else if r = 0x14 then x.sj.tail
    else if r = 0x18 then ringReg x.rpt else if r = 0x20 then x.rpt.head else if r = 0x24 then x.rpt.tail
    else if r = 0x28 then x.source
    else if r = 0x30 then (pack 32 [(31, b2n x.sat), (16, x.overrun), (0, x.lost)]).toNat
    else if 0x100 ≤ r && r < 0x900 && r % 8 = 0 then
      (tget 0 (cell s ((r - 0x100) / 8)).slots d).toNat else 0
  else if 0x30000 ≤ off && off < 0x32000 then
    match (off - 0x30000) % 0x100 with
    | 0 => (pack 32 [(31, b2n (isFenced s (32 + k))), (30, b2n ((unitSt s (32 + k)).hold == 2)),
        (29, b2n c.task.isSome), (28, b2n c.mode), (27, b2n c.accSat), (26, b2n c.extSat),
        (25, b2n c.stall), (24, b2n c.iwriteRefused), (0, c.pc)]).toNat
    | 4 => b2n c.reloadable
    | 8 => c.beats.toNat
    | 0x10 => c.tasks.toNat
    | 0x18 => c.progress.toNat
    | 0x1C => (pack 32 [(31, b2n c.checksSat), (16, c.mismatch), (0, c.eccCorr)]).toNat
    | _ => 0
  else if 0x40000 ≤ off && off < 0x140000 && off % 4 = 0 then
    (tget 0 (sigCore s (32 * d + (off - 0x40000) / 0x8000)).store ((off - 0x40000) % 0x8000 / 4)).toNat
  else if 0x200000 ≤ off && off < 0x202000 then
    if q = 0 then fhStatusReg s p else if q = 4 then fhConfigReg f else if q = 8 then laneEyeReg f.eye
    else if q = 0x10 then f.rxBytes.toNat else if q = 0x18 then f.txBytes.toNat
    else if 0x40 ≤ q && q < 0x70 && q % 4 = 0 then eventReg (tget {} f.ctrs ((q - 0x40) / 4)) else 0
  else if off = 0x210008 then tget 0 s.tim.fhFrac (4 + d) * 2 ^ 16
  else 0

/-- A host core's read of a register, with what the read clears or latches; none: it does not reach the
register (R28, R324, R383). -/
def coreRegRead (s : State) (k sl die off : Nat) : Option State :=
  let answer (v : Nat) : State := emit s (.readValue (regBase + die * 0x10000000 + off) v)
  if coreDic s k die off then
    if off = 0x8C000 + 0x100 * (4 + k) then some (answer (dicCoreReg (dicCore s (4 + k))))
    else if 0x88000 ≤ off && off < 0x8C000 then some (afterOf (execDicSrcRead ((off - 0x88000) / 4) s) s)
    else some (answer 0)
  else if sl = 0 && (die = 4 || die = 5) && radioBlock off then
    if off = 0x210000 then some (afterOf (execFhNtNsRead die s) s) else some (answer (radioReg s (die - 4) off))
  else if sl = 0 && die = 6 && 0x90000 ≤ off && off < 0x91000 then some (answer (mboxRead s 64 (off - 0x90000)))
  else none

/-- A register access of a host core (R28): one that the core does not reach has no effect, a read of it returns 0,
and the context faults with DENIED. -/
def coreRegs (s : State) (k : Nat) (i : Issuer) (addr : Nat) (a : CoreAccess) : State :=
  let die := regDie addr
  let off := regOff addr
  match a with
  | .load _ => match coreRegRead s k i.sleeve die off with
    | some t => t
    | none => coreFault (emit s (.readValue addr 0)) k addr .denied
  | .store data => match coreRegWrite s k i.sleeve die off (leW64 data) with
    | some t => t
    | none => coreFault s k addr .denied
  | _ => coreFault (emit s (.readValue addr 0)) k addr .denied

/-- An access of a host core to the page window (R31, R32, R160). -/
def coreMem (s : State) (k : Nat) (i : Issuer) (addr : Nat) (a : CoreAccess) : State :=
  match a with
  | .load n => match devRead s i addr n with
    | .ok bs => emit s (.readValue addr (leNat bs))
    | .error .wait => park s addr n (.coreLoad k addr n)
    | .error b => coreBar s k addr b
  | .store data => match devWrite s i .wr addr data with
    | .ok t => t
    | .error .wait => park s addr data.length (.coreStore k addr data)
    | .error b => coreBar s k addr b
  | .atomicAdd v => match checkRange s i .at addr 8 with
    | some .wait => park s addr 8 (.coreAdd k addr v)
    | some b => coreBar s k addr b
    | none =>
      if windowEcc s addr 8 then coreBar s k addr .dataEcc
      else
        let old := leW64 (windowRead s addr 8)
        windowWrite (emit s (.readValue addr old.toNat)) addr (leBytes 8 (old + v).toNat)
  | _ => s

/-- An access of radio firmware to signal-core local memory (R27, R28, R160). -/
def coreLocal (s : State) (k : Nat) (addr : Nat) (a : CoreAccess) : State :=
  let key := memKey 3 (addr - 0x021000000000)
  match a with
  | .load n => if eccHit s key n then coreBar s k addr .dataEcc
    else emit s (.readValue addr (leNat (physRead s key n)))
  | .store data => if !(eccPartial s key data.length).isEmpty then coreBar s k addr .dataEcc
    else physWrite s key data
  | .atomicAdd v => if eccHit s key 8 then coreBar s k addr .dataEcc
    else
      let old := leW64 (physRead s key 8)
      physWrite (emit s (.readValue addr old.toNat)) key (leBytes 8 (old + v).toNat)
  | _ => s

/-- An access of a host core to host memory (R207, R208, R362, R367): inside a host range of its sleeve, while the link
is up, PASID is enabled where it must be, and the host does not refuse the translation. -/
def coreHost (s : State) (k : Nat) (i : Issuer) (addr n : Nat) (run : State → State) : State :=
  if !inHostRange (sleeve s i.sleeve) addr n then coreFault s k addr .denied
  else if !s.mgt.cxlUp then coreFault s k addr .targetLost
  else if !hostReachable s then coreFault s k addr .denied
  else run s

/-- Bytes that an access of a host core touches. -/
def accessLen : CoreAccess → Nat
  | .load n => n
  | .store data => data.length
  | .atomicAdd _ => 8
  | .hostLoad data => data.length
  | .hostStore data => data.length
  | .hostAbort n => n

/-- An access of a host core, by region (R27, R28): an address outside every region that the core reaches faults
its context with DENIED. An access of host memory names a host address. -/
def coreAccess (s : State) (k addr : Nat) (a : CoreAccess) : State :=
  let n := accessLen a
  match coreIssuer s k with
  | none => s
  | some i => match a with
    | .hostLoad data => coreHost s k i addr n fun s =>
      emit (hostRead s i.sleeve addr n) (.readValue addr (leNat data))
    | .hostStore data => coreHost s k i addr n fun s => hostWrite s i.sleeve addr data
    | .hostAbort _ => coreHost s k i addr n fun s => coreFault s k addr .denied
    | _ => if inWindow addr n then coreMem s k i addr a
    else if inRegs addr then coreRegs s k i addr a
    else if firmwareCore s k && 0x021000000000 ≤ addr && addr + n ≤ 0x021002000000 then coreLocal s k addr a
    else coreFault s k addr .denied

/-- A core finds a tracker of its sleeve's share free for an access of a page (R36). -/
def coreTracker (s : State) (k addr n : Nat) : Bool :=
  !inWindow addr n || unitTracker s (96 + k) (((coreIssuer s k).map (·.sleeve)).getD 0)

/-- HOST_CORE_ACCESS (R28, R31, R32, R160, R208): one that finds no tracker waits (R36). -/
def execHostCoreAccess (k addr : Nat) (a : CoreAccess) (s : State) : Host.Outcome State Fault Refusal :=
  .next <| if coreTracker s k addr (accessLen a) then coreAccess s k addr a else s

/-- REGISTER_WRITE (R9, R10, R15, R28): the writable fields by their access codes; a write that carries a reserved
encoding leaves the register as it is; a register that the writer does not reach is not written. -/
def execRegisterWrite (writer : RegWriter) (addr : Nat) (value : W64) (s : State) :
    Host.Outcome State Fault Refusal :=
  .next <|
    if s.boot.phase == .held then s
    else match writer with
      | .tacor => if inRegs addr then regionWrite s (regDie addr) (regOff addr) value else s
      | .bar0 => bar0Write s addr value
      | .radioFirmware =>
        if inRegs addr then (coreRegWrite s 16 0 (regDie addr) (regOff addr) value).getD s else s
      | .hostCore k => match coreIssuer s k with
        | none => s
        | some i =>
          if !inRegs addr then s
          else match coreRegWrite s k i.sleeve (regDie addr) (regOff addr) value with
            | some t => t
            | none => coreFault s k addr .denied

end Sys2Proof.Machine
end

