-- ==== Sys2Proof/Machine/Referee.lean ====
section
/-! DEFINITION. The referee of the lining (chapter 05): staging, the referee's pass and its verdict, locating replays.
R143, R147–R152, R176. -/

namespace Sys2Proof.Machine

/-! ### Disputes -/

/-- The oldest dispute of a suspect changed. -/
def modDispute (s : State) (u : Nat) (f : Dispute → Dispute) : State :=
  { s with lin := { s.lin with disputes :=
      match s.lin.disputes.findIdx? (·.suspect == u) with
      | some i => s.lin.disputes.modify i f
      | none => s.lin.disputes } }

/-- The oldest dispute of a suspect is over: staging and scratch are zeroed. -/
def dropDispute (s : State) (d : Dispute) : State :=
  let s := zeroReferee s d
  let left := match s.lin.disputes.findIdx? (·.suspect == d.suspect) with
    | some i => s.lin.disputes.eraseIdx i
    | none => s.lin.disputes
  noteReferees { s with lin := { s.lin with disputes := left } }

/-- A dispute ends without a verdict: its job faults; a radio pass has none (R150, R152). -/
def failDispute (s : State) (d : Dispute) (st : Status) : State :=
  let s := dropDispute s d
  if d.radio then s else faultSlot s (d.suspect % 16) d.slot st

/-! ### The chunk at work -/

/-- The pass of a referee is counted against its 5 % (R147). -/
def countReferee (s : State) (r beats : Nat) : State :=
  modUnit (noteOverhead s r beats) r fun x => { x with
    refBeats := (x.refBeats.filter fun b => since s b.1 < ticksPerS) ++ [(now s, beats)] }

/-- The rule of that pass: the original's, with the original's place of each row among the outputs (R88). -/
def chunkRule (s : State) (d : Dispute) (e : Nat) (es : List PassError) : PassRule :=
  let p := chunkPass s d e
  let x := chunkSlot s d
  let chip := fld (wd (job s d.job).block 1) 63 54
  { x := x, e := e, d := p.desc, tile := p.tile, t := 0, rounds := d.closes
    rnd := fun m n => chainRounding d.desc chip (d.chunk.getD m 0) n, err := frameErr s x e p es }

/-- An error of the checker, not of an output. -/
def errOfChecker : PassError → Bool
  | .output _ _ _ => false
  | _ => true

/-- Bytes of an output row of the pass. -/
def outRowBytes (d : Dispute) : Nat := cCols d.desc * if d.closes then outBytes (cOutFmt d.desc) else 16

/-- Where the suspect's partition holds output row m of the pass. -/
def outRowOff (d : Dispute) (m : Nat) : Nat :=
  if d.closes then cOut d.desc + m * cOutStride d.desc else partOff d.desc (d.products % 2 == 1) m 0

/-- X_r, or the original computed again: the output rows that a run over the chunk leaves. -/
def chunkResult (s : State) (d : Dispute) (e : Nat) (es : List PassError) : List (List Byte) :=
  let o := productPass s (chunkRule s d e es)
  (List.range d.chunk.length).map fun r =>
    physRead o.st (scratchKey s e + chunkOut + 4096 * r) (outRowBytes d)

/-- X_o: it stands in the partition (R150); of a radio pass, whose result was discarded, it is what the suspect gave
(R152). -/
def originalRows (s : State) (d : Dispute) (e : Nat) : List (List Byte) :=
  if d.radio then chunkResult s d e (chunkErrors d)
  else d.chunk.map fun m => physRead s (partKey (slot s (d.suspect % 16) d.slot) (d.suspect % 16) (outRowOff d m))
    (outRowBytes d)

/-- The reading of the chunk with given errors, by the check of the original pass. -/
def readChunk (s : State) (d : Dispute) (e : Nat) (windowed : Bool) (rows : List Nat) (mask : Nat → Bool)
    (es : List PassError) : Verdict :=
  readPass s (chunkSlot s d) e (chunkPass s d e) windowed rows rows mask es

/-- X_r, put in place of X_o in its rows, satisfies the original syndromes (R150): what the original checker added
wrongly stays; rows of other chunks are judged in theirs. -/
def satisfies (s : State) (d : Dispute) (e : Nat) (es : List PassError) : Bool :=
  readChunk s d e d.windowed (List.range d.fed) (fun _ => true)
    ((chunkErrors d).filter errOfChecker ++ es.filter fun x => !errOfChecker x) == .checked

/-- The referee's own lining of its pass. -/
def ownLiningOk (s : State) (d : Dispute) (e : Nat) (es : List PassError) : Bool :=
  passVerdict s (chunkSlot s d) e (chunkPass s d e) es == .checked

/-! ### Staging (R150, R152) -/

/-- A disagreement that ends without a verdict is captured (R171); a pass under mandatory referee was none (R412). -/
def captureOpen (s : State) (d : Dispute) : State := if d.mandatory then s else capture s d 0

/-- A page of the staging buffers cannot be read: its frame leaves service, and the job faults (R176). -/
def stagingBad (s : State) (d : Dispute) (b : Nat) : State :=
  let s := captureOpen s d
  let keys := eccTouched s (stagingKey b) (2 ^ 20)
  let frames := (List.range 16).filter fun i => keys.any fun k =>
    stagingKey b + 65536 * i ≤ k && k < stagingKey b + 65536 * (i + 1)
  let retired := frames.map fun i => frameKey 2 (2 * 2 ^ 22 + 3456 + 16 * b + i)
  let s := raise s { code := 0x006, severity := 2, die := 6, d0 := stagingKey b
                     d1 := (Config.readerKind 0).toNat }
  failDispute { s with pkg := { s.pkg with
    retired := s.pkg.retired ++ retired.filter fun k => !s.pkg.retired.contains k } } d .checkFailed

/-- The scratch of a referee cannot be read: its pocket takes an ECC strike, and the job faults (R176). -/
def scratchBad (s : State) (d : Dispute) (r : Nat) : State :=
  strike (failDispute (captureOpen s d) d .checkFailed) (r % 16) 6 0xFFFF d.job d.sleeve false

/-- The referee has its chunk (R150): out of staging into its scratch, under CRC-32C (notes/assumptions/68.md). -/
def stageChunk (s : State) (d : Dispute) (b r : Nat) : State :=
  let s := physCopy s (scratchKey s (r % 16)) (stagingKey b) (2 ^ 20)
  modDispute (countReferee s r (refereeBeats d)) d.suspect fun d => { d with
    st := .referee, refs := d.refs ++ [r], buffer := some b, noneSince := none }

/-- The chunk in a free staging buffer: a radio pass's as it was kept, any other's out of the suspect's partition. -/
def fillBuffer (s : State) (d : Dispute) (b : Nat) : State :=
  match d.images with
  | i :: _ => placeImage s (stagingKey b) i
  | [] => gatherChunk s d (stagingKey b)

/-- A unit may begin with a dispute's chunk: preferred, not queued behind an older dispute, at a pass boundary (R147). -/
def refereeReady (s : State) (d : Dispute) (r : Nat) : Bool :=
  preferred s d r && !isQueued s d r && (r ≥ 16 || (engine s r).pass.isNone)

/-- REFEREE_STAGING (R147, R150): with a staging buffer free and a preferred referee, whose domains are switched on first
(R46). A dispute whose suspect alone remains has none. -/
def execRefereeStaging (u r : Nat) (s : State) : Host.Outcome State Fault Refusal :=
  .next <| match disputeOf s u with
    | none => s
    | some d =>
      if d.st != .staging then s
      else if suspectAlone s d && !d.mandatory then failDispute (capture s d 0) d .checkFailed
      else if !refereeReady s d r then s
      else if !engineAwake s (r % 16) then wakeEngine s (r % 16)
      else if d.element then
        modDispute (countReferee s r (refereeBeats d)) u fun d => { d with
          st := .referee, refs := d.refs ++ [r], noneSince := none }
      else match d.buffer, freeBuffer s with
        | some b, _ => if eccHit s (stagingKey b) (2 ^ 20) then stagingBad s d b else stageChunk s d b r
        | none, none => s
        | none, some b =>
          if d.images.isEmpty && chunkEcc s d then pocketEcc s (u % 16) d.slot
          else
            let t := fillBuffer s d b
            if eccHit t (stagingKey b) (2 ^ 20) then stagingBad t d b else stageChunk t d b r

/-- No referee has been eligible for 100 ms (R150). -/
def refereeLate (s : State) (d : Dispute) : Bool :=
  !anyEligible s d && d.noneSince.any fun t => since s t ≥ 100 * ticksPerMs

/-- REFEREE_TIMEOUT (R150): 100 ms without an eligible referee, or only the suspect remains: the job faults. Units
under mandatory referee wait for capacity (R412). -/
def execRefereeTimeout (u : Nat) (s : State) : Host.Outcome State Fault Refusal :=
  .next <| match disputeOf s u with
    | none => s
    | some d =>
      if d.st != .staging || d.mandatory then s
      else if suspectAlone s d || refereeLate s d then failDispute (capture s d 0) d .checkFailed
      else s

/-! ### The verdict (R150) -/

/-- WITHHELD (R150): the job ends UNDECIDED, the suspect and every referee of the disagreement are fenced until
fittings clear them, and the record names the referees. -/
def withhold (s : State) (d : Dispute) : State :=
  let s := dropDispute s d
  let s := raise s { code := 0x014, severity := 2, sleeve := some d.sleeve
                     job := if d.radio then none else some (d.job, d.gen)
                     status := statusCode .undecided, die := unitDie d.suspect, unit := d.suspect
                     d0 := d.refs.headD 0xFF, d1 := d.refs.getD 1 0xFF }
  let s := if d.radio then s else faultSlot s (d.suspect % 16) d.slot .undecided
  (d.suspect :: (d.refs ++ d.past.filter fun r => !d.refs.contains r)).foldl (fun s u =>
    let s := if isFenced s u then s else fenceUnit s u .awaiting 3
    modUnit s u fun x => { x with clearing := true, clearSince := now s, clearRuns := 0, fit := none }) s

/-- The next chunk, or the end of the dispute with the ring released (R149, R150). -/
def nextChunk (s : State) (d : Dispute) : State :=
  if (d.rows.drop d.chunk.length).isEmpty then
    let s := dropDispute s d
    if d.radio then s else endReferee s d.suspect d.slot d.element
  else noteReferees <| modDispute (zeroReferee s d) d.suspect fun d => { d with
    rows := d.rows.drop d.chunk.length, st := .staging, past := d.past ++ d.refs, refs := []
    buffer := none, images := d.images.drop 1 }

/-- X_r written over the disputed rows of the suspect's partition (R150). -/
def writeRows (s : State) (d : Dispute) (rows : List (List Byte)) : State :=
  let e := d.suspect % 16
  let x := slot s e d.slot
  if d.radio then s
  else (d.chunk.zip rows).foldl (fun s r => partWrite s x e (outRowOff d r.1) r.2) s

/-- What a referee's pass gives: its own lining agrees, X_r is X_o, X_r satisfies the syndromes, and the state with
X_r in place. -/
structure Refereed where
  own : Bool
  same : Bool
  fits : Bool
  placed : State

/-- A matrix engine's pass refereed. -/
def refereePass (s : State) (d : Dispute) (r : Nat) (es : List PassError) : Refereed :=
  let e := r % 16
  let xr := chunkResult s d e es
  { own := ownLiningOk s d e es, same := xr == originalRows s d e, fits := satisfies s d e es
    placed := writeRows s d xr }

/-- Two lists of wrong codes stand for the same outputs. -/
def sameCodes (a b : List (Nat × Nat)) : Bool :=
  (a ++ b).all fun c => (a.find? fun y => y.1 == c.1).map (·.2) == (b.find? fun y => y.1 == c.1).map (·.2)

/-- The writes of a descriptor with some output codes replaced. -/
def patchCodes (d : List W64) (ws : Writes) (cs : List (Nat × Nat)) : Writes :=
  match ws with
  | [] => []
  | w :: rest => (w.1, packElems (eWritten d) ((List.range (eOutputs d)).map fun k =>
      ((cs.find? fun c => c.1 == k).map (·.2)).getD (elemCode (eWritten d) (fun i => (w.2.getD i 0).toNat) k))) :: rest

/-- An element engine's descriptor refereed (R146): X_o is what the lanes gave, the checker's value what the shadow
lanes gave. -/
def refereeDesc (s : State) (d : Dispute) (o : RefereeObs) : Refereed :=
  let e := d.suspect % 16
  let x := slot s e d.slot
  let ws := (elemWork s x e (slotChip s x) d.desc).1
  let cs := wrongCodes d.desc ws o.lanes
  { own := o.shadowOk, same := sameCodes cs d.lanes, fits := sameCodes cs d.shadows
    placed := if d.radio then s else putWrites s x e (patchCodes d.desc ws cs) }

/-- A scale or an anchor pass refereed (R137, R150): X_r is the right words of the chunk's rows, which agree with the
checker's copies; the referee's own comparators agree or not. -/
def refereeWords (s : State) (d : Dispute) (o : RefereeObs) : Refereed :=
  let e := d.suspect % 16
  let ws := d.words.filter fun w => d.chunk.contains w.1
  { own := o.shadowOk, same := ws.isEmpty, fits := true
    placed := if d.radio then s else ws.foldl (fun s w =>
      partWrite s (slot s e d.slot) e (anchorOff d.desc w.1 w.2.1) (leBytes 2 w.2.2)) s }

/-- What the referee of a dispute finds. -/
def refereed (s : State) (d : Dispute) (r : Nat) (o : RefereeObs) : Refereed :=
  if d.element then refereeDesc s d o
  else if d.passKind != 0 then refereeWords s d o
  else refereePass s d r o.errors

/-- The referee's own lining disagrees (R150): a strike against it; a second referee once, then WITHHELD. -/
def refereeFails (s : State) (d : Dispute) (r : Nat) : State :=
  let s := strike (countDisagree s r) r 4 0xFFFF d.job d.sleeve false
  if d.refs.length < 2 then noteReferees (modDispute s d.suspect fun d => { d with st := .staging })
  else withhold (capture s d 3) d

/-- REFEREE_PASS_DONE (R150): the verdict. The values of VERDICT in a candidate: 0 none, 1 the original at fault, 2 the
checker path, 3 WITHHELD. -/
def execRefereePassDone (u : Nat) (obs : RefereeObs) (s : State) :
    Host.Outcome State Fault Refusal :=
  .next <| match disputeOf s u with
    | none => s
    | some d =>
      let r := d.refs.getLast?.getD 0
      let v := refereed s d r obs
      if d.st != .referee then s
      else if !d.element && eccHit s (scratchKey s (r % 16)) (2 ^ 20) then scratchBad s d r
      else if !v.own then refereeFails s d r
      else if v.same then
        if d.mandatory then nextChunk s d
        else
          let s := if d.element then v.placed else s
          modDispute (capture s d 2) u fun d => { d with kind := 2, st := .replay }
      else if v.fits then modDispute (capture v.placed d 1) u fun d => { d with kind := 1, st := .replay }
      else withhold (capture s d 3) d

/-! ### The locating replay (R143) -/

/-- Element row of a K position (R103). -/
def elemRow (d : List W64) (k : Nat) : Nat := if isTwoProduct (cFmtA d) then k / 2 else k

/-- What the faults of the suspect's elements (row i, column j, what is added; column 256: the checksum column's element,
row 256: the checksum row's, which is fed in every replay) do to a replay that feeds the element rows of `mask`. -/
def replayErrors (faults : List (Nat × Nat × Int)) (mask : Nat → Bool) : List PassError :=
  (faults.filter fun f => f.1 = 256 || mask f.1).map fun f =>
    if f.1 = 256 then .checkRow f.2.1 f.2.2
    else if f.2.1 = 256 then .checkColumn 0 f.2.2 else .output 0 f.2.1 f.2.2

/-- The reading of one replay: the first disputed row alone, some element rows fed. -/
def replayReads (s : State) (d : Dispute) (faults : List (Nat × Nat × Int)) (mask : Nat → Bool) : Verdict :=
  readChunk s d (d.suspect % 16) d.windowed [0] (fun k => mask (elemRow d.desc k)) (replayErrors faults mask)

/-- The halving (R143): of n fed rows from `lo` on, the lower half is fed; the search goes on in the half that shows a
nonzero syndrome. The row that is left. -/
def locate (shows : (Nat → Bool) → Bool) : Nat → Nat → Nat → Nat
  | 0, lo, _ => lo
  | fuel + 1, lo, n =>
    if n ≤ 1 then lo
    else
      let h := (n + 1) / 2
      if shows fun i => lo ≤ i && i < lo + h then locate shows fuel lo h else locate shows fuel (lo + h) (n - h)

/-- Location of PE(i, j) in a strike; j = 256: the checksum element of row i, i = 256: that of column j (layout:
notes/assumptions/20.md). -/
def peLocation (i j : Nat) : Nat := 2 ^ 16 + 512 * i + j

/-- The first column whose syndrome alone is nonzero in a replay of element row i: the checksum row's element of that
column is at fault (R142, R143). -/
def checkRowAt (s : State) (d : Dispute) (faults : List (Nat × Nat × Int)) (i : Nat) : Option Nat :=
  let e := d.suspect % 16
  let mask (k : Nat) : Bool := elemRow d.desc k == i
  let y := syndromes (checkView s (chunkSlot s d) e (chunkPass s d e).desc (chunkPass s d e).tile 0 [0] mask)
    (replayErrors faults (· == i))
  if y.rows.any (·.2 != 0) then none else y.cols.findIdx? (· != 0)

/-- The element that a replay locates: reproduced when its row alone shows a nonzero syndrome (R143, DEDUCED,
notes/assumptions/68.md). -/
def replayLocates (s : State) (d : Dispute) (faults : List (Nat × Nat × Int)) : Option Nat :=
  if d.element || d.passKind != 0 then if faults.isEmpty then none else some d.location
  else
    let s := withChunk s d
    let i := locate (fun m => replayReads s d faults m != .checked) 8 0 (cRowsK d.desc)
    match replayReads s d faults (· == i) with
    | .checked => none
    | .outputs j _ => some (peLocation i j)
    | .checkerPath _ => match checkRowAt s d faults i with
      | some j => some (peLocation 256 j)
      | none => some (peLocation i 256)
    | .engine _ => some (peLocation i ((faults.find? fun f => f.1 == i).elim 0 fun f => f.2.1))

/-- LOCATING_REPLAY_DONE (R143, R150, R154): a strike with its location, confirmed if reproduced; then the next chunk,
or the ring's release. -/
def execLocatingReplayDone (u : Nat) (faults : List (Nat × Nat × Int)) (s : State) :
    Host.Outcome State Fault Refusal :=
  .next <| match disputeOf s u with
    | none => s
    | some d =>
      if d.st != .replay then s
      else
        let at0 := replayLocates s d faults
        strike (nextChunk s d) u d.kind (at0.getD d.location) d.job d.sleeve at0.isSome

end Sys2Proof.Machine
end

