-- ==== Sys2Proof/Machine/LiningCmds.lean ====
section
/-! DEFINITION. The lining (chapter 05): strikes, fittings and clearance, scrubs, lockstep pairs and the lining's
commands. R153–R161, R165–R176. -/

namespace Sys2Proof.Machine

/-! ### Strikes -/

/-- The newest unconfirmed strike of a unit is confirmed. -/
def confirmLast (u : Nat) : List Strike → List Strike
  | [] => []
  | x :: r =>
    if x.unit = u && !x.confirmed && !(r.any fun y => y.unit == u && !y.confirmed)
    then { x with confirmed := true } :: r else x :: confirmLast u r

/-- STRIKE_COUNT_CONFIRM (R153, R154): four unconfirmed strikes within 1 h. -/
def execStrikeCountConfirm (u : Nat) (s : State) : Host.Outcome State Fault Refusal :=
  .next <|
    let n := ((unitSt s u).unconfirmed.filter fun t => since s t < 3600 * ticksPerS).length
    if u ≥ 124 || n < 4 then s
    else
      let s := modUnit s u fun x => { x with unconfirmed := [] }
      selfFence { s with lin := { s.lin with strikes := confirmLast u s.lin.strikes } }
        u .confirmed 1

/-! ### Fittings (R165–R170) -/

/-- Entry i of a fitting set (R166). -/
def fitEntry (set : List Byte) (i : Nat) : List W64 := wordsOf 32 ((set.drop (64 + 256 * i)).take 256)
def fitCount (set : List Byte) : Nat := fld (leW64 set) 15 0
def fitSetId (set : List Byte) : Nat := fld (leW64 (set.drop 8)) 31 0
def fitSetSeq (set : List Byte) : Nat := fld (leW64 (set.drop 8)) 63 32
def fitBody (set : List Byte) : Nat := fld (leW64 (set.drop 16)) 63 32
def fitSig (set : List Byte) : Nat := fld (leW64 (set.drop 16)) 31 0

/-- Entries of a class in a set. -/
def classEntries (set : List Byte) (cls : Nat) : List Nat :=
  (List.range (fitCount set)).filter fun i => fld (wd (fitEntry set i) 0) 31 28 == cls

/-- SET_ID of the set in use; 0xFFFF_FFFF: the built-in set (R466). -/
def setId (s : State) : Nat := match s.lin.activeSet with | some b => fitSetId b | none => 0xFFFFFFFF

/-- Entry i of a set as a unit runs it. -/
def fitOf (set : List Byte) (i : Nat) : FitCur :=
  let w := fitEntry set i
  { set := fitSetId set, fitting := fld (wd w 0) 63 32, expected := bytesOf ((List.range 4).map fun k => wd w (20 + k))
    entry := w, operands := (set.drop (fld (wd w 1) 63 32)).take (fld (wd w 1) 31 0) }

/-- The fittings that a unit runs (R169): those of its class in the active set, or the built-in ones, whose entries
the spec does not show. -/
def fittingsOf (s : State) (u : Nat) : List FitCur :=
  let cls := unitClass u
  let own := match s.lin.activeSet with
    | some b => (classEntries b cls).map (fitOf b)
    | none => []
  if own.isEmpty then (List.range (1 + Config.builtinMore cls % 4096)).map fun i =>
    { set := 0xFFFFFFFF, fitting := i, expected := Config.builtinExpected cls i } else own

/-- A fresh run of a unit. -/
def newRun (s : State) (u : Nat) (urgent : Bool) : FitRun :=
  { todo := List.range (fittingsOf s u).length, urgent := urgent }

/-- The unit is at rest: idle beats of an engine whose pocket's scratch, which its two units share (R148), is free, a gap
of a signal core (R169). -/
def unitIdle (s : State) (u : Nat) : Bool :=
  if u < 32 then (engine s (u % 16)).pass.isNone && [u % 16, 16 + u % 16].all fun v => !isRefereeing s v && !fitAtWork s v
  else if u < 96 then coreIdle s (u - 32)
  else true

/-- The unit may run fittings: in service, or under clearance (R155, R169, R413). -/
def mayFit (s : State) (u : Nat) : Bool :=
  u < 124 && s.boot.phase == .booted && (!isFenced s u || (unitSt s u).clearing)

/-- Fields of a fitting's entry (R166). -/
def FitCur.shown (c : FitCur) : Bool := !c.entry.isEmpty
def FitCur.load (c : FitCur) : Nat := fld (wd c.entry 2) 63 32
def FitCur.beatsMax (c : FitCur) : Nat := fld (wd c.entry 2) 31 0
def FitCur.result (c : FitCur) : Nat := fld (wd c.entry 3) 63 32
def FitCur.resultLen (c : FitCur) : Nat := fld (wd c.entry 3) 31 0
def FitCur.desc (c : FitCur) : List W64 := (List.range 16).map fun k => wd c.entry (4 + k)

/-- Beats that a fitting takes of an engine at most (R102, R130): those of its descriptor, or of a built-in one. -/
def fitBeats (u : Nat) (c : FitCur) : Nat :=
  if !c.shown then Config.builtinBeats (unitClass u) c.fitting
  else if unitClass u = 1 then (chainPasses c.desc).length * passBeats c.desc
  else elemBeats c.desc

/-- The memory that a fitting's offsets name (R148, R166): the lining scratch of an engine, or the local memory of a
signal core. The spec names none for a host core (notes/assumptions/90.md). -/
def fitMemory (s : State) (u : Nat) : Option Nat :=
  if u < 32 then some (scratchKey s (u % 16)) else if u < 96 then some (localKey (u - 32) 0) else none

/-- The operands of a fitting placed at LOAD_OFF (R166). -/
def placeOperands (s : State) (u : Nat) (c : FitCur) : State :=
  match fitMemory s u with
  | some k => physWrite s (k + c.load) c.operands
  | none => s

/-- FITTING_START (R166, R169): in idle beats, on a leased engine only when it ends before the next release tick, on
another before its lease starts (R116): fittings are never ahead of radio work.
Host cores run theirs at boot and on FITTING_RUN, as suspects or under clearance only. -/
def execFittingStart (u fitting beatsToTick : Nat) (s : State) : Host.Outcome State Fault Refusal :=
  .next <|
    let x := unitSt s u
    let r := x.fit.getD (newRun s u x.fitDue)
    if !mayFit s u || !unitIdle s u || (96 ≤ u && x.fit.isNone && !x.fitDue && !x.clearing) ||
        r.current.isSome || !r.todo.contains fitting then s
    else match (fittingsOf s u)[fitting]? with
      | none => s
      | some c =>
        if u < 32 && (if (engine s (u % 16)).leased then fitBeats u c > beatsToTick else !beforeLease s (u % 16) (fitBeats u c))
        then s
        else if u < 32 && !engineAwake s (u % 16) then wakeEngine s (u % 16)
        else placeOperands (setUnit s u { x with fit := some { r with
          todo := r.todo.filter (· != fitting), current := some c } }) u c

/-- FITTING_PERIOD_END (R169): a unit with fittings still unrun in the period runs them ahead of tenant
passes. -/
def execFittingPeriodEnd (u : Nat) (s : State) : Host.Outcome State Fault Refusal :=
  .next <|
    let x := unitSt s u
    let ran := x.lastRun.any fun r => since s r.1 ≤ s.lin.period * ticksPerS
    if u ≥ 96 || !mayFit s u || ran then s
    else setUnit s u { x with
      fitDue := true
      fit := some (match x.fit with
        | some r => { r with urgent := true }
        | none => newRun s u true) }

/-- A matrix engine's fitting (R166): the chain of its descriptor over the scratch, pass by pass, with what goes wrong
in each product pass. No job counts what it discards. -/
def fitChain (s : State) (e : Nat) (d : List W64) (errors : List (Nat × PassError)) : State :=
  let x : Slot := { valid := true, base := tenantMiB s, size := 1, fedBase := cFed d }
  let tile (s : State) (t : Nat) := loadTile s (partKey x e (tileAddr d t)) (tileBytes (cFmtB d))
  let run (phase t : Nat) : PassRun :=
    { slot := 0, kind := kindOf phase, m := streamM d, paced := false, desc := d, phase := phase, index := t
      tile := tile s t }
  (descPhases d).foldl (fun s p => match p with
    | 1 => (List.range (scalePasses d)).foldl (fun s n => scalePass s x e d n (n == 0)) s
    | 2 =>
      let s := (classify s x e d).1
      if isMx (cFmtA d) && !anyWindowed s x e d then s
      else (List.range (cTiles d)).foldl (fun s t => anchorPass s x e d (tile s t) t) s
    | _ => (List.range (cTiles d)).foldl (fun s t =>
        let x := { x with products := t }
        let es := (errors.filter (·.1 == t)).map (·.2)
        (productPass s { x := x, e := e, d := d, tile := tile s t, t := t, rounds := t + 1 == cTiles d
                         rnd := chainRounding d 0, err := frameErr s x e (run 3 t) es }).st) s)
    (physZero s (partKey x e (cFed d)) 8192)

/-- An element engine's fitting (R166): its descriptor over the scratch, some outputs wrong. -/
def fitElement (s : State) (e : Nat) (d : List W64) (lanes : List (Nat × Nat)) : State :=
  let x : Slot := { valid := true, base := tenantMiB s, size := 1 }
  putWrites s x e (patchCodes d (elemWork s x e 0 d).1 lanes)

/-- One run of a fitting (R166): what it leaves in its memory. A core's program leaves what is observed. -/
def fitRun (s : State) (u : Nat) (c : FitCur) (o : FitObs) : State :=
  let s := noteOverhead s u (fitBeats u c)
  if !c.shown then s
  else if unitClass u = 1 then fitChain s u c.desc o.errors
  else if unitClass u = 2 then fitElement s (u % 16) (c.desc.take 8) o.lanes
  else match fitMemory s u with
    | some k => physWrite s (k + c.result) (o.result.take c.resultLen)
    | none => s

/-- The digest of the result region taken as one output (R163, R166). -/
def fitDigest (s : State) (u : Nat) (c : FitCur) (o : FitObs) : List Byte :=
  sha256 (crcList 0 [match fitMemory s u with
    | some k => if c.shown then physRead s (k + c.result) c.resultLen else o.result
    | none => o.result])

/-- A run matches: the digest is EXPECTED, within BEATS_MAX (R166, R170). -/
def fitMatches (s : State) (u : Nat) (c : FitCur) (o : FitObs) : Bool :=
  fitDigest s u c o == c.expected &&
    (!c.shown || (if u < 32 then fitBeats u c else o.beats) ≤ c.beatsMax)

/-- The log of results holds 32,768 entries (R170). -/
def logFitting (s : State) (r : FitResult) : State :=
  { s with lin := { s.lin with
      fitLog := let l := s.lin.fitLog ++ [r]; l.drop (l.length - 32768) } }

/-- A unit under clearance passes it: its fence or hold is lifted; its strikes stay in the log (R155, R413). -/
def liftFence (s : State) (u : Nat) : State :=
  let s := modUnit s u fun x => { x with fence := .none, hold := 0, clearing := false, clearRuns := 0, fit := none }
  let s := setRec s { s.hlt.hr with fenceList := s.hlt.hr.fenceList.filter (· != u) }
  refreshHealth (noteReferees (raise s { code := 0x012, severity := 0, die := unitDie u, unit := u, domain := unitDomain u }))

/-- A unit under clearance fails it: the fence is confirmed (R155, R413). -/
def confirmFence (s : State) (u : Nat) : State :=
  let cause := if (unitSt s u).fence == .awaiting then 3 else 5
  fenceUnit (modUnit s u fun x => { x with clearing := false, clearRuns := 0, fit := none }) u .confirmed cause

/-- A run of a unit has ended: of one under clearance, a clean one counts (R155, R413). -/
def endRunOf (s : State) (x : UnitSt) (failures : Nat) : UnitSt :=
  { x with
    fit := none, fitDue := false, suspect := x.suspect && failures != 0, lastRun := some (now s, failures)
    clearRuns := if x.clearing && failures = 0 then x.clearRuns + 1 else x.clearRuns }

/-- The result of a fitting: 0 a match, 1 a mismatch and then a match, 2 two mismatches (R170). Any mismatch fails a
clearance (R155; notes/assumptions/90.md). -/
def fitResult (s : State) (u : Nat) (r : FitRun) (c : FitCur) (outcome : Nat) : State :=
  let s := logFitting s { set := c.set, fitting := c.fitting, unit := u, outcome := outcome, raw := now s }
  let r := { r with current := none, failures := r.failures + b2n (outcome != 0) }
  let s := modUnit s u fun x => if r.todo.isEmpty then endRunOf s x r.failures else { x with fit := some r }
  if outcome = 0 then s
  else
    let s := if (unitSt s u).clearing then confirmFence s u else s
    strike s u 5 c.fitting 0 0 (outcome == 2)

/-- FITTING_DONE (R166, R170): a mismatch reruns the fitting at once. A scratch that cannot be read strikes its pocket,
and the fitting stays to be run (R176; notes/assumptions/90.md). -/
def execFittingDone (u : Nat) (run rerun : FitObs) (s : State) : Host.Outcome State Fault Refusal :=
  .next <| match (unitSt s u).fit with
    | none => s
    | some r => match r.current with
      | none => s
      | some c =>
        if u < 32 && eccHit s (scratchKey s (u % 16)) (2 ^ 20) then
          let i := (fittingsOf s u).findIdx fun f => f.fitting == c.fitting
          strike (modUnit s u fun x => { x with fit := some { r with current := none, todo := i :: r.todo } })
            (u % 16) 6 0xFFFF 0 0 false
        else
          let s := fitRun s u c run
          if fitMatches s u c run then fitResult s u r c 0
          else
            let s := fitRun (placeOperands s u c) u c rerun
            fitResult s u r c (if fitMatches s u c rerun then 1 else 2)

/-- FENCE_CLEARANCE_DONE (R155, R413): two complete clean runs within 10 min lift the fence or the hold; 10 min without
them confirm it (notes/assumptions/90.md). -/
def execFenceClearanceDone (u : Nat) (s : State) : Host.Outcome State Fault Refusal :=
  .next <|
    let x := unitSt s u
    if u ≥ 124 || !x.clearing then s
    else if since s x.clearSince > 600 * ticksPerS then confirmFence s u
    else if x.clearRuns ≥ 2 then liftFence s u
    else s

/-! ### Scrubs and lockstep (R159–R161) -/

/-- The page that a frame backs. -/
def pageOfFrame (s : State) (loc frame : Nat) : Option Nat :=
  (s.pkg.owner.find? fun e => ownValid e.2 && ownLoc e.2 == loc && ownFrame e.2 == frame).map (·.1)

/-- Moves that waited for a free frame start (R159). -/
def startOwedMoves (s : State) : State :=
  s.pkg.movesOwed.foldl (fun s key =>
    match pageOfFrame s (key / 2 ^ 24) (key % 2 ^ 24) with
    | some p => startMove s p (key / 2 ^ 24) (key % 2 ^ 24) (key / 2 ^ 24)
    | none => { s with pkg := { s.pkg with movesOwed := s.pkg.movesOwed.filter (· != key) } }) s

/-- A frame leaves service: now, or when the page it backs is freed or has moved (R159, R160); its page moves at once,
or when a frame is free. -/
def retireFrame (s : State) (loc frame : Nat) (move : Bool) : State :=
  let key := frameKey loc frame
  if s.pkg.retired.contains key then s
  else match pageOfFrame s loc frame with
    | none => { s with pkg := { s.pkg with retired := s.pkg.retired ++ [key] } }
    | some p =>
      let s := if s.pkg.retireLater.contains key then s
        else { s with pkg := { s.pkg with retireLater := s.pkg.retireLater ++ [key] } }
      if move then startMove { s with pkg := { s.pkg with movesOwed := s.pkg.movesOwed ++ [key] } } p loc frame loc else s

/-- What the code of a memory does with n wrong symbols of a word (R158): it corrects up to one number and detects up to
another; beyond that it may detect them (Config.detectsBeyond). -/
inductive Ecc where
  | clean | corrected | uncorrectable
  deriving DecidableEq, Repr

def eccOutcome (corrects detects code n : Nat) : Ecc :=
  if n = 0 then .clean
  else if n ≤ corrects then .corrected
  else if n ≤ detects || Config.detectsBeyond code n then .uncorrectable
  else .clean

/-- Bonded DRAM corrects 3 symbols and detects 5, LPDDR6 1 and 2, the others 1 bit and 2 (R158). -/
def frameEcc (loc n : Nat) : Ecc := if loc = 1 then eccOutcome 3 5 0 n else eccOutcome 1 2 1 n
def secDed (n : Nat) : Ecc := eccOutcome 1 2 2 n

/-- One finding of the 24 h scrub (R158, R159, R160). -/
def scrubFrame (s : State) (o : ScrubObs) : State :=
  let key := frameKey o.loc o.frame
  let n := (o.words.filter fun w => frameEcc o.loc w.2 == .corrected).length
  let bad := (o.words.filter fun w => frameEcc o.loc w.2 == .uncorrectable).map fun w =>
    frameBase o.loc o.frame + w.1 % 1024 * 64
  let old := (tget [] s.pkg.frameErrs key).filter fun t => since s t < 86400 * ticksPerS
  let ts := old ++ List.replicate n (now s)
  let die := if o.loc = 1 then o.frame / 2 ^ 22 else 4 + o.frame / 2 ^ 22
  let s := { s with pkg := { s.pkg with frameErrs := tset [] s.pkg.frameErrs key ts } }
  let s := if old.length < 16 && 16 ≤ ts.length && !s.pkg.retired.contains key then
      retireFrame (raise s { code := 0x005, severity := 1, die := die, d0 := o.frame, d1 := ts.length })
        o.loc o.frame true
    else s
  if bad.isEmpty then s
  else
    let s := { s with pkg := { s.pkg with
      eccBad := s.pkg.eccBad ++ bad.filter fun k => !s.pkg.eccBad.contains k } }
    let s := raise s { code := 0x006, severity := 2, die := die
                       d0 := ((pageOfFrame s o.loc o.frame).getD 0) * 65536
                       d1 := (Config.readerKind 3).toNat }
    retireFrame s o.loc o.frame false

/-- SCRUB_FRAMES (R159, R160): the findings of a round over the frames, and the moves that wait for a frame. -/
def execScrubFrames (found : List ScrubObs) (s : State) : Host.Outcome State Fault Refusal :=
  .next <| if s.boot.phase != .booted then s
    else startOwedMoves ((found.filter fun o => o.loc = 1 || o.loc = 2).foldl scrubFrame s)

/-- SCRUB_POCKET (R158, R159, R160): words of 8 B with the number of their wrong bits; 64 correctable errors within 1 h
strike the engine, and an uncorrectable word is recorded and stays one. -/
def execScrubPocket (e : Nat) (words : List (Nat × Nat)) (s : State) : Host.Outcome State Fault Refusal :=
  .next <|
    let n := (words.filter fun w => secDed w.2 == .corrected).length
    let bad := (words.filter fun w => secDed w.2 == .uncorrectable).map fun w => pocketKey e (w.1 % 2 ^ 23 * 8)
    let old := (tget [] s.pkg.pocketErrs e).filter fun t => since s t < 3600 * ticksPerS
    let ts := old ++ List.replicate n (now s)
    if e ≥ 16 || s.boot.phase != .booted then s
    else
      let s := if bad.isEmpty then s
        else raise { s with pkg := { s.pkg with
            eccBad := s.pkg.eccBad ++ bad.filter fun k => !s.pkg.eccBad.contains k } }
          { code := 0x006, severity := 2, die := unitDie e, unit := e, d0 := bad.headD 0 - pocketKey 0 0 + 0x020000000000
            d1 := (Config.readerKind 3).toNat }
      if ts.length < 64 then { s with pkg := { s.pkg with pocketErrs := tset [] s.pkg.pocketErrs e ts } }
      else
        let s := raise { s with pkg := { s.pkg with pocketErrs := tset [] s.pkg.pocketErrs e [] } }
          { code := 0x005, severity := 1, die := unitDie e, unit := e, d0 := e, d1 := ts.length }
        strike s e 6 0xFFFF 0 0 false

/-- LOCKSTEP_MISMATCH (R161, R401): both cores are reset as one unit, the context faults, the pair is
struck. -/
def execLockstepMismatch (pair pc : Nat) (s : State) : Host.Outcome State Fault Refusal :=
  .next <|
    if pair > 7 || cfgLockstep s / 2 ^ pair % 2 == 0 || s.boot.phase != .booted then s
    else
      let k := 2 * pair
      let c := hostCore s k
      let s := raise s { code := 0x016, severity := 3, die := unitDie (96 + k), unit := 96 + k
                         sleeve := if c.loaded then some c.sleeve else none, d0 := pc }
      let s := resetUnit (resetUnit (countReset s (96 + k) 4) (96 + k)) (97 + k)
      let s := faultCore (faultCore s k .checkFailed) (k + 1) .checkFailed
      strike s (96 + k) 7 0xFFFF c.handle c.sleeve false

/-! ### Commands (R165–R168, R174) -/

/-- The lining scratch as a partition of 1 MiB (R166). -/
def scratchSlot (fedBase products : Nat) : Slot :=
  { valid := true, base := 0, size := 1, fedBase := fedBase, products := products }

/-- A chain descriptor of a fitting breaks R126 as one whole chain in the scratch. -/
def fitChainBad (d : List W64) : Bool :=
  descKind d != 1 || descBad d || !cFirst d || !cClose d ||
  (descPhases d).any fun p =>
    (List.range (if p = 1 then scalePasses d else cTiles d)).any fun t =>
      !passInside (scratchSlot (cFed d) t) d p t

/-- A fitting entry breaks R166. OPERAND_OFF inside the header or the entries does too (DESIGN CHOICE,
notes/assumptions/90.md). -/
def fitEntryBad (set : List Byte) (i : Nat) : Bool :=
  let w := fitEntry set i
  let cls := fld (wd w 0) 31 28
  let off := fld (wd w 1) 63 32
  let len := fld (wd w 1) 31 0
  let load := fld (wd w 2) 63 32
  let res := fld (wd w 3) 63 32
  let rlen := fld (wd w 3) 31 0
  let desc := (List.range 16).map fun k => wd w (4 + k)
  cls == 0 || cls > 4 || fld (wd w 0) 27 0 != 0 || (w.drop 24).any (· != 0) ||
  off % 64 != 0 || off < 64 + 256 * fitCount set || off + len > fitBody set ||
  (cls ≤ 2 && (load + len > 2 ^ 20 || res + rlen > 2 ^ 20 || len + rlen > 2 ^ 20)) ||
  (cls == 1 && fitChainBad desc) ||
  (cls == 2 && (elemBad (desc.take 8) || (desc.drop 8).any (· != 0) ||
    (elemReads desc ++ elemWriteSpans desc).any fun r => r.1 + r.2 > 2 ^ 20)) ||
  (cls ≥ 3 && (fld (wd desc 0) 31 0 ≥ len || fld (wd desc 0) 63 32 != 0 ||
    (desc.drop 1).any (· != 0)))

/-- The header or an entry of a set breaks R165 or R166. So does a length that is not BODY_LEN + SIG_LEN: no length
beyond 4 MiB, it answers BAD_FIELD (DESIGN CHOICE, notes/assumptions/90.md). -/
def fitSetBad (set : List Byte) : Bool :=
  let ws := wordsOf 8 set
  set.length < 64 || fld (wd ws 0) 63 32 != 0x46495431 || fld (wd ws 0) 31 16 != 1 ||
  fitCount set == 0 || fitCount set > 4096 || fitBody set % 64 != 0 ||
  !(fitSig set == 2832 || fitSig set == 5716) || fitBody set + fitSig set != set.length ||
  fitBody set < 64 + 256 * fitCount set || fld (wd ws 3) 47 0 != 0 ||
  (ws.drop 4).any (· != 0) || (List.range (fitCount set)).any (fitEntryBad set)

/-- The checks of R167 in their order. -/
def fitSetStatus (s : State) (set : List Byte) : Status :=
  let mask := fld (leW64 (set.drop 24)) 63 48
  if fitSetBad set then .badField
  else if !hssVerify (cfgKey s 2) (set.take (fitBody set)) (set.drop (fitBody set)) then .unsigned
  else if fitSetSeq set ≤ s.nvm.fittingFloor then .rollback
  else if (List.range 8).any fun d => mask / 2 ^ stepping d % 2 == 0 then .denied
  else .ok

/-- The set comes into the incoming buffer of the ED0 frames (R148, R168). -/
def receiveSet (s : State) (set : List Byte) : State := physWrite s (ed0Key 3392 0) set

/-- A new set moves from the incoming buffer to active (R148, R168): runs at work take their next fitting from it. -/
def activateSet (s : State) (set : List Byte) : State :=
  let s := physZero (physWrite (physZero s (ed0Key 3328 0) (2 ^ 22)) (ed0Key 3328 0) set) (ed0Key 3392 0) (2 ^ 22)
  let s := { s with
    lin := { s.lin with activeSet := some set }
    nvm := { s.nvm with fittingFloor := fitSetSeq set } }
  (List.range 124).foldl (fun s u =>
    if (unitSt s u).fit.isNone then s
    else modUnit s u fun x => { x with fit := x.fit.map fun r =>
      { newRun s u r.urgent with current := r.current } }) s

/-- FITTING_LOAD (R167, R168). -/
def execFittingLoad (cmd : Cmd) (s : State) : Host.Outcome State Fault Refusal :=
  .next <| serve 0x300 2 isMgmt cmd s fun p s =>
    let len := argN cmd 1
    checked [(s.pwr.inhibit, .busy), (len > 4 * 2 ^ 20, .noSpace)] <|
      match readSource s cmd p (arg cmd 0) 0 len with
      | .error e => .fail e
      | .ok set =>
        let s := receiveSet s set
        match fitSetStatus s set with
        | .ok => .ok (activateSet s set) []
        | st => .failIn s st []

/-- The two words of a unit in FITTING_STATUS (R466). -/
def fitStatusWords (s : State) (u : Nat) : List W64 :=
  match (unitSt s u).lastRun with
  | some (raw, failures) => [pack 64 [(0, u), (16, failures % 2 ^ 32), (48, 1)], w64 raw]
  | none => [w64 u, 0]

/-- FITTING_STATUS (R174, R466). -/
def execFittingStatus (cmd : Cmd) (s : State) : Host.Outcome State Fault Refusal :=
  .next <| serve 0x301 1 isMgmt cmd s fun _ s =>
    let u := argN cmd 0
    let us := if u = 0xFFFF then List.range 112 else [u]
    checked [(u > 111 && u != 0xFFFF, .badField)] <|
      .ok s ([w64 (setId s), w64 s.nvm.fittingFloor, w64 us.length] ++
        us.flatMap (fitStatusWords s))

/-- FITTING_RUN (R174, R169). -/
def execFittingRun (cmd : Cmd) (s : State) : Host.Outcome State Fault Refusal :=
  .next <| serve 0x302 2 isMgmt cmd s fun _ s =>
    let u := argN cmd 0
    let period := argN cmd 1
    let us := if u = 0xFFFF then List.range 112 else [u]
    checked [((u > 111 && u != 0xFFFF) || (period != 0 && (period < 60 || period > 600)),
        .badField)] <|
      let s := if period = 0 then s else { s with lin := { s.lin with period := period } }
      .ok ((us.filter fun u => !isFenced s u).foldl (fun s u => modUnit s u fun x => { x with
        fitDue := true
        fit := some { newRun s u true with current := x.fit.bind (·.current) } }) s) []

/-- CANDIDATE_READ (R172, R174). Operands count as fetched once a read has reached the candidate's last byte; R171 and R222
do not say when (DESIGN CHOICE, notes/assumptions/90.md). A range past the end of a held candidate answers BAD_FIELD (DESIGN CHOICE,
notes/assumptions/90.md); an unreadable queue is reported, and its bytes are free (R176, notes/assumptions/3.md). -/
def execCandidateRead (cmd : Cmd) (s : State) : Host.Outcome State Fault Refusal :=
  .next <| serve 0x303 3 isMgmt cmd s fun _ s =>
    let n := argN cmd 0
    let off := argN cmd 1
    let len := argN cmd 2
    match (if n > 3 then none else tget none s.lin.candidates n) with
    | none => .fail .badField
    | some c =>
      let b := candidateBytes c
      checked [(off + len > b.length, .badField)] <|
        if candidatesBad s then
          let (free, s) := takeFreeBytes (reportUnreadable s 3488) 4 len
          .ok s (wordsOf (cdiv len 8) free)
        else
          let c' := { c with fetched := c.fetched || off + len == b.length }
          let cs := tset none s.lin.candidates n (some c')
          .ok { s with lin := { s.lin with candidates := cs } } (wordsOf (cdiv len 8) ((b.drop off).take len))

/-- CANDIDATE_FREE (R174). -/
def execCandidateFree (cmd : Cmd) (s : State) : Host.Outcome State Fault Refusal :=
  .next <| serve 0x304 1 isMgmt cmd s fun _ s =>
    let n := argN cmd 0
    checked [(n > 3 || (tget none s.lin.candidates n).isNone, .badField)] <|
      .ok { s with lin := { s.lin with candidates := tset none s.lin.candidates n none } } []

/-- A strike, a fitting result and an unresolved disagreement as three words (layout: notes/assumptions/20.md). -/
def strikeWords (x : Strike) : List W64 :=
  [pack 64 [(0, x.unit), (8, x.kind), (16, x.location % 2 ^ 32), (48, b2n x.confirmed)],
   pack 64 [(0, x.job), (16, x.sleeve)], w64 x.raw]
def fitWords (x : FitResult) : List W64 :=
  [pack 64 [(0, x.set), (32, x.fitting)], pack 64 [(0, x.unit), (8, x.outcome)], w64 x.raw]
def unresolvedWords (x : Unresolved) : List W64 :=
  [pack 64 [(0, x.unit), (16, x.location % 2 ^ 32)], pack 64 [(0, x.job), (16, x.sleeve)], w64 x.raw]

/-- A list of log entries behind its length. -/
def logPart {α : Type} (f : α → List W64) (l : List α) : List W64 := w64 l.length :: l.flatMap f

/-- LINING_LOG_READ (R151, R172, R174). A count of 0 or above 64 answers BAD_FIELD (DESIGN CHOICE,
notes/assumptions/90.md); an unreadable log is reported, and its words are free (R176, notes/assumptions/3.md). -/
def execLiningLogRead (cmd : Cmd) (s : State) : Host.Outcome State Fault Refusal :=
  .next <| serve 0x305 2 isMgmt cmd s fun _ s =>
    let n := argN cmd 1
    let part {α : Type} (l : List α) : List α := (l.drop (argN cmd 0)).take n
    let ws := logPart strikeWords (part s.lin.strikes) ++ logPart fitWords (part s.lin.fitLog) ++
      logPart unresolvedWords (part s.lin.unresolved) ++
      logPart (fun c => wordsOf 7 (candidateBytes c)) (part s.lin.headers)
    checked [(n = 0 || n > 64, .badField)] <|
      if liningLogBad s then
        let (free, s) := takeFreeBytes (reportUnreadable s 3552) 5 (8 * ws.length)
        .ok s (wordsOf ws.length free)
      else .ok s ws

end Sys2Proof.Machine
end

