-- ==== Sys2Proof/Machine/PowerCmds.lean ====
section
/-! DEFINITION. Sensors, energy windows, throttling, supply sag and the power commands (chapter 02):
R46–R72, R186 (credit). -/

namespace Sys2Proof.Machine

/-- The dies run: the samples and windows of the power manager take place. -/
def powered (s : State) : Bool := s.boot.phase != .held

/-! ### Supply sag (R68) -/

/-- SAG_THROTTLE: throttle level 1 on every die, the SAG mark, a sag event with the rail reading. -/
def execSagThrottle (mv : Nat) (s : State) : Host.Outcome State Fault Refusal :=
  .next <|
    if !powered s || s.pwr.sag || mv ≥ 1760 then s
    else
      let s := setRec s { s.hlt.hr with sag := true }
      enterThrottles (raise { s with pwr := { s.pwr with sag := true } }
        { code := 0x009, severity := 0, d0 := mv })

/-- SAG_CLEARED: the sag no longer asks for level 1, and the mark is cleared. A die whose level 1 has a cause of R65
leaves it by R65. -/
def execSagCleared (s : State) : Host.Outcome State Fault Refusal :=
  .next <|
    if !s.pwr.sag then s
    else
      let s := setRec { s with pwr := { s.pwr with sag := false } } { s.hlt.hr with sag := false }
      (List.range 8).foldl (fun s d =>
        if (diePwr s d).level == 1 && !(diePwr s d).held1 then setLevel s d 0 else s) s

/-- NVM_WRITE_INHIBIT: no new NVM write, no attestation. -/
def execNvmWriteInhibit (s : State) : Host.Outcome State Fault Refusal :=
  .next <| if !powered s then s else { s with pwr := { s.pwr with inhibit := true } }

/-- NVM_WRITE_RESUME: the deferred changes of the health record are written (R408). -/
def execNvmWriteResume (s : State) : Host.Outcome State Fault Refusal :=
  .next <|
    if !s.pwr.inhibit then s
    else
      let s := { s with pwr := { s.pwr with inhibit := false } }
      if s.boot.phase == .booted then { s with nvm := { s.nvm with health := s.hlt.hr } } else s

/-! ### Sensors -/

/-- The live pace reads below the table at the present index (R52). -/
def belowTable (x : Domain) (live : Nat) : Bool :=
  (paceEntry x x.vindex).tag != 0 && live < (paceEntry x x.vindex).pace

/-- One domain's sample (R46, R47, R48, R52): sensors within 10 % of their median let a domain that has come on start
its first pass; the samples below the table are counted at one voltage index. -/
def sampleDomain (s : State) (r : DomainReading) : State :=
  if r.domain ≥ 96 || sensorCount r.domain = 0 || r.readings.length != sensorCount r.domain then s
  else modDomain s r.domain fun x =>
    let m2 := median2 r.readings
    let live := (lowest x.excluded r.readings).getD x.live
    let passes := (List.range r.readings.length).all fun i =>
      x.excluded.contains i || !deviates m2 (r.readings.getD i 0)
    { x with
      live := live
      unproven := x.unproven && !passes
      retried := x.retried && !passes
      deviation := countDeviations x.deviation r.readings
      below := if belowTable x live then (r.active :: if x.belowAt = x.vindex then x.below else []).take 100 else []
      belowAt := x.vindex }

/-- SENSOR_SAMPLE (R47). -/
def execSensorSample (rs : List DomainReading) (s : State) : Host.Outcome State Fault Refusal :=
  .next <| if !powered s then s else rs.foldl sampleDomain s

/-- SENSOR_EXCLUDE (R48). -/
def execSensorExclude (n i : Nat) (s : State) : Host.Outcome State Fault Refusal :=
  .next <|
    let x := domain s n
    if n ≥ 96 || x.excluded.contains i || tget 0 x.deviation i < 10 then s else excludeSensor s n i

/-- PACE_ENTRY_LOADED (R52): the entry of the index at which the samples were taken; never raised. -/
def execPaceEntryLoaded (n : Nat) (s : State) : Host.Outcome State Fault Refusal :=
  .next <|
    let x := domain s n
    if x.below.length < 100 || (x.below.filter id).length < 50 || x.belowAt != x.vindex || !belowTable x x.live then s
    else setDomain s n { x with
      below := []
      table := tmod {} x.table x.vindex fun e => { e with pace := x.live, tag := 2 } }

/-- PACE_FAULT_SET (R57): three late beats within 1 s at the ceiling. -/
def execPaceFaultSet (n : Nat) (s : State) : Host.Outcome State Fault Refusal :=
  .next <|
    let x := domain s n
    let c := (x.lates.filter fun t => since s t ≤ ticksPerS).length
    if n ≥ 96 || c < 3 || x.paceFault then s
    else
      let s := setDomain s n { x with paceFault := true }
      let s := raise s { code := 0x008, severity := 3, die := domainDie n, domain := n
                         d0 := c, d1 := x.vindex }
      (domainUnits n).foldl suspectUnit s

/-- The levels whose entry condition a sample finds true: their windows without it count anew (R65). -/
def noteHot (s : State) (d : Nat) : State :=
  setDiePwr s d { diePwr s d with
    hot := [1, 2, 3].filter fun l => tableCond s d l || (diePwr s d).hot.contains l
    clear := [1, 2, 3].map fun l => if tableCond s d l then 0 else (diePwr s d).clear.getD (l - 1) 0 }

/-- TEMP_SAMPLE (R64, R65): readings, failed sensors, and the throttle levels that are entered. -/
def execTempSample (readings : List (Nat × Nat)) (failed : List Nat) (s : State) :
    Host.Outcome State Fault Refusal :=
  .next <|
    if !powered s then s
    else
      let s := readings.foldl (fun s r =>
        if r.1 < 96 then modDomain s r.1 fun x => { x with temp := Nat.min 255 r.2 } else s) s
      let s := failed.foldl (fun s n =>
        if n ≥ 96 || (domain s n).tempFault then s
        else raise (modDomain s n fun x => { x with tempFault := true })
          { code := 0x007, severity := 3, die := domainDie n, domain := n }) s
      let s := (List.range 8).foldl (fun s d =>
        let on := readings.filter fun r => r.1 < 96 && domainDie r.1 == d
        if on.isEmpty then s
        else setDiePwr s d { diePwr s d with tj := on.foldl (fun m r => Nat.max m r.2) 0 }) s
      let s := (List.range 96).foldl (fun s n =>
        if isRadioDomain s n && heldAtCeiling s n then setIndex s n (ceilingIndex (domainClass n)) else s) s
      enterThrottles ((List.range 8).foldl noteHot s)

/-- A level may be left (R65). -/
def leavable (s : State) (d level : Nat) : Bool :=
  (diePwr s d).clear.getD (level - 1) 0 ≥ 10 && (diePwr s d).tj + 3 ≤ entryTemp s level &&
    !entryCond s d level

/-- THROTTLE_EXIT (R65): every level that may be left is left, the highest first. -/
def execThrottleExit (d : Nat) (s : State) : Host.Outcome State Fault Refusal :=
  .next <|
    let l := (diePwr s d).level
    let l3 := if l = 3 && leavable s d 3 then 2 else l
    let l2 := if l3 = 2 && leavable s d 2 then 1 else l3
    let l1 := if l2 = 1 && leavable s d 1 then 0 else l2
    if d ≥ 8 || l1 = l then s else setLevel s d (Nat.max l1 (entryLevel s d))

/-! ### Energy windows -/

/-- One setting of R70 takes effect. -/
def applySetting (p : Pwr) (x : Nat × Nat × Nat) : Pwr :=
  match x with
  | (0, c, _) => { p with cap := c }
  | (1, 0, g) => { p with guardA := g }
  | (1, 1, g) => { p with guardS := g }
  | (1, 2, g) => { p with guardH := g }
  | (2, t, u) => { p with tempThrottle := t, tempStop := u }
  | _ => p

/-- Energy that a domain's meter counted in the window [µJ]. -/
def drawOf (o : EnergyObs) (n : Nat) : Nat := ((o.draws.find? (·.1 == n)).map (·.2)).getD 0

/-- Active beats of a domain in the window. -/
def beatsIn (s : State) (n : Nat) : Nat := ((s.pwr.active.filter (·.domain == n)).map (·.beats)).sum

/-- A domain's energy is estimated now (R72). -/
def isEstimated (s : State) (n : Nat) : Bool := now s < (domain s n).estimatedUntil

/-- The share [µJ] of a domain's reading that falls to some of its active beats (R58). Under an estimate, R62's figure
covers the array and the pocket of an engine together (R72, R465; notes/assumptions/91.md). -/
def shareOf (s : State) (o : EnergyObs) (a : Active) : Nat :=
  let metered := drawOf o a.domain * a.beats / Nat.max 1 (beatsIn s a.domain)
  match domainEngine a.domain with
  | none => metered
  | some e =>
    let est := isEstimated s (arrayDomain e) || isEstimated s (arrayDomain e + 4)
    if isArrayDomain a.domain then (if est then a.est / 10 ^ 6 else metered)
    else if isPocketDomain a.domain && a.est != 0 then (if est then 0 else metered)
    else if isEstimated s a.domain then Config.elementEstimate a.domain a.beats
    else metered

/-- An array, signal or host-core domain had nothing to do in the window (R60). -/
def idleDomain (s : State) (n : Nat) : Bool :=
  beatsIn s n == 0 && atBoundary s n && [VClass.a, .s, .h].contains (domainClass n)

/-- Fixed load of the window that has passed [mJ] (R60): classes I and F, idle domains, regulator losses. -/
def fixedLoad (s : State) (o : EnergyObs) : Nat :=
  let flat := (List.range 96).filter fun n =>
    domainClass n == .i || domainClass n == .f || idleDomain s n
  ((flat.map (drawOf o)).sum + (o.inputs - ((List.range 96).map (drawOf o)).sum)) / 1000

/-- Energy of the window that has passed [mJ] that radio used: its signal domains, and the lease contexts' share. -/
def radioUse (s : State) (o : EnergyObs) : Nat :=
  ((s.pwr.active.filter (·.radio)).map fun a =>
    if domainClass a.domain == .s then drawOf o a.domain else shareOf s o a).sum / 1000

/-- Energy of the window that has passed [mJ] that tenants' passes used. -/
def tenantUse (s : State) (o : EnergyObs) : Nat :=
  ((s.pwr.active.filter (·.sleeve != 0)).map (shareOf s o)).sum / 1000

/-- Radio pre-charge P of the new window [mJ] (R60): 0 while no cell runs and no lease plan is accepted. -/
def preCharge (s : State) (o : EnergyObs) : Nat :=
  let tasks := if radioWork s then o.planned else []
  let passes := (o.leasePasses.filter fun t => planHolds s t.1).map (·.2)
  ((tasks ++ passes).map fun t => Config.taskEnergy t.1 t.2).sum / 1000

/-- Energy of the cadence releases that fall in the new window [mJ] (R61). -/
def cadenceCharge (s : State) : Nat :=
  ((s.jobs.map (·.2)).map fun j => match j.cadence with
    | some c => if c.nextRelease < now s + ticksPerMs then Config.releaseEnergy j.header else 0
    | none => 0).sum

/-- What free-mode work may use of a grant (R61): what cadence jobs leave of it, and no more than keeps package power at
the cap over 10 consecutive windows (notes/assumptions/91.md). -/
def freeGrant (p : Pwr) (grant cadence : Nat) : Nat :=
  Nat.min (grant - cadence) (10 * p.cap - (p.totals.take 9).sum - p.fixed - p.precharge - cadence)

/-- B, F, P, D, T of the new window (R60, R61): F is the average of the windows that have passed, at most 8 (the first
window is that of the boot, `bootWindow`); the debt is repaid from what the old window's budget left, and grows by what radio used beyond P and
tenants beyond T. -/
def openWindow (s : State) (o : EnergyObs) : State :=
  let p := s.pwr
  let hist := (fixedLoad s o :: p.history).take 8
  let repaid := Nat.min p.debt (p.budget - p.fixed - p.precharge)
  let debt := p.debt - repaid + (radioUse s o - p.precharge) + (tenantUse s o - p.grant)
  let f := hist.sum / hist.length
  let t := p.cap - f - preCharge s o - debt
  let p := { p with
    history := hist, budget := p.cap, fixed := f, precharge := preCharge s o, debt := debt, grant := t
    windows := p.windows + 1
    totals := (o.inputs / 1000 :: p.totals).take 1000
    rails := (o.rails :: p.rails).take 10
    passedOver := p.overNow.foldl (fun t h => tset 0 t h (tget 0 p.passedOver h + 1)) []
    overNow := [], active := [] }
  { s with pwr := { p with remaining := freeGrant p t (cadenceCharge s) * 10 ^ 9 } }

/-- Energy charged to a job and its sleeve (R58, R191, R226), marked where it rests on an estimate (R72). -/
def chargeTo (s : State) (a : Active) (uj : Nat) (est : Bool) : State :=
  let s := if a.job = 0 || (job s a.job).gen != a.gen then s
    else modJob s a.job fun j => { j with ctr := { j.ctr with
      energy := j.ctr.energy + w64 uj, estimated := j.ctr.estimated || est } }
  if a.sleeve > 63 || (sleeve s a.sleeve).st == .absent then s
  else modSleeve s a.sleeve fun v => { v with acct := { v.acct with
    energy := v.acct.energy + w64 uj, estimated := v.acct.estimated || est } }

/-- An entry of the window rests on an estimate (R72). -/
def onEstimate (s : State) (a : Active) : Bool :=
  match domainEngine a.domain with
  | none => false
  | some e => isEstimated s a.domain || isEstimated s (arrayDomain e) || isEstimated s (arrayDomain e + 4)

/-- Meters and charges of the window that has passed (R58, R226): array, pocket and element domains are charged to the
sleeves whose passes were active; all else is overhead, and sleeve 0 is not charged. -/
def chargeEnergy (s : State) (o : EnergyObs) : State :=
  let t := o.draws.foldl (fun s d =>
    if d.1 ≥ 96 then s else modDomain s d.1 fun x => { x with energy := x.energy + w64 d.2 }) s
  (s.pwr.active.filter fun a => a.sleeve != 0 && (domainEngine a.domain).isSome).foldl (fun t a =>
    chargeTo t a (shareOf s o a) (onEstimate s a)) t

/-- The ready candidates of every engine that what remains of T does not cover are passed over in the window (R62). -/
def endWindow (s : State) : State :=
  (List.range 16).foldl (fun s e => passOver s
    (((List.range 4).filter fun i => freeReady s e i && !freeFits s e i).map fun i => (slot s e i).job)) s

/-- Credit of every resident tenant context at the start of a window (R186). -/
def addCredit (s : State) : State :=
  (List.range 16).foldl (fun s e => (List.range 4).foldl (fun s i =>
    let x := slot s e i
    if !x.valid then s
    else
      let gain : Int := fld (wd (sleeve s x.sleeve).record 0) 57 50 * 16384
      modSlot s e i fun x => { x with credit := min (4 * gain) (x.credit + gain) }) s) s

/-- T has room for the estimate at a higher index of a free domain (R63): of every pass ready on the engine, for its
array and pocket; for other domains the spec gives no estimate (notes/assumptions/91.md). -/
def roomAt (s : State) (n i : Nat) : Bool :=
  match domainEngine n with
  | some e =>
    if isArrayDomain n || isPocketDomain n then
      (((List.range 4).filter (freeReady s e)).map fun k => match nextPass (slot s e k) with
        | some (d, p, _) => passEnergyAt e d p i
        | none => 0).sum ≤ s.pwr.remaining
    else Config.windowEstimate n i ≤ s.pwr.remaining
  | none => Config.windowEstimate n i ≤ s.pwr.remaining

/-- A free domain takes the index that the power manager grants (R63). -/
def grantIndex (s : State) (n i : Nat) : State :=
  if i > (domain s n).vindex && !roomAt s n (clampIndex n i) then s else setIndex s n i

/-- Voltages of the new window: guarded indices where work is paced (R51, R53), grants elsewhere, one
step down at throttle level 1 and the floor above it (R63, R65), by the level in force on the domain (R66). -/
def setVoltages (s : State) (o : EnergyObs) : State :=
  (List.range 96).foldl (fun s n =>
    let c := domainClass n
    if c == .f || c == .i then s
    else
      let req := requiredPace o.scheduled n
      let s := modDomain s n fun x => { x with paced := req.isSome }
      let x := domain s n
      match req with
      | some r => setIndex s n (guardedIndex s n r.1 r.2)
      | none =>
        match x.throttle with
          | 0 => match o.grants.find? (·.1 == n) with
            | some g => grantIndex s n g.2
            | none => s
          | 1 => setIndex s n (x.vindex - 1)
          | _ => setIndex s n 0) s

/-- Domains at a boundary take their die's level (R66). -/
def settleThrottles (s : State) : State :=
  (List.range 96).foldl (fun s n => if atBoundary s n then takeThrottle s n else s) s

/-- One more window in which a level's entry condition was false throughout, or a fresh start (R65). -/
def countClear (s : State) (d : Nat) : State :=
  let p := diePwr s d
  setDiePwr s d { p with
    hot := []
    clear := [1, 2, 3].map fun l => if tableCond s d l || p.hot.contains l then 0 else p.clear.getD (l - 1) 0 + 1 }

/-- ENERGY_WINDOW (R60). -/
def execEnergyWindow (o : EnergyObs) (s : State) : Host.Outcome State Fault Refusal :=
  .next <|
    if s.boot.phase != .booted then s
    else
      let s := chargeEnergy (endWindow s) o
      let p := s.pwr.nextSettings.foldl applySetting s.pwr
      let s := openWindow { s with pwr := { p with nextSettings := [] } } o
      let s := (List.range 8).foldl countClear s
      addCredit (setVoltages (settleThrottles (enterThrottles s)) o)

/-! ### Domain errors -/

/-- No resident context, no scheduled pass and no fitting due on an engine (R46). -/
def engineIdle (s : State) (e : Nat) : Bool :=
  (List.range 5).all (fun i => !(slot s e i).valid) && (engine s e).pass.isNone &&
  !(engine s e).leased && [e, 16 + e].all fun u =>
    (unitSt s u).fit.isNone && !(unitSt s u).fitDue && !(unitSt s u).clearing

/-- DOMAIN_IDLE_OFF (R46): array and element domains. -/
def execDomainIdleOff (n : Nat) (s : State) : Host.Outcome State Fault Refusal :=
  .next <|
    match domainEngine n with
    | some e =>
      if isPocketDomain n || !engineIdle s e then s
      else modDomain s n fun x => { x with on := false }
    | none => s

/-- Energy of a domain since device reset [mJ] (R394). -/
def domainMj (s : State) (n : Nat) : Nat := (domain s n).energy.toNat / 1000

/-- DOMAIN_VOLTAGE_FAIL (R72): a retry, then the domain's units are fenced, and the contexts of a failed pocket faulted
(R136); a class I or F domain is a
die-level fault, but for the domain that is held off permanently (R46). -/
def execDomainVoltageFail (n : Nat) (s : State) : Host.Outcome State Fault Refusal :=
  .next <|
    if n ≥ 95 || !powered s then s
    else
      let c := domainClass n
      let ev (row : Nat) : ErrEvent :=
        { code := 0x00A, severity := 3, die := domainDie n, domain := n, d0 := row
          d1 := domainMj s n }
      if c == .i || c == .f then dieFault (raise s (ev 6)) (domainDie n) 0x00A
      else if !(domain s n).retried then modDomain s n fun x => { x with retried := true }
      else
        let s := raise (modDomain s n fun x => { x with on := false }) (ev 5)
        let s := match domainEngine n with
          | some e => if isPocketDomain n then failPocket s e else s
          | none => s
        let us := domainUnits n
        if us.isEmpty then radioFenced s (domainDie n - 4)
        else us.foldl (fun s u => if isFenced s u then s else fenceUnit s u .unconfirmed 2) s

/-- ENERGY_METER_CHECK (R72): meter and regulator [mJ] over 100 ms. -/
def execEnergyMeterCheck (n meter regulator : Nat) (s : State) :
    Host.Outcome State Fault Refusal :=
  .next <|
    let diff := if meter ≥ regulator then meter - regulator else regulator - meter
    if n ≥ 96 || !powered s || diff * 10 ≤ regulator then s
    else
      let s := raise s { code := 0x00A, severity := 3, die := domainDie n, domain := n, d0 := 4
                         d1 := meter }
      modDomain s n fun x => { x with estimatedUntil := now s + ticksPerS }

/-! ### Commands (R70) -/

/-- A setting that takes effect at the next window. -/
def nextSetting (s : State) (kind a b : Nat) : State :=
  { s with pwr := { s.pwr with nextSettings := s.pwr.nextSettings ++ [(kind, a, b)] } }

/-- PWR_CAP_SET (R70). -/
def execPwrCapSet (cmd : Cmd) (s : State) : Host.Outcome State Fault Refusal :=
  .next <| serve 0x280 1 isManager cmd s fun _ s =>
    checked [(argN cmd 0 < 250 || argN cmd 0 > 700, .badField),
        (argN cmd 0 < s.pwr.fixed + s.pwr.precharge + 10, .denied)] <|
      .ok (nextSetting s 0 (argN cmd 0) 0) []

/-- PWR_GUARD_SET (R70). -/
def execPwrGuardSet (cmd : Cmd) (s : State) : Host.Outcome State Fault Refusal :=
  .next <| serve 0x281 2 isManager cmd s fun _ s =>
    checked [(argN cmd 0 > 2 || argN cmd 1 < 60 || argN cmd 1 > 200, .badField)] <|
      .ok (nextSetting s 1 (argN cmd 0) (argN cmd 1)) []

/-- PWR_THERMAL_SET (R70, R65). -/
def execPwrThermalSet (cmd : Cmd) (s : State) : Host.Outcome State Fault Refusal :=
  .next <| serve 0x282 2 isManager cmd s fun _ s =>
    let t := argN cmd 0
    let u := argN cmd 1
    checked [(t < 80 || t > 95 || u < 90 || u > 100 || u < t + 5, .badField)] <|
      .ok (nextSetting s 2 t u) []

/-- The 256 entries of an array domain's energy table, packed at 16 bits (R465, R372). -/
def energyWords (n : Nat) : List W64 :=
  (List.range 64).map fun k =>
    pack 64 ((List.range 4).map fun j =>
      let i := 4 * k + j
      (16 * j, if i % 64 ≤ 58 then Config.energyTable n (i / 64) (i % 64) % 65536 else 0))

/-- PWR_DOMAIN_READ (R70). -/
def execPwrDomainRead (cmd : Cmd) (s : State) : Host.Outcome State Fault Refusal :=
  .next <| serve 0x283 1 isManager cmd s fun _ s =>
    let n := argN cmd 0
    let x := domain s n
    checked [(n > 95, .badField)] <|
      .ok s ([w64 (domainReg x), w64 (ctrReg x.late), w64 (ctrReg x.wait), x.energy] ++
        pack32 ((List.range 64).map fun i => paceReg (paceEntry x i)) ++
        (if n < 64 && n % 16 < 4 then energyWords n else []))

end Sys2Proof.Machine
end

