-- ==== Sys2Proof/Machine/SubmissionCmds.lean ====
section
/-! DEFINITION. The submission queues (R216–R218): an entry fetched, and its command run. -/

namespace Sys2Proof.Machine

/-- Commands of opcodes 0x0000–0x00FF (R375). -/
def mgmtCommand (op : Nat) (c : Cmd) (s : State) : Host.Outcome State Fault Refusal :=
  match op with
  | 0x000 => execMgmtStatus c s
  | 0x001 => execHcLoad c s
  | 0x002 => execHcStop c s
  | 0x003 => execHcStatus c s
  | 0x004 => execDicRouteSet c s
  | 0x005 => execDicStatus c s
  | 0x006 => execSidebandUpload c s
  | 0x007 => execTelemetryRead c s
  | _ => execReservedCommand op c s

/-- Commands of opcodes 0x0100–0x017F (R375). -/
def sleeveCommand (op : Nat) (c : Cmd) (s : State) : Host.Outcome State Fault Refusal :=
  match op with
  | 0x100 => execSleeveCreate c s
  | 0x101 => execSleeveSet c s
  | 0x102 => execSleeveHostRange c s
  | 0x103 => execSleeveQuiesce c s
  | 0x104 => execSleeveResume c s
  | 0x105 => execSleeveReset c s
  | 0x106 => execSleeveRemove c s
  | 0x107 => execSleeveStatus c s
  | 0x108 => execPagesAlloc c s
  | 0x109 => execPagesFree c s
  | 0x10A => execSleeveDirtyStart c s
  | 0x10B => execSleeveDirtyRead c s
  | 0x10C => execSleeveDirtyStop c s
  | 0x10D => execSleeveExport c s
  | 0x10E => execSleeveImport c s
  | 0x10F => execSleeveAccountRead c s
  | _ => execReservedCommand op c s

/-- Commands of opcodes 0x0180–0x01FF (R375). -/
def jobCommand (op : Nat) (c : Cmd) (s : State) : Host.Outcome State Fault Refusal :=
  match op with
  | 0x180 => execJobSubmit c s
  | 0x181 => execJobStatus c s
  | 0x182 => execJobCancel c s
  | 0x183 => execSeqJoin c s
  | 0x184 => execSeqLeave c s
  | 0x185 => execSnapshotBegin c s
  | 0x186 => execSnapshotStatus c s
  | 0x187 => execSnapshotRestore c s
  | _ => execReservedCommand op c s

/-- Commands of opcodes 0x0200–0x027F (R375). -/
def radioCommand (op : Nat) (c : Cmd) (s : State) : Host.Outcome State Fault Refusal :=
  match op with
  | 0x200 => execCellConfig c s
  | 0x201 => execCellStart c s
  | 0x202 => execCellStop c s
  | 0x203 => execCellMoveOut c s
  | 0x204 => execCellMoveIn c s
  | 0x205 => execLeasePlan c s
  | 0x206 => execLeaseCeilingSet c s
  | 0x207 => execRadioStatus c s
  | _ => execReservedCommand op c s

/-- Commands of opcodes 0x0280–0x02FF (R375). -/
def powerCommand (op : Nat) (c : Cmd) (s : State) : Host.Outcome State Fault Refusal :=
  match op with
  | 0x280 => execPwrCapSet c s
  | 0x281 => execPwrGuardSet c s
  | 0x282 => execPwrThermalSet c s
  | 0x283 => execPwrDomainRead c s
  | _ => execReservedCommand op c s

/-- Commands of opcodes 0x0300–0x037F (R375). -/
def liningCommand (op : Nat) (c : Cmd) (s : State) : Host.Outcome State Fault Refusal :=
  match op with
  | 0x300 => execFittingLoad c s
  | 0x301 => execFittingStatus c s
  | 0x302 => execFittingRun c s
  | 0x303 => execCandidateRead c s
  | 0x304 => execCandidateFree c s
  | 0x305 => execLiningLogRead c s
  | _ => execReservedCommand op c s

/-- Commands of opcodes 0x0380–0x03FF (R375). -/
def fronthaulCommand (op : Nat) (c : Cmd) (s : State) : Host.Outcome State Fault Refusal :=
  match op with
  | 0x380 => execFhPortConfig c s
  | 0x381 => execFhFlowSet c s
  | 0x382 => execFhEgressSet c s
  | 0x383 => execFhGateList c s
  | 0x384 => execFhPortRestore c s
  | 0x385 => execFhPortStatus c s
  | 0x386 => execTimeConfig c s
  | 0x387 => execTimeRate c s
  | 0x388 => execTimeStep c s
  | 0x389 => execTimeLock c s
  | 0x38A => execTimeRead c s
  | _ => execReservedCommand op c s

/-- Commands of opcodes 0x0400–0x047F (R375). -/
def fabricCommand (op : Nat) (c : Cmd) (s : State) : Host.Outcome State Fault Refusal :=
  match op with
  | 0x400 => execFabricConfig c s
  | 0x401 => execFabricRouteSet c s
  | 0x402 => execFabricJobMap c s
  | 0x403 => execFabricSink c s
  | 0x404 => execFabricTeardown c s
  | 0x405 => execFabricDeviceLost c s
  | 0x406 => execFabricStatus c s
  | 0x407 => execFabricPortRestore c s
  | _ => execReservedCommand op c s

/-- Commands of opcodes 0x0480–0x04FF (R375). -/
def healthCommand (op : Nat) (c : Cmd) (s : State) : Host.Outcome State Fault Refusal :=
  match op with
  | 0x480 => execHealthStatus c s
  | 0x481 => execHealthLogRead c s
  | 0x482 => execHealthConfig c s
  | 0x483 => execHealthClockSet c s
  | 0x484 => execHealthSeed c s
  | 0x485 => execHealthUnitConfirm c s
  | 0x486 => execHealthUnitClear c s
  | 0x487 => execHealthDieClear c s
  | 0x488 => execHealthReinstate c s
  | 0x489 => execHealthShutdown c s
  | 0x48A => execHealthDeviceReset c s
  | _ => execReservedCommand op c s

/-- Commands of opcodes 0x0500–0x057F (R375). -/
def bootCommand (op : Nat) (c : Cmd) (s : State) : Host.Outcome State Fault Refusal :=
  match op with
  | 0x500 => execBootStatus c s
  | 0x501 => execBootConfigRead c s
  | 0x502 => execBootConfigSet c s
  | 0x503 => execBootImageUpdate c s
  | 0x504 => execBootRollbackCommit c s
  | 0x505 => execAttest c s
  | 0x506 => execAttestKeyRead c s
  | 0x507 => execIdRead c s
  | _ => execReservedCommand op c s

/-- The command that an opcode names (R375). -/
def runCommand (op : Nat) (c : Cmd) (s : State) : Host.Outcome State Fault Refusal :=
  if op < 0x100 then mgmtCommand op c s
  else if op < 0x180 then sleeveCommand op c s
  else if op < 0x200 then jobCommand op c s
  else if op < 0x280 then radioCommand op c s
  else if op < 0x300 then powerCommand op c s
  else if op < 0x380 then liningCommand op c s
  else if op < 0x400 then fronthaulCommand op c s
  else if op < 0x480 then fabricCommand op c s
  else if op < 0x500 then healthCommand op c s
  else if op < 0x580 then bootCommand op c s
  else execReservedCommand op c s

/-- Tacor fetches the queue of a sleeve (R206, R216, R218, R371): the sleeve is ACTIVE, the queue holds an entry, the queues work, the completion
queue has room, fewer than 32 commands are accepted and not completed, and all of them have been taken up. -/
def fetches (s : State) (k : Nat) : Bool :=
  let v := sleeve s k
  s.boot.phase == .booted && s.mgt.tacor == 1 && 1 ≤ k && k ≤ 63 && v.st == .active && !v.queueFault &&
    v.sqHead != v.sqTail && !cqFull v && v.backlog.isEmpty && queued s (.tenant k) < 32 &&
    s.mgt.accepted.all fun a => partyOf a.src != .tenant k || takenUp s a

/-- SUBMISSION_FETCH (R216, R218): `entry` is what the host answers, none after an abort or a second CRC failure;
`hostData` what host memory holds at the command's host address. -/
def execSubmissionFetch (k : Nat) (entry : Option (List W64)) (hostData : List Byte) (s : State) :
    Host.Outcome State Fault Refusal :=
  let v := sleeve s k
  if !fetches s k then .next s
  else if !hostReachable s || !inHostRange v ((wd v.record 2).toNat + 128 * v.sqHead) 128 then
    .next (queueFault s k)
  else match entry with
    | none => .next (queueFault s k)
    | some e =>
      let s := hostRead (modSleeve s k fun v => { v with sqHead := (v.sqHead + 1) % qEntries v 63 48 }) k
        ((wd v.record 2).toNat + 128 * v.sqHead) 128
      let op := fld (wd e 0) 63 48
      let src := Src.subq k (fld (wd e 0) 31 0)
      let c : Cmd := { src := src, args := (List.range 15).map fun i => wd e (i + 1), hostData := hostData }
      runCommand op c { s with mgt := { s.mgt with
        accepted := s.mgt.accepted ++ [{ src := src, opcode := op, raw := now s }] } }

end Sys2Proof.Machine
end

