-- ==== Sys2Proof/Machine/MoveCmds.lean ====
section
/-! DEFINITION. The end of a page move (R34): what waited for the page is given again, in its arrival order. -/

namespace Sys2Proof.Machine

/-! ### The end of a page move (R34) -/

/-- A command whose access waited for a page in move, given again (R31 condition 4, R34). -/
def runParked (c : Instr) (s : State) : State :=
  match c with
  | .chain e i d => afterOf (execChain e i d s) s
  | .wait e i d => afterOf (execWait e i d s) s
  | .waitSatisfied e i => afterOf (execWaitSatisfied e i s) s
  | .signal e i d => afterOf (execSignal e i d s) s
  | .dmaIn e i d f => afterOf (execDmaIn e i d f s) s
  | .dmaOut e i d f => afterOf (execDmaOut e i d f s) s
  | .dmaCopy e i d f => afterOf (execDmaCopy e i d f s) s
  | .dmaComplete e i f => afterOf (execDmaComplete e i f s) s
  | .add e i d => afterOf (execAdd e i d s) s
  | .sub e i d => afterOf (execSub e i d s) s
  | .mul e i d => afterOf (execMul e i d s) s
  | .fma e i d => afterOf (execFma e i d s) s
  | .div e i d => afterOf (execDiv e i d s) s
  | .sqrt e i d => afterOf (execSqrt e i d s) s
  | .max e i d => afterOf (execMax e i d s) s
  | .min e i d => afterOf (execMin e i d s) s
  | .rint e i d => afterOf (execRint e i d s) s
  | .scaleb e i d => afterOf (execScaleb e i d s) s
  | .convert e i d => afterOf (execConvert e i d s) s
  | .exp e i d => afterOf (execExp e i d s) s
  | .log e i d => afterOf (execLog e i d s) s
  | .sigmoid e i d => afterOf (execSigmoid e i d s) s
  | .silu e i d => afterOf (execSilu e i d s) s
  | .tanh e i d => afterOf (execTanh e i d s) s
  | .gelu e i d => afterOf (execGelu e i d s) s
  | .rsqrt e i d => afterOf (execRsqrt e i d s) s
  | .framesum e i d => afterOf (execFramesum e i d s) s
  | .framedot e i d => afterOf (execFramedot e i d s) s
  | .softmax e i d => afterOf (execSoftmax e i d s) s
  | .layernorm e i d => afterOf (execLayernorm e i d s) s
  | .rmsnorm e i d => afterOf (execRmsnorm e i d s) s
  | .quantMx e i d => afterOf (execQuantMx e i d s) s
  | .put h d => afterOf (execPut h d s) s
  | .get h d => afterOf (execGet h d s) s
  | .addI64 h d => afterOf (execAddI64 h d s) s
  | .minI64 h d => afterOf (execMinI64 h d s) s
  | .maxI64 h d => afterOf (execMaxI64 h d s) s
  | .addF32 h d => afterOf (execAddF32 h d s) s
  | .minF32 h d => afterOf (execMinF32 h d s) s
  | .maxF32 h d => afterOf (execMaxF32 h d s) s
  | .addF64 h d => afterOf (execAddF64 h d s) s
  | .minF64 h d => afterOf (execMinF64 h d s) s
  | .maxF64 h d => afterOf (execMaxF64 h d s) s
  | .cas64 h d => afterOf (execCas64 h d s) s
  | .cas128 h d => afterOf (execCas128 h d s) s
  | .anchorMin h d => afterOf (execAnchorMin h d s) s
  | .anchorMax h d => afterOf (execAnchorMax h d s) s
  | .scaleMax h d => afterOf (execScaleMax h d s) s
  | .sumWide h d => afterOf (execSumWide h d s) s
  | .sumI64 h d => afterOf (execSumI64 h d s) s
  | .collectiveMinI64 h d => afterOf (execCollectiveMinI64 h d s) s
  | .collectiveMaxI64 h d => afterOf (execCollectiveMaxI64 h d s) s
  | .barrier h d => afterOf (execBarrier h d s) s
  | .stepBoundary h o => afterOf (execStepBoundary h o s) s
  | .txRingPoll p r => afterOf (execTxRingPoll p r s) s
  | .channelEstimation k o => afterOf (execChannelEstimation k o s) s
  | .equalisation k o => afterOf (execEqualisation k o s) s
  | .srsChannelEstimation k o => afterOf (execSrsChannelEstimation k o s) s
  | .ldpcDecode k d e o => afterOf (execLdpcDecode k d e o s) s
  | .ldpcEncode k e o => afterOf (execLdpcEncode k e o s) s
  | .polarDecode k o => afterOf (execPolarDecode k o s) s
  | .polarEncode k o => afterOf (execPolarEncode k o s) s
  | .reedMullerDecode k o => afterOf (execReedMullerDecode k o s) s
  | .sequenceDetection k o => afterOf (execSequenceDetection k o s) s
  | .precoding k o => afterOf (execPrecoding k o s) s
  | .weightAttachment k o => afterOf (execWeightAttachment k o s) s
  | .weightComputation k o => afterOf (execWeightComputation k o s) s
  | .uplaneSymbol k o => afterOf (execUplaneSymbol k o s) s
  | .localDmaCopy k o => afterOf (execLocalDmaCopy k o s) s
  | _ => s

/-- An access that waited, made again once its page has moved (R34). -/
def runWaiter (s : State) : Waiter → State
  | .coreStore k addr data => coreAccess s k addr (.store data)
  | .coreLoad k addr n => coreAccess s k addr (.load n)
  | .coreAdd k addr v => coreAccess s k addr (.atomicAdd v)
  | .cxlRead addr n => afterOf (execCxlMemRead addr n s) s
  | .cxlWrite addr data => afterOf (execCxlMemWrite addr data s) s
  | .packet port p => if packetWaits s (hSrc p) then parkPacket s port p else receiveSeq s port p
  | .rxFrame p flow colour frame time => deliver s p flow colour frame time
  | .txBack p r addr st ts => writeBackCode s p r addr st ts
  | .command c => runParked c s
  | .record k addr words => postAt s k addr words
  | .tacor op c =>
    if s.mgt.accepted.any (fun a => a.src == c.src && a.opcode == op) then afterOf (runCommand op c s) s else s
  | .result src op addr st words => complete s src op addr (statusOf st) words
  | .fabricRing h => settleJob s h
  | .barrierValue h => settleBarrier s h
  | .slotJobs d => fetchSlotJobs d ((radDie s d).sj.entries + 1) s
  | .reports d => drainReports d (radDie s d).buffer.length s
  | .snapshot h gen pieces => if (job s h).gen == gen then landPieces s h pieces else s

/-- The waiting accesses are released in their arrival order; those of a page still in move wait on (R34). -/
def releaseWaiters (s : State) : State :=
  s.pkg.waiters.foldl (fun s w =>
    if s.pkg.moves.any fun m => m.page == w.1 then
      { s with pkg := { s.pkg with waiters := s.pkg.waiters ++ [w] } }
    else runWaiter s w.2) { s with pkg := { s.pkg with waiters := [] } }

/-- The copy of a page is done (R34): the bytes lie in the new frame, LOC and FRAME change in one update, the old
frame is free, and the waiting accesses are released. -/
def finishMove (s : State) (m : Move) : State :=
  let w := ownEntry s m.page
  let keep : W64 := w &&& ~~~((0xC0FFFFFF : W64))
  let s := physCopy s (frameBase m.loc m.frame) (frameBase m.oldLoc m.oldFrame) 65536
  let s := { s with pkg := { s.pkg with
    owner := tset 0 s.pkg.owner m.page (keep ||| pack 64 [(30, m.loc), (0, m.frame)])
    moves := s.pkg.moves.filter fun x => x.page != m.page } }
  releaseWaiters (dropFrame s m.oldLoc m.oldFrame)

/-- PAGE_MOVE_DONE (R34). What waits for a page whose move has ended without its copy is released too
(notes/assumptions/78.md). -/
def execPageMoveDone (page : Nat) (s : State) : Host.Outcome State Fault Refusal :=
  .next <|
    match s.pkg.moves.find? fun m => m.page == page with
    | none => releaseWaiters s
    | some m => finishMove s m

end Sys2Proof.Machine
end

