-- ==== Sys2Proof/Machine/PackageCmds.lean ====
section
/-! DEFINITION. The seams of the package (chapter 01): R19–R22. -/

namespace Sys2Proof.Machine

/-- UCIe modules of a seam (R17). -/
def seamModules (n : Nat) : Nat := if n < 7 then 4 else 2

/-- Flits that the sending die of a direction has still to resend, the one that failed first (R19). -/
def Seam.owed (x : Seam) (dir : Nat) : List (List Byte) := tget [] x.resend dir

/-- A flit that failed its CRC: its replay is requested, and the sending die is to resend it and every later flit out
of its replay buffer (R19, R22). While a replay is under way it is the resent flit that has failed again: one more
replay that failed, and the buffer stands as it is (R20). -/
def Seam.fail (x : Seam) (dir : Nat) (buffer : List (List Byte)) : Seam :=
  { x with
    retries := Nat.min 0xFFFFFF (x.retries + 1)
    sat := x.sat || x.retries == 0xFFFFFF
    replays := if (x.owed dir).isEmpty then x.replays else tmod 0 x.replays dir (· + 1)
    resend := if (x.owed dir).isEmpty then tset [] x.resend dir buffer else x.resend }

/-- The flit that a direction has to bring next: the first of those owed, in the original order; any flit when none
is, since a retried flit is never overtaken by a later one (R19). -/
def Seam.takes (x : Seam) (dir : Nat) (flit : List Byte) : Bool := (x.owed dir).head?.all (· == flit)

/-- A flit that passed its CRC: the replays in a row end, and the next flit follows in order (R19, R20). -/
def Seam.pass (x : Seam) (dir : Nat) : Seam :=
  { x with replays := tset 0 x.replays dir 0, resend := tmod [] x.resend dir (·.drop 1) }

/-- SEAM_FLIT_CRC_ERROR (R19): the CRC of a flit that crosses is computed again over its first 248 bytes; a mismatch
requests a replay out of the sender's buffer, which holds at least that flit. A flit out of turn is not taken. -/
def execSeamFlitCrcError (n dir : Nat) (flit : List Byte) (buffer : List (List Byte)) (s : State) :
    Host.Outcome State Fault Refusal :=
  .next <|
    let x := seamSt s n
    if n ≥ 13 || dir ≥ 2 || s.boot.phase == .held then s
    else if flitGood flit then (if x.takes dir flit then setSeam s n (x.pass dir) else s)
    else if (x.owed dir).isEmpty && buffer.isEmpty then s
    else emit (setSeam s n (x.fail dir buffer)) (.replayRequest n)

/-! ### Seam failure (R20) -/

/-- A DMA descriptor of a context has a transfer on a seam. -/
def dmaCrosses (s : State) (n e : Nat) (d : List W64) : Bool :=
  descKind d != 3 && (List.range (dRows d)).any fun r =>
    (accessPaths s (unitDie e) (dDev d r).toNat (dRowBytes d)).contains (.seam n)

/-- Contexts whose DMA descriptors are on their way over a seam: engine and slot, the lease context's too. -/
def slotsOnSeam (s : State) (n : Nat) : List (Nat × Nat) :=
  (List.range 16).flatMap fun e => ((List.range 5).filter fun i =>
    (slot s e i).dma.any fun r => dmaCrosses s n e r.desc).map fun i => (e, i)

/-- Jobs whose fabric descriptors' local data are on their way over a seam. -/
def jobsOnSeam (s : State) (n : Nat) : List Nat :=
  s.fab.pairs.flatMap fun e =>
    let die := (homePort s e.1).elim 6 fun p => 6 + p / 8
    (e.2.tracks ++ e.2.held).filterMap fun t =>
      if t.job != 0 && (tget [] s.fab.runs t.job).any fun r => r.id == t.desc &&
          (accessPaths s die (fld (wd r.desc 1) 63 16) (fld (wd r.desc 3) 63 32)).contains (.seam n)
      then some t.job else none

/-- Every event that waits becomes a record, die by die, in the order of its queue (R395). -/
def drainEvents (s : State) : State :=
  if s.mgt.tacor != 1 then s
  else (List.range 8).foldl (fun s d =>
    (tget [] s.hlt.queues d).foldl recordEvent
      { s with hlt := { s.hlt with queues := tset [] s.hlt.queues d [] } }) s

/-- Seam failure at run time (R20): the contexts with a transfer on it are faulted with CHECK_FAILED
(notes/assumptions/87.md), both dies take a die-level fault, the fault is recorded on every path (R396), and the
device is reset. -/
def seamFailure (s : State) (n : Nat) : State :=
  let s := setSeam s n { seamSt s n with failed := true }
  let hs := jobsOnSeam s n
  let s := (slotsOnSeam s n).foldl (fun s c => faultSlot s c.1 c.2 .checkFailed) s
  let s := hs.foldl (fun s h => faultJob s h .checkFailed) s
  let s := raise s { code := 0x003, severity := 5, d0 := n }
  let s := noteDie (noteDie s (seamDies n).1 0x003) (seamDies n).2 0x003
  deviceReset (drainEvents s) (some 4)

/-- SEAM_LANE_REPAIR (R20): a flit that failed 8 replays in a row; a spare lane of the module, or the
seam fails when the module has used both. The seam then goes on from the replay buffer. -/
def execSeamLaneRepair (n m lane : Nat) (s : State) : Host.Outcome State Fault Refusal :=
  .next <|
    let x := seamSt s n
    if n ≥ 13 || m ≥ seamModules n || lane ≥ 64 || x.failed || !(x.replays.any fun e => e.2 ≥ 8) ||
        s.boot.phase == .held then s
    else if tget 0 x.spares m < 2 then
      let s := setSeam s n { x with spares := tmod 0 x.spares m (· + 1), replays := [] }
      raise s { code := 0x002, severity := 1, d0 := n, d1 := lane }
    else seamFailure s n

end Sys2Proof.Machine
end

