-- ==== Sys2Proof/Machine/Dispatch.lean ====
section
/-! DEFINITION. One arm per command: which meaning runs. -/

namespace Sys2Proof.Machine

/-- A command's effect on everything but the queue. -/
def exec (i : Instr) (s : State) : Host.Outcome State Fault Refusal :=
  match i with
  | .powerUp => Sys2Proof.Machine.execPowerUp s
  | .coldBoot flash obs => Sys2Proof.Machine.execColdBoot flash obs s
  | .bootMboxGo image linkDown obs => Sys2Proof.Machine.execBootMboxGo image linkDown obs s
  | .cardReset samples => Sys2Proof.Machine.execCardReset samples s
  | .refclkLost nsWithoutEdge ppm => Sys2Proof.Machine.execRefclkLost nsWithoutEdge ppm s
  | .railFault rail => Sys2Proof.Machine.execRailFault rail s
  | .sagThrottle mv => Sys2Proof.Machine.execSagThrottle mv s
  | .sagCleared => Sys2Proof.Machine.execSagCleared s
  | .nvmWriteInhibit => Sys2Proof.Machine.execNvmWriteInhibit s
  | .nvmWriteResume => Sys2Proof.Machine.execNvmWriteResume s
  | .brownOut => Sys2Proof.Machine.execBrownOut s
  | .thermalTrip tj => Sys2Proof.Machine.execThermalTrip tj s
  | .thermtripRelease => Sys2Proof.Machine.execThermtripRelease s
  | .sensorSample readings => Sys2Proof.Machine.execSensorSample readings s
  | .sensorExclude domain sensor => Sys2Proof.Machine.execSensorExclude domain sensor s
  | .paceEntryLoaded domain => Sys2Proof.Machine.execPaceEntryLoaded domain s
  | .energyWindow obs => Sys2Proof.Machine.execEnergyWindow obs s
  | .domainIdleOff domain => Sys2Proof.Machine.execDomainIdleOff domain s
  | .domainVoltageFail domain => Sys2Proof.Machine.execDomainVoltageFail domain s
  | .energyMeterCheck domain meter regulator => Sys2Proof.Machine.execEnergyMeterCheck domain meter regulator s
  | .tempSample readings failed => Sys2Proof.Machine.execTempSample readings failed s
  | .throttleExit die => Sys2Proof.Machine.execThrottleExit die s
  | .releaseTick target landed => Sys2Proof.Machine.execReleaseTick target landed s
  | .freePassStart engine slot beatsToTick => Sys2Proof.Machine.execFreePassStart engine slot beatsToTick s
  | .passBoundary engine obs => Sys2Proof.Machine.execPassBoundary engine obs s
  | .paceFaultSet domain => Sys2Proof.Machine.execPaceFaultSet domain s
  | .passFault engine kind => Sys2Proof.Machine.execPassFault engine kind s
  | .engineHang engine => Sys2Proof.Machine.execEngineHang engine s
  | .chain engine slot desc => Sys2Proof.Machine.execChain engine slot desc s
  | .wait engine slot desc => Sys2Proof.Machine.execWait engine slot desc s
  | .waitSatisfied engine slot => Sys2Proof.Machine.execWaitSatisfied engine slot s
  | .signal engine slot desc => Sys2Proof.Machine.execSignal engine slot desc s
  | .dmaIn engine slot desc flips => Sys2Proof.Machine.execDmaIn engine slot desc flips s
  | .dmaOut engine slot desc flips => Sys2Proof.Machine.execDmaOut engine slot desc flips s
  | .dmaCopy engine slot desc flips => Sys2Proof.Machine.execDmaCopy engine slot desc flips s
  | .dmaComplete engine slot flips => Sys2Proof.Machine.execDmaComplete engine slot flips s
  | .add engine slot desc => Sys2Proof.Machine.execAdd engine slot desc s
  | .sub engine slot desc => Sys2Proof.Machine.execSub engine slot desc s
  | .mul engine slot desc => Sys2Proof.Machine.execMul engine slot desc s
  | .fma engine slot desc => Sys2Proof.Machine.execFma engine slot desc s
  | .div engine slot desc => Sys2Proof.Machine.execDiv engine slot desc s
  | .sqrt engine slot desc => Sys2Proof.Machine.execSqrt engine slot desc s
  | .max engine slot desc => Sys2Proof.Machine.execMax engine slot desc s
  | .min engine slot desc => Sys2Proof.Machine.execMin engine slot desc s
  | .rint engine slot desc => Sys2Proof.Machine.execRint engine slot desc s
  | .scaleb engine slot desc => Sys2Proof.Machine.execScaleb engine slot desc s
  | .convert engine slot desc => Sys2Proof.Machine.execConvert engine slot desc s
  | .exp engine slot desc => Sys2Proof.Machine.execExp engine slot desc s
  | .log engine slot desc => Sys2Proof.Machine.execLog engine slot desc s
  | .sigmoid engine slot desc => Sys2Proof.Machine.execSigmoid engine slot desc s
  | .silu engine slot desc => Sys2Proof.Machine.execSilu engine slot desc s
  | .tanh engine slot desc => Sys2Proof.Machine.execTanh engine slot desc s
  | .gelu engine slot desc => Sys2Proof.Machine.execGelu engine slot desc s
  | .rsqrt engine slot desc => Sys2Proof.Machine.execRsqrt engine slot desc s
  | .framesum engine slot desc => Sys2Proof.Machine.execFramesum engine slot desc s
  | .framedot engine slot desc => Sys2Proof.Machine.execFramedot engine slot desc s
  | .softmax engine slot desc => Sys2Proof.Machine.execSoftmax engine slot desc s
  | .layernorm engine slot desc => Sys2Proof.Machine.execLayernorm engine slot desc s
  | .rmsnorm engine slot desc => Sys2Proof.Machine.execRmsnorm engine slot desc s
  | .quantMx engine slot desc => Sys2Proof.Machine.execQuantMx engine slot desc s
  | .refereeStaging suspect referee => Sys2Proof.Machine.execRefereeStaging suspect referee s
  | .refereeTimeout suspect => Sys2Proof.Machine.execRefereeTimeout suspect s
  | .refereePassDone suspect obs => Sys2Proof.Machine.execRefereePassDone suspect obs s
  | .locatingReplayDone suspect faults => Sys2Proof.Machine.execLocatingReplayDone suspect faults s
  | .strikeCountConfirm unit => Sys2Proof.Machine.execStrikeCountConfirm unit s
  | .fittingStart unit fitting beatsToTick => Sys2Proof.Machine.execFittingStart unit fitting beatsToTick s
  | .fittingPeriodEnd unit => Sys2Proof.Machine.execFittingPeriodEnd unit s
  | .fittingDone unit run rerun => Sys2Proof.Machine.execFittingDone unit run rerun s
  | .fenceClearanceDone unit => Sys2Proof.Machine.execFenceClearanceDone unit s
  | .scrubFrames found => Sys2Proof.Machine.execScrubFrames found s
  | .scrubPocket engine words => Sys2Proof.Machine.execScrubPocket engine words s
  | .lockstepMismatch pair pc => Sys2Proof.Machine.execLockstepMismatch pair pc s
  | .seamFlitCrcError seam dir flit buffer => Sys2Proof.Machine.execSeamFlitCrcError seam dir flit buffer s
  | .seamLaneRepair seam module lane => Sys2Proof.Machine.execSeamLaneRepair seam module lane s
  | .pageMoveDone page => Sys2Proof.Machine.execPageMoveDone page s
  | .jobSubmit cmd => Sys2Proof.Machine.execJobSubmit cmd s
  | .loweringDone job ok lowered => Sys2Proof.Machine.execLoweringDone job ok lowered s
  | .jobPlaced job places => Sys2Proof.Machine.execJobPlaced job places s
  | .stepBoundary job obs => Sys2Proof.Machine.execStepBoundary job obs s
  | .jobHoldRelease job => Sys2Proof.Machine.execJobHoldRelease job s
  | .cadenceRelease job => Sys2Proof.Machine.execCadenceRelease job s
  | .snapshotDrainDone job result => Sys2Proof.Machine.execSnapshotDrainDone job result s
  | .teardownDrainDone job => Sys2Proof.Machine.execTeardownDrainDone job s
  | .teardownTimeout job => Sys2Proof.Machine.execTeardownTimeout job s
  | .jobStatus cmd => Sys2Proof.Machine.execJobStatus cmd s
  | .jobCancel cmd => Sys2Proof.Machine.execJobCancel cmd s
  | .seqJoin cmd => Sys2Proof.Machine.execSeqJoin cmd s
  | .seqLeave cmd => Sys2Proof.Machine.execSeqLeave cmd s
  | .snapshotBegin cmd => Sys2Proof.Machine.execSnapshotBegin cmd s
  | .snapshotStatus cmd => Sys2Proof.Machine.execSnapshotStatus cmd s
  | .snapshotRestore cmd => Sys2Proof.Machine.execSnapshotRestore cmd s
  | .sleeveCreate cmd => Sys2Proof.Machine.execSleeveCreate cmd s
  | .sleeveSet cmd => Sys2Proof.Machine.execSleeveSet cmd s
  | .sleeveHostRange cmd => Sys2Proof.Machine.execSleeveHostRange cmd s
  | .sleeveQuiesce cmd => Sys2Proof.Machine.execSleeveQuiesce cmd s
  | .quiesceComplete sleeve => Sys2Proof.Machine.execQuiesceComplete sleeve s
  | .quiesceTimeout sleeve => Sys2Proof.Machine.execQuiesceTimeout sleeve s
  | .sleeveResume cmd => Sys2Proof.Machine.execSleeveResume cmd s
  | .sleeveReset cmd => Sys2Proof.Machine.execSleeveReset cmd s
  | .sleeveRemove cmd => Sys2Proof.Machine.execSleeveRemove cmd s
  | .sleeveStatus cmd => Sys2Proof.Machine.execSleeveStatus cmd s
  | .pagesAlloc cmd => Sys2Proof.Machine.execPagesAlloc cmd s
  | .pagesFree cmd => Sys2Proof.Machine.execPagesFree cmd s
  | .sleeveDirtyStart cmd => Sys2Proof.Machine.execSleeveDirtyStart cmd s
  | .sleeveDirtyRead cmd => Sys2Proof.Machine.execSleeveDirtyRead cmd s
  | .sleeveDirtyStop cmd => Sys2Proof.Machine.execSleeveDirtyStop cmd s
  | .sleeveExport cmd => Sys2Proof.Machine.execSleeveExport cmd s
  | .sleeveImport cmd => Sys2Proof.Machine.execSleeveImport cmd s
  | .sleeveAccountRead cmd => Sys2Proof.Machine.execSleeveAccountRead cmd s
  | .sqTailWrite sleeve value => Sys2Proof.Machine.execSqTailWrite sleeve value s
  | .cqHeadWrite sleeve value => Sys2Proof.Machine.execCqHeadWrite sleeve value s
  | .fqHeadWrite sleeve value => Sys2Proof.Machine.execFqHeadWrite sleeve value s
  | .doorbellStateRead sleeve => Sys2Proof.Machine.execDoorbellStateRead sleeve s
  | .fqLostRead sleeve => Sys2Proof.Machine.execFqLostRead sleeve s
  | .submissionFetch sleeve entry hostData => Sys2Proof.Machine.execSubmissionFetch sleeve entry hostData s
  | .cellConfig cmd => Sys2Proof.Machine.execCellConfig cmd s
  | .cellStart cmd => Sys2Proof.Machine.execCellStart cmd s
  | .cellStop cmd => Sys2Proof.Machine.execCellStop cmd s
  | .cellMoveOut cmd => Sys2Proof.Machine.execCellMoveOut cmd s
  | .cellMoveIn cmd => Sys2Proof.Machine.execCellMoveIn cmd s
  | .leasePlan cmd => Sys2Proof.Machine.execLeasePlan cmd s
  | .leaseCeilingSet cmd => Sys2Proof.Machine.execLeaseCeilingSet cmd s
  | .radioStatus cmd => Sys2Proof.Machine.execRadioStatus cmd s
  | .cellFrameBoundary frame => Sys2Proof.Machine.execCellFrameBoundary frame s
  | .slotBoundary die groupsOff groupsOn plan csiRs => Sys2Proof.Machine.execSlotBoundary die groupsOff groupsOn plan csiRs s
  | .eqpSjTailWrite die value => Sys2Proof.Machine.execEqpSjTailWrite die value s
  | .eqpRptHeadWrite die value => Sys2Proof.Machine.execEqpRptHeadWrite die value s
  | .leasePeriodStart period => Sys2Proof.Machine.execLeasePeriodStart period s
  | .leaseCheckPoint period => Sys2Proof.Machine.execLeaseCheckPoint period s
  | .leaseEndNoTacor => Sys2Proof.Machine.execLeaseEndNoTacor s
  | .harqCarrySend cell => Sys2Proof.Machine.execHarqCarrySend cell s
  | .harqCarryLanded cell crcOk addr => Sys2Proof.Machine.execHarqCarryLanded cell crcOk addr s
  | .moveJob0Close cell => Sys2Proof.Machine.execMoveJob0Close cell s
  | .taskStart core entry mode s1 s2 s3 s4 seqs slotJob work => Sys2Proof.Machine.execTaskStart core entry mode s1 s2 s3 s4 seqs slotJob work s
  | .vmac core acc va vb conj neg fp chk => Sys2Proof.Machine.execVmac core acc va vb conj neg fp chk s
  | .tapmov core acc vw vc k conj fp chk => Sys2Proof.Machine.execTapmov core acc vw vc k conj fp chk s
  | .vext core vd acc sh clr fp chk => Sys2Proof.Machine.execVext core vd acc sh clr fp chk s
  | .vld core vd p postinc imm chk => Sys2Proof.Machine.execVld core vd p postinc imm chk s
  | .vst core vs p postinc imm chk => Sys2Proof.Machine.execVst core vs p postinc imm chk s
  | .vld2 core vd pa pb postinc imm chk => Sys2Proof.Machine.execVld2 core vd pa pb postinc imm chk s
  | .vst2 core vs pa pb postinc imm chk => Sys2Proof.Machine.execVst2 core vs pa pb postinc imm chk s
  | .qpush core vs sd queue chk => Sys2Proof.Machine.execQpush core vs sd queue chk s
  | .waitc core p sv chk => Sys2Proof.Machine.execWaitc core p sv chk s
  | .tend core late done chk => Sys2Proof.Machine.execTend core late done chk s
  | .vadd core vd va vb fp chk => Sys2Proof.Machine.execVadd core vd va vb fp chk s
  | .vsub core vd va vb fp chk => Sys2Proof.Machine.execVsub core vd va vb fp chk s
  | .vmul core vd va vb fp chk => Sys2Proof.Machine.execVmul core vd va vb fp chk s
  | .vconj core vd va fp chk => Sys2Proof.Machine.execVconj core vd va fp chk s
  | .vpow core vd va chk => Sys2Proof.Machine.execVpow core vd va chk s
  | .vmax core vd va vb fp chk => Sys2Proof.Machine.execVmax core vd va vb fp chk s
  | .vmin core vd va vb fp chk => Sys2Proof.Machine.execVmin core vd va vb fp chk s
  | .vsel core vd va vb sm chk => Sys2Proof.Machine.execVsel core vd va vb sm chk s
  | .vperm core vd va vi chk => Sys2Proof.Machine.execVperm core vd va vi chk s
  | .vscr core vd va vs mode chk => Sys2Proof.Machine.execVscr core vd va vs mode chk s
  | .vgold core vd vg chk => Sys2Proof.Machine.execVgold core vd vg chk s
  | .vcrc core sc va poly len chk => Sys2Proof.Machine.execVcrc core sc va poly len chk s
  | .vqam core vd va qm chk => Sys2Proof.Machine.execVqam core vd va qm chk s
  | .vsat8 core vd va vb sh chk => Sys2Proof.Machine.execVsat8 core vd va vb sh chk s
  | .vllradd core vd va vb chk => Sys2Proof.Machine.execVllradd core vd va vb chk s
  | .sadd core sd sa sb chk => Sys2Proof.Machine.execSadd core sd sa sb chk s
  | .ssub core sd sa sb chk => Sys2Proof.Machine.execSsub core sd sa sb chk s
  | .sli core sd imm chk => Sys2Proof.Machine.execSli core sd imm chk s
  | .smovp core sreg p dir chk => Sys2Proof.Machine.execSmovp core sreg p dir chk s
  | .loop core lc sn stop chk => Sys2Proof.Machine.execLoop core lc sn stop chk s
  | .br core cond neg target chk => Sys2Proof.Machine.execBr core cond neg target chk s
  | .scmp core cond sa sb chk => Sys2Proof.Machine.execScmp core cond sa sb chk s
  | .vlds core sd p postinc imm chk => Sys2Proof.Machine.execVlds core sd p postinc imm chk s
  | .vsts core ss p postinc imm chk => Sys2Proof.Machine.execVsts core ss p postinc imm chk s
  | .qpop core sd queue chk => Sys2Proof.Machine.execQpop core sd queue chk s
  | .fl5Instruction core word peripheral chk => Sys2Proof.Machine.execFl5Instruction core word peripheral chk s
  | .illegalInstruction core word => Sys2Proof.Machine.execIllegalInstruction core word s
  | .scStall core => Sys2Proof.Machine.execScStall core s
  | .instructionStoreWrite core index word => Sys2Proof.Machine.execInstructionStoreWrite core index word s
  | .channelEstimation core obs => Sys2Proof.Machine.execChannelEstimation core obs s
  | .equalisation core obs => Sys2Proof.Machine.execEqualisation core obs s
  | .srsChannelEstimation core obs => Sys2Proof.Machine.execSrsChannelEstimation core obs s
  | .ldpcDecode core decoder engine obs => Sys2Proof.Machine.execLdpcDecode core decoder engine obs s
  | .ldpcEncode core encoder obs => Sys2Proof.Machine.execLdpcEncode core encoder obs s
  | .polarDecode core obs => Sys2Proof.Machine.execPolarDecode core obs s
  | .polarEncode core obs => Sys2Proof.Machine.execPolarEncode core obs s
  | .reedMullerDecode core obs => Sys2Proof.Machine.execReedMullerDecode core obs s
  | .sequenceDetection core obs => Sys2Proof.Machine.execSequenceDetection core obs s
  | .precoding core obs => Sys2Proof.Machine.execPrecoding core obs s
  | .weightAttachment core obs => Sys2Proof.Machine.execWeightAttachment core obs s
  | .weightComputation core obs => Sys2Proof.Machine.execWeightComputation core obs s
  | .uplaneSymbol core obs => Sys2Proof.Machine.execUplaneSymbol core obs s
  | .localDmaCopy core obs => Sys2Proof.Machine.execLocalDmaCopy core obs s
  | .frameReceived port frame fcsOk eccOk buffered => Sys2Proof.Machine.execFrameReceived port frame fcsOk eccOk buffered s
  | .laneEyeSample family port eyes => Sys2Proof.Machine.execLaneEyeSample family port eyes s
  | .laneDrop port lane => Sys2Proof.Machine.execLaneDrop port lane s
  | .threeLaneLinkUp port => Sys2Proof.Machine.execThreeLaneLinkUp port s
  | .threeLaneTimeout port => Sys2Proof.Machine.execThreeLaneTimeout port s
  | .fhLinkRetry port up => Sys2Proof.Machine.execFhLinkRetry port up s
  | .egressFrameStart port => Sys2Proof.Machine.execEgressFrameStart port s
  | .gateEntryChange port => Sys2Proof.Machine.execGateEntryChange port s
  | .gateListSwitch port => Sys2Proof.Machine.execGateListSwitch port s
  | .txRingPoll port ring => Sys2Proof.Machine.execTxRingPoll port ring s
  | .fhPortConfig cmd => Sys2Proof.Machine.execFhPortConfig cmd s
  | .fhFlowSet cmd => Sys2Proof.Machine.execFhFlowSet cmd s
  | .fhEgressSet cmd => Sys2Proof.Machine.execFhEgressSet cmd s
  | .fhGateList cmd => Sys2Proof.Machine.execFhGateList cmd s
  | .fhPortRestore cmd => Sys2Proof.Machine.execFhPortRestore cmd s
  | .fhPortStatus cmd => Sys2Proof.Machine.execFhPortStatus cmd s
  | .timeConfig cmd => Sys2Proof.Machine.execTimeConfig cmd s
  | .timeRate cmd => Sys2Proof.Machine.execTimeRate cmd s
  | .timeStep cmd => Sys2Proof.Machine.execTimeStep cmd s
  | .timeLock cmd => Sys2Proof.Machine.execTimeLock cmd s
  | .timeRead cmd => Sys2Proof.Machine.execTimeRead cmd s
  | .timeApplyTick => Sys2Proof.Machine.execTimeApplyTick s
  | .compareArm cmp value => Sys2Proof.Machine.execCompareArm cmp value s
  | .compareFire cmp => Sys2Proof.Machine.execCompareFire cmp s
  | .tbsNtNsRead => Sys2Proof.Machine.execTbsNtNsRead s
  | .fhNtNsRead die => Sys2Proof.Machine.execFhNtNsRead die s
  | .ppsInEdge => Sys2Proof.Machine.execPpsInEdge s
  | .ppsOutPulse level => Sys2Proof.Machine.execPpsOutPulse level s
  | .holdoverEnter => Sys2Proof.Machine.execHoldoverEnter s
  | .holdoverExpire => Sys2Proof.Machine.execHoldoverExpire s
  | .rawCopyCheck die difference => Sys2Proof.Machine.execRawCopyCheck die difference s
  | .put job desc => Sys2Proof.Machine.execPut job desc s
  | .get job desc => Sys2Proof.Machine.execGet job desc s
  | .addI64 job desc => Sys2Proof.Machine.execAddI64 job desc s
  | .minI64 job desc => Sys2Proof.Machine.execMinI64 job desc s
  | .maxI64 job desc => Sys2Proof.Machine.execMaxI64 job desc s
  | .addF32 job desc => Sys2Proof.Machine.execAddF32 job desc s
  | .minF32 job desc => Sys2Proof.Machine.execMinF32 job desc s
  | .maxF32 job desc => Sys2Proof.Machine.execMaxF32 job desc s
  | .addF64 job desc => Sys2Proof.Machine.execAddF64 job desc s
  | .minF64 job desc => Sys2Proof.Machine.execMinF64 job desc s
  | .maxF64 job desc => Sys2Proof.Machine.execMaxF64 job desc s
  | .cas64 job desc => Sys2Proof.Machine.execCas64 job desc s
  | .cas128 job desc => Sys2Proof.Machine.execCas128 job desc s
  | .anchorMin job desc => Sys2Proof.Machine.execAnchorMin job desc s
  | .anchorMax job desc => Sys2Proof.Machine.execAnchorMax job desc s
  | .scaleMax job desc => Sys2Proof.Machine.execScaleMax job desc s
  | .sumWide job desc => Sys2Proof.Machine.execSumWide job desc s
  | .sumI64 job desc => Sys2Proof.Machine.execSumI64 job desc s
  | .collectiveMinI64 job desc => Sys2Proof.Machine.execCollectiveMinI64 job desc s
  | .collectiveMaxI64 job desc => Sys2Proof.Machine.execCollectiveMaxI64 job desc s
  | .barrier job desc => Sys2Proof.Machine.execBarrier job desc s
  | .putPacket port packet => Sys2Proof.Machine.execPutPacket port packet s
  | .getReq port packet => Sys2Proof.Machine.execGetReq port packet s
  | .getData port packet => Sys2Proof.Machine.execGetData port packet s
  | .atomicPacket port packet => Sys2Proof.Machine.execAtomicPacket port packet s
  | .atomicResp port packet => Sys2Proof.Machine.execAtomicResp port packet s
  | .ack port packet => Sys2Proof.Machine.execAck port packet s
  | .nack port packet => Sys2Proof.Machine.execNack port packet s
  | .barrierArrive port packet => Sys2Proof.Machine.execBarrierArrive port packet s
  | .barrierRelease port packet => Sys2Proof.Machine.execBarrierRelease port packet s
  | .coll port packet => Sys2Proof.Machine.execColl port packet s
  | .barrierTimeout job => Sys2Proof.Machine.execBarrierTimeout job s
  | .ackTimeout device => Sys2Proof.Machine.execAckTimeout device s
  | .linkTimeout device => Sys2Proof.Machine.execLinkTimeout device s
  | .linkReplayRequest port link => Sys2Proof.Machine.execLinkReplayRequest port link s
  | .fabricLaneDrop port lane => Sys2Proof.Machine.execFabricLaneDrop port lane s
  | .fabricPortDown port => Sys2Proof.Machine.execFabricPortDown port s
  | .fabricLinkRetry port up => Sys2Proof.Machine.execFabricLinkRetry port up s
  | .fabricConfig cmd => Sys2Proof.Machine.execFabricConfig cmd s
  | .fabricRouteSet cmd => Sys2Proof.Machine.execFabricRouteSet cmd s
  | .fabricJobMap cmd => Sys2Proof.Machine.execFabricJobMap cmd s
  | .fabricSink cmd => Sys2Proof.Machine.execFabricSink cmd s
  | .fabricTeardown cmd => Sys2Proof.Machine.execFabricTeardown cmd s
  | .fabricDeviceLost cmd => Sys2Proof.Machine.execFabricDeviceLost cmd s
  | .fabricStatus cmd => Sys2Proof.Machine.execFabricStatus cmd s
  | .fabricPortRestore cmd => Sys2Proof.Machine.execFabricPortRestore cmd s
  | .mailboxPost window slot opcode tag args => Sys2Proof.Machine.execMailboxPost window slot opcode tag args s
  | .reservedCommand opcode cmd => Sys2Proof.Machine.execReservedCommand opcode cmd s
  | .telemetryDrop src => Sys2Proof.Machine.execTelemetryDrop src s
  | .tacorWatchdog cause => Sys2Proof.Machine.execTacorWatchdog cause s
  | .tacorRestartDone imageOk flashOk => Sys2Proof.Machine.execTacorRestartDone imageOk flashOk s
  | .tacorRestartLimit => Sys2Proof.Machine.execTacorRestartLimit s
  | .mgmtStatus cmd => Sys2Proof.Machine.execMgmtStatus cmd s
  | .hcLoad cmd => Sys2Proof.Machine.execHcLoad cmd s
  | .hcStop cmd => Sys2Proof.Machine.execHcStop cmd s
  | .hcStatus cmd => Sys2Proof.Machine.execHcStatus cmd s
  | .hcExitCall core status => Sys2Proof.Machine.execHcExitCall core status s
  | .dicRouteSet cmd => Sys2Proof.Machine.execDicRouteSet cmd s
  | .dicStatus cmd => Sys2Proof.Machine.execDicStatus cmd s
  | .sidebandUpload cmd => Sys2Proof.Machine.execSidebandUpload cmd s
  | .telemetryRead cmd => Sys2Proof.Machine.execTelemetryRead cmd s
  | .dicDoorbell sleeve value => Sys2Proof.Machine.execDicDoorbell sleeve value s
  | .dicDelivery target => Sys2Proof.Machine.execDicDelivery target s
  | .dicEoi target value => Sys2Proof.Machine.execDicEoi target value s
  | .dicSrcRead source => Sys2Proof.Machine.execDicSrcRead source s
  | .cxlMemRead addr len => Sys2Proof.Machine.execCxlMemRead addr len s
  | .cxlMemWrite addr data => Sys2Proof.Machine.execCxlMemWrite addr data s
  | .cxlLinkDown cause => Sys2Proof.Machine.execCxlLinkDown cause s
  | .cxlLinkUp width rate => Sys2Proof.Machine.execCxlLinkUp width rate s
  | .pasidEnableChange on => Sys2Proof.Machine.execPasidEnableChange on s
  | .evtLostRead => Sys2Proof.Machine.execEvtLostRead s
  | .entdaa address => Sys2Proof.Machine.execEntdaa address s
  | .setEndpointId eid => Sys2Proof.Machine.execSetEndpointId eid s
  | .pldmDiscovery tag => Sys2Proof.Machine.execPldmDiscovery tag s
  | .pldmSensorRead tag sensor => Sys2Proof.Machine.execPldmSensorRead tag sensor s
  | .setEventReceiver eid => Sys2Proof.Machine.execSetEventReceiver eid s
  | .pollForPlatformEventMessage tag ack => Sys2Proof.Machine.execPollForPlatformEventMessage tag ack s
  | .platformEventMessageResponse number => Sys2Proof.Machine.execPlatformEventMessageResponse number s
  | .uartStatus => Sys2Proof.Machine.execUartStatus s
  | .uartErrors => Sys2Proof.Machine.execUartErrors s
  | .uartIdentity => Sys2Proof.Machine.execUartIdentity s
  | .uartOtherInput line => Sys2Proof.Machine.execUartOtherInput line s
  | .errorRecord die => Sys2Proof.Machine.execErrorRecord die s
  | .engineStall engine => Sys2Proof.Machine.execEngineStall engine s
  | .contextStall engine slot => Sys2Proof.Machine.execContextStall engine slot s
  | .stallReplayDone engine slot outcome => Sys2Proof.Machine.execStallReplayDone engine slot outcome s
  | .stallNoReferee engine slot => Sys2Proof.Machine.execStallNoReferee engine slot s
  | .hostCoreStall core => Sys2Proof.Machine.execHostCoreStall core s
  | .acceleratorStall die unit => Sys2Proof.Machine.execAcceleratorStall die unit s
  | .controllerStall die func => Sys2Proof.Machine.execControllerStall die func s
  | .controllerFault die func => Sys2Proof.Machine.execControllerFault die func s
  | .engineResetThreshold unit => Sys2Proof.Machine.execEngineResetThreshold unit s
  | .functionResetThreshold die func => Sys2Proof.Machine.execFunctionResetThreshold die func s
  | .healthScoreUpdate => Sys2Proof.Machine.execHealthScoreUpdate s
  | .withdrawnEvaluation => Sys2Proof.Machine.execWithdrawnEvaluation s
  | .cleanMarkExpiry => Sys2Proof.Machine.execCleanMarkExpiry s
  | .deferredDeviceReset => Sys2Proof.Machine.execDeferredDeviceReset s
  | .healthStatus cmd => Sys2Proof.Machine.execHealthStatus cmd s
  | .healthLogRead cmd => Sys2Proof.Machine.execHealthLogRead cmd s
  | .healthConfig cmd => Sys2Proof.Machine.execHealthConfig cmd s
  | .healthClockSet cmd => Sys2Proof.Machine.execHealthClockSet cmd s
  | .healthSeed cmd => Sys2Proof.Machine.execHealthSeed cmd s
  | .healthUnitConfirm cmd => Sys2Proof.Machine.execHealthUnitConfirm cmd s
  | .healthUnitClear cmd => Sys2Proof.Machine.execHealthUnitClear cmd s
  | .healthDieClear cmd => Sys2Proof.Machine.execHealthDieClear cmd s
  | .healthReinstate cmd => Sys2Proof.Machine.execHealthReinstate cmd s
  | .healthShutdown cmd => Sys2Proof.Machine.execHealthShutdown cmd s
  | .healthDeviceReset cmd => Sys2Proof.Machine.execHealthDeviceReset cmd s
  | .pwrCapSet cmd => Sys2Proof.Machine.execPwrCapSet cmd s
  | .pwrGuardSet cmd => Sys2Proof.Machine.execPwrGuardSet cmd s
  | .pwrThermalSet cmd => Sys2Proof.Machine.execPwrThermalSet cmd s
  | .pwrDomainRead cmd => Sys2Proof.Machine.execPwrDomainRead cmd s
  | .fittingLoad cmd => Sys2Proof.Machine.execFittingLoad cmd s
  | .fittingStatus cmd => Sys2Proof.Machine.execFittingStatus cmd s
  | .fittingRun cmd => Sys2Proof.Machine.execFittingRun cmd s
  | .candidateRead cmd => Sys2Proof.Machine.execCandidateRead cmd s
  | .candidateFree cmd => Sys2Proof.Machine.execCandidateFree cmd s
  | .liningLogRead cmd => Sys2Proof.Machine.execLiningLogRead cmd s
  | .bootStatus cmd => Sys2Proof.Machine.execBootStatus cmd s
  | .bootConfigRead cmd => Sys2Proof.Machine.execBootConfigRead cmd s
  | .bootConfigSet cmd => Sys2Proof.Machine.execBootConfigSet cmd s
  | .bootImageUpdate cmd => Sys2Proof.Machine.execBootImageUpdate cmd s
  | .bootRollbackCommit cmd => Sys2Proof.Machine.execBootRollbackCommit cmd s
  | .attest cmd => Sys2Proof.Machine.execAttest cmd s
  | .attestKeyRead cmd => Sys2Proof.Machine.execAttestKeyRead cmd s
  | .idRead cmd => Sys2Proof.Machine.execIdRead cmd s
  | .bypass => Sys2Proof.Machine.execBypass s
  | .idcode => Sys2Proof.Machine.execIdcode s
  | .samplePreload => Sys2Proof.Machine.execSamplePreload s
  | .extest => Sys2Proof.Machine.execExtest s
  | .ringTailWrite engine slot ring value => Sys2Proof.Machine.execRingTailWrite engine slot ring value s
  | .registerWrite writer addr value => Sys2Proof.Machine.execRegisterWrite writer addr value s
  | .hostCoreAccess core addr access => Sys2Proof.Machine.execHostCoreAccess core addr access s
  | .slowChipReceived jobNum chip => Sys2Proof.Machine.execSlowChipReceived jobNum chip s
  | .lossOfSignal port lane => Sys2Proof.Machine.execLossOfSignal port lane s
  | .laneSignalRestored port lane => Sys2Proof.Machine.execLaneSignalRestored port lane s
  | .flashWriteDone readbackOk => Sys2Proof.Machine.execFlashWriteDone readbackOk s

end Sys2Proof.Machine
end

