-- ==== Sys2Proof/Machine/Idle.lean ====
section
/-! DEFINITION. What happens when no command waits: one raw tick (R316, notes/assumptions/1.md). -/

namespace Sys2Proof.Machine

/-- One raw tick of 6.4 ns, while the dies are released (R316, R421). -/
def idle (s : State) : State :=
  match s.boot.phase with
  | .held => s
  | _ => { s with tim := { s.tim with raw := s.tim.raw + 1 } }

end Sys2Proof.Machine
end

