-- ==== Sys2Proof/Safety.lean ====
section
/-! DEFINITION. The terms in which claims about the machine are stated: completion, served commands, and the
conditions that a state keeps. -/

namespace Sys2Proof

open Machine

/-- The command runs to its end on the state, and the next state has a property. -/
def Completes (c : Instr) (s : State) (P : State → Prop) : Prop := ∃ t, exec c s = .next t ∧ P t

/-- The dies are released from reset (R421). -/
abbrev Up (s : State) : Prop := s.boot.phase ≠ .held

/-- A Tacor command that Tacor serves (R206, R219, R363, R369, R372): the dies run, the path exists, Tacor is
RUNNING, no command accepted before it waits to be taken up, its queue has room, and the state of the sleeve, the rights
and the argument list pass. -/
abbrev Served (op argc : Nat) (allow : Party → Bool) (c : Cmd) (s : State) : Prop :=
  Up s ∧ srcExists s c.src = true ∧ s.mgt.tacor = 1 ∧ behind s c.src op = false ∧ gate op argc allow c s = none

/-- The state after a Tacor command that ends with OK: the effect, then the completion with the result
(R371, R372). -/
def answered (op argc : Nat) (c : Cmd) (s : State) (res : List W64) : State :=
  complete s c.src op (arg c argc) .ok res

/-- A context's ring holds an entry of n words at an address, which the context may read, and a tracker is free for the
fetch (R31, R36, R124). -/
def ringHolds (s : State) (e i addr n : Nat) (d : List W64) : Bool :=
  unitTracker s e (slot s e i).sleeve && match devRead s (slotIssuer s (slot s e i)) addr (8 * n) with
  | .ok bs => wordsOf n bs == d
  | .error _ => false

/-- The context in a slot fetches its next feeder descriptor (R31, R117, R124): it may go on, its engine is not
fenced, no chain descriptor runs and no WAIT holds it, and the ring holds the descriptor. -/
abbrev FeederReady (s : State) (e i : Nat) (d : List W64) : Prop :=
  slotFree s e i = true ∧ isFenced s e = false ∧ (slot s e i).run = none ∧ (slot s e i).waiting = none ∧
  ringReady (slot s e i).fring 0 = true ∧ ringHolds s e i (ringEntry (slot s e i).fring 128 0) 16 d = true

/-- The context's DMA ring holds the descriptor, behind those in flight (R31, R36, R127). -/
abbrev DmaReady (s : State) (e i : Nat) (d : List W64) : Prop :=
  slotFree s e i = true ∧ ringReady (slot s e i).dring (slot s e i).dma.length = true ∧
  ringHolds s e i (ringEntry (slot s e i).dring 64 (slot s e i).dma.length) 8 d = true

/-- The context's element-engine ring holds the descriptor (R31, R130), and the element engine is in service, awake and
free of fittings (R46, R169). -/
abbrev ElementReady (s : State) (e i : Nat) (d : List W64) : Prop :=
  elementFree s e i = true ∧ engineAwake s e = true ∧
  ringHolds s e i (ringEntry (slot s e i).ering 64 0) 8 d = true

/-- The rows of the element engines with their operation codes (R130). -/
def elementRows : List (Nat × (Nat → Nat → List W64 → Instr)) :=
  [(0x01, .add), (0x02, .sub), (0x03, .mul), (0x04, .fma), (0x05, .div), (0x06, .sqrt), (0x07, .max), (0x08, .min),
   (0x09, .rint), (0x0A, .scaleb), (0x0B, .convert), (0x10, .exp), (0x11, .log), (0x12, .sigmoid), (0x13, .silu),
   (0x14, .tanh), (0x15, .gelu), (0x16, .rsqrt), (0x20, .framesum), (0x21, .framedot), (0x22, .softmax),
   (0x23, .layernorm), (0x24, .rmsnorm), (0x30, .quantMx)]

/-- A command names a sleeve that exists (R205, R206). -/
abbrev NamesSleeve (s : State) (k : Nat) : Prop := k ≠ 0 ∧ k ≤ 63 ∧ (sleeve s k).st ≠ .absent

/-- A command names a handle that holds a job, which its issuer may name (R202). -/
abbrev NamesJob (s : State) (c : Cmd) (h : Nat) : Prop :=
  h ≤ 4095 ∧ (job s h).st ≠ .free ∧ ownOnly (partyOf c.src) (job s h).owner = false

/-! ### Signal cores -/

/-- A core has come to an instruction (R269, R270, R276, R293): a task runs on it, which has not come to its end, the word
stands at its program counter, and its mode takes the instruction. -/
abbrev CoreAt (s : State) (k : Nat) (compat : Bool) (word : Option W32) : Prop :=
  k < 64 ∧ (sigCore s k).task.isSome = true ∧ (sigCore s k).tended = false ∧ word = some (fetched (sigCore s k)) ∧
  ((sigCore s k).mode = true → compat = true)

/-- A core after an instruction that changed its registers and retired in a number of beats (R292, R295). -/
def coreStep (s : State) (k beats : Nat) (f : SigCore → SigCore) : State :=
  modSigCore (modSigCore s k f) k fun x => advancePc (retired x beats (now s))

/-- The task of a core that works alone ends (R270, R46, R66): its domain has worked, it is counted, no task runs, and a
throttle level and a lowering of the domain's voltage index that waited for the boundary take effect. -/
def taskEnds (s : State) (k : Nat) : State :=
  taskOver (noteActive s { domain := unitDomain (32 + k), radio := true, beats := 1 }) k

/-- Core, use in compatibility mode, and encoding of an instruction of the signal cores (R276, R280, R282). -/
def coreInstr : Instr → Option (Nat × Bool × Option W32)
  | .vmac k acc va vb conj neg fp _ => some (k, false, encodeFields 0x10
      [(21, 2, acc), (16, 5, va), (11, 5, vb), (10, 1, b2n conj), (9, 1, b2n neg), (8, 1, b2n fp)])
  | .tapmov k acc vw vc tap conj fp _ => some (k, false, encodeFields 0x11
      [(21, 2, acc), (16, 5, vw), (11, 5, vc), (7, 4, tap), (6, 1, b2n conj), (5, 1, b2n fp)])
  | .vext k vd acc sh clr fp _ => some (k, false, encodeFields 0x12
      [(21, 5, vd), (16, 2, acc), (10, 6, sh), (9, 1, b2n clr), (8, 1, b2n fp)])
  | .vld k vd p inc imm _ => some (k, false, encMem 0x20 vd p inc imm)
  | .vst k vs p inc imm _ => some (k, false, encMem 0x21 vs p inc imm)
  | .vlds k sd p inc imm _ => some (k, false, encMem 0x22 sd p inc imm)
  | .vsts k ss p inc imm _ => some (k, false, encMem 0x23 ss p inc imm)
  | .vld2 k vd pa pb inc imm _ => some (k, false, encMem2 0x24 vd pa pb inc imm)
  | .vst2 k vs pa pb inc imm _ => some (k, false, encMem2 0x25 vs pa pb inc imm)
  | .qpush k vs sd q _ => some (k, true, encodeFields 0x30 [(21, 5, vs), (16, 5, sd), (6, 5, q)])
  | .waitc k p sv _ => some (k, true, encodeFields 0x31 [(18, 3, p), (11, 5, sv)])
  | .qpop k sd q _ => some (k, true, encodeFields 0x32 [(21, 5, sd), (6, 5, q)])
  | .tend k _ _ _ => some (k, true, encodeFields 0x3F [])
  | .vadd k vd va vb fp _ => some (k, false, encVvv 0x01 vd va vb fp)
  | .vsub k vd va vb fp _ => some (k, false, encVvv 0x02 vd va vb fp)
  | .vmul k vd va vb fp _ => some (k, false, encVvv 0x03 vd va vb fp)
  | .vconj k vd va fp _ => some (k, false, encodeFields 0x04 [(21, 5, vd), (16, 5, va), (10, 1, b2n fp)])
  | .vpow k vd va _ => some (k, false, encodeFields 0x05 [(21, 5, vd), (16, 5, va)])
  | .vmax k vd va vb fp _ => some (k, false, encVvv 0x06 vd va vb fp)
  | .vmin k vd va vb fp _ => some (k, false, encVvv 0x07 vd va vb fp)
  | .vsel k vd va vb sm _ => some (k, false, encodeFields 0x08 [(21, 5, vd), (16, 5, va), (11, 5, vb), (6, 5, sm)])
  | .vperm k vd va vi _ => some (k, false, encodeFields 0x09 [(21, 5, vd), (16, 5, va), (11, 5, vi)])
  | .vscr k vd va vs mode _ =>
      some (k, false, encodeFields 0x0A [(21, 5, vd), (16, 5, va), (11, 5, vs), (10, 1, b2n mode)])
  | .vgold k vd vg _ => some (k, false, encodeFields 0x0B [(21, 5, vd), (16, 5, vg)])
  | .vcrc k sc va poly len _ => some (k, false, if len = 0 then none else
      encodeFields 0x0C [(21, 5, sc), (16, 5, va), (13, 3, poly), (7, 6, len - 1)])
  | .vqam k vd va qm _ => some (k, false, encodeFields 0x0D [(21, 5, vd), (16, 5, va), (13, 3, qm)])
  | .vsat8 k vd va vb sh _ => some (k, false, encodeFields 0x0E [(21, 5, vd), (16, 5, va), (11, 5, vb), (7, 4, sh)])
  | .vllradd k vd va vb _ => some (k, false, encodeFields 0x0F [(21, 5, vd), (16, 5, va), (11, 5, vb)])
  | .sadd k sd sa sb _ => some (k, false, encSss 0x18 sd sa sb)
  | .ssub k sd sa sb _ => some (k, false, encSss 0x19 sd sa sb)
  | .sli k sd imm _ => some (k, false, encodeFields 0x1A [(21, 5, sd), (0, 21, imm.toNat)])
  | .smovp k sr p dir _ => some (k, false, encodeFields 0x1B [(21, 5, sr), (18, 3, p), (17, 1, b2n dir)])
  | .loop k lc sn stop _ => some (k, false, encodeFields 0x1C [(25, 1, b2n lc), (20, 5, sn), (7, 13, stop)])
  | .br k cond neg target _ =>
      some (k, false, encodeFields 0x1D [(25, 1, b2n cond), (24, 1, b2n neg), (0, 13, target)])
  | .scmp k cond sa sb _ => some (k, false, encodeFields 0x1E [(23, 3, cond), (18, 5, sa), (13, 5, sb)])
  | _ => none

/-- The same instruction with another outcome of its checks (R291, R293). -/
def setCheck (chk : CoreCheck) : Instr → Instr
  | .vmac a b c d e f g _ => .vmac a b c d e f g chk
  | .tapmov a b c d e f g _ => .tapmov a b c d e f g chk
  | .vext a b c d e f _ => .vext a b c d e f chk
  | .vld a b c d e _ => .vld a b c d e chk
  | .vst a b c d e _ => .vst a b c d e chk
  | .vlds a b c d e _ => .vlds a b c d e chk
  | .vsts a b c d e _ => .vsts a b c d e chk
  | .vld2 a b c d e f _ => .vld2 a b c d e f chk
  | .vst2 a b c d e f _ => .vst2 a b c d e f chk
  | .qpush a b c d _ => .qpush a b c d chk
  | .waitc a b c _ => .waitc a b c chk
  | .qpop a b c _ => .qpop a b c chk
  | .tend a b c _ => .tend a b c chk
  | .vadd a b c d e _ => .vadd a b c d e chk
  | .vsub a b c d e _ => .vsub a b c d e chk
  | .vmul a b c d e _ => .vmul a b c d e chk
  | .vconj a b c d _ => .vconj a b c d chk
  | .vpow a b c _ => .vpow a b c chk
  | .vmax a b c d e _ => .vmax a b c d e chk
  | .vmin a b c d e _ => .vmin a b c d e chk
  | .vsel a b c d e _ => .vsel a b c d e chk
  | .vperm a b c d _ => .vperm a b c d chk
  | .vscr a b c d e _ => .vscr a b c d e chk
  | .vgold a b c _ => .vgold a b c chk
  | .vcrc a b c d e _ => .vcrc a b c d e chk
  | .vqam a b c d _ => .vqam a b c d chk
  | .vsat8 a b c d e _ => .vsat8 a b c d e chk
  | .vllradd a b c d _ => .vllradd a b c d chk
  | .sadd a b c d _ => .sadd a b c d chk
  | .ssub a b c d _ => .ssub a b c d chk
  | .sli a b c _ => .sli a b c chk
  | .smovp a b c d _ => .smovp a b c d chk
  | .loop a b c d _ => .loop a b c d chk
  | .br a b c d _ => .br a b c d chk
  | .scmp a b c d _ => .scmp a b c d chk
  | c => c

/-- A unit serves a descriptor of a core's queue, a tracker is free for it, and its input is read (R36, R284–R286). -/
abbrev UnitServes (s : State) (k q op : Nat) (d : List W64) (bs : List Byte) : Prop :=
  servedDesc s k q op = some d ∧ unitTracker s (32 + k) 0 = true ∧ unitRead s (qSrc d) (qLen d) = .ok bs

/-- A descriptor's output is written, the unit records what it has to, and the descriptor completes; a refused write sets
bit 63 of the completion word, and for a page in move the unit waits with its command (R31, R286, R287). -/
def delivered (c : Instr) (s : State) (k q : Nat) (d : List W64) (late : Bool) (note : State → State) (r : List Byte) :
    State :=
  if r.isEmpty then endDesc (note s) k q d late true
  else match unitWrite s (qDst d) r with
    | .ok t => endDesc (note t) k q d late true
    | .error .wait => park s (qDst d) r.length (.command c)
    | .error b => refusedDesc s k q d late b

/-- The rows of the accelerators that only write their output: queue, OP and output (R285). -/
def unitRows : List (Nat × Nat × (List W64 → List Byte → List Byte) × (Nat → UnitObs → Instr)) :=
  [(0, 1, openBytes 1, .channelEstimation),
   (7, 1, fun d bs => unitBytes 20 (cdiv (qPayload d) 8 + 4) d bs, .polarDecode),
   (7, 2, fun d bs => unitBytes 21 (cdiv (qPolarN d) 8) d bs, .polarEncode),
   (7, 3, fun d bs => unitBytes 22 (cdiv (qPayload d) 8) d bs, .reedMullerDecode),
   (7, 4, fun d bs => openBytes 23 d bs ++ unitBytes 123 4 d bs, .sequenceDetection),
   (8, 1, openBytes 30, .precoding),
   (8, 3, openBytes 32, .weightComputation), (10, 1, fun _ bs => bs, .localDmaCopy)]

/-! ### Fabric -/

/-- The state in which a fabric descriptor is started: its run has a fresh number. -/
def freshRun (s : State) : State := { s with fab := { s.fab with nextId := s.fab.nextId + 1 } }

/-- The fabric engine of a job starts a descriptor (R340, R344, R345): the job has a chip map and runs, its start
barrier is behind it, no descriptor before it waits for a page, the descriptor stands, and WAIT_FIRST is met. -/
abbrev FabricStarts (s : State) (h : Nat) (m : ChipMap) (kind : Nat) (d : List W64) : Prop :=
  mapOfJob s h = some m ∧ (job s h).st = .running ∧ (job s h).barrierStep = none ∧
  ringWaits s h = none ∧ fabDescBad m.devs.length d = false ∧ fdKind d = kind ∧ fabReady s h d = .ok true

/-- The ATOMIC rows with their AOP (R341). -/
def atomicRows : List (Nat × (Nat → List W64 → Instr)) :=
  [(0x0, .addI64), (0x1, .minI64), (0x2, .maxI64), (0x3, .addF32), (0x4, .minF32), (0x5, .maxF32), (0x6, .addF64),
   (0x7, .minF64), (0x8, .maxF64), (0x9, .cas64), (0xA, .cas128)]

/-- The COLLECTIVE rows with their COP (R343). -/
def collectiveRows : List (Nat × (Nat → List W64 → Instr)) :=
  [(0x1, .anchorMin), (0x2, .anchorMax), (0x3, .scaleMax), (0x4, .sumWide), (0x5, .sumI64),
   (0x6, .collectiveMinI64), (0x7, .collectiveMaxI64)]

/-- A packet reaches its port (R334, R335, R346): the port is up, the device configured, the header checks pass, and
the packet is of a type and for this device. -/
abbrev PacketArrives (s : State) (port typ : Nat) (p : Packet) : Prop :=
  Up s ∧ port ≤ 15 ∧ (vfPort s port).up = true ∧ s.fab.configured = true ∧
  headerCrc p.header = fld (wd p.header 3) 31 0 ∧ hType p = typ ∧ hLen p ≤ 4096 ∧ hLen p = p.payload.length ∧
  hDst p = s.fab.dev

/-- The state in which an arrived packet is looked at: its payload bytes are counted (R355). -/
def counted (s : State) (port : Nat) (p : Packet) : State :=
  modVfPort s port fun x => { x with rxBytes := x.rxBytes + w64 p.payload.length }

/-! ### Tacor's commands -/

/-- Opcode, argument words, rights and command of each row that Tacor serves (R369, R375). -/
def tacorRow : Instr → Option (Nat × Nat × (Party → Bool) × Cmd)
  | .mgmtStatus c => some (0x000, 0, isMgmtRadio, c)
  | .hcLoad c => some (0x001, (if argN c 1 = 0 then 6 else 5), isMgrRadio, c)
  | .hcStop c => some (0x002, 1, isMgrRadio, c)
  | .hcStatus c => some (0x003, 1, isMgmtRadio, c)
  | .dicRouteSet c => some (0x004, 2, isMgrRadio, c)
  | .dicStatus c => some (0x005, 1, isMgmtRadio, c)
  | .sidebandUpload c => some (0x006, (3 + cdiv (argN c 2 % 8192) 8), (· == .bmc), c)
  | .telemetryRead c => some (0x007, 0, isMgmt, c)
  | .sleeveCreate c => some (0x100, 8, isMgmt, c)
  | .sleeveSet c => some (0x101, 8, isMgmt, c)
  | .sleeveHostRange c => some (0x102, 4, isMgmt, c)
  | .sleeveQuiesce c => some (0x103, 2, isMgmt, c)
  | .sleeveResume c => some (0x104, 1, isMgmt, c)
  | .sleeveReset c => some (0x105, 2, isMgmt, c)
  | .sleeveRemove c => some (0x106, 2, isMgmt, c)
  | .sleeveStatus c => some (0x107, 1, isSleeveUser, c)
  | .pagesAlloc c => some (0x108, 5, isSleeveUser, c)
  | .pagesFree c => some (0x109, 3, isSleeveUser, c)
  | .sleeveDirtyStart c => some (0x10A, 1, isMgmt, c)
  | .sleeveDirtyRead c => some (0x10B, 5, isMgmt, c)
  | .sleeveDirtyStop c => some (0x10C, 1, isMgmt, c)
  | .sleeveExport c => some (0x10D, 2, isMgmt, c)
  | .sleeveImport c => some (0x10E, 1, isMgmt, c)
  | .sleeveAccountRead c => some (0x10F, 1, (fun p => isSleeveUser p || isRadio p), c)
  | .jobSubmit c => some (0x180, 8, isSleeveUser, c)
  | .jobStatus c => some (0x181, 1, isSleeveUser, c)
  | .jobCancel c => some (0x182, 2, isSleeveUser, c)
  | .seqJoin c => some (0x183, 5, isSleeveUser, c)
  | .seqLeave c => some (0x184, 3, isSleeveUser, c)
  | .snapshotBegin c => some (0x185, 2, isSleeveUser, c)
  | .snapshotStatus c => some (0x186, 1, isSleeveUser, c)
  | .snapshotRestore c => some (0x187, 9, isSleeveUser, c)
  | .cellConfig c => some (0x200, 8, isMgmtRadio, c)
  | .cellStart c => some (0x201, 2, isMgmtRadio, c)
  | .cellStop c => some (0x202, 2, isMgmtRadio, c)
  | .cellMoveOut c => some (0x203, 3, isMgmtRadio, c)
  | .cellMoveIn c => some (0x204, 9, isMgmtRadio, c)
  | .leasePlan c => some (0x205, (if argSpace c.src ≥ 32 then 32 else 1), isMgmtRadio, c)
  | .leaseCeilingSet c => some (0x206, 1, isMgmt, c)
  | .radioStatus c => some (0x207, 1, isMgmtRadio, c)
  | .pwrCapSet c => some (0x280, 1, isManager, c)
  | .pwrGuardSet c => some (0x281, 2, isManager, c)
  | .pwrThermalSet c => some (0x282, 2, isManager, c)
  | .pwrDomainRead c => some (0x283, 1, isManager, c)
  | .fittingLoad c => some (0x300, 2, isMgmt, c)
  | .fittingStatus c => some (0x301, 1, isMgmt, c)
  | .fittingRun c => some (0x302, 2, isMgmt, c)
  | .candidateRead c => some (0x303, 3, isMgmt, c)
  | .candidateFree c => some (0x304, 1, isMgmt, c)
  | .liningLogRead c => some (0x305, 2, isMgmt, c)
  | .fhPortConfig c => some (0x380, 26, isMgmt, c)
  | .fhFlowSet c => some (0x381, 10, isMgmt, c)
  | .fhEgressSet c => some (0x382, 7, (fun p => isMgmtRadio p && (isMgmt p || argN c 1 == 0)), c)
  | .fhGateList c => some (0x383, (if c.args.length > 2 then 1 + gateWords (c.args.drop 1) else 2), isMgmt, c)
  | .fhPortRestore c => some (0x384, 2, isMgmt, c)
  | .fhPortStatus c => some (0x385, 1, isMgmtRadio, c)
  | .timeConfig c => some (0x386, 8, isMgmt, c)
  | .timeRate c => some (0x387, 1, isMgmtRadio, c)
  | .timeStep c => some (0x388, 2, isMgmtRadio, c)
  | .timeLock c => some (0x389, 2, isMgmtRadio, c)
  | .timeRead c => some (0x38A, 0, isMgmtRadio, c)
  | .fabricConfig c => some (0x400, 7, isMgmt, c)
  | .fabricRouteSet c => some (0x401, (1 + 2 * Nat.min 1024 (argN c 0)), isFabricUser, c)
  | .fabricJobMap c => some (0x402, 5, isFabricUser, c)
  | .fabricSink c => some (0x403, 4, isFabricUser, c)
  | .fabricTeardown c => some (0x404, 3, isFabricUser, c)
  | .fabricDeviceLost c => some (0x405, 1, isFabricUser, c)
  | .fabricStatus c => some (0x406, 1, isFabricUser, c)
  | .fabricPortRestore c => some (0x407, 1, isFabricUser, c)
  | .healthStatus c => some (0x480, 0, isMgmtRadio, c)
  | .healthLogRead c => some (0x481, 3, isMgmtRadio, c)
  | .healthConfig c => some (0x482, 1, isManager, c)
  | .healthClockSet c => some (0x483, 1, isMgmt, c)
  | .healthSeed c => some (0x484, 2, isMgmt, c)
  | .healthUnitConfirm c => some (0x485, 1, isMgmt, c)
  | .healthUnitClear c => some (0x486, 1, isMgmt, c)
  | .healthDieClear c => some (0x487, 1, isMgmt, c)
  | .healthReinstate c => some (0x488, 0, isMgmt, c)
  | .healthShutdown c => some (0x489, 0, isMgmt, c)
  | .healthDeviceReset c => some (0x48A, 0, isMgmt, c)
  | .bootStatus c => some (0x500, 0, isMgmtRadio, c)
  | .bootConfigRead c => some (0x501, 1, isMgmt, c)
  | .bootConfigSet c => some (0x502, 1, isMgmt, c)
  | .bootImageUpdate c => some (0x503, 2, isMgmt, c)
  | .bootRollbackCommit c => some (0x504, 0, isMgmt, c)
  | .attest c => some (0x505, 5, isMgmt, c)
  | .attestKeyRead c => some (0x506, 1, isMgmt, c)
  | .idRead c => some (0x507, 0, isMgmtRadio, c)
  | _ => none

/-- The sizes of the error paths hold (R395, R396): queues of 256 events, a log of 32,768 records, a PLDM queue of 64. -/
def RecordsBounded (s : State) : Prop :=
  (∀ d, (tget [] s.hlt.queues d).length ≤ 256) ∧ s.hlt.log.length ≤ 32768 ∧ s.hlt.pldm.length ≤ 64

end Sys2Proof
end

