-- ==== Sys2Proof/Certificates/Slice0/Obligations.lean ====
section
/-! DEFINITION. The statements about the machine, family by family of the command table. -/

open Sys2Proof Sys2Proof.Machine

/-- A step with a command at the front of the queue is that command on the state with the queue's rest (the queue is
the model's own, log entry 1). -/
def Obligations.StepRunsFrontCommand : Prop :=
  ∀ (c : Instr) (rest : List Instr) (s : State),
    step { s with pending := c :: rest } = exec c { s with pending := rest }

/-- Where each of the rows POWER_UP, CARD_RESET, REFCLK_LOST, RAIL_FAULT, BROWN_OUT, THERMAL_TRIP and
THERMTRIP_RELEASE completes, and what it leaves: the phase, the balls, the end cause written to the health record,
and the NVM otherwise unchanged; a device reset leaves no job and no sleeve and every domain off. In reset and after a trip the balls stand as R464's
columns say. -/
def Obligations.ResetEventsComplete : Prop :=
  (∀ s : State, s.boot.phase = .held → s.pins.thermtrip = false →
    Completes .powerUp s fun t => t.boot.phase = .released ∧ t.tim.raw = 0 ∧ t.nvm = s.nvm ∧
      t.pins.railsOk = true ∧ t.pins.refclk = true ∧ t.pins.cardResetN = true) ∧
  (∀ (n : Nat) (s : State), 156 ≤ n → Up s →
    Completes (.cardReset n) s fun t => t.boot.phase = .held ∧ t.pins.cardResetN = false ∧ t.jobs = [] ∧
      t.slv = [] ∧ t.nvm.otpFloor = s.nvm.otpFloor ∧ (s.pwr.inhibit = false → t.nvm.health.cause = some 2)) ∧
  (∀ (ns ppm : Nat) (s : State), 100 ≤ ns ∨ 1000 < ppm → Up s →
    Completes (.refclkLost ns ppm) s fun t => t.boot.phase = .held ∧ t.pins.refclk = false ∧ t.jobs = [] ∧
      t.slv = [] ∧ t.nvm.otpFloor = s.nvm.otpFloor ∧ (s.pwr.inhibit = false → t.nvm.health.cause = some 6)) ∧
  (∀ (r : Rail) (s : State), Up s →
    Completes (.railFault r) s fun t => t.boot.phase = .held ∧ t.jobs = [] ∧ t.slv = [] ∧ t.nvm = s.nvm) ∧
  (∀ s : State, Up s →
    Completes .brownOut s fun t => t.boot.phase = .held ∧ (∀ n, (domain t n).on = false) ∧ t.jobs = [] ∧
      t.slv = [] ∧ t.nvm = s.nvm) ∧
  (∀ (tj : Nat) (s : State), 110 ≤ tj → Up s →
    Completes (.thermalTrip tj) s fun t => t.boot.phase = .held ∧ t.pins.thermtrip = true ∧
      (∀ n, (domain t n).on = false) ∧ t.out.head? = some (.ball "THERMTRIP_N" false) ∧ t.nvm = s.nvm) ∧
  (∀ s : State, s.pins.thermtrip = true →
    Completes .thermtripRelease s fun t => t.pins.thermtrip = false ∧
      t.out.head? = some (.ball "THERMTRIP_N" true) ∧ t.boot = s.boot ∧ t.nvm = s.nvm) ∧
  (∀ s : State, s.pins.thermtrip = true →
    ballState s = fun g => if g = .thermtripN then .low else ballInReset g) ∧
  (∀ s : State, s.pins.thermtrip = false → s.pins.railsOk = true → s.boot.phase = .held →
    [BallGroup.lpClock, .lpResetN, .xspiClk, .xspiResetN, .ppsOut, .synceOut].map (ballState s) = List.replicate 6 .low ∧
    [BallGroup.xspiCsN, .uartTx].map (ballState s) = [.high, .high] ∧ ballState s .serdesTx = .txOff ∧
    ballState s .cxl = .idle ∧ ballState s .thermtripN = .undriven)

/-- SAG_THROTTLE below 1.76 V on a device that has no sag sets the SAG mark in the record in force and brings every
die to throttle level 1 or higher; SAG_CLEARED takes the mark away; NVM_WRITE_INHIBIT stops NVM writes, and
NVM_WRITE_RESUME on a booted device writes the record in force to the NVM. The jobs and the sleeves stay. -/
def Obligations.SagEventsComplete : Prop :=
  (∀ (mv : Nat) (s : State), Up s → s.pwr.sag = false → mv < 1760 →
    Completes (.sagThrottle mv) s fun t => t.pwr.sag = true ∧ t.hlt.hr.sag = true ∧
      (∀ d < 8, 1 ≤ (diePwr t d).level) ∧ t.jobs = s.jobs ∧ t.slv = s.slv) ∧
  (∀ s : State, s.pwr.sag = true →
    Completes .sagCleared s fun t => t.pwr.sag = false ∧ t.hlt.hr.sag = false ∧ t.jobs = s.jobs ∧ t.slv = s.slv) ∧
  (∀ s : State, Up s →
    Completes .nvmWriteInhibit s fun t => t.pwr.inhibit = true ∧ t.nvm = s.nvm ∧ t.jobs = s.jobs ∧ t.slv = s.slv) ∧
  (∀ s : State, s.boot.phase = .booted → s.pwr.inhibit = true →
    Completes .nvmWriteResume s fun t => t.pwr.inhibit = false ∧ t.nvm.health = s.hlt.hr ∧ t.hlt = s.hlt ∧
      t.jobs = s.jobs ∧ t.slv = s.slv)

/-- COLD_BOOT runs the boot ROM: the health entry, the boot configuration, the seams, then the image check; an image
that passes boots the device, any other leaves the ROM waiting with REQUEST and the status. A flash whose write was
interrupted holds no valid image; a die of a wrong type fails the seam that reaches it from ED0. BOOT_MBOX_GO checks the
host's image likewise. The JTAG rows load their instruction and answer its register; EXTEST drives the balls while
CARD_RESET_N is low and is BYPASS at any other time. -/
def Obligations.BootEventsComplete : Prop :=
  (∀ (flash : List Byte) (o : BootObs) (s : State), s.boot.phase = .released → o.coreRailOk = true →
    let a := bootHealth (bootDomains (emit s (.uart "ROM" 0)))
    let b := emit a (.uart "boot" a.hlt.hr.incarnation)
    let c := emit b (.uart "cause" (((currentEntry b).map (·.cause)).getD 0))
    let d := bootSeams { c with boot := { c.boot with
      config := nextConfig c.nvm, configDefault := (validCopy c.nvm).isNone, types := o.types } } (seamsFailed o)
    let b := flashRead d flash
    let st := flashStatus d flash
    let e := emit d (.uart "image" (statusCode st))
    exec (.coldBoot flash o) s = .next (if st = .ok then bootFrom { e with boot := { e.boot with flash := some b } } b false o
      else { e with boot := { e.boot with
        phase := .waitingImage, stage := 4, request := true, result := statusCode st } })) ∧
  (∀ (o : BootObs) (s : State), s.boot.phase = .released → o.coreRailOk = true →
    Completes (.coldBoot [] o) s fun t => t.boot.phase = .waitingImage ∧ t.boot.request = true ∧
      t.boot.result = statusCode .timeout) ∧
  (∀ (flash : List Byte) (s : State), (s.boot.flash = some [] → flashStatus s flash ≠ .ok) ∧
    (s.boot.update.isSome = true → ∀ cause : Option Nat, (deviceReset s cause).boot.flash = some [])) ∧
  (∀ d < 8, reachSeam [] d = [some 1, some 3, some 2, some 4, some 7, some 10, none, some 0].getD d none) ∧
  (∀ (image : List Byte) (o : BootObs) (s : State), s.boot.phase = .waitingImage → s.mgt.cxlUp = true →
    let a := { s with boot := { s.boot with posted := false } }
    let b := image.take s.boot.mboxLen.toNat
    let st := mboxStatus a b
    let e := emit a (.uart "image" (statusCode st))
    exec (.bootMboxGo image false o) s = .next (if st = .ok then bootFrom e b true o
      else { e with boot := { e.boot with
        result := statusCode st, rejected := Nat.min 1023 (s.boot.rejected + 1) } })) ∧
  (∀ s : State, s.pins.railsOk = true →
    (Completes .bypass s fun t => t.boot.jtag = 0 ∧ t.out = .jtag 0 :: s.out ∧ t.pins = s.pins ∧ t.nvm = s.nvm) ∧
    (Completes .idcode s fun t => t.boot.jtag = 1 ∧
      t.out = .jtag idcodeWord :: s.out ∧
      t.pins = s.pins ∧ t.nvm = s.nvm) ∧
    (Completes .samplePreload s fun t => t.boot.jtag = 2 ∧ t.pins = s.pins ∧ t.nvm = s.nvm) ∧
    (s.pins.cardResetN = true → Completes .extest s fun t => t.boot.jtag = 0 ∧ t.out = .jtag 0 :: s.out ∧
      t.pins = s.pins ∧ t.nvm = s.nvm) ∧
    (s.pins.cardResetN = false → Completes .extest s fun t => t.boot.jtag = 3 ∧ t.pins.jtagBalls = true ∧
      t.nvm = s.nvm))

/-- Where SENSOR_SAMPLE, SENSOR_EXCLUDE, PACE_ENTRY_LOADED, PACE_FAULT_SET, TEMP_SAMPLE, THROTTLE_EXIT,
DOMAIN_IDLE_OFF, DOMAIN_VOLTAGE_FAIL and ENERGY_METER_CHECK complete, with the fields that they set. -/
def Obligations.SensorEventsComplete : Prop :=
  (∀ (r : DomainReading) (s : State), Up s → r.domain < 96 → sensorCount r.domain ≠ 0 →
    r.readings.length = sensorCount r.domain →
    Completes (.sensorSample [r]) s fun t =>
      (domain t r.domain).live =
        (lowest (domain s r.domain).excluded r.readings).getD (domain s r.domain).live ∧
      ∀ n ≠ r.domain, domain t n = domain s n) ∧
  (∀ (rs : List DomainReading) (s : State), Up s →
    exec (.sensorSample rs) s = .next (rs.foldl sampleDomain s)) ∧
  (∀ (n i : Nat) (s : State), n < 96 → i ∉ (domain s n).excluded → 10 ≤ tget 0 (domain s n).deviation i →
    (domain s n).excluded.length < 2 →
    Completes (.sensorExclude n i) s fun t => (domain t n).excluded = (domain s n).excluded ++ [i] ∧
      (domain t n).sensorFault = (domain s n).sensorFault ∧ ∀ m ≠ n, domain t m = domain s m) ∧
  (∀ (n i : Nat) (s : State), n < 96 → i ∉ (domain s n).excluded → 10 ≤ tget 0 (domain s n).deviation i →
    2 ≤ (domain s n).excluded.length → (domain s n).sensorFault = false →
    let a := setDomain s n { domain s n with excluded := (domain s n).excluded ++ [i] }
    let b := modDomain a n fun x => { x with
      sensorFault := true, vindex := ceilingIndex (domainClass n), vnext := none }
    exec (.sensorExclude n i) s = .next (((domainUnits n).filter fun u => u < 32 || (96 ≤ u && u < 112)).foldl
      suspectUnit (raise b
        { code := 0x007, severity := 3, die := domainDie n, domain := n, d0 := i, d1 := 1 }))) ∧
  (∀ (n : Nat) (s : State), 100 ≤ (domain s n).below.length → 50 ≤ ((domain s n).below.filter id).length →
    (domain s n).belowAt = (domain s n).vindex → belowTable (domain s n) (domain s n).live = true →
    Completes (.paceEntryLoaded n) s fun t =>
      paceEntry (domain t n) (domain s n).vindex =
        { paceEntry (domain s n) (domain s n).vindex with pace := (domain s n).live, tag := 2 } ∧
      (domain t n).below = [] ∧ ∀ m ≠ n, domain t m = domain s m) ∧
  (∀ (n : Nat) (s : State), n < 96 → (domain s n).paceFault = false →
    3 ≤ ((domain s n).lates.filter fun t => decide (since s t ≤ ticksPerS)).length →
    exec (.paceFaultSet n) s = .next ((domainUnits n).foldl suspectUnit
      (raise (setDomain s n { domain s n with paceFault := true })
        { code := 0x008, severity := 3, die := domainDie n, domain := n
          d0 := ((domain s n).lates.filter fun t => decide (since s t ≤ ticksPerS)).length
          d1 := (domain s n).vindex }))) ∧
  (∀ (n tj : Nat) (s : State), Up s → n < 96 →
    Completes (.tempSample [(n, tj)] []) s fun t =>
      (domain t n).temp = Nat.min 255 tj ∧ (diePwr t (domainDie n)).tj = tj ∧
      (∀ d ≠ domainDie n, (diePwr t d).tj = (diePwr s d).tj) ∧ t.jobs = s.jobs ∧ t.slv = s.slv) ∧
  (∀ (d : Nat) (s : State), d < 8 → (diePwr s d).level = 3 → leavable s d 3 = true → leavable s d 2 = false →
    exec (.throttleExit d) s = .next (setLevel s d (Nat.max 2 (entryLevel s d)))) ∧
  (∀ (d : Nat) (s : State), d < 8 → (diePwr s d).level = 1 → leavable s d 1 = true →
    exec (.throttleExit d) s = .next (setLevel s d (entryLevel s d))) ∧
  (∀ (n e : Nat) (s : State), domainEngine n = some e → isPocketDomain n = false → engineIdle s e = true →
    Completes (.domainIdleOff n) s fun t => (domain t n).on = false ∧
      (domain t n).vindex = (domain s n).vindex ∧ ∀ m ≠ n, domain t m = domain s m) ∧
  (∀ (n : Nat) (s : State), n < 95 → Up s → domainClass n ≠ .i → domainClass n ≠ .f →
    (domain s n).retried = false →
    Completes (.domainVoltageFail n) s fun t => (domain t n).retried = true ∧
      (domain t n).on = (domain s n).on ∧ ∀ m ≠ n, domain t m = domain s m) ∧
  (∀ (n : Nat) (s : State), n < 64 → n % 16 < 12 → Up s → (domain s n).retried = true →
    let a := raise (modDomain s n fun x => { x with on := false })
      { code := 0x00A, severity := 3, die := domainDie n, domain := n, d0 := 5, d1 := domainMj s n }
    exec (.domainVoltageFail n) s = .next ((domainUnits n).foldl
      (fun s u => if isFenced s u then s else fenceUnit s u .unconfirmed 2)
      (if isPocketDomain n then failPocket a (n / 16 * 4 + n % 4) else a))) ∧
  (∀ (n m r : Nat) (s : State), n < 96 → Up s → r < 10 * (m - r) →
    Completes (.energyMeterCheck n m r) s fun t =>
      (domain t n).estimatedUntil = now s + ticksPerS ∧ (domain t n).energy = (domain s n).energy)

/-- ENERGY_WINDOW on a booted device: the settings that waited take effect; B is the cap in force, P the pre-charge of
what is planned, F the average of the fixed loads of up to 8 windows that have passed, D the old debt less what the old
budget left plus what radio used beyond P and tenants beyond T, and the grant T is B less F, P and D. The active beats
of the window that has passed are charged and counted anew: one entry of a job's context brings its job and sleeve its
share of the meter; without entries no job changes. (Shares, and what counts as use: log entry 91.) -/
def Obligations.EnergyWindowSetsBudget : Prop :=
  (∀ (o : EnergyObs) (s : State), s.boot.phase = .booted →
    Completes (.energyWindow o) s fun t =>
      let p := s.pwr.nextSettings.foldl applySetting s.pwr
      let hist := (fixedLoad s o :: s.pwr.history).take 8
      t.pwr.budget = p.cap ∧ t.pwr.nextSettings = [] ∧ t.pwr.windows = s.pwr.windows + 1 ∧ t.pwr.active = [] ∧
      t.pwr.precharge = preCharge s o ∧
      t.pwr.fixed = hist.sum / hist.length ∧ t.pwr.debt =
        s.pwr.debt - Nat.min s.pwr.debt (s.pwr.budget - s.pwr.fixed - s.pwr.precharge) +
          (radioUse s o - s.pwr.precharge) + (tenantUse s o - s.pwr.grant) ∧
      t.pwr.grant = t.pwr.budget - t.pwr.fixed - t.pwr.precharge - t.pwr.debt ∧
      (s.pwr.active = [] → t.jobs = s.jobs)) ∧
  (∀ (o : EnergyObs) (a : Active) (s : State), s.boot.phase = .booted → s.pwr.active = [a] →
    1 ≤ a.sleeve → a.sleeve ≤ 63 → (sleeve s a.sleeve).st ≠ .absent → a.job ≠ 0 → (job s a.job).gen = a.gen →
    (domainEngine a.domain).isSome = true →
    Completes (.energyWindow o) s fun t =>
      (job t a.job).ctr.energy = (job s a.job).ctr.energy + w64 (shareOf s o a) ∧
      (sleeve t a.sleeve).acct.energy = (sleeve s a.sleeve).acct.energy + w64 (shareOf s o a) ∧
      (∀ h ≠ a.job, job t h = job s h) ∧ ∀ k ≠ a.sleeve, sleeve t k = sleeve s k)

/-- PWR_CAP_SET, PWR_GUARD_SET and PWR_THERMAL_SET within their ranges are accepted, and the setting waits for the
next window; PWR_DOMAIN_READ answers the registers, the pace table and, for an array domain, the energy table. -/
def Obligations.PowerCommandsComplete : Prop :=
  (∀ (c : Cmd) (s : State), Served 0x280 1 isManager c s → 250 ≤ argN c 0 → argN c 0 ≤ 700 →
    s.pwr.fixed + s.pwr.precharge + 10 ≤ argN c 0 →
    exec (.pwrCapSet c) s = .next (answered 0x280 1 c { s with pwr := { s.pwr with
      nextSettings := s.pwr.nextSettings ++ [(0, argN c 0, 0)] } } [])) ∧
  (∀ (c : Cmd) (s : State), Served 0x281 2 isManager c s → argN c 0 ≤ 2 → 60 ≤ argN c 1 → argN c 1 ≤ 200 →
    exec (.pwrGuardSet c) s = .next (answered 0x281 2 c { s with pwr := { s.pwr with
      nextSettings := s.pwr.nextSettings ++ [(1, argN c 0, argN c 1)] } } [])) ∧
  (∀ (c : Cmd) (s : State), Served 0x282 2 isManager c s → 80 ≤ argN c 0 → argN c 0 ≤ 95 → 90 ≤ argN c 1 →
    argN c 1 ≤ 100 → argN c 0 + 5 ≤ argN c 1 →
    exec (.pwrThermalSet c) s = .next (answered 0x282 2 c { s with pwr := { s.pwr with
      nextSettings := s.pwr.nextSettings ++ [(2, argN c 0, argN c 1)] } } [])) ∧
  (∀ (c : Cmd) (s : State), Served 0x283 1 isManager c s → argN c 0 ≤ 95 →
    exec (.pwrDomainRead c) s = .next (answered 0x283 1 c s
      ([w64 (domainReg (domain s (argN c 0))), w64 (ctrReg (domain s (argN c 0)).late),
        w64 (ctrReg (domain s (argN c 0)).wait), (domain s (argN c 0)).energy] ++
       pack32 ((List.range 64).map fun i => paceReg (paceEntry (domain s (argN c 0)) i)) ++
       (if argN c 0 < 64 && argN c 0 % 16 < 4 then energyWords (argN c 0) else []))))

/-- SEAM_FLIT_CRC_ERROR on a flit whose CRC-64 is wrong requests a replay and counts it, saturating, and the sender's
replay buffer is to come again; while one comes, that is one more failed replay. A good flit is taken where none is
owed or it is the next of those owed, and ends the replays in a row; one out of turn is not taken. SEAM_LANE_REPAIR after 8 replays in a row takes a spare lane of the module while one is left, and else the seam fails.
PAGE_MOVE_DONE gives the page its new place, ends the move, and the old frame is free of the page's bytes. -/
def Obligations.SeamAndMoveEventsComplete : Prop :=
  (∀ (n dir : Nat) (flit : List Byte) (buffer : List (List Byte)) (s : State), n < 13 → dir < 2 → Up s →
    flitGood flit = false → buffer ≠ [] →
    Completes (.seamFlitCrcError n dir flit buffer) s fun t =>
      (seamSt t n).retries = Nat.min 0xFFFFFF ((seamSt s n).retries + 1) ∧
      ((seamSt t n).sat = true ↔ (seamSt s n).sat = true ∨ (seamSt s n).retries = 0xFFFFFF) ∧
      ((seamSt s n).owed dir = [] → (seamSt t n).owed dir = buffer ∧
        tget 0 (seamSt t n).replays dir = tget 0 (seamSt s n).replays dir) ∧
      ((seamSt s n).owed dir ≠ [] → (seamSt t n).owed dir = (seamSt s n).owed dir ∧
        tget 0 (seamSt t n).replays dir = tget 0 (seamSt s n).replays dir + 1) ∧
      t.out = .replayRequest n :: s.out ∧ t.pkg.mem = s.pkg.mem) ∧
  (∀ (n dir : Nat) (flit : List Byte) (buffer : List (List Byte)) (s : State), n < 13 → dir < 2 → Up s →
    flitGood flit = true → (seamSt s n).owed dir = [] ∨ ((seamSt s n).owed dir).head? = some flit →
    Completes (.seamFlitCrcError n dir flit buffer) s fun t =>
      (seamSt t n).retries = (seamSt s n).retries ∧ tget 0 (seamSt t n).replays dir = 0 ∧
      (seamSt t n).owed dir = ((seamSt s n).owed dir).drop 1 ∧
      t.out = s.out ∧ t.pkg.mem = s.pkg.mem) ∧
  (∀ (n dir : Nat) (flit g : List Byte) (gs buffer : List (List Byte)) (s : State), n < 13 → dir < 2 → Up s →
    flitGood flit = true → (seamSt s n).owed dir = g :: gs → g ≠ flit →
    exec (.seamFlitCrcError n dir flit buffer) s = .next s) ∧
  (∀ (n m lane dir : Nat) (s : State), n < 13 → m < seamModules n → lane < 64 → Up s →
    (seamSt s n).failed = false → 8 ≤ tget 0 (seamSt s n).replays dir → tget 0 (seamSt s n).spares m < 2 →
    Completes (.seamLaneRepair n m lane) s fun t =>
      tget 0 (seamSt t n).spares m = tget 0 (seamSt s n).spares m + 1 ∧ (seamSt t n).failed = false ∧
      (seamSt t n).replays = [] ∧ t.pkg.mem = s.pkg.mem) ∧
  (∀ (n m lane dir : Nat) (s : State), n < 13 → m < seamModules n → lane < 64 → Up s →
    (seamSt s n).failed = false → 8 ≤ tget 0 (seamSt s n).replays dir → 2 ≤ tget 0 (seamSt s n).spares m →
    exec (.seamLaneRepair n m lane) s = .next (seamFailure s n)) ∧
  (∀ (m : Move) (s : State), s.pkg.moves.find? (fun x => x.page == m.page) = some m →
    exec (.pageMoveDone m.page) s = .next (finishMove s m)) ∧
  (∀ (m : Move) (s : State), s.pkg.moves = [m] → s.pkg.waiters = [] → m.loc < 4 →
    m.frame < 2 ^ 24 →
    Completes (.pageMoveDone m.page) s fun t => ownLoc (ownEntry t m.page) = m.loc ∧
      ownFrame (ownEntry t m.page) = m.frame ∧ ownOwner (ownEntry t m.page) = ownOwner (ownEntry s m.page) ∧
      ownValid (ownEntry t m.page) = ownValid (ownEntry s m.page) ∧ t.pkg.moves = [])

/-- A paced pass whose engine, lease and operands allow it starts on its release tick; without its operands the slot's
late tick is noted; a lease pass that starts late counts an operand wait, and so does a radio task. After a late radio beat
the next tick of a tenant context passes. A free pass starts when R62 selects it and it ends before the tick and the
lease. A pass that starts enters the array with its kind, length and tile; its tile is the active register's, its beats
leave the context's credit, and the job, sleeve and memory are as before; on an engine not awake it wakes the engine, and
one that leaves the partition faults its context. -/
def Obligations.PassesStart : Prop :=
  (∀ (e i p n : Nat) (d : List W64) (s : State), nextPass (slot s e i) = some (d, p, n) →
    (slot s e i).paced = true → engineStops s e = false → i < 4 → tenantOk s e i = true →
    beforeLease s e (passBeats d) = true → (slot s e i).tickBack = false →
    exec (.releaseTick (.pass e i) true) s =
      .next (startPass (modDomain s (arrayDomain e) fun y => { y with radioFirst := false }) e i) ∧
    exec (.releaseTick (.pass e i) false) s = .next (modSlot s e i fun x => { x with lateTick := true })) ∧
  (∀ (e : Nat) (s : State), (nextPass (slot s e 4)).isSome = true → (slot s e 4).paced = true →
    engineStops s e = false → (engine s e).leased = true → slotRuns s e 4 = true →
    let t := startPass (modDomain s (arrayDomain e) fun y => { y with radioFirst := false }) e 4
    exec (.releaseTick (.pass e 4) true) s =
      .next (if (slot s e 4).lateTick = true ∧ (slot t e 4).lateTick = false then operandWait t (arrayDomain e) else t)) ∧
  (∀ (e i : Nat) (b : Bool) (s : State), i ≠ 4 → (slot s e i).tickBack = true →
    exec (.releaseTick (.pass e i) b) s = .next (modSlot s e i fun x => { x with tickBack := false })) ∧
  (∀ (n : Nat) (s : State), n < 96 → domainClass n = .s →
    exec (.releaseTick (.radioTask n) true) s = .next s ∧
    Completes (.releaseTick (.radioTask n) false) s fun t =>
      domain t n = { domain s n with wait := (domain s n).wait.add 0x7FFFFFFF 1 } ∧
      ∀ m ≠ n, domain t m = domain s m) ∧
  (∀ (e i beats p n : Nat) (d : List W64) (s : State), nextPass (slot s e i) = some (d, p, n) → e < 16 →
    engineStops s e = false → (chooseTenant s e).1 = some i → passBeats d ≤ beats →
    beforeLease s e (passBeats d) = true →
    exec (.freePassStart e i beats) s = .next (startPass s e i)) ∧
  (∀ (e i p n : Nat) (d : List W64) (s : State), nextPass (slot s e i) = some (d, p, n) →
    passInside (slot s e i) d p n = true → engineAwake s e = true →
    let t := startPass s e i
    let r : PassRun := { slot := i, kind := kindOf p, m := streamM d, paced := (slot s e i).paced, desc := d, phase := p,
                         index := n, tile := if p = 1 then [] else (tileFor s e i d n).bytes }
    (engine t e).pass.toList ++ (engine t e).behind = (engine s e).pass.toList ++
      (if (engine s e).pass.isSome then (engine s e).behind ++ [r] else r :: (engine s e).behind) ∧
    (p ≠ 1 → (engine t e).active = some (tileFor s e i d n)) ∧
    (slot t e i).credit = (slot s e i).credit - (514 + streamM d : Nat) ∧ (slot t e i).lastStart = now s ∧
    (slot t e i).run = (slot s e i).run.map (fun r => { r with started := r.started + 1 }) ∧
    t.jobs = s.jobs ∧ t.slv = s.slv ∧ t.pkg = s.pkg) ∧
  (∀ (e i p n : Nat) (d : List W64) (s : State), nextPass (slot s e i) = some (d, p, n) →
    (passInside (slot s e i) d p n = true → engineAwake s e = false → startPass s e i = wakeEngine s e) ∧
    (passInside (slot s e i) d p n = false → startPass s e i = faultSlot s e i .denied))

/-- PASS_BOUNDARY ends the pass in flight with what its array and checker show. A stalled pass and a seam repair under a
pass discard it with the passes of its context behind it: the rerun is counted and owed to its context. A mismatch of
the duplicated units strikes the engine once and discards the pass, and seen again it is a disagreement; a shadow
mismatch strikes the element engine and leaves the ring entry where it is, with the groups before it written, and seen
again it is a disagreement. An engine hang discards the pass and resets the engine's domain, counted with cause 2.
(RERUNS of a shadow mismatch: log entry 89.) -/
def Obligations.PassesEnd : Prop :=
  (∀ (e : Nat) (obs : PassObs) (p : PassRun) (s : State), e < 16 → (engine s e).pass = some p →
    exec (.passBoundary e obs) s = .next (passEnds s e p obs.errors false obs.late)) ∧
  (∀ (e : Nat) (p : PassRun) (k : PassFaultKind) (s : State), e < 16 → (engine s e).pass = some p →
    k = .stall ∨ k = .seamRepair →
    Completes (.passFault e k) s fun t => (engine t e).pass.toList ++ (engine t e).behind =
        (engine s e).behind.filter (fun q => q.slot != p.slot) ∧
      (engine t e).reruns = (engine s e).reruns.add 0xFFFF 1 ∧
      (slot t e p.slot).rerunOwed = (slot s e p.slot).run.isSome ∧
      (slot t e p.slot).run = (slot s e p.slot).run.map (fun r => { r with started := r.next }) ∧
      t.pkg = s.pkg ∧ t.jobs = s.jobs ∧ t.lin = s.lin) ∧
  (∀ (e : Nat) (p : PassRun) (es : List PassError) (s : State), e < 16 → (engine s e).pass = some p →
    (slot s e p.slot).mismatched = false →
    exec (.passFault e (.duplicatedUnit es)) s = .next (modSlot (discardPass
      (strike s e 3 0xFFFF (slot s e p.slot).job (slot s e p.slot).sleeve false) e p) e p.slot
        fun x => { x with mismatched := true })) ∧
  (∀ (e : Nat) (p : PassRun) (es : List PassError) (s : State), e < 16 → (engine s e).pass = some p →
    (slot s e p.slot).mismatched = true →
    exec (.passFault e (.duplicatedUnit es)) s = .next (passEnds s e p es true false)) ∧
  (∀ (e i group : Nat) (d : List W64) (lanes shadows : List (Nat × Nat)) (s : State), ElementReady s e i d →
    elemBad d = false → 256 * group < eOutputs d → elemBar s (slot s e i) e d = none → (slot s e i).shadowed = false →
    let x := slot s e i
    let a := putWrites s x e (writesBelow d group (elemWork s x e (slotChip s x) d).1)
    exec (.passFault e (.shadow i group lanes shadows)) s = .next (modEngine
      (modSlot (strike a (16 + e) 3 0xFFFF x.job x.sleeve false) e i fun x => { x with shadowed := true }) e
        fun y => { y with reruns := y.reruns.add 0xFFFF 1 })) ∧
  (∀ (e i group : Nat) (d : List W64) (lanes shadows : List (Nat × Nat)) (s : State), ElementReady s e i d → i ≠ 4 →
    elemBad d = false → 256 * group < eOutputs d → elemBar s (slot s e i) e d = none → (slot s e i).shadowed = true →
    let x := slot s e i
    let a := putWrites s x e (writesBelow d group (elemWork s x e (slotChip s x) d).1)
    exec (.passFault e (.shadow i group lanes shadows)) s = .next (openDispute
      (modSlot a e i fun x => { x with shadowed := false }) (elemDispute s e i d lanes shadows false))) ∧
  (∀ (e : Nat) (p : PassRun) (s : State), e < 16 → (engine s e).pass = some p →
    exec (.engineHang e) s = .next (countReset (resetUnit (discardPass s e p) e) e 2))

/-- A CHAIN descriptor that stands in the ring gives its phases and passes to run, and a FIRST one opens its chain with
a zeroed fed-count region; one that breaks its layout or its chain's order faults the context with BAD_FIELD. A WAIT
whose word has reached VALUE ends and counts its progress, another holds the ring; WAIT_SATISFIED reads the word again.
A SIGNAL writes VALUE and ends. A reserved KIND faults the context with BAD_FIELD. -/
def Obligations.FeederDescriptorsRun : Prop :=
  (∀ (e i : Nat) (d : List W64) (s : State), FeederReady s e i d → descKind d = 1 →
    descBad d = false → chainOrderBad (slot s e i) d = false → cFirst d = false →
    exec (.chain e i d) s = .next (settleRun e i 4 (modSlot s e i fun x => { x with
      chainK := x.chainK + descK d, run := some { desc := d, phases := descPhases d } }))) ∧
  (∀ (e i : Nat) (d : List W64) (s : State), FeederReady s e i d → descKind d = 1 →
    descBad d = false → chainOrderBad (slot s e i) d = false → cFirst d = true →
    inPart (slot s e i) (cFed d) 8192 = true →
    exec (.chain e i d) s = .next (settleRun e i 4 (modSlot (physZero (modSlot s e i fun x => { x with
        chainOpen := true, phase := 0, products := 0, chainK := 0, fedBase := cFed d })
        (partKey (slot s e i) e (cFed d)) 8192) e i fun x => { x with
      chainK := x.chainK + descK d, run := some { desc := d, phases := descPhases d } }))) ∧
  (∀ (e i : Nat) (d : List W64) (s : State), FeederReady s e i d → descKind d = 1 →
    descBad d = true ∨ chainOrderBad (slot s e i) d = true →
    exec (.chain e i d) s = .next (faultSlot s e i .badField)) ∧
  (∀ (e i : Nat) (d : List W64) (s : State), FeederReady s e i d → descKind d = 1 →
    descBad d = false → chainOrderBad (slot s e i) d = false → cFirst d = true →
    inPart (slot s e i) (cFed d) 8192 = false →
    exec (.chain e i d) s = .next (faultSlot s e i .denied)) ∧
  (∀ (e i v : Nat) (d : List W64) (s : State), FeederReady s e i d → descKind d = 2 → waitBad d = false →
    readWord s e i (bitOf (wd d 0) 59) (fld (wd d 1) 47 0) = .ok v →
    exec (.wait e i d) s = .next (if (wd d 2).toNat ≤ v then endWait s e i
      else modSlot s e i fun x => { x with waiting := some {
        space := bitOf (wd d 0) 59, addr := fld (wd d 1) 47 0, value := (wd d 2).toNat } })) ∧
  (∀ (e i v : Nat) (w : WaitFor) (s : State), (slot s e i).waiting = some w → slotFree s e i = true →
    readWord s e i w.space w.addr = .ok v →
    exec (.waitSatisfied e i) s = .next (if w.value ≤ v then endWait s e i else s)) ∧
  (∀ (e i : Nat) (d : List W64) (s s' : State), FeederReady s e i d → descKind d = 3 → waitBad d = false →
    writeWord s e i (bitOf (wd d 0) 59) (fld (wd d 1) 47 0) (wd d 2).toNat = .ok s' →
    exec (.signal e i d) s = .next (endFeeder s' e i)) ∧
  (∀ (e i : Nat) (d : List W64) (s : State), FeederReady s e i d → descKind d = 0 ∨ 3 < descKind d →
    exec (.chain e i d) s = .next (faultSlot s e i .badField) ∧
    exec (.wait e i d) s = .next (faultSlot s e i .badField) ∧
    exec (.signal e i d) s = .next (faultSlot s e i .badField)) ∧
  (∀ (e i : Nat) (s : State),
    (slot (endWait s e i) e i).waiting = none ∧
    (slot (endWait s e i) e i).fring = ringNext (slot s e i).fring ∧
    (slot (endWait s e i) e i).progress = (slot s e i).progress + 1 ∧
    (engine (endWait s e i) e).progress = (engine s e).progress + 1 ∧ (endWait s e i).pkg = s.pkg)

/-- DMA_IN, DMA_OUT and DMA_COPY: a descriptor of the ring that stands and whose WAIT_FIRST word has been reached moves
its rows and awaits its completion; before that nothing changes, and a page in move makes it wait; a malformed one
faults the context. DMA_COMPLETE without SIGNAL advances HEAD and counts the bytes for the job and the sleeve; with
SIGNAL it adds COMPL_ADD to the completion word; a segment that failed its CRC reruns the descriptor once; a second
failure raises the transfer error, strikes the engine and faults the context. -/
def Obligations.DmaMovesAndCompletes : Prop :=
  (∀ (r : Nat × (Nat → Nat → List W64 → List (Nat × Byte) → Instr)) (e i : Nat) (d : List W64)
      (flips : List (Nat × Byte)) (s : State),
    r ∈ [(1, Instr.dmaIn), (2, Instr.dmaOut), (3, Instr.dmaCopy)] → DmaReady s e i d → descKind d = r.1 →
    dmaBad d = false → dmaReady s e i d = .ok true → dmaWaits s e i d = none →
    (dmaAttempt s e i d flips).2.1 = none →
    exec (r.2 e i d flips) s = .next (modSlot (dmaAttempt s e i d flips).1 e i fun x =>
      { x.starts (now s) with dma := x.dma ++ [{ desc := d, failed := (dmaAttempt s e i d flips).2.2 }] })) ∧
  (∀ (r : Nat × (Nat → Nat → List W64 → List (Nat × Byte) → Instr)) (e i : Nat) (d : List W64)
      (flips : List (Nat × Byte)) (s : State),
    r ∈ [(1, Instr.dmaIn), (2, Instr.dmaOut), (3, Instr.dmaCopy)] → DmaReady s e i d → descKind d = r.1 →
    (dmaBad d = true → exec (r.2 e i d flips) s = .next (faultSlot s e i .badField)) ∧
    (dmaBad d = false → dmaReady s e i d = .ok false → exec (r.2 e i d flips) s = .next s) ∧
    (∀ a, dmaBad d = false → dmaReady s e i d = .ok true → dmaWaits s e i d = some a →
      exec (r.2 e i d flips) s = .next (park s a (dRowBytes d) (.command (r.2 e i d flips))))) ∧
  (∀ (e i : Nat) (r : DmaRun) (rest : List DmaRun) (flips : List (Nat × Byte)) (s : State),
    (slot s e i).dma = r :: rest → r.failed = false → dSignal r.desc = false → (slot s e i).job ≠ 0 →
    (slot s e i).moveOwed = false →
    Completes (.dmaComplete e i flips) s fun t =>
      (slot t e i).dma = rest ∧ (slot t e i).dring = ringNext (slot s e i).dring ∧
      (slot t e i).progress = (slot s e i).progress + 1 ∧
      (job t (slot s e i).job).ctr.bytes = (job s (slot s e i).job).ctr.bytes + w64 (dBytes r.desc) ∧
      (sleeve t (slot s e i).sleeve).acct.bytesDma =
        (sleeve s (slot s e i).sleeve).acct.bytesDma + w64 (dBytes r.desc) ∧ t.pkg = s.pkg) ∧
  (∀ (e i v : Nat) (r : DmaRun) (rest : List DmaRun) (flips : List (Nat × Byte)) (s : State),
    (slot s e i).dma = r :: rest → r.failed = false → dSignal r.desc = true →
    readWord s e i false (dCompl r.desc) = .ok v → (slot s e i).job = 0 → (slot s e i).moveOwed = false →
    exec (.dmaComplete e i flips) s = .next (modSlot
      (partWrite s (slot s e i) e (dCompl r.desc) (leBytes 8 ((v + fld (wd r.desc 3) 31 0) % 2 ^ 64))) e i
        fun x => { x with dma := x.dma.drop 1, dring := ringNext x.dring }.completes (now s))) ∧
  (∀ (e i : Nat) (r : DmaRun) (rest : List DmaRun) (flips : List (Nat × Byte)) (s : State),
    (slot s e i).dma = r :: rest → r.failed = true → r.reran = false →
    (dmaAttempt s e i r.desc flips).2.1 = none →
    exec (.dmaComplete e i flips) s = .next (modSlot (dmaAttempt s e i r.desc flips).1 e i fun x => { x with
      dma := { r with reran := true, failed := (dmaAttempt s e i r.desc flips).2.2 } :: rest })) ∧
  (∀ (e i : Nat) (r : DmaRun) (rest : List DmaRun) (flips : List (Nat × Byte)) (s : State),
    (slot s e i).dma = r :: rest → r.failed = true → r.reran = true → (slot s e i).job ≠ 0 →
    exec (.dmaComplete e i flips) s = .next (faultSlot (strike (raise s
      { code := 0x015, severity := 2, sleeve := some (slot s e i).sleeve
        job := some ((slot s e i).job, (job s (slot s e i).job).gen), status := 8
        die := unitDie e, unit := e, d0 := (wd r.desc 4).toNat }) e 2 0xFFFF (slot s e i).job
          (slot s e i).sleeve false) e i .checkFailed)) ∧
  (∀ (e i : Nat) (d : List W64) (bs : List Byte) (s : State), descKind d = 1 →
    inPart (slot s e i) (dPocket d 0) (dRowBytes d) = true → 0 ≤ dDev d 0 → dRows d = 1 →
    devRead s (slotIssuer s (slot s e i)) (dDev d 0).toNat (dRowBytes d) = .ok bs → s.pkg.eccBad = [] →
    dmaAttempt s e i d [] = (partWrite s (slot s e i) e (dPocket d 0) bs, none, false))

/-- Each of the 24 element-engine rows: a descriptor of the row's OP that stands in the ring and whose regions lie in
the partition and can be read writes what elemWork computes, counts for the job and the engine's domains, and its ring's
HEAD and the context's progress advance by one; under mandatory referee a tenant's is refereed first. A descriptor that
breaks its layout, or has a reserved OP, faults the context with BAD_FIELD; one whose region leaves the partition faults
it with DENIED, and an uncorrectable word with CHECK_FAILED. On an engine that is not awake the row wakes it. -/
def Obligations.ElementRowsRun : Prop :=
  (∀ (r : Nat × (Nat → Nat → List W64 → Instr)) (e i : Nat) (d : List W64) (s : State), r ∈ elementRows →
    ElementReady s e i d → eOp d = r.1 → elemBad d = false → elemBar s (slot s e i) e d = none →
    let x := slot s e i
    let w := elemWork s x e (slotChip s x) d
    let a := noteBeats (putWrites s x e w.1) ((engineDomains e).drop 1) x (i == 4) (elemBeats d) 0
    let b := modSlot (addCounts (chargeBeats a x (elemBeats d)) x.job w.2) e i fun x => { x with shadowed := false }
    ((unitSt s (16 + e)).hold ≠ 1 ∨ i = 4 → exec (r.2 e i d) s = .next (modSlot b e i fun x =>
      { x with ering := ringNext x.ering }.completes (now b))) ∧
    ((unitSt s (16 + e)).hold = 1 → i < 4 → exec (r.2 e i d) s =
      .next (openDispute b (elemDispute b e i d [] [] true)))) ∧
  (∀ (r : Nat × (Nat → Nat → List W64 → Instr)) (e i : Nat) (d : List W64) (s : State), r ∈ elementRows →
    ElementReady s e i d → eOp d = r.1 ∧ elemBad d = true ∨ isEeOp (eOp d) = false →
    exec (r.2 e i d) s = .next (faultSlot s e i .badField)) ∧
  (∀ (r : Nat × (Nat → Nat → List W64 → Instr)) (e i : Nat) (d : List W64) (s : State), r ∈ elementRows →
    ElementReady s e i d → eOp d = r.1 → elemBad d = false →
    let inside := (elemReads d ++ elemWriteSpans d).all fun q => inPart (slot s e i) q.1 q.2
    (inside = false → exec (r.2 e i d) s = .next (faultSlot s e i .denied)) ∧
    (inside = true → ((elemReads d).any fun q => eccHit s (partKey (slot s e i) e q.1) q.2) = true →
      exec (r.2 e i d) s = .next (pocketEcc s e i))) ∧
  (∀ (r : Nat × (Nat → Nat → List W64 → Instr)) (e i : Nat) (d : List W64) (s : State), r ∈ elementRows →
    elementFree s e i = true → engineAwake s e = false → exec (r.2 e i d) s = .next (wakeEngine s e))

/-- Frame of the 24 element-engine rows on the descriptors of ElementRowsRun: every byte of memory outside the writes
that elemWork computes reads as before; every unit and other engine and job, every sleeve but the account of the
context's own, and of the power manager everything but the active beats, is as before, no free value is asked for and
nothing is sent. -/
def Obligations.ElementRowsFrame : Prop :=
  ∀ (r : Nat × (Nat → Nat → List W64 → Instr)) (e i : Nat) (d : List W64) (s t : State), r ∈ elementRows →
    ElementReady s e i d → eOp d = r.1 → elemBad d = false → elemBar s (slot s e i) e d = none →
    (unitSt s (16 + e)).hold = 0 → exec (r.2 e i d) s = .next t →
    (∀ k, (∀ w ∈ (elemWork s (slot s e i) e (slotChip s (slot s e i)) d).1,
        k < partKey (slot s e i) e w.1 ∨ partKey (slot s e i) e w.1 + w.2.length ≤ k) →
      rdByte t.pkg.mem k = rdByte s.pkg.mem k) ∧
    (∀ e' ≠ e, engine t e' = engine s e') ∧ (∀ h ≠ (slot s e i).job, job t h = job s h) ∧
    t.pwr = { s.pwr with active := t.pwr.active } ∧
    (∀ k ≠ (slot s e i).sleeve, sleeve t k = sleeve s k) ∧
    sleeve t (slot s e i).sleeve = { sleeve s (slot s e i).sleeve with acct := (sleeve t (slot s e i).sleeve).acct } ∧
    t.pkg.owner = s.pkg.owner ∧ t.lin = s.lin ∧ t.mgt = s.mgt ∧ t.hlt = s.hlt ∧ t.nvm = s.nvm ∧
    t.boot = s.boot ∧ t.rad = s.rad ∧ t.fh = s.fh ∧ t.tim = s.tim ∧ t.fab = s.fab ∧ t.out = s.out ∧
    t.freeCount = s.freeCount

/-- The course of a disagreement: staging takes the preferred referee that no older dispute waits for, at a pass boundary
and with its domains on, and the chunk in one of the two buffers; 100 ms without an eligible referee, or a suspect that
alone remains, end the dispute and fault the job with CHECK_FAILED. A referee pass whose own lining disagrees strikes the referee and stages again, or withholds
after the second; the same value strikes the checker's path after a replay; a value that satisfies the syndromes replaces
the disputed rows; any other is withheld. Staging or scratch that cannot be read ends it too. The locating replay ends
the chunk with a strike, confirmed when reproduced. -/
def Obligations.RefereeDecides : Prop :=
  (∀ (u r : Nat) (d : Dispute) (s : State), disputeOf s u = some d → d.st = .staging → suspectAlone s d = false →
    refereeReady s d r = true →
    (engineAwake s (r % 16) = false → exec (.refereeStaging u r) s = .next (wakeEngine s (r % 16))) ∧
    (engineAwake s (r % 16) = true → d.element = true →
      exec (.refereeStaging u r) s = .next (modDispute (countReferee s r (refereeBeats d)) u
        fun d => { d with st := .referee, refs := d.refs ++ [r], noneSince := none })) ∧
    (engineAwake s (r % 16) = true → d.element = false →
      (∀ b, d.buffer = some b → exec (.refereeStaging u r) s =
        .next (if eccHit s (stagingKey b) (2 ^ 20) then stagingBad s d b else stageChunk s d b r)) ∧
      (∀ b, d.buffer = none → freeBuffer s = some b → d.images ≠ [] ∨ chunkEcc s d = false →
        exec (.refereeStaging u r) s = .next (if eccHit (fillBuffer s d b) (stagingKey b) (2 ^ 20)
          then stagingBad (fillBuffer s d b) d b else stageChunk (fillBuffer s d b) d b r)) ∧
      (∀ b, d.buffer = none → freeBuffer s = some b → d.images = [] → chunkEcc s d = true →
        exec (.refereeStaging u r) s = .next (pocketEcc s (u % 16) d.slot)) ∧
      (d.buffer = none → freeBuffer s = none → exec (.refereeStaging u r) s = .next s))) ∧
  (∀ (u r : Nat) (d : Dispute) (s : State), disputeOf s u = some d → d.st = .staging → suspectAlone s d = true →
    d.mandatory = false →
    exec (.refereeStaging u r) s = .next (failDispute (capture s d 0) d .checkFailed)) ∧
  (∀ (u n : Nat) (d : Dispute) (s : State), disputeOf s u = some d → d.st = .staging → d.mandatory = false →
    suspectAlone s d = true ∨ anyEligible s d = false ∧ d.noneSince = some n ∧ 100 * ticksPerMs ≤ since s n →
    exec (.refereeTimeout u) s = .next (failDispute (capture s d 0) d .checkFailed)) ∧
  (∀ (u r : Nat) (d : Dispute) (obs : RefereeObs) (s : State), disputeOf s u = some d → d.st = .referee →
    d.refs.getLast? = some r →
    d.element = true ∨ eccHit s (scratchKey s (r % 16)) (2 ^ 20) = false →
    let v := refereed s d r obs
    let a := strike (countDisagree s r) r 4 0xFFFF d.job d.sleeve false
    (v.own = false → d.refs.length < 2 → exec (.refereePassDone u obs) s =
      .next (noteReferees (modDispute a u fun d => { d with st := .staging }))) ∧
    (v.own = false → 2 ≤ d.refs.length → exec (.refereePassDone u obs) s = .next (withhold (capture a d 3) d)) ∧
    (v.own = true → v.same = true → d.mandatory = true → exec (.refereePassDone u obs) s = .next (nextChunk s d)) ∧
    (v.own = true → v.same = true → d.mandatory = false → exec (.refereePassDone u obs) s =
      .next (modDispute (capture (if d.element then v.placed else s) d 2) u
        fun d => { d with kind := 2, st := .replay })) ∧
    (v.own = true → v.same = false → v.fits = true → exec (.refereePassDone u obs) s =
      .next (modDispute (capture v.placed d 1) u fun d => { d with kind := 1, st := .replay })) ∧
    (v.own = true → v.same = false → v.fits = false → exec (.refereePassDone u obs) s =
      .next (withhold (capture s d 3) d))) ∧
  (∀ (u r : Nat) (d : Dispute) (obs : RefereeObs) (s : State), disputeOf s u = some d → d.st = .referee →
    d.refs.getLast? = some r → d.element = false →
    eccHit s (scratchKey s (r % 16)) (2 ^ 20) = true →
    exec (.refereePassDone u obs) s = .next (scratchBad s d r)) ∧
  (∀ (u : Nat) (faults : List (Nat × Nat × Int)) (d : Dispute) (s : State), disputeOf s u = some d →
    d.st = .replay →
    exec (.locatingReplayDone u faults) s = .next (strike (nextChunk s d) u d.kind
      ((replayLocates s d faults).getD d.location) d.job d.sleeve (replayLocates s d faults).isSome))

/-- Four unconfirmed strikes of a unit within an hour confirm the last one and fence the unit. A fitting that starts on
a unit at rest and awake, and on an engine ends before the release tick or the lease, has its operands placed and is the
one running; at the end of the period a unit without a
complete run has an urgent one. A fitting that matches is logged with outcome 0 and no strike; another runs again at
once, and its mismatches strike the unit, confirmed by the second. Two clean clearance runs within 10 min lift the fence
or hold and take the unit off the list; 10 min without them confirm the fence (log entry 90). -/
def Obligations.FittingsAndClearance : Prop :=
  (∀ (u : Nat) (s : State), u < 124 →
    4 ≤ ((unitSt s u).unconfirmed.filter fun t => since s t < 3600 * ticksPerS).length →
    let a := modUnit s u fun x => { x with unconfirmed := [] }
    exec (.strikeCountConfirm u) s = .next (selfFence
      { a with lin := { a.lin with strikes := confirmLast u s.lin.strikes } } u .confirmed 1)) ∧
  (∀ (u f beats : Nat) (r : FitRun) (c : FitCur) (s : State), mayFit s u = true → unitIdle s u = true →
    (unitSt s u).fit = some r → r.current = none → f ∈ r.todo → (fittingsOf s u)[f]? = some c →
    (u < 32 → (engine s (u % 16)).leased = true → fitBeats u c ≤ beats) →
    (u < 32 → (engine s (u % 16)).leased = false → beforeLease s (u % 16) (fitBeats u c) = true) →
    (u < 32 → engineAwake s (u % 16) = true) →
    exec (.fittingStart u f beats) s = .next (placeOperands (setUnit s u { unitSt s u with fit := some { r with
      todo := r.todo.filter (· != f), current := some c } }) u c)) ∧
  (∀ (u f beats : Nat) (r : FitRun) (c : FitCur) (s : State), mayFit s u = true → unitIdle s u = true →
    (unitSt s u).fit = some r → r.current = none → f ∈ r.todo → (fittingsOf s u)[f]? = some c → u < 32 →
    ((engine s (u % 16)).leased = true → fitBeats u c ≤ beats) →
    ((engine s (u % 16)).leased = false → beforeLease s (u % 16) (fitBeats u c) = true) →
    engineAwake s (u % 16) = false →
    exec (.fittingStart u f beats) s = .next (wakeEngine s (u % 16))) ∧
  (∀ (u : Nat) (s : State), u < 96 → mayFit s u = true → (unitSt s u).fit = none → (unitSt s u).lastRun = none →
    Completes (.fittingPeriodEnd u) s fun t => (unitSt t u).fitDue = true ∧
      (unitSt t u).fit = some (newRun s u true) ∧ (∀ v ≠ u, unitSt t v = unitSt s v) ∧ t.pkg = s.pkg) ∧
  (∀ (u : Nat) (run rerun : FitObs) (r : FitRun) (c : FitCur) (s : State), (unitSt s u).fit = some r →
    r.current = some c → 32 ≤ u ∨ eccHit s (scratchKey s (u % 16)) (2 ^ 20) = false →
    let a := fitRun s u c run
    let b := fitRun (placeOperands a u c) u c rerun
    (fitMatches a u c run = true → exec (.fittingDone u run rerun) s = .next (fitResult a u r c 0)) ∧
    (fitMatches a u c run = false → exec (.fittingDone u run rerun) s = .next (fitResult b u r c
      (if fitMatches b u c rerun then 1 else 2)))) ∧
  (∀ (u : Nat) (r : FitRun) (c : FitCur) (s : State), r.todo ≠ [] →
    let t := fitResult s u r c 0
    (unitSt t u).fit = some { r with current := none } ∧ (unitSt t u).strikes = (unitSt s u).strikes ∧
    t.lin.fitLog = (s.lin.fitLog ++ [(⟨c.set, c.fitting, u, 0, now s⟩ : FitResult)]).drop
      (s.lin.fitLog.length + 1 - 32768) ∧ t.lin.strikes = s.lin.strikes) ∧
  (∀ (u outcome : Nat) (r : FitRun) (c : FitCur) (s : State), r.todo ≠ [] → outcome = 1 ∨ outcome = 2 →
    let a := modUnit (logFitting s { set := c.set, fitting := c.fitting, unit := u, outcome := outcome, raw := now s })
      u fun x => { x with fit := some { r with current := none, failures := r.failures + 1 } }
    fitResult s u r c outcome = strike (if (unitSt s u).clearing then confirmFence a u else a) u 5 c.fitting 0 0
      (outcome == 2)) ∧
  (∀ (u : Nat) (s : State), u < 124 → (unitSt s u).clearing = true → since s (unitSt s u).clearSince ≤ 600 * ticksPerS →
    2 ≤ (unitSt s u).clearRuns →
    Completes (.fenceClearanceDone u) s fun t => (unitSt t u).fence = .none ∧ (unitSt t u).hold = 0 ∧
      (unitSt t u).clearing = false ∧ (unitSt t u).fit = none ∧ u ∉ t.hlt.hr.fenceList) ∧
  (∀ (u : Nat) (s : State), u < 124 → (unitSt s u).clearing = true → 600 * ticksPerS < since s (unitSt s u).clearSince →
    exec (.fenceClearanceDone u) s = .next (confirmFence s u))

/-- The 24 h scrub acts on each finding in turn, and then on the page moves that waited for a frame. Words that the code
of a memory corrects are counted: a frame's under 16 in the day and a pocket's under 64 in the hour change nothing else;
at 64 they are recorded, counted afresh and strike the engine; a word that it detects stays uncorrectable. A lockstep
mismatch records the pc, resets both cores of the pair with one counted reset, faults their contexts with CHECK_FAILED
and strikes the pair. -/
def Obligations.ScrubsAndLockstep : Prop :=
  (∀ (o : ScrubObs) (s : State), s.boot.phase = .booted → o.loc = 1 ∨ o.loc = 2 →
    exec (.scrubFrames [o]) s = .next (startOwedMoves (scrubFrame s o))) ∧
  (∀ (o : ScrubObs) (s : State), (∀ w ∈ o.words, frameEcc o.loc w.2 = .corrected) →
    tget [] s.pkg.frameErrs (frameKey o.loc o.frame) = [] → o.words.length < 16 →
    tget [] (scrubFrame s o).pkg.frameErrs (frameKey o.loc o.frame) = List.replicate o.words.length (now s) ∧
    (scrubFrame s o).pkg.mem = s.pkg.mem ∧ (scrubFrame s o).pkg.retired = s.pkg.retired ∧
    (scrubFrame s o).hlt = s.hlt) ∧
  (∀ (e : Nat) (ws : List (Nat × Nat)) (s : State), e < 16 → s.boot.phase = .booted →
    tget [] s.pkg.pocketErrs e = [] → (∀ w ∈ ws, w.2 = 1) →
    (ws.length < 64 → Completes (.scrubPocket e ws) s fun t =>
      tget [] t.pkg.pocketErrs e = List.replicate ws.length (now s) ∧
      t.pkg.mem = s.pkg.mem ∧ t.lin = s.lin ∧ t.hlt = s.hlt) ∧
    (64 ≤ ws.length → exec (.scrubPocket e ws) s = .next (strike (raise
      { s with pkg := { s.pkg with pocketErrs := tset [] s.pkg.pocketErrs e [] } }
      { code := 0x005, severity := 1, die := unitDie e, unit := e, d0 := e, d1 := ws.length }) e 6 0xFFFF 0 0 false))) ∧
  (∀ (e w : Nat) (s : State), e < 16 → s.boot.phase = .booted → tget [] s.pkg.pocketErrs e = [] → w < 2 ^ 23 →
    Completes (.scrubPocket e [(w, 2)]) s fun t => pocketKey e (8 * w) ∈ t.pkg.eccBad ∧ t.pkg.mem = s.pkg.mem ∧
      t.lin = s.lin) ∧
  (∀ (p pc : Nat) (s : State), p ≤ 7 → cfgLockstep s / 2 ^ p % 2 = 1 → s.boot.phase = .booted →
    let a := raise s { code := 0x016, severity := 3, die := unitDie (96 + 2 * p), unit := 96 + 2 * p,
                       sleeve := if (hostCore s (2 * p)).loaded then some (hostCore s (2 * p)).sleeve else none, d0 := pc }
    let b := resetUnit (resetUnit (countReset a (96 + 2 * p) 4) (96 + 2 * p)) (97 + 2 * p)
    exec (.lockstepMismatch p pc) s = .next (strike
      (faultCore (faultCore b (2 * p) .checkFailed) (2 * p + 1) .checkFailed) (96 + 2 * p) 7 0xFFFF
        (hostCore s (2 * p)).handle (hostCore s (2 * p)).sleeve false))

/-- FITTING_LOAD takes a set into the incoming buffer, answers the first check of R167 that a set fails, and activates a set that passes, with the floor at
its sequence number. FITTING_STATUS answers the set, the floor and two words for each unit; FITTING_RUN starts an urgent
run of each unit named that is not fenced and sets the period; CANDIDATE_READ answers bytes of a candidate and marks
one read to its end; CANDIDATE_FREE frees it; LINING_LOG_READ answers entries of the logs (layouts: log entry 20). A
queue or log that cannot be read is reported, and what is read of it is free. -/
def Obligations.LiningCommandsComplete : Prop :=
  (∀ (c : Cmd) (set : List Byte) (s : State), Served 0x300 2 isMgmt c s → s.pwr.inhibit = false →
    argN c 1 ≤ 4 * 2 ^ 20 → readSource s c (partyOf c.src) (arg c 0) 0 (argN c 1) = .ok set →
    let a := receiveSet s set
    exec (.fittingLoad c) s = .next (if fitSetStatus a set = .ok then answered 0x300 2 c (activateSet a set) []
      else complete a c.src 0x300 (arg c 2) (fitSetStatus a set) [])) ∧
  (∀ (c : Cmd) (s : State), Served 0x301 1 isMgmt c s → argN c 0 ≤ 111 →
    exec (.fittingStatus c) s = .next (answered 0x301 1 c s
      ([w64 (setId s), w64 s.nvm.fittingFloor, 1] ++ fitStatusWords s (argN c 0)))) ∧
  (∀ (c : Cmd) (s : State), Served 0x301 1 isMgmt c s → argN c 0 = 0xFFFF →
    exec (.fittingStatus c) s = .next (answered 0x301 1 c s
      ([w64 (setId s), w64 s.nvm.fittingFloor, 112] ++ (List.range 112).flatMap (fitStatusWords s)))) ∧
  (∀ (c : Cmd) (s : State), Served 0x302 2 isMgmt c s → argN c 0 ≤ 111 → 60 ≤ argN c 1 → argN c 1 ≤ 600 →
    isFenced s (argN c 0) = false → (unitSt s (argN c 0)).fit = none →
    let a := { s with lin := { s.lin with period := argN c 1 } }
    exec (.fittingRun c) s = .next (answered 0x302 2 c (modUnit a (argN c 0) fun x => { x with
      fitDue := true, fit := some { newRun a (argN c 0) true with current := x.fit.bind (·.current) } }) [])) ∧
  (∀ (c : Cmd) (k : Candidate) (s : State), Served 0x303 3 isMgmt c s → argN c 0 ≤ 3 →
    tget none s.lin.candidates (argN c 0) = some k → argN c 1 + argN c 2 ≤ (candidateBytes k).length →
    (candidatesBad s = true → exec (.candidateRead c) s = .next (answered 0x303 3 c
      (takeFreeBytes (reportUnreadable s 3488) 4 (argN c 2)).2
      (wordsOf (cdiv (argN c 2) 8) (takeFreeBytes (reportUnreadable s 3488) 4 (argN c 2)).1))) ∧
    (candidatesBad s = false → exec (.candidateRead c) s = .next (answered 0x303 3 c
      { s with lin := { s.lin with candidates := tset none s.lin.candidates (argN c 0) (some { k with
        fetched := k.fetched || argN c 1 + argN c 2 == (candidateBytes k).length }) } }
      (wordsOf (cdiv (argN c 2) 8) (((candidateBytes k).drop (argN c 1)).take (argN c 2)))))) ∧
  (∀ (c : Cmd) (s : State), Served 0x304 1 isMgmt c s → argN c 0 ≤ 3 →
    (tget none s.lin.candidates (argN c 0)).isSome = true →
    exec (.candidateFree c) s = .next (answered 0x304 1 c
      { s with lin := { s.lin with candidates := tset none s.lin.candidates (argN c 0) none } } [])) ∧
  (∀ (c : Cmd) (s : State), Served 0x305 2 isMgmt c s → 1 ≤ argN c 1 → argN c 1 ≤ 64 →
    let part {α : Type} (l : List α) : List α := (l.drop (argN c 0)).take (argN c 1)
    let ws := logPart strikeWords (part s.lin.strikes) ++ logPart fitWords (part s.lin.fitLog) ++
      logPart unresolvedWords (part s.lin.unresolved) ++
      logPart (fun c => wordsOf 7 (candidateBytes c)) (part s.lin.headers)
    (liningLogBad s = false → exec (.liningLogRead c) s = .next (answered 0x305 2 c s ws)) ∧
    (liningLogBad s = true → exec (.liningLogRead c) s = .next (answered 0x305 2 c
      (takeFreeBytes (reportUnreadable s 3552) 5 (8 * ws.length)).2
      (wordsOf ws.length (takeFreeBytes (reportUnreadable s 3552) 5 (8 * ws.length)).1))))

/-- JOB_SUBMIT answers the handle and the generation of the job that passes the checks of R183, or the status of the
first that fails; one that lacks pages which still drain waits for them. LOWERING_DONE moves the job to WAITING with its
contexts, its weights on their way, or begins its teardown with BAD_FIELD. JOB_PLACED on places that all stand gives the
job its slots and starts it, or faults it with CHECK_FAILED where a saved partition has an unreadable word; a job of several
chips first arrives at its start barrier; otherwise its weights go on.
SNAPSHOT_RESTORE submits the job of a complete image with the same CHIPS and gives it the image's state; an image whose
CRC fails is CHECK_FAILED. (What lowering reports is checked by the model, log entry 92.) -/
def Obligations.JobsStart : Prop :=
  (∀ (c : Cmd) (s : State), Served 0x180 8 isSleeveUser c s →
    let p := partyOf c.src
    let b := c.args.take 8
    let k := (submitter s p b).getD 0
    exec (.jobSubmit c) s = .next (match submit s p b with
      | .ok (t, n) => answered 0x180 8 c t [w64 n, w64 (job t n).gen]
      | .error (st, lacking) => if lacking = true ∧ drainsPages s k = true
          then modSleeve (journal s c.src 0x180) k fun v => { v with submits := v.submits ++ [(c.src, b)] }
          else finish s c.src 0x180 st [])) ∧
  (∀ (h : Nat) (o : LowerObs) (s : State), (job s h).st = .lowering →
    (loweringOk s h o = true → (sleeve s (job s h).owner).st = .active → exec (.loweringDone h true o) s =
      .next (bringWeights (putCarried (modJob s h fun j => { j with st := .waiting, lowered := o }) h) h)) ∧
    (loweringOk s h o = true → (sleeve s (job s h).owner).st ≠ .active → exec (.loweringDone h true o) s =
      .next (putCarried (modJob s h fun j => { j with st := .waiting, lowered := o }) h)) ∧
    (loweringOk s h o = false → exec (.loweringDone h true o) s = .next s) ∧
    exec (.loweringDone h false o) s = .next (beginTeardown s h (statusCode .badField) 1)) ∧
  (∀ (h : Nat) (ps : List Place) (s : State), placesStand s h ps = true → savedBad s h = false →
    let t := placeAll s h ps
    let u := arriveBarrier t h 1 0 0 0
    (job t h).st = .running ∧
    (startsAtBarrier (job s h) = false → exec (.jobPlaced h ps) s = .next (continueBoundary t h)) ∧
    (startsAtBarrier (job s h) = true → exec (.jobPlaced h ps) s =
      .next (if (job u h).st = .running then continueBoundary u h else u))) ∧
  (∀ (h : Nat) (ps : List Place) (s : State), placesStand s h ps = true → savedBad s h = true →
    exec (.jobPlaced h ps) s = .next (faultJob s h .checkFailed)) ∧
  (∀ (h : Nat) (ps : List Place) (s : State), placesStand s h ps = false → (job s h).st = .waiting →
    (sleeve s (job s h).owner).st = .active → exec (.jobPlaced h ps) s = .next (bringWeights s h)) ∧
  (∀ (c : Cmd) (m : SnapImage) (s : State), Served 0x187 9 isSleeveUser c s → readSnap s (partyOf c.src) c = .ok m →
    let a := argRead s (partyOf c.src) (arg c 0) m.all.length
    (m.bad = true → exec (.snapshotRestore c) s = .next (complete a c.src 0x187 (arg c 9) .checkFailed [])) ∧
    (m.bad = false → exec (.snapshotRestore c) s =
      .next (match submit a (partyOf c.src) ((c.args.drop 1).take 8) with
        | .error (st, _) => complete a c.src 0x187 (arg c 9) st []
        | .ok (t, n) => if hdrChips (job t n).header ≠ m.chips then complete a c.src 0x187 (arg c 9) .badField []
          else match restoreInto t n m with
            | none => complete a c.src 0x187 (arg c 9) .badField []
            | some u => answered 0x187 9 c u [w64 n, w64 (job u n).gen])))

/-- STEP_BOUNDARY of a drained one-chip job that runs runs the step's operations and then the boundary's work; of a job
without a pool, step records, cadence or snapshot, not at its last step, that work advances the step, notes the
boundary and starts the next step. While Tacor restarts the job is HELD with its boundary. JOB_HOLD_RELEASE with every
cause cleared returns the job to RUNNING, or to WAITING with a context in its save area, runs a boundary that was kept
back, and posts the records that a full ring left. CADENCE_RELEASE on its tick starts a run, or skips it (a run in
progress, a throttled die, a held job) and counts a miss. SNAPSHOT_DRAIN_DONE ends the snapshot with a KIND 4 record. -/
def Obligations.JobsRun : Prop :=
  (∀ (h : Nat) (o : StepObs) (r : GraphRun) (s : State), (job s h).st = .running → (job s h).core = none →
    (job s h).boundary = none → (job s h).unposted = [] → stepDrained s h = true → (job s h).barrierStep = none →
    chipsDone (job s h) o = true → (∀ c, (job s h).cadence = some c → c.inProgress = true) → hdrChips (job s h).header = 1 → mapOfJob s h = none →
    s.mgt.tacor = 1 → (job s h).tokenBytes = 0 ∨ eccHit s (ed0Key (poolFrame h) 0) 65536 = false →
    boundaryBlocked s h = none → runStep s h o = .ok r →
    exec (.stepBoundary h o) s = .next (applyBoundary r.st h r.ended)) ∧
  (∀ (h : Nat) (s : State), (job s h).st = .running → (job s h).tokenBytes = 0 →
    blkStepRecords (job s h).block = false → lastStep (job s h) = false → (job s h).snap = none →
    (job s h).cadence = none → (sleeve s (job s h).owner).st = .active →
    let t := applyBoundary s h []
    (job t h).step = (job s h).step + 1 ∧ (job t h).lastBoundary = some (job s h).step ∧ (job t h).st = .running ∧
    (job t h).ctr.beats = (job s h).ctr.beats ∧ (∀ g ≠ h, job t g = job s g) ∧ t.slv = s.slv) ∧
  (∀ (h : Nat) (o : StepObs) (s : State), (job s h).st = .running → (job s h).core = none →
    (job s h).boundary = none → (job s h).unposted = [] →
    stepDrained s h = true → chipsDone (job s h) o = true → (job s h).barrierStep = none →
    hdrChips (job s h).header = 1 → s.mgt.tacor = 2 →
    (∀ c, (job s h).cadence = some c → c.inProgress = true) →
    Completes (.stepBoundary h o) s fun t => (job t h).st = .held ∧ .tacorRestart ∈ (job t h).holds ∧
      (job t h).boundary = some o ∧ (job t h).step = (job s h).step ∧ t.pkg = s.pkg) ∧
  (∀ (h : Nat) (s : State), (job s h).st = .held → (∀ c ∈ (job s h).holds, holdCleared s (job s h) c = true) →
    let a := modJob s h fun j => { j with st := .running, holds := [] }
    ((job s h).saved ≠ [] → exec (.jobHoldRelease h) s =
      .next (modJob s h fun j => { j with st := .waiting, holds := [] })) ∧
    ((job s h).saved = [] → (job s h).boundary = none → (job s h).unposted = [] →
      exec (.jobHoldRelease h) s = .next a) ∧
    (∀ o, (job s h).saved = [] → (job s h).boundary = some o →
      exec (.jobHoldRelease h) s = .next (runBoundary a h o)) ∧
    ((job s h).saved = [] → (job s h).boundary = none → (job s h).unposted ≠ [] →
      exec (.jobHoldRelease h) s = .next (postBoundary a h (job s h).unposted))) ∧
  (∀ (h : Nat) (c : Cadence) (s : State), (job s h).cadence = some c → (job s h).st = .running →
    c.nextRelease ≤ now s → c.inProgress = false → (∀ x ∈ jobSlots s h, (diePwr s (x.1 / 4)).level < 2) →
    (sleeve s (job s h).owner).st = .active →
    exec (.cadenceRelease h) s = .next (startStep (modJob s h fun j => { j with cadence := some { c with
      nextRelease := releaseAfter (blkPeriod j.block) c.nextRelease, inProgress := true, startRaw := now s } }) h)) ∧
  (∀ (h : Nat) (c : Cadence) (s : State), (job s h).cadence = some c →
    (job s h).st = .running ∨ (job s h).st = .held → c.nextRelease ≤ now s →
    c.inProgress = true ∨ (job s h).st = .held ∨ (sleeve s (job s h).owner).st ≠ .active ∨
      (∃ x ∈ jobSlots s h, 2 ≤ (diePwr s (x.1 / 4)).level) →
    Completes (.cadenceRelease h) s fun t =>
      (job t h).cadence = some { c with nextRelease := releaseAfter (blkPeriod (job s h).block) c.nextRelease } ∧
      (job t h).ctr.misses = (job s h).ctr.misses.add 0xFFFFFFFF 1 ∧
      (sleeve t (job s h).owner).acct.misses = Nat.min 0xFFFFFFFF ((sleeve s (job s h).owner).acct.misses + 1)) ∧
  (∀ (h step : Nat) (n : Snap) (r : DrainResult) (s : State), (job s h).snap = some n → n.taken = some step →
    r ≠ .landed ∨ snapTracks s h = false ∧ snapWaits s h = false →
    let a := modJob s h fun j => { j with snap := none }
    exec (.snapshotDrainDone h r) s = .next (endPost a h (recWords a (job s h) h (job s h).gen 4
      (match r with | .landed => 0 | .targetLost => 6 | .crcFailed => 8) step 0 0xFFFF 0 [])))

/-- JOB_CANCEL with the job's generation journals the command and begins the teardown: the job is DRAINING, its
generation is one higher, modulo 256, its holds are dropped, and every other job's generation is as it was; another
generation is STALE_GENERATION and changes nothing. TEARDOWN_DRAIN_DONE of a job with no pass in flight finishes the
teardown: the handle is FREE with the teardown's status, and the submissions that waited for its pages are tried again.
TEARDOWN_TIMEOUT abandons the drain: the status is TIMEOUT, its record is posted and the sleeve is reset. -/
def Obligations.TeardownRuns : Prop :=
  (∀ (c : Cmd) (s : State), Served 0x182 2 isSleeveUser c s → NamesJob s c (argN c 0) →
    (job s (argN c 0)).st ≠ .draining → (job s (argN c 0)).st ≠ .ending → (job s (argN c 0)).gen = argN c 1 →
    exec (.jobCancel c) s = .next (beginTeardown (journal s c.src 0x182) (argN c 0) 0 2 (some c.src)) ∧
    Completes (.jobCancel c) s fun t => (job t (argN c 0)).st = .draining ∧
      (job t (argN c 0)).gen = (argN c 1 + 1) % 256 ∧ (job t (argN c 0)).holds = [] ∧
      (∀ g ≠ argN c 0, (job t g).gen = (job s g).gen)) ∧
  (∀ (c : Cmd) (s : State), Served 0x182 2 isSleeveUser c s → NamesJob s c (argN c 0) →
    (job s (argN c 0)).st ≠ .draining → (job s (argN c 0)).st ≠ .ending → (job s (argN c 0)).gen ≠ argN c 1 →
    exec (.jobCancel c) s = .next (finish s c.src 0x182 .staleGeneration [])) ∧
  (∀ (h : Nat) (s : State), (job s h).st = .draining ∨ (job s h).st = .ending → jobDrained s h = true →
    exec (.teardownDrainDone h) s = .next (retrySubmits (finishTeardown s h) (job s h).owner)) ∧
  (∀ (h : Nat) (d : Teardown) (s : State), (job s h).st = .draining ∨ (job s h).st = .ending →
    jobDrained s h = true → (job s h).tear = some d → (sleeve s (job s h).owner).st = .active →
    (sleeve s (job s h).owner).submits = [] → (job s h).snap = none →
    ringBad s (job s h).owner (complAddr (job s h) (job s h).complTail) = false →
    Completes (.teardownDrainDone h) s fun t => (job t h).st = .free ∧ (job t h).status = d.status ∧
      (job t h).ctxs = [] ∧ (job t h).tear = none) ∧
  (∀ (h : Nat) (d : Teardown) (s : State), (job s h).tear = some d → (job s h).st = .draining →
    d.abandoned = false → s.fab.linkMs * ticksPerMs ≤ since s d.startRaw → (sleeve s (job s h).owner).st = .active →
    let j := job s h
    let record := recWords s j h (jobGen j) 2 (statusCode .timeout) j.step j.faultAddr j.faultUnit 0 []
    let a := if j.core.isSome then postFault s j.owner record else postLast s h record
    exec (.teardownTimeout h) s = .next (sleeveResetOp (modJob a h fun j => { j with
      status := statusCode .timeout, ended := true,
      tear := some { d with status := statusCode .timeout, kind := 2, abandoned := true } }) j.owner .timeout none))

/-- JOB_STATUS answers state, generation, status, last boundary, the bring-in estimate (a free value while the job
waits, log entry 3; 0 otherwise) and the counters. SEQ_JOIN queues a join (a number "seen": log entry 96); SEQ_LEAVE
queues a departure; SNAPSHOT_BEGIN arms a snapshot, which a job held behind its boundary takes at once; SNAPSHOT_STATUS
of one not yet taken answers 0 copied and all remaining, and of one that drains a free count and its complement. -/
def Obligations.JobCommandsComplete : Prop :=
  (∀ (c : Cmd) (s : State), Served 0x181 1 isSleeveUser c s → NamesJob s c (argN c 0) →
    (job s (argN c 0)).held = true → (job s (argN c 0)).st ≠ .waiting → (job s (argN c 0)).ended = false →
    let j := job s (argN c 0)
    exec (.jobStatus c) s = .next (answered 0x181 1 c s ([w64 (jobCode j.st), w64 (jobGen j), 0,
      (j.lastBoundary.map w64).getD 0xFFFFFFFFFFFFFFFF, 0] ++ counterWords j.ctr))) ∧
  (∀ (c : Cmd) (s : State), Served 0x181 1 isSleeveUser c s → NamesJob s c (argN c 0) →
    (job s (argN c 0)).held = true → (job s (argN c 0)).st = .waiting → (job s (argN c 0)).ended = false →
    let j := job s (argN c 0)
    exec (.jobStatus c) s = .next (answered 0x181 1 c (takeFree s 1).2 ([2, w64 (jobGen j), 0,
      (j.lastBoundary.map w64).getD 0xFFFFFFFFFFFFFFFF, (takeFree s 1).1] ++ counterWords j.ctr))) ∧
  (∀ (c : Cmd) (bs : List Byte) (s : State), Served 0x183 5 isSleeveUser c s → NamesJob s c (argN c 0) →
    (job s (argN c 0)).tokenBytes ≠ 0 → (∀ n, (job s (argN c 0)).pool.highest = some n → n < argN c 1) →
    (∀ a ∈ (job s (argN c 0)).pool.joins, a.number ≠ argN c 1) → argN c 1 < 2 ^ 32 →
    argN c 3 ≤ 2 ^ 20 → (job s (argN c 0)).st ≠ .draining → (job s (argN c 0)).st ≠ .ending →
    argN c 4 = 0 ∨ (job s (argN c 0)).lastBoundary = none →
    (job s (argN c 0)).pool.seqs.length + (job s (argN c 0)).pool.joins.length < 4096 →
    readArg s (partyOf c.src) c.hostData (arg c 2) 1 = .ok bs →
    exec (.seqJoin c) s = .next (answered 0x183 5 c (modJob s (argN c 0) fun j => { j with pool := { j.pool with
      joins := j.pool.joins ++
        [{ number := argN c 1, prompt := argN c 2, tokens := argN c 3, step := argN c 4 }] } }) [])) ∧
  (∀ (c : Cmd) (q : Seq) (s : State), Served 0x184 3 isSleeveUser c s → NamesJob s c (argN c 0) →
    q ∈ (job s (argN c 0)).pool.seqs → q.number = argN c 1 → (job s (argN c 0)).lastBoundary = none →
    exec (.seqLeave c) s = .next (answered 0x184 3 c (modJob s (argN c 0) fun j => { j with pool := { j.pool with
      leaves := j.pool.leaves ++ [(argN c 1, argN c 2)] } }) [])) ∧
  (∀ (c : Cmd) (s : State), Served 0x185 2 isSleeveUser c s → NamesJob s c (argN c 0) →
    (job s (argN c 0)).st ≠ .draining → (job s (argN c 0)).st ≠ .ending → (job s (argN c 0)).core = none →
    (job s (argN c 0)).snap = none → snapshots s < 2 → (jobPages s (argN c 0)).length ≤ 4194304 →
    (if bitOf (arg c 1) 63 then (snapSink s (job s (argN c 0)).owner (fld (arg c 1) 57 48)).isSome = true
     else (let len := snapBytes s (argN c 0) (jobPages s (argN c 0));
       inWindow (fld (arg c 1) 47 0) len = true ∧ ∀ q ∈ pagesOf (fld (arg c 1) 47 0) len,
         ownValid (ownEntry s q) = true ∧ ownOwner (ownEntry s q) = (job s (argN c 0)).owner ∧
         ownLoc (ownEntry s q) = 2 ∧ ownShared (ownEntry s q) = true)) →
    let a := modJob s (argN c 0) fun j => { j with snap := some {
      target := fld (arg c 1) 47 0, peer := if bitOf (arg c 1) 63 then some (fld (arg c 1) 57 48) else none,
      taken := none, total := (jobPages s (argN c 0)).length, copied := 0 } }
    exec (.snapshotBegin c) s = .next (answered 0x185 2 c
      (if atBoundaryHold (job s (argN c 0)) then takeSnapshot a (argN c 0) else a) [])) ∧
  (∀ (c : Cmd) (n : Snap) (s : State), Served 0x186 1 isSleeveUser c s → NamesJob s c (argN c 0) →
    (job s (argN c 0)).snap = some n → n.taken = none →
    exec (.snapshotStatus c) s = .next (answered 0x186 1 c s [0, w64 n.total])) ∧
  (∀ (c : Cmd) (n : Snap) (s : State), Served 0x186 1 isSleeveUser c s → NamesJob s c (argN c 0) →
    (job s (argN c 0)).snap = some n → n.taken.isSome = true →
    exec (.snapshotStatus c) s = .next (answered 0x186 1 c (takeFree s 2).2
      [w64 ((takeFree s 2).1.toNat % (n.total + 1)),
       w64 (n.total - (takeFree s 2).1.toNat % (n.total + 1))]))

/-- SLEEVE_CREATE that passes the checks of R210 makes the sleeve QUIESCED with its record; the first that fails gives
its status and nothing changes. SLEEVE_SET replaces the record; SLEEVE_HOST_RANGE sets one range of a QUIESCED sleeve.
SLEEVE_QUIESCE of a QUIESCED sleeve is OK at once, of another it holds the idle cadence jobs and waits with its limit,
100 ms for 0; QUIESCE_COMPLETE
with all conditions met makes the sleeve QUIESCED and answers OK; QUIESCE_TIMEOUT answers TIMEOUT to those whose limit has passed and
the sleeve stays QUIESCING. SLEEVE_RESUME makes it ACTIVE; SLEEVE_RESET and SLEEVE_REMOVE of a QUIESCED sleeve begin. -/
def Obligations.SleeveStates : Prop :=
  (∀ (c : Cmd) (s : State), Served 0x100 8 isMgmt c s → firstFail (createChecks s (c.args.take 8)) = none →
    exec (.sleeveCreate c) s = .next (answered 0x100 8 c (setSleeve s (fld (wd (c.args.take 8) 0) 63 58)
      { st := .quiesced, record := c.args.take 8 }) [])) ∧
  (∀ (c : Cmd) (st : Status) (s : State), Served 0x100 8 isMgmt c s →
    firstFail (createChecks s (c.args.take 8)) = some st →
    exec (.sleeveCreate c) s = .next (finish s c.src 0x100 st [])) ∧
  (∀ (c : Cmd) (k : Nat) (r : List W64) (s : State), Served 0x101 8 isMgmt c s → r = c.args.take 8 →
    k = fld (wd r 0) 63 58 → NamesSleeve s k → recordBad s r = false →
    fld (wd r 0) 39 20 = fld (wd (sleeve s k).record 0) 39 20 →
    (r.drop 2).take 4 = ((sleeve s k).record.drop 2).take 4 → heldPages (sleeve s k) 0 ≤ fld (wd r 1) 63 40 →
    heldPages (sleeve s k) 1 ≤ fld (wd r 1) 39 16 → quotasExceed s k r = false →
    exec (.sleeveSet c) s = .next (answered 0x101 8 c (setSleeve s k { sleeve s k with record := r }) [])) ∧
  (∀ (c : Cmd) (s : State), Served 0x102 4 isMgmt c s → NamesSleeve s (argN c 0) → argN c 1 ≤ 7 →
    argN c 2 % 4096 = 0 → argN c 3 % 4096 = 0 → argN c 2 + argN c 3 ≤ 2 ^ 64 →
    rangesTotal (sleeve s (argN c 0)) (argN c 1) (argN c 3) ≤ 2 ^ 38 → (sleeve s (argN c 0)).st = .quiesced →
    exec (.sleeveHostRange c) s = .next (answered 0x102 4 c (modSleeve s (argN c 0) fun v => { v with
      ranges := tset (0, 0) v.ranges (argN c 1) (argN c 2, argN c 3) }) [])) ∧
  (∀ (c : Cmd) (s : State), Served 0x103 2 isMgmt c s → NamesSleeve s (argN c 0) → argN c 1 ≤ 1000 →
    (sleeve s (argN c 0)).st = .quiesced → exec (.sleeveQuiesce c) s = .next (answered 0x103 2 c s [])) ∧
  (∀ (c : Cmd) (s : State), Served 0x103 2 isMgmt c s → NamesSleeve s (argN c 0) → argN c 1 ≤ 1000 →
    (sleeve s (argN c 0)).st = .active ∨ (sleeve s (argN c 0)).st = .quiescing →
    exec (.sleeveQuiesce c) s = .next (holdStanding (modSleeve (journal s c.src 0x103) (argN c 0) fun v => { v with
      st := .quiescing, quiescers := v.quiescers ++ [(c.src, now s + usTicks (1000 * if argN c 1 = 0 then 100 else argN c 1))] })
      (argN c 0))) ∧
  (∀ (k : Nat) (s : State), (sleeve s k).st = .quiescing → quiesceDone s k = true →
    exec (.quiesceComplete k) s = .next (endQuiesce
      (modSleeve (emit s (.orderingRead k (pasidOf s k))) k fun v => { v with st := .quiesced }) k .ok)) ∧
  (∀ (k : Nat) (s : State), (sleeve s k).st = .quiescing →
    exec (.quiesceTimeout k) s = .next (expireQuiesce s k)) ∧
  (∀ (k : Nat) (s : State), (sleeve s k).st = .quiescing → (∀ w ∈ (sleeve s k).quiescers, now s < w.2) →
    Completes (.quiesceTimeout k) s fun t => (sleeve t k).st = .quiescing ∧
      (sleeve t k).quiescers = (sleeve s k).quiescers ∧ t.jobs = s.jobs ∧ t.pkg = s.pkg ∧ t.mgt = s.mgt) ∧
  (∀ (k : Nat) (w : Src × Nat) (s : State), (sleeve s k).st = .quiescing → (sleeve s k).quiescers = [w] →
    w.2 ≤ now s → exec (.quiesceTimeout k) s = .next (finishLater
      (modSleeve s k fun v => { v with quiescers := [] }) w.1 .timeout [])) ∧
  (∀ (c : Cmd) (s : State), Served 0x104 1 isMgmt c s → NamesSleeve s (argN c 0) →
    queuesCovered (sleeve s (argN c 0)) = true → (sleeve s (argN c 0)).st ≠ .resetting →
    (sleeve s (argN c 0)).st ≠ .removing →
    exec (.sleeveResume c) s = .next (answered 0x104 1 c (releaseSleeve (modSleeve (endQuiesce s (argN c 0) .busy)
      (argN c 0) fun v => { v with st := .active, queueFault := false }) (argN c 0) .quiesce) [])) ∧
  (∀ (c : Cmd) (s : State), Served 0x105 2 isMgmt c s → NamesSleeve s (argN c 0) → argN c 1 ≤ 1 →
    (sleeve s (argN c 0)).st = .quiesced ∨ argN c 1 = 1 →
    exec (.sleeveReset c) s = .next (sleeveResetOp (journal s c.src 0x105) (argN c 0) .ok (some c.src))) ∧
  (∀ (c : Cmd) (s : State), Served 0x106 2 isMgmt c s → NamesSleeve s (argN c 0) → argN c 1 ≤ 1 →
    (sleeve s (argN c 0)).st = .quiesced ∨ argN c 1 = 1 →
    let a := modSleeve (giveWay (journal s c.src 0x106) (argN c 0)) (argN c 0) fun v => { v with
      st := .removing, removing := some c.src }
    exec (.sleeveRemove c) s = .next (settleSleeve
      ((liveJobs a (argN c 0)).foldl (fun s h => beginTeardown s h 0 2) a) (argN c 0)))

/-- SLEEVE_STATUS answers state, record and holdings. PAGES_ALLOC within the quota takes the pages and writes their
numbers at the list address; PAGES_FREE of sleeve pages that no unfinished job's lists name drops them. Dirty logging starts with a clear bitmap and
clean pages, is read and cleared, and stops with its pages freed; while it is on, a host write within a 4 KiB page sets its bit in the bitmap pages. SLEEVE_EXPORT writes the record of a QUIESCED sleeve;
SLEEVE_IMPORT makes the sleeve at the same page numbers. SLEEVE_ACCOUNT_READ answers the accounting record, for sleeve 0
the slot jobs by cell. -/
def Obligations.SleeveHoldings : Prop :=
  (∀ (c : Cmd) (s : State), Served 0x107 1 isSleeveUser c s → NamesSleeve s (argN c 0) →
    ownOnly (partyOf c.src) (argN c 0) = false →
    let k := argN c 0
    let v := sleeve s k
    exec (.sleeveStatus c) s = .next (answered 0x107 1 c s ([w64 (sleeveCode v.st)] ++
      (List.range 8).map (fun i => wd v.record i) ++ [w64 (heldPages v 0), w64 (heldPages v 1),
       w64 ((s.jobs.filter fun e => e.2.owner == k).map fun e => (jobSlots s e.1).length).sum,
       w64 (s.jobs.filter fun e => e.2.owner == k && e.2.st != .free).length]))) ∧
  (∀ (c : Cmd) (ps : List Nat) (s t u : State), Served 0x108 5 isSleeveUser c s → NamesSleeve s (argN c 0) →
    ownOnly (partyOf c.src) (argN c 0) = false → argN c 2 ≤ 1 → argN c 3 ≤ 15 →
    heldPages (sleeve s (argN c 0)) (argN c 2) + argN c 1 ≤ quota (sleeve s (argN c 0)) (argN c 2) →
    checkArg s (partyOf c.src) .wr (arg c 4) (8 * argN c 1) = none →
    takePages s (argN c 0) none (argN c 2) (argN c 3) (argN c 1) = some (t, ps) →
    writeArg t (partyOf c.src) (arg c 4) (ps.flatMap (leBytes 8)) = .ok u →
    exec (.pagesAlloc c) s = .next (answered 0x108 5 c u [])) ∧
  (∀ (c : Cmd) (bs : List Byte) (s : State), Served 0x109 3 isSleeveUser c s → NamesSleeve s (argN c 0) →
    ownOnly (partyOf c.src) (argN c 0) = false →
    readArg s (partyOf c.src) c.hostData (arg c 2) (8 * argN c 1) = .ok bs →
    let ps := (wordsOf (argN c 1) bs).map BitVec.toNat
    (∀ q ∈ ps, pageInUse s (argN c 0) q = false ∧ isSleevePage (sleeve s (argN c 0)) q = true) →
    exec (.pagesFree c) s = .next (answered 0x109 3 c
      (dropPages (argRead s (partyOf c.src) (arg c 2) (8 * argN c 1)) (argN c 0) ps) [])) ∧
  (∀ (c : Cmd) (ps : List Nat) (s t : State), Served 0x10A 1 isMgmt c s → NamesSleeve s (argN c 0) →
    takePages s (argN c 0) none 1 8 (bitmapNeed (sleeve s (argN c 0))) = some (t, ps) →
    exec (.sleeveDirtyStart c) s = .next (answered 0x10A 1 c (dirtyStart t (argN c 0) ps) [])) ∧
  (∀ (c : Cmd) (s u : State), Served 0x10B 5 isMgmt c s → NamesSleeve s (argN c 0) →
    let k := argN c 0
    let v := sleeve s k
    v.dirtyOn = true → argN c 2 ≤ 512 → argN c 1 + argN c 2 ≤ bitmapWords v → bitmapBad s v (argN c 1) (argN c 2) = false →
    let ps := dirtyPages s k (argN c 4)
    writeArg (clearDirty (clearBitmap s k (argN c 1) (argN c 2)) ps) (partyOf c.src) (arg c 3) (ps.flatMap (leBytes 8)) = .ok u →
    exec (.sleeveDirtyRead c) s = .next (answered 0x10B 5 c (emit u (.orderingRead k (pasidOf u k)))
      ((List.range (argN c 2)).map (fun i => bitmapWord s v (argN c 1 + i)) ++ [w64 ps.length]))) ∧
  (∀ (k addr : Nat) (bytes : List Byte) (s : State), Memory.wf s.pkg.mem = true → s.pkg.eccBad = [] →
    let v := sleeve s k
    let o := rangeOffset v addr
    v.dirtyOn = true → bytes ≠ [] → (o + bytes.length - 1) / 4096 = o / 4096 → o / 262144 / 8192 < v.bitmapPages.length →
    bitOf (bitmapWord (hostWrite s k addr bytes) v (o / 262144)) (o / 4096 % 64) = true) ∧
  (∀ (c : Cmd) (s : State), Served 0x10C 1 isMgmt c s → NamesSleeve s (argN c 0) →
    exec (.sleeveDirtyStop c) s = .next (answered 0x10C 1 c (modSleeve
      (dropPages s (argN c 0) (sleeve s (argN c 0)).bitmapPages) (argN c 0) fun v => { v with
        dirtyOn := false, bitmapPages := [] }) [])) ∧
  (∀ (c : Cmd) (s u : State), Served 0x10D 2 isMgmt c s → NamesSleeve s (argN c 0) →
    (sleeve s (argN c 0)).st = .quiesced →
    writeArg s (partyOf c.src) (arg c 1) (exportBytes (sleeve s (argN c 0))) = .ok u →
    exec (.sleeveExport c) s = .next (answered 0x10D 2 c u [])) ∧
  (∀ (c : Cmd) (b0 bs : List Byte) (s u : State), Served 0x10E 1 isMgmt c s →
    readArg s (partyOf c.src) c.hostData (arg c 0) 4096 = .ok b0 →
    readArg s (partyOf c.src) c.hostData (arg c 0)
      (cdiv (200 + 4 * leNat ((b0.drop 192).take 8)) 4096 * 4096) = .ok bs →
    firstFail (createChecks s (wordsOf 8 bs)) = none →
    let rs := (List.range 8).foldl (fun t i =>
      tset (0, 0) t i ((wd (wordsOf 2 (bs.drop (64 + 16 * i))) 0).toNat,
        (wd (wordsOf 2 (bs.drop (64 + 16 * i))) 1).toNat)) []
    rangesBad rs = false →
    importPages (setSleeve s (fld (wd (wordsOf 8 bs) 0) 63 58) {
      st := .quiesced, record := wordsOf 8 bs, ranges := rs })
      (fld (wd (wordsOf 8 bs) 0) 63 58) (exportPages bs) = some u →
    exec (.sleeveImport c) s = .next (answered 0x10E 1 c u [])) ∧
  (∀ (c : Cmd) (s : State), Served 0x10F 1 (fun p => isSleeveUser p || isRadio p) c s → NamesSleeve s (argN c 0) →
    ownOnly (partyOf c.src) (argN c 0) = false → isRadio (partyOf c.src) = false →
    exec (.sleeveAccountRead c) s = .next (answered 0x10F 1 c s (accountWords s (argN c 0)))) ∧
  (∀ (c : Cmd) (s : State), Served 0x10F 1 (fun p => isSleeveUser p || isRadio p) c s → argN c 0 = 0 →
    isMgmt (partyOf c.src) = true →
    exec (.sleeveAccountRead c) s = .next (answered 0x10F 1 c s ([w64 (radioAccount s).length] ++
      (radioAccount s).flatMap (fun c => [w64 c.1, c.2]) ++ [s.tim.raw])))

/-- takePages, which PAGES_ALLOC runs, gives whole what was asked for: n distinct pages of the kind, each valid, owned
by the sleeve alone, SHARED, with the permissions asked for, clean, and every byte of it reads 0; the pages that were
valid before keep their entries. -/
def Obligations.PagesAllocatedAreZeroed : Prop :=
  ∀ (s t : State) (k kind perms n : Nat) (ps : List Nat), 1 ≤ k → k ≤ 63 → kind ≤ 1 → perms ≤ 15 →
    (∀ g ∈ s.pkg.density, g ≤ 16) → takePages s k none kind perms n = some (t, ps) →
    ps.length = n ∧ ps.Nodup ∧
    (∀ p ∈ ps, ownValid (ownEntry t p) = true ∧ ownOwner (ownEntry t p) = k ∧ ownShared (ownEntry t p) = true ∧
      ownLoc (ownEntry t p) = kind + 1 ∧ fld (ownEntry t p) 36 33 = perms ∧ ownDirty (ownEntry t p) = false ∧
      ∀ i < 65536, rdByte t.pkg.mem (windowKey t (p * 65536 + i)) = 0) ∧
    (∀ q ∉ ps, ownEntry t q = ownEntry s q)

/-- A doorbell write within its queue sets the index and nothing else of the sleeve; one beyond it sets DB_ERROR. A
read of STATE answers the flags and clears DB_ERROR; a read of FQ_LOST answers the count and clears it, SAT standing.
SUBMISSION_FETCH of a valid entry advances the FL8's index, accepts the command and runs the command its opcode names;
a fetch that the host aborts, or outside the sleeve's ranges, is a QUEUE_FAULT. -/
def Obligations.DoorbellsAndFetches : Prop :=
  (∀ (k : Nat) (v : W32) (s : State), doorbellUp s k = true → fld v 15 0 < qEntries (sleeve s k) 63 48 →
    Completes (.sqTailWrite k v) s fun t => sleeve t k = { sleeve s k with sqTail := fld v 15 0 } ∧
      (∀ j ≠ k, sleeve t j = sleeve s j) ∧ t.mgt = s.mgt ∧ t.out = s.out) ∧
  (∀ (k : Nat) (v : W32) (s : State), doorbellUp s k = true → qEntries (sleeve s k) 63 48 ≤ fld v 15 0 →
    Completes (.sqTailWrite k v) s fun t => sleeve t k = { sleeve s k with dbError := true } ∧
      (∀ j ≠ k, sleeve t j = sleeve s j)) ∧
  (∀ (k : Nat) (v : W32) (s : State), doorbellUp s k = true → fld v 15 0 < qEntries (sleeve s k) 47 32 →
    (sleeve s k).backlog = [] →
    Completes (.cqHeadWrite k v) s fun t => sleeve t k = { sleeve s k with cqHead := fld v 15 0 } ∧
      (∀ j ≠ k, sleeve t j = sleeve s j) ∧ t.out = s.out) ∧
  (∀ (k : Nat) (v : W32) (s : State), doorbellUp s k = true → fld v 15 0 < qEntries (sleeve s k) 47 32 →
    exec (.cqHeadWrite k v) s = .next (flushCq (modSleeve s k fun x => { x with cqHead := fld v 15 0 }) k)) ∧
  (∀ (k : Nat) (v : W32) (s : State), doorbellUp s k = true → fld v 15 0 < qEntries (sleeve s k) 31 16 →
    Completes (.fqHeadWrite k v) s fun t => sleeve t k = { sleeve s k with fqHead := fld v 15 0 } ∧
      (∀ j ≠ k, sleeve t j = sleeve s j) ∧ t.out = s.out) ∧
  (∀ (k : Nat) (s : State), doorbellUp s k = true →
    Completes (.doorbellStateRead k) s fun t =>
      t.out = .readValue (0x40000 + 0x1000 * k + 0xC) (doorbellState (sleeve s k)) :: s.out ∧
      sleeve t k = { sleeve s k with dbError := false } ∧ (∀ j ≠ k, sleeve t j = sleeve s j)) ∧
  (∀ (k : Nat) (s : State), doorbellUp s k = true →
    Completes (.fqLostRead k) s fun t =>
      t.out = .readValue (0x40000 + 0x1000 * k + 0x10) (sleeve s k).fqLost.count :: s.out ∧
      sleeve t k = { sleeve s k with fqLost := { (sleeve s k).fqLost with count := 0 } } ∧
      (∀ j ≠ k, sleeve t j = sleeve s j)) ∧
  (∀ (k : Nat) (e : List W64) (data : List Byte) (s : State), fetches s k = true → hostReachable s = true →
    inHostRange (sleeve s k) ((wd (sleeve s k).record 2).toNat + 128 * (sleeve s k).sqHead) 128 = true →
    let a := hostRead (modSleeve s k fun v => { v with sqHead := (v.sqHead + 1) % qEntries v 63 48 }) k
      ((wd (sleeve s k).record 2).toNat + 128 * (sleeve s k).sqHead) 128
    let src := Src.subq k (fld (wd e 0) 31 0)
    exec (.submissionFetch k (some e) data) s = runCommand (fld (wd e 0) 63 48)
      { src := src, args := (List.range 15).map fun i => wd e (i + 1), hostData := data }
      { a with mgt := { a.mgt with accepted := a.mgt.accepted ++
        [{ src := src, opcode := fld (wd e 0) 63 48, raw := now s }] } }) ∧
  (∀ (k : Nat) (e : List W64) (data : List Byte) (s : State), fetches s k = true → hostReachable s = true →
    inHostRange (sleeve s k) ((wd (sleeve s k).record 2).toNat + 128 * (sleeve s k).sqHead) 128 = true →
    ∃ t, exec (.submissionFetch k (some e) data) s = .next t) ∧
  (∀ (k : Nat) (data : List Byte) (s : State), fetches s k = true →
    exec (.submissionFetch k none data) s = .next (queueFault s k))

/-- RING_TAIL_WRITE of an index within the ring sets TAIL of that ring alone. A register write by Tacor goes to the die
and offset its address names; a write of the host goes to its BAR0 offset; W1C takes LOG_LOST's SAT away where the bit
is written 1; a manager register takes its field; a base that is not 4 KiB aligned is a reserved encoding and leaves the
register as it is. A host core's write of a register it does not reach faults its context with DENIED. -/
def Obligations.RegisterWritesTakeTheirFields : Prop :=
  (∀ (e i : Nat) (v : W32) (s : State), Up s → e ≤ 15 → i ≤ 4 → fld v 11 0 ≤ (slot s e i).fring.entries →
    Completes (.ringTailWrite e i .feeder v) s fun t =>
      slot t e i = { slot s e i with fring := { (slot s e i).fring with tail := fld v 11 0 } } ∧
      (∀ e' i', (e', i') ≠ (e, i) → slot t e' i' = slot s e' i') ∧ t.pkg = s.pkg ∧ t.jobs = s.jobs) ∧
  (∀ (e i : Nat) (v : W32) (s : State), Up s → e ≤ 15 → i ≤ 4 → fld v 11 0 ≤ (slot s e i).dring.entries →
    Completes (.ringTailWrite e i .dma v) s fun t =>
      slot t e i = { slot s e i with dring := { (slot s e i).dring with tail := fld v 11 0 } }) ∧
  (∀ (e i : Nat) (v : W32) (s : State), Up s → e ≤ 15 → i ≤ 4 → fld v 11 0 ≤ (slot s e i).ering.entries →
    Completes (.ringTailWrite e i .element v) s fun t =>
      slot t e i = { slot s e i with ering := { (slot s e i).ering with tail := fld v 11 0 } }) ∧
  (∀ (addr : Nat) (v : W64) (s : State), Up s → inRegs addr = true →
    exec (.registerWrite .tacor addr v) s = .next (regionWrite s (regDie addr) (regOff addr) v)) ∧
  (∀ (addr : Nat) (v : W64) (s : State), Up s → exec (.registerWrite .bar0 addr v) s = .next (bar0Write s addr v)) ∧
  (∀ (v : W64) (s : State), Up s →
    Completes (.registerWrite .tacor (regBase + 6 * 0x10000000 + 0x800C) v) s fun t =>
      t.hlt.logLost.count = s.hlt.logLost.count ∧
      t.hlt.logLost.sat = (s.hlt.logLost.sat && !bitOf v 31) ∧ t.hlt.queues = s.hlt.queues ∧ t.mgt = s.mgt) ∧
  (∀ (v : W64) (s : State), Up s → s.mgt.cxlUp = true →
    Completes (.registerWrite .bar0 0x40010 v) s fun t => t.mgt.evtEntries = fld v 15 0 ∧
      t.mgt.evtBase = s.mgt.evtBase ∧ t.mgt.evtHead = s.mgt.evtHead ∧ t.mgt.slots = s.mgt.slots ∧ t.hlt = s.hlt) ∧
  (∀ (v : W64) (s : State), Up s → s.mgt.cxlUp = true → fld v 11 0 ≠ 0 →
    exec (.registerWrite .bar0 0x40008 v) s = .next s) ∧
  (∀ (v : W64) (s : State), Up s → s.mgt.cxlUp = true → fld v 11 0 = 0 →
    Completes (.registerWrite .bar0 0x40008 v) s fun t => t.mgt.evtBase = v ∧ t.mgt.evtEntries = s.mgt.evtEntries) ∧
  (∀ (k addr : Nat) (v : W64) (i : Issuer) (s : State), Up s → coreIssuer s k = some i → inRegs addr = true →
    coreRegWrite s k i.sleeve (regDie addr) (regOff addr) v = none →
    exec (.registerWrite (.hostCore k) addr v) s = .next (coreFault s k addr .denied)) ∧
  (∀ (addr : Nat) (v : W64) (s t : State), Up s → inRegs addr = true →
    coreRegWrite s 16 0 (regDie addr) (regOff addr) v = some t →
    exec (.registerWrite .radioFirmware addr v) s = .next t)

/-- HOST_CORE_ACCESS by a core that runs code: a load that passes the ownership check answers the bytes; a store that
passes writes them; an atomic answers the old word and stores the sum; one that the check denies faults the context with
DENIED; one that is stale is dropped and counted; one to a page in move waits; a load of an uncorrectable word raises the
error, the access fault and CHECK_FAILED; an address outside every region faults with DENIED. One that finds no tracker of
its sleeve's share waits. -/
def Obligations.HostCoreAccessesAreChecked : Prop :=
  (∀ (k addr n : Nat) (i : Issuer) (bs : List Byte) (s : State), coreIssuer s k = some i → inWindow addr n = true →
    coreTracker s k addr n = true →
    devRead s i addr n = .ok bs →
    exec (.hostCoreAccess k addr (.load n)) s = .next (emit s (.readValue addr (leNat bs)))) ∧
  (∀ (k addr : Nat) (i : Issuer) (data : List Byte) (s t : State), coreIssuer s k = some i →
    inWindow addr data.length = true → coreTracker s k addr data.length = true →
    devWrite s i .wr addr data = .ok t →
    exec (.hostCoreAccess k addr (.store data)) s = .next t) ∧
  (∀ (k addr : Nat) (v : W64) (i : Issuer) (s : State), coreIssuer s k = some i → inWindow addr 8 = true →
    coreTracker s k addr 8 = true → checkRange s i .at addr 8 = none → windowEcc s addr 8 = false →
    exec (.hostCoreAccess k addr (.atomicAdd v)) s = .next (windowWrite
      (emit s (.readValue addr (leW64 (windowRead s addr 8)).toNat)) addr
        (leBytes 8 (leW64 (windowRead s addr 8) + v).toNat))) ∧
  (∀ (k addr n : Nat) (i : Issuer) (s : State), coreIssuer s k = some i → inWindow addr n = true →
    coreTracker s k addr n = true →
    devRead s i addr n = .error .denied →
    exec (.hostCoreAccess k addr (.load n)) s = .next (coreFault s k addr .denied)) ∧
  (∀ (k addr n : Nat) (i : Issuer) (s : State), coreIssuer s k = some i → inWindow addr n = true →
    coreTracker s k addr n = true →
    devRead s i addr n = .error .stale →
    exec (.hostCoreAccess k addr (.load n)) s = .next (countStale s)) ∧
  (∀ (k addr n : Nat) (i : Issuer) (s : State), coreIssuer s k = some i → inWindow addr n = true →
    coreTracker s k addr n = true →
    devRead s i addr n = .error .wait →
    exec (.hostCoreAccess k addr (.load n)) s = .next (park s addr n (.coreLoad k addr n))) ∧
  (∀ (k addr n : Nat) (i : Issuer) (s : State), coreIssuer s k = some i → inWindow addr n = true →
    coreTracker s k addr n = true →
    devRead s i addr n = .error .dataEcc →
    exec (.hostCoreAccess k addr (.load n)) s = .next (coreFault (emit (raise s
      { code := 0x006, severity := 2, sleeve := some (hostCore s k).sleeve, die := unitDie (96 + k), unit := 96 + k
        status := statusCode .checkFailed, d0 := addr, d1 := (Config.readerKind 1).toNat }) (.notice "access fault" k addr)) k addr .checkFailed)) ∧
  (∀ (k addr n : Nat) (i : Issuer) (s : State), coreIssuer s k = some i → inWindow addr n = false →
    inRegs addr = false → firmwareCore s k = false →
    exec (.hostCoreAccess k addr (.load n)) s = .next (coreFault s k addr .denied)) ∧
  (∀ (k addr : Nat) (a : CoreAccess) (s : State), coreTracker s k addr (accessLen a) = false →
    exec (.hostCoreAccess k addr a) s = .next s)

/-- A store of a host core that passes the check, on memory without uncorrectable words, leaves every byte outside the
page parts it covers as it was, sets DIRTY and no other bit of the pages' entries, and leaves jobs, sleeves, engines and
every register as they were; a store within one page reads back. -/
def Obligations.HostCoreStoreFrame : Prop :=
  ∀ (k addr : Nat) (i : Issuer) (data : List Byte) (s t : State), coreIssuer s k = some i →
    inWindow addr data.length = true → coreTracker s k addr data.length = true →
    devWrite s i .wr addr data = .ok t → s.pkg.eccBad = [] →
    exec (.hostCoreAccess k addr (.store data)) s = .next t ∧
    (∀ key, (∀ p ∈ pageParts addr data.length, key < windowKey s p.1 ∨ windowKey s p.1 + p.2.2 ≤ key) →
      rdByte t.pkg.mem key = rdByte s.pkg.mem key) ∧
    (data ≠ [] → addr % 65536 + data.length ≤ 65536 → windowRead t addr data.length = data) ∧
    (∀ q, ownEntry t q = ownEntry s q ∨ ownEntry t q = ownEntry s q ||| (1 <<< 32)) ∧
    t.eng = s.eng ∧ t.jobs = s.jobs ∧ t.slv = s.slv ∧ t.lin = s.lin ∧ t.hlt = s.hlt ∧ t.nvm = s.nvm ∧
    t.boot = s.boot ∧ t.pwr = s.pwr ∧ t.rad = s.rad ∧ t.fh = s.fh ∧ t.tim = s.tim ∧ t.fab = s.fab

/-- CELL_CONFIG of an ABSENT or, on the same die, a CONFIGURED cell with a good record that fits makes it CONFIGURED with
that record; a bad record is BAD_FIELD.
CELL_START of a CONFIGURED cell that fits the limits schedules its frame; CELL_STOP of a RUNNING cell makes it STOPPING;
CELL_MOVE_OUT makes it MOVING_OUT with its frame and address; CELL_MOVE_IN makes an ABSENT cell CONFIGURED with its
frame and opens fabric job 0. At its frame a cell starts while time is locked, and a STOPPING cell stops. A carry
without an address ends at once; a carry that lands closes job 0, and one that fails its CRC adds nothing;
MOVE_JOB0_CLOSE closes job 0. -/
def Obligations.CellsMove : Prop :=
  (∀ (c : Cmd) (s : State), Served 0x200 8 isMgmtRadio c s → cellBad (recordArgs c) = false →
    (cell s (cCell (recordArgs c))).st = .absent ∨ (cell s (cCell (recordArgs c))).st = .configured ∧
      cDie (cell s (cCell (recordArgs c))).record = cDie (recordArgs c) → harqFits s (recordArgs c) = true →
    (cell s (cCell (recordArgs c))).start = none ∨ cellAdmits s (recordArgs c) = true →
    exec (.cellConfig c) s = .next (answered 0x200 8 c (modCell s (cCell (recordArgs c)) fun x => { x with
      st := .configured, record := recordArgs c, ever := true }) [])) ∧
  (∀ (c : Cmd) (s : State), Served 0x200 8 isMgmtRadio c s → cellBad (recordArgs c) = true →
    exec (.cellConfig c) s = .next (finish s c.src 0x200 .badField [])) ∧
  (∀ (c : Cmd) (s : State), Served 0x201 2 isMgmtRadio c s → noCells s = false → timeLocked s = true →
    argN c 0 ≤ 255 → (cell s (argN c 0)).st = .configured → (cell s (argN c 0)).start = none →
    frameOk s (argN c 1) = true → cellAdmits s (cell s (argN c 0)).record = true →
    exec (.cellStart c) s = .next (answered 0x201 2 c
      (modCell s (argN c 0) fun x => { x with start := some (argN c 1) }) [])) ∧
  (∀ (c : Cmd) (s : State), Served 0x202 2 isMgmtRadio c s → argN c 0 ≤ 255 →
    (cell s (argN c 0)).st = .running → frameOk s (argN c 1) = true →
    exec (.cellStop c) s = .next (answered 0x202 2 c
      (modCell s (argN c 0) fun x => { x with st := .stopping, stop := some (argN c 1) }) [])) ∧
  (∀ (c : Cmd) (s : State), Served 0x203 3 isMgmtRadio c s → argN c 0 ≤ 255 → frameNow s + 3 ≤ argN c 1 →
    argN c 2 < 2 ^ 58 → (cell s (argN c 0)).st = .running →
    exec (.cellMoveOut c) s = .next (answered 0x203 3 c (modCell s (argN c 0) fun x => { x with
      st := .movingOut, moveOut := some (argN c 1), moveTo := argN c 2, carry := 0 }) [])) ∧
  (∀ (c : Cmd) (s : State), Served 0x204 9 isMgmtRadio c s → noCells s = false → timeLocked s = true →
    cellBad (recordArgs c) = false → frameNow s + 5 ≤ argN c 8 →
    (cell s (cCell (recordArgs c))).st = .absent → cellAdmits s (recordArgs c) = true →
    harqFits s (recordArgs c) = true →
    exec (.cellMoveIn c) s = .next (answered 0x204 9 c (modCell s (cCell (recordArgs c)) fun x => { x with
      st := .configured, record := recordArgs c, ever := true, start := some (argN c 8), job0 := some (argN c 8)
      harq := [] }) [])) ∧
  (∀ (f : Nat) (s : State), exec (.cellFrameBoundary f) s = .next (frameBoundary f s)) ∧
  (∀ (f g c : Nat) (s : State), (cell s c).st = .configured → (cell s c).start = some g → g ≤ f →
    timeLocked s = true →
    cell (cellFrame s f c) c = { cell s c with st := .running, start := none }) ∧
  (∀ (f g c : Nat) (s : State), (cell s c).st = .stopping → (cell s c).stop = some g → g ≤ f →
    (cell (cellFrame s f c) c).st = .configured) ∧
  (∀ (c f : Nat) (s : State), (cell s c).st = .movingOut → (cell s c).carry = 0 →
    (cell s c).moveOut = some f → f ≤ frameNow s → (cell s c).moveTo = 0 →
    ((radDie s (cDie (cell s c).record)).jobs.any fun j => j.cell == c) = false →
    exec (.harqCarrySend c) s = .next (endCarry s c)) ∧
  (∀ (c f addr : Nat) (bs : List Byte) (s : State), (cell s c).job0 = some f → (cell s c).harq = [] →
    carriedBytes s c addr = .ok bs →
    Completes (.harqCarryLanded c true addr) s fun t => (cell t c).job0 = none ∧
      (cell t c).harq = harqEntries (slotNow s) bs.length bs ∧
      (cell t c).st = (cell s c).st ∧ ∀ x ≠ c, cell t x = cell s x) ∧
  (∀ (c f addr : Nat) (b : Bar) (s : State), (cell s c).job0 = some f → carriedBytes s c addr = .error b → b ≠ .wait →
    Completes (.harqCarryLanded c true addr) s fun t => cell t c = { cell s c with job0 := none } ∧
      ∀ x ≠ c, cell t x = cell s x) ∧
  (∀ (c addr : Nat) (s : State), exec (.harqCarryLanded c false addr) s = .next s) ∧
  (∀ (c : Nat) (s : State),
    Completes (.moveJob0Close c) s fun t => cell t c = { cell s c with job0 := none } ∧
      ∀ x ≠ c, cell t x = cell s x)

/-- LEASE_PLAN that passes the checks of R255 replaces the plan of its period and ends PLAN_REPEAT; the first check that
fails gives its status. LEASE_CEILING_SET keeps the mask of now, sets the new one for the first period without a plan,
and repeats the cadence test (which jobs give way: log entry 29). A period begins under its plan; the check point fixes
the period's plan; without Tacor under PLAN_REPEAT the lease ends at the next period. RADIO_STATUS answers a die's
registers, cells and plans. -/
def Obligations.LeasesRun : Prop :=
  (∀ (c : Cmd) (r : List W64) (s : State),
    Served 0x205 (if argSpace c.src ≥ 32 then 32 else 1) isMgmtRadio c s →
    planRecord s (partyOf c.src) c = .ok r → firstFail (planChecks s r) = none →
    exec (.leasePlan c) s = .next (answered 0x205 (if argSpace c.src ≥ 32 then 32 else 1) c { s with rad := { s.rad with
      plans := s.rad.plans.filter (·.period != lpPeriod r) ++
        [{ period := lpPeriod r, record := r, fixed := diff32 (lpPeriod r) (frameNow s) ≤ 2 }]
      planRepeat := false } } [])) ∧
  (∀ (c : Cmd) (r : List W64) (st : Status) (s : State),
    Served 0x205 (if argSpace c.src ≥ 32 then 32 else 1) isMgmtRadio c s →
    planRecord s (partyOf c.src) c = .ok r → firstFail (planChecks s r) = some st →
    exec (.leasePlan c) s = .next (finish s c.src 0x205 st [])) ∧
  (∀ (c : Cmd) (s : State), Served 0x206 1 isMgmt c s → argN c 0 < 65536 → maskCount (argN c 0) ≤ 12 →
    exec (.leaseCeilingSet c) s = .next (answered 0x206 1 c (retestCadence { s with rad := { s.rad with
      mask := maskAt s (frameNow s)
      maskNext := some (firstFreePeriod s s.rad.plans.length (frameNow s + 1), argN c 0) } }) [])) ∧
  (∀ (c : Cmd) (s : State), Served 0x207 1 isMgmtRadio c s → argN c 0 ≤ 1 →
    let d := argN c 0
    let cs := s.rad.cells.filter fun e => e.2.st != .absent && cDie e.2.record == d
    exec (.radioStatus c) s = .next (answered 0x207 1 c s ([(eqpStatus s d).setWidth 64,
      (eqpCapacity s d).setWidth 64, w64 cs.length] ++ cs.map (fun e => pack 64 [(20, cPoints e.2.record),
        (16, cPort e.2.record), (12, cType e.2.record), (8, cellCode e.2.st), (0, e.1)]) ++
      [w64 (plansHeld s).length] ++ (plansHeld s).flatMap fun p => (List.range 32).map (wd p.record)))) ∧
  (∀ (p : Nat) (s : State), s.rad.leaseEnds = false → exec (.leasePeriodStart p) s = .next (startPeriod s p)) ∧
  (∀ (p : Nat) (s : State), s.rad.leaseEnds = true → s.mgt.tacor = 1 →
    exec (.leasePeriodStart p) s = .next (endLease s)) ∧
  (∀ (p : Nat) (s : State), s.rad.leaseEnds = true → s.mgt.tacor ≠ 1 →
    Completes (.leasePeriodStart p) s fun t => t.rad.current = none ∧ t.rad.plans = [] ∧ t.eng = s.eng) ∧
  (∀ (p : Nat) (s : State), (startPeriod s p).rad.current = periodPlan s p ∧
    (startPeriod s p).rad.cells = s.rad.cells ∧ (startPeriod s p).jobs = s.jobs ∧ (startPeriod s p).pkg = s.pkg) ∧
  (∀ (p : Nat) (s : State),
    Completes (.leaseCheckPoint p) s fun t => t.rad.plans = s.rad.plans.map (fun q =>
        if q.period == p then { q with fixed := true } else q) ∧
      t.rad.current = s.rad.current ∧ t.rad.cells = s.rad.cells ∧ t.eng = s.eng) ∧
  (∀ s : State, s.rad.planRepeat = true → s.mgt.tacor = 2 →
    2 * ticksPerS ≤ since s s.rad.repeatSince → Completes .leaseEndNoTacor s fun t => t.rad.leaseEnds = true ∧ t.rad.current = s.rad.current ∧ t.eng = s.eng)

/-- A slot-job TAIL that would not pass HEAD is taken: a fenced radio function fetches nothing, another fetches in ring
order; a TAIL that would pass HEAD is ignored and counted. A report HEAD within the ring frees its entries and writes
the buffered reports. A slot boundary on a die without cells, with no group switched, takes up the units in service,
empties the iteration pools, and adds the plan to each target's list in ascending PLAN_SEQ; a plan of more than 480,000
beats for a core, or of a fenced core, is none. The field of EVM and SINR is 10 log10 of the
measured ratio in 0.1 dB, rounded half-up and clamped. -/
def Obligations.SlotJobsRun : Prop :=
  (∀ (low high : Int) (a b : Nat), low ≤ high → 0 < a → 0 < b →
    dbTenths low high a b = max low (min high ⌊10 * (10 * Real.logb 10 ((a : ℝ) / (b : ℝ))) + 1 / 2⌋)) ∧
  (∀ (d : Nat) (v : W32) (s : State), d ≤ 1 → fld v 11 0 ≤ (radDie s d).sj.entries →
    let n := (radDie s d).sj.entries + 1
    ((radDie s d).sj.tail + n - (radDie s d).sj.head) % n + (fld v 11 0 + n - (radDie s d).sj.tail) % n < n →
    let a := modRadDie s d fun x => { x with sj := { x.sj with tail := fld v 11 0 },
                                             arrivals := x.arrivals ++ List.replicate
                                               ((fld v 11 0 + n - (radDie s d).sj.tail) % n) (networkTime s) }
    exec (.eqpSjTailWrite d v) s = .next (if (radDie s d).fenced then a else fetchSlotJobs d n a)) ∧
  (∀ (d : Nat) (v : W32) (s : State), d ≤ 1 → (radDie s d).sj.entries < fld v 11 0 →
    (radDie s d).overrun < 0x7FFF →
    Completes (.eqpSjTailWrite d v) s fun t =>
      radDie t d = { radDie s d with overrun := (radDie s d).overrun + 1 } ∧ t.pkg = s.pkg) ∧
  (∀ (d : Nat) (v : W32) (s : State), d ≤ 1 → fld v 11 0 ≤ (radDie s d).rpt.entries →
    exec (.eqpRptHeadWrite d v) s = .next (drainReports d (radDie s d).buffer.length
      (modRadDie s d fun x => { x with rpt := { x.rpt with head := fld v 11 0 } }))) ∧
  (∀ (d : Nat) (v : W32) (s : State), d ≤ 1 → fld v 11 0 ≤ (radDie s d).rpt.entries → (radDie s d).buffer = [] →
    Completes (.eqpRptHeadWrite d v) s fun t =>
      radDie t d = { radDie s d with rpt := { (radDie s d).rpt with head := fld v 11 0 } } ∧ t.pkg = s.pkg) ∧
  (∀ (d target : Nat) (l : List (Nat × Nat)) (s : State), d ≤ 1 → s.rad.cells = [] →
    (radDie s d).shed.isSome = true → (∀ e ∈ l, e.2 ∈ freeCores s d) →
    Completes (.slotBoundary d [] [] { lists := [(target, l)] } []) s fun t =>
      (radDie t d).pools = [] ∧ (radDie t d).cores = freeCores s d ∧
      tget [] (radDie t d).plan target = sortBy (fun a b => !b.before a)
        (tget [] (radDie s d).plan target ++ l.map fun y => { slot := slotNow s, seq := y.1, core := y.2 }) ∧
      (radDie t d).sc = (availUnits s d).1 ∧ (radDie t d).dec = (availUnits s d).2.1 ∧
      (radDie t d).enc = (availUnits s d).2.2 ∧ (radDie t d).jobs = (radDie s d).jobs ∧ t.pkg = s.pkg ∧
      t.rad.cores = s.rad.cores) ∧
  (∀ (d k b : Nat) (s : State), d ≤ 1 → s.rad.cells = [] → 480000 < b ∨ k ∉ freeCores s d →
    Completes (.slotBoundary d [] [] { beats := [(k, b)] } []) s fun t => (radDie t d).plan = (radDie s d).plan)

/-- An instruction that its core has not come to changes nothing. For each of the 35 instructions that a core has come
to: a corrected ECC error counts and the instruction runs as without it; a replay that fails again counts, strikes the
core and aborts the task, which owes a rerun; an uncorrectable word in the instruction store is recorded, also as a radio firmware
fault, aborts the task and takes the
core out of the plan. A word whose operands break a constraint does not run: an odd register pair, SH above 39 or
with FP, POLY, QM or COND 6 and 7 are radio firmware faults. -/
def Obligations.CoreInstructionsAreChecked : Prop :=
  (∀ (c : Instr) (k : Nat) (compat : Bool) (w : Option W32) (s : State),
    coreInstr c = some (k, compat, w) → ¬ CoreAt s k compat w → exec c s = .next s) ∧
  (∀ (c : Instr) (k : Nat) (compat : Bool) (w : Option W32) (s : State),
    coreInstr c = some (k, compat, w) → CoreAt s k compat w →
    exec (setCheck .corrected c) s = exec (setCheck .ok c) (countCorrected s k) ∧
    exec (setCheck .replayFails c) s =
      .next (abortTask (strike (countMismatch s k) (32 + k) 3 0xFFFF 0 0 true) k true) ∧
    exec (setCheck .storeEcc c) s = .next (modSigCore (coreEcc (fwRecord s k) k
      (0x030000000000 + (4 + coreDie k) * 0x10000000 + 0x40000 + 0x8000 * (k % 32) + 4 * (sigCore s k).pc)) k
        fun x => { x with storeBad := true })) ∧
  (∀ (k r a b n : Nat) (x y : Bool) (imm : BitVec 14) (s : State), r % 2 = 1 →
    (CoreAt s k false (coreInstr (.tapmov k a r b n x y .ok)).get!.2.2 →
      exec (.tapmov k a r b n x y .ok) s = .next (firmwareFault s k)) ∧
    (CoreAt s k false (encMem2 0x24 r a b x imm) →
      exec (.vld2 k r a b x imm .ok) s = .next (firmwareFault s k)) ∧
    (CoreAt s k false (encMem2 0x25 r a b x imm) →
      exec (.vst2 k r a b x imm .ok) s = .next (firmwareFault s k)) ∧
    (CoreAt s k false (coreInstr (.vgold k a r .ok)).get!.2.2 →
      exec (.vgold k a r .ok) s = .next (firmwareFault s k))) ∧
  (∀ (k a b sh : Nat) (clr fp : Bool) (s : State), 39 < sh ∨ (fp = true ∧ sh ≠ 0) →
    CoreAt s k false (coreInstr (.vext k a b sh clr fp .ok)).get!.2.2 →
    exec (.vext k a b sh clr fp .ok) s = .next (firmwareFault s k)) ∧
  (∀ (k a b c n : Nat) (s : State), 5 < c →
    (CoreAt s k false (coreInstr (.vcrc k a b c n .ok)).get!.2.2 →
      exec (.vcrc k a b c n .ok) s = .next (firmwareFault s k)) ∧
    (CoreAt s k false (coreInstr (.vqam k a b c .ok)).get!.2.2 →
      exec (.vqam k a b c .ok) s = .next (firmwareFault s k)) ∧
    (CoreAt s k false (coreInstr (.scmp k c a b .ok)).get!.2.2 →
      exec (.scmp k c a b .ok) s = .next (firmwareFault s k)))

/-- A vector instruction that its core has come to retires in its beats and writes its lanes: VADD, VSUB and VMUL
saturated or rounded, VCONJ, VPOW, VMAX, VMIN, VSEL, VPERM, VSCR in its LLR and complex modes, VSAT8, VLLRADD, VMAC,
TAPMOV with its shift of the delay line, VEXT with its flag and CLR. Lane i of a written vector is the value that the
instruction gives for lane i, and nothing but the registers, flags and counters of the core changes. -/
def Obligations.VectorInstructionsRun : Prop :=
  (∀ (k vd va vb : Nat) (fp : Bool) (s : State), CoreAt s k false (encVvv 0x01 vd va vb fp) →
    exec (.vadd k vd va vb fp .ok) s = .next (coreStep s k (if fp then 2 else 1) fun x => setV x vd (ofLanes fun i =>
      let a := lane (vReg x va) i
      let b := lane (vReg x vb) i
      if fp then cpxCode (toF16 (addV (reF a) (reF b))).1 (toF16 (addV (imF a) (imF b))).1
      else cpx (sat16 (reI a + reI b)) (sat16 (imI a + imI b))))) ∧
  (∀ (k vd va vb : Nat) (fp : Bool) (s : State), CoreAt s k false (encVvv 0x02 vd va vb fp) →
    exec (.vsub k vd va vb fp .ok) s = .next (coreStep s k (if fp then 2 else 1) fun x => setV x vd (ofLanes fun i =>
      let a := lane (vReg x va) i
      let b := lane (vReg x vb) i
      if fp then cpxCode (toF16 (subV (reF a) (reF b))).1 (toF16 (subV (imF a) (imF b))).1
      else cpx (sat16 (reI a - reI b)) (sat16 (imI a - imI b))))) ∧
  (∀ (k vd va vb : Nat) (fp : Bool) (s : State), CoreAt s k false (encVvv 0x03 vd va vb fp) →
    exec (.vmul k vd va vb fp .ok) s = .next (coreStep s k (if fp then 2 else 1) fun x => setV x vd (ofLanes fun i =>
      let a := lane (vReg x va) i
      let b := lane (vReg x vb) i
      if fp then cpxCode (toF16 (subV (mulV (reF a) (reF b)) (mulV (imF a) (imF b)))).1
        (toF16 (addV (mulV (reF a) (imF b)) (mulV (imF a) (reF b)))).1
      else cpx (sat16 (shiftHalfUp (reI a * reI b - imI a * imI b) 15))
        (sat16 (shiftHalfUp (reI a * imI b + imI a * reI b) 15))))) ∧
  (∀ (k vd va : Nat) (fp : Bool) (s : State),
    CoreAt s k false (encodeFields 0x04 [(21, 5, vd), (16, 5, va), (10, 1, b2n fp)]) →
    exec (.vconj k vd va fp .ok) s = .next (coreStep s k (if fp then 2 else 1) fun x => setV x vd (ofLanes fun i =>
      let a := lane (vReg x va) i
      if fp then cpxCode (toF16 (reF a)).1 (toF16 (imF a).negate).1 else cpx (reI a) (sat16 (-(imI a)))))) ∧
  (∀ (k vd va : Nat) (s : State), CoreAt s k false (encodeFields 0x05 [(21, 5, vd), (16, 5, va)]) →
    exec (.vpow k vd va .ok) s = .next (coreStep s k 1 fun x => setV x vd (ofLanes fun i =>
      BitVec.ofInt 32 (reI (lane (vReg x va) i) ^ 2 + imI (lane (vReg x va) i) ^ 2)))) ∧
  (∀ (k vd va vb : Nat) (s : State), (CoreAt s k false (encVvv 0x06 vd va vb false) →
    exec (.vmax k vd va vb false .ok) s = .next (coreStep s k 1 fun x => setV x vd (ofLanes fun i =>
      cpx (max (reI (lane (vReg x va) i)) (reI (lane (vReg x vb) i)))
        (max (imI (lane (vReg x va) i)) (imI (lane (vReg x vb) i)))))) ∧
    (CoreAt s k false (encVvv 0x06 vd va vb true) →
    exec (.vmax k vd va vb true .ok) s = .next (coreStep s k 2 fun x => setV x vd (ofLanes fun i =>
      cpxCode (toF16 (maxV (reF (lane (vReg x va) i)) (reF (lane (vReg x vb) i)))).1
        (toF16 (maxV (imF (lane (vReg x va) i)) (imF (lane (vReg x vb) i)))).1)))) ∧
  (∀ (k vd va vb : Nat) (s : State), (CoreAt s k false (encVvv 0x07 vd va vb false) →
    exec (.vmin k vd va vb false .ok) s = .next (coreStep s k 1 fun x => setV x vd (ofLanes fun i =>
      cpx (min (reI (lane (vReg x va) i)) (reI (lane (vReg x vb) i)))
        (min (imI (lane (vReg x va) i)) (imI (lane (vReg x vb) i)))))) ∧
    (CoreAt s k false (encVvv 0x07 vd va vb true) →
    exec (.vmin k vd va vb true .ok) s = .next (coreStep s k 2 fun x => setV x vd (ofLanes fun i =>
      cpxCode (toF16 (minV (reF (lane (vReg x va) i)) (reF (lane (vReg x vb) i)))).1
        (toF16 (minV (imF (lane (vReg x va) i)) (imF (lane (vReg x vb) i)))).1)))) ∧
  (∀ (k vd va vb sm : Nat) (s : State),
    CoreAt s k false (encodeFields 0x08 [(21, 5, vd), (16, 5, va), (11, 5, vb), (6, 5, sm)]) →
    exec (.vsel k vd va vb sm .ok) s = .next (coreStep s k 1 fun x => setV x vd (ofLanes fun i =>
      if bitOf (sReg x sm) i then lane (vReg x va) i else lane (vReg x vb) i))) ∧
  (∀ (k vd va vi : Nat) (s : State),
    CoreAt s k false (encodeFields 0x09 [(21, 5, vd), (16, 5, va), (11, 5, vi)]) →
    exec (.vperm k vd va vi .ok) s = .next (coreStep s k 1 fun x => setV x vd (ofLanes fun i =>
      lane (vReg x va) ((lane (vReg x vi) i).toNat % 16)))) ∧
  (∀ (k vd va vs : Nat) (s : State), (CoreAt s k false (coreInstr (.vscr k vd va vs true .ok)).get!.2.2 →
    exec (.vscr k vd va vs true .ok) s =
      .next (coreStep s k 1 fun x => setV x vd (vReg x va ^^^ vReg x vs))) ∧
    (CoreAt s k false (coreInstr (.vscr k vd va vs false .ok)).get!.2.2 →
     (∀ j < 64, vByte (vReg (sigCore s k) va) j ≠ 0x80) →
    exec (.vscr k vd va vs false .ok) s = .next (coreStep s k 1 fun x => setV x vd (ofBytes ((List.range 64).map
      fun j => if bitOf (vReg x vs) j then -(vByte (vReg x va) j) else vByte (vReg x va) j))))) ∧
  (∀ (k vd va vb sh : Nat) (s : State), CoreAt s k false (coreInstr (.vsat8 k vd va vb sh .ok)).get!.2.2 →
    exec (.vsat8 k vd va vb sh .ok) s = .next (coreStep s k 1 fun x => setV x vd (ofBytes ((List.range 64).map
      fun i => BitVec.ofInt 8 (sat127 (shiftHalfUp
        (if i < 32 then vHalf (vReg x va) i else vHalf (vReg x vb) (i - 32)) sh)))))) ∧
  (∀ (k vd va vb : Nat) (s : State), CoreAt s k false (coreInstr (.vllradd k vd va vb .ok)).get!.2.2 →
    exec (.vllradd k vd va vb .ok) s = .next (coreStep s k 1 fun x => setV x vd (ofBytes ((List.range 64).map
      fun i => BitVec.ofInt 8 (sat127 ((vByte (vReg x va) i).toInt + (vByte (vReg x vb) i).toInt)))))) ∧
  (∀ (k acc va vb : Nat) (conj neg fp : Bool) (s : State),
    CoreAt s k false (coreInstr (.vmac k acc va vb conj neg fp .ok)).get!.2.2 →
    exec (.vmac k acc va vb conj neg fp .ok) s = .next (coreStep s k (if fp then 2 else 1) fun x =>
      macAll x acc fp conj neg (lane (vReg x va)) (lane (vReg x vb)))) ∧
  (∀ (k acc vw vc tap : Nat) (conj fp : Bool) (s : State), vw % 2 = 0 →
    CoreAt s k false (coreInstr (.tapmov k acc vw vc tap conj fp .ok)).get!.2.2 →
    exec (.tapmov k acc vw vc tap conj fp .ok) s = .next (coreStep s k (if fp then 2 else 1) fun x =>
      setV (setV (macAll x acc fp conj false (fun _ => lane (vReg x vc) tap) (lane (vReg x vw)))
        vw (ofLanes fun i => if i = 0 then lane (vReg x (vw + 1)) 15 else lane (vReg x vw) (i - 1)))
        (vw + 1) (ofLanes fun i => if i = 0 then 0 else lane (vReg x (vw + 1)) (i - 1)))) ∧
  (∀ (k vd acc sh : Nat) (clr fp : Bool) (s : State), sh ≤ 39 → (fp = true → sh = 0) →
    CoreAt s k false (coreInstr (.vext k vd acc sh clr fp .ok)).get!.2.2 →
    exec (.vext k vd acc sh clr fp .ok) s = .next (coreStep s k (if fp then 2 else 1) fun x =>
      let r (i : Nat) := extractLane (accLane (accReg x acc) i) sh fp
      let y := { setV x vd (ofLanes fun i => (r i).1) with
        extSat := x.extSat || (List.range 16).any fun i => (r i).2 }
      if clr then setAcc y acc 0 else y)) ∧
  (∀ (f : Nat → W32) (i : Nat), i < 16 → lane (ofLanes f) i = f i) ∧
  (∀ (x : SigCore) (i j : Nat) (v : V512), vReg (setV x i v) j = if j = i then v else vReg x j) ∧
  (∀ (s : State) (k b : Nat) (f : SigCore → SigCore),
    (∀ j ≠ k, sigCore (coreStep s k b f) j = sigCore s j) ∧ (coreStep s k b f).pkg = s.pkg ∧
    (coreStep s k b f).jobs = s.jobs ∧ (coreStep s k b f).rad.dies = s.rad.dies ∧
    (coreStep s k b f).rad.cells = s.rad.cells ∧ (coreStep s k b f).lin = s.lin)

/-- SADD, SSUB, SLI, SMOVP and SCMP write their register or CMP; BR branches by COND, CMP and NEG; LOOP enters its body
or skips it; VCRC, VGOLD and VQAM write their results, of which those that the spec leaves open are free; VLD, VLDS,
VLD2 read and VST, VSTS, VST2 write local memory, with POSTINC; in paired operation a difference of the lines aborts the
task. A line out of range or not aligned is a radio firmware
fault. A replay that passes counts, strikes the core, and the instruction retires. S0 reads 0. -/
def Obligations.ScalarAndMemoryInstructionsRun : Prop :=
  (∀ (k sd sa sb : Nat) (s : State), CoreAt s k false (encSss 0x18 sd sa sb) →
    exec (.sadd k sd sa sb .ok) s = .next (coreStep s k 1 fun x => setS x sd (sReg x sa + sReg x sb)) ∧
    exec (.sadd k sd sa sb .replayPasses) s = .next (coreStep (strike (countMismatch s k) (32 + k) 3 0xFFFF 0 0 false)
      k 1 fun x => setS x sd (sReg x sa + sReg x sb))) ∧
  (∀ (k sd sa sb : Nat) (s : State), CoreAt s k false (encSss 0x19 sd sa sb) →
    exec (.ssub k sd sa sb .ok) s = .next (coreStep s k 1 fun x => setS x sd (sReg x sa - sReg x sb))) ∧
  (∀ (k sd : Nat) (imm : BitVec 21) (s : State), CoreAt s k false (coreInstr (.sli k sd imm .ok)).get!.2.2 →
    exec (.sli k sd imm .ok) s = .next (coreStep s k 1 fun x => setS x sd (imm.signExtend 32))) ∧
  (∀ (k sr p : Nat) (s : State),
    (CoreAt s k false (coreInstr (.smovp k sr p true .ok)).get!.2.2 →
      exec (.smovp k sr p true .ok) s = .next (coreStep s k 1 fun x => setS x sr (BitVec.ofNat 32 (pReg x p)))) ∧
    (CoreAt s k false (coreInstr (.smovp k sr p false .ok)).get!.2.2 →
      exec (.smovp k sr p false .ok) s =
        .next (coreStep s k 1 fun x => setP x p ((sReg x sr).toNat % 524288 : Nat)))) ∧
  (∀ (k cond sa sb : Nat) (s : State), cond ≤ 5 → CoreAt s k false (coreInstr (.scmp k cond sa sb .ok)).get!.2.2 →
    exec (.scmp k cond sa sb .ok) s =
      .next (coreStep s k 1 fun x => { x with cmp := scalarCond cond (sReg x sa) (sReg x sb) })) ∧
  (∀ (k target : Nat) (cond neg : Bool) (s : State),
    CoreAt s k false (coreInstr (.br k cond neg target .ok)).get!.2.2 →
    exec (.br k cond neg target .ok) s = .next (
      if cond = false ∨ (sigCore s k).cmp ≠ neg then
        modSigCore s k fun x => { retired x 2 (now s) with pc := target % 8192 }
      else modSigCore s k fun x => advancePc (retired x 1 (now s)))) ∧
  (∀ (k sn stop : Nat) (lc : Bool) (s : State), CoreAt s k false (coreInstr (.loop k lc sn stop .ok)).get!.2.2 →
    Completes (.loop k lc sn stop .ok) s fun t =>
      (sigCore t k).pc = (if (sReg (sigCore s k) sn).toNat % 65536 = 0 then stop + 1 else (sigCore s k).pc + 1) % 8192 ∧
      tget 0 (sigCore t k).lc (b2n lc) = (sReg (sigCore s k) sn).setWidth 16 ∧
      (sigCore t k).progress = (sigCore s k).progress + 1 ∧ (sigCore t k).sreg = (sigCore s k).sreg ∧
      (sigCore t k).v = (sigCore s k).v ∧ t.pkg = s.pkg) ∧
  (∀ (k sc va poly len : Nat) (s : State), poly ≤ 5 →
    CoreAt s k false (coreInstr (.vcrc k sc va poly len .ok)).get!.2.2 →
    exec (.vcrc k sc va poly len .ok) s = .next (coreStep s k 1 fun x => setS x sc (BitVec.ofNat 32
      (crcRun (crcPoly poly).1 (crcPoly poly).2 ((sReg x sc).toNat % 2 ^ (crcPoly poly).1)
        ((vBytes (vReg x va)).take len))))) ∧
  (∀ (k vd vg : Nat) (s : State), vg % 2 = 0 → vd ≠ vg → vd ≠ vg + 1 →
    CoreAt s k false (coreInstr (.vgold k vd vg .ok)).get!.2.2 →
    let x := sigCore s k
    let r := goldVector ((vReg x vg).toNat % 2 ^ 31, (vReg x (vg + 1)).toNat % 2 ^ 31)
    Completes (.vgold k vd vg .ok) s fun t => vReg (sigCore t k) vd = BitVec.ofNat 512 r.1 ∧
      vReg (sigCore t k) vg = putState (vReg x vg) r.2.1 ∧
      vReg (sigCore t k) (vg + 1) = putState (vReg x (vg + 1)) r.2.2 ∧ t.pkg = s.pkg) ∧
  (∀ (k vd va qm : Nat) (s : State), qm ≤ 5 → CoreAt s k false (coreInstr (.vqam k vd va qm .ok)).get!.2.2 →
    Completes (.vqam k vd va qm .ok) s fun t =>
      (∀ i < 16, inQ15 (qamPoint qm i (vReg (sigCore s k) va).toNat).1 = true →
        reI (lane (vReg (sigCore t k) vd) i) = (qamPoint qm i (vReg (sigCore s k) va).toNat).1) ∧
      (∀ j ≠ vd, vReg (sigCore t k) j = vReg (sigCore s k) j) ∧ t.pkg = s.pkg) ∧
  (∀ (k vd p : Nat) (inc : Bool) (imm : BitVec 16) (s : State), CoreAt s k false (encMem 0x20 vd p inc imm) →
    let a := (pReg (sigCore s k) p : Int) + 64 * imm.toInt
    (¬ (0 ≤ a ∧ a + 64 ≤ 524288 ∧ a % 64 = 0) → exec (.vld k vd p inc imm .ok) s = .next (firmwareFault s k)) ∧
    (∀ bs, a % 64 = 0 → coreRead s k a 64 = .ok bs → exec (.vld k vd p inc imm .ok) s = .next (coreStep s k 1 fun x =>
      postInc inc p a (setV x vd (ofBytes bs)))) ∧
    (isPaired (sigCore s k) = false → (sigCore s k).outbox = [] → 0 ≤ a → a + 64 ≤ 524288 → a % 64 = 0 →
      eccHit s (localKey k a.toNat) 64 = false → coreRead s k a 64 = .ok (physRead s (localKey k a.toNat) 64))) ∧
  (∀ (k vs p : Nat) (inc : Bool) (imm : BitVec 16) (s : State), CoreAt s k false (encMem 0x21 vs p inc imm) →
    let a := (pReg (sigCore s k) p : Int) + 64 * imm.toInt
    (¬ (0 ≤ a ∧ a + 64 ≤ 524288 ∧ a % 64 = 0) → exec (.vst k vs p inc imm .ok) s = .next (firmwareFault s k)) ∧
    (∀ s', a % 64 = 0 → coreWrite s k a (vBytes (vReg (sigCore s k) vs)) = .ok s' → exec (.vst k vs p inc imm .ok) s =
      .next (if (sigCore s' k).task = none then s' else coreStep s' k 1 (postInc inc p a))) ∧
    (isPaired (sigCore s k) = false → 0 ≤ a → a + 64 ≤ 524288 → a % 64 = 0 → s.pkg.eccBad = [] →
      exec (.vst k vs p inc imm .ok) s = .next (coreStep (physWrite s (localKey k a.toNat)
        (vBytes (vReg (sigCore s k) vs))) k 1 (postInc inc p a)))) ∧
  (∀ (k sd p : Nat) (inc : Bool) (imm : BitVec 16) (bs : List Byte) (s : State),
    CoreAt s k false (encMem 0x22 sd p inc imm) →
    coreRead s k ((pReg (sigCore s k) p : Int) + 4 * imm.toInt) 4 = .ok bs →
    exec (.vlds k sd p inc imm .ok) s = .next (coreStep s k 1 fun x =>
      postInc inc p ((pReg (sigCore s k) p : Int) + 4 * imm.toInt) (setS x sd (BitVec.ofNat 32 (leNat bs))))) ∧
  (∀ (k ss p : Nat) (inc : Bool) (imm : BitVec 16) (s s' : State), CoreAt s k false (encMem 0x23 ss p inc imm) →
    coreWrite s k ((pReg (sigCore s k) p : Int) + 4 * imm.toInt) (leBytes 4 (sReg (sigCore s k) ss).toNat) = .ok s' →
    exec (.vsts k ss p inc imm .ok) s = .next (if (sigCore s' k).task = none then s' else coreStep s' k 1
      (postInc inc p ((pReg (sigCore s k) p : Int) + 4 * imm.toInt)))) ∧
  (∀ (k vd pa pb : Nat) (imm : BitVec 14) (x y : List Byte) (s : State), vd % 2 = 0 →
    CoreAt s k false (encMem2 0x24 vd pa pb false imm) →
    let a := (pReg (sigCore s k) pa : Int) + 64 * imm.toInt
    let b := (pReg (sigCore s k) pb : Int) + 64 * imm.toInt
    a % 64 = 0 → b % 64 = 0 → coreRead s k a 64 = .ok x → coreRead s k b 64 = .ok y →
    exec (.vld2 k vd pa pb false imm .ok) s = .next (coreStep s k 1 fun c =>
      setV (setV c vd (ofBytes x)) (vd + 1) (ofBytes y))) ∧
  (∀ (k vs pa pb : Nat) (imm : BitVec 14) (s s1 s2 : State), vs % 2 = 0 →
    CoreAt s k false (encMem2 0x25 vs pa pb true imm) → pa ≠ pb →
    let a := (pReg (sigCore s k) pa : Int) + 64 * imm.toInt
    let b := (pReg (sigCore s k) pb : Int) + 64 * imm.toInt
    a % 64 = 0 → b % 64 = 0 → a ≠ b → coreWrite s k a (vBytes (vReg (sigCore s k) vs)) = .ok s1 →
    coreWrite s1 k b (vBytes (vReg (sigCore s k) (vs + 1))) = .ok s2 →
    exec (.vst2 k vs pa pb true imm .ok) s = .next (if (sigCore s2 k).task = none then s2
      else coreStep (modSigCore s2 k fun c => setP (setP c pa a) pb b) k 1 id)) ∧
  (∀ (x : SigCore) (v : W32), sReg x 0 = 0 ∧ setS x 0 v = x)

/-- TASK_START on a ready core starts its task at the entry with zeroed registers and S1 to S4; on a core in paired operation it
starts on a partner of the die too, and a mismatch aborts both (R294; the partner: log entry 97). A rerun is found by its
entry, mode, S1 and slot job, and combines no LLRs again. TEND ends it, that of a pair on both cores once the copy has
come to its end. QPUSH answers 0, 1 or 2 in SD; QPOP answers the free entries; WAITC holds the core until the word is reached. An FL5
instruction takes free values (log entry 33), one for peripherals faults; an illegal word faults; SC_STALL sets STALL,
aborts and marks the suspects; the instruction store takes a word while its core is idle, otherwise the write is
flagged. -/
def Obligations.TasksRun : Prop :=
  (∀ (k entry seqs : Nat) (mode : Bool) (s1 s2 s3 s4 : W32) (s : State), k < 64 → entry < 8192 →
    coreReady s k = true → (unitSt s (32 + k)).hold = 0 → (radDie s (coreDie k)).reruns = [] →
    Completes (.taskStart k entry mode s1 s2 s3 s4 seqs 0 {}) s fun t =>
      (sigCore t k).pc = entry ∧ (sigCore t k).mode = mode ∧ sReg (sigCore t k) 1 = s1 ∧
      sReg (sigCore t k) 4 = s4 ∧ (sigCore t k).v = [] ∧ (sigCore t k).acc = [] ∧ (sigCore t k).p = [] ∧
      (sigCore t k).lc = [] ∧ (sigCore t k).cmp = false ∧ (sigCore t k).accSat = false ∧
      ((sigCore t k).task.map (·.entry)) = some entry ∧ (sigCore t k).store = (sigCore s k).store ∧
      (∀ j ≠ k, sigCore t j = sigCore s j) ∧ t.rad.dies = s.rad.dies ∧ t.pkg = s.pkg) ∧
  (∀ (k p entry seqs : Nat) (mode : Bool) (s1 s2 s3 s4 : W32) (s : State), k < 64 → entry < 8192 →
    coreReady s k = true → (unitSt s (32 + k)).hold ≠ 0 → partnerFor s k = some p →
    Completes (.taskStart k entry mode s1 s2 s3 s4 seqs 0 {}) s fun t =>
      p ≠ k ∧ coreDie p = coreDie k ∧ (sigCore t k).partner = some p ∧ (sigCore t p).copyOf = some k ∧
      (sigCore t p).task = (sigCore t k).task ∧ (sigCore t k).pc = entry ∧ (sigCore t p).pc = entry) ∧
  (∀ (k entry seqs slotJob : Nat) (mode : Bool) (s1 s2 s3 s4 : W32) (work : TaskWork) (r : Nat × Task) (s : State),
    k < 64 → entry < 8192 → coreReady s k = true → (unitSt s (32 + k)).hold = 0 →
    (radDie s (coreDie k)).reruns = [r] → r.1 ≠ k → r.2.entry = entry → r.2.mode = mode → r.2.s1 = s1 →
    r.2.job = slotJob → Completes (.taskStart k entry mode s1 s2 s3 s4 seqs slotJob work) s fun t =>
      (radDie t (coreDie k)).reruns = [] ∧ (sigCore t k).pc = entry ∧ t.rad.cells = s.rad.cells) ∧
  (∀ (i : Instr) (k p : Nat) (compat : Bool) (w : Option W32) (s : State), coreInstr i = some (k, compat, w) →
    CoreAt s k compat w → (sigCore s k).partner = some p →
    Completes (setCheck .replayFails i) s fun t => (sigCore t k).task = none ∧ (sigCore t p).task = none) ∧
  (∀ (k : Nat) (s : State), CoreAt s k true (some 0xFC000000) → isPaired (sigCore s k) = false →
    exec (.tend k false none .ok) s = .next (modSigCore (taskEnds s k) k fun x => retired x 1 (now (taskEnds s k))) ∧
    (sigCore (taskEnds s k) k).task = none ∧ (sigCore (taskEnds s k) k).tasks = (sigCore s k).tasks + 1) ∧
  (∀ (k : Nat) (d : SlotDone) (j : SlotJob) (s : State), CoreAt s k true (some 0xFC000000) →
    isPaired (sigCore s k) = false → ((sigCore s k).task.map (·.job)) = some j.id → (radDie s (coreDie k)).jobs.find? (·.id == j.id) = some j →
    let t := completeSlot (taskEnds s k) (coreDie k) j d
    exec (.tend k false (some d) .ok) s = .next (modSigCore t k fun x => retired x 1 (now t))) ∧
  (∀ (k p : Nat) (s : State), CoreAt s k true (some 0xFC000000) → (sigCore s k).copyOf = none →
    (sigCore s k).partner = some p → p ≠ k →
    ((sigCore s p).tended = false → exec (.tend k false none .ok) s = .next s) ∧
    ((sigCore s p).tended = true → Completes (.tend k false none .ok) s fun t =>
      (sigCore t k).task = none ∧ (sigCore t p).task = none)) ∧
  (∀ (k m : Nat) (s : State), CoreAt s k true (some 0xFC000000) → (sigCore s k).copyOf = some m →
    Completes (.tend k false none .ok) s fun t => (sigCore t k).tended = true ∧ (sigCore t k).task = (sigCore s k).task ∧
      ∀ j ≠ k, sigCore t j = sigCore s j) ∧
  (∀ (k vs sd q : Nat) (s : State), CoreAt s k true (coreInstr (.qpush k vs sd q .ok)).get!.2.2 →
    let d := wordsOf 4 (vBytes (vReg (sigCore s k) vs))
    exec (.qpush k vs sd q .ok) s = .next (
      if pushRefused s k q d then coreStep s k 1 fun x => setS x sd 2
      else if 16 ≤ queueTaken s k q then
        modSigCore (modSigCore s k fun x => setS x sd 1) k fun x => advancePc { x with beats := x.beats + 1 }
      else let t := releaseFrom s k (.desc q d)
        if (sigCore t k).task = none then t else coreStep t k 1 fun x => setS x sd 0) ∧
    (isPaired (sigCore s k) = false → releaseFrom s k (.desc q d) = pushDesc s k q d ∧
      coreQueue (releaseFrom s k (.desc q d)) k q = coreQueue s k q ++ [d])) ∧
  (∀ (k sd q : Nat) (s : State), q ≤ 10 → CoreAt s k true (coreInstr (.qpop k sd q .ok)).get!.2.2 →
    exec (.qpop k sd q .ok) s = .next (coreStep s k 1 fun x =>
      setS x sd (BitVec.ofNat 32 (16 - queueTaken s k q)))) ∧
  (∀ (k p sv : Nat) (bs : List Byte) (s : State), CoreAt s k true (coreInstr (.waitc k p sv .ok)).get!.2.2 →
    coreRead s k (pReg (sigCore s k) p) 8 = .ok bs →
    exec (.waitc k p sv .ok) s = .next (if (sReg (sigCore s k) sv).toNat ≤ leNat bs then
        modSigCore s k fun x => advancePc (retired x 1 (now s))
      else modSigCore s k fun x => { x with waiting := some p })) ∧
  (∀ (k : Nat) (w : W32) (s : State), CoreAt s k true (some w) → (sigCore s k).mode = true →
    compatNative (opOf w) = false →
    exec (.fl5Instruction k w true .ok) s = .next (firmwareFault s k) ∧
    exec (.fl5Instruction k w false .ok) s =
      .next (if (sigCore (fl5Effect s k) k).task = none then fl5Effect s k
        else modSigCore (fl5Effect s k) k fun x => { retired x 1 (now (fl5Effect s k)) with
          pc := (sigCore (fl5Effect s k) k).pc % 8192 })) ∧
  (∀ (k : Nat) (w : W32) (s : State), CoreAt s k true (some w) → illegalWord (sigCore s k).mode w = true →
    exec (.illegalInstruction k w) s = .next (firmwareFault s k)) ∧
  (∀ (k : Nat) (s : State), k < 64 → coreIdle s k = false → ticksPerSlot ≤ since s (sigCore s k).timerAt →
    exec (.scStall k) s = .next ((waitTargets s k).foldl markSuspect (markSuspect (countReset (resetUnit (modSigCore
      (hangRecord (countHang s (32 + k)) 3 (32 + k) (4 + coreDie k) 0xFF
        (32 + k + 256 * (waitTargets s k).headD 0xFF)) k fun x => { x with stall := true }) (32 + k)) (32 + k) 5)
          (32 + k)))) ∧
  (∀ (k i : Nat) (w : W32) (s : State), k < 64 → i < 8192 → coreIdle s k = true →
    Completes (.instructionStoreWrite k i w) s fun t =>
      sigCore t k = { sigCore s k with store := tset 0 (sigCore s k).store i w
                                       image := tset 0 (sigCore s k).image i w, storeBad := false } ∧
      (∀ j ≠ k, sigCore t j = sigCore s j) ∧ t.pkg = s.pkg) ∧
  (∀ (k i : Nat) (w : W32) (s : State), k < 64 → i < 8192 → coreIdle s k = false →
    Completes (.instructionStoreWrite k i w) s fun t =>
      sigCore t k = { sigCore s k with iwriteRefused := true } ∧ (∀ j ≠ k, sigCore t j = sigCore s j) ∧
      t.pkg = s.pkg)

/-- A unit serves the next descriptor of its list: its output is written and 1 is added to the completion word, by
every row of the equaliser, polar unit, beam unit and local DMA, by the decoders under their iteration pool, by the
encoders, and by the egress buffer, which queues the symbol's frames. A payload that fails CRC-32C twice, or an output
that R31 refuses, sets bit 63 instead; a page in move or a full share of trackers makes the unit wait. A unit whose next
descriptor has not arrived does nothing. An equaliser records EVM and SINR, a decoder its iterations, and attached weights
go into the slot's waiting C-plane. What a unit computes by an outside standard is a
free value (log entry 34). -/
def Obligations.AcceleratorsServe : Prop :=
  (∀ r ∈ unitRows, ∀ (k : Nat) (o : UnitObs) (d : List W64) (bs : List Byte) (s : State),
    UnitServes s k r.1 r.2.1 d bs →
    exec (r.2.2.2 k o) s = .next (if o.crcOk then delivered (r.2.2.2 k o) s k r.1 d o.late id (r.2.2.1 d bs)
      else endDesc s k r.1 d o.late false)) ∧
  (∀ r ∈ unitRows, ∀ (k : Nat) (o : UnitObs) (s : State), servedDesc s k r.1 r.2.1 = none →
    exec (r.2.2.2 k o) s = .next s) ∧
  (∀ r ∈ unitRows, ∀ (k : Nat) (o : UnitObs) (s : State), unitTracker s (32 + k) 0 = false →
    exec (r.2.2.2 k o) s = .next s) ∧
  (∀ (k : Nat) (o : UnitObs) (d : List W64) (bs : List Byte) (s : State), UnitServes s k 0 2 d bs → o.crcOk = true →
    exec (.equalisation k o) s = .next (delivered (.equalisation k o) s k 0 d o.late
      (fun s => noteUnit s k 0 d fun u => { u with evm := evmField o, sinr := sinrField o })
      (openBytes 2 d bs ++ leBytes 2 (evmField o) ++ leBytes 2 (sinrField o)))) ∧
  (∀ (k : Nat) (o : UnitObs) (d : List W64) (bs : List Byte) (s : State), UnitServes s k 0 3 d bs → o.crcOk = true →
    exec (.srsChannelEstimation k o) s = .next (delivered (.srsChannelEstimation k o) s k 0 d o.late
      (fun s => noteUnit s k 0 d fun u => { u with sinr := sinrField o })
      (openBytes 3 d bs ++ leBytes 2 (sinrField o)))) ∧
  (∀ (k : Nat) (o : UnitObs) (d : List W64) (bs : List Byte) (s : State), UnitServes s k 8 2 d bs → o.crcOk = true →
    exec (.weightAttachment k o) s = .next (delivered (.weightAttachment k o) s k 8 d o.late
      (fun s => attachWeights s (qParam d / 2 ^ 24) (descSlot s k (qParam d / 2 ^ 24) (descJob s k 8 d)).1
        (descSlot s k (qParam d / 2 ^ 24) (descJob s k 8 d)).2 (openBytes 31 d bs)) (openBytes 31 d bs))) ∧
  (∀ (k n e : Nat) (late : Bool) (d : List W64) (bs : List Byte) (s t : State), n ≤ 3 → e ≤ 3 →
    servedBy s k (1 + n) 1 (· == 32 + (4 * n + e)) = some d → unitTracker s (32 + k) 0 = true →
    unitRead s (qSrc d) (qLen d) = .ok bs →
    let pool := tget 0 (radDie s (coreDie k)).pools (4 * n + e)
    let i := iterations pool d bs
    unitWrite s (qDst d) ((List.range (cdiv ((if qBg2 d then 10 else 22) * qZc d) 8)).map
      (Config.blockUnit 10 (bytesOf d ++ leBytes 1 i) bs) ++ [BitVec.ofNat 8 i]) = .ok t →
    exec (.ldpcDecode k n e { late := late }) s = .next (modRadDie (endDesc (noteUnit t k (1 + n) d fun u =>
      { u with iterations := i }) k (1 + n) d late true) (coreDie k)
      fun x => { x with pools := tset 0 x.pools (4 * n + e) (if i < 8 then pool + (8 - i) else pool - (i - 8)) })) ∧
  (∀ (pool : Nat) (d : List W64) (bs : List Byte), 1 ≤ iterations pool d bs ∧ iterations pool d bs ≤ 8 + pool ∧
    (1 ≤ fld (wd d 3) 21 17 → iterations pool d bs ≤ fld (wd d 3) 21 17)) ∧
  (∀ (k n : Nat) (late : Bool) (d : List W64) (bs : List Byte) (s : State), n ≤ 1 → UnitServes s k (5 + n) 1 d bs →
    exec (.ldpcEncode k n { late := late }) s = .next (delivered (.ldpcEncode k n { late := late }) s k (5 + n) d late id
      (unitBytes 11 (cdiv ((if qBg2 d then 50 else 66) * qZc d) 8) d bs))) ∧
  (∀ (k : Nat) (late : Bool) (d : List W64) (bs : List Byte) (s : State), UnitServes s k 9 1 d bs →
    exec (.uplaneSymbol k { late := late }) s = .next (endDesc
      (queueSymbol s d (descSlot s k (qParam d / 2 ^ 24) (descJob s k 9 d)) bs) k 9 d late true)) ∧
  (∀ (k q : Nat) (d : List W64) (late ok : Bool) (s : State), qComplOff d < 524281 → s.pkg.eccBad = [] →
    let w := leNat (physRead s (localKey k (qComplOff d)) 8)
    leNat (physRead (endDesc s k q d late ok) (localKey k (qComplOff d)) 8) =
      if ok then (w + 1) % 2 ^ 64 else if w < 2 ^ 63 then w + 2 ^ 63 else w)

/-- An eye sample of a fronthaul or Voravatra port that is up stores its figures and low counts. A lane with ten low
samples is dropped and counted: the port retrains on three lanes where it may, and goes down otherwise; three lanes come
up as DEGRADED, or the port goes down. A port that is down comes up at a retry. FH_PORT_CONFIG with good arguments sets
the port, bad ones are BAD_FIELD; FH_PORT_RESTORE is NOT_QUIESCED with cells and without FORCE, stops them with
FORCE, and takes the link of a port that is up down to retrain, keeping its egress frames; FH_PORT_STATUS answers 17 words. -/
def Obligations.FronthaulPortsRun : Prop :=
  (∀ (p : Nat) (eyes : List Nat) (s : State), p ≤ 3 → (fhPort s p).up = true →
    Completes (.laneEyeSample .fronthaul p eyes) s fun t =>
      fhPort t p = { fhPort s p with eye := eyeFigures eyes
                                     low := lowCounts (fhPort s p).low (fhPort s p).lanes (fhPort s p).eyeMin eyes } ∧
      (∀ q ≠ p, fhPort t q = fhPort s q) ∧ t.fab = s.fab ∧ t.pkg = s.pkg) ∧
  (∀ (p : Nat) (eyes : List Nat) (s : State), p ≤ 15 → (vfPort s p).up = true →
    Completes (.laneEyeSample .voravatra p eyes) s fun t =>
      vfPort t p = { vfPort s p with eye := eyeFigures eyes
                                     low := lowCounts (vfPort s p).low (vfPort s p).lanes s.fab.eyeMin eyes } ∧
      (∀ q ≠ p, vfPort t q = vfPort s q) ∧ t.fh = s.fh ∧ t.pkg = s.pkg) ∧
  (∀ (p lane : Nat) (s : State), p ≤ 3 → lane ≤ 3 → (fhPort s p).up = true → 10 ≤ tget 0 (fhPort s p).low lane →
    ¬ (s.tim.syncePort = p ∧ s.tim.synceLane = lane) →
    exec (.laneDrop p lane) s = .next (
      let a := portEvent (fhCount s p 9) 1 (fhDie p) p 1
      if (fhPort s p).degraded || !(fhPort s p).degradeEn then fhPortDown a p
      else modFhPort a p fun x => { x with up := false, retraining := true, dropped := lane, lanes := 0, low := [] })) ∧
  (∀ (p : Nat) (s : State), (fhPort s p).retraining = true → (fhPort s p).restoring = false →
    exec (.threeLaneLinkUp p) s = .next (modFhPort s p fun x => { x with
      up := true, retraining := false, degraded := true, lanes := 15 - 2 ^ x.dropped, low := [] }) ∧
    exec (.threeLaneTimeout p) s = .next (fhPortDown s p)) ∧
  (∀ (p : Nat) (s : State), s.boot.phase = .booted → p ≤ 3 → (fhPort s p).up = false →
    (fhPort s p).retraining = false → (fhPort s p).restoring = false → s.hlt.hr.dies.contains (fhDie p) = false →
    exec (.fhLinkRetry p true) s = .next (fhLinkUp s p) ∧ exec (.fhLinkRetry p false) s = .next s ∧
    (fhPort (fhLinkUp s p) p).up = true ∧ (fhPort (fhLinkUp s p) p).degraded = false ∧
    (fhPort (fhLinkUp s p) p).lanes = 15) ∧
  (∀ (p : Nat) (s : State), p ≤ 3 → (fhPort s p).restoring = true →
    exec (.fhLinkRetry p true) s = .next (fhLinkUp s p) ∧ exec (.fhLinkRetry p false) s = .next (fhPortDown s p)) ∧
  (∀ (c : Cmd) (s : State), Served 0x380 26 isMgmt c s → portConfigBad (argN c) = false →
    ringDenied s (argN c 22) (argN c 23) = false → ringDenied s (argN c 24) (argN c 25) = false →
    exec (.fhPortConfig c) s = .next (answered 0x380 26 c (modFhPort (meterNow s (argN c 0)) (argN c 0) fun x =>
      { x with mac := argN c 1, degradeEn := argN c 2 == 1, eyeMin := argN c 3, tenantRate := argN c 4
               vlan := argN c 5, pcp := argN c 6, group := configGroup (argN c)
               timingRx := { addr := argN c 22, entries := argN c 23 }
               controlRx := { addr := argN c 24, entries := argN c 25 } }) [])) ∧
  (∀ (c : Cmd) (s : State), Served 0x380 26 isMgmt c s → portConfigBad (argN c) = true →
    exec (.fhPortConfig c) s = .next (finish s c.src 0x380 .badField [])) ∧
  (∀ (c : Cmd) (s : State), Served 0x384 2 isMgmt c s → argN c 0 ≤ 3 → argN c 1 ≤ 1 → portCells s (argN c 0) = [] →
    exec (.fhPortRestore c) s = .next (answered 0x384 2 c (startRestore
      (if argN c 1 = 1 then stopCells s fun x => cFhPort x.record == argN c 0 else s) (argN c 0)) [])) ∧
  (∀ (c : Cmd) (s : State), Served 0x384 2 isMgmt c s → argN c 0 ≤ 3 → argN c 1 = 1 → portCells s (argN c 0) ≠ [] →
    let a := stopCells s fun x => cFhPort x.record == argN c 0
    exec (.fhPortRestore c) s = .next (answered 0x384 2 c (startRestore (capacityLost a (argN c 0 / 2)
      (pointsMax s (argN c 0 / 2)) (pointsMax a (argN c 0 / 2))) (argN c 0)) [])) ∧
  (∀ (p : Nat) (s : State), (fhPort s p).up = true → s.hlt.hr.dies.contains (fhDie p) = false →
    (fhPort (startRestore s p) p).up = false ∧ (fhPort (startRestore s p) p).retraining = true ∧
    (fhPort (startRestore s p) p).restoring = true ∧ (fhPort (startRestore s p) p).queues = (fhPort s p).queues ∧
    (∀ q ≠ p, fhPort (startRestore s p) q = fhPort s q)) ∧
  (∀ (c : Cmd) (s : State), Served 0x384 2 isMgmt c s → argN c 0 ≤ 3 → argN c 1 = 0 →
    ((portCells s (argN c 0)).any fun x => countedCell (cell s x)) = true →
    exec (.fhPortRestore c) s = .next (finish s c.src 0x384 .notQuiesced [])) ∧
  (∀ (c : Cmd) (s : State), Served 0x385 1 isMgmtRadio c s → argN c 0 ≤ 3 →
    exec (.fhPortStatus c) s = .next (answered 0x385 1 c s ([w64 (fhStatusReg s (argN c 0)),
      w64 (fhConfigReg (fhPort s (argN c 0))), w64 (laneEyeReg (fhPort s (argN c 0)).eye),
      (fhPort s (argN c 0)).rxBytes, (fhPort s (argN c 0)).txBytes] ++
        (List.range 12).map fun i => w64 (eventReg (tget {} (fhPort s (argN c 0)).ctrs i)))))

/-- A frame on a port that is down counts as UNMATCHED. On a port that is up its bytes count, and the first rule of R304
that holds decides: a failed FCS or buffer word, a length out of range or a pause frame, the timing ring, radio ingress,
the lowest flow entry that matches, else UNMATCHED. A flow of a sleeve that is not ACTIVE counts RING_FULL. The meter
colours: with MODE 0 the peak bucket decides red and the committed one yellow; with MODE 1 the committed one green and
the excess one yellow; a colour takes its bytes from the buckets that it names. -/
def Obligations.FramesAreClassified : Prop :=
  (∀ (p n : Nat) (f : List Byte) (a b : Bool) (s : State), Up s → p ≤ 3 → (fhPort s p).up = false →
    (fhPort s p).retraining = false → exec (.frameReceived p f a b n) s = .next (fhCount s p 1)) ∧
  (∀ (p n : Nat) (f : List Byte) (a b : Bool) (s : State), Up s → p ≤ 3 → (fhPort s p).up = true →
    (fhPort s p).retraining = false →
    let r := modFhPort s p fun x => { x with rxBytes := x.rxBytes + w64 f.length }
    let body := f.take (f.length - 4)
    (a = false ∨ b = false → exec (.frameReceived p f a b n) s = .next (fhCount r p 0)) ∧
    (a = true → b = true →
      (f.length < 64 ∨ 9216 < f.length → exec (.frameReceived p f a b n) s = .next (fhCount r p 1)) ∧
      (64 ≤ f.length → f.length ≤ 9216 →
        (isPause (parseEth body) = true → exec (.frameReceived p f a b n) s = .next (fhCount r p 1)) ∧
        (isPause (parseEth body) = false → isTiming (parseEth body) = true →
          exec (.frameReceived p f a b n) s = .next (deliver r p 512 0 body (networkTime s))) ∧
        (isTiming (parseEth body) = false → (parseEth body).etype = 0xAEFE →
          exec (.frameReceived p f a b n) s = .next (radioIngress r p (parseEth body) body)) ∧
        (isPause (parseEth body) = false → isTiming (parseEth body) = false → (parseEth body).etype ≠ 0xAEFE →
          (∀ e, (fhPort s p).flows.find? (fun g => flowMatches g.2.words (parseEth body)) = some e →
            exec (.frameReceived p f a b n) s = .next (flowFrame r p e.1 body f.length n)) ∧
          ((fhPort s p).flows.find? (fun g => flowMatches g.2.words (parseEth body)) = none →
            exec (.frameReceived p f a b n) s = .next (fhCount r p 1)))))) ∧
  (∀ (p i len n : Nat) (f : List Byte) (s : State),
    (sleeve s (fSleeve (tget {} (fhPort s p).flows i).words)).st ≠ .active ∨ (tget {} (fhPort s p).flows i).stopped = true →
    flowFrame s p i f len n = fhCount s p 4) ∧
  (∀ c e n : Nat,
    (meterColour 0 c e n).1 = (if e < n * 1250 then 2 else if c < n * 1250 then 1 else 0) ∧
    (meterColour 1 c e n).1 = (if n * 1250 ≤ c then 0 else if n * 1250 ≤ e then 1 else 2) ∧
    (meterColour 0 c e n).2.1 + (if (meterColour 0 c e n).1 = 0 then n * 1250 else 0) = c ∧
    (meterColour 0 c e n).2.2 + (if (meterColour 0 c e n).1 ≤ 1 then n * 1250 else 0) = e ∧
    (meterColour 1 c e n).2.1 + (if (meterColour 1 c e n).1 = 0 then n * 1250 else 0) = c ∧
    (meterColour 1 c e n).2.2 + (if (meterColour 1 c e n).1 = 1 then n * 1250 else 0) = e) ∧
  (∀ level t rate burst : Nat, refill level t rate burst ≤ burst * 1250 ∧
    (level ≤ burst * 1250 → level ≤ refill level t rate burst) ∧ refill level t rate burst ≤ level + t * rate) ∧
  (∀ (s : State) (p i : Nat),
    (fhCount s p i).pkg = s.pkg ∧ (fhCount s p i).rad = s.rad ∧ (∀ q ≠ p, fhPort (fhCount s p i) q = fhPort s q) ∧
    fhPort (fhCount s p i) p =
      { fhPort s p with ctrs := tset {} (fhPort s p).ctrs i ((tget {} (fhPort s p).ctrs i).add 0x7FFFFFFF 1) })

/-- The wire is given to the head of Q0, Q1, Q2 in this order, then to the group by its turns; a head that may start
starts, is sent with its FCS and written back. A ring that is idle, stopped or not assigned gives nothing, and an entry
without READY stays. The gate entry in force is the one at network time; a pending list replaces the active one at its
cycle start. FH_FLOW_SET writes a good entry and clears an invalid one; FH_EGRESS_SET assigns a ring; FH_GATE_LIST makes
a good list pending. -/
def Obligations.EgressAndGatesRun : Prop :=
  (∀ (p q : Nat) (f : EgFrame) (rest : List (Nat × EgFrame)) (s a : State), p ≤ 3 → (fhPort s p).up = true →
    [0, 1, 2].foldl (queueHead p) (s, []) = (a, (q, f) :: rest) →
    exec (.egressFrameStart p) s = .next (startFrame a p q f)) ∧
  (∀ (p q : Nat) (f : EgFrame) (g : List (Nat × EgFrame)) (s a b c : State), p ≤ 3 → (fhPort s p).up = true →
    [0, 1, 2].foldl (queueHead p) (s, []) = (a, []) →
    [3, 4, 5, 6, 7].foldl (queueHead p) (a, []) = (b, g) → g ≠ [] → drrTurn p g 1024 b = (c, some (q, f)) →
    exec (.egressFrameStart p) s = .next (startFrame c p q f)) ∧
  (∀ (p q : Nat) (f : EgFrame) (rest : List EgFrame) (l : List (Nat × EgFrame)) (s : State),
    tget [] (fhPort s p).queues q = f :: rest → headFate s (fhPort s p) q f = .start →
    queueHead p (s, l) q = (s, l ++ [(q, f)])) ∧
  (∀ (p q : Nat) (f : EgFrame) (s : State), f.entry = none → f.oneStep = false →
    (startFrame s p q f).out = .frame p (f.bytes ++ leBytes 4 (fcs32 f.bytes)) :: s.out ∧
    tget [] (fhPort (startFrame s p q f) p).queues q = (tget [] (fhPort s p).queues q).tail ∧
    (fhPort (startFrame s p q f) p).txBytes = (fhPort s p).txBytes + w64 (f.bytes.length + 4) ∧
    (startFrame s p q f).pkg = s.pkg) ∧
  (∀ (p r : Nat) (s : State), Up s → p ≤ 3 → r ≤ 15 →
    Completes (.txRingPoll p r) s fun t => t = pollRing p r (tget {} (fhPort s p).tx r).ring.entries s ∧
      ((tget {} (fhPort s p).tx r).ring.stopped = true ∨ (tget {} (fhPort s p).tx r).ring.entries = 0 → t = s)) ∧
  (∀ (p r n addr : Nat) (f : EgFrame) (bs : List Byte) (s : State),
    let t := tget {} (fhPort s p).tx r
    addr = t.ring.addr + 32 * t.ring.pos → t.ring.entries ≠ 0 → t.ring.stopped = false →
    ((tget [] (fhPort s p).queues t.queue).any fun f => f.entry == some (r, addr)) = false →
    devRead s (ringIssuer t.sleeve) addr 32 = .ok bs →
    (bitOf (leW64 bs) 0 = false → pollRing p r (n + 1) s = s) ∧
    (bitOf (leW64 bs) 0 = true → takeEntry s p r addr bs = .frame f →
      pollRing p r 1 s = modFhPort (modFhPort s p fun x => { x with tx := tmod {} x.tx r fun t => { t with
          ring := { t.ring with pos := (t.ring.pos + 1) % Nat.max 1 t.ring.entries } } }) p fun x => { x with
        queues := tmod [] x.queues t.queue fun l => l ++ [f] })) ∧
  (∀ (p : Nat) (s : State), Up s → p ≤ 3 →
    Completes (.gateEntryChange p) s fun t =>
      fhPort t p = { fhPort s p with gateAt := (gateAtTime (fhPort s p).gates (networkNs s)).1 } ∧
      (∀ q ≠ p, fhPort t q = fhPort s q) ∧ t.pkg = s.pkg) ∧
  (∀ (p : Nat) (g : GateList) (s : State), Up s → p ≤ 3 → (fhPort s p).pending = some g →
    (networkNs s < g.base → exec (.gateListSwitch p) s = .next s) ∧
    (g.base ≤ networkNs s → Completes (.gateListSwitch p) s fun t =>
      (fhPort t p).gates = g ∧ (fhPort t p).pending = none ∧
      (fhPort t p).gateAt = (gateAtTime g (networkNs s)).1 ∧ (fhPort t p).queues = (fhPort s p).queues)) ∧
  (∀ (c : Cmd) (s : State), Served 0x381 10 isMgmt c s → argN c 0 ≤ 3 → argN c 1 ≤ 511 →
    let w := (List.range 8).map fun i => arg c (2 + i)
    flowBad w = false →
    (fValid w = false →
      exec (.fhFlowSet c) s = .next (answered 0x381 10 c (putFlow s (argN c 0) (argN c 1) []) [])) ∧
    (fValid w = true → fSleeve w ≠ 0 → (sleeve s (fSleeve w)).st ≠ .absent →
      checkRange s (ringIssuer (fSleeve w)) .wr (fld (wd w 4) 47 0) (32 * (fld (wd w 4) 63 52 + 1)) = none →
      exec (.fhFlowSet c) s = .next (answered 0x381 10 c (putFlow s (argN c 0) (argN c 1) w) []))) ∧
  (∀ (c : Cmd) (s : State),
    Served 0x382 7 (fun p => isMgmtRadio p && (isMgmt p || argN c 1 == 0)) c s → egressBad (argN c) = false →
    checkRange s (ringIssuer (argN c 2)) .rd (argN c 5) (32 * argN c 6) = none →
    exec (.fhEgressSet c) s = .next (answered 0x382 7 c (assignRing s (argN c 0) (argN c 1)
      { sleeve := argN c 2, queue := argN c 3, vlan := argN c 4, ring := { addr := argN c 5, entries := argN c 6 } })
        [])) ∧
  (∀ (c : Cmd) (ws : List W64) (s : State),
    Served 0x383 (if c.args.length > 2 then 1 + gateWords (c.args.drop 1) else 2) isMgmt c s → argN c 0 ≤ 3 →
    gateArg s (partyOf c.src) c = .ok ws → ((gateEntries ws).any fun e => e.1 % 8 != 7) = false →
    gateListBad ws = false → (fhPort s (argN c 0)).pending = none →
    exec (.fhGateList c) s = .next (answered 0x383 (if c.args.length > 2 then 1 + gateWords (c.args.drop 1) else 2) c
      (modFhPort s (argN c 0) fun x => { x with pending := some {
        base := cycleStart s (fld (wd ws 0) 63 32) (fld (wd ws 0) 31 0), cycle := fld (wd ws 0) 31 0
        entries := gateEntries ws } }) []))

/-- TIME_CONFIG, TIME_RATE, TIME_STEP, TIME_LOCK and TIME_READ with good arguments have their effect and answer OK; a step
beyond JUMP_NS without FORCE is refused, flagged and counted; a withdrawn lock leaves LOCKED. At its apply tick a change
takes BASE, RAW_BASE and INCR, and scheduled changes whose tick has not come stay. -/
def Obligations.TimebaseCommandsRun : Prop :=
  (∀ (c : Cmd) (s : State), Served 0x386 8 isMgmt c s → timeConfigBad (argN c) = false →
    exec (.timeConfig c) s = .next (answered 0x386 8 c (
      let a := modTim s fun t => { t with jumpNs := argN c 0, lockBound := argN c 1, holdoverS := argN c 2
                                          sfnOffset := argN c 3, ppsWidth := argN c 4, syncePort := argN c 5
                                          synceLane := argN c 6, synceDiv := argN c 7 }
      modTim a fun t => { t with squelch := synceLost a }) [])) ∧
  (∀ (c : Cmd) (s : State), Served 0x387 1 isMgmtRadio c s → 0x664C2F837 ≤ argN c 0 → argN c 0 ≤ 0x66809D495 →
    exec (.timeRate c) s = .next (answered 0x387 1 c (modTim s fun t => { t with
      state := if t.state = 0 then 1 else t.state
      applies := t.applies ++ [{ tick := now s + 512, rate := some (argN c 0), step := 0, forced := false }] }) [])) ∧
  (∀ (c : Cmd) (s : State), Served 0x388 2 isMgmtRadio c s → argN c 1 ≤ 1 →
    ((arg c 0).toInt.natAbs ≤ s.tim.jumpNs ∨ argN c 1 = 1 → exec (.timeStep c) s = .next (answered 0x388 2 c
      (modTim s fun t => { t with
        state := if t.state = 0 then 1 else t.state
        applies := t.applies ++ [{ tick := now s + 512, rate := none, step := (arg c 0).toInt
                                   forced := decide (s.tim.jumpNs < (arg c 0).toInt.natAbs) }] }) [])) ∧
    (s.tim.jumpNs < (arg c 0).toInt.natAbs → argN c 1 = 0 →
      exec (.timeStep c) s = .next (finish (modTim s fun t => { t with
        stepFlag := true, stepRefused := Nat.min 0x7FFF (t.stepRefused + 1)
        countsSat := t.countsSat || t.stepRefused == 0x7FFF }) c.src 0x388 .stepRefused []))) ∧
  (∀ (c : Cmd) (s : State), Served 0x389 2 isMgmtRadio c s → argN c 0 ≤ 2047 → argN c 1 = 0 →
    let a := modTim s fun t => { t with bound := argN c 0, lastLock := now s }
    exec (.timeLock c) s = .next (answered 0x389 2 c (
      if s.tim.state = 0 then a
      else if s.tim.lockBound < argN c 0 then (if timeLocked s then lockStops a 2 else a)
      else stampEntry (modTim a fun t => { t with state := 2 })) [])) ∧
  (∀ (c : Cmd) (s : State), Served 0x389 2 isMgmtRadio c s → argN c 0 = 0 → argN c 1 = 1 → timeLocked s = true →
    exec (.timeLock c) s = .next (answered 0x389 2 c (lockStops s 1) [])) ∧
  (∀ (c : Cmd) (s : State), Served 0x38A 0 isMgmtRadio c s →
    exec (.timeRead c) s = .next (answered 0x38A 0 c s [w64 (networkNs s),
      w64 (networkTime s / 65536 % 65536 * 65536), s.tim.raw, w64 s.tim.state])) ∧
  (∀ s : State, exec .timeApplyTick s = .next ((s.tim.applies.filter fun a => a.tick ≤ now s).foldl applyChange
    (modTim s fun t => { t with applies := t.applies.filter fun a => now s < a.tick }))) ∧
  (∀ (t : Tim) (a : Apply), (applyTim t a).rawBase = w64 a.tick ∧ (applyTim t a).incr = a.rate.getD t.incr ∧
    (applyTim t a).base = BitVec.ofInt 96 ((ntAt t a.tick : Int) + a.step * 4294967296) ∧
    (applyTim t a).state = t.state ∧ (applyTim t a).raw = t.raw) ∧
  (∀ (n : Nat) (v : W64) (s : State), Up s → n ≤ 15 →
    Completes (.compareArm n v) s fun t =>
      cmpUnit t n = { target := fld v 63 32, armed := (cmpUnit s n).armed || bitOf v 31
                      fired := (cmpUnit s n).fired && !bitOf v 30, source := fld v 11 0 } ∧
      (∀ m ≠ n, cmpUnit t m = cmpUnit s m) ∧ t.pkg = s.pkg ∧ t.mgt = s.mgt)

/-- R321: the device has 16 compare units, TBS_CMP0 to TBS_CMP15; a number above 15 names none. When an armed unit's
target is due, it sends the DIC message of its SOURCE, sets FIRED and disarms. A unit that is not armed, or whose target
is not due, does nothing, and no other unit changes. -/
def Obligations.CompareUnitsFire : Prop :=
  (∀ (n : Nat) (s : State), Up s → n ≤ 15 → (cmpUnit s n).armed = true → due32 (now32 s) (cmpUnit s n).target = true →
    exec (.compareFire n) s =
      .next (dicMessage (setCmp s n { cmpUnit s n with armed := false, fired := true }) 0 (cmpUnit s n).source)) ∧
  (∀ (n : Nat) (s : State), Up s → n ≤ 15 →
    (cmpUnit s n).armed = false ∨ due32 (now32 s) (cmpUnit s n).target = false → exec (.compareFire n) s = .next s) ∧
  (∀ (n : Nat) (v : W64) (s : State), 15 < n → exec (.compareFire n) s = .next s ∧ exec (.compareArm n v) s = .next s) ∧
  (∀ (n k x : Nat) (s : State),
    (∀ m ≠ n, cmpUnit (dicMessage (setCmp s n { cmpUnit s n with armed := false, fired := true }) k x) m = cmpUnit s m) ∧
    cmpUnit (dicMessage (setCmp s n { cmpUnit s n with armed := false, fired := true }) k x) n =
      { cmpUnit s n with armed := false, fired := true })

/-- A read of TBS_NT_NS or FH_NT_NS latches the fraction and gives the time. An accepted PPS_IN edge is stored and sent; one
within 500 ms is counted. PPS_OUT takes the level it is due, low while time is not locked. HOLDOVER is entered from LOCKED a second after
the last TIME_LOCK, and its end stops the cells. Loss of signal squelches the selected lane, and its return lifts it when the lane gives a clock. A copy of RAW
within one tick is noted; one further off is a copy fault, recorded. -/
def Obligations.ClockEventsRun : Prop :=
  (∀ s : State, Up s → exec .tbsNtNsRead s = .next (emit (modTim s fun t => { t with
    ntFrac := networkTime s / 65536 % 65536, ntRaw := t.raw }) (.readValue 0x7010 (networkNs s)))) ∧
  (∀ (d : Nat) (s : State), Up s → d = 4 ∨ d = 5 → exec (.fhNtNsRead d) s = .next (emit (modTim s fun t => { t with
    fhFrac := tset 0 t.fhFrac d (dieTime s d / 65536 % 65536) }) (.readValue 0x210000 (dieTime s d / 4294967296)))) ∧
  (∀ s : State, Up s → s.tim.ppsSeen = none → exec .ppsInEdge s = .next (dicMessage (modTim s fun t => { t with
    ppsSeen := some (now s), ppsNs := w64 (networkNs s), ppsRaw := t.raw }) 0 128)) ∧
  (∀ (u : Nat) (s : State), Up s → s.tim.ppsSeen = some u → since s u < 500 * ticksPerMs →
    exec .ppsInEdge s = .next (modTim s fun t => { t with ppsIgnored := t.ppsIgnored + 1 })) ∧
  (∀ (level : Bool) (s : State), Up s → level = ppsDue s → Completes (.ppsOutPulse level) s fun t =>
    t.pins.ppsOut = level ∧ t.tim = s.tim ∧ t.rad = s.rad ∧ t.pkg = s.pkg ∧
    t.out = (if s.pins.ppsOut = level then s.out else .ball "PPS_OUT" level :: s.out)) ∧
  (∀ (level : Bool) (s : State), level ≠ ppsDue s → exec (.ppsOutPulse level) s = .next s) ∧
  (∀ s : State, timeLocked s = false → ppsDue s = false) ∧
  (∀ s : State, s.tim.state = 2 → ticksPerS ≤ since s s.tim.lastLock → exec .holdoverEnter s = .next (modTim s fun t => { t with
    state := 3, holdSince := now s })) ∧
  (∀ s : State, s.tim.state ≠ 2 ∨ since s s.tim.lastLock < ticksPerS → exec .holdoverEnter s = .next s) ∧
  (∀ s : State, s.tim.state = 3 → s.tim.holdoverS * ticksPerS ≤ since s s.tim.holdSince →
    exec .holdoverExpire s = .next (lockStops s 3)) ∧
  (∀ (c : Nat) (s : State), (lockStops s c).tim.state = 1 ∧ (lockStops s c).rad.lockStop = airCells s ∧
    (lockStops s c).pins.ppsOut = false ∧
    (lockStops s c).tim.lockLosses = Nat.min 0xFFFF (s.tim.lockLosses + 1)) ∧
  (∀ (p lane : Nat) (s : State), Up s → p ≤ 3 → lane ≤ 3 → s.tim.syncePort = p → s.tim.synceLane = lane →
    Completes (.lossOfSignal p lane) s fun t => t.tim.squelch = true ∧ t.tim.noSignal.contains (p, lane) = true ∧
      t.fh = s.fh ∧ t.pkg = s.pkg) ∧
  (∀ (p lane : Nat) (s : State), Up s → p ≤ 3 → lane ≤ 3 → s.tim.syncePort = p → s.tim.synceLane = lane →
    (fhPort s p).up = true → (fhPort s p).lanes = 15 →
    Completes (.laneSignalRestored p lane) s fun t =>
      t.tim.squelch = false ∧ t.tim.noSignal.contains (p, lane) = false ∧ t.fh = s.fh ∧ t.pkg = s.pkg) ∧
  (∀ (d : Nat) (x : Int) (s : State), Up s → d = 4 ∨ d = 5 → x.natAbs < 2 →
    exec (.rawCopyCheck d x) s = .next (modTim s fun t => { t with copyOff := tset 0 t.copyOff d x })) ∧
  (∀ (d : Nat) (x : Int) (s : State), Up s → d = 4 ∨ d = 5 → 2 ≤ x.natAbs → tget none s.tim.copyBad d = none →
    exec (.rawCopyCheck d x) s = .next (raise (modTim s fun t => { t with
        copyFault := true, copyOff := tset 0 t.copyOff d 0, copyBad := tset none t.copyBad d (some (now s)) })
      { code := 0x031, severity := 1, die := d, d0 := 2, d1 := (BitVec.ofInt 64 x).toNat }))

/-- R277: in int16 mode VMAC and TAPMOV form each complex product exactly (the real part a.re × b.re − a.im × b.im, the
imaginary part a.re × b.im + a.im × b.re, b.im negated first with CONJ). Each part, negated when NEG is set, is added to
the 40-bit accumulator lane; a sum outside −2^39 to 2^39 − 1 saturates to the nearer limit and sets ACC_SAT; nothing
else is rounded. For VMAC a and b are the lanes of VA and VB, for TAPMOV the lane K of VC and the lanes of VW. -/
def Obligations.Int16ProductsAccumulate : Prop :=
  let re (a b : W32) (conj neg : Bool) : Int :=
    (if neg then -1 else 1) * (reI a * reI b - imI a * (if conj then -(imI b) else imI b))
  let im (a b : W32) (conj neg : Bool) : Int :=
    (if neg then -1 else 1) * (reI a * (if conj then -(imI b) else imI b) + imI a * reI b)
  let clamp (v : Int) : Int := max (-(2 ^ 39)) (min (2 ^ 39 - 1) v)
  let out (v : Int) : Prop := v < -(2 ^ 39) ∨ 2 ^ 39 - 1 < v
  let adds (x y : SigCore) (acc : Nat) (conj neg : Bool) (a b : Nat → W32) : Prop :=
    (∀ i < 16, (accI (accLane (accReg y acc) i)).1 = clamp ((accI (accLane (accReg x acc) i)).1 + re (a i) (b i) conj neg) ∧
      (accI (accLane (accReg y acc) i)).2 = clamp ((accI (accLane (accReg x acc) i)).2 + im (a i) (b i) conj neg)) ∧
    (y.accSat = true ↔ x.accSat = true ∨ ∃ i < 16, out ((accI (accLane (accReg x acc) i)).1 + re (a i) (b i) conj neg) ∨
      out ((accI (accLane (accReg x acc) i)).2 + im (a i) (b i) conj neg)) ∧
    (∀ j ≠ acc, accReg y j = accReg x j)
  (∀ (k acc va vb : Nat) (conj neg : Bool) (s : State),
    CoreAt s k false (coreInstr (.vmac k acc va vb conj neg false .ok)).get!.2.2 →
    Completes (.vmac k acc va vb conj neg false .ok) s fun t =>
      adds (sigCore s k) (sigCore t k) acc conj neg (lane (vReg (sigCore s k) va)) (lane (vReg (sigCore s k) vb)) ∧
      (sigCore t k).v = (sigCore s k).v) ∧
  (∀ (k acc vw vc tap : Nat) (conj : Bool) (s : State), vw % 2 = 0 →
    CoreAt s k false (coreInstr (.tapmov k acc vw vc tap conj false .ok)).get!.2.2 →
    Completes (.tapmov k acc vw vc tap conj false .ok) s fun t =>
      adds (sigCore s k) (sigCore t k) acc conj false (fun _ => lane (vReg (sigCore s k) vc) tap)
        (lane (vReg (sigCore s k) vw)))

/-- A descriptor that the fabric engine of a job starts reads or checks its local range and sends its packets: PUT its
data and its SIGNAL, GET its requests, an ATOMIC of each AOP its elements, a COLLECTIVE of each COP its first segment;
BARRIER arrives at chip 0. A descriptor that breaks its layout, in any of these 21 rows, faults the job with BAD_FIELD. A
packet toward a reachable device with a free tracker takes the next number of its pair and is tracked; one toward an unreachable device is not
sent, and the job faults with TARGET_LOST. -/
def Obligations.FabricDescriptorsStart : Prop :=
  (∀ (h : Nat) (m : ChipMap) (d : List W64) (bs : List Byte) (s : State), FabricStarts s h m 1 d →
    devRead (freshRun s) (jobIssuer (freshRun s) h) (fdLocal d) (fdLen d) = .ok bs →
    let a := freshRun s
    let dst := m.devs.getD (fdChip d) 0
    exec (.put h d) s = .next (sendRun a h { id := s.fab.nextId + 1, desc := d }
      (((pieces (fdLen d)).map fun p => mkPacket a 1 dst (chipIndex a h) m.num m.fgen (fdRemote d + p.1) []
          ((bs.drop p.1).take p.2)) ++
        if fdSignal d then [mkPacket a 4 dst (chipIndex a h) m.num m.fgen (fdResult d) [] (leBytes 8 (fdSigAdd d))]
        else []))) ∧
  (∀ (h : Nat) (m : ChipMap) (d : List W64) (s : State), FabricStarts s h m 2 d →
    checkRange (freshRun s) (jobIssuer (freshRun s) h) .wr (fdLocal d) (fdLen d) = none →
    let a := freshRun s
    exec (.get h d) s = .next (sendRun a h { id := s.fab.nextId + 1, desc := d, awaited := fdLen d }
      ((pieces (fdLen d)).map fun p => mkPacket a 2 (m.devs.getD (fdChip d) 0) (chipIndex a h) m.num m.fgen
        (fdRemote d + p.1) [] (bytesOf [w64 p.2, w64 (fdLocal d + p.1)])))) ∧
  (∀ r ∈ atomicRows, ∀ (h : Nat) (m : ChipMap) (d : List W64) (bs : List Byte) (s : State),
    FabricStarts s h m 3 d → fdOpc d = r.1 → fdFetch d = false →
    devRead (freshRun s) (jobIssuer (freshRun s) h) (fdLocal d) (fdLen d) = .ok bs →
    let a := freshRun s
    exec (r.2 h d) s = .next (sendRun a h { id := s.fab.nextId + 1, desc := d }
      ((pieces (fdLen d)).map fun p => mkPacket a 4 (m.devs.getD (fdChip d) 0) (chipIndex a h) m.num m.fgen
        (if r.1 ≥ 9 then fdRemote d else fdRemote d + p.1)
        [(60, r.1), (59, b2n (fdRelaxed d)), (58, b2n (fdFetch d))] ((bs.drop p.1).take p.2)))) ∧
  (∀ r ∈ collectiveRows, ∀ (h : Nat) (m : ChipMap) (d : List W64) (bs : List Byte) (s : State),
    FabricStarts s h m 4 d → fdOpc d = r.1 → tget none s.fab.colls h = none →
    checkRange (freshRun s) (jobIssuer (freshRun s) h) .wr (fdLocal d) (fdLen d) = none →
    devRead (freshRun s) (jobIssuer (freshRun s) h) (fdLocal d) (fdLen d) = .ok bs →
    exec (r.2 h d) s = .next (startColl (freshRun s) h m (s.fab.nextId + 1) (collOf r.1 d) d bs)) ∧
  (∀ r ∈ collectiveRows, ∀ (h : Nat) (d : List W64) (s : State), (tget none s.fab.colls h).isSome = true →
    exec (r.2 h d) s = .next s) ∧
  (∀ (h : Nat) (m : ChipMap) (d : List W64) (s : State), FabricStarts s h m 5 d → fdOpc d = 0 → m.waits = 0 →
    exec (.barrier h d) s = .next (settleBarrier (arriveBarrier
      (addRun (freshRun s) h { id := s.fab.nextId + 1, desc := d, awaited := 1 }) h 3 0 0 (s.fab.nextId + 1)) h)) ∧
  (∀ r ∈ [(1, Instr.put), (2, .get), (5, .barrier)] ++ atomicRows ++ collectiveRows,
    ∀ (h : Nat) (m : ChipMap) (d : List W64) (s : State), mapOfJob s h = some m → (job s h).st = .running →
    (job s h).barrierStep = none → ringWaits s h = none → tget none s.fab.colls h = none →
    fabDescBad m.devs.length d = true →
    exec (r.2 h d) s = .next (faultJob s h .badField)) ∧
  (∀ (p : Packet) (t : Track) (port : Nat) (s : State), homePort s (hDst p) = some port →
    (vfPort s port).up = true → s.fab.configured = true → tget none s.fab.routeNext (hDst p) = none →
    trackerFree s (6 + port / 8) (trackRadio s t) = true → (pairOf s (hDst p)).held = [] →
    let x := pairOf s (hDst p)
    ∃ u, sendPacket s p t = some u ∧
      pairOf u (hDst p) = { x with next := (x.next + 1) % 4294967296, sync := false, tracks := x.tracks ++
        [{ t with seq := x.next, packet := stampPacket p x.next x.sync, first := now s }] } ∧
      u.out = .packet port (stampPacket p x.next x.sync) :: s.out ∧ u.pkg = s.pkg ∧ u.jobs = s.jobs) ∧
  (∀ (p : Packet) (t : Track) (s : State), homePort s (hDst p) = none → sendPacket s p t = none) ∧
  (∀ (h : Nat) (r : FabRun) (ps : List Packet) (s : State), ps ≠ [] → (∀ p ∈ ps, homePort s (hDst p) = none) →
    sendRun s h r ps = faultJob s h .targetLost)

/-- For each of the eight sequenced types: on a port that is down nothing happens; before FABRIC_CONFIG the packet counts
UNCONFIGURED; then header CRC, TYPE and LEN, destination, in this order; a packet that passes but whose access finds no
free tracker is not answered yet, one behind a packet of its source that waits for a page waits with it, and any other is
looked at by its SEQ. A SEQ below the expected one is acknowledged again and counted, one above is answered by NACK, a failed payload CRC by NACK
CHECK_FAILED. A packet in sequence that is applied is acknowledged and moves the expected SEQ; a NACK does not. A put
lands, and an atomic writes its combined bytes. -/
def Obligations.PacketsArrive : Prop :=
  (∀ r ∈ [(1, Instr.putPacket), (2, .getReq), (3, .getData), (4, .atomicPacket), (5, .atomicResp),
      (8, .barrierArrive), (9, .barrierRelease), (10, .coll)], ∀ (port : Nat) (p : Packet) (s : State),
    (PacketArrives s port r.1 p → packetTracker (counted s port p) port p = false →
      exec (r.2 port p) s = .next (counted s port p)) ∧
    (PacketArrives s port r.1 p → packetTracker (counted s port p) port p = true → packetWaits s (hSrc p) = false →
      exec (r.2 port p) s = .next (receiveSeq (counted s port p) port p)) ∧
    (PacketArrives s port r.1 p → packetTracker (counted s port p) port p = true → packetWaits s (hSrc p) = true →
      exec (r.2 port p) s = .next (parkPacket (counted s port p) port p)) ∧
    ((vfPort s port).up = false → exec (r.2 port p) s = .next s) ∧
    (Up s → port ≤ 15 → (vfPort s port).up = true →
      (s.fab.configured = false → exec (r.2 port p) s = .next (vfCount s port 12)) ∧
      (s.fab.configured = true → headerCrc p.header ≠ fld (wd p.header 3) 31 0 →
        exec (r.2 port p) s = .next (vfCount s port 0)) ∧
      (s.fab.configured = true → headerCrc p.header = fld (wd p.header 3) 31 0 → hType p = 0 ∨ 11 < hType p ∨
          4096 < hLen p → exec (r.2 port p) s = .next (vfCount s port 2)) ∧
      (s.fab.configured = true → headerCrc p.header = fld (wd p.header 3) 31 0 → hType p = r.1 →
        hLen p ≤ 4096 → hLen p = p.payload.length → hDst p ≠ s.fab.dev →
        exec (r.2 port p) s = .next (vfCount s port 3)))) ∧
  (∀ (port : Nat) (p : Packet) (s : State), hSync p = false →
    let want := (pairOf s (hSrc p)).expect
    (diff32 (hSeq p) want < 0 → receiveSeq s port p =
      sendReply (vfCount s port 4) 6 (hSrc p) ((want + 4294967295) % 4294967296) 0) ∧
    (0 < diff32 (hSeq p) want → receiveSeq s port p = sendReply s 7 (hSrc p) want 0) ∧
    (diff32 (hSeq p) want = 0 →
      let a := modPair s (hSrc p) fun x => { x with expect := want }
      (p.payload ≠ [] → crc32c p.payload ≠ p.payloadCrc.toNat → receiveSeq s port p =
        sendReply (vfCount a port 1) 7 (hSrc p) (hSeq p) 8) ∧
      (p.payload = [] ∨ crc32c p.payload = p.payloadCrc.toNat →
        (∀ u, applyPacket a port p = .applied u → receiveSeq s port p =
          sendReply (modPair u (hSrc p) fun x => { x with expect := (hSeq p + 1) % 4294967296 }) 6 (hSrc p)
            (hSeq p) 0) ∧
        (∀ u, applyPacket a port p = .nack u .denied → receiveSeq s port p =
          sendReply (vfCount u port 6) 7 (hSrc p) (hSeq p) (statusCode .denied)) ∧
        (∀ u, applyPacket a port p = .drop u → receiveSeq s port p =
          modPair u (hSrc p) fun x => { x with expect := (hSeq p + 1) % 4294967296 }) ∧
        (applyPacket a port p = .wait → receiveSeq s port p = parkPacket a port p)))) ∧
  (∀ (port : Nat) (p : Packet) (s : State), hJob p ≠ 0 → mapOf s (hJob p) = none →
    applyPacket s port p = .nack s .denied) ∧
  (∀ (port : Nat) (m : ChipMap) (p : Packet) (s : State), hJob p ≠ 0 → mapOf s (hJob p) = some m →
    (hFgen p ≠ m.fgen → applyPacket s port p = .drop (vfCount s port 5)) ∧
    (hFgen p = m.fgen → m.devs.getD (hChip p) 1024 ≠ hSrc p → applyPacket s port p = .nack s .denied)) ∧
  (∀ (port : Nat) (m : ChipMap) (p : Packet) (s u : State), hType p = 1 →
    devWrite s (mapIssuer s m) .wr (hAddr p) p.payload = .ok u →
    applyData s port m p = .applied (countFabric u m.sleeve ((mapJob s m).getD 0) p.payload.length)) ∧
  (∀ (port : Nat) (m : ChipMap) (p : Packet) (s : State), hType p = 4 → hFetch p = false →
    atomicBad (hOpc p) (hAddr p) p.payload.length (hRelaxed p) false = false → hOpc p < 9 →
    checkRange s (mapIssuer s m) .at (hAddr p) p.payload.length = none →
    windowEcc s (hAddr p) p.payload.length = false →
    applyData s port m p = .applied (countFabric (windowWrite s (hAddr p)
      (atomicBytes (hOpc p) (windowRead s (hAddr p) p.payload.length) p.payload)) m.sleeve ((mapJob s m).getD 0)
        p.payload.length)) ∧
  (∀ old x : List Byte, old.length = 8 → x.length = 16 →
    atomicBytes 9 old x = if old = x.take 8 then x.drop 8 else old)

/-- ACK releases every packet up to its SEQ and counts the choices of each; NACK with status 0 resends from its SEQ, a first
CHECK_FAILED resends its packet once, and any other status faults the packet's job. ACK_TIMEOUT resends what is
outstanding once the oldest packet has waited 100 µs, once more at 200 µs, and never again; LINK_TIMEOUT gives up the
packets first sent a link timeout ago and faults their jobs. BARRIER_TIMEOUT faults a job that has waited BARRIER_TIMEOUT
at a barrier. SLOW_CHIP_RECEIVED is recorded and makes suspects of the engines of the job. -/
def Obligations.AcknowledgementsRun : Prop :=
  (∀ (port : Nat) (p : Packet) (s : State), PacketArrives s port 6 p →
    let a := counted s port p
    let x := pairOf s (hSrc p)
    let covered (t : Track) : Bool := decide (0 ≤ diff32 (hSeq p) t.seq)
    exec (.ack port p) s = .next (settleAll (flushAll (routeChange ((x.tracks.filter covered).foldl
      (fun s t => acked s (hSrc p) t) (setPair a (hSrc p) { x with tracks := x.tracks.filter fun t => !covered t }))
        (hSrc p))))) ∧
  (∀ (port : Nat) (p : Packet) (s : State), PacketArrives s port 7 p → hAddr p / 4294967296 = 0 →
    exec (.nack port p) s = .next (resend (counted s port p) (hSrc p)
      ((pairOf s (hSrc p)).tracks.filter fun t => decide (0 ≤ diff32 t.seq (hSeq p))))) ∧
  (∀ (port : Nat) (p : Packet) (t : Track) (s : State), PacketArrives s port 7 p →
    (pairOf s (hSrc p)).tracks.find? (fun t => t.seq == hSeq p) = some t → t.cell = none → t.job ≠ 0 →
    (hAddr p / 4294967296 = statusCode .denied →
      exec (.nack port p) s = .next (faultJob (counted s port p) t.job .denied)) ∧
    (hAddr p / 4294967296 = statusCode .checkFailed → t.failed = true →
      exec (.nack port p) s = .next (faultJob (counted s port p) t.job .checkFailed)) ∧
    (hAddr p / 4294967296 = statusCode .checkFailed → t.failed = false →
      exec (.nack port p) s = .next (resend (setPair (counted s port p) (hSrc p) { pairOf s (hSrc p) with
        tracks := (pairOf s (hSrc p)).tracks.map fun u => if u.seq == t.seq then { u with failed := true } else u })
          (hSrc p) [t]))) ∧
  (∀ (d : Nat) (o : Track) (r : List Track) (s : State), (pairOf s d).tracks = o :: r →
    (o.resent < 2 → (o.resent + 1) * usTicks 100 ≤ since s o.first → exec (.ackTimeout d) s = .next
      (resend (setPair s d { pairOf s d with tracks := { o with resent := o.resent + 1 } :: r }) d (o :: r))) ∧
    (2 ≤ o.resent ∨ since s o.first < (o.resent + 1) * usTicks 100 → exec (.ackTimeout d) s = .next s)) ∧
  (∀ (d : Nat) (s : State), (pairOf s d).tracks = [] → exec (.ackTimeout d) s = .next s) ∧
  (∀ (d port : Nat) (t : Track) (s : State), homePort s d = some port → (vfPort s port).up = true →
    (resend s d [t]).out = .packet port t.packet :: s.out ∧ (resend s d [t]).fab.pairs = s.fab.pairs ∧
    (resend s d [t]).pkg = s.pkg) ∧
  (∀ (d : Nat) (s : State),
    let late (t : Track) : Bool := (pairOf s d).tracks.contains t &&
      decide (s.fab.linkMs * ticksPerMs ≤ since s t.first)
    ((∃ t ∈ (pairOf s d).tracks, s.fab.linkMs * ticksPerMs ≤ since s t.first) → exec (.linkTimeout d) s = .next (flushAll (routeChange (loseJobs
      (dropTracks s d late).1 (dropTracks s d late).2) d))) ∧
    ((∀ t ∈ (pairOf s d).tracks, since s t.first < s.fab.linkMs * ticksPerMs) → exec (.linkTimeout d) s = .next s)) ∧
  (∀ (h : Nat) (m : ChipMap) (s : State), mapOfJob s h = some m → m.waits ≠ 0 → m.released = false →
    s.fab.barrierMs * ticksPerMs ≤ since s m.arrivedAt →
    exec (.barrierTimeout h) s = .next (faultJob s h (if m.lost then .targetLost else .timeout))) ∧
  (∀ (n c : Nat) (m : ChipMap) (s : State), mapOf s n = some m →
    let a := raise s { code := 0x032, severity := 0, d0 := n, d1 := c }
    (mapJob a m = none → exec (.slowChipReceived n c) s = .next a) ∧
    (∀ h, mapJob a m = some h → exec (.slowChipReceived n c) s =
      .next (((jobSlots a h).map (·.1)).eraseDups.foldl markSuspect a)))

/-- A replay request is counted and sent, and the eighth failed replay of one packet in a row takes the port down; a lane drop leaves three lanes, or
takes a degraded port down; a port down loses the jobs that it owed; a port comes up at a retry. FABRIC_CONFIG,
FABRIC_ROUTE_SET, FABRIC_JOB_MAP, FABRIC_SINK, FABRIC_TEARDOWN, FABRIC_DEVICE_LOST, FABRIC_STATUS and FABRIC_PORT_RESTORE
with good arguments have their effect and answer OK; chip maps still installed make FABRIC_CONFIG NOT_QUIESCED. The
receiver of a line removes the whitening that its transmitter puts on it. -/
def Obligations.FabricCommandsRun : Prop :=
  (∀ (p l : Nat) (s : State), p ≤ 15 → (vfPort s p).up = true →
    let n := failedReplays (vfPort s p) l
    exec (.linkReplayRequest p l) s = .next (
      let a := emit (modVfPort (vfCount s p 7) p fun x => { x with replay := some (l, n) }) (.replayRequest (16 + p))
      if 8 ≤ n then vfDown a p else a)) ∧
  (∀ (l n : Nat) (x : VfPort), x.replay = some (l, n) →
    failedReplays x l = n + 1 ∧ ∀ k ≠ l, failedReplays x k = 0) ∧
  (∀ (p lane : Nat) (s : State), p ≤ 15 → lane ≤ 3 → (vfPort s p).up = true → 10 ≤ tget 0 (vfPort s p).low lane →
    exec (.fabricLaneDrop p lane) s = .next (
      let a := portEvent (vfCount s p 10) 2 (6 + p / 8) p 1
      if (vfPort s p).degraded then vfDown a p
      else modVfPort a p fun x => { x with degraded := true, dropped := lane, lanes := 15 - 2 ^ lane, low := []
                                           whitening := whiteningSeeds })) ∧
  (∀ (p : Nat) (s : State), p ≤ 15 → (vfPort s p).up = true → exec (.fabricPortDown p) s = .next (vfDown s p)) ∧
  (∀ (p : Nat) (s : State), s.boot.phase = .booted → p ≤ 15 → (vfPort s p).up = false →
    s.hlt.hr.dies.contains (6 + p / 8) = false →
    exec (.fabricLinkRetry p true) s = .next (vfLinkUp s p) ∧ exec (.fabricLinkRetry p false) s = .next s) ∧
  (∀ (c : Cmd) (s : State), Served 0x400 7 isMgmt c s → s.hlt.hr.withdrawn = false → s.boot.minimal = false →
    fabricConfigBad (argN c) = false →
    (s.fab.maps = [] → exec (.fabricConfig c) s = .next (answered 0x400 7 c { endCarries s with fab := { (endCarries s).fab with
      configured := true, dev := argN c 0, fmDev := argN c 1, mgmt := argN c 2, linkMs := argN c 3
      barrierMs := argN c 4, lagNs := argN c 5, eyeMin := argN c 6, pairs := [] } } [])) ∧
    (s.fab.maps ≠ [] → exec (.fabricConfig c) s = .next (finish s c.src 0x400 .notQuiesced []))) ∧
  (∀ (c : Cmd) (s : State), Served 0x401 (1 + 2 * Nat.min 1024 (argN c 0)) isFabricUser c s → argN c 0 ≤ 1024 →
    ((routeItems c).any fun i => i.1 > 1023 || (i.2 > 15 && i.2 != 0xFF)) = false →
    exec (.fabricRouteSet c) s = .next (answered 0x401 (1 + 2 * Nat.min 1024 (argN c 0)) c
      ((routeItems c).foldl (fun s i => setRoute s i.1 (if i.2 = 0xFF then none else some i.2)) s) [])) ∧
  (∀ (d : Nat) (r : Option Nat) (s : State), (pairOf s d).tracks = [] → (pairOf s d).held = [] →
    homePort (setRoute s d r) d = r ∧ ∀ e ≠ d, homePort (setRoute s d r) e = homePort s e) ∧
  (∀ (c : Cmd) (bs : List Byte) (s t : State), Served 0x402 5 isFabricUser c s → 1 ≤ argN c 2 → argN c 2 ≤ 1024 →
    readArg s (partyOf c.src) c.hostData (arg c 4) (8 * argN c 2) = .ok bs →
    installMap s (argN c 0) (argN c 1) (argN c 3) ((wordsOf (argN c 2) bs).map (·.toNat)) false = .ok t [] →
    exec (.fabricJobMap c) s = .next (answered 0x402 5 c t [])) ∧
  (∀ (c : Cmd) (hd bs : List Byte) (s t : State), Served 0x403 4 isFabricUser c s → 1 ≤ leNat hd → leNat hd ≤ 1024 →
    readArg s (partyOf c.src) c.hostData (arg c 3) 8 = .ok hd →
    readArg s (partyOf c.src) c.hostData (arg c 3) (8 * (leNat hd + 1)) = .ok bs →
    installMap s (argN c 0) (argN c 1) (argN c 2) ((wordsOf (leNat hd) (bs.drop 8)).map (·.toNat)) true = .ok t [] →
    exec (.fabricSink c) s = .next (answered 0x403 4 c t [])) ∧
  (∀ (n g k h : Nat) (devs : List Nat) (sink : Bool) (s : State), 1 ≤ n → n < 16777216 → g ≤ 255 → mapOf s n = none →
    devs ≠ [] → devs.length ≤ 1024 → (∀ d ∈ devs, d ≤ 1023) → NamesSleeve s k → freeHandle s = some h →
    let a := modJob s h fun j => { j with held := false }
    installMap s n g k devs sink = .ok { a with fab := { a.fab with maps := a.fab.maps ++
      [{ num := n, fgen := g, sleeve := k, devs := devs, handle := h, sink := sink }] } } []) ∧
  (∀ (c : Cmd) (m : ChipMap) (s : State), Served 0x404 3 isFabricUser c s → mapOf s (argN c 0) = some m →
    argN c 1 ≤ 255 → argN c 2 ≤ 14 →
    (mapJob s m = none → exec (.fabricTeardown c) s = .next (answered 0x404 3 c { s with fab := { s.fab with
      maps := s.fab.maps.filter (·.num != argN c 0) } } [])) ∧
    (∀ h, mapJob s m = some h → exec (.fabricTeardown c) s = .next (answered 0x404 3 c
      (beginTeardown (modMap s (argN c 0) fun x => { x with fgen := argN c 1, torn := true }) h (argN c 2) 2) []))) ∧
  (∀ (c : Cmd) (s : State), Served 0x405 1 isFabricUser c s → argN c 0 ≤ 1023 →
    let r := dropTracks s (argN c 0) fun _ => true
    exec (.fabricDeviceLost c) s = .next (answered 0x405 1 c (flushAll (routeChange (setPair (loseJobs
      (markLost r.1 (argN c 0)) r.2) (argN c 0) {}) (argN c 0))) [])) ∧
  (∀ (c : Cmd) (s : State), Served 0x406 1 isFabricUser c s → argN c 0 = 0xFF →
    exec (.fabricStatus c) s = .next (answered 0x406 1 c s ([w64 (vfDeviceReg s), w64 s.fab.maps.length] ++
      s.fab.maps.flatMap (mapWords s)))) ∧
  (∀ (c : Cmd) (s : State), Served 0x406 1 isFabricUser c s → argN c 0 ≤ 15 →
    let x := vfPort s (argN c 0)
    exec (.fabricStatus c) s = .next (answered 0x406 1 c s ([w64 (vfStatusReg s (argN c 0)), w64 (laneEyeReg x.eye),
      x.rxBytes, x.txBytes] ++ pack32 ((List.range 13).map fun i => eventReg (tget {} x.ctrs i)) ++
        [w64 s.fab.maps.length] ++ s.fab.maps.flatMap (mapWords s)))) ∧
  (∀ (c : Cmd) (s : State), Served 0x407 1 isFabricUser c s → argN c 0 ≤ 15 →
    ((vfPort s (argN c 0)).up = true →
      exec (.fabricPortRestore c) s = .next (answered 0x407 1 c (vfLinkUp s (argN c 0)) [])) ∧
    ((vfPort s (argN c 0)).up = false →
      exec (.fabricPortRestore c) s = .next (answered 0x407 1 c s []))) ∧
  (∀ (r : BitVec 31) (bits : List Bool), whiten r (whiten r bits) = bits)

/-- For each of the 88 commands that Tacor serves: in reset nothing happens; while Tacor is not RUNNING a mailbox or fabric
command ends with BUSY and an entry of a submission queue stays unfetched; a command that the sleeve's state, the rights
or the argument list stop ends with that status and changes nothing but its completion. So a tenant's command that R369
gives to the management alone is DENIED without effect. -/
def Obligations.TacorCommandsAreGated : Prop :=
  (∀ (i : Instr) (op argc : Nat) (allow : Party → Bool) (c : Cmd) (s : State),
    tacorRow i = some (op, argc, allow, c) →
    (s.boot.phase = .held → exec i s = .next s) ∧
    (Up s → srcExists s c.src = false → exec i s = .next s) ∧
    (Up s → srcExists s c.src = true → s.mgt.tacor ≠ 1 → ∀ w n, c.src = .mailbox w n →
      exec i s = .next (finish s c.src op .busy [])) ∧
    (Up s → srcExists s c.src = true → s.mgt.tacor ≠ 1 → ∀ k n, c.src = .subq k n → exec i s = .next s) ∧
    (∀ st, Up s → srcExists s c.src = true → s.mgt.tacor = 1 → gate op argc allow c s = some st →
      exec i s = .next (finish s c.src op st []))) ∧
  (∀ (op argc k : Nat) (allow : Party → Bool) (c : Cmd) (s : State), partyOf c.src = .tenant k →
    queueFull s c.src = false →
    ((sleeve s k).st = .active → allow (.tenant k) = false → gate op argc allow c s = some .denied) ∧
    ((sleeve s k).st = .absent → gate op argc allow c s = some .denied) ∧
    ((sleeve s k).st = .quiesced → quiesceAllowed op = false → gate op argc allow c s = some .busy)) ∧
  (∀ k, isMgmt (.tenant k) = false ∧ isManager (.tenant k) = false ∧ isMgrRadio (.tenant k) = false ∧
    isMgmtRadio (.tenant k) = false ∧ isFabricUser (.tenant k) = false) ∧
  (∀ (op : Nat) (src : Src) (st : Status) (res : List W64) (s : State),
    let t := finish s src op st res
    t.pkg.owner = s.pkg.owner ∧ (s.slv.all (fun e => !e.2.dirtyOn) = true → t.pkg = s.pkg) ∧ t.jobs = s.jobs ∧
    t.eng = s.eng ∧ t.rad = s.rad ∧ t.fab = s.fab ∧ t.fh = s.fh ∧ t.tim = s.tim ∧
    t.lin = s.lin ∧ t.pwr = s.pwr ∧ t.hlt = s.hlt ∧ t.nvm = s.nvm ∧ t.boot = s.boot)

/-- A post to a FREE slot is accepted, or BUSY while Tacor is not RUNNING or the queue holds 32; one to a slot in use is
ignored. A reserved opcode is BAD_FIELD. A class 3 command not started within 10 ms ends with BUSY and is counted. A fault of Tacor starts
a restart, which ends RUNNING with the locked image or with that of a flash whose header is the same, or in a device
reset. MGMT_STATUS and TELEMETRY_READ answer OK with their words. -/
def Obligations.TacorRuns : Prop :=
  (∀ (w i : Nat) (op : BitVec 16) (tag : W32) (args : List W64) (s : State), Up s → w ≤ 64 → i ≤ 14 →
    (w ≤ 63 → s.mgt.cxlUp = true) → (mslot s w i).state = 0 →
    let m : MSlot := { opcode := op.toNat, tag := tag.toNat, args := args.take 30 }
    (s.mgt.tacor = 1 → queued s (partyOf (.mailbox w i)) < 32 →
      exec (.mailboxPost w i op tag args) s = .next (
        let a := setMslot s w i { m with state := 2 }
        { a with mgt := { a.mgt with
            accepted := s.mgt.accepted ++ [{ src := .mailbox w i, opcode := op.toNat, raw := now s }] } })) ∧
    (s.mgt.tacor ≠ 1 ∨ 32 ≤ queued s (partyOf (.mailbox w i)) →
      exec (.mailboxPost w i op tag args) s =
        .next (setMslot s w i { m with status := statusCode .busy, state := 3 }))) ∧
  (∀ (w i : Nat) (op : BitVec 16) (tag : W32) (args : List W64) (s : State), (mslot s w i).state ≠ 0 →
    exec (.mailboxPost w i op tag args) s = .next s) ∧
  (∀ (op : Nat) (c : Cmd) (s : State), definedOpcode op = false →
    Served op 0 (fun _ => true) { c with args := [] } s →
    exec (.reservedCommand op c) s = .next (finish s c.src op .badField [])) ∧
  (∀ (src : Src) (a : Accepted) (s : State), s.mgt.accepted.find? (·.src == src) = some a → a.waiting = false →
    isTelemetry a.opcode = true → 10 * ticksPerMs ≤ since s a.raw →
    exec (.telemetryDrop src) s = .next (finish { s with mgt := { s.mgt with
      telemetryDropped := s.mgt.telemetryDropped.add 0x7FFFFFFF 1 } } src a.opcode .busy [])) ∧
  (∀ (c : RestartCause) (s : State), s.boot.phase = .booted → s.mgt.tacor ≠ 0 →
    exec (.tacorWatchdog c) s = .next (startRestart s c)) ∧
  (∀ (c : RestartCause) (s : State), s.mgt.restarts = [] →
    (startRestart s c).mgt.tacor = 2 ∧ (startRestart s c).mgt.eid = none ∧
    (startRestart s c).mgt.restarts = [now s] ∧ (startRestart s c).jobs = s.jobs ∧ (startRestart s c).nvm = s.nvm) ∧
  (∀ (flashOk : Bool) (s : State), s.mgt.tacor = 2 →
    exec (.tacorRestartDone true flashOk) s = .next (postEvent (releaseRestartHolds (readJournal
      (tacorBack { s with mgt := { s.mgt with tacor := 1 } }))) 4 0 0) ∧
    exec (.tacorRestartDone false false) s = .next (deviceReset s (some 5)) ∧
    (10 * ticksPerS ≤ since s s.mgt.restartAt → exec .tacorRestartLimit s = .next (deviceReset s (some 5))) ∧
    (since s s.mgt.restartAt < 10 * ticksPerS → exec .tacorRestartLimit s = .next s)) ∧
  (∀ s : State, s.mgt.tacor = 2 → flashMatches s = true →
    exec (.tacorRestartDone false true) s = .next (postEvent (releaseRestartHolds (readJournal (tacorBack
      (let a := physWrite s (memKey 4 (6 * 2 ^ 20)) (secOf (s.boot.flash.getD []) 2)
       { a with mgt := { a.mgt with tacor := 1 } })))) 4 0 0)) ∧
  (∀ (flashOk : Bool) (s : State), s.mgt.tacor = 2 → flashMatches s = false →
    exec (.tacorRestartDone false flashOk) s = .next (deviceReset s (some 5))) ∧
  (∀ (c : Cmd) (s : State), Served 0x000 0 isMgmtRadio c s →
    let f := Config.freeWord 3
    let n := s.freeCount
    exec (.mgmtStatus c) s = .next (answered 0x000 0 c { s with freeCount := n + 4 } ([w64 (statusReg s), 67] ++
      ([Party.manager, .bmc, .fabric, .radio] ++ (List.range 63).map fun i => Party.tenant (i + 1)).map
        (fun p => w64 (queuedWith s c.src p)) ++
      [f n, f (n + 1), f (n + 2), f (n + 3), w64 (ctrReg s.mgt.telemetryDropped)]))) ∧
  (∀ (c : Cmd) (s : State), Served 0x007 0 isMgmt c s →
    exec (.telemetryRead c) s = .next (answered 0x007 0 c s ((List.range 8).map (fun d => w64 (diePwr s d).tj) ++
      [w64 (powerMw s)] ++ (List.range 8).map (dieEnergy s))))

/-- HC_LOAD whose checks pass puts a context on the core; the first check that fails gives its status. HC_STOP and the exit
call tear it down; HC_STATUS reads it. DIC_ROUTE_SET takes effect at once on an idle source and later on a busy one. A
doorbell makes an idle source PENDING; the delivery gives the first source by PRIO and number to its target; the end of
interrupt that matches pops and rearms; a read of DIC_SRC clears its COUNT. -/
def Obligations.HostCoresAndInterruptsRun : Prop :=
  (∀ (c : Cmd) (s : State), Served 0x001 (if argN c 1 = 0 then 6 else 5) isMgrRadio c s →
    (∀ h, firstFail (hcLoadChecks s c (partyOf c.src)) = none → freeHandle s = some h →
      exec (.hcLoad c) s = .next (answered 0x001 (if argN c 1 = 0 then 6 else 5) c (loadCore s c h)
        [w64 h, w64 (job s h).gen])) ∧
    (∀ st, firstFail (hcLoadChecks s c (partyOf c.src)) = some st →
      exec (.hcLoad c) s = .next (finish s c.src 0x001 st []))) ∧
  (∀ (c : Cmd) (h : Nat) (s : State), 
    hostCore (loadCore s c h) (argN c 0) =
      ⟨true, argN c 1, h, (job s h).gen, argN c 2, argN c 3, argN c 4, 0, 0⟩ ∧
    (job (loadCore s c h) h).st = .running ∧ (job (loadCore s c h) h).owner = argN c 1 ∧
    (∀ g ≠ h, job (loadCore s c h) g = job s g) ∧ (loadCore s c h).pkg = s.pkg) ∧
  (∀ (c : Cmd) (s : State), Served 0x002 1 isMgrRadio c s → argN c 0 ≤ 15 → (hostCore s (argN c 0)).loaded = true →
    (partyOf c.src = .radio → (hostCore s (argN c 0)).sleeve = 0) →
    (job s (hostCore s (argN c 0)).handle).st ≠ .draining →
    exec (.hcStop c) s = .next (resetUnit (beginTeardown (journal s c.src 0x002) (hostCore s (argN c 0)).handle 0 2
      (some c.src)) (96 + argN c 0))) ∧
  (∀ (c : Cmd) (s : State), Served 0x003 1 isMgmtRadio c s → argN c 0 ≤ 15 → (hostCore s (argN c 0)).loaded = true →
    let x := hostCore s (argN c 0)
    exec (.hcStatus c) s =
      .next (answered 0x003 1 c s [w64 x.sleeve, w64 x.handle, w64 x.gen, x.retired, x.beats])) ∧
  (∀ (k : Nat) (st : BitVec 16) (s : State), (hostCore s k).loaded = true →
    exec (.hcExitCall k st) s = .next (beginTeardown s (hostCore s k).handle st.toNat 1)) ∧
  (∀ (c : Cmd) (s : State), Served 0x004 2 isMgrRadio c s → argN c 0 ≤ 4095 → 256 ≤ argN c 0 →
    fld (arg c 1) 63 32 = 0 → fld (arg c 1) 15 0 = 0 → fld (arg c 1) 24 20 ≤ 19 → partyOf c.src = .manager →
    ((dicSrc s (argN c 0)).pending = false → (dicSrc s (argN c 0)).active = false →
      exec (.dicRouteSet c) s = .next (answered 0x004 2 c { s with mgt := { s.mgt with
        routes := tset 0 s.mgt.routes (argN c 0) (BitVec.ofNat 32 (arg c 1).toNat) } } [])) ∧
    ((dicSrc s (argN c 0)).pending = true ∨ (dicSrc s (argN c 0)).active = true →
      exec (.dicRouteSet c) s = .next (answered 0x004 2 c { s with mgt := { s.mgt with
        routeNext := tset none s.mgt.routeNext (argN c 0) (some (BitVec.ofNat 32 (arg c 1).toNat)) } } []))) ∧
  (∀ (c : Cmd) (s : State), Served 0x005 1 isMgmtRadio c s → argN c 0 ≤ 19 →
    exec (.dicStatus c) s = .next (answered 0x005 1 c s ([w64 (dicCoreReg (dicCore s (argN c 0)))] ++
      pack32 ((List.range 16).map (dicStackReg (dicCore s (argN c 0)))) ++ [w64 (dicCounts s)]))) ∧
  (∀ (sl n : Nat) (s : State), Up s → n < 4096 → bitOf (dicRoute s n) 31 = true → fld (dicRoute s n) 30 25 = sl →
    (dicSrc s n).pending = false → (dicSrc s n).active = false →
    Completes (.dicDoorbell sl (BitVec.ofNat 32 n)) s fun t =>
      dicSrc t n = { dicSrc s n with pending := true } ∧ (∀ m ≠ n, dicSrc t m = dicSrc s m) ∧ t.pkg = s.pkg) ∧
  (∀ (sl n : Nat) (s : State), Up s → n < 4096 → bitOf (dicRoute s n) 31 = true → fld (dicRoute s n) 30 25 ≠ sl →
    exec (.dicDoorbell sl (BitVec.ofNat 32 n)) s = .next (dicDrop s true)) ∧
  (∀ (t n prio : Nat) (s : State), t ≤ 19 → dicNext s t = some (n, prio) → (dicCore s t).enable = true →
    (dicCore s t).frozen = false → dicTargetUp s t = true → (∀ e ∈ (dicCore s t).stack.head?, prio < e.2) →
    Completes (.dicDelivery t) s fun u =>
      (dicCore u t).stack = (n, prio) :: (dicCore s t).stack ∧
      dicSrc u n = { dicSrc s n with pending := false, active := true } ∧ (∀ m ≠ n, dicSrc u m = dicSrc s m) ∧
      u.out = .dicInterrupt t n :: s.out ∧ u.pkg = s.pkg) ∧
  (∀ (t n prio : Nat) (rest : List (Nat × Nat)) (s : State), t ≤ 19 → n < 4096 →
    (dicCore s t).stack = (n, prio) :: rest → (dicCore s t).frozen = false → tget none s.mgt.routeNext n = none →
    Completes (.dicEoi t (BitVec.ofNat 32 n)) s fun u =>
      (dicCore u t).stack = rest ∧
      dicSrc u n = { dicSrc s n with active := false, pending := (dicSrc s n).rearm, rearm := false } ∧
      u.pkg = s.pkg ∧ u.jobs = s.jobs) ∧
  (∀ (n : Nat) (s : State), Up s → n ≤ 4095 →
    exec (.dicSrcRead n) s = .next (setDicSrc (emit s (.readValue (dicSrcAddr n) (dicSrcReg (dicSrc s n)))) n
      { dicSrc s n with count := 0 }))

/-- A CXL.mem access that its page lets through reads or writes; a refused read gives zeros and an event, a refused write an
event and nothing else; one to a page in move waits, as does one that finds no tracker. Link down resets the function; link up takes width and rate. A
SIDEBAND_UPLOAD lands in its area. ENTDAA and SET_ENDPOINT_ID give the addresses; PLDM requests get their answers while
Tacor runs and ERROR_NOT_READY otherwise; a record acknowledged leaves the queue. The console prints its three lines. -/
def Obligations.HostAttachmentRuns : Prop :=
  (∀ (addr len : Nat) (s : State), s.mgt.cxlUp = true → s.boot.phase = .booted → inWindow addr len = true →
    trackerFree s 6 false = true → exec (.cxlMemRead addr len) s = .next (match cxlCheck s .rd addr len with
      | .serve => cxlReadNow s addr len
      | .wait => { s with pkg := { s.pkg with waiters := s.pkg.waiters ++ [(addr / 65536, .cxlRead addr len)] } }
      | .refused st k => postEvent (emit s (.cxlData addr (List.replicate len 0) false)) 2 st k [w64 addr])) ∧
  (∀ (addr : Nat) (d : List Byte) (s : State), s.mgt.cxlUp = true → s.boot.phase = .booted →
    inWindow addr d.length = true → trackerFree s 6 false = true →
    exec (.cxlMemWrite addr d) s = .next (match cxlCheck s .wr addr d.length with
      | .serve => cxlWriteNow s addr d
      | .wait => { s with pkg := { s.pkg with waiters := s.pkg.waiters ++ [(addr / 65536, .cxlWrite addr d)] } }
      | .refused st k => postEvent s 2 st k [w64 addr])) ∧
  (∀ (addr len : Nat) (d : List Byte) (s : State), trackerFree s 6 false = false →
    exec (.cxlMemRead addr len) s = .next s ∧ exec (.cxlMemWrite addr d) s = .next s) ∧
  (∀ (addr len k : Nat) (s : State), ownValid (ownEntry s (addr / 65536)) = false →
    s.pkg.ownerEcc.contains (addr / 65536) = false → ownLoc (ownEntry s (addr / 65536)) ≠ 3 →
    fld (ownEntry s (addr / 65536)) 28 24 = 0 → k = ownOwner (ownEntry s (addr / 65536)) →
    cxlCheck s .rd addr len = .refused (statusCode .denied) k) ∧
  (∀ s : State, s.mgt.cxlUp = true → exec (.cxlLinkDown .linkDown) s = .next (linkDown s) ∧
    (linkDown s).mgt.cxlUp = false ∧ (linkDown s).mgt.pasidOn = false ∧ (linkDown s).mgt.snoop = [] ∧
    (linkDown s).mgt.accepted = s.mgt.accepted ∧ (linkDown s).jobs = s.jobs ∧ (linkDown s).pkg = s.pkg) ∧
  (∀ s : State, Up s → s.mgt.cxlHeld = false →
    Completes (.cxlLinkUp 16 128) s fun t => t.mgt.cxlUp = true ∧ t.mgt.width = 4 ∧ t.mgt.rate = 7 ∧ t.pkg = s.pkg) ∧
  (∀ (b : Bool) (s : State), s.mgt.cxlUp = true →
    exec (.pasidEnableChange b) s = .next { s with mgt := { s.mgt with pasidOn := b } }) ∧
  (∀ s : State, s.mgt.cxlUp = true → Completes .evtLostRead s fun t =>
    t.mgt.evtLost = { s.mgt.evtLost with count := 0 } ∧
    t.out = .readValue 0x4001C (ctrReg s.mgt.evtLost) :: s.out ∧ t.pkg = s.pkg) ∧
  (∀ (c : Cmd) (s : State), Served 0x006 (3 + cdiv (argN c 2 % 8192) 8) (· == .bmc) c s → argN c 0 ≤ 1 →
    argN c 2 ≤ 4032 → argN c 1 + argN c 2 ≤ areaSize (argN c 0) →
    exec (.sidebandUpload c) s = .next (answered 0x006 (3 + cdiv (argN c 2 % 8192) 8) c (physWrite s
      (areaBase (argN c 0) + argN c 1) ((bytesOf (c.args.drop 3)).take (argN c 2))) [])) ∧
  (∀ (a : Nat) (s : State), Up s → exec (.entdaa a) s = .next { s with mgt := { s.mgt with i3c := some a } }) ∧
  (∀ (a : Nat) (s : State), sidebandUp s = true →
    exec (.setEndpointId a) s = .next { s with mgt := { s.mgt with eid := some a } }) ∧
  (∀ (tag n : Nat) (s : State), sidebandUp s = true → s.mgt.tacor ≠ 1 →
    exec (.pldmDiscovery tag) s = .next (emit s (.pldm tag [4])) ∧
    exec (.pldmSensorRead tag n) s = .next (emit s (.pldm tag [4])) ∧
    exec (.pollForPlatformEventMessage tag none) s = .next (emit s (.pldm tag [4]))) ∧
  (∀ (tag n : Nat) (s : State), sidebandUp s = true → s.mgt.tacor = 1 →
    exec (.pldmDiscovery tag) s = .next (emit s (.pldm tag [0, 0, 2, 63])) ∧
    exec (.pldmSensorRead tag n) s = .next (emit s (.pldm tag (match pldmSensor s n with
      | some v => [0, v] | none => [0x80]))) ∧
    exec (.setEventReceiver n) s = .next { s with mgt := { s.mgt with receiver := some n } } ∧
    exec (.platformEventMessageResponse n) s =
      .next { s with hlt := { s.hlt with pldm := s.hlt.pldm.filter (· != n) } } ∧
    (s.hlt.pldm = [] → exec (.pollForPlatformEventMessage tag none) s = .next (emit s (.pldm tag [0])))) ∧
  (∀ (l : List Byte) (s : State), exec (.uartOtherInput l) s = .next s) ∧
  (∀ s : State, Up s → s.mgt.tacor = 1 →
    exec .uartStatus s = .next (emit s (.uart "status" (statusReg s))) ∧
    exec .uartIdentity s = .next (emit s (.uart "identity" (Config.fused 16).toNat)) ∧
    (Completes .uartErrors s fun t => t.out.length = s.out.length + 1 + s.hlt.log.length ∧ t.hlt = s.hlt ∧
      t.pkg = s.pkg))

/-- ERROR_RECORD makes the oldest event of a die's queue a record and takes it from the queue. A stalled engine, context,
host core, accelerator or controller is reset as R399, R400 and R404 say: a stall of an engine names its suspects, a
suspect whose replay ends leaves the stall, one that stalls again moves to another engine, and one for which none is found
within 100 ms is faulted with TIMEOUT; a stalled function is reset and
counted. Where no context's timer runs, or its window has not passed since progress last moved, nothing is a stall. -/
def Obligations.StallsAndRecordsRun : Prop :=
  (∀ (d : Nat) (e : ErrEvent) (r : List ErrEvent) (s : State), s.mgt.tacor = 1 → tget [] s.hlt.queues d = e :: r →
    exec (.errorRecord d) s =
      .next (recordEvent { s with hlt := { s.hlt with queues := tset [] s.hlt.queues d r } } e)) ∧
  (∀ (e : ErrEvent) (s : State), (recordEvent s e).hlt.nextNumber = (s.hlt.nextNumber + 1) % 4294967296 ∧
    (recordEvent s e).hlt.log = ({ number := s.hlt.nextNumber, words := errorWords s s.hlt.nextNumber e } ::
      s.hlt.log).take 32768 ∧ (recordEvent s e).pkg = s.pkg ∧ (recordEvent s e).jobs = s.jobs) ∧
  (∀ (e : Nat) (s : State), e < 16 → isFenced s e = false → tget none s.hlt.stalls e = none →
    engineStill s e = true → ((List.range 5).any fun i => slotBusy s e i && !timerStopped s e i) = true →
    exec (.engineStall e) s = .next (startStall s e 1 ((List.range 4).filter (isSuspect s e)))) ∧
  (∀ (e i : Nat) (s : State), e < 16 → i < 5 → isFenced s e = false → tget none s.hlt.stalls e = none →
    slotBusy s e i = true → timerStopped s e i = false → hangWindow s (i == 4) ≤ since s (slot s e i).timerAt →
    exec (.contextStall e i) s = .next (startStall s e 2 (if i < 4 then [i] else []))) ∧
  (∀ (e i : Nat) (s : State), timerStopped s e i = true ∨ since s (slot s e i).timerAt < hangWindow s (i == 4) →
    exec (.contextStall e i) s = .next s) ∧
  (∀ (e : Nat) (s : State), engineStill s e = false → exec (.engineStall e) s = .next s) ∧
  (∀ (e i : Nat) (s : State), (slot (endFeeder s e i) e i).timerAt = now s ∧
    (engine (endWait s e i) e).timerAt = now s) ∧
  (∀ (e : Nat) (s : State), (∀ i < 5, slotBusy s e i = true → timerStopped s e i = true) →
    exec (.engineStall e) s = .next s) ∧
  (∀ (e i : Nat) (r : List Nat) (t : Stall) (s : State), tget none s.hlt.stalls e = some t → t.suspects = i :: r →
    exec (.stallReplayDone e i .ended) s = .next (settleStall s e { t with suspects := r })) ∧
  (∀ (e i e' i' base : Nat) (r : List Nat) (t : Stall) (s : State), tget none s.hlt.stalls e = some t →
    t.suspects = i :: r → r.contains i = false → t.seeking = [] →
    let a := resetUnit s e
    let n := (slot a e i).size
    (refereePlace a e e' i' base n = true → exec (.stallReplayDone e i (.stalledAgain e' i' base n)) s = .next
      (settleStall (moveTo a e i e' i' base) e { t with suspects := r, moved := t.moved ++ [(i, e', i')] })) ∧
    (refereePlace a e e' i' base n = false → exec (.stallReplayDone e i (.stalledAgain e' i' base n)) s = .next
      (settleStall a e { t with suspects := r, seeking := [(i, now a)] }))) ∧
  (∀ (e i e' i' : Nat) (t : Stall) (s : State), tget none s.hlt.stalls e = some t →
    t.moved.find? (·.1 == i) = some (i, e', i') →
    exec (.stallReplayDone e i .movedEnded) s = .next (selfFence { s with hlt := { s.hlt with
      stalls := tset none s.hlt.stalls e none } } e .unconfirmed 2) ∧
    exec (.stallReplayDone e i .movedStalled) s = .next (
      let a := resetUnit s e'
      settleStall (uncountReset (faultJob a (slot a e' i').job .timeout 0 e') e) e { t with
        moved := t.moved.filter (·.1 != i) })) ∧
  (∀ (e i n : Nat) (t : Stall) (s : State), tget none s.hlt.stalls e = some t → (i, n) ∈ t.seeking →
    100 * ticksPerMs ≤ since s n →
    exec (.stallNoReferee e i) s = .next (settleStall (faultSlot s e i .timeout) e { t with
      seeking := t.seeking.filter (·.1 != i) })) ∧
  (∀ (k : Nat) (s : State), k < 16 → (hostCore s k).loaded = true → s.boot.radioFw = false →
    exec (.hostCoreStall k) s = .next (faultCore (resetUnit (countReset (hangRecord (countHang s (96 + k)) 5 (96 + k)
      (unitDie (96 + k)) 0xFF 0 (some (hostCore s k).sleeve)) (96 + k) 1) (96 + k)) k .timeout)) ∧
  (∀ (d u : Nat) (s : State), d = 4 ∨ d = 5 → s.boot.phase = .booted → holdsStarted s (d - 4) u = true →
    ticksPerSlot ≤ since s (tget 0 (radDie s (d - 4)).timers (unitQueue u)) →
    (u < 6 → exec (.acceleratorStall d u) s = .next (
      let n := 112 + 6 * (d - 4) + u
      failStarted (countReset (hangRecord (countHang s n) 4 n d 0xFF 0) n 1) n)) ∧
    (6 ≤ u → u ≤ 8 → exec (.acceleratorStall d u) s = .next (resetFunction (hangRecord s 4 0xFF d 0xFF 0) d 1 2))) ∧
  (∀ (d f : Nat) (s : State), functionExists d f = true → s.boot.phase = .booted →
    s.hlt.funcFenced.contains (d * 4 + f) = false →
    (f ≠ 1 → exec (.controllerStall d f) s = .next (resetFunction (hangRecord s 6 0xFF d f 0) d f 2)) ∧
    exec (.controllerFault d f) s = .next (resetFunction s d f 1)) ∧
  (∀ (d f cause : Nat) (s : State), functionExists d f = true → f ≠ 1 →
    s.hlt.funcFenced.contains (d * 4 + f) = false →
    resetFunction s d f cause = raise { s with hlt := { s.hlt with
        funcResets := tset [] s.hlt.funcResets (d * 4 + f) (functionResets s d f ++ [now s]) } }
      { code := 0x022, severity := 3, die := d, func := f, count := (functionResets s d f).length + 1, d0 := cause }) ∧
  (∀ (s : State) (e : ErrEvent), e.die < 8 → (tget [] s.hlt.queues e.die).length < 256 →
    tget [] (raise s e).hlt.queues e.die = tget [] s.hlt.queues e.die ++ [{ e with raw := now s }] ∧
    (∀ d ≠ e.die, tget [] (raise s e).hlt.queues d = tget [] s.hlt.queues d) ∧ (raise s e).hlt.logLost = s.hlt.logLost)

/-- The third counted engine reset fences the unit, the second function reset fences the function. The score is refreshed
while Tacor runs; WITHDRAWN is set by four counted boots; the CLEAN mark expires; the deferred reset happens. Each HEALTH
command with good arguments has its effect and answers OK; BUSY while NVM writes are inhibited. -/
def Obligations.HealthCommandsRun : Prop :=
  (∀ (u : Nat) (s : State), u < 124 → (3 ≤ resetsWin s u →
      exec (.engineResetThreshold u) s = .next (selfFence s u .unconfirmed 2)) ∧
    (resetsWin s u < 3 → exec (.engineResetThreshold u) s = .next s)) ∧
  (∀ (d : Nat) (s : State), d < 4 → 2 ≤ (functionResets s d 0).length → s.hlt.funcFenced.contains (d * 4) = false →
    exec (.functionResetThreshold d 0) s = .next (dieFault (raise { s with hlt := { s.hlt with
        funcFenced := s.hlt.funcFenced ++ [d * 4 + 0] } }
      { code := 0x023, severity := 4, die := d, func := 0 }) d 0x023)) ∧
  (∀ s : State, s.mgt.tacor = 1 → exec .healthScoreUpdate s = .next (refreshHealth s)) ∧
  (∀ s : State, s.mgt.tacor = 1 → s.hlt.evaluated = false → ((currentEntry s).any (·.counted)) = true →
    4 ≤ countedBoots s → s.hlt.hr.withdrawn = false →
    (currentEntry s).any (·.stamp.isSome) = true ∨ 60 * ticksPerS ≤ since s s.hlt.runningAt →
    exec .withdrawnEvaluation s = .next (
      let a := { s with hlt := { s.hlt with evaluated := true } }
      raise (setRec a { s.hlt.hr with withdrawn := true }) { code := 0x042, severity := 5, d0 := countedBoots a })) ∧
  (∀ (n : Nat) (s : State), s.hlt.shutdownAt = some n → 60 * ticksPerS ≤ since s n → exec .cleanMarkExpiry s = .next (setRec { s with hlt :=
    { s.hlt with shutdownAt := none } } { s.hlt.hr with clean := false })) ∧
  (∀ (n : Nat) (s : State), s.hlt.resetAt = some n →
    (10 * ticksPerMs ≤ since s n → exec .deferredDeviceReset s = .next (deviceReset s none)) ∧
    (since s n < 10 * ticksPerMs → exec .deferredDeviceReset s = .next s)) ∧
  (∀ (c : Cmd) (s : State), Served 0x480 0 isMgmtRadio c s →
    let marked := (List.range 124).filter fun u => (unitSt s u).hold != 0
    let es := s.hlt.hr.entries
    exec (.healthStatus c) s = .next (answered 0x480 0 c s ([w64 (healthReg s), w64 (diesReg s)] ++
      (penalties s).map (fun p => w64 (centi p)) ++ [w64 marked.length] ++
      marked.map (fun u => pack 64 [(8, (unitSt s u).hold), (0, u)]) ++ [w64 es.length] ++ es.flatMap fun e =>
        [pack 64 [(32, e.incarnation), (9, b2n e.stamp.isSome), (8, b2n e.counted), (0, e.cause)],
         w64 (e.stamp.getD 0)]))) ∧
  (∀ (c : Cmd) (s t : State), Served 0x481 3 isMgmtRadio c s → 1 ≤ argN c 1 → argN c 1 ≤ 64 →
    let rs := (s.hlt.log.reverse.dropWhile fun r => r.number != argN c 0).take (argN c 1)
    rs ≠ [] → writeArg s (partyOf c.src) (arg c 2) (bytesOf (rs.flatMap (·.words))) = .ok t →
    exec (.healthLogRead c) s = .next (answered 0x481 3 c t [])) ∧
  (∀ (c : Cmd) (s : State), Served 0x482 1 isManager c s → 5 ≤ argN c 0 → argN c 0 ≤ 1000 →
    exec (.healthConfig c) s = .next (answered 0x482 1 c { s with hlt := { s.hlt with hangMs := argN c 0 } } [])) ∧
  (∀ (c : Cmd) (s : State), Served 0x483 1 isMgmt c s →
    (s.tim.state < 2 → exec (.healthClockSet c) s = .next (answered 0x483 1 c (stampEntry { s with hlt := { s.hlt with
      clock := some (argN c 0, now s) } }) [])) ∧
    (2 ≤ s.tim.state → exec (.healthClockSet c) s = .next (finish s c.src 0x483 .notQuiesced []))) ∧
  (∀ (c : Cmd) (bs : List Byte) (s : State), Served 0x484 2 isMgmt c s → argN c 0 ≤ 512 →
    readArg s (partyOf c.src) c.hostData (arg c 1) (8 * argN c 0) = .ok bs →
    ((wordsOf (argN c 0) bs).any fun w => fld w 63 56 > 123 || fld w 54 32 != 0) = false →
    exec (.healthSeed c) s = .next (answered 0x484 2 c (refreshHealth { s with hlt := { s.hlt with
      seed := wordsOf (argN c 0) bs, seedRaw := now s } }) [])) ∧
  (∀ (c : Cmd) (s : State), Served 0x485 1 isMgmt c s → argN c 0 ≤ 123 → s.pwr.inhibit = false →
    exec (.healthUnitConfirm c) s = .next (answered 0x485 1 c (fenceUnit (modUnit s (argN c 0) fun x => { x with
      clearing := false }) (argN c 0) .confirmed 5) [])) ∧
  (∀ (c : Cmd) (s : State), Served 0x486 1 isMgmt c s → argN c 0 ≤ 123 → s.pwr.inhibit = false →
    (unitSt s (argN c 0)).fence ≠ .none ∨ (unitSt s (argN c 0)).hold ≠ 0 →
    exec (.healthUnitClear c) s = .next (answered 0x486 1 c (modUnit s (argN c 0) fun x => { x with
      clearing := true, clearSince := now s, clearRuns := 0 }) [])) ∧
  (∀ (c : Cmd) (s : State), Served 0x487 1 isMgmt c s → argN c 0 ≤ 7 → s.pwr.inhibit = false →
    exec (.healthDieClear c) s = .next (answered 0x487 1 c (refreshHealth (setRec s { s.hlt.hr with
      dies := s.hlt.hr.dies.filter (· != argN c 0) })) [])) ∧
  (∀ (c : Cmd) (s : State), Served 0x488 0 isMgmt c s → s.hlt.hr.withdrawn = true → s.pwr.inhibit = false →
    let a := setRec s { s.hlt.hr with
      withdrawn := false, entries := s.hlt.hr.entries.map fun e => { e with counted := false } }
    (s.boot.radioFw = false ∨ s.boot.minimal = true ∨ s.boot.sleeve0 = true → exec (.healthReinstate c) s = .next
      (answered 0x488 0 c (refreshHealth (raise a { code := 0x043, severity := 0 })) [])) ∧
    (s.boot.radioFw = true → s.boot.minimal = false → s.boot.sleeve0 = false → exec (.healthReinstate c) s = .next
      (answered 0x488 0 c (refreshHealth (raise (radioBoot { a with boot := { a.boot with sleeve0 := true } })
        { code := 0x043, severity := 0 })) []))) ∧
  (∀ (c : Cmd) (s : State), Served 0x489 0 isMgmt c s → s.pwr.inhibit = false →
    exec (.healthShutdown c) s = .next (answered 0x489 0 c (writeClean { s with hlt := { s.hlt with
      shutdownAt := some (now s) } }) [])) ∧
  (∀ (c : Cmd) (s : State), Served 0x48A 0 isMgmt c s →
    (s.pwr.inhibit = false → exec (.healthDeviceReset c) s = .next (answered 0x48A 0 c (writeClean { s with hlt :=
      { s.hlt with resetAt := some (now s) } }) [])) ∧
    (s.pwr.inhibit = true → exec (.healthDeviceReset c) s = .next (finish s c.src 0x48A .busy [])))

/-- BOOT_STATUS and ID_READ answer their words; BOOT_CONFIG_READ and ATTEST_KEY_READ write theirs at the address.
BOOT_CONFIG_SET writes the copy that is not the newest, sealed with MAGIC, SEQ and CRC; BOOT_IMAGE_UPDATE waits for the
flash, whose write ends OK or TIMEOUT; BOOT_ROLLBACK_COMMIT raises the floor and cannot lower it; ATTEST spends an index
before it signs. All are BUSY while NVM writes are inhibited, where their rule says so. -/
def Obligations.BootCommandsRun : Prop :=
  (∀ (c : Cmd) (s : State), Served 0x500 0 isMgmtRadio c s →
    exec (.bootStatus c) s = .next (answered 0x500 0 c s ([w64 (bootReg s)] ++ wordsOf 8 (imageHead s) ++
      [w64 s.nvm.otpFloor, w64 (b2n s.boot.configDefault)]))) ∧
  (∀ (c : Cmd) (s t : State), Served 0x501 1 isMgmt c s →
    writeArg s (partyOf c.src) (arg c 0) (bytesOf (s.boot.config ++ nextConfig s.nvm)) = .ok t →
    exec (.bootConfigRead c) s = .next (answered 0x501 1 c t [])) ∧
  (∀ (c : Cmd) (bs : List Byte) (s : State), Served 0x502 1 isMgmt c s → s.pwr.inhibit = false →
    readSource s c (partyOf c.src) (arg c 0) 0 256 = .ok bs →
    (configBad (wordsOf 32 bs) = false → exec (.bootConfigSet c) s = .next (answered 0x502 1 c { s with
      nvm := writeCopy s.nvm (sealConfig s.nvm (wordsOf 32 bs)) } [])) ∧
    (configBad (wordsOf 32 bs) = true → exec (.bootConfigSet c) s = .next (finish s c.src 0x502 .badField []))) ∧
  (∀ (n : Nvm) (x : List Byte), (writeCopy n x).otpFloor = n.otpFloor ∧
    (validCopy n = some n.copyA → (writeCopy n x).copyA = n.copyA ∧ (writeCopy n x).copyB = x)) ∧
  (∀ (c : Cmd) (bs : List Byte) (s : State), Served 0x503 2 isMgmt c s → s.boot.update = none → argN c 1 ≤ 33554432 →
    argN c 1 ≠ 0 → readSource s c (partyOf c.src) (arg c 0) 1 (argN c 1) = .ok bs →
    Completes (.bootImageUpdate c) s fun t =>
      (checkImage s bs = .ok → t.boot = { s.boot with update := some (bs, c.src) } ∧ t.nvm = s.nvm ∧ t.pkg = s.pkg) ∧
      (checkImage s bs ≠ .ok → t = finish s c.src 0x503 (checkImage s bs) [])) ∧
  (∀ (b : Bool) (bs : List Byte) (src : Src) (s : State), s.boot.update = some (bs, src) →
    exec (.flashWriteDone b) s = .next (finishLater (
      let a := emit s (.flashWrite 0 bs)
      { a with boot := { a.boot with update := none, flash := if b then some bs else none } }) src
        (if b then .ok else .timeout) [])) ∧
  (∀ (c : Cmd) (s : State), Served 0x504 0 isMgmt c s →
    (s.pwr.inhibit = false → exec (.bootRollbackCommit c) s = .next (answered 0x504 0 c { s with nvm := { s.nvm with
      otpFloor := Nat.max s.nvm.otpFloor (imgSvn (imageHead s)) } } [])) ∧
    (s.pwr.inhibit = true → exec (.bootRollbackCommit c) s = .next (finish s c.src 0x504 .busy []))) ∧
  (∀ (c : Cmd) (s : State), Served 0x505 5 isMgmt c s → s.pwr.inhibit = false → s.nvm.attestBad = false →
    s.nvm.attestIndex < 1099511627776 → checkArg s (partyOf c.src) .wr (arg c 4) 5972 = none →
    let report := bytesOf (attestReport s (c.args.take 4) s.nvm.attestIndex)
    let a := { s with nvm := { s.nvm with attestIndex := s.nvm.attestIndex + 1 } }
    exec (.attest c) s = .next (match writeArg a (partyOf c.src) (arg c 4)
        (report ++ (Config.attestSign s.nvm.attestIndex report ++ List.replicate 5716 0).take 5716) with
      | .ok t => answered 0x505 5 c t []
      | .error e => finish a c.src 0x505 e [])) ∧
  (∀ (c : Cmd) (s : State), Served 0x506 1 isMgmt c s →
    exec (.attestKeyRead c) s = .next (match writeArg s (partyOf c.src) (arg c 0) Config.attestCert with
      | .ok t => answered 0x506 1 c t []
      | .error e => finish s c.src 0x506 e [])) ∧
  (∀ (c : Cmd) (s : State), Served 0x507 0 isMgmtRadio c s →
    exec (.idRead c) s = .next (answered 0x507 0 c s ((List.range 8).flatMap (fun d => [w64 (idDie0 d), w64 (idDie1 s d)]) ++
      [idSerial, w64 idPci, w64 s.hlt.hr.incarnation])))

/-- After reset every die is held in reset, Tacor is BOOTING, no job, sleeve, cell, chip map or boot stage exists, memory and
the error log are empty, the timebase is FREE with INCR 0x666666666, the hang window is 20 ms, the fabric is not
configured, no rail and no clock is noted, and no command waits; the canonical form of memory and the bounds of the error
paths hold. An idle machine in reset stays as it is, and one that runs counts one raw tick (the tick is the model's
choice, log entry 1). -/
def Obligations.ResetLeavesTheMachineEmpty : Prop :=
  (let s := State.reset
   s.boot.phase = .held ∧ s.mgt.tacor = 0 ∧ s.jobs = [] ∧ s.slv = [] ∧ s.eng = [] ∧ s.rad.cells = [] ∧
   s.rad.plans = [] ∧ s.fab.maps = [] ∧ s.fab.configured = false ∧ s.fh.ports = [] ∧ s.pkg.mem = [] ∧ s.hlt.log = [] ∧
   s.hlt.pldm = [] ∧ s.tim.state = 0 ∧ s.tim.incr = 0x666666666 ∧ s.hlt.hangMs = 20 ∧ s.pins.railsOk = false ∧
   s.pins.refclk = false ∧ s.boot.stage = 0 ∧ s.out = [] ∧ s.pending = []) ∧
  Memory.wf State.reset.pkg.mem = true ∧ RecordsBounded State.reset ∧
  (∀ s : State, s.pending = [] → s.boot.phase = .held → step s = .next s) ∧
  (∀ s : State, s.pending = [] → Up s → step s = .next { s with tim := { s.tim with raw := s.tim.raw + 1 } })

/-- A sensor at 110 °C or above trips the device: THERMTRIP_N is asserted, every domain is off, the device holds itself in
reset, its host partner sees the CXL link go down, and no record of the trip stands: the NVM is as it was and the error
state is that of a reset. Below 110 °C the row has no effect. From then on no command but THERMTRIP_RELEASE (power
removed) releases the ball or the reset; after it, POWER_UP starts the device again. -/
def Obligations.ThermalTripHoldsTheDevice : Prop :=
  (∀ (tj : Nat) (s : State), 110 ≤ tj → Up s →
    Completes (.thermalTrip tj) s fun t => t.pins.thermtrip = true ∧ (∀ n, (domain t n).on = false) ∧
      t.boot.phase = .held ∧ t.nvm = s.nvm ∧ t.hlt = State.reset.hlt ∧
      t.out = .ball "THERMTRIP_N" false :: (if s.mgt.cxlUp then .cxlDown :: s.out else s.out)) ∧
  (∀ (tj : Nat) (s : State), tj < 110 → exec (.thermalTrip tj) s = .next s) ∧
  (∀ (c : Instr) (s t : State), s.pins.thermtrip = true → s.boot.phase = .held → c ≠ .thermtripRelease →
    exec c s = .next t → t.pins.thermtrip = true ∧ t.boot.phase = .held) ∧
  (∀ s : State, s.pins.thermtrip = true → s.boot.phase = .held → Completes .thermtripRelease s fun t =>
    t.pins.thermtrip = false ∧ t.boot.phase = .held ∧ Completes .powerUp t fun u => u.boot.phase = .released)

/-- In every state, whatever command runs: the OTP floor (the number of fuses set) never falls, nor does the attestation
index. No command but BOOT_ROLLBACK_COMMIT changes the floor, also none that a sleeve's submission queue brings. A served
BOOT_ROLLBACK_COMMIT sets it to the SVN of the running image or, where that is lower, keeps it; while NVM writes are
inhibited it is refused with BUSY and changes no NVM. -/
def Obligations.RollbackFloorNeverFalls : Prop :=
  (∀ s t : State, step s = .next t →
    s.nvm.otpFloor ≤ t.nvm.otpFloor ∧ s.nvm.attestIndex ≤ t.nvm.attestIndex) ∧
  (∀ (c : Instr) (s t : State), (∀ d, c ≠ .bootRollbackCommit d) → exec c s = .next t →
    t.nvm.otpFloor = s.nvm.otpFloor) ∧
  (∀ (d : Cmd) (s : State), Served 0x504 0 isMgmt d s → s.pwr.inhibit = false →
    Completes (.bootRollbackCommit d) s fun t =>
      t.nvm.otpFloor = (if imgSvn (imageHead s) < s.nvm.otpFloor then s.nvm.otpFloor else imgSvn (imageHead s))) ∧
  (∀ (d : Cmd) (s : State), Served 0x504 0 isMgmt d s → s.pwr.inhibit = true →
    exec (.bootRollbackCommit d) s = .next (finish s d.src 0x504 .busy []) ∧
    (finish s d.src 0x504 .busy []).nvm = s.nvm)

/-- In every state whose memory has its canonical form (addresses rising, no entry equal to what an unlisted address reads
as), every step leaves memory in that form, so that equal memories are equal data (the form is the model's own, log
entry 2). -/
def Obligations.MemoryStaysCanonical : Prop :=
  ∀ s t : State, Memory.wf s.pkg.mem = true → step s = .next t → Memory.wf t.pkg.mem = true

/-- In every state in which no die's error queue holds more than 256 events, the log no more than 32,768 records and the
PLDM queue no more than 64 numbers, the same holds after every step, whatever command runs. -/
def Obligations.RecordsStayBounded : Prop :=
  ∀ s t : State, RecordsBounded s → step s = .next t → RecordsBounded t
end

