-- ==== Sys2Proof/Laws/Serve.lean ====
section
/-! SUPPORT. What serving a Tacor command does, once for all of them: a command that Tacor serves gets what its
rules answer (R369, R371, R372). -/

namespace Sys2Proof.Machine

variable {op argc : Nat} {allow : Party → Bool} {c : Cmd} {s s' : State} {body : Party → State → Answer}

/-- Checks that all pass leave the answer to the effect. -/
theorem checked_pass {cs : List (Bool × Status)} {a : Answer} (h : firstFail cs = none) : checked cs a = a := by
  simp [checked, h]

/-- The first check that fails gives its status. -/
theorem checked_fail {cs : List (Bool × Status)} {a : Answer} {st : Status} (h : firstFail cs = some st) :
    checked cs a = .fail st := by
  simp [checked, h]

@[simp] theorem firstFail_nil : firstFail [] = none := rfl

@[simp] theorem firstFail_cons (b : Bool) (st : Status) (r : List (Bool × Status)) :
    firstFail ((b, st) :: r) = if b then some st else firstFail r := rfl

/-- A served command gets what its rules answer. -/
theorem serve_served (h : Served op argc allow c s) :
    serve op argc allow c s body = match body (partyOf c.src) s with
      | .ok s' res => complete s' c.src op (arg c argc) .ok res
      | .fail st => finish s c.src op st []
      | .failIn s' st res => complete s' c.src op (arg c argc) st res
      | .wait a len => park (acceptStill s c.src op) a len (.tacor op c)
      | .defer f => f (journal s c.src op) := by
  obtain ⟨h1, h2, h3, hb, h4⟩ := h
  simp [serve, h2, h3, hb, h4, beq_eq_false_iff_ne.mpr h1]
  all_goals (cases body (partyOf c.src) s <;> rfl)

/-- A command whose rules answer OK ends with OK and its result. -/
theorem serve_ok {res : List W64} (h : Served op argc allow c s) (hb : body (partyOf c.src) s = .ok s' res) :
    serve op argc allow c s body = answered op argc c s' res := by
  rw [serve_served h, hb]; rfl

/-- A command that its rules refuse ends with the status and changes nothing else. -/
theorem serve_fail {st : Status} (h : Served op argc allow c s) (hb : body (partyOf c.src) s = .fail st) :
    serve op argc allow c s body = finish s c.src op st [] := by
  rw [serve_served h, hb]

/-- A command that waits is journalled, and goes on as its rules say. -/
theorem serve_defer {f : State → State} (h : Served op argc allow c s)
    (hb : body (partyOf c.src) s = .defer f) :
    serve op argc allow c s body = f (journal s c.src op) := by
  rw [serve_served h, hb]

/-- While the dies are in reset no command is served. -/
theorem serve_held (h : s.boot.phase = .held) : serve op argc allow c s body = s := by
  simp [serve, h]

/-- A command that the gate stops ends with the gate's status and changes nothing else. -/
theorem serve_gated {st : Status} (h1 : s.boot.phase ≠ .held) (h2 : srcExists s c.src = true)
    (h3 : s.mgt.tacor = 1) (hb : behind s c.src op = false) (h4 : gate op argc allow c s = some st) :
    serve op argc allow c s body = finish s c.src op st [] := by
  simp [serve, h2, h3, hb, h4, beq_eq_false_iff_ne.mpr h1]

/-- A command whose turn has not come changes nothing. -/
theorem serve_behind (h1 : s.boot.phase ≠ .held) (h2 : srcExists s c.src = true)
    (h3 : s.mgt.tacor = 1) (hb : behind s c.src op = true) : serve op argc allow c s body = s := by
  simp [serve, h2, h3, hb, beq_eq_false_iff_ne.mpr h1]

/-- A command that waits for a page in move is accepted and waits. -/
theorem serve_wait {a len : Nat} (h : Served op argc allow c s) (hb : body (partyOf c.src) s = .wait a len) :
    serve op argc allow c s body = park (acceptStill s c.src op) a len (.tacor op c) := by
  rw [serve_served h, hb]

end Sys2Proof.Machine
end

