-- ==== Sys2Proof/Laws/Tables.lean ====
section
/-! SUPPORT. Laws of tables and byte memories: read after write, and the canonical form that every operation
keeps. -/

namespace Sys2Proof.Machine

variable {α : Type}

/-! ### Read after write -/

@[simp] theorem tget_nil (d : α) (x : Nat) : tget d ([] : Tbl α) x = d := rfl

theorem tget_tdel_same (d : α) (t : Tbl α) (x : Nat) : tget d (tdel t x) x = d := by
  induction t with
  | nil => rfl
  | cons e r ih =>
    obtain ⟨k, v⟩ := e
    by_cases h : k = x <;> simp [tdel, tget, h, ih]

theorem tget_tdel_other (d : α) (t : Tbl α) {x y : Nat} (h : y ≠ x) :
    tget d (tdel t x) y = tget d t y := by
  induction t with
  | nil => rfl
  | cons e r ih =>
    obtain ⟨k, v⟩ := e
    by_cases hk : k = x
    · subst hk; simp [tdel, tget, ih, Ne.symm h]
    · simp [tdel, hk, tget, ih]

theorem mem_tdel {t : Tbl α} {x : Nat} {e : Nat × α} : e ∈ tdel t x ↔ e ∈ t ∧ e.1 ≠ x := by
  induction t with
  | nil => simp [tdel]
  | cons f r ih =>
    obtain ⟨k, v⟩ := f
    by_cases hk : k = x
    · simp only [tdel, hk, if_true, ih, List.mem_cons]
      constructor
      · exact fun ⟨a, b⟩ => ⟨.inr a, b⟩
      · rintro ⟨rfl | a, b⟩
        · exact absurd rfl b
        · exact ⟨a, b⟩
    · simp only [tdel, hk, if_false, List.mem_cons, ih]
      constructor
      · rintro (rfl | ⟨a, b⟩)
        · exact ⟨.inl rfl, hk⟩
        · exact ⟨.inr a, b⟩
      · rintro ⟨rfl | a, b⟩
        · exact .inl rfl
        · exact .inr ⟨a, b⟩

theorem tget_tins_same (d : α) (t : Tbl α) (x : Nat) (v : α) (h : ∀ e ∈ t, e.1 ≠ x) :
    tget d (tins x v t) x = v := by
  induction t with
  | nil => simp [tins, tget]
  | cons e r ih =>
    obtain ⟨k, w⟩ := e
    have hk : k ≠ x := h (k, w) (List.mem_cons_self ..)
    have hr : ∀ e ∈ r, e.1 ≠ x := fun e he => h e (List.mem_cons_of_mem _ he)
    by_cases hlt : x < k <;> simp [tins, hlt, tget, hk, ih hr]

theorem tget_tins_other (d : α) (t : Tbl α) {x y : Nat} (v : α) (h : y ≠ x) :
    tget d (tins x v t) y = tget d t y := by
  induction t with
  | nil => simp [tins, tget, Ne.symm h]
  | cons e r ih =>
    obtain ⟨k, w⟩ := e
    by_cases hlt : x < k <;> simp [tins, hlt, tget, ih, Ne.symm h]

variable [DecidableEq α]

/-- A read of the index written gives the value written. -/
@[simp] theorem tget_tset_same (d : α) (t : Tbl α) (x : Nat) (v : α) : tget d (tset d t x v) x = v := by
  by_cases h : v = d
  · simp [tset, h, tget_tdel_same]
  · simp [tset, h, tget_tins_same d _ x v fun e he => (mem_tdel.1 he).2]

/-- A write leaves every other index alone. -/
theorem tget_tset_other (d : α) (t : Tbl α) {x y : Nat} (v : α) (h : y ≠ x) :
    tget d (tset d t x v) y = tget d t y := by
  by_cases hv : v = d
  · simp [tset, hv, tget_tdel_other d t h]
  · simp [tset, hv, tget_tins_other d _ v h, tget_tdel_other d t h]

theorem tget_tset (d : α) (t : Tbl α) (x y : Nat) (v : α) :
    tget d (tset d t x v) y = if y = x then v else tget d t y := by
  by_cases h : y = x
  · subst h; simp
  · simp [h, tget_tset_other d t v h]

@[simp] theorem tget_tmod_same (d : α) (t : Tbl α) (x : Nat) (f : α → α) :
    tget d (tmod d t x f) x = f (tget d t x) := by simp [tmod]

theorem tget_tmod (d : α) (t : Tbl α) (x y : Nat) (f : α → α) :
    tget d (tmod d t x f) y = if y = x then f (tget d t x) else tget d t y := by
  simp [tmod, tget_tset]

omit [DecidableEq α] in
theorem tdel_tdel (t : Tbl α) (x : Nat) : tdel (tdel t x) x = tdel t x := by
  induction t with
  | nil => rfl
  | cons e r ih =>
    obtain ⟨k, v⟩ := e
    by_cases h : k = x <;> simp [tdel, h, ih]

omit [DecidableEq α] in
theorem tdel_tins (t : Tbl α) (x : Nat) (v : α) : tdel (tins x v t) x = tdel t x := by
  induction t with
  | nil => simp [tins, tdel]
  | cons e r ih =>
    obtain ⟨k, w⟩ := e
    by_cases hlt : x < k
    · simp [tins, hlt, tdel]
    · by_cases h : k = x <;> simp [tins, hlt, tdel, h, ih]

/-- The last of two writes of one index stays. -/
@[simp] theorem tset_tset (d : α) (t : Tbl α) (x : Nat) (v w : α) :
    tset d (tset d t x v) x w = tset d t x w := by
  have h : tdel (tset d t x v) x = tdel t x := by
    by_cases hv : v = d <;> simp [tset, hv, tdel_tdel, tdel_tins]
  simp only [tset]
  by_cases hw : w = d
  · simp only [hw, if_true]; exact h
  · simp only [hw, if_false]; rw [show tdel (if v = d then tdel t x else tins x v (tdel t x)) x = tdel t x from h]

/-! ### The canonical form -/

omit [DecidableEq α] in
theorem tsorted_iff {t : Tbl α} : tsorted t = true ↔ t.Pairwise fun a b => a.1 < b.1 := by
  induction t with
  | nil => simp [tsorted]
  | cons e r ih =>
    obtain ⟨a, v⟩ := e
    cases r with
    | nil => simp [tsorted]
    | cons f r =>
      obtain ⟨b, w⟩ := f
      simp only [tsorted, Bool.and_eq_true, decide_eq_true_eq, ih]
      rw [List.pairwise_cons (a := (a, v))]
      constructor
      · rintro ⟨h, p⟩
        refine ⟨fun e he => ?_, p⟩
        rcases List.mem_cons.1 he with rfl | he
        · exact h
        · exact lt_trans h ((List.pairwise_cons.1 p).1 e he)
      · rintro ⟨h, p⟩
        exact ⟨h _ (List.mem_cons_self ..), p⟩

theorem wf_iff {d : α} {t : Tbl α} :
    Tbl.wf d t = true ↔ (t.Pairwise fun a b => a.1 < b.1) ∧ ∀ e ∈ t, e.2 ≠ d := by
  simp [Tbl.wf, tsorted_iff]

omit [DecidableEq α] in
theorem tdel_sublist (t : Tbl α) (x : Nat) : (tdel t x).Sublist t := by
  induction t with
  | nil => exact List.Sublist.refl _
  | cons e r ih =>
    obtain ⟨k, v⟩ := e
    by_cases h : k = x
    · simp [tdel, h]; exact ih.cons _
    · simp [tdel, h]; exact ih

omit [DecidableEq α] in
theorem mem_tins {t : Tbl α} {x : Nat} {v : α} {e : Nat × α} : e ∈ tins x v t ↔ e = (x, v) ∨ e ∈ t := by
  induction t with
  | nil => simp [tins]
  | cons f r ih =>
    obtain ⟨k, w⟩ := f
    by_cases h : x < k
    · simp [tins, h]
    · simp only [tins, h, if_false, List.mem_cons, ih]; tauto

omit [DecidableEq α] in
theorem tins_sorted {t : Tbl α} {x : Nat} (v : α) (h : t.Pairwise fun a b => a.1 < b.1)
    (hx : ∀ e ∈ t, e.1 ≠ x) : (tins x v t).Pairwise fun a b => a.1 < b.1 := by
  induction t with
  | nil => simp [tins]
  | cons e r ih =>
    obtain ⟨k, w⟩ := e
    have hp := List.pairwise_cons.1 h
    have hk : k ≠ x := hx (k, w) (List.mem_cons_self ..)
    by_cases hlt : x < k
    · simp only [tins, hlt, if_true]
      refine List.pairwise_cons.2 ⟨fun f hf => ?_, h⟩
      rcases List.mem_cons.1 hf with rfl | hf
      · exact hlt
      · exact lt_trans hlt (hp.1 f hf)
    · simp only [tins, hlt, if_false]
      refine List.pairwise_cons.2 ⟨fun f hf => ?_, ih hp.2 fun f hf => hx f (List.mem_cons_of_mem _ hf)⟩
      rcases mem_tins.1 hf with rfl | hf
      · show k < x
        omega
      · exact hp.1 f hf

/-- A write keeps the canonical form: indices rising, no entry equal to what an unlisted index reads as. -/
theorem tset_wf {d : α} {t : Tbl α} (x : Nat) (v : α) (h : Tbl.wf d t = true) :
    Tbl.wf d (tset d t x v) = true := by
  rw [wf_iff] at h ⊢
  have hd : (tdel t x).Pairwise fun a b => a.1 < b.1 := h.1.sublist (tdel_sublist t x)
  have hn : ∀ e ∈ tdel t x, e.2 ≠ d := fun e he => h.2 e (mem_tdel.1 he).1
  by_cases hv : v = d
  · simp [tset, hv]; exact ⟨hd, fun a b he => hn (a, b) he⟩
  · simp only [tset, hv, if_false]
    refine ⟨tins_sorted v hd fun e he => (mem_tdel.1 he).2, fun e he => ?_⟩
    rcases mem_tins.1 he with rfl | he
    · exact hv
    · exact hn e he

theorem tmod_wf {d : α} {t : Tbl α} (x : Nat) (f : α → α) (h : Tbl.wf d t = true) :
    Tbl.wf d (tmod d t x f) = true := tset_wf x _ h

theorem filter_wf {d : α} {t : Tbl α} (p : Nat × α → Bool) (h : Tbl.wf d t = true) :
    Tbl.wf d (t.filter p) = true := by
  rw [wf_iff] at h ⊢
  exact ⟨h.1.sublist List.filter_sublist, fun e he => h.2 e (List.mem_filter.1 he).1⟩

/-! ### Byte memories -/

@[simp] theorem rdByte_wrByte_same (m : Memory) (a : Nat) (b : Byte) : rdByte (wrByte m a b) a = b :=
  tget_tset_same ..

theorem rdByte_wrByte_other (m : Memory) {a x : Nat} (b : Byte) (h : x ≠ a) :
    rdByte (wrByte m a b) x = rdByte m x := tget_tset_other _ _ _ h

theorem wrByte_wf {m : Memory} (a : Nat) (b : Byte) (h : Memory.wf m = true) :
    Memory.wf (wrByte m a b) = true := tset_wf a b h

/-- Bytes outside the run written read as before. -/
theorem rdByte_wrBytes_other (bs : List Byte) : ∀ (m : Memory) (a x : Nat),
    (x < a ∨ a + bs.length ≤ x) → rdByte (wrBytes m a bs) x = rdByte m x := by
  induction bs with
  | nil => intros; rfl
  | cons b r ih =>
    intro m a x h
    simp only [List.length_cons] at h
    rw [wrBytes, ih _ _ _ (by omega), rdByte_wrByte_other m b (by omega)]

/-- Bytes of the run written read as written. -/
theorem rdByte_wrBytes (bs : List Byte) : ∀ (m : Memory) (a i : Nat) (h : i < bs.length),
    rdByte (wrBytes m a bs) (a + i) = bs[i] := by
  induction bs with
  | nil => intro _ _ i h; simp at h
  | cons b r ih =>
    intro m a i h
    cases i with
    | zero => simp [wrBytes, rdByte_wrBytes_other r _ (a + 1) a (by omega)]
    | succ i =>
      have := ih (wrByte m a b) (a + 1) i (by simpa using h)
      rw [wrBytes, show a + (i + 1) = a + 1 + i by omega, this]; rfl

theorem wrBytes_wf (bs : List Byte) : ∀ {m : Memory} (a : Nat), Memory.wf m = true →
    Memory.wf (wrBytes m a bs) = true := by
  induction bs with
  | nil => intro m a h; exact h
  | cons b r ih => intro m a h; exact ih _ (wrByte_wf a b h)

theorem zeroBytes_wf {m : Memory} (a n : Nat) (h : Memory.wf m = true) :
    Memory.wf (zeroBytes m a n) = true := filter_wf _ h

theorem foldl_wf {β : Type} (l : List β) (f : Memory → β → Memory)
    (hf : ∀ m b, Memory.wf m = true → Memory.wf (f m b) = true) :
    ∀ m, Memory.wf m = true → Memory.wf (l.foldl f m) = true := by
  induction l with
  | nil => exact fun _ h => h
  | cons b r ih => exact fun m h => ih _ (hf m b h)

theorem copyBytes_wf {m : Memory} (dst src n : Nat) (h : Memory.wf m = true) :
    Memory.wf (copyBytes m dst src n) = true :=
  foldl_wf _ _ (fun _ _ h => wrByte_wf _ _ h) _ (zeroBytes_wf _ _ h)

end Sys2Proof.Machine
end

