-- ==== Sys2Proof/Laws/State.lean ====
section
/-! SUPPORT. Laws of the named updates of State: for every update and every field it does not touch, the field is
as before; for the indexed parts, what is read at an index after a write. -/

namespace Sys2Proof.Machine

variable (s : State)

/-! ### Reads at an index -/

@[simp] theorem unitSt_setUnit (u x : Nat) (v : UnitSt) :
    unitSt (setUnit s u v) x = if x = u then v else unitSt s x := tget_tset ..
@[simp] theorem engine_setEngine (e x : Nat) (v : Engine) :
    engine (setEngine s e v) x = if x = e then v else engine s x := tget_tset ..
@[simp] theorem job_setJob (h x : Nat) (v : Job) :
    job (setJob s h v) x = if x = h then v else job s x := tget_tset ..
@[simp] theorem sleeve_setSleeve (k x : Nat) (v : Sleeve) :
    sleeve (setSleeve s k v) x = if x = k then v else sleeve s x := tget_tset ..
@[simp] theorem domain_setDomain (n x : Nat) (v : Domain) :
    domain (setDomain s n v) x = if x = n then v else domain s x := tget_tset ..
@[simp] theorem diePwr_setDiePwr (d x : Nat) (v : DiePwr) :
    diePwr (setDiePwr s d v) x = if x = d then v else diePwr s x := tget_tset ..
@[simp] theorem hostCore_setHostCore (k x : Nat) (v : HostCore) :
    hostCore (setHostCore s k v) x = if x = k then v else hostCore s x := tget_tset ..
@[simp] theorem dicSrc_setDicSrc (n x : Nat) (v : DicSrc) :
    dicSrc (setDicSrc s n v) x = if x = n then v else dicSrc s x := tget_tset ..
@[simp] theorem dicCore_setDicCore (n x : Nat) (v : DicCore) :
    dicCore (setDicCore s n v) x = if x = n then v else dicCore s x := tget_tset ..
@[simp] theorem cell_setCell (c x : Nat) (v : Cell) :
    cell (setCell s c v) x = if x = c then v else cell s x := tget_tset ..
@[simp] theorem sigCore_setSigCore (k x : Nat) (v : SigCore) :
    sigCore (setSigCore s k v) x = if x = k then v else sigCore s x := tget_tset ..
@[simp] theorem fhPort_setFhPort (p x : Nat) (v : FhPort) :
    fhPort (setFhPort s p v) x = if x = p then v else fhPort s x := tget_tset ..
@[simp] theorem radDie_setRadDie (d x : Nat) (v : RadDie) :
    radDie (setRadDie s d v) x = if x = d then v else radDie s x := tget_tset ..
@[simp] theorem vfPort_setVfPort (p x : Nat) (v : VfPort) :
    vfPort (setVfPort s p v) x = if x = p then v else vfPort s x := tget_tset ..
@[simp] theorem unitSt_modUnit (u x : Nat) (f : UnitSt → UnitSt) :
    unitSt (modUnit s u f) x = if x = u then f (unitSt s x) else unitSt s x := by
  rw [modUnit, unitSt_setUnit]; split
  · next h => rw [h]
  · rfl
@[simp] theorem engine_modEngine (e x : Nat) (f : Engine → Engine) :
    engine (modEngine s e f) x = if x = e then f (engine s x) else engine s x := by
  rw [modEngine, engine_setEngine]; split
  · next h => rw [h]
  · rfl
@[simp] theorem job_modJob (h x : Nat) (f : Job → Job) :
    job (modJob s h f) x = if x = h then f (job s x) else job s x := by
  rw [modJob, job_setJob]; split
  · next h => rw [h]
  · rfl
@[simp] theorem sleeve_modSleeve (k x : Nat) (f : Sleeve → Sleeve) :
    sleeve (modSleeve s k f) x = if x = k then f (sleeve s x) else sleeve s x := by
  rw [modSleeve, sleeve_setSleeve]; split
  · next h => rw [h]
  · rfl
@[simp] theorem domain_modDomain (n x : Nat) (f : Domain → Domain) :
    domain (modDomain s n f) x = if x = n then f (domain s x) else domain s x := by
  rw [modDomain, domain_setDomain]; split
  · next h => rw [h]
  · rfl
@[simp] theorem cell_modCell (c x : Nat) (f : Cell → Cell) :
    cell (modCell s c f) x = if x = c then f (cell s x) else cell s x := by
  rw [modCell, cell_setCell]; split
  · next h => rw [h]
  · rfl
@[simp] theorem sigCore_modSigCore (k x : Nat) (f : SigCore → SigCore) :
    sigCore (modSigCore s k f) x = if x = k then f (sigCore s x) else sigCore s x := by
  rw [modSigCore, sigCore_setSigCore]; split
  · next h => rw [h]
  · rfl
@[simp] theorem radDie_modRadDie (d x : Nat) (f : RadDie → RadDie) :
    radDie (modRadDie s d f) x = if x = d then f (radDie s x) else radDie s x := by
  rw [modRadDie, radDie_setRadDie]; split
  · next h => rw [h]
  · rfl
@[simp] theorem fhPort_modFhPort (p x : Nat) (f : FhPort → FhPort) :
    fhPort (modFhPort s p f) x = if x = p then f (fhPort s x) else fhPort s x := by
  rw [modFhPort, fhPort_setFhPort]; split
  · next h => rw [h]
  · rfl
@[simp] theorem vfPort_modVfPort (p x : Nat) (f : VfPort → VfPort) :
    vfPort (modVfPort s p f) x = if x = p then f (vfPort s x) else vfPort s x := by
  rw [modVfPort, vfPort_setVfPort]; split
  · next h => rw [h]
  · rfl
@[simp] theorem slot_setSlot (e i x y : Nat) (v : Slot) :
    slot (setSlot s e i v) x y = if x = e ∧ y = i then v else slot s x y := by
  by_cases h : x = e
  · subst h; by_cases hi : y = i <;> simp [slot, setSlot, tget_tset, hi]
  · simp [slot, setSlot, h]
@[simp] theorem slot_modSlot (e i x y : Nat) (f : Slot → Slot) :
    slot (modSlot s e i f) x y = if x = e ∧ y = i then f (slot s x y) else slot s x y := by
  rw [modSlot, slot_setSlot]
  split
  · next h => rw [h.1, h.2]
  · rfl
@[simp] theorem mslot_setMslot (w i : Nat) (v : MSlot) : mslot (setMslot s w i v) w i = v := by
  simp [mslot, setMslot]


/-! ### setUnit -/

@[simp] theorem setUnit_pkg (u : Nat) (v : UnitSt) : (setUnit s u v).pkg = s.pkg := rfl
@[simp] theorem setUnit_eng (u : Nat) (v : UnitSt) : (setUnit s u v).eng = s.eng := rfl
@[simp] theorem setUnit_jobs (u : Nat) (v : UnitSt) : (setUnit s u v).jobs = s.jobs := rfl
@[simp] theorem setUnit_slv (u : Nat) (v : UnitSt) : (setUnit s u v).slv = s.slv := rfl
@[simp] theorem setUnit_mgt (u : Nat) (v : UnitSt) : (setUnit s u v).mgt = s.mgt := rfl
@[simp] theorem setUnit_hlt (u : Nat) (v : UnitSt) : (setUnit s u v).hlt = s.hlt := rfl
@[simp] theorem setUnit_nvm (u : Nat) (v : UnitSt) : (setUnit s u v).nvm = s.nvm := rfl
@[simp] theorem setUnit_boot (u : Nat) (v : UnitSt) : (setUnit s u v).boot = s.boot := rfl
@[simp] theorem setUnit_pins (u : Nat) (v : UnitSt) : (setUnit s u v).pins = s.pins := rfl
@[simp] theorem setUnit_pwr (u : Nat) (v : UnitSt) : (setUnit s u v).pwr = s.pwr := rfl
@[simp] theorem setUnit_rad (u : Nat) (v : UnitSt) : (setUnit s u v).rad = s.rad := rfl
@[simp] theorem setUnit_fh (u : Nat) (v : UnitSt) : (setUnit s u v).fh = s.fh := rfl
@[simp] theorem setUnit_tim (u : Nat) (v : UnitSt) : (setUnit s u v).tim = s.tim := rfl
@[simp] theorem setUnit_fab (u : Nat) (v : UnitSt) : (setUnit s u v).fab = s.fab := rfl
@[simp] theorem setUnit_out (u : Nat) (v : UnitSt) : (setUnit s u v).out = s.out := rfl
@[simp] theorem setUnit_freeCount (u : Nat) (v : UnitSt) : (setUnit s u v).freeCount = s.freeCount := rfl
@[simp] theorem setUnit_pending (u : Nat) (v : UnitSt) : (setUnit s u v).pending = s.pending := rfl

/-! ### modUnit -/

@[simp] theorem modUnit_pkg (u : Nat) (f : UnitSt → UnitSt) : (modUnit s u f).pkg = s.pkg := rfl
@[simp] theorem modUnit_eng (u : Nat) (f : UnitSt → UnitSt) : (modUnit s u f).eng = s.eng := rfl
@[simp] theorem modUnit_jobs (u : Nat) (f : UnitSt → UnitSt) : (modUnit s u f).jobs = s.jobs := rfl
@[simp] theorem modUnit_slv (u : Nat) (f : UnitSt → UnitSt) : (modUnit s u f).slv = s.slv := rfl
@[simp] theorem modUnit_mgt (u : Nat) (f : UnitSt → UnitSt) : (modUnit s u f).mgt = s.mgt := rfl
@[simp] theorem modUnit_hlt (u : Nat) (f : UnitSt → UnitSt) : (modUnit s u f).hlt = s.hlt := rfl
@[simp] theorem modUnit_nvm (u : Nat) (f : UnitSt → UnitSt) : (modUnit s u f).nvm = s.nvm := rfl
@[simp] theorem modUnit_boot (u : Nat) (f : UnitSt → UnitSt) : (modUnit s u f).boot = s.boot := rfl
@[simp] theorem modUnit_pins (u : Nat) (f : UnitSt → UnitSt) : (modUnit s u f).pins = s.pins := rfl
@[simp] theorem modUnit_pwr (u : Nat) (f : UnitSt → UnitSt) : (modUnit s u f).pwr = s.pwr := rfl
@[simp] theorem modUnit_rad (u : Nat) (f : UnitSt → UnitSt) : (modUnit s u f).rad = s.rad := rfl
@[simp] theorem modUnit_fh (u : Nat) (f : UnitSt → UnitSt) : (modUnit s u f).fh = s.fh := rfl
@[simp] theorem modUnit_tim (u : Nat) (f : UnitSt → UnitSt) : (modUnit s u f).tim = s.tim := rfl
@[simp] theorem modUnit_fab (u : Nat) (f : UnitSt → UnitSt) : (modUnit s u f).fab = s.fab := rfl
@[simp] theorem modUnit_out (u : Nat) (f : UnitSt → UnitSt) : (modUnit s u f).out = s.out := rfl
@[simp] theorem modUnit_freeCount (u : Nat) (f : UnitSt → UnitSt) : (modUnit s u f).freeCount = s.freeCount := rfl
@[simp] theorem modUnit_pending (u : Nat) (f : UnitSt → UnitSt) : (modUnit s u f).pending = s.pending := rfl

/-! ### setEngine -/

@[simp] theorem setEngine_pkg (e : Nat) (v : Engine) : (setEngine s e v).pkg = s.pkg := rfl
@[simp] theorem setEngine_lin (e : Nat) (v : Engine) : (setEngine s e v).lin = s.lin := rfl
@[simp] theorem setEngine_jobs (e : Nat) (v : Engine) : (setEngine s e v).jobs = s.jobs := rfl
@[simp] theorem setEngine_slv (e : Nat) (v : Engine) : (setEngine s e v).slv = s.slv := rfl
@[simp] theorem setEngine_mgt (e : Nat) (v : Engine) : (setEngine s e v).mgt = s.mgt := rfl
@[simp] theorem setEngine_hlt (e : Nat) (v : Engine) : (setEngine s e v).hlt = s.hlt := rfl
@[simp] theorem setEngine_nvm (e : Nat) (v : Engine) : (setEngine s e v).nvm = s.nvm := rfl
@[simp] theorem setEngine_boot (e : Nat) (v : Engine) : (setEngine s e v).boot = s.boot := rfl
@[simp] theorem setEngine_pins (e : Nat) (v : Engine) : (setEngine s e v).pins = s.pins := rfl
@[simp] theorem setEngine_pwr (e : Nat) (v : Engine) : (setEngine s e v).pwr = s.pwr := rfl
@[simp] theorem setEngine_rad (e : Nat) (v : Engine) : (setEngine s e v).rad = s.rad := rfl
@[simp] theorem setEngine_fh (e : Nat) (v : Engine) : (setEngine s e v).fh = s.fh := rfl
@[simp] theorem setEngine_tim (e : Nat) (v : Engine) : (setEngine s e v).tim = s.tim := rfl
@[simp] theorem setEngine_fab (e : Nat) (v : Engine) : (setEngine s e v).fab = s.fab := rfl
@[simp] theorem setEngine_out (e : Nat) (v : Engine) : (setEngine s e v).out = s.out := rfl
@[simp] theorem setEngine_freeCount (e : Nat) (v : Engine) : (setEngine s e v).freeCount = s.freeCount := rfl
@[simp] theorem setEngine_pending (e : Nat) (v : Engine) : (setEngine s e v).pending = s.pending := rfl

/-! ### modEngine -/

@[simp] theorem modEngine_pkg (e : Nat) (f : Engine → Engine) : (modEngine s e f).pkg = s.pkg := rfl
@[simp] theorem modEngine_lin (e : Nat) (f : Engine → Engine) : (modEngine s e f).lin = s.lin := rfl
@[simp] theorem modEngine_jobs (e : Nat) (f : Engine → Engine) : (modEngine s e f).jobs = s.jobs := rfl
@[simp] theorem modEngine_slv (e : Nat) (f : Engine → Engine) : (modEngine s e f).slv = s.slv := rfl
@[simp] theorem modEngine_mgt (e : Nat) (f : Engine → Engine) : (modEngine s e f).mgt = s.mgt := rfl
@[simp] theorem modEngine_hlt (e : Nat) (f : Engine → Engine) : (modEngine s e f).hlt = s.hlt := rfl
@[simp] theorem modEngine_nvm (e : Nat) (f : Engine → Engine) : (modEngine s e f).nvm = s.nvm := rfl
@[simp] theorem modEngine_boot (e : Nat) (f : Engine → Engine) : (modEngine s e f).boot = s.boot := rfl
@[simp] theorem modEngine_pins (e : Nat) (f : Engine → Engine) : (modEngine s e f).pins = s.pins := rfl
@[simp] theorem modEngine_pwr (e : Nat) (f : Engine → Engine) : (modEngine s e f).pwr = s.pwr := rfl
@[simp] theorem modEngine_rad (e : Nat) (f : Engine → Engine) : (modEngine s e f).rad = s.rad := rfl
@[simp] theorem modEngine_fh (e : Nat) (f : Engine → Engine) : (modEngine s e f).fh = s.fh := rfl
@[simp] theorem modEngine_tim (e : Nat) (f : Engine → Engine) : (modEngine s e f).tim = s.tim := rfl
@[simp] theorem modEngine_fab (e : Nat) (f : Engine → Engine) : (modEngine s e f).fab = s.fab := rfl
@[simp] theorem modEngine_out (e : Nat) (f : Engine → Engine) : (modEngine s e f).out = s.out := rfl
@[simp] theorem modEngine_freeCount (e : Nat) (f : Engine → Engine) : (modEngine s e f).freeCount = s.freeCount := rfl
@[simp] theorem modEngine_pending (e : Nat) (f : Engine → Engine) : (modEngine s e f).pending = s.pending := rfl

/-! ### setSlot -/

@[simp] theorem setSlot_pkg (e i : Nat) (v : Slot) : (setSlot s e i v).pkg = s.pkg := rfl
@[simp] theorem setSlot_lin (e i : Nat) (v : Slot) : (setSlot s e i v).lin = s.lin := rfl
@[simp] theorem setSlot_jobs (e i : Nat) (v : Slot) : (setSlot s e i v).jobs = s.jobs := rfl
@[simp] theorem setSlot_slv (e i : Nat) (v : Slot) : (setSlot s e i v).slv = s.slv := rfl
@[simp] theorem setSlot_mgt (e i : Nat) (v : Slot) : (setSlot s e i v).mgt = s.mgt := rfl
@[simp] theorem setSlot_hlt (e i : Nat) (v : Slot) : (setSlot s e i v).hlt = s.hlt := rfl
@[simp] theorem setSlot_nvm (e i : Nat) (v : Slot) : (setSlot s e i v).nvm = s.nvm := rfl
@[simp] theorem setSlot_boot (e i : Nat) (v : Slot) : (setSlot s e i v).boot = s.boot := rfl
@[simp] theorem setSlot_pins (e i : Nat) (v : Slot) : (setSlot s e i v).pins = s.pins := rfl
@[simp] theorem setSlot_pwr (e i : Nat) (v : Slot) : (setSlot s e i v).pwr = s.pwr := rfl
@[simp] theorem setSlot_rad (e i : Nat) (v : Slot) : (setSlot s e i v).rad = s.rad := rfl
@[simp] theorem setSlot_fh (e i : Nat) (v : Slot) : (setSlot s e i v).fh = s.fh := rfl
@[simp] theorem setSlot_tim (e i : Nat) (v : Slot) : (setSlot s e i v).tim = s.tim := rfl
@[simp] theorem setSlot_fab (e i : Nat) (v : Slot) : (setSlot s e i v).fab = s.fab := rfl
@[simp] theorem setSlot_out (e i : Nat) (v : Slot) : (setSlot s e i v).out = s.out := rfl
@[simp] theorem setSlot_freeCount (e i : Nat) (v : Slot) : (setSlot s e i v).freeCount = s.freeCount := rfl
@[simp] theorem setSlot_pending (e i : Nat) (v : Slot) : (setSlot s e i v).pending = s.pending := rfl

/-! ### modSlot -/

@[simp] theorem modSlot_pkg (e i : Nat) (f : Slot → Slot) : (modSlot s e i f).pkg = s.pkg := rfl
@[simp] theorem modSlot_lin (e i : Nat) (f : Slot → Slot) : (modSlot s e i f).lin = s.lin := rfl
@[simp] theorem modSlot_jobs (e i : Nat) (f : Slot → Slot) : (modSlot s e i f).jobs = s.jobs := rfl
@[simp] theorem modSlot_slv (e i : Nat) (f : Slot → Slot) : (modSlot s e i f).slv = s.slv := rfl
@[simp] theorem modSlot_mgt (e i : Nat) (f : Slot → Slot) : (modSlot s e i f).mgt = s.mgt := rfl
@[simp] theorem modSlot_hlt (e i : Nat) (f : Slot → Slot) : (modSlot s e i f).hlt = s.hlt := rfl
@[simp] theorem modSlot_nvm (e i : Nat) (f : Slot → Slot) : (modSlot s e i f).nvm = s.nvm := rfl
@[simp] theorem modSlot_boot (e i : Nat) (f : Slot → Slot) : (modSlot s e i f).boot = s.boot := rfl
@[simp] theorem modSlot_pins (e i : Nat) (f : Slot → Slot) : (modSlot s e i f).pins = s.pins := rfl
@[simp] theorem modSlot_pwr (e i : Nat) (f : Slot → Slot) : (modSlot s e i f).pwr = s.pwr := rfl
@[simp] theorem modSlot_rad (e i : Nat) (f : Slot → Slot) : (modSlot s e i f).rad = s.rad := rfl
@[simp] theorem modSlot_fh (e i : Nat) (f : Slot → Slot) : (modSlot s e i f).fh = s.fh := rfl
@[simp] theorem modSlot_tim (e i : Nat) (f : Slot → Slot) : (modSlot s e i f).tim = s.tim := rfl
@[simp] theorem modSlot_fab (e i : Nat) (f : Slot → Slot) : (modSlot s e i f).fab = s.fab := rfl
@[simp] theorem modSlot_out (e i : Nat) (f : Slot → Slot) : (modSlot s e i f).out = s.out := rfl
@[simp] theorem modSlot_freeCount (e i : Nat) (f : Slot → Slot) : (modSlot s e i f).freeCount = s.freeCount := rfl
@[simp] theorem modSlot_pending (e i : Nat) (f : Slot → Slot) : (modSlot s e i f).pending = s.pending := rfl

/-! ### setJob -/

@[simp] theorem setJob_pkg (h : Nat) (v : Job) : (setJob s h v).pkg = s.pkg := rfl
@[simp] theorem setJob_eng (h : Nat) (v : Job) : (setJob s h v).eng = s.eng := rfl
@[simp] theorem setJob_lin (h : Nat) (v : Job) : (setJob s h v).lin = s.lin := rfl
@[simp] theorem setJob_slv (h : Nat) (v : Job) : (setJob s h v).slv = s.slv := rfl
@[simp] theorem setJob_mgt (h : Nat) (v : Job) : (setJob s h v).mgt = s.mgt := rfl
@[simp] theorem setJob_hlt (h : Nat) (v : Job) : (setJob s h v).hlt = s.hlt := rfl
@[simp] theorem setJob_nvm (h : Nat) (v : Job) : (setJob s h v).nvm = s.nvm := rfl
@[simp] theorem setJob_boot (h : Nat) (v : Job) : (setJob s h v).boot = s.boot := rfl
@[simp] theorem setJob_pins (h : Nat) (v : Job) : (setJob s h v).pins = s.pins := rfl
@[simp] theorem setJob_pwr (h : Nat) (v : Job) : (setJob s h v).pwr = s.pwr := rfl
@[simp] theorem setJob_rad (h : Nat) (v : Job) : (setJob s h v).rad = s.rad := rfl
@[simp] theorem setJob_fh (h : Nat) (v : Job) : (setJob s h v).fh = s.fh := rfl
@[simp] theorem setJob_tim (h : Nat) (v : Job) : (setJob s h v).tim = s.tim := rfl
@[simp] theorem setJob_fab (h : Nat) (v : Job) : (setJob s h v).fab = s.fab := rfl
@[simp] theorem setJob_out (h : Nat) (v : Job) : (setJob s h v).out = s.out := rfl
@[simp] theorem setJob_freeCount (h : Nat) (v : Job) : (setJob s h v).freeCount = s.freeCount := rfl
@[simp] theorem setJob_pending (h : Nat) (v : Job) : (setJob s h v).pending = s.pending := rfl

/-! ### modJob -/

@[simp] theorem modJob_pkg (h : Nat) (f : Job → Job) : (modJob s h f).pkg = s.pkg := rfl
@[simp] theorem modJob_eng (h : Nat) (f : Job → Job) : (modJob s h f).eng = s.eng := rfl
@[simp] theorem modJob_lin (h : Nat) (f : Job → Job) : (modJob s h f).lin = s.lin := rfl
@[simp] theorem modJob_slv (h : Nat) (f : Job → Job) : (modJob s h f).slv = s.slv := rfl
@[simp] theorem modJob_mgt (h : Nat) (f : Job → Job) : (modJob s h f).mgt = s.mgt := rfl
@[simp] theorem modJob_hlt (h : Nat) (f : Job → Job) : (modJob s h f).hlt = s.hlt := rfl
@[simp] theorem modJob_nvm (h : Nat) (f : Job → Job) : (modJob s h f).nvm = s.nvm := rfl
@[simp] theorem modJob_boot (h : Nat) (f : Job → Job) : (modJob s h f).boot = s.boot := rfl
@[simp] theorem modJob_pins (h : Nat) (f : Job → Job) : (modJob s h f).pins = s.pins := rfl
@[simp] theorem modJob_pwr (h : Nat) (f : Job → Job) : (modJob s h f).pwr = s.pwr := rfl
@[simp] theorem modJob_rad (h : Nat) (f : Job → Job) : (modJob s h f).rad = s.rad := rfl
@[simp] theorem modJob_fh (h : Nat) (f : Job → Job) : (modJob s h f).fh = s.fh := rfl
@[simp] theorem modJob_tim (h : Nat) (f : Job → Job) : (modJob s h f).tim = s.tim := rfl
@[simp] theorem modJob_fab (h : Nat) (f : Job → Job) : (modJob s h f).fab = s.fab := rfl
@[simp] theorem modJob_out (h : Nat) (f : Job → Job) : (modJob s h f).out = s.out := rfl
@[simp] theorem modJob_freeCount (h : Nat) (f : Job → Job) : (modJob s h f).freeCount = s.freeCount := rfl
@[simp] theorem modJob_pending (h : Nat) (f : Job → Job) : (modJob s h f).pending = s.pending := rfl

/-! ### setSleeve -/

@[simp] theorem setSleeve_pkg (k : Nat) (v : Sleeve) : (setSleeve s k v).pkg = s.pkg := rfl
@[simp] theorem setSleeve_eng (k : Nat) (v : Sleeve) : (setSleeve s k v).eng = s.eng := rfl
@[simp] theorem setSleeve_lin (k : Nat) (v : Sleeve) : (setSleeve s k v).lin = s.lin := rfl
@[simp] theorem setSleeve_jobs (k : Nat) (v : Sleeve) : (setSleeve s k v).jobs = s.jobs := rfl
@[simp] theorem setSleeve_mgt (k : Nat) (v : Sleeve) : (setSleeve s k v).mgt = s.mgt := rfl
@[simp] theorem setSleeve_hlt (k : Nat) (v : Sleeve) : (setSleeve s k v).hlt = s.hlt := rfl
@[simp] theorem setSleeve_nvm (k : Nat) (v : Sleeve) : (setSleeve s k v).nvm = s.nvm := rfl
@[simp] theorem setSleeve_boot (k : Nat) (v : Sleeve) : (setSleeve s k v).boot = s.boot := rfl
@[simp] theorem setSleeve_pins (k : Nat) (v : Sleeve) : (setSleeve s k v).pins = s.pins := rfl
@[simp] theorem setSleeve_pwr (k : Nat) (v : Sleeve) : (setSleeve s k v).pwr = s.pwr := rfl
@[simp] theorem setSleeve_rad (k : Nat) (v : Sleeve) : (setSleeve s k v).rad = s.rad := rfl
@[simp] theorem setSleeve_fh (k : Nat) (v : Sleeve) : (setSleeve s k v).fh = s.fh := rfl
@[simp] theorem setSleeve_tim (k : Nat) (v : Sleeve) : (setSleeve s k v).tim = s.tim := rfl
@[simp] theorem setSleeve_fab (k : Nat) (v : Sleeve) : (setSleeve s k v).fab = s.fab := rfl
@[simp] theorem setSleeve_out (k : Nat) (v : Sleeve) : (setSleeve s k v).out = s.out := rfl
@[simp] theorem setSleeve_freeCount (k : Nat) (v : Sleeve) : (setSleeve s k v).freeCount = s.freeCount := rfl
@[simp] theorem setSleeve_pending (k : Nat) (v : Sleeve) : (setSleeve s k v).pending = s.pending := rfl

/-! ### modSleeve -/

@[simp] theorem modSleeve_pkg (k : Nat) (f : Sleeve → Sleeve) : (modSleeve s k f).pkg = s.pkg := rfl
@[simp] theorem modSleeve_eng (k : Nat) (f : Sleeve → Sleeve) : (modSleeve s k f).eng = s.eng := rfl
@[simp] theorem modSleeve_lin (k : Nat) (f : Sleeve → Sleeve) : (modSleeve s k f).lin = s.lin := rfl
@[simp] theorem modSleeve_jobs (k : Nat) (f : Sleeve → Sleeve) : (modSleeve s k f).jobs = s.jobs := rfl
@[simp] theorem modSleeve_mgt (k : Nat) (f : Sleeve → Sleeve) : (modSleeve s k f).mgt = s.mgt := rfl
@[simp] theorem modSleeve_hlt (k : Nat) (f : Sleeve → Sleeve) : (modSleeve s k f).hlt = s.hlt := rfl
@[simp] theorem modSleeve_nvm (k : Nat) (f : Sleeve → Sleeve) : (modSleeve s k f).nvm = s.nvm := rfl
@[simp] theorem modSleeve_boot (k : Nat) (f : Sleeve → Sleeve) : (modSleeve s k f).boot = s.boot := rfl
@[simp] theorem modSleeve_pins (k : Nat) (f : Sleeve → Sleeve) : (modSleeve s k f).pins = s.pins := rfl
@[simp] theorem modSleeve_pwr (k : Nat) (f : Sleeve → Sleeve) : (modSleeve s k f).pwr = s.pwr := rfl
@[simp] theorem modSleeve_rad (k : Nat) (f : Sleeve → Sleeve) : (modSleeve s k f).rad = s.rad := rfl
@[simp] theorem modSleeve_fh (k : Nat) (f : Sleeve → Sleeve) : (modSleeve s k f).fh = s.fh := rfl
@[simp] theorem modSleeve_tim (k : Nat) (f : Sleeve → Sleeve) : (modSleeve s k f).tim = s.tim := rfl
@[simp] theorem modSleeve_fab (k : Nat) (f : Sleeve → Sleeve) : (modSleeve s k f).fab = s.fab := rfl
@[simp] theorem modSleeve_out (k : Nat) (f : Sleeve → Sleeve) : (modSleeve s k f).out = s.out := rfl
@[simp] theorem modSleeve_freeCount (k : Nat) (f : Sleeve → Sleeve) : (modSleeve s k f).freeCount = s.freeCount := rfl
@[simp] theorem modSleeve_pending (k : Nat) (f : Sleeve → Sleeve) : (modSleeve s k f).pending = s.pending := rfl

/-! ### setDomain -/

@[simp] theorem setDomain_pkg (n : Nat) (v : Domain) : (setDomain s n v).pkg = s.pkg := rfl
@[simp] theorem setDomain_eng (n : Nat) (v : Domain) : (setDomain s n v).eng = s.eng := rfl
@[simp] theorem setDomain_lin (n : Nat) (v : Domain) : (setDomain s n v).lin = s.lin := rfl
@[simp] theorem setDomain_jobs (n : Nat) (v : Domain) : (setDomain s n v).jobs = s.jobs := rfl
@[simp] theorem setDomain_slv (n : Nat) (v : Domain) : (setDomain s n v).slv = s.slv := rfl
@[simp] theorem setDomain_mgt (n : Nat) (v : Domain) : (setDomain s n v).mgt = s.mgt := rfl
@[simp] theorem setDomain_hlt (n : Nat) (v : Domain) : (setDomain s n v).hlt = s.hlt := rfl
@[simp] theorem setDomain_nvm (n : Nat) (v : Domain) : (setDomain s n v).nvm = s.nvm := rfl
@[simp] theorem setDomain_boot (n : Nat) (v : Domain) : (setDomain s n v).boot = s.boot := rfl
@[simp] theorem setDomain_pins (n : Nat) (v : Domain) : (setDomain s n v).pins = s.pins := rfl
@[simp] theorem setDomain_rad (n : Nat) (v : Domain) : (setDomain s n v).rad = s.rad := rfl
@[simp] theorem setDomain_fh (n : Nat) (v : Domain) : (setDomain s n v).fh = s.fh := rfl
@[simp] theorem setDomain_tim (n : Nat) (v : Domain) : (setDomain s n v).tim = s.tim := rfl
@[simp] theorem setDomain_fab (n : Nat) (v : Domain) : (setDomain s n v).fab = s.fab := rfl
@[simp] theorem setDomain_out (n : Nat) (v : Domain) : (setDomain s n v).out = s.out := rfl
@[simp] theorem setDomain_freeCount (n : Nat) (v : Domain) : (setDomain s n v).freeCount = s.freeCount := rfl
@[simp] theorem setDomain_pending (n : Nat) (v : Domain) : (setDomain s n v).pending = s.pending := rfl

/-! ### modDomain -/

@[simp] theorem modDomain_pkg (n : Nat) (f : Domain → Domain) : (modDomain s n f).pkg = s.pkg := rfl
@[simp] theorem modDomain_eng (n : Nat) (f : Domain → Domain) : (modDomain s n f).eng = s.eng := rfl
@[simp] theorem modDomain_lin (n : Nat) (f : Domain → Domain) : (modDomain s n f).lin = s.lin := rfl
@[simp] theorem modDomain_jobs (n : Nat) (f : Domain → Domain) : (modDomain s n f).jobs = s.jobs := rfl
@[simp] theorem modDomain_slv (n : Nat) (f : Domain → Domain) : (modDomain s n f).slv = s.slv := rfl
@[simp] theorem modDomain_mgt (n : Nat) (f : Domain → Domain) : (modDomain s n f).mgt = s.mgt := rfl
@[simp] theorem modDomain_hlt (n : Nat) (f : Domain → Domain) : (modDomain s n f).hlt = s.hlt := rfl
@[simp] theorem modDomain_nvm (n : Nat) (f : Domain → Domain) : (modDomain s n f).nvm = s.nvm := rfl
@[simp] theorem modDomain_boot (n : Nat) (f : Domain → Domain) : (modDomain s n f).boot = s.boot := rfl
@[simp] theorem modDomain_pins (n : Nat) (f : Domain → Domain) : (modDomain s n f).pins = s.pins := rfl
@[simp] theorem modDomain_rad (n : Nat) (f : Domain → Domain) : (modDomain s n f).rad = s.rad := rfl
@[simp] theorem modDomain_fh (n : Nat) (f : Domain → Domain) : (modDomain s n f).fh = s.fh := rfl
@[simp] theorem modDomain_tim (n : Nat) (f : Domain → Domain) : (modDomain s n f).tim = s.tim := rfl
@[simp] theorem modDomain_fab (n : Nat) (f : Domain → Domain) : (modDomain s n f).fab = s.fab := rfl
@[simp] theorem modDomain_out (n : Nat) (f : Domain → Domain) : (modDomain s n f).out = s.out := rfl
@[simp] theorem modDomain_freeCount (n : Nat) (f : Domain → Domain) : (modDomain s n f).freeCount = s.freeCount := rfl
@[simp] theorem modDomain_pending (n : Nat) (f : Domain → Domain) : (modDomain s n f).pending = s.pending := rfl

/-! ### setDiePwr -/

@[simp] theorem setDiePwr_pkg (d : Nat) (v : DiePwr) : (setDiePwr s d v).pkg = s.pkg := rfl
@[simp] theorem setDiePwr_eng (d : Nat) (v : DiePwr) : (setDiePwr s d v).eng = s.eng := rfl
@[simp] theorem setDiePwr_lin (d : Nat) (v : DiePwr) : (setDiePwr s d v).lin = s.lin := rfl
@[simp] theorem setDiePwr_jobs (d : Nat) (v : DiePwr) : (setDiePwr s d v).jobs = s.jobs := rfl
@[simp] theorem setDiePwr_slv (d : Nat) (v : DiePwr) : (setDiePwr s d v).slv = s.slv := rfl
@[simp] theorem setDiePwr_mgt (d : Nat) (v : DiePwr) : (setDiePwr s d v).mgt = s.mgt := rfl
@[simp] theorem setDiePwr_hlt (d : Nat) (v : DiePwr) : (setDiePwr s d v).hlt = s.hlt := rfl
@[simp] theorem setDiePwr_nvm (d : Nat) (v : DiePwr) : (setDiePwr s d v).nvm = s.nvm := rfl
@[simp] theorem setDiePwr_boot (d : Nat) (v : DiePwr) : (setDiePwr s d v).boot = s.boot := rfl
@[simp] theorem setDiePwr_pins (d : Nat) (v : DiePwr) : (setDiePwr s d v).pins = s.pins := rfl
@[simp] theorem setDiePwr_rad (d : Nat) (v : DiePwr) : (setDiePwr s d v).rad = s.rad := rfl
@[simp] theorem setDiePwr_fh (d : Nat) (v : DiePwr) : (setDiePwr s d v).fh = s.fh := rfl
@[simp] theorem setDiePwr_tim (d : Nat) (v : DiePwr) : (setDiePwr s d v).tim = s.tim := rfl
@[simp] theorem setDiePwr_fab (d : Nat) (v : DiePwr) : (setDiePwr s d v).fab = s.fab := rfl
@[simp] theorem setDiePwr_out (d : Nat) (v : DiePwr) : (setDiePwr s d v).out = s.out := rfl
@[simp] theorem setDiePwr_freeCount (d : Nat) (v : DiePwr) : (setDiePwr s d v).freeCount = s.freeCount := rfl
@[simp] theorem setDiePwr_pending (d : Nat) (v : DiePwr) : (setDiePwr s d v).pending = s.pending := rfl

/-! ### setMslot -/

@[simp] theorem setMslot_pkg (w i : Nat) (v : MSlot) : (setMslot s w i v).pkg = s.pkg := rfl
@[simp] theorem setMslot_eng (w i : Nat) (v : MSlot) : (setMslot s w i v).eng = s.eng := rfl
@[simp] theorem setMslot_lin (w i : Nat) (v : MSlot) : (setMslot s w i v).lin = s.lin := rfl
@[simp] theorem setMslot_jobs (w i : Nat) (v : MSlot) : (setMslot s w i v).jobs = s.jobs := rfl
@[simp] theorem setMslot_slv (w i : Nat) (v : MSlot) : (setMslot s w i v).slv = s.slv := rfl
@[simp] theorem setMslot_hlt (w i : Nat) (v : MSlot) : (setMslot s w i v).hlt = s.hlt := rfl
@[simp] theorem setMslot_nvm (w i : Nat) (v : MSlot) : (setMslot s w i v).nvm = s.nvm := rfl
@[simp] theorem setMslot_boot (w i : Nat) (v : MSlot) : (setMslot s w i v).boot = s.boot := rfl
@[simp] theorem setMslot_pins (w i : Nat) (v : MSlot) : (setMslot s w i v).pins = s.pins := rfl
@[simp] theorem setMslot_pwr (w i : Nat) (v : MSlot) : (setMslot s w i v).pwr = s.pwr := rfl
@[simp] theorem setMslot_rad (w i : Nat) (v : MSlot) : (setMslot s w i v).rad = s.rad := rfl
@[simp] theorem setMslot_fh (w i : Nat) (v : MSlot) : (setMslot s w i v).fh = s.fh := rfl
@[simp] theorem setMslot_tim (w i : Nat) (v : MSlot) : (setMslot s w i v).tim = s.tim := rfl
@[simp] theorem setMslot_fab (w i : Nat) (v : MSlot) : (setMslot s w i v).fab = s.fab := rfl
@[simp] theorem setMslot_out (w i : Nat) (v : MSlot) : (setMslot s w i v).out = s.out := rfl
@[simp] theorem setMslot_freeCount (w i : Nat) (v : MSlot) : (setMslot s w i v).freeCount = s.freeCount := rfl
@[simp] theorem setMslot_pending (w i : Nat) (v : MSlot) : (setMslot s w i v).pending = s.pending := rfl

/-! ### setHostCore -/

@[simp] theorem setHostCore_pkg (k : Nat) (v : HostCore) : (setHostCore s k v).pkg = s.pkg := rfl
@[simp] theorem setHostCore_eng (k : Nat) (v : HostCore) : (setHostCore s k v).eng = s.eng := rfl
@[simp] theorem setHostCore_lin (k : Nat) (v : HostCore) : (setHostCore s k v).lin = s.lin := rfl
@[simp] theorem setHostCore_jobs (k : Nat) (v : HostCore) : (setHostCore s k v).jobs = s.jobs := rfl
@[simp] theorem setHostCore_slv (k : Nat) (v : HostCore) : (setHostCore s k v).slv = s.slv := rfl
@[simp] theorem setHostCore_hlt (k : Nat) (v : HostCore) : (setHostCore s k v).hlt = s.hlt := rfl
@[simp] theorem setHostCore_nvm (k : Nat) (v : HostCore) : (setHostCore s k v).nvm = s.nvm := rfl
@[simp] theorem setHostCore_boot (k : Nat) (v : HostCore) : (setHostCore s k v).boot = s.boot := rfl
@[simp] theorem setHostCore_pins (k : Nat) (v : HostCore) : (setHostCore s k v).pins = s.pins := rfl
@[simp] theorem setHostCore_pwr (k : Nat) (v : HostCore) : (setHostCore s k v).pwr = s.pwr := rfl
@[simp] theorem setHostCore_rad (k : Nat) (v : HostCore) : (setHostCore s k v).rad = s.rad := rfl
@[simp] theorem setHostCore_fh (k : Nat) (v : HostCore) : (setHostCore s k v).fh = s.fh := rfl
@[simp] theorem setHostCore_tim (k : Nat) (v : HostCore) : (setHostCore s k v).tim = s.tim := rfl
@[simp] theorem setHostCore_fab (k : Nat) (v : HostCore) : (setHostCore s k v).fab = s.fab := rfl
@[simp] theorem setHostCore_out (k : Nat) (v : HostCore) : (setHostCore s k v).out = s.out := rfl
@[simp] theorem setHostCore_freeCount (k : Nat) (v : HostCore) : (setHostCore s k v).freeCount = s.freeCount := rfl
@[simp] theorem setHostCore_pending (k : Nat) (v : HostCore) : (setHostCore s k v).pending = s.pending := rfl

/-! ### setDicSrc -/

@[simp] theorem setDicSrc_pkg (n : Nat) (v : DicSrc) : (setDicSrc s n v).pkg = s.pkg := rfl
@[simp] theorem setDicSrc_eng (n : Nat) (v : DicSrc) : (setDicSrc s n v).eng = s.eng := rfl
@[simp] theorem setDicSrc_lin (n : Nat) (v : DicSrc) : (setDicSrc s n v).lin = s.lin := rfl
@[simp] theorem setDicSrc_jobs (n : Nat) (v : DicSrc) : (setDicSrc s n v).jobs = s.jobs := rfl
@[simp] theorem setDicSrc_slv (n : Nat) (v : DicSrc) : (setDicSrc s n v).slv = s.slv := rfl
@[simp] theorem setDicSrc_hlt (n : Nat) (v : DicSrc) : (setDicSrc s n v).hlt = s.hlt := rfl
@[simp] theorem setDicSrc_nvm (n : Nat) (v : DicSrc) : (setDicSrc s n v).nvm = s.nvm := rfl
@[simp] theorem setDicSrc_boot (n : Nat) (v : DicSrc) : (setDicSrc s n v).boot = s.boot := rfl
@[simp] theorem setDicSrc_pins (n : Nat) (v : DicSrc) : (setDicSrc s n v).pins = s.pins := rfl
@[simp] theorem setDicSrc_pwr (n : Nat) (v : DicSrc) : (setDicSrc s n v).pwr = s.pwr := rfl
@[simp] theorem setDicSrc_rad (n : Nat) (v : DicSrc) : (setDicSrc s n v).rad = s.rad := rfl
@[simp] theorem setDicSrc_fh (n : Nat) (v : DicSrc) : (setDicSrc s n v).fh = s.fh := rfl
@[simp] theorem setDicSrc_tim (n : Nat) (v : DicSrc) : (setDicSrc s n v).tim = s.tim := rfl
@[simp] theorem setDicSrc_fab (n : Nat) (v : DicSrc) : (setDicSrc s n v).fab = s.fab := rfl
@[simp] theorem setDicSrc_out (n : Nat) (v : DicSrc) : (setDicSrc s n v).out = s.out := rfl
@[simp] theorem setDicSrc_freeCount (n : Nat) (v : DicSrc) : (setDicSrc s n v).freeCount = s.freeCount := rfl
@[simp] theorem setDicSrc_pending (n : Nat) (v : DicSrc) : (setDicSrc s n v).pending = s.pending := rfl

/-! ### setDicCore -/

@[simp] theorem setDicCore_pkg (n : Nat) (v : DicCore) : (setDicCore s n v).pkg = s.pkg := rfl
@[simp] theorem setDicCore_eng (n : Nat) (v : DicCore) : (setDicCore s n v).eng = s.eng := rfl
@[simp] theorem setDicCore_lin (n : Nat) (v : DicCore) : (setDicCore s n v).lin = s.lin := rfl
@[simp] theorem setDicCore_jobs (n : Nat) (v : DicCore) : (setDicCore s n v).jobs = s.jobs := rfl
@[simp] theorem setDicCore_slv (n : Nat) (v : DicCore) : (setDicCore s n v).slv = s.slv := rfl
@[simp] theorem setDicCore_hlt (n : Nat) (v : DicCore) : (setDicCore s n v).hlt = s.hlt := rfl
@[simp] theorem setDicCore_nvm (n : Nat) (v : DicCore) : (setDicCore s n v).nvm = s.nvm := rfl
@[simp] theorem setDicCore_boot (n : Nat) (v : DicCore) : (setDicCore s n v).boot = s.boot := rfl
@[simp] theorem setDicCore_pins (n : Nat) (v : DicCore) : (setDicCore s n v).pins = s.pins := rfl
@[simp] theorem setDicCore_pwr (n : Nat) (v : DicCore) : (setDicCore s n v).pwr = s.pwr := rfl
@[simp] theorem setDicCore_rad (n : Nat) (v : DicCore) : (setDicCore s n v).rad = s.rad := rfl
@[simp] theorem setDicCore_fh (n : Nat) (v : DicCore) : (setDicCore s n v).fh = s.fh := rfl
@[simp] theorem setDicCore_tim (n : Nat) (v : DicCore) : (setDicCore s n v).tim = s.tim := rfl
@[simp] theorem setDicCore_fab (n : Nat) (v : DicCore) : (setDicCore s n v).fab = s.fab := rfl
@[simp] theorem setDicCore_out (n : Nat) (v : DicCore) : (setDicCore s n v).out = s.out := rfl
@[simp] theorem setDicCore_freeCount (n : Nat) (v : DicCore) : (setDicCore s n v).freeCount = s.freeCount := rfl
@[simp] theorem setDicCore_pending (n : Nat) (v : DicCore) : (setDicCore s n v).pending = s.pending := rfl

/-! ### emit -/

@[simp] theorem emit_pkg (o : Out) : (emit s o).pkg = s.pkg := rfl
@[simp] theorem emit_eng (o : Out) : (emit s o).eng = s.eng := rfl
@[simp] theorem emit_lin (o : Out) : (emit s o).lin = s.lin := rfl
@[simp] theorem emit_jobs (o : Out) : (emit s o).jobs = s.jobs := rfl
@[simp] theorem emit_slv (o : Out) : (emit s o).slv = s.slv := rfl
@[simp] theorem emit_mgt (o : Out) : (emit s o).mgt = s.mgt := rfl
@[simp] theorem emit_hlt (o : Out) : (emit s o).hlt = s.hlt := rfl
@[simp] theorem emit_nvm (o : Out) : (emit s o).nvm = s.nvm := rfl
@[simp] theorem emit_boot (o : Out) : (emit s o).boot = s.boot := rfl
@[simp] theorem emit_pins (o : Out) : (emit s o).pins = s.pins := rfl
@[simp] theorem emit_pwr (o : Out) : (emit s o).pwr = s.pwr := rfl
@[simp] theorem emit_rad (o : Out) : (emit s o).rad = s.rad := rfl
@[simp] theorem emit_fh (o : Out) : (emit s o).fh = s.fh := rfl
@[simp] theorem emit_tim (o : Out) : (emit s o).tim = s.tim := rfl
@[simp] theorem emit_fab (o : Out) : (emit s o).fab = s.fab := rfl
@[simp] theorem emit_freeCount (o : Out) : (emit s o).freeCount = s.freeCount := rfl
@[simp] theorem emit_pending (o : Out) : (emit s o).pending = s.pending := rfl

/-! ### physWrite -/

@[simp] theorem physWrite_eng (a : Nat) (bs : List Byte) : (physWrite s a bs).eng = s.eng := rfl
@[simp] theorem physWrite_lin (a : Nat) (bs : List Byte) : (physWrite s a bs).lin = s.lin := rfl
@[simp] theorem physWrite_jobs (a : Nat) (bs : List Byte) : (physWrite s a bs).jobs = s.jobs := rfl
@[simp] theorem physWrite_slv (a : Nat) (bs : List Byte) : (physWrite s a bs).slv = s.slv := rfl
@[simp] theorem physWrite_mgt (a : Nat) (bs : List Byte) : (physWrite s a bs).mgt = s.mgt := rfl
@[simp] theorem physWrite_hlt (a : Nat) (bs : List Byte) : (physWrite s a bs).hlt = s.hlt := rfl
@[simp] theorem physWrite_nvm (a : Nat) (bs : List Byte) : (physWrite s a bs).nvm = s.nvm := rfl
@[simp] theorem physWrite_boot (a : Nat) (bs : List Byte) : (physWrite s a bs).boot = s.boot := rfl
@[simp] theorem physWrite_pins (a : Nat) (bs : List Byte) : (physWrite s a bs).pins = s.pins := rfl
@[simp] theorem physWrite_pwr (a : Nat) (bs : List Byte) : (physWrite s a bs).pwr = s.pwr := rfl
@[simp] theorem physWrite_rad (a : Nat) (bs : List Byte) : (physWrite s a bs).rad = s.rad := rfl
@[simp] theorem physWrite_fh (a : Nat) (bs : List Byte) : (physWrite s a bs).fh = s.fh := rfl
@[simp] theorem physWrite_tim (a : Nat) (bs : List Byte) : (physWrite s a bs).tim = s.tim := rfl
@[simp] theorem physWrite_fab (a : Nat) (bs : List Byte) : (physWrite s a bs).fab = s.fab := rfl
@[simp] theorem physWrite_out (a : Nat) (bs : List Byte) : (physWrite s a bs).out = s.out := rfl
@[simp] theorem physWrite_freeCount (a : Nat) (bs : List Byte) : (physWrite s a bs).freeCount = s.freeCount := rfl
@[simp] theorem physWrite_pending (a : Nat) (bs : List Byte) : (physWrite s a bs).pending = s.pending := rfl

/-! ### physZero -/

@[simp] theorem physZero_eng (a n : Nat) : (physZero s a n).eng = s.eng := rfl
@[simp] theorem physZero_lin (a n : Nat) : (physZero s a n).lin = s.lin := rfl
@[simp] theorem physZero_jobs (a n : Nat) : (physZero s a n).jobs = s.jobs := rfl
@[simp] theorem physZero_slv (a n : Nat) : (physZero s a n).slv = s.slv := rfl
@[simp] theorem physZero_mgt (a n : Nat) : (physZero s a n).mgt = s.mgt := rfl
@[simp] theorem physZero_hlt (a n : Nat) : (physZero s a n).hlt = s.hlt := rfl
@[simp] theorem physZero_nvm (a n : Nat) : (physZero s a n).nvm = s.nvm := rfl
@[simp] theorem physZero_boot (a n : Nat) : (physZero s a n).boot = s.boot := rfl
@[simp] theorem physZero_pins (a n : Nat) : (physZero s a n).pins = s.pins := rfl
@[simp] theorem physZero_pwr (a n : Nat) : (physZero s a n).pwr = s.pwr := rfl
@[simp] theorem physZero_rad (a n : Nat) : (physZero s a n).rad = s.rad := rfl
@[simp] theorem physZero_fh (a n : Nat) : (physZero s a n).fh = s.fh := rfl
@[simp] theorem physZero_tim (a n : Nat) : (physZero s a n).tim = s.tim := rfl
@[simp] theorem physZero_fab (a n : Nat) : (physZero s a n).fab = s.fab := rfl
@[simp] theorem physZero_out (a n : Nat) : (physZero s a n).out = s.out := rfl
@[simp] theorem physZero_freeCount (a n : Nat) : (physZero s a n).freeCount = s.freeCount := rfl
@[simp] theorem physZero_pending (a n : Nat) : (physZero s a n).pending = s.pending := rfl

/-! ### physCopy -/

@[simp] theorem physCopy_eng (a b n : Nat) : (physCopy s a b n).eng = s.eng := rfl
@[simp] theorem physCopy_lin (a b n : Nat) : (physCopy s a b n).lin = s.lin := rfl
@[simp] theorem physCopy_jobs (a b n : Nat) : (physCopy s a b n).jobs = s.jobs := rfl
@[simp] theorem physCopy_slv (a b n : Nat) : (physCopy s a b n).slv = s.slv := rfl
@[simp] theorem physCopy_mgt (a b n : Nat) : (physCopy s a b n).mgt = s.mgt := rfl
@[simp] theorem physCopy_hlt (a b n : Nat) : (physCopy s a b n).hlt = s.hlt := rfl
@[simp] theorem physCopy_nvm (a b n : Nat) : (physCopy s a b n).nvm = s.nvm := rfl
@[simp] theorem physCopy_boot (a b n : Nat) : (physCopy s a b n).boot = s.boot := rfl
@[simp] theorem physCopy_pins (a b n : Nat) : (physCopy s a b n).pins = s.pins := rfl
@[simp] theorem physCopy_pwr (a b n : Nat) : (physCopy s a b n).pwr = s.pwr := rfl
@[simp] theorem physCopy_rad (a b n : Nat) : (physCopy s a b n).rad = s.rad := rfl
@[simp] theorem physCopy_fh (a b n : Nat) : (physCopy s a b n).fh = s.fh := rfl
@[simp] theorem physCopy_tim (a b n : Nat) : (physCopy s a b n).tim = s.tim := rfl
@[simp] theorem physCopy_fab (a b n : Nat) : (physCopy s a b n).fab = s.fab := rfl
@[simp] theorem physCopy_out (a b n : Nat) : (physCopy s a b n).out = s.out := rfl
@[simp] theorem physCopy_freeCount (a b n : Nat) : (physCopy s a b n).freeCount = s.freeCount := rfl
@[simp] theorem physCopy_pending (a b n : Nat) : (physCopy s a b n).pending = s.pending := rfl

/-! ### setOwn -/

@[simp] theorem setOwn_eng (p : Nat) (w : W64) : (setOwn s p w).eng = s.eng := rfl
@[simp] theorem setOwn_lin (p : Nat) (w : W64) : (setOwn s p w).lin = s.lin := rfl
@[simp] theorem setOwn_jobs (p : Nat) (w : W64) : (setOwn s p w).jobs = s.jobs := rfl
@[simp] theorem setOwn_slv (p : Nat) (w : W64) : (setOwn s p w).slv = s.slv := rfl
@[simp] theorem setOwn_mgt (p : Nat) (w : W64) : (setOwn s p w).mgt = s.mgt := rfl
@[simp] theorem setOwn_hlt (p : Nat) (w : W64) : (setOwn s p w).hlt = s.hlt := rfl
@[simp] theorem setOwn_nvm (p : Nat) (w : W64) : (setOwn s p w).nvm = s.nvm := rfl
@[simp] theorem setOwn_boot (p : Nat) (w : W64) : (setOwn s p w).boot = s.boot := rfl
@[simp] theorem setOwn_pins (p : Nat) (w : W64) : (setOwn s p w).pins = s.pins := rfl
@[simp] theorem setOwn_pwr (p : Nat) (w : W64) : (setOwn s p w).pwr = s.pwr := rfl
@[simp] theorem setOwn_rad (p : Nat) (w : W64) : (setOwn s p w).rad = s.rad := rfl
@[simp] theorem setOwn_fh (p : Nat) (w : W64) : (setOwn s p w).fh = s.fh := rfl
@[simp] theorem setOwn_tim (p : Nat) (w : W64) : (setOwn s p w).tim = s.tim := rfl
@[simp] theorem setOwn_fab (p : Nat) (w : W64) : (setOwn s p w).fab = s.fab := rfl
@[simp] theorem setOwn_out (p : Nat) (w : W64) : (setOwn s p w).out = s.out := rfl
@[simp] theorem setOwn_freeCount (p : Nat) (w : W64) : (setOwn s p w).freeCount = s.freeCount := rfl
@[simp] theorem setOwn_pending (p : Nat) (w : W64) : (setOwn s p w).pending = s.pending := rfl

/-! ### setCell -/

@[simp] theorem setCell_pkg (c : Nat) (v : Cell) : (setCell s c v).pkg = s.pkg := rfl
@[simp] theorem setCell_eng (c : Nat) (v : Cell) : (setCell s c v).eng = s.eng := rfl
@[simp] theorem setCell_lin (c : Nat) (v : Cell) : (setCell s c v).lin = s.lin := rfl
@[simp] theorem setCell_jobs (c : Nat) (v : Cell) : (setCell s c v).jobs = s.jobs := rfl
@[simp] theorem setCell_slv (c : Nat) (v : Cell) : (setCell s c v).slv = s.slv := rfl
@[simp] theorem setCell_mgt (c : Nat) (v : Cell) : (setCell s c v).mgt = s.mgt := rfl
@[simp] theorem setCell_hlt (c : Nat) (v : Cell) : (setCell s c v).hlt = s.hlt := rfl
@[simp] theorem setCell_nvm (c : Nat) (v : Cell) : (setCell s c v).nvm = s.nvm := rfl
@[simp] theorem setCell_boot (c : Nat) (v : Cell) : (setCell s c v).boot = s.boot := rfl
@[simp] theorem setCell_pins (c : Nat) (v : Cell) : (setCell s c v).pins = s.pins := rfl
@[simp] theorem setCell_pwr (c : Nat) (v : Cell) : (setCell s c v).pwr = s.pwr := rfl
@[simp] theorem setCell_fh (c : Nat) (v : Cell) : (setCell s c v).fh = s.fh := rfl
@[simp] theorem setCell_tim (c : Nat) (v : Cell) : (setCell s c v).tim = s.tim := rfl
@[simp] theorem setCell_fab (c : Nat) (v : Cell) : (setCell s c v).fab = s.fab := rfl
@[simp] theorem setCell_out (c : Nat) (v : Cell) : (setCell s c v).out = s.out := rfl
@[simp] theorem setCell_freeCount (c : Nat) (v : Cell) : (setCell s c v).freeCount = s.freeCount := rfl
@[simp] theorem setCell_pending (c : Nat) (v : Cell) : (setCell s c v).pending = s.pending := rfl

/-! ### modCell -/

@[simp] theorem modCell_pkg (c : Nat) (f : Cell → Cell) : (modCell s c f).pkg = s.pkg := rfl
@[simp] theorem modCell_eng (c : Nat) (f : Cell → Cell) : (modCell s c f).eng = s.eng := rfl
@[simp] theorem modCell_lin (c : Nat) (f : Cell → Cell) : (modCell s c f).lin = s.lin := rfl
@[simp] theorem modCell_jobs (c : Nat) (f : Cell → Cell) : (modCell s c f).jobs = s.jobs := rfl
@[simp] theorem modCell_slv (c : Nat) (f : Cell → Cell) : (modCell s c f).slv = s.slv := rfl
@[simp] theorem modCell_mgt (c : Nat) (f : Cell → Cell) : (modCell s c f).mgt = s.mgt := rfl
@[simp] theorem modCell_hlt (c : Nat) (f : Cell → Cell) : (modCell s c f).hlt = s.hlt := rfl
@[simp] theorem modCell_nvm (c : Nat) (f : Cell → Cell) : (modCell s c f).nvm = s.nvm := rfl
@[simp] theorem modCell_boot (c : Nat) (f : Cell → Cell) : (modCell s c f).boot = s.boot := rfl
@[simp] theorem modCell_pins (c : Nat) (f : Cell → Cell) : (modCell s c f).pins = s.pins := rfl
@[simp] theorem modCell_pwr (c : Nat) (f : Cell → Cell) : (modCell s c f).pwr = s.pwr := rfl
@[simp] theorem modCell_fh (c : Nat) (f : Cell → Cell) : (modCell s c f).fh = s.fh := rfl
@[simp] theorem modCell_tim (c : Nat) (f : Cell → Cell) : (modCell s c f).tim = s.tim := rfl
@[simp] theorem modCell_fab (c : Nat) (f : Cell → Cell) : (modCell s c f).fab = s.fab := rfl
@[simp] theorem modCell_out (c : Nat) (f : Cell → Cell) : (modCell s c f).out = s.out := rfl
@[simp] theorem modCell_freeCount (c : Nat) (f : Cell → Cell) : (modCell s c f).freeCount = s.freeCount := rfl
@[simp] theorem modCell_pending (c : Nat) (f : Cell → Cell) : (modCell s c f).pending = s.pending := rfl

/-! ### setSigCore -/

@[simp] theorem setSigCore_pkg (k : Nat) (v : SigCore) : (setSigCore s k v).pkg = s.pkg := rfl
@[simp] theorem setSigCore_eng (k : Nat) (v : SigCore) : (setSigCore s k v).eng = s.eng := rfl
@[simp] theorem setSigCore_lin (k : Nat) (v : SigCore) : (setSigCore s k v).lin = s.lin := rfl
@[simp] theorem setSigCore_jobs (k : Nat) (v : SigCore) : (setSigCore s k v).jobs = s.jobs := rfl
@[simp] theorem setSigCore_slv (k : Nat) (v : SigCore) : (setSigCore s k v).slv = s.slv := rfl
@[simp] theorem setSigCore_mgt (k : Nat) (v : SigCore) : (setSigCore s k v).mgt = s.mgt := rfl
@[simp] theorem setSigCore_hlt (k : Nat) (v : SigCore) : (setSigCore s k v).hlt = s.hlt := rfl
@[simp] theorem setSigCore_nvm (k : Nat) (v : SigCore) : (setSigCore s k v).nvm = s.nvm := rfl
@[simp] theorem setSigCore_boot (k : Nat) (v : SigCore) : (setSigCore s k v).boot = s.boot := rfl
@[simp] theorem setSigCore_pins (k : Nat) (v : SigCore) : (setSigCore s k v).pins = s.pins := rfl
@[simp] theorem setSigCore_pwr (k : Nat) (v : SigCore) : (setSigCore s k v).pwr = s.pwr := rfl
@[simp] theorem setSigCore_fh (k : Nat) (v : SigCore) : (setSigCore s k v).fh = s.fh := rfl
@[simp] theorem setSigCore_tim (k : Nat) (v : SigCore) : (setSigCore s k v).tim = s.tim := rfl
@[simp] theorem setSigCore_fab (k : Nat) (v : SigCore) : (setSigCore s k v).fab = s.fab := rfl
@[simp] theorem setSigCore_out (k : Nat) (v : SigCore) : (setSigCore s k v).out = s.out := rfl
@[simp] theorem setSigCore_freeCount (k : Nat) (v : SigCore) : (setSigCore s k v).freeCount = s.freeCount := rfl
@[simp] theorem setSigCore_pending (k : Nat) (v : SigCore) : (setSigCore s k v).pending = s.pending := rfl

/-! ### modSigCore -/

@[simp] theorem modSigCore_pkg (k : Nat) (f : SigCore → SigCore) : (modSigCore s k f).pkg = s.pkg := rfl
@[simp] theorem modSigCore_eng (k : Nat) (f : SigCore → SigCore) : (modSigCore s k f).eng = s.eng := rfl
@[simp] theorem modSigCore_lin (k : Nat) (f : SigCore → SigCore) : (modSigCore s k f).lin = s.lin := rfl
@[simp] theorem modSigCore_jobs (k : Nat) (f : SigCore → SigCore) : (modSigCore s k f).jobs = s.jobs := rfl
@[simp] theorem modSigCore_slv (k : Nat) (f : SigCore → SigCore) : (modSigCore s k f).slv = s.slv := rfl
@[simp] theorem modSigCore_mgt (k : Nat) (f : SigCore → SigCore) : (modSigCore s k f).mgt = s.mgt := rfl
@[simp] theorem modSigCore_hlt (k : Nat) (f : SigCore → SigCore) : (modSigCore s k f).hlt = s.hlt := rfl
@[simp] theorem modSigCore_nvm (k : Nat) (f : SigCore → SigCore) : (modSigCore s k f).nvm = s.nvm := rfl
@[simp] theorem modSigCore_boot (k : Nat) (f : SigCore → SigCore) : (modSigCore s k f).boot = s.boot := rfl
@[simp] theorem modSigCore_pins (k : Nat) (f : SigCore → SigCore) : (modSigCore s k f).pins = s.pins := rfl
@[simp] theorem modSigCore_pwr (k : Nat) (f : SigCore → SigCore) : (modSigCore s k f).pwr = s.pwr := rfl
@[simp] theorem modSigCore_fh (k : Nat) (f : SigCore → SigCore) : (modSigCore s k f).fh = s.fh := rfl
@[simp] theorem modSigCore_tim (k : Nat) (f : SigCore → SigCore) : (modSigCore s k f).tim = s.tim := rfl
@[simp] theorem modSigCore_fab (k : Nat) (f : SigCore → SigCore) : (modSigCore s k f).fab = s.fab := rfl
@[simp] theorem modSigCore_out (k : Nat) (f : SigCore → SigCore) : (modSigCore s k f).out = s.out := rfl
@[simp] theorem modSigCore_freeCount (k : Nat) (f : SigCore → SigCore) : (modSigCore s k f).freeCount = s.freeCount := rfl
@[simp] theorem modSigCore_pending (k : Nat) (f : SigCore → SigCore) : (modSigCore s k f).pending = s.pending := rfl

/-! ### modRadDie -/

@[simp] theorem modRadDie_pkg (d : Nat) (f : RadDie → RadDie) : (modRadDie s d f).pkg = s.pkg := rfl
@[simp] theorem modRadDie_eng (d : Nat) (f : RadDie → RadDie) : (modRadDie s d f).eng = s.eng := rfl
@[simp] theorem modRadDie_lin (d : Nat) (f : RadDie → RadDie) : (modRadDie s d f).lin = s.lin := rfl
@[simp] theorem modRadDie_jobs (d : Nat) (f : RadDie → RadDie) : (modRadDie s d f).jobs = s.jobs := rfl
@[simp] theorem modRadDie_slv (d : Nat) (f : RadDie → RadDie) : (modRadDie s d f).slv = s.slv := rfl
@[simp] theorem modRadDie_mgt (d : Nat) (f : RadDie → RadDie) : (modRadDie s d f).mgt = s.mgt := rfl
@[simp] theorem modRadDie_hlt (d : Nat) (f : RadDie → RadDie) : (modRadDie s d f).hlt = s.hlt := rfl
@[simp] theorem modRadDie_nvm (d : Nat) (f : RadDie → RadDie) : (modRadDie s d f).nvm = s.nvm := rfl
@[simp] theorem modRadDie_boot (d : Nat) (f : RadDie → RadDie) : (modRadDie s d f).boot = s.boot := rfl
@[simp] theorem modRadDie_pins (d : Nat) (f : RadDie → RadDie) : (modRadDie s d f).pins = s.pins := rfl
@[simp] theorem modRadDie_pwr (d : Nat) (f : RadDie → RadDie) : (modRadDie s d f).pwr = s.pwr := rfl
@[simp] theorem modRadDie_fh (d : Nat) (f : RadDie → RadDie) : (modRadDie s d f).fh = s.fh := rfl
@[simp] theorem modRadDie_tim (d : Nat) (f : RadDie → RadDie) : (modRadDie s d f).tim = s.tim := rfl
@[simp] theorem modRadDie_fab (d : Nat) (f : RadDie → RadDie) : (modRadDie s d f).fab = s.fab := rfl
@[simp] theorem modRadDie_out (d : Nat) (f : RadDie → RadDie) : (modRadDie s d f).out = s.out := rfl
@[simp] theorem modRadDie_freeCount (d : Nat) (f : RadDie → RadDie) : (modRadDie s d f).freeCount = s.freeCount := rfl
@[simp] theorem modRadDie_pending (d : Nat) (f : RadDie → RadDie) : (modRadDie s d f).pending = s.pending := rfl

/-! ### setFhPort -/

@[simp] theorem setFhPort_pkg (p : Nat) (v : FhPort) : (setFhPort s p v).pkg = s.pkg := rfl
@[simp] theorem setFhPort_eng (p : Nat) (v : FhPort) : (setFhPort s p v).eng = s.eng := rfl
@[simp] theorem setFhPort_lin (p : Nat) (v : FhPort) : (setFhPort s p v).lin = s.lin := rfl
@[simp] theorem setFhPort_jobs (p : Nat) (v : FhPort) : (setFhPort s p v).jobs = s.jobs := rfl
@[simp] theorem setFhPort_slv (p : Nat) (v : FhPort) : (setFhPort s p v).slv = s.slv := rfl
@[simp] theorem setFhPort_mgt (p : Nat) (v : FhPort) : (setFhPort s p v).mgt = s.mgt := rfl
@[simp] theorem setFhPort_hlt (p : Nat) (v : FhPort) : (setFhPort s p v).hlt = s.hlt := rfl
@[simp] theorem setFhPort_nvm (p : Nat) (v : FhPort) : (setFhPort s p v).nvm = s.nvm := rfl
@[simp] theorem setFhPort_boot (p : Nat) (v : FhPort) : (setFhPort s p v).boot = s.boot := rfl
@[simp] theorem setFhPort_pins (p : Nat) (v : FhPort) : (setFhPort s p v).pins = s.pins := rfl
@[simp] theorem setFhPort_pwr (p : Nat) (v : FhPort) : (setFhPort s p v).pwr = s.pwr := rfl
@[simp] theorem setFhPort_rad (p : Nat) (v : FhPort) : (setFhPort s p v).rad = s.rad := rfl
@[simp] theorem setFhPort_tim (p : Nat) (v : FhPort) : (setFhPort s p v).tim = s.tim := rfl
@[simp] theorem setFhPort_fab (p : Nat) (v : FhPort) : (setFhPort s p v).fab = s.fab := rfl
@[simp] theorem setFhPort_out (p : Nat) (v : FhPort) : (setFhPort s p v).out = s.out := rfl
@[simp] theorem setFhPort_freeCount (p : Nat) (v : FhPort) : (setFhPort s p v).freeCount = s.freeCount := rfl
@[simp] theorem setFhPort_pending (p : Nat) (v : FhPort) : (setFhPort s p v).pending = s.pending := rfl

/-! ### modFhPort -/

@[simp] theorem modFhPort_pkg (p : Nat) (f : FhPort → FhPort) : (modFhPort s p f).pkg = s.pkg := rfl
@[simp] theorem modFhPort_eng (p : Nat) (f : FhPort → FhPort) : (modFhPort s p f).eng = s.eng := rfl
@[simp] theorem modFhPort_lin (p : Nat) (f : FhPort → FhPort) : (modFhPort s p f).lin = s.lin := rfl
@[simp] theorem modFhPort_jobs (p : Nat) (f : FhPort → FhPort) : (modFhPort s p f).jobs = s.jobs := rfl
@[simp] theorem modFhPort_slv (p : Nat) (f : FhPort → FhPort) : (modFhPort s p f).slv = s.slv := rfl
@[simp] theorem modFhPort_mgt (p : Nat) (f : FhPort → FhPort) : (modFhPort s p f).mgt = s.mgt := rfl
@[simp] theorem modFhPort_hlt (p : Nat) (f : FhPort → FhPort) : (modFhPort s p f).hlt = s.hlt := rfl
@[simp] theorem modFhPort_nvm (p : Nat) (f : FhPort → FhPort) : (modFhPort s p f).nvm = s.nvm := rfl
@[simp] theorem modFhPort_boot (p : Nat) (f : FhPort → FhPort) : (modFhPort s p f).boot = s.boot := rfl
@[simp] theorem modFhPort_pins (p : Nat) (f : FhPort → FhPort) : (modFhPort s p f).pins = s.pins := rfl
@[simp] theorem modFhPort_pwr (p : Nat) (f : FhPort → FhPort) : (modFhPort s p f).pwr = s.pwr := rfl
@[simp] theorem modFhPort_rad (p : Nat) (f : FhPort → FhPort) : (modFhPort s p f).rad = s.rad := rfl
@[simp] theorem modFhPort_tim (p : Nat) (f : FhPort → FhPort) : (modFhPort s p f).tim = s.tim := rfl
@[simp] theorem modFhPort_fab (p : Nat) (f : FhPort → FhPort) : (modFhPort s p f).fab = s.fab := rfl
@[simp] theorem modFhPort_out (p : Nat) (f : FhPort → FhPort) : (modFhPort s p f).out = s.out := rfl
@[simp] theorem modFhPort_freeCount (p : Nat) (f : FhPort → FhPort) : (modFhPort s p f).freeCount = s.freeCount := rfl
@[simp] theorem modFhPort_pending (p : Nat) (f : FhPort → FhPort) : (modFhPort s p f).pending = s.pending := rfl

/-! ### modVfPort -/

@[simp] theorem modVfPort_pkg (p : Nat) (f : VfPort → VfPort) : (modVfPort s p f).pkg = s.pkg := rfl
@[simp] theorem modVfPort_eng (p : Nat) (f : VfPort → VfPort) : (modVfPort s p f).eng = s.eng := rfl
@[simp] theorem modVfPort_lin (p : Nat) (f : VfPort → VfPort) : (modVfPort s p f).lin = s.lin := rfl
@[simp] theorem modVfPort_jobs (p : Nat) (f : VfPort → VfPort) : (modVfPort s p f).jobs = s.jobs := rfl
@[simp] theorem modVfPort_slv (p : Nat) (f : VfPort → VfPort) : (modVfPort s p f).slv = s.slv := rfl
@[simp] theorem modVfPort_mgt (p : Nat) (f : VfPort → VfPort) : (modVfPort s p f).mgt = s.mgt := rfl
@[simp] theorem modVfPort_hlt (p : Nat) (f : VfPort → VfPort) : (modVfPort s p f).hlt = s.hlt := rfl
@[simp] theorem modVfPort_nvm (p : Nat) (f : VfPort → VfPort) : (modVfPort s p f).nvm = s.nvm := rfl
@[simp] theorem modVfPort_boot (p : Nat) (f : VfPort → VfPort) : (modVfPort s p f).boot = s.boot := rfl
@[simp] theorem modVfPort_pins (p : Nat) (f : VfPort → VfPort) : (modVfPort s p f).pins = s.pins := rfl
@[simp] theorem modVfPort_pwr (p : Nat) (f : VfPort → VfPort) : (modVfPort s p f).pwr = s.pwr := rfl
@[simp] theorem modVfPort_rad (p : Nat) (f : VfPort → VfPort) : (modVfPort s p f).rad = s.rad := rfl
@[simp] theorem modVfPort_fh (p : Nat) (f : VfPort → VfPort) : (modVfPort s p f).fh = s.fh := rfl
@[simp] theorem modVfPort_tim (p : Nat) (f : VfPort → VfPort) : (modVfPort s p f).tim = s.tim := rfl
@[simp] theorem modVfPort_out (p : Nat) (f : VfPort → VfPort) : (modVfPort s p f).out = s.out := rfl
@[simp] theorem modVfPort_freeCount (p : Nat) (f : VfPort → VfPort) : (modVfPort s p f).freeCount = s.freeCount := rfl
@[simp] theorem modVfPort_pending (p : Nat) (f : VfPort → VfPort) : (modVfPort s p f).pending = s.pending := rfl

/-! ### modTim -/

@[simp] theorem modTim_pkg (f : Tim → Tim) : (modTim s f).pkg = s.pkg := rfl
@[simp] theorem modTim_eng (f : Tim → Tim) : (modTim s f).eng = s.eng := rfl
@[simp] theorem modTim_lin (f : Tim → Tim) : (modTim s f).lin = s.lin := rfl
@[simp] theorem modTim_jobs (f : Tim → Tim) : (modTim s f).jobs = s.jobs := rfl
@[simp] theorem modTim_slv (f : Tim → Tim) : (modTim s f).slv = s.slv := rfl
@[simp] theorem modTim_mgt (f : Tim → Tim) : (modTim s f).mgt = s.mgt := rfl
@[simp] theorem modTim_hlt (f : Tim → Tim) : (modTim s f).hlt = s.hlt := rfl
@[simp] theorem modTim_nvm (f : Tim → Tim) : (modTim s f).nvm = s.nvm := rfl
@[simp] theorem modTim_boot (f : Tim → Tim) : (modTim s f).boot = s.boot := rfl
@[simp] theorem modTim_pins (f : Tim → Tim) : (modTim s f).pins = s.pins := rfl
@[simp] theorem modTim_pwr (f : Tim → Tim) : (modTim s f).pwr = s.pwr := rfl
@[simp] theorem modTim_rad (f : Tim → Tim) : (modTim s f).rad = s.rad := rfl
@[simp] theorem modTim_fh (f : Tim → Tim) : (modTim s f).fh = s.fh := rfl
@[simp] theorem modTim_fab (f : Tim → Tim) : (modTim s f).fab = s.fab := rfl
@[simp] theorem modTim_out (f : Tim → Tim) : (modTim s f).out = s.out := rfl
@[simp] theorem modTim_freeCount (f : Tim → Tim) : (modTim s f).freeCount = s.freeCount := rfl
@[simp] theorem modTim_pending (f : Tim → Tim) : (modTim s f).pending = s.pending := rfl

/-! ### raise -/

@[simp] theorem raise_pkg (e : ErrEvent) : (raise s e).pkg = s.pkg := by
  simp only [raise]; (repeat' split) <;> rfl
@[simp] theorem raise_eng (e : ErrEvent) : (raise s e).eng = s.eng := by
  simp only [raise]; (repeat' split) <;> rfl
@[simp] theorem raise_lin (e : ErrEvent) : (raise s e).lin = s.lin := by
  simp only [raise]; (repeat' split) <;> rfl
@[simp] theorem raise_jobs (e : ErrEvent) : (raise s e).jobs = s.jobs := by
  simp only [raise]; (repeat' split) <;> rfl
@[simp] theorem raise_slv (e : ErrEvent) : (raise s e).slv = s.slv := by
  simp only [raise]; (repeat' split) <;> rfl
@[simp] theorem raise_mgt (e : ErrEvent) : (raise s e).mgt = s.mgt := by
  simp only [raise]; (repeat' split) <;> rfl
@[simp] theorem raise_nvm (e : ErrEvent) : (raise s e).nvm = s.nvm := by
  simp only [raise]; (repeat' split) <;> rfl
@[simp] theorem raise_boot (e : ErrEvent) : (raise s e).boot = s.boot := by
  simp only [raise]; (repeat' split) <;> rfl
@[simp] theorem raise_pins (e : ErrEvent) : (raise s e).pins = s.pins := by
  simp only [raise]; (repeat' split) <;> rfl
@[simp] theorem raise_pwr (e : ErrEvent) : (raise s e).pwr = s.pwr := by
  simp only [raise]; (repeat' split) <;> rfl
@[simp] theorem raise_rad (e : ErrEvent) : (raise s e).rad = s.rad := by
  simp only [raise]; (repeat' split) <;> rfl
@[simp] theorem raise_fh (e : ErrEvent) : (raise s e).fh = s.fh := by
  simp only [raise]; (repeat' split) <;> rfl
@[simp] theorem raise_tim (e : ErrEvent) : (raise s e).tim = s.tim := by
  simp only [raise]; (repeat' split) <;> rfl
@[simp] theorem raise_fab (e : ErrEvent) : (raise s e).fab = s.fab := by
  simp only [raise]; (repeat' split) <;> rfl
@[simp] theorem raise_out (e : ErrEvent) : (raise s e).out = s.out := by
  simp only [raise]; (repeat' split) <;> rfl
@[simp] theorem raise_freeCount (e : ErrEvent) : (raise s e).freeCount = s.freeCount := by
  simp only [raise]; (repeat' split) <;> rfl
@[simp] theorem raise_pending (e : ErrEvent) : (raise s e).pending = s.pending := by
  simp only [raise]; (repeat' split) <;> rfl

/-! ### msix -/

@[simp] theorem msix_pkg (v : Nat) : (msix s v).pkg = s.pkg := by
  simp only [msix]; (repeat' split) <;> rfl
@[simp] theorem msix_eng (v : Nat) : (msix s v).eng = s.eng := by
  simp only [msix]; (repeat' split) <;> rfl
@[simp] theorem msix_lin (v : Nat) : (msix s v).lin = s.lin := by
  simp only [msix]; (repeat' split) <;> rfl
@[simp] theorem msix_jobs (v : Nat) : (msix s v).jobs = s.jobs := by
  simp only [msix]; (repeat' split) <;> rfl
@[simp] theorem msix_slv (v : Nat) : (msix s v).slv = s.slv := by
  simp only [msix]; (repeat' split) <;> rfl
@[simp] theorem msix_mgt (v : Nat) : (msix s v).mgt = s.mgt := by
  simp only [msix]; (repeat' split) <;> rfl
@[simp] theorem msix_hlt (v : Nat) : (msix s v).hlt = s.hlt := by
  simp only [msix]; (repeat' split) <;> rfl
@[simp] theorem msix_nvm (v : Nat) : (msix s v).nvm = s.nvm := by
  simp only [msix]; (repeat' split) <;> rfl
@[simp] theorem msix_boot (v : Nat) : (msix s v).boot = s.boot := by
  simp only [msix]; (repeat' split) <;> rfl
@[simp] theorem msix_pins (v : Nat) : (msix s v).pins = s.pins := by
  simp only [msix]; (repeat' split) <;> rfl
@[simp] theorem msix_pwr (v : Nat) : (msix s v).pwr = s.pwr := by
  simp only [msix]; (repeat' split) <;> rfl
@[simp] theorem msix_rad (v : Nat) : (msix s v).rad = s.rad := by
  simp only [msix]; (repeat' split) <;> rfl
@[simp] theorem msix_fh (v : Nat) : (msix s v).fh = s.fh := by
  simp only [msix]; (repeat' split) <;> rfl
@[simp] theorem msix_tim (v : Nat) : (msix s v).tim = s.tim := by
  simp only [msix]; (repeat' split) <;> rfl
@[simp] theorem msix_fab (v : Nat) : (msix s v).fab = s.fab := by
  simp only [msix]; (repeat' split) <;> rfl
@[simp] theorem msix_freeCount (v : Nat) : (msix s v).freeCount = s.freeCount := by
  simp only [msix]; (repeat' split) <;> rfl
@[simp] theorem msix_pending (v : Nat) : (msix s v).pending = s.pending := by
  simp only [msix]; (repeat' split) <;> rfl

/-! ### What follows for reads at an index -/

@[simp] theorem unitSt_setEngine_frame (x : Nat) (e : Nat) (v : Engine) : unitSt (setEngine s e v) x = unitSt s x := by
  simp [unitSt]
@[simp] theorem unitSt_modEngine_frame (x : Nat) (e : Nat) (f : Engine → Engine) : unitSt (modEngine s e f) x = unitSt s x := by
  simp [unitSt]
@[simp] theorem unitSt_setSlot_frame (x : Nat) (e i : Nat) (v : Slot) : unitSt (setSlot s e i v) x = unitSt s x := by
  simp [unitSt]
@[simp] theorem unitSt_modSlot_frame (x : Nat) (e i : Nat) (f : Slot → Slot) : unitSt (modSlot s e i f) x = unitSt s x := by
  simp [unitSt]
@[simp] theorem unitSt_setJob_frame (x : Nat) (h : Nat) (v : Job) : unitSt (setJob s h v) x = unitSt s x := by
  simp [unitSt]
@[simp] theorem unitSt_modJob_frame (x : Nat) (h : Nat) (f : Job → Job) : unitSt (modJob s h f) x = unitSt s x := by
  simp [unitSt]
@[simp] theorem unitSt_setSleeve_frame (x : Nat) (k : Nat) (v : Sleeve) : unitSt (setSleeve s k v) x = unitSt s x := by
  simp [unitSt]
@[simp] theorem unitSt_modSleeve_frame (x : Nat) (k : Nat) (f : Sleeve → Sleeve) : unitSt (modSleeve s k f) x = unitSt s x := by
  simp [unitSt]
@[simp] theorem unitSt_setDomain_frame (x : Nat) (n : Nat) (v : Domain) : unitSt (setDomain s n v) x = unitSt s x := by
  simp [unitSt]
@[simp] theorem unitSt_modDomain_frame (x : Nat) (n : Nat) (f : Domain → Domain) : unitSt (modDomain s n f) x = unitSt s x := by
  simp [unitSt]
@[simp] theorem unitSt_setDiePwr_frame (x : Nat) (d : Nat) (v : DiePwr) : unitSt (setDiePwr s d v) x = unitSt s x := by
  simp [unitSt]
@[simp] theorem unitSt_setMslot_frame (x : Nat) (w i : Nat) (v : MSlot) : unitSt (setMslot s w i v) x = unitSt s x := by
  simp [unitSt]
@[simp] theorem unitSt_setHostCore_frame (x : Nat) (k : Nat) (v : HostCore) : unitSt (setHostCore s k v) x = unitSt s x := by
  simp [unitSt]
@[simp] theorem unitSt_setDicSrc_frame (x : Nat) (n : Nat) (v : DicSrc) : unitSt (setDicSrc s n v) x = unitSt s x := by
  simp [unitSt]
@[simp] theorem unitSt_setDicCore_frame (x : Nat) (n : Nat) (v : DicCore) : unitSt (setDicCore s n v) x = unitSt s x := by
  simp [unitSt]
@[simp] theorem unitSt_emit_frame (x : Nat) (o : Out) : unitSt (emit s o) x = unitSt s x := by
  simp [unitSt]
@[simp] theorem unitSt_physWrite_frame (x : Nat) (a : Nat) (bs : List Byte) : unitSt (physWrite s a bs) x = unitSt s x := by
  simp [unitSt]
@[simp] theorem unitSt_physZero_frame (x : Nat) (a n : Nat) : unitSt (physZero s a n) x = unitSt s x := by
  simp [unitSt]
@[simp] theorem unitSt_physCopy_frame (x : Nat) (a b n : Nat) : unitSt (physCopy s a b n) x = unitSt s x := by
  simp [unitSt]
@[simp] theorem unitSt_setOwn_frame (x : Nat) (p : Nat) (w : W64) : unitSt (setOwn s p w) x = unitSt s x := by
  simp [unitSt]
@[simp] theorem unitSt_setCell_frame (x : Nat) (c : Nat) (v : Cell) : unitSt (setCell s c v) x = unitSt s x := by
  simp [unitSt]
@[simp] theorem unitSt_modCell_frame (x : Nat) (c : Nat) (f : Cell → Cell) : unitSt (modCell s c f) x = unitSt s x := by
  simp [unitSt]
@[simp] theorem unitSt_setSigCore_frame (x : Nat) (k : Nat) (v : SigCore) : unitSt (setSigCore s k v) x = unitSt s x := by
  simp [unitSt]
@[simp] theorem unitSt_modSigCore_frame (x : Nat) (k : Nat) (f : SigCore → SigCore) : unitSt (modSigCore s k f) x = unitSt s x := by
  simp [unitSt]
@[simp] theorem unitSt_modRadDie_frame (x : Nat) (d : Nat) (f : RadDie → RadDie) : unitSt (modRadDie s d f) x = unitSt s x := by
  simp [unitSt]
@[simp] theorem unitSt_setFhPort_frame (x : Nat) (p : Nat) (v : FhPort) : unitSt (setFhPort s p v) x = unitSt s x := by
  simp [unitSt]
@[simp] theorem unitSt_modFhPort_frame (x : Nat) (p : Nat) (f : FhPort → FhPort) : unitSt (modFhPort s p f) x = unitSt s x := by
  simp [unitSt]
@[simp] theorem unitSt_modVfPort_frame (x : Nat) (p : Nat) (f : VfPort → VfPort) : unitSt (modVfPort s p f) x = unitSt s x := by
  simp [unitSt]
@[simp] theorem unitSt_modTim_frame (x : Nat) (f : Tim → Tim) : unitSt (modTim s f) x = unitSt s x := by
  simp [unitSt]
@[simp] theorem unitSt_raise_frame (x : Nat) (e : ErrEvent) : unitSt (raise s e) x = unitSt s x := by
  simp [unitSt]
@[simp] theorem unitSt_msix_frame (x : Nat) (v : Nat) : unitSt (msix s v) x = unitSt s x := by
  simp [unitSt]
@[simp] theorem job_setUnit_frame (x : Nat) (u : Nat) (v : UnitSt) : job (setUnit s u v) x = job s x := by
  simp [job]
@[simp] theorem job_modUnit_frame (x : Nat) (u : Nat) (f : UnitSt → UnitSt) : job (modUnit s u f) x = job s x := by
  simp [job]
@[simp] theorem job_setEngine_frame (x : Nat) (e : Nat) (v : Engine) : job (setEngine s e v) x = job s x := by
  simp [job]
@[simp] theorem job_modEngine_frame (x : Nat) (e : Nat) (f : Engine → Engine) : job (modEngine s e f) x = job s x := by
  simp [job]
@[simp] theorem job_setSlot_frame (x : Nat) (e i : Nat) (v : Slot) : job (setSlot s e i v) x = job s x := by
  simp [job]
@[simp] theorem job_modSlot_frame (x : Nat) (e i : Nat) (f : Slot → Slot) : job (modSlot s e i f) x = job s x := by
  simp [job]
@[simp] theorem job_setSleeve_frame (x : Nat) (k : Nat) (v : Sleeve) : job (setSleeve s k v) x = job s x := by
  simp [job]
@[simp] theorem job_modSleeve_frame (x : Nat) (k : Nat) (f : Sleeve → Sleeve) : job (modSleeve s k f) x = job s x := by
  simp [job]
@[simp] theorem job_setDomain_frame (x : Nat) (n : Nat) (v : Domain) : job (setDomain s n v) x = job s x := by
  simp [job]
@[simp] theorem job_modDomain_frame (x : Nat) (n : Nat) (f : Domain → Domain) : job (modDomain s n f) x = job s x := by
  simp [job]
@[simp] theorem job_setDiePwr_frame (x : Nat) (d : Nat) (v : DiePwr) : job (setDiePwr s d v) x = job s x := by
  simp [job]
@[simp] theorem job_setMslot_frame (x : Nat) (w i : Nat) (v : MSlot) : job (setMslot s w i v) x = job s x := by
  simp [job]
@[simp] theorem job_setHostCore_frame (x : Nat) (k : Nat) (v : HostCore) : job (setHostCore s k v) x = job s x := by
  simp [job]
@[simp] theorem job_setDicSrc_frame (x : Nat) (n : Nat) (v : DicSrc) : job (setDicSrc s n v) x = job s x := by
  simp [job]
@[simp] theorem job_setDicCore_frame (x : Nat) (n : Nat) (v : DicCore) : job (setDicCore s n v) x = job s x := by
  simp [job]
@[simp] theorem job_emit_frame (x : Nat) (o : Out) : job (emit s o) x = job s x := by
  simp [job]
@[simp] theorem job_physWrite_frame (x : Nat) (a : Nat) (bs : List Byte) : job (physWrite s a bs) x = job s x := by
  simp [job]
@[simp] theorem job_physZero_frame (x : Nat) (a n : Nat) : job (physZero s a n) x = job s x := by
  simp [job]
@[simp] theorem job_physCopy_frame (x : Nat) (a b n : Nat) : job (physCopy s a b n) x = job s x := by
  simp [job]
@[simp] theorem job_setOwn_frame (x : Nat) (p : Nat) (w : W64) : job (setOwn s p w) x = job s x := by
  simp [job]
@[simp] theorem job_setCell_frame (x : Nat) (c : Nat) (v : Cell) : job (setCell s c v) x = job s x := by
  simp [job]
@[simp] theorem job_modCell_frame (x : Nat) (c : Nat) (f : Cell → Cell) : job (modCell s c f) x = job s x := by
  simp [job]
@[simp] theorem job_setSigCore_frame (x : Nat) (k : Nat) (v : SigCore) : job (setSigCore s k v) x = job s x := by
  simp [job]
@[simp] theorem job_modSigCore_frame (x : Nat) (k : Nat) (f : SigCore → SigCore) : job (modSigCore s k f) x = job s x := by
  simp [job]
@[simp] theorem job_modRadDie_frame (x : Nat) (d : Nat) (f : RadDie → RadDie) : job (modRadDie s d f) x = job s x := by
  simp [job]
@[simp] theorem job_setFhPort_frame (x : Nat) (p : Nat) (v : FhPort) : job (setFhPort s p v) x = job s x := by
  simp [job]
@[simp] theorem job_modFhPort_frame (x : Nat) (p : Nat) (f : FhPort → FhPort) : job (modFhPort s p f) x = job s x := by
  simp [job]
@[simp] theorem job_modVfPort_frame (x : Nat) (p : Nat) (f : VfPort → VfPort) : job (modVfPort s p f) x = job s x := by
  simp [job]
@[simp] theorem job_modTim_frame (x : Nat) (f : Tim → Tim) : job (modTim s f) x = job s x := by
  simp [job]
@[simp] theorem job_raise_frame (x : Nat) (e : ErrEvent) : job (raise s e) x = job s x := by
  simp [job]
@[simp] theorem job_msix_frame (x : Nat) (v : Nat) : job (msix s v) x = job s x := by
  simp [job]
@[simp] theorem sleeve_setUnit_frame (x : Nat) (u : Nat) (v : UnitSt) : sleeve (setUnit s u v) x = sleeve s x := by
  simp [sleeve]
@[simp] theorem sleeve_modUnit_frame (x : Nat) (u : Nat) (f : UnitSt → UnitSt) : sleeve (modUnit s u f) x = sleeve s x := by
  simp [sleeve]
@[simp] theorem sleeve_setEngine_frame (x : Nat) (e : Nat) (v : Engine) : sleeve (setEngine s e v) x = sleeve s x := by
  simp [sleeve]
@[simp] theorem sleeve_modEngine_frame (x : Nat) (e : Nat) (f : Engine → Engine) : sleeve (modEngine s e f) x = sleeve s x := by
  simp [sleeve]
@[simp] theorem sleeve_setSlot_frame (x : Nat) (e i : Nat) (v : Slot) : sleeve (setSlot s e i v) x = sleeve s x := by
  simp [sleeve]
@[simp] theorem sleeve_modSlot_frame (x : Nat) (e i : Nat) (f : Slot → Slot) : sleeve (modSlot s e i f) x = sleeve s x := by
  simp [sleeve]
@[simp] theorem sleeve_setJob_frame (x : Nat) (h : Nat) (v : Job) : sleeve (setJob s h v) x = sleeve s x := by
  simp [sleeve]
@[simp] theorem sleeve_modJob_frame (x : Nat) (h : Nat) (f : Job → Job) : sleeve (modJob s h f) x = sleeve s x := by
  simp [sleeve]
@[simp] theorem sleeve_setDomain_frame (x : Nat) (n : Nat) (v : Domain) : sleeve (setDomain s n v) x = sleeve s x := by
  simp [sleeve]
@[simp] theorem sleeve_modDomain_frame (x : Nat) (n : Nat) (f : Domain → Domain) : sleeve (modDomain s n f) x = sleeve s x := by
  simp [sleeve]
@[simp] theorem sleeve_setDiePwr_frame (x : Nat) (d : Nat) (v : DiePwr) : sleeve (setDiePwr s d v) x = sleeve s x := by
  simp [sleeve]
@[simp] theorem sleeve_setMslot_frame (x : Nat) (w i : Nat) (v : MSlot) : sleeve (setMslot s w i v) x = sleeve s x := by
  simp [sleeve]
@[simp] theorem sleeve_setHostCore_frame (x : Nat) (k : Nat) (v : HostCore) : sleeve (setHostCore s k v) x = sleeve s x := by
  simp [sleeve]
@[simp] theorem sleeve_setDicSrc_frame (x : Nat) (n : Nat) (v : DicSrc) : sleeve (setDicSrc s n v) x = sleeve s x := by
  simp [sleeve]
@[simp] theorem sleeve_setDicCore_frame (x : Nat) (n : Nat) (v : DicCore) : sleeve (setDicCore s n v) x = sleeve s x := by
  simp [sleeve]
@[simp] theorem sleeve_emit_frame (x : Nat) (o : Out) : sleeve (emit s o) x = sleeve s x := by
  simp [sleeve]
@[simp] theorem sleeve_physWrite_frame (x : Nat) (a : Nat) (bs : List Byte) : sleeve (physWrite s a bs) x = sleeve s x := by
  simp [sleeve]
@[simp] theorem sleeve_physZero_frame (x : Nat) (a n : Nat) : sleeve (physZero s a n) x = sleeve s x := by
  simp [sleeve]
@[simp] theorem sleeve_physCopy_frame (x : Nat) (a b n : Nat) : sleeve (physCopy s a b n) x = sleeve s x := by
  simp [sleeve]
@[simp] theorem sleeve_setOwn_frame (x : Nat) (p : Nat) (w : W64) : sleeve (setOwn s p w) x = sleeve s x := by
  simp [sleeve]
@[simp] theorem sleeve_setCell_frame (x : Nat) (c : Nat) (v : Cell) : sleeve (setCell s c v) x = sleeve s x := by
  simp [sleeve]
@[simp] theorem sleeve_modCell_frame (x : Nat) (c : Nat) (f : Cell → Cell) : sleeve (modCell s c f) x = sleeve s x := by
  simp [sleeve]
@[simp] theorem sleeve_setSigCore_frame (x : Nat) (k : Nat) (v : SigCore) : sleeve (setSigCore s k v) x = sleeve s x := by
  simp [sleeve]
@[simp] theorem sleeve_modSigCore_frame (x : Nat) (k : Nat) (f : SigCore → SigCore) : sleeve (modSigCore s k f) x = sleeve s x := by
  simp [sleeve]
@[simp] theorem sleeve_modRadDie_frame (x : Nat) (d : Nat) (f : RadDie → RadDie) : sleeve (modRadDie s d f) x = sleeve s x := by
  simp [sleeve]
@[simp] theorem sleeve_setFhPort_frame (x : Nat) (p : Nat) (v : FhPort) : sleeve (setFhPort s p v) x = sleeve s x := by
  simp [sleeve]
@[simp] theorem sleeve_modFhPort_frame (x : Nat) (p : Nat) (f : FhPort → FhPort) : sleeve (modFhPort s p f) x = sleeve s x := by
  simp [sleeve]
@[simp] theorem sleeve_modVfPort_frame (x : Nat) (p : Nat) (f : VfPort → VfPort) : sleeve (modVfPort s p f) x = sleeve s x := by
  simp [sleeve]
@[simp] theorem sleeve_modTim_frame (x : Nat) (f : Tim → Tim) : sleeve (modTim s f) x = sleeve s x := by
  simp [sleeve]
@[simp] theorem sleeve_raise_frame (x : Nat) (e : ErrEvent) : sleeve (raise s e) x = sleeve s x := by
  simp [sleeve]
@[simp] theorem sleeve_msix_frame (x : Nat) (v : Nat) : sleeve (msix s v) x = sleeve s x := by
  simp [sleeve]
@[simp] theorem domain_setUnit_frame (x : Nat) (u : Nat) (v : UnitSt) : domain (setUnit s u v) x = domain s x := by
  simp [domain]
@[simp] theorem domain_modUnit_frame (x : Nat) (u : Nat) (f : UnitSt → UnitSt) : domain (modUnit s u f) x = domain s x := by
  simp [domain]
@[simp] theorem domain_setEngine_frame (x : Nat) (e : Nat) (v : Engine) : domain (setEngine s e v) x = domain s x := by
  simp [domain]
@[simp] theorem domain_modEngine_frame (x : Nat) (e : Nat) (f : Engine → Engine) : domain (modEngine s e f) x = domain s x := by
  simp [domain]
@[simp] theorem domain_setSlot_frame (x : Nat) (e i : Nat) (v : Slot) : domain (setSlot s e i v) x = domain s x := by
  simp [domain]
@[simp] theorem domain_modSlot_frame (x : Nat) (e i : Nat) (f : Slot → Slot) : domain (modSlot s e i f) x = domain s x := by
  simp [domain]
@[simp] theorem domain_setJob_frame (x : Nat) (h : Nat) (v : Job) : domain (setJob s h v) x = domain s x := by
  simp [domain]
@[simp] theorem domain_modJob_frame (x : Nat) (h : Nat) (f : Job → Job) : domain (modJob s h f) x = domain s x := by
  simp [domain]
@[simp] theorem domain_setSleeve_frame (x : Nat) (k : Nat) (v : Sleeve) : domain (setSleeve s k v) x = domain s x := by
  simp [domain]
@[simp] theorem domain_modSleeve_frame (x : Nat) (k : Nat) (f : Sleeve → Sleeve) : domain (modSleeve s k f) x = domain s x := by
  simp [domain]
@[simp] theorem domain_setMslot_frame (x : Nat) (w i : Nat) (v : MSlot) : domain (setMslot s w i v) x = domain s x := by
  simp [domain]
@[simp] theorem domain_setHostCore_frame (x : Nat) (k : Nat) (v : HostCore) : domain (setHostCore s k v) x = domain s x := by
  simp [domain]
@[simp] theorem domain_setDicSrc_frame (x : Nat) (n : Nat) (v : DicSrc) : domain (setDicSrc s n v) x = domain s x := by
  simp [domain]
@[simp] theorem domain_setDicCore_frame (x : Nat) (n : Nat) (v : DicCore) : domain (setDicCore s n v) x = domain s x := by
  simp [domain]
@[simp] theorem domain_emit_frame (x : Nat) (o : Out) : domain (emit s o) x = domain s x := by
  simp [domain]
@[simp] theorem domain_physWrite_frame (x : Nat) (a : Nat) (bs : List Byte) : domain (physWrite s a bs) x = domain s x := by
  simp [domain]
@[simp] theorem domain_physZero_frame (x : Nat) (a n : Nat) : domain (physZero s a n) x = domain s x := by
  simp [domain]
@[simp] theorem domain_physCopy_frame (x : Nat) (a b n : Nat) : domain (physCopy s a b n) x = domain s x := by
  simp [domain]
@[simp] theorem domain_setOwn_frame (x : Nat) (p : Nat) (w : W64) : domain (setOwn s p w) x = domain s x := by
  simp [domain]
@[simp] theorem domain_setCell_frame (x : Nat) (c : Nat) (v : Cell) : domain (setCell s c v) x = domain s x := by
  simp [domain]
@[simp] theorem domain_modCell_frame (x : Nat) (c : Nat) (f : Cell → Cell) : domain (modCell s c f) x = domain s x := by
  simp [domain]
@[simp] theorem domain_setSigCore_frame (x : Nat) (k : Nat) (v : SigCore) : domain (setSigCore s k v) x = domain s x := by
  simp [domain]
@[simp] theorem domain_modSigCore_frame (x : Nat) (k : Nat) (f : SigCore → SigCore) : domain (modSigCore s k f) x = domain s x := by
  simp [domain]
@[simp] theorem domain_modRadDie_frame (x : Nat) (d : Nat) (f : RadDie → RadDie) : domain (modRadDie s d f) x = domain s x := by
  simp [domain]
@[simp] theorem domain_setFhPort_frame (x : Nat) (p : Nat) (v : FhPort) : domain (setFhPort s p v) x = domain s x := by
  simp [domain]
@[simp] theorem domain_modFhPort_frame (x : Nat) (p : Nat) (f : FhPort → FhPort) : domain (modFhPort s p f) x = domain s x := by
  simp [domain]
@[simp] theorem domain_modVfPort_frame (x : Nat) (p : Nat) (f : VfPort → VfPort) : domain (modVfPort s p f) x = domain s x := by
  simp [domain]
@[simp] theorem domain_modTim_frame (x : Nat) (f : Tim → Tim) : domain (modTim s f) x = domain s x := by
  simp [domain]
@[simp] theorem domain_raise_frame (x : Nat) (e : ErrEvent) : domain (raise s e) x = domain s x := by
  simp [domain]
@[simp] theorem domain_msix_frame (x : Nat) (v : Nat) : domain (msix s v) x = domain s x := by
  simp [domain]
@[simp] theorem engine_setUnit_frame (x : Nat) (u : Nat) (v : UnitSt) : engine (setUnit s u v) x = engine s x := by
  simp [engine]
@[simp] theorem engine_modUnit_frame (x : Nat) (u : Nat) (f : UnitSt → UnitSt) : engine (modUnit s u f) x = engine s x := by
  simp [engine]
@[simp] theorem engine_setJob_frame (x : Nat) (h : Nat) (v : Job) : engine (setJob s h v) x = engine s x := by
  simp [engine]
@[simp] theorem engine_modJob_frame (x : Nat) (h : Nat) (f : Job → Job) : engine (modJob s h f) x = engine s x := by
  simp [engine]
@[simp] theorem engine_setSleeve_frame (x : Nat) (k : Nat) (v : Sleeve) : engine (setSleeve s k v) x = engine s x := by
  simp [engine]
@[simp] theorem engine_modSleeve_frame (x : Nat) (k : Nat) (f : Sleeve → Sleeve) : engine (modSleeve s k f) x = engine s x := by
  simp [engine]
@[simp] theorem engine_setDomain_frame (x : Nat) (n : Nat) (v : Domain) : engine (setDomain s n v) x = engine s x := by
  simp [engine]
@[simp] theorem engine_modDomain_frame (x : Nat) (n : Nat) (f : Domain → Domain) : engine (modDomain s n f) x = engine s x := by
  simp [engine]
@[simp] theorem engine_setDiePwr_frame (x : Nat) (d : Nat) (v : DiePwr) : engine (setDiePwr s d v) x = engine s x := by
  simp [engine]
@[simp] theorem engine_setMslot_frame (x : Nat) (w i : Nat) (v : MSlot) : engine (setMslot s w i v) x = engine s x := by
  simp [engine]
@[simp] theorem engine_setHostCore_frame (x : Nat) (k : Nat) (v : HostCore) : engine (setHostCore s k v) x = engine s x := by
  simp [engine]
@[simp] theorem engine_setDicSrc_frame (x : Nat) (n : Nat) (v : DicSrc) : engine (setDicSrc s n v) x = engine s x := by
  simp [engine]
@[simp] theorem engine_setDicCore_frame (x : Nat) (n : Nat) (v : DicCore) : engine (setDicCore s n v) x = engine s x := by
  simp [engine]
@[simp] theorem engine_emit_frame (x : Nat) (o : Out) : engine (emit s o) x = engine s x := by
  simp [engine]
@[simp] theorem engine_physWrite_frame (x : Nat) (a : Nat) (bs : List Byte) : engine (physWrite s a bs) x = engine s x := by
  simp [engine]
@[simp] theorem engine_physZero_frame (x : Nat) (a n : Nat) : engine (physZero s a n) x = engine s x := by
  simp [engine]
@[simp] theorem engine_physCopy_frame (x : Nat) (a b n : Nat) : engine (physCopy s a b n) x = engine s x := by
  simp [engine]
@[simp] theorem engine_setOwn_frame (x : Nat) (p : Nat) (w : W64) : engine (setOwn s p w) x = engine s x := by
  simp [engine]
@[simp] theorem engine_setCell_frame (x : Nat) (c : Nat) (v : Cell) : engine (setCell s c v) x = engine s x := by
  simp [engine]
@[simp] theorem engine_modCell_frame (x : Nat) (c : Nat) (f : Cell → Cell) : engine (modCell s c f) x = engine s x := by
  simp [engine]
@[simp] theorem engine_setSigCore_frame (x : Nat) (k : Nat) (v : SigCore) : engine (setSigCore s k v) x = engine s x := by
  simp [engine]
@[simp] theorem engine_modSigCore_frame (x : Nat) (k : Nat) (f : SigCore → SigCore) : engine (modSigCore s k f) x = engine s x := by
  simp [engine]
@[simp] theorem engine_modRadDie_frame (x : Nat) (d : Nat) (f : RadDie → RadDie) : engine (modRadDie s d f) x = engine s x := by
  simp [engine]
@[simp] theorem engine_setFhPort_frame (x : Nat) (p : Nat) (v : FhPort) : engine (setFhPort s p v) x = engine s x := by
  simp [engine]
@[simp] theorem engine_modFhPort_frame (x : Nat) (p : Nat) (f : FhPort → FhPort) : engine (modFhPort s p f) x = engine s x := by
  simp [engine]
@[simp] theorem engine_modVfPort_frame (x : Nat) (p : Nat) (f : VfPort → VfPort) : engine (modVfPort s p f) x = engine s x := by
  simp [engine]
@[simp] theorem engine_modTim_frame (x : Nat) (f : Tim → Tim) : engine (modTim s f) x = engine s x := by
  simp [engine]
@[simp] theorem engine_raise_frame (x : Nat) (e : ErrEvent) : engine (raise s e) x = engine s x := by
  simp [engine]
@[simp] theorem engine_msix_frame (x : Nat) (v : Nat) : engine (msix s v) x = engine s x := by
  simp [engine]
@[simp] theorem slot_setUnit_frame (x y : Nat) (u : Nat) (v : UnitSt) : slot (setUnit s u v) x y = slot s x y := by
  simp [slot, engine]
@[simp] theorem slot_modUnit_frame (x y : Nat) (u : Nat) (f : UnitSt → UnitSt) : slot (modUnit s u f) x y = slot s x y := by
  simp [slot, engine]
@[simp] theorem slot_setJob_frame (x y : Nat) (h : Nat) (v : Job) : slot (setJob s h v) x y = slot s x y := by
  simp [slot, engine]
@[simp] theorem slot_modJob_frame (x y : Nat) (h : Nat) (f : Job → Job) : slot (modJob s h f) x y = slot s x y := by
  simp [slot, engine]
@[simp] theorem slot_setSleeve_frame (x y : Nat) (k : Nat) (v : Sleeve) : slot (setSleeve s k v) x y = slot s x y := by
  simp [slot, engine]
@[simp] theorem slot_modSleeve_frame (x y : Nat) (k : Nat) (f : Sleeve → Sleeve) : slot (modSleeve s k f) x y = slot s x y := by
  simp [slot, engine]
@[simp] theorem slot_setDomain_frame (x y : Nat) (n : Nat) (v : Domain) : slot (setDomain s n v) x y = slot s x y := by
  simp [slot, engine]
@[simp] theorem slot_modDomain_frame (x y : Nat) (n : Nat) (f : Domain → Domain) : slot (modDomain s n f) x y = slot s x y := by
  simp [slot, engine]
@[simp] theorem slot_setDiePwr_frame (x y : Nat) (d : Nat) (v : DiePwr) : slot (setDiePwr s d v) x y = slot s x y := by
  simp [slot, engine]
@[simp] theorem slot_setMslot_frame (x y : Nat) (w i : Nat) (v : MSlot) : slot (setMslot s w i v) x y = slot s x y := by
  simp [slot, engine]
@[simp] theorem slot_setHostCore_frame (x y : Nat) (k : Nat) (v : HostCore) : slot (setHostCore s k v) x y = slot s x y := by
  simp [slot, engine]
@[simp] theorem slot_setDicSrc_frame (x y : Nat) (n : Nat) (v : DicSrc) : slot (setDicSrc s n v) x y = slot s x y := by
  simp [slot, engine]
@[simp] theorem slot_setDicCore_frame (x y : Nat) (n : Nat) (v : DicCore) : slot (setDicCore s n v) x y = slot s x y := by
  simp [slot, engine]
@[simp] theorem slot_emit_frame (x y : Nat) (o : Out) : slot (emit s o) x y = slot s x y := by
  simp [slot, engine]
@[simp] theorem slot_physWrite_frame (x y : Nat) (a : Nat) (bs : List Byte) : slot (physWrite s a bs) x y = slot s x y := by
  simp [slot, engine]
@[simp] theorem slot_physZero_frame (x y : Nat) (a n : Nat) : slot (physZero s a n) x y = slot s x y := by
  simp [slot, engine]
@[simp] theorem slot_physCopy_frame (x y : Nat) (a b n : Nat) : slot (physCopy s a b n) x y = slot s x y := by
  simp [slot, engine]
@[simp] theorem slot_setOwn_frame (x y : Nat) (p : Nat) (w : W64) : slot (setOwn s p w) x y = slot s x y := by
  simp [slot, engine]
@[simp] theorem slot_setCell_frame (x y : Nat) (c : Nat) (v : Cell) : slot (setCell s c v) x y = slot s x y := by
  simp [slot, engine]
@[simp] theorem slot_modCell_frame (x y : Nat) (c : Nat) (f : Cell → Cell) : slot (modCell s c f) x y = slot s x y := by
  simp [slot, engine]
@[simp] theorem slot_setSigCore_frame (x y : Nat) (k : Nat) (v : SigCore) : slot (setSigCore s k v) x y = slot s x y := by
  simp [slot, engine]
@[simp] theorem slot_modSigCore_frame (x y : Nat) (k : Nat) (f : SigCore → SigCore) : slot (modSigCore s k f) x y = slot s x y := by
  simp [slot, engine]
@[simp] theorem slot_modRadDie_frame (x y : Nat) (d : Nat) (f : RadDie → RadDie) : slot (modRadDie s d f) x y = slot s x y := by
  simp [slot, engine]
@[simp] theorem slot_setFhPort_frame (x y : Nat) (p : Nat) (v : FhPort) : slot (setFhPort s p v) x y = slot s x y := by
  simp [slot, engine]
@[simp] theorem slot_modFhPort_frame (x y : Nat) (p : Nat) (f : FhPort → FhPort) : slot (modFhPort s p f) x y = slot s x y := by
  simp [slot, engine]
@[simp] theorem slot_modVfPort_frame (x y : Nat) (p : Nat) (f : VfPort → VfPort) : slot (modVfPort s p f) x y = slot s x y := by
  simp [slot, engine]
@[simp] theorem slot_modTim_frame (x y : Nat) (f : Tim → Tim) : slot (modTim s f) x y = slot s x y := by
  simp [slot, engine]
@[simp] theorem slot_raise_frame (x y : Nat) (e : ErrEvent) : slot (raise s e) x y = slot s x y := by
  simp [slot, engine]
@[simp] theorem slot_msix_frame (x y : Nat) (v : Nat) : slot (msix s v) x y = slot s x y := by
  simp [slot, engine]
@[simp] theorem diePwr_setUnit_frame (x : Nat) (u : Nat) (v : UnitSt) : diePwr (setUnit s u v) x = diePwr s x := by
  simp [diePwr]
@[simp] theorem diePwr_modUnit_frame (x : Nat) (u : Nat) (f : UnitSt → UnitSt) : diePwr (modUnit s u f) x = diePwr s x := by
  simp [diePwr]
@[simp] theorem diePwr_setEngine_frame (x : Nat) (e : Nat) (v : Engine) : diePwr (setEngine s e v) x = diePwr s x := by
  simp [diePwr]
@[simp] theorem diePwr_modEngine_frame (x : Nat) (e : Nat) (f : Engine → Engine) : diePwr (modEngine s e f) x = diePwr s x := by
  simp [diePwr]
@[simp] theorem diePwr_setSlot_frame (x : Nat) (e i : Nat) (v : Slot) : diePwr (setSlot s e i v) x = diePwr s x := by
  simp [diePwr]
@[simp] theorem diePwr_modSlot_frame (x : Nat) (e i : Nat) (f : Slot → Slot) : diePwr (modSlot s e i f) x = diePwr s x := by
  simp [diePwr]
@[simp] theorem diePwr_setJob_frame (x : Nat) (h : Nat) (v : Job) : diePwr (setJob s h v) x = diePwr s x := by
  simp [diePwr]
@[simp] theorem diePwr_modJob_frame (x : Nat) (h : Nat) (f : Job → Job) : diePwr (modJob s h f) x = diePwr s x := by
  simp [diePwr]
@[simp] theorem diePwr_setSleeve_frame (x : Nat) (k : Nat) (v : Sleeve) : diePwr (setSleeve s k v) x = diePwr s x := by
  simp [diePwr]
@[simp] theorem diePwr_modSleeve_frame (x : Nat) (k : Nat) (f : Sleeve → Sleeve) : diePwr (modSleeve s k f) x = diePwr s x := by
  simp [diePwr]
@[simp] theorem diePwr_setMslot_frame (x : Nat) (w i : Nat) (v : MSlot) : diePwr (setMslot s w i v) x = diePwr s x := by
  simp [diePwr]
@[simp] theorem diePwr_setHostCore_frame (x : Nat) (k : Nat) (v : HostCore) : diePwr (setHostCore s k v) x = diePwr s x := by
  simp [diePwr]
@[simp] theorem diePwr_setDicSrc_frame (x : Nat) (n : Nat) (v : DicSrc) : diePwr (setDicSrc s n v) x = diePwr s x := by
  simp [diePwr]
@[simp] theorem diePwr_setDicCore_frame (x : Nat) (n : Nat) (v : DicCore) : diePwr (setDicCore s n v) x = diePwr s x := by
  simp [diePwr]
@[simp] theorem diePwr_emit_frame (x : Nat) (o : Out) : diePwr (emit s o) x = diePwr s x := by
  simp [diePwr]
@[simp] theorem diePwr_physWrite_frame (x : Nat) (a : Nat) (bs : List Byte) : diePwr (physWrite s a bs) x = diePwr s x := by
  simp [diePwr]
@[simp] theorem diePwr_physZero_frame (x : Nat) (a n : Nat) : diePwr (physZero s a n) x = diePwr s x := by
  simp [diePwr]
@[simp] theorem diePwr_physCopy_frame (x : Nat) (a b n : Nat) : diePwr (physCopy s a b n) x = diePwr s x := by
  simp [diePwr]
@[simp] theorem diePwr_setOwn_frame (x : Nat) (p : Nat) (w : W64) : diePwr (setOwn s p w) x = diePwr s x := by
  simp [diePwr]
@[simp] theorem diePwr_setCell_frame (x : Nat) (c : Nat) (v : Cell) : diePwr (setCell s c v) x = diePwr s x := by
  simp [diePwr]
@[simp] theorem diePwr_modCell_frame (x : Nat) (c : Nat) (f : Cell → Cell) : diePwr (modCell s c f) x = diePwr s x := by
  simp [diePwr]
@[simp] theorem diePwr_setSigCore_frame (x : Nat) (k : Nat) (v : SigCore) : diePwr (setSigCore s k v) x = diePwr s x := by
  simp [diePwr]
@[simp] theorem diePwr_modSigCore_frame (x : Nat) (k : Nat) (f : SigCore → SigCore) : diePwr (modSigCore s k f) x = diePwr s x := by
  simp [diePwr]
@[simp] theorem diePwr_modRadDie_frame (x : Nat) (d : Nat) (f : RadDie → RadDie) : diePwr (modRadDie s d f) x = diePwr s x := by
  simp [diePwr]
@[simp] theorem diePwr_setFhPort_frame (x : Nat) (p : Nat) (v : FhPort) : diePwr (setFhPort s p v) x = diePwr s x := by
  simp [diePwr]
@[simp] theorem diePwr_modFhPort_frame (x : Nat) (p : Nat) (f : FhPort → FhPort) : diePwr (modFhPort s p f) x = diePwr s x := by
  simp [diePwr]
@[simp] theorem diePwr_modVfPort_frame (x : Nat) (p : Nat) (f : VfPort → VfPort) : diePwr (modVfPort s p f) x = diePwr s x := by
  simp [diePwr]
@[simp] theorem diePwr_modTim_frame (x : Nat) (f : Tim → Tim) : diePwr (modTim s f) x = diePwr s x := by
  simp [diePwr]
@[simp] theorem diePwr_raise_frame (x : Nat) (e : ErrEvent) : diePwr (raise s e) x = diePwr s x := by
  simp [diePwr]
@[simp] theorem diePwr_msix_frame (x : Nat) (v : Nat) : diePwr (msix s v) x = diePwr s x := by
  simp [diePwr]
@[simp] theorem cell_setUnit_frame (x : Nat) (u : Nat) (v : UnitSt) : cell (setUnit s u v) x = cell s x := by
  simp [cell]
@[simp] theorem cell_modUnit_frame (x : Nat) (u : Nat) (f : UnitSt → UnitSt) : cell (modUnit s u f) x = cell s x := by
  simp [cell]
@[simp] theorem cell_setEngine_frame (x : Nat) (e : Nat) (v : Engine) : cell (setEngine s e v) x = cell s x := by
  simp [cell]
@[simp] theorem cell_modEngine_frame (x : Nat) (e : Nat) (f : Engine → Engine) : cell (modEngine s e f) x = cell s x := by
  simp [cell]
@[simp] theorem cell_setSlot_frame (x : Nat) (e i : Nat) (v : Slot) : cell (setSlot s e i v) x = cell s x := by
  simp [cell]
@[simp] theorem cell_modSlot_frame (x : Nat) (e i : Nat) (f : Slot → Slot) : cell (modSlot s e i f) x = cell s x := by
  simp [cell]
@[simp] theorem cell_setJob_frame (x : Nat) (h : Nat) (v : Job) : cell (setJob s h v) x = cell s x := by
  simp [cell]
@[simp] theorem cell_modJob_frame (x : Nat) (h : Nat) (f : Job → Job) : cell (modJob s h f) x = cell s x := by
  simp [cell]
@[simp] theorem cell_setSleeve_frame (x : Nat) (k : Nat) (v : Sleeve) : cell (setSleeve s k v) x = cell s x := by
  simp [cell]
@[simp] theorem cell_modSleeve_frame (x : Nat) (k : Nat) (f : Sleeve → Sleeve) : cell (modSleeve s k f) x = cell s x := by
  simp [cell]
@[simp] theorem cell_setDomain_frame (x : Nat) (n : Nat) (v : Domain) : cell (setDomain s n v) x = cell s x := by
  simp [cell]
@[simp] theorem cell_modDomain_frame (x : Nat) (n : Nat) (f : Domain → Domain) : cell (modDomain s n f) x = cell s x := by
  simp [cell]
@[simp] theorem cell_setDiePwr_frame (x : Nat) (d : Nat) (v : DiePwr) : cell (setDiePwr s d v) x = cell s x := by
  simp [cell]
@[simp] theorem cell_setMslot_frame (x : Nat) (w i : Nat) (v : MSlot) : cell (setMslot s w i v) x = cell s x := by
  simp [cell]
@[simp] theorem cell_setHostCore_frame (x : Nat) (k : Nat) (v : HostCore) : cell (setHostCore s k v) x = cell s x := by
  simp [cell]
@[simp] theorem cell_setDicSrc_frame (x : Nat) (n : Nat) (v : DicSrc) : cell (setDicSrc s n v) x = cell s x := by
  simp [cell]
@[simp] theorem cell_setDicCore_frame (x : Nat) (n : Nat) (v : DicCore) : cell (setDicCore s n v) x = cell s x := by
  simp [cell]
@[simp] theorem cell_emit_frame (x : Nat) (o : Out) : cell (emit s o) x = cell s x := by
  simp [cell]
@[simp] theorem cell_physWrite_frame (x : Nat) (a : Nat) (bs : List Byte) : cell (physWrite s a bs) x = cell s x := by
  simp [cell]
@[simp] theorem cell_physZero_frame (x : Nat) (a n : Nat) : cell (physZero s a n) x = cell s x := by
  simp [cell]
@[simp] theorem cell_physCopy_frame (x : Nat) (a b n : Nat) : cell (physCopy s a b n) x = cell s x := by
  simp [cell]
@[simp] theorem cell_setOwn_frame (x : Nat) (p : Nat) (w : W64) : cell (setOwn s p w) x = cell s x := by
  simp [cell]
@[simp] theorem cell_setFhPort_frame (x : Nat) (p : Nat) (v : FhPort) : cell (setFhPort s p v) x = cell s x := by
  simp [cell]
@[simp] theorem cell_modFhPort_frame (x : Nat) (p : Nat) (f : FhPort → FhPort) : cell (modFhPort s p f) x = cell s x := by
  simp [cell]
@[simp] theorem cell_modVfPort_frame (x : Nat) (p : Nat) (f : VfPort → VfPort) : cell (modVfPort s p f) x = cell s x := by
  simp [cell]
@[simp] theorem cell_modTim_frame (x : Nat) (f : Tim → Tim) : cell (modTim s f) x = cell s x := by
  simp [cell]
@[simp] theorem cell_raise_frame (x : Nat) (e : ErrEvent) : cell (raise s e) x = cell s x := by
  simp [cell]
@[simp] theorem cell_msix_frame (x : Nat) (v : Nat) : cell (msix s v) x = cell s x := by
  simp [cell]
@[simp] theorem sigCore_setUnit_frame (x : Nat) (u : Nat) (v : UnitSt) : sigCore (setUnit s u v) x = sigCore s x := by
  simp [sigCore]
@[simp] theorem sigCore_modUnit_frame (x : Nat) (u : Nat) (f : UnitSt → UnitSt) : sigCore (modUnit s u f) x = sigCore s x := by
  simp [sigCore]
@[simp] theorem sigCore_setEngine_frame (x : Nat) (e : Nat) (v : Engine) : sigCore (setEngine s e v) x = sigCore s x := by
  simp [sigCore]
@[simp] theorem sigCore_modEngine_frame (x : Nat) (e : Nat) (f : Engine → Engine) : sigCore (modEngine s e f) x = sigCore s x := by
  simp [sigCore]
@[simp] theorem sigCore_setSlot_frame (x : Nat) (e i : Nat) (v : Slot) : sigCore (setSlot s e i v) x = sigCore s x := by
  simp [sigCore]
@[simp] theorem sigCore_modSlot_frame (x : Nat) (e i : Nat) (f : Slot → Slot) : sigCore (modSlot s e i f) x = sigCore s x := by
  simp [sigCore]
@[simp] theorem sigCore_setJob_frame (x : Nat) (h : Nat) (v : Job) : sigCore (setJob s h v) x = sigCore s x := by
  simp [sigCore]
@[simp] theorem sigCore_modJob_frame (x : Nat) (h : Nat) (f : Job → Job) : sigCore (modJob s h f) x = sigCore s x := by
  simp [sigCore]
@[simp] theorem sigCore_setSleeve_frame (x : Nat) (k : Nat) (v : Sleeve) : sigCore (setSleeve s k v) x = sigCore s x := by
  simp [sigCore]
@[simp] theorem sigCore_modSleeve_frame (x : Nat) (k : Nat) (f : Sleeve → Sleeve) : sigCore (modSleeve s k f) x = sigCore s x := by
  simp [sigCore]
@[simp] theorem sigCore_setDomain_frame (x : Nat) (n : Nat) (v : Domain) : sigCore (setDomain s n v) x = sigCore s x := by
  simp [sigCore]
@[simp] theorem sigCore_modDomain_frame (x : Nat) (n : Nat) (f : Domain → Domain) : sigCore (modDomain s n f) x = sigCore s x := by
  simp [sigCore]
@[simp] theorem sigCore_setDiePwr_frame (x : Nat) (d : Nat) (v : DiePwr) : sigCore (setDiePwr s d v) x = sigCore s x := by
  simp [sigCore]
@[simp] theorem sigCore_setMslot_frame (x : Nat) (w i : Nat) (v : MSlot) : sigCore (setMslot s w i v) x = sigCore s x := by
  simp [sigCore]
@[simp] theorem sigCore_setHostCore_frame (x : Nat) (k : Nat) (v : HostCore) : sigCore (setHostCore s k v) x = sigCore s x := by
  simp [sigCore]
@[simp] theorem sigCore_setDicSrc_frame (x : Nat) (n : Nat) (v : DicSrc) : sigCore (setDicSrc s n v) x = sigCore s x := by
  simp [sigCore]
@[simp] theorem sigCore_setDicCore_frame (x : Nat) (n : Nat) (v : DicCore) : sigCore (setDicCore s n v) x = sigCore s x := by
  simp [sigCore]
@[simp] theorem sigCore_emit_frame (x : Nat) (o : Out) : sigCore (emit s o) x = sigCore s x := by
  simp [sigCore]
@[simp] theorem sigCore_physWrite_frame (x : Nat) (a : Nat) (bs : List Byte) : sigCore (physWrite s a bs) x = sigCore s x := by
  simp [sigCore]
@[simp] theorem sigCore_physZero_frame (x : Nat) (a n : Nat) : sigCore (physZero s a n) x = sigCore s x := by
  simp [sigCore]
@[simp] theorem sigCore_physCopy_frame (x : Nat) (a b n : Nat) : sigCore (physCopy s a b n) x = sigCore s x := by
  simp [sigCore]
@[simp] theorem sigCore_setOwn_frame (x : Nat) (p : Nat) (w : W64) : sigCore (setOwn s p w) x = sigCore s x := by
  simp [sigCore]
@[simp] theorem sigCore_setFhPort_frame (x : Nat) (p : Nat) (v : FhPort) : sigCore (setFhPort s p v) x = sigCore s x := by
  simp [sigCore]
@[simp] theorem sigCore_modFhPort_frame (x : Nat) (p : Nat) (f : FhPort → FhPort) : sigCore (modFhPort s p f) x = sigCore s x := by
  simp [sigCore]
@[simp] theorem sigCore_modVfPort_frame (x : Nat) (p : Nat) (f : VfPort → VfPort) : sigCore (modVfPort s p f) x = sigCore s x := by
  simp [sigCore]
@[simp] theorem sigCore_modTim_frame (x : Nat) (f : Tim → Tim) : sigCore (modTim s f) x = sigCore s x := by
  simp [sigCore]
@[simp] theorem sigCore_raise_frame (x : Nat) (e : ErrEvent) : sigCore (raise s e) x = sigCore s x := by
  simp [sigCore]
@[simp] theorem sigCore_msix_frame (x : Nat) (v : Nat) : sigCore (msix s v) x = sigCore s x := by
  simp [sigCore]
@[simp] theorem radDie_setUnit_frame (x : Nat) (u : Nat) (v : UnitSt) : radDie (setUnit s u v) x = radDie s x := by
  simp [radDie]
@[simp] theorem radDie_modUnit_frame (x : Nat) (u : Nat) (f : UnitSt → UnitSt) : radDie (modUnit s u f) x = radDie s x := by
  simp [radDie]
@[simp] theorem radDie_setEngine_frame (x : Nat) (e : Nat) (v : Engine) : radDie (setEngine s e v) x = radDie s x := by
  simp [radDie]
@[simp] theorem radDie_modEngine_frame (x : Nat) (e : Nat) (f : Engine → Engine) : radDie (modEngine s e f) x = radDie s x := by
  simp [radDie]
@[simp] theorem radDie_setSlot_frame (x : Nat) (e i : Nat) (v : Slot) : radDie (setSlot s e i v) x = radDie s x := by
  simp [radDie]
@[simp] theorem radDie_modSlot_frame (x : Nat) (e i : Nat) (f : Slot → Slot) : radDie (modSlot s e i f) x = radDie s x := by
  simp [radDie]
@[simp] theorem radDie_setJob_frame (x : Nat) (h : Nat) (v : Job) : radDie (setJob s h v) x = radDie s x := by
  simp [radDie]
@[simp] theorem radDie_modJob_frame (x : Nat) (h : Nat) (f : Job → Job) : radDie (modJob s h f) x = radDie s x := by
  simp [radDie]
@[simp] theorem radDie_setSleeve_frame (x : Nat) (k : Nat) (v : Sleeve) : radDie (setSleeve s k v) x = radDie s x := by
  simp [radDie]
@[simp] theorem radDie_modSleeve_frame (x : Nat) (k : Nat) (f : Sleeve → Sleeve) : radDie (modSleeve s k f) x = radDie s x := by
  simp [radDie]
@[simp] theorem radDie_setDomain_frame (x : Nat) (n : Nat) (v : Domain) : radDie (setDomain s n v) x = radDie s x := by
  simp [radDie]
@[simp] theorem radDie_modDomain_frame (x : Nat) (n : Nat) (f : Domain → Domain) : radDie (modDomain s n f) x = radDie s x := by
  simp [radDie]
@[simp] theorem radDie_setDiePwr_frame (x : Nat) (d : Nat) (v : DiePwr) : radDie (setDiePwr s d v) x = radDie s x := by
  simp [radDie]
@[simp] theorem radDie_setMslot_frame (x : Nat) (w i : Nat) (v : MSlot) : radDie (setMslot s w i v) x = radDie s x := by
  simp [radDie]
@[simp] theorem radDie_setHostCore_frame (x : Nat) (k : Nat) (v : HostCore) : radDie (setHostCore s k v) x = radDie s x := by
  simp [radDie]
@[simp] theorem radDie_setDicSrc_frame (x : Nat) (n : Nat) (v : DicSrc) : radDie (setDicSrc s n v) x = radDie s x := by
  simp [radDie]
@[simp] theorem radDie_setDicCore_frame (x : Nat) (n : Nat) (v : DicCore) : radDie (setDicCore s n v) x = radDie s x := by
  simp [radDie]
@[simp] theorem radDie_emit_frame (x : Nat) (o : Out) : radDie (emit s o) x = radDie s x := by
  simp [radDie]
@[simp] theorem radDie_physWrite_frame (x : Nat) (a : Nat) (bs : List Byte) : radDie (physWrite s a bs) x = radDie s x := by
  simp [radDie]
@[simp] theorem radDie_physZero_frame (x : Nat) (a n : Nat) : radDie (physZero s a n) x = radDie s x := by
  simp [radDie]
@[simp] theorem radDie_physCopy_frame (x : Nat) (a b n : Nat) : radDie (physCopy s a b n) x = radDie s x := by
  simp [radDie]
@[simp] theorem radDie_setOwn_frame (x : Nat) (p : Nat) (w : W64) : radDie (setOwn s p w) x = radDie s x := by
  simp [radDie]
@[simp] theorem radDie_setFhPort_frame (x : Nat) (p : Nat) (v : FhPort) : radDie (setFhPort s p v) x = radDie s x := by
  simp [radDie]
@[simp] theorem radDie_modFhPort_frame (x : Nat) (p : Nat) (f : FhPort → FhPort) : radDie (modFhPort s p f) x = radDie s x := by
  simp [radDie]
@[simp] theorem radDie_modVfPort_frame (x : Nat) (p : Nat) (f : VfPort → VfPort) : radDie (modVfPort s p f) x = radDie s x := by
  simp [radDie]
@[simp] theorem radDie_modTim_frame (x : Nat) (f : Tim → Tim) : radDie (modTim s f) x = radDie s x := by
  simp [radDie]
@[simp] theorem radDie_raise_frame (x : Nat) (e : ErrEvent) : radDie (raise s e) x = radDie s x := by
  simp [radDie]
@[simp] theorem radDie_msix_frame (x : Nat) (v : Nat) : radDie (msix s v) x = radDie s x := by
  simp [radDie]
@[simp] theorem fhPort_setUnit_frame (x : Nat) (u : Nat) (v : UnitSt) : fhPort (setUnit s u v) x = fhPort s x := by
  simp [fhPort]
@[simp] theorem fhPort_modUnit_frame (x : Nat) (u : Nat) (f : UnitSt → UnitSt) : fhPort (modUnit s u f) x = fhPort s x := by
  simp [fhPort]
@[simp] theorem fhPort_setEngine_frame (x : Nat) (e : Nat) (v : Engine) : fhPort (setEngine s e v) x = fhPort s x := by
  simp [fhPort]
@[simp] theorem fhPort_modEngine_frame (x : Nat) (e : Nat) (f : Engine → Engine) : fhPort (modEngine s e f) x = fhPort s x := by
  simp [fhPort]
@[simp] theorem fhPort_setSlot_frame (x : Nat) (e i : Nat) (v : Slot) : fhPort (setSlot s e i v) x = fhPort s x := by
  simp [fhPort]
@[simp] theorem fhPort_modSlot_frame (x : Nat) (e i : Nat) (f : Slot → Slot) : fhPort (modSlot s e i f) x = fhPort s x := by
  simp [fhPort]
@[simp] theorem fhPort_setJob_frame (x : Nat) (h : Nat) (v : Job) : fhPort (setJob s h v) x = fhPort s x := by
  simp [fhPort]
@[simp] theorem fhPort_modJob_frame (x : Nat) (h : Nat) (f : Job → Job) : fhPort (modJob s h f) x = fhPort s x := by
  simp [fhPort]
@[simp] theorem fhPort_setSleeve_frame (x : Nat) (k : Nat) (v : Sleeve) : fhPort (setSleeve s k v) x = fhPort s x := by
  simp [fhPort]
@[simp] theorem fhPort_modSleeve_frame (x : Nat) (k : Nat) (f : Sleeve → Sleeve) : fhPort (modSleeve s k f) x = fhPort s x := by
  simp [fhPort]
@[simp] theorem fhPort_setDomain_frame (x : Nat) (n : Nat) (v : Domain) : fhPort (setDomain s n v) x = fhPort s x := by
  simp [fhPort]
@[simp] theorem fhPort_modDomain_frame (x : Nat) (n : Nat) (f : Domain → Domain) : fhPort (modDomain s n f) x = fhPort s x := by
  simp [fhPort]
@[simp] theorem fhPort_setDiePwr_frame (x : Nat) (d : Nat) (v : DiePwr) : fhPort (setDiePwr s d v) x = fhPort s x := by
  simp [fhPort]
@[simp] theorem fhPort_setMslot_frame (x : Nat) (w i : Nat) (v : MSlot) : fhPort (setMslot s w i v) x = fhPort s x := by
  simp [fhPort]
@[simp] theorem fhPort_setHostCore_frame (x : Nat) (k : Nat) (v : HostCore) : fhPort (setHostCore s k v) x = fhPort s x := by
  simp [fhPort]
@[simp] theorem fhPort_setDicSrc_frame (x : Nat) (n : Nat) (v : DicSrc) : fhPort (setDicSrc s n v) x = fhPort s x := by
  simp [fhPort]
@[simp] theorem fhPort_setDicCore_frame (x : Nat) (n : Nat) (v : DicCore) : fhPort (setDicCore s n v) x = fhPort s x := by
  simp [fhPort]
@[simp] theorem fhPort_emit_frame (x : Nat) (o : Out) : fhPort (emit s o) x = fhPort s x := by
  simp [fhPort]
@[simp] theorem fhPort_physWrite_frame (x : Nat) (a : Nat) (bs : List Byte) : fhPort (physWrite s a bs) x = fhPort s x := by
  simp [fhPort]
@[simp] theorem fhPort_physZero_frame (x : Nat) (a n : Nat) : fhPort (physZero s a n) x = fhPort s x := by
  simp [fhPort]
@[simp] theorem fhPort_physCopy_frame (x : Nat) (a b n : Nat) : fhPort (physCopy s a b n) x = fhPort s x := by
  simp [fhPort]
@[simp] theorem fhPort_setOwn_frame (x : Nat) (p : Nat) (w : W64) : fhPort (setOwn s p w) x = fhPort s x := by
  simp [fhPort]
@[simp] theorem fhPort_setCell_frame (x : Nat) (c : Nat) (v : Cell) : fhPort (setCell s c v) x = fhPort s x := by
  simp [fhPort]
@[simp] theorem fhPort_modCell_frame (x : Nat) (c : Nat) (f : Cell → Cell) : fhPort (modCell s c f) x = fhPort s x := by
  simp [fhPort]
@[simp] theorem fhPort_setSigCore_frame (x : Nat) (k : Nat) (v : SigCore) : fhPort (setSigCore s k v) x = fhPort s x := by
  simp [fhPort]
@[simp] theorem fhPort_modSigCore_frame (x : Nat) (k : Nat) (f : SigCore → SigCore) : fhPort (modSigCore s k f) x = fhPort s x := by
  simp [fhPort]
@[simp] theorem fhPort_modRadDie_frame (x : Nat) (d : Nat) (f : RadDie → RadDie) : fhPort (modRadDie s d f) x = fhPort s x := by
  simp [fhPort]
@[simp] theorem fhPort_modVfPort_frame (x : Nat) (p : Nat) (f : VfPort → VfPort) : fhPort (modVfPort s p f) x = fhPort s x := by
  simp [fhPort]
@[simp] theorem fhPort_modTim_frame (x : Nat) (f : Tim → Tim) : fhPort (modTim s f) x = fhPort s x := by
  simp [fhPort]
@[simp] theorem fhPort_raise_frame (x : Nat) (e : ErrEvent) : fhPort (raise s e) x = fhPort s x := by
  simp [fhPort]
@[simp] theorem fhPort_msix_frame (x : Nat) (v : Nat) : fhPort (msix s v) x = fhPort s x := by
  simp [fhPort]
@[simp] theorem vfPort_setUnit_frame (x : Nat) (u : Nat) (v : UnitSt) : vfPort (setUnit s u v) x = vfPort s x := by
  simp [vfPort]
@[simp] theorem vfPort_modUnit_frame (x : Nat) (u : Nat) (f : UnitSt → UnitSt) : vfPort (modUnit s u f) x = vfPort s x := by
  simp [vfPort]
@[simp] theorem vfPort_setEngine_frame (x : Nat) (e : Nat) (v : Engine) : vfPort (setEngine s e v) x = vfPort s x := by
  simp [vfPort]
@[simp] theorem vfPort_modEngine_frame (x : Nat) (e : Nat) (f : Engine → Engine) : vfPort (modEngine s e f) x = vfPort s x := by
  simp [vfPort]
@[simp] theorem vfPort_setSlot_frame (x : Nat) (e i : Nat) (v : Slot) : vfPort (setSlot s e i v) x = vfPort s x := by
  simp [vfPort]
@[simp] theorem vfPort_modSlot_frame (x : Nat) (e i : Nat) (f : Slot → Slot) : vfPort (modSlot s e i f) x = vfPort s x := by
  simp [vfPort]
@[simp] theorem vfPort_setJob_frame (x : Nat) (h : Nat) (v : Job) : vfPort (setJob s h v) x = vfPort s x := by
  simp [vfPort]
@[simp] theorem vfPort_modJob_frame (x : Nat) (h : Nat) (f : Job → Job) : vfPort (modJob s h f) x = vfPort s x := by
  simp [vfPort]
@[simp] theorem vfPort_setSleeve_frame (x : Nat) (k : Nat) (v : Sleeve) : vfPort (setSleeve s k v) x = vfPort s x := by
  simp [vfPort]
@[simp] theorem vfPort_modSleeve_frame (x : Nat) (k : Nat) (f : Sleeve → Sleeve) : vfPort (modSleeve s k f) x = vfPort s x := by
  simp [vfPort]
@[simp] theorem vfPort_setDomain_frame (x : Nat) (n : Nat) (v : Domain) : vfPort (setDomain s n v) x = vfPort s x := by
  simp [vfPort]
@[simp] theorem vfPort_modDomain_frame (x : Nat) (n : Nat) (f : Domain → Domain) : vfPort (modDomain s n f) x = vfPort s x := by
  simp [vfPort]
@[simp] theorem vfPort_setDiePwr_frame (x : Nat) (d : Nat) (v : DiePwr) : vfPort (setDiePwr s d v) x = vfPort s x := by
  simp [vfPort]
@[simp] theorem vfPort_setMslot_frame (x : Nat) (w i : Nat) (v : MSlot) : vfPort (setMslot s w i v) x = vfPort s x := by
  simp [vfPort]
@[simp] theorem vfPort_setHostCore_frame (x : Nat) (k : Nat) (v : HostCore) : vfPort (setHostCore s k v) x = vfPort s x := by
  simp [vfPort]
@[simp] theorem vfPort_setDicSrc_frame (x : Nat) (n : Nat) (v : DicSrc) : vfPort (setDicSrc s n v) x = vfPort s x := by
  simp [vfPort]
@[simp] theorem vfPort_setDicCore_frame (x : Nat) (n : Nat) (v : DicCore) : vfPort (setDicCore s n v) x = vfPort s x := by
  simp [vfPort]
@[simp] theorem vfPort_emit_frame (x : Nat) (o : Out) : vfPort (emit s o) x = vfPort s x := by
  simp [vfPort]
@[simp] theorem vfPort_physWrite_frame (x : Nat) (a : Nat) (bs : List Byte) : vfPort (physWrite s a bs) x = vfPort s x := by
  simp [vfPort]
@[simp] theorem vfPort_physZero_frame (x : Nat) (a n : Nat) : vfPort (physZero s a n) x = vfPort s x := by
  simp [vfPort]
@[simp] theorem vfPort_physCopy_frame (x : Nat) (a b n : Nat) : vfPort (physCopy s a b n) x = vfPort s x := by
  simp [vfPort]
@[simp] theorem vfPort_setOwn_frame (x : Nat) (p : Nat) (w : W64) : vfPort (setOwn s p w) x = vfPort s x := by
  simp [vfPort]
@[simp] theorem vfPort_setCell_frame (x : Nat) (c : Nat) (v : Cell) : vfPort (setCell s c v) x = vfPort s x := by
  simp [vfPort]
@[simp] theorem vfPort_modCell_frame (x : Nat) (c : Nat) (f : Cell → Cell) : vfPort (modCell s c f) x = vfPort s x := by
  simp [vfPort]
@[simp] theorem vfPort_setSigCore_frame (x : Nat) (k : Nat) (v : SigCore) : vfPort (setSigCore s k v) x = vfPort s x := by
  simp [vfPort]
@[simp] theorem vfPort_modSigCore_frame (x : Nat) (k : Nat) (f : SigCore → SigCore) : vfPort (modSigCore s k f) x = vfPort s x := by
  simp [vfPort]
@[simp] theorem vfPort_modRadDie_frame (x : Nat) (d : Nat) (f : RadDie → RadDie) : vfPort (modRadDie s d f) x = vfPort s x := by
  simp [vfPort]
@[simp] theorem vfPort_setFhPort_frame (x : Nat) (p : Nat) (v : FhPort) : vfPort (setFhPort s p v) x = vfPort s x := by
  simp [vfPort]
@[simp] theorem vfPort_modFhPort_frame (x : Nat) (p : Nat) (f : FhPort → FhPort) : vfPort (modFhPort s p f) x = vfPort s x := by
  simp [vfPort]
@[simp] theorem vfPort_modTim_frame (x : Nat) (f : Tim → Tim) : vfPort (modTim s f) x = vfPort s x := by
  simp [vfPort]
@[simp] theorem vfPort_raise_frame (x : Nat) (e : ErrEvent) : vfPort (raise s e) x = vfPort s x := by
  simp [vfPort]
@[simp] theorem vfPort_msix_frame (x : Nat) (v : Nat) : vfPort (msix s v) x = vfPort s x := by
  simp [vfPort]
@[simp] theorem hostCore_setUnit_frame (x : Nat) (u : Nat) (v : UnitSt) : hostCore (setUnit s u v) x = hostCore s x := by
  simp [hostCore]
@[simp] theorem hostCore_modUnit_frame (x : Nat) (u : Nat) (f : UnitSt → UnitSt) : hostCore (modUnit s u f) x = hostCore s x := by
  simp [hostCore]
@[simp] theorem hostCore_setEngine_frame (x : Nat) (e : Nat) (v : Engine) : hostCore (setEngine s e v) x = hostCore s x := by
  simp [hostCore]
@[simp] theorem hostCore_modEngine_frame (x : Nat) (e : Nat) (f : Engine → Engine) : hostCore (modEngine s e f) x = hostCore s x := by
  simp [hostCore]
@[simp] theorem hostCore_setSlot_frame (x : Nat) (e i : Nat) (v : Slot) : hostCore (setSlot s e i v) x = hostCore s x := by
  simp [hostCore]
@[simp] theorem hostCore_modSlot_frame (x : Nat) (e i : Nat) (f : Slot → Slot) : hostCore (modSlot s e i f) x = hostCore s x := by
  simp [hostCore]
@[simp] theorem hostCore_setJob_frame (x : Nat) (h : Nat) (v : Job) : hostCore (setJob s h v) x = hostCore s x := by
  simp [hostCore]
@[simp] theorem hostCore_modJob_frame (x : Nat) (h : Nat) (f : Job → Job) : hostCore (modJob s h f) x = hostCore s x := by
  simp [hostCore]
@[simp] theorem hostCore_setSleeve_frame (x : Nat) (k : Nat) (v : Sleeve) : hostCore (setSleeve s k v) x = hostCore s x := by
  simp [hostCore]
@[simp] theorem hostCore_modSleeve_frame (x : Nat) (k : Nat) (f : Sleeve → Sleeve) : hostCore (modSleeve s k f) x = hostCore s x := by
  simp [hostCore]
@[simp] theorem hostCore_setDomain_frame (x : Nat) (n : Nat) (v : Domain) : hostCore (setDomain s n v) x = hostCore s x := by
  simp [hostCore]
@[simp] theorem hostCore_modDomain_frame (x : Nat) (n : Nat) (f : Domain → Domain) : hostCore (modDomain s n f) x = hostCore s x := by
  simp [hostCore]
@[simp] theorem hostCore_setDiePwr_frame (x : Nat) (d : Nat) (v : DiePwr) : hostCore (setDiePwr s d v) x = hostCore s x := by
  simp [hostCore]
@[simp] theorem hostCore_emit_frame (x : Nat) (o : Out) : hostCore (emit s o) x = hostCore s x := by
  simp [hostCore]
@[simp] theorem hostCore_physWrite_frame (x : Nat) (a : Nat) (bs : List Byte) : hostCore (physWrite s a bs) x = hostCore s x := by
  simp [hostCore]
@[simp] theorem hostCore_physZero_frame (x : Nat) (a n : Nat) : hostCore (physZero s a n) x = hostCore s x := by
  simp [hostCore]
@[simp] theorem hostCore_physCopy_frame (x : Nat) (a b n : Nat) : hostCore (physCopy s a b n) x = hostCore s x := by
  simp [hostCore]
@[simp] theorem hostCore_setOwn_frame (x : Nat) (p : Nat) (w : W64) : hostCore (setOwn s p w) x = hostCore s x := by
  simp [hostCore]
@[simp] theorem hostCore_setCell_frame (x : Nat) (c : Nat) (v : Cell) : hostCore (setCell s c v) x = hostCore s x := by
  simp [hostCore]
@[simp] theorem hostCore_modCell_frame (x : Nat) (c : Nat) (f : Cell → Cell) : hostCore (modCell s c f) x = hostCore s x := by
  simp [hostCore]
@[simp] theorem hostCore_setSigCore_frame (x : Nat) (k : Nat) (v : SigCore) : hostCore (setSigCore s k v) x = hostCore s x := by
  simp [hostCore]
@[simp] theorem hostCore_modSigCore_frame (x : Nat) (k : Nat) (f : SigCore → SigCore) : hostCore (modSigCore s k f) x = hostCore s x := by
  simp [hostCore]
@[simp] theorem hostCore_modRadDie_frame (x : Nat) (d : Nat) (f : RadDie → RadDie) : hostCore (modRadDie s d f) x = hostCore s x := by
  simp [hostCore]
@[simp] theorem hostCore_setFhPort_frame (x : Nat) (p : Nat) (v : FhPort) : hostCore (setFhPort s p v) x = hostCore s x := by
  simp [hostCore]
@[simp] theorem hostCore_modFhPort_frame (x : Nat) (p : Nat) (f : FhPort → FhPort) : hostCore (modFhPort s p f) x = hostCore s x := by
  simp [hostCore]
@[simp] theorem hostCore_modVfPort_frame (x : Nat) (p : Nat) (f : VfPort → VfPort) : hostCore (modVfPort s p f) x = hostCore s x := by
  simp [hostCore]
@[simp] theorem hostCore_modTim_frame (x : Nat) (f : Tim → Tim) : hostCore (modTim s f) x = hostCore s x := by
  simp [hostCore]
@[simp] theorem hostCore_raise_frame (x : Nat) (e : ErrEvent) : hostCore (raise s e) x = hostCore s x := by
  simp [hostCore]
@[simp] theorem hostCore_msix_frame (x : Nat) (v : Nat) : hostCore (msix s v) x = hostCore s x := by
  simp [hostCore]
@[simp] theorem dicSrc_setUnit_frame (x : Nat) (u : Nat) (v : UnitSt) : dicSrc (setUnit s u v) x = dicSrc s x := by
  simp [dicSrc]
@[simp] theorem dicSrc_modUnit_frame (x : Nat) (u : Nat) (f : UnitSt → UnitSt) : dicSrc (modUnit s u f) x = dicSrc s x := by
  simp [dicSrc]
@[simp] theorem dicSrc_setEngine_frame (x : Nat) (e : Nat) (v : Engine) : dicSrc (setEngine s e v) x = dicSrc s x := by
  simp [dicSrc]
@[simp] theorem dicSrc_modEngine_frame (x : Nat) (e : Nat) (f : Engine → Engine) : dicSrc (modEngine s e f) x = dicSrc s x := by
  simp [dicSrc]
@[simp] theorem dicSrc_setSlot_frame (x : Nat) (e i : Nat) (v : Slot) : dicSrc (setSlot s e i v) x = dicSrc s x := by
  simp [dicSrc]
@[simp] theorem dicSrc_modSlot_frame (x : Nat) (e i : Nat) (f : Slot → Slot) : dicSrc (modSlot s e i f) x = dicSrc s x := by
  simp [dicSrc]
@[simp] theorem dicSrc_setJob_frame (x : Nat) (h : Nat) (v : Job) : dicSrc (setJob s h v) x = dicSrc s x := by
  simp [dicSrc]
@[simp] theorem dicSrc_modJob_frame (x : Nat) (h : Nat) (f : Job → Job) : dicSrc (modJob s h f) x = dicSrc s x := by
  simp [dicSrc]
@[simp] theorem dicSrc_setSleeve_frame (x : Nat) (k : Nat) (v : Sleeve) : dicSrc (setSleeve s k v) x = dicSrc s x := by
  simp [dicSrc]
@[simp] theorem dicSrc_modSleeve_frame (x : Nat) (k : Nat) (f : Sleeve → Sleeve) : dicSrc (modSleeve s k f) x = dicSrc s x := by
  simp [dicSrc]
@[simp] theorem dicSrc_setDomain_frame (x : Nat) (n : Nat) (v : Domain) : dicSrc (setDomain s n v) x = dicSrc s x := by
  simp [dicSrc]
@[simp] theorem dicSrc_modDomain_frame (x : Nat) (n : Nat) (f : Domain → Domain) : dicSrc (modDomain s n f) x = dicSrc s x := by
  simp [dicSrc]
@[simp] theorem dicSrc_setDiePwr_frame (x : Nat) (d : Nat) (v : DiePwr) : dicSrc (setDiePwr s d v) x = dicSrc s x := by
  simp [dicSrc]
@[simp] theorem dicSrc_emit_frame (x : Nat) (o : Out) : dicSrc (emit s o) x = dicSrc s x := by
  simp [dicSrc]
@[simp] theorem dicSrc_physWrite_frame (x : Nat) (a : Nat) (bs : List Byte) : dicSrc (physWrite s a bs) x = dicSrc s x := by
  simp [dicSrc]
@[simp] theorem dicSrc_physZero_frame (x : Nat) (a n : Nat) : dicSrc (physZero s a n) x = dicSrc s x := by
  simp [dicSrc]
@[simp] theorem dicSrc_physCopy_frame (x : Nat) (a b n : Nat) : dicSrc (physCopy s a b n) x = dicSrc s x := by
  simp [dicSrc]
@[simp] theorem dicSrc_setOwn_frame (x : Nat) (p : Nat) (w : W64) : dicSrc (setOwn s p w) x = dicSrc s x := by
  simp [dicSrc]
@[simp] theorem dicSrc_setCell_frame (x : Nat) (c : Nat) (v : Cell) : dicSrc (setCell s c v) x = dicSrc s x := by
  simp [dicSrc]
@[simp] theorem dicSrc_modCell_frame (x : Nat) (c : Nat) (f : Cell → Cell) : dicSrc (modCell s c f) x = dicSrc s x := by
  simp [dicSrc]
@[simp] theorem dicSrc_setSigCore_frame (x : Nat) (k : Nat) (v : SigCore) : dicSrc (setSigCore s k v) x = dicSrc s x := by
  simp [dicSrc]
@[simp] theorem dicSrc_modSigCore_frame (x : Nat) (k : Nat) (f : SigCore → SigCore) : dicSrc (modSigCore s k f) x = dicSrc s x := by
  simp [dicSrc]
@[simp] theorem dicSrc_modRadDie_frame (x : Nat) (d : Nat) (f : RadDie → RadDie) : dicSrc (modRadDie s d f) x = dicSrc s x := by
  simp [dicSrc]
@[simp] theorem dicSrc_setFhPort_frame (x : Nat) (p : Nat) (v : FhPort) : dicSrc (setFhPort s p v) x = dicSrc s x := by
  simp [dicSrc]
@[simp] theorem dicSrc_modFhPort_frame (x : Nat) (p : Nat) (f : FhPort → FhPort) : dicSrc (modFhPort s p f) x = dicSrc s x := by
  simp [dicSrc]
@[simp] theorem dicSrc_modVfPort_frame (x : Nat) (p : Nat) (f : VfPort → VfPort) : dicSrc (modVfPort s p f) x = dicSrc s x := by
  simp [dicSrc]
@[simp] theorem dicSrc_modTim_frame (x : Nat) (f : Tim → Tim) : dicSrc (modTim s f) x = dicSrc s x := by
  simp [dicSrc]
@[simp] theorem dicSrc_raise_frame (x : Nat) (e : ErrEvent) : dicSrc (raise s e) x = dicSrc s x := by
  simp [dicSrc]
@[simp] theorem dicSrc_msix_frame (x : Nat) (v : Nat) : dicSrc (msix s v) x = dicSrc s x := by
  simp [dicSrc]
@[simp] theorem dicCore_setUnit_frame (x : Nat) (u : Nat) (v : UnitSt) : dicCore (setUnit s u v) x = dicCore s x := by
  simp [dicCore]
@[simp] theorem dicCore_modUnit_frame (x : Nat) (u : Nat) (f : UnitSt → UnitSt) : dicCore (modUnit s u f) x = dicCore s x := by
  simp [dicCore]
@[simp] theorem dicCore_setEngine_frame (x : Nat) (e : Nat) (v : Engine) : dicCore (setEngine s e v) x = dicCore s x := by
  simp [dicCore]
@[simp] theorem dicCore_modEngine_frame (x : Nat) (e : Nat) (f : Engine → Engine) : dicCore (modEngine s e f) x = dicCore s x := by
  simp [dicCore]
@[simp] theorem dicCore_setSlot_frame (x : Nat) (e i : Nat) (v : Slot) : dicCore (setSlot s e i v) x = dicCore s x := by
  simp [dicCore]
@[simp] theorem dicCore_modSlot_frame (x : Nat) (e i : Nat) (f : Slot → Slot) : dicCore (modSlot s e i f) x = dicCore s x := by
  simp [dicCore]
@[simp] theorem dicCore_setJob_frame (x : Nat) (h : Nat) (v : Job) : dicCore (setJob s h v) x = dicCore s x := by
  simp [dicCore]
@[simp] theorem dicCore_modJob_frame (x : Nat) (h : Nat) (f : Job → Job) : dicCore (modJob s h f) x = dicCore s x := by
  simp [dicCore]
@[simp] theorem dicCore_setSleeve_frame (x : Nat) (k : Nat) (v : Sleeve) : dicCore (setSleeve s k v) x = dicCore s x := by
  simp [dicCore]
@[simp] theorem dicCore_modSleeve_frame (x : Nat) (k : Nat) (f : Sleeve → Sleeve) : dicCore (modSleeve s k f) x = dicCore s x := by
  simp [dicCore]
@[simp] theorem dicCore_setDomain_frame (x : Nat) (n : Nat) (v : Domain) : dicCore (setDomain s n v) x = dicCore s x := by
  simp [dicCore]
@[simp] theorem dicCore_modDomain_frame (x : Nat) (n : Nat) (f : Domain → Domain) : dicCore (modDomain s n f) x = dicCore s x := by
  simp [dicCore]
@[simp] theorem dicCore_setDiePwr_frame (x : Nat) (d : Nat) (v : DiePwr) : dicCore (setDiePwr s d v) x = dicCore s x := by
  simp [dicCore]
@[simp] theorem dicCore_emit_frame (x : Nat) (o : Out) : dicCore (emit s o) x = dicCore s x := by
  simp [dicCore]
@[simp] theorem dicCore_physWrite_frame (x : Nat) (a : Nat) (bs : List Byte) : dicCore (physWrite s a bs) x = dicCore s x := by
  simp [dicCore]
@[simp] theorem dicCore_physZero_frame (x : Nat) (a n : Nat) : dicCore (physZero s a n) x = dicCore s x := by
  simp [dicCore]
@[simp] theorem dicCore_physCopy_frame (x : Nat) (a b n : Nat) : dicCore (physCopy s a b n) x = dicCore s x := by
  simp [dicCore]
@[simp] theorem dicCore_setOwn_frame (x : Nat) (p : Nat) (w : W64) : dicCore (setOwn s p w) x = dicCore s x := by
  simp [dicCore]
@[simp] theorem dicCore_setCell_frame (x : Nat) (c : Nat) (v : Cell) : dicCore (setCell s c v) x = dicCore s x := by
  simp [dicCore]
@[simp] theorem dicCore_modCell_frame (x : Nat) (c : Nat) (f : Cell → Cell) : dicCore (modCell s c f) x = dicCore s x := by
  simp [dicCore]
@[simp] theorem dicCore_setSigCore_frame (x : Nat) (k : Nat) (v : SigCore) : dicCore (setSigCore s k v) x = dicCore s x := by
  simp [dicCore]
@[simp] theorem dicCore_modSigCore_frame (x : Nat) (k : Nat) (f : SigCore → SigCore) : dicCore (modSigCore s k f) x = dicCore s x := by
  simp [dicCore]
@[simp] theorem dicCore_modRadDie_frame (x : Nat) (d : Nat) (f : RadDie → RadDie) : dicCore (modRadDie s d f) x = dicCore s x := by
  simp [dicCore]
@[simp] theorem dicCore_setFhPort_frame (x : Nat) (p : Nat) (v : FhPort) : dicCore (setFhPort s p v) x = dicCore s x := by
  simp [dicCore]
@[simp] theorem dicCore_modFhPort_frame (x : Nat) (p : Nat) (f : FhPort → FhPort) : dicCore (modFhPort s p f) x = dicCore s x := by
  simp [dicCore]
@[simp] theorem dicCore_modVfPort_frame (x : Nat) (p : Nat) (f : VfPort → VfPort) : dicCore (modVfPort s p f) x = dicCore s x := by
  simp [dicCore]
@[simp] theorem dicCore_modTim_frame (x : Nat) (f : Tim → Tim) : dicCore (modTim s f) x = dicCore s x := by
  simp [dicCore]
@[simp] theorem dicCore_raise_frame (x : Nat) (e : ErrEvent) : dicCore (raise s e) x = dicCore s x := by
  simp [dicCore]
@[simp] theorem dicCore_msix_frame (x : Nat) (v : Nat) : dicCore (msix s v) x = dicCore s x := by
  simp [dicCore]

/-! ### Parts of the power and radio state -/

@[simp] theorem diePwr_setDomain (n x : Nat) (v : Domain) : diePwr (setDomain s n v) x = diePwr s x := rfl
@[simp] theorem diePwr_modDomain (n x : Nat) (f : Domain → Domain) : diePwr (modDomain s n f) x = diePwr s x := rfl
@[simp] theorem domain_setDiePwr (n x : Nat) (v : DiePwr) : domain (setDiePwr s n v) x = domain s x := rfl
@[simp] theorem slot_setEngine (e x y : Nat) (v : Engine) :
    slot (setEngine s e v) x y = if x = e then tget {} v.slots y else slot s x y := by
  by_cases h : x = e <;> simp [slot, h]
@[simp] theorem slot_modEngine (e x y : Nat) (f : Engine → Engine) :
    slot (modEngine s e f) x y = if x = e then tget {} (f (engine s e)).slots y else slot s x y := by
  simp [modEngine]
@[simp] theorem engine_setSlot (e i x : Nat) (v : Slot) : engine (setSlot s e i v) x =
    if x = e then { engine s e with slots := tset {} (engine s e).slots i v } else engine s x := by
  by_cases h : x = e <;> simp [setSlot, h]
@[simp] theorem engine_modSlot (e i x : Nat) (f : Slot → Slot) : engine (modSlot s e i f) x =
    if x = e then { engine s e with slots := tset {} (engine s e).slots i (f (slot s e i)) } else engine s x := by
  simp [modSlot]

/-! ### The last of two writes stays -/

@[simp] theorem setUnit_setUnit (u : Nat) (v w : UnitSt) : setUnit (setUnit s u v) u w = setUnit s u w := by
  simp [setUnit]
@[simp] theorem setEngine_setEngine (e : Nat) (v w : Engine) : setEngine (setEngine s e v) e w = setEngine s e w := by
  simp [setEngine]
@[simp] theorem setJob_setJob (h : Nat) (v w : Job) : setJob (setJob s h v) h w = setJob s h w := by
  simp [setJob]
@[simp] theorem setSleeve_setSleeve (k : Nat) (v w : Sleeve) : setSleeve (setSleeve s k v) k w = setSleeve s k w := by
  simp [setSleeve]
@[simp] theorem setDomain_setDomain (n : Nat) (v w : Domain) : setDomain (setDomain s n v) n w = setDomain s n w := by
  simp [setDomain]
@[simp] theorem setDiePwr_setDiePwr (d : Nat) (v w : DiePwr) : setDiePwr (setDiePwr s d v) d w = setDiePwr s d w := by
  simp [setDiePwr]
@[simp] theorem setHostCore_setHostCore (k : Nat) (v w : HostCore) : setHostCore (setHostCore s k v) k w = setHostCore s k w := by
  simp [setHostCore]
@[simp] theorem setDicSrc_setDicSrc (n : Nat) (v w : DicSrc) : setDicSrc (setDicSrc s n v) n w = setDicSrc s n w := by
  simp [setDicSrc]
@[simp] theorem setDicCore_setDicCore (n : Nat) (v w : DicCore) : setDicCore (setDicCore s n v) n w = setDicCore s n w := by
  simp [setDicCore]
@[simp] theorem setCell_setCell (c : Nat) (v w : Cell) : setCell (setCell s c v) c w = setCell s c w := by
  simp [setCell]
@[simp] theorem setSigCore_setSigCore (k : Nat) (v w : SigCore) : setSigCore (setSigCore s k v) k w = setSigCore s k w := by
  simp [setSigCore]
@[simp] theorem setFhPort_setFhPort (p : Nat) (v w : FhPort) : setFhPort (setFhPort s p v) p w = setFhPort s p w := by
  simp [setFhPort]
@[simp] theorem setRadDie_setRadDie (d : Nat) (v w : RadDie) : setRadDie (setRadDie s d v) d w = setRadDie s d w := by
  simp [setRadDie]
@[simp] theorem setVfPort_setVfPort (p : Nat) (v w : VfPort) : setVfPort (setVfPort s p v) p w = setVfPort s p w := by
  simp [setVfPort]

end Sys2Proof.Machine
end

