-- ==== Sys2Proof/Laws/Signal.lean ====
section
/-! SUPPORT. What the course of an instruction of the signal cores can do, and the lanes of a vector. -/

namespace Sys2Proof.Machine

/-- The test with which `coreRuns` decides that its core has come to the instruction. -/
theorem coreRuns_test (k : Nat) (c : Bool) (w : Option W32) (s : State) :
    (decide (k ≥ 64) || (sigCore s k).task.isNone || (sigCore s k).tended || w != some (fetched (sigCore s k)) ||
      ((sigCore s k).mode && !c)) = true ↔ ¬ CoreAt s k c w := by
  cases h : (sigCore s k).task <;> cases hm : (sigCore s k).mode <;> cases ht : (sigCore s k).tended <;> cases c <;>
    simp [h, hm, ht] <;>
    first | omega | grind

theorem coreRuns_not {k : Nat} {c : Bool} {w : Option W32} {chk : CoreCheck} {s : State} {b : State → Retire}
    (h : ¬ CoreAt s k c w) : coreRuns k c w chk s b = s := by
  simp only [coreRuns, (coreRuns_test k c w s).2 h, if_true]

theorem coreRuns_at {k : Nat} {c : Bool} {w : Option W32} {chk : CoreCheck} {s : State} {b : State → Retire}
    (h : CoreAt s k c w) : coreRuns k c w chk s b = match chk with
      | .ok => settle s k (b s)
      | .corrected => settle (countCorrected s k) k (b (countCorrected s k))
      | .replayPasses => settle (strike (countMismatch s k) (32 + k) 3 0xFFFF 0 0 false) k
          (b (strike (countMismatch s k) (32 + k) 3 0xFFFF 0 0 false))
      | .replayFails => abortTask (strike (countMismatch s k) (32 + k) 3 0xFFFF 0 0 true) k true
      | .storeEcc => modSigCore (coreEcc (fwRecord s k) k (0x030000000000 + (4 + coreDie k) * 0x10000000 + 0x40000 +
          0x8000 * (k % 32) + 4 * (sigCore s k).pc)) k fun x => { x with storeBad := true } := by
  have := mt (coreRuns_test k c w s).1 (not_not.2 h)
  simp only [coreRuns, this]
  cases chk <;> rfl

/-- The count of a corrected error leaves what decides whether the core has come to the instruction. -/
theorem coreAt_countCorrected {k : Nat} {c : Bool} {w : Option W32} {s : State} (h : CoreAt s k c w) :
    CoreAt (countCorrected s k) k c w := by
  simp only [CoreAt, countCorrected, fetched] at *
  simp only [sigCore_modSigCore, if_true]
  split <;> exact h

/-- A number made of 32-bit places holds at its place i the value given for it. -/
theorem places_at (f : Nat → W32) (n j i : Nat) (h : i < n) :
    ((List.range' j n).foldr (fun i a => a * 2 ^ 32 + (f i).toNat) 0) / 2 ^ (32 * i) % 2 ^ 32 = (f (j + i)).toNat := by
  induction n generalizing j i with
  | zero => omega
  | succ n ih =>
    rw [List.range'_succ, List.foldr_cons]
    cases i with
    | zero => simp only [Nat.mul_zero, Nat.pow_zero, Nat.div_one, Nat.add_zero]; have := (f j).isLt; omega
    | succ i =>
      have := (f j).isLt
      rw [show 32 * (i + 1) = 32 + 32 * i by omega, Nat.pow_add, ← Nat.div_div_eq_div_mul,
        show ∀ a : Nat, (a * 2 ^ 32 + (f j).toNat) / 2 ^ 32 = a by omega, ih (j + 1) i (by omega)]
      congr 2; omega

/-- Lane i of a vector made of lanes. -/
theorem lane_ofLanes (f : Nat → W32) (i : Nat) (h : i < 16) : lane (ofLanes f) i = f i := by
  apply BitVec.eq_of_toNat_eq
  have := places_at f 16 0 i h
  rw [Nat.zero_add] at this
  rw [← this, lane, ofLanes, BitVec.extractLsb'_toNat, BitVec.toNat_ofNat, Nat.shiftRight_eq_div_pow, List.range_eq_range']
  have e : (512 : Nat) = 32 * i + (512 - 32 * i) := by omega
  rw [e, Nat.pow_add, Nat.mod_mul_right_div_self, Nat.mod_mod_of_dvd]
  exact Nat.pow_dvd_pow 2 (by omega)

@[simp] theorem sigCore_coreStep (s : State) (k b j : Nat) (f : SigCore → SigCore) :
    sigCore (coreStep s k b f) j = if j = k then advancePc (retired (f (sigCore s k)) b (now s)) else sigCore s j := by
  simp only [coreStep, sigCore_modSigCore]; split <;> simp_all

end Sys2Proof.Machine
end

