-- ==== Sys2Proof/WellFormed.lean ====
section
/-! DEFINITION. Well-formed commands: operands that stand for something the manual has. A command that
is not well-formed changes nothing, or is answered as the manual answers a bad operand. -/

namespace Sys2Proof

/-- An engine 0–15 (R14) with one of its slots 0–4 (R118, R120). -/
def wfSlot (engine slot : Nat) : Bool := engine < 16 && slot < 5

/-- Windows 0–64 with slots 0–14, sleeves 1–63 (R361, R370). -/
def wfSrc : Src → Bool
  | .mailbox w i => w < 65 && i < 15
  | .subq k _ => 1 ≤ k && k < 64
  | .sideband _ => true
  | .fabric p _ _ => p < 16

/-- A Tacor command on a path that exists. -/
def wfCmd (c : Cmd) : Bool := wfSrc c.src

/-- Every numbered operand names something the device has: engines 0–15 and their slots, signal cores 0–63, domains
0–95 (R44), units 0–123 (R173, R394), seams 0–12, sleeves 0–63, cells 0–255 (R231), fronthaul ports 0–3 with rings 0–15
(R313), Voravatra ports 0–15, host cores 0–15 and their pairs 0–7 (R161), DIC targets 0–19 and sources 0–4095 (R379),
compare units 0–15 (R321), and the register and field ranges of the instruction words (R280, R282). -/
def Instr.wf (i : Instr) : Bool :=
  match i with
  | .powerUp | .coldBoot _ _ | .bootMboxGo _ _ _ | .cardReset _ | .refclkLost _ _ | .railFault _
  | .sagThrottle _ | .sagCleared | .nvmWriteInhibit | .nvmWriteResume | .brownOut | .thermalTrip _
  | .thermtripRelease | .sensorSample _ | .energyWindow _ | .tempSample _ _ | .throttleExit _
  | .releaseTick _ _ | .scrubFrames _ | .pageMoveDone _ | .cellFrameBoundary _ | .slotBoundary _ _ _ _ _
  | .eqpSjTailWrite _ _ | .eqpRptHeadWrite _ _ | .leasePeriodStart _ | .leaseCheckPoint _ | .leaseEndNoTacor
  | .laneEyeSample _ _ _ | .timeApplyTick | .tbsNtNsRead | .fhNtNsRead _ | .ppsInEdge | .ppsOutPulse _
  | .holdoverEnter | .holdoverExpire | .rawCopyCheck _ _ | .tacorWatchdog _ | .tacorRestartDone _ _
  | .tacorRestartLimit | .cxlMemRead _ _ | .cxlMemWrite _ _ | .cxlLinkDown _ | .cxlLinkUp _ _
  | .pasidEnableChange _ | .evtLostRead | .entdaa _ | .setEndpointId _ | .pldmDiscovery _
  | .pldmSensorRead _ _ | .setEventReceiver _ | .pollForPlatformEventMessage _ _
  | .platformEventMessageResponse _ | .uartStatus | .uartErrors | .uartIdentity | .uartOtherInput _
  | .errorRecord _ | .controllerStall _ _ | .controllerFault _ _ | .functionResetThreshold _ _
  | .healthScoreUpdate | .withdrawnEvaluation | .cleanMarkExpiry | .deferredDeviceReset | .bypass | .idcode
  | .samplePreload | .extest | .registerWrite _ _ _ | .slowChipReceived _ _ | .flashWriteDone _ => true
  | .sensorExclude domain _ | .paceEntryLoaded domain | .domainIdleOff domain | .domainVoltageFail domain
  | .energyMeterCheck domain _ _ | .paceFaultSet domain => domain < 96
  | .freePassStart engine slot _ | .chain engine slot _ | .wait engine slot _ | .waitSatisfied engine slot
  | .signal engine slot _ | .dmaIn engine slot _ _ | .dmaOut engine slot _ _ | .dmaCopy engine slot _ _
  | .dmaComplete engine slot _ | .add engine slot _ | .sub engine slot _ | .mul engine slot _
  | .fma engine slot _ | .div engine slot _ | .sqrt engine slot _ | .max engine slot _ | .min engine slot _
  | .rint engine slot _ | .scaleb engine slot _ | .convert engine slot _ | .exp engine slot _
  | .log engine slot _ | .sigmoid engine slot _ | .silu engine slot _ | .tanh engine slot _
  | .gelu engine slot _ | .rsqrt engine slot _ | .framesum engine slot _ | .framedot engine slot _
  | .softmax engine slot _ | .layernorm engine slot _ | .rmsnorm engine slot _ | .quantMx engine slot _
  | .contextStall engine slot | .stallReplayDone engine slot _ | .stallNoReferee engine slot
  | .ringTailWrite engine slot _ _ => wfSlot engine slot
  | .passBoundary engine _ | .passFault engine _ | .engineHang engine | .scrubPocket engine _
  | .engineStall engine => engine < 16
  | .refereeStaging suspect referee => suspect < 124 && referee < 124
  | .refereeTimeout suspect | .refereePassDone suspect _ | .locatingReplayDone suspect _ => suspect < 124
  | .strikeCountConfirm unit | .fittingStart unit _ _ | .fittingPeriodEnd unit | .fittingDone unit _ _
  | .fenceClearanceDone unit | .engineResetThreshold unit => unit < 124
  | .lockstepMismatch pair _ => pair < 8
  | .seamFlitCrcError seam _ _ _ | .seamLaneRepair seam _ _ => seam < 13
  | .jobSubmit cmd | .jobStatus cmd | .jobCancel cmd | .seqJoin cmd | .seqLeave cmd | .snapshotBegin cmd
  | .snapshotStatus cmd | .snapshotRestore cmd | .sleeveCreate cmd | .sleeveSet cmd | .sleeveHostRange cmd
  | .sleeveQuiesce cmd | .sleeveResume cmd | .sleeveReset cmd | .sleeveRemove cmd | .sleeveStatus cmd
  | .pagesAlloc cmd | .pagesFree cmd | .sleeveDirtyStart cmd | .sleeveDirtyRead cmd | .sleeveDirtyStop cmd
  | .sleeveExport cmd | .sleeveImport cmd | .sleeveAccountRead cmd | .cellConfig cmd | .cellStart cmd
  | .cellStop cmd | .cellMoveOut cmd | .cellMoveIn cmd | .leasePlan cmd | .leaseCeilingSet cmd
  | .radioStatus cmd | .fhPortConfig cmd | .fhFlowSet cmd | .fhEgressSet cmd | .fhGateList cmd
  | .fhPortRestore cmd | .fhPortStatus cmd | .timeConfig cmd | .timeRate cmd | .timeStep cmd | .timeLock cmd
  | .timeRead cmd | .fabricConfig cmd | .fabricRouteSet cmd | .fabricJobMap cmd | .fabricSink cmd
  | .fabricTeardown cmd | .fabricDeviceLost cmd | .fabricStatus cmd | .fabricPortRestore cmd
  | .reservedCommand _ cmd | .mgmtStatus cmd | .hcLoad cmd | .hcStop cmd | .hcStatus cmd | .dicRouteSet cmd
  | .dicStatus cmd | .sidebandUpload cmd | .telemetryRead cmd | .healthStatus cmd | .healthLogRead cmd
  | .healthConfig cmd | .healthClockSet cmd | .healthSeed cmd | .healthUnitConfirm cmd | .healthUnitClear cmd
  | .healthDieClear cmd | .healthReinstate cmd | .healthShutdown cmd | .healthDeviceReset cmd
  | .pwrCapSet cmd | .pwrGuardSet cmd | .pwrThermalSet cmd | .pwrDomainRead cmd | .fittingLoad cmd
  | .fittingStatus cmd | .fittingRun cmd | .candidateRead cmd | .candidateFree cmd | .liningLogRead cmd
  | .bootStatus cmd | .bootConfigRead cmd | .bootConfigSet cmd | .bootImageUpdate cmd
  | .bootRollbackCommit cmd | .attest cmd | .attestKeyRead cmd | .idRead cmd => wfCmd cmd
  | .loweringDone job _ _ | .jobPlaced job _ | .stepBoundary job _ | .jobHoldRelease job
  | .cadenceRelease job | .snapshotDrainDone job _ | .teardownDrainDone job | .teardownTimeout job
  | .put job _ | .get job _ | .addI64 job _ | .minI64 job _ | .maxI64 job _ | .addF32 job _ | .minF32 job _
  | .maxF32 job _ | .addF64 job _ | .minF64 job _ | .maxF64 job _ | .cas64 job _ | .cas128 job _
  | .anchorMin job _ | .anchorMax job _ | .scaleMax job _ | .sumWide job _ | .sumI64 job _
  | .collectiveMinI64 job _ | .collectiveMaxI64 job _ | .barrier job _ | .barrierTimeout job => job < 65536
  | .quiesceComplete sleeve | .quiesceTimeout sleeve | .sqTailWrite sleeve _ | .cqHeadWrite sleeve _
  | .fqHeadWrite sleeve _ | .doorbellStateRead sleeve | .fqLostRead sleeve | .submissionFetch sleeve _ _
  | .dicDoorbell sleeve _ => sleeve < 64
  | .harqCarrySend cell | .harqCarryLanded cell _ _ | .moveJob0Close cell => cell < 256
  | .taskStart core entry _ _ _ _ _ _ _ _ => core < 64 && entry < 8192
  | .vmac core acc va vb _ _ _ _ => core < 64 && acc < 4 && va < 32 && vb < 32
  | .tapmov core acc vw vc k _ _ _ => core < 64 && acc < 4 && vw < 32 && vc < 32 && k < 16
  | .vext core vd acc sh _ _ _ => core < 64 && vd < 32 && acc < 4 && sh < 40
  | .vld core vd p _ _ _ => core < 64 && vd < 32 && p < 8
  | .vst core vs p _ _ _ => core < 64 && vs < 32 && p < 8
  | .vld2 core vd pa pb _ _ _ => core < 64 && vd < 32 && pa < 8 && pb < 8
  | .vst2 core vs pa pb _ _ _ => core < 64 && vs < 32 && pa < 8 && pb < 8
  | .qpush core vs sd queue _ => core < 64 && vs < 32 && sd < 32 && queue < 32
  | .waitc core p sv _ => core < 64 && p < 8 && sv < 32
  | .tend core _ _ _ | .fl5Instruction core _ _ _ | .illegalInstruction core _ | .scStall core
  | .channelEstimation core _ | .equalisation core _ | .srsChannelEstimation core _ | .ldpcEncode core _ _
  | .polarDecode core _ | .polarEncode core _ | .reedMullerDecode core _ | .sequenceDetection core _
  | .precoding core _ | .weightAttachment core _ | .weightComputation core _ | .uplaneSymbol core _
  | .localDmaCopy core _ => core < 64
  | .vadd core vd va vb _ _ | .vsub core vd va vb _ _ | .vmul core vd va vb _ _ | .vmax core vd va vb _ _
  | .vmin core vd va vb _ _ | .vsat8 core vd va vb _ _ | .vllradd core vd va vb _ => core < 64 && vd < 32 && va < 32 && vb < 32
  | .vconj core vd va _ _ | .vpow core vd va _ => core < 64 && vd < 32 && va < 32
  | .vsel core vd va vb sm _ => core < 64 && vd < 32 && va < 32 && vb < 32 && sm < 32
  | .vperm core vd va vi _ => core < 64 && vd < 32 && va < 32 && vi < 32
  | .vscr core vd va vs _ _ => core < 64 && vd < 32 && va < 32 && vs < 32
  | .vgold core vd vg _ => core < 64 && vd < 32 && vg < 32
  | .vcrc core sc va poly _ _ => core < 64 && sc < 32 && va < 32 && poly < 6
  | .vqam core vd va qm _ => core < 64 && vd < 32 && va < 32 && qm < 32
  | .sadd core sd sa sb _ | .ssub core sd sa sb _ => core < 64 && sd < 32 && sa < 32 && sb < 32
  | .sli core sd _ _ => core < 64 && sd < 32
  | .smovp core sreg p _ _ => core < 64 && sreg < 32 && p < 8
  | .loop core _ sn stop _ => core < 64 && sn < 32 && stop < 8192
  | .br core _ _ target _ => core < 64 && target < 8192
  | .scmp core cond sa sb _ => core < 64 && cond < 6 && sa < 32 && sb < 32
  | .vlds core sd p _ _ _ => core < 64 && sd < 32 && p < 8
  | .vsts core ss p _ _ _ => core < 64 && ss < 32 && p < 8
  | .qpop core sd queue _ => core < 64 && sd < 32 && queue < 32
  | .instructionStoreWrite core index _ => core < 64 && index < 8192
  | .ldpcDecode core _ engine _ => core < 64 && engine < 16
  | .frameReceived port _ _ _ _ | .threeLaneLinkUp port | .threeLaneTimeout port | .fhLinkRetry port _
  | .egressFrameStart port | .gateEntryChange port | .gateListSwitch port => port < 4
  | .laneDrop port lane | .lossOfSignal port lane | .laneSignalRestored port lane => port < 4 && lane < 4
  | .txRingPoll port ring => port < 4 && ring < 16
  | .compareArm cmp _ | .compareFire cmp => cmp < 16
  | .putPacket port _ | .getReq port _ | .getData port _ | .atomicPacket port _ | .atomicResp port _
  | .ack port _ | .nack port _ | .barrierArrive port _ | .barrierRelease port _ | .coll port _
  | .linkReplayRequest port _ | .fabricPortDown port | .fabricLinkRetry port _ => port < 16
  | .ackTimeout device | .linkTimeout device => device < 512
  | .fabricLaneDrop port lane => port < 16 && lane < 4
  | .mailboxPost window slot _ _ _ => window < 65 && slot < 15
  | .telemetryDrop src => wfSrc src
  | .hcExitCall core _ | .hostCoreStall core | .hostCoreAccess core _ _ => core < 16
  | .dicDelivery target | .dicEoi target _ => target < 20
  | .dicSrcRead source => source < 4096
  | .acceleratorStall die unit => die < 8 && unit < 9

end Sys2Proof
end

