-- ==== Sys2Proof/Tests/Slice0.lean ====
section
/-! SUPPORT. Tests of the model: for every statement a witness that meets its hypotheses, clause by clause; an ill-formed
operand for each check of WellFormed; and the worked examples of the spec. -/

set_option Elab.async false
set_option maxRecDepth 20000

namespace Sys2Proof.Tests

open Sys2Proof.Machine

/-! ### States and operands of the witnesses -/

/-- A booted device: Tacor RUNNING, the CXL link up, sleeve 1 ACTIVE and sleeve 2 QUIESCED, page 1 of sleeve 1 in frame
0 of MD0's stack with every permission, job 5 of sleeve 1 RUNNING. -/
def up : State :=
  { boot := { phase := .booted }, mgt := { tacor := 1, cxlUp := true, stageBase := 0x100000, stageLen := 0x100000 }
    slv := [(1, { st := .active, record := [0x0404000000001001, 0, 0, 0, 0, 0, 0, 0] }), (2, { st := .quiesced })]
    pkg := { owner := [(1, ownPack 1 5 0 15 false 1 true 0)] }
    jobs := [(5, { st := .running, owner := 1 })] }

/-- A command of the manager, of the BMC, of radio firmware, of a tenant, and of the fabric manager. -/
def mc (ws : List W64) : Cmd := { src := .mailbox 0 0, args := ws }
def bc (ws : List W64) : Cmd := { src := .sideband 1, args := ws }
def rc (ws : List W64) : Cmd := { src := .mailbox 64 14, args := ws }
def tc (k : Nat) (ws : List W64) : Cmd := { src := .mailbox k 0, args := ws }

/-- A context of job 5 at work in slot 0 of engine 0. -/
def ctx : Slot :=
  { valid := true, sleeve := 1, size := 29, job := 5, fring := { entries := 3, addr := 65536, tail := 1 }
    dring := { entries := 3, addr := 65536, tail := 1 }, ering := { entries := 3, addr := 65536, tail := 1 } }

/-- `up` with a context in slot 0 of engine 0. -/
def withCtx (x : Slot) : State := { up with eng := [(0, { slots := [(0, x)] })] }

/-- The same with the engine awake, and a descriptor at the rings' first entry, page 1. -/
def atRing (x : Slot) (d : List W64) : State :=
  { physWrite up (windowKey up 65536) (bytesOf d) with
    eng := [(0, { slots := [(0, x)] })], pwr := { domains := (engineDomains 0).map fun n => (n, { on := true }) } }

/-- `up` with job 5 changed, with a unit, with a domain, with a signal core. -/
def withJob (j : Job) : State := { up with jobs := [(5, j)] }
def withUnit (u : Nat) (x : UnitSt) : State := { up with lin := { units := [(u, x)] } }
def withDomain (n : Nat) (x : Domain) : State := { up with pwr := { domains := [(n, x)] } }

/-- A chain descriptor of one FP8 tile; a WAIT, a SIGNAL, a DMA and an element-engine descriptor. -/
def chainD (w0 : W64) : List W64 := [w0, 0, 0, 0, 0, 0x0001000100000000, 0, 0, 0, 0, 0, 0, 0, 0, 0, 0]
def first16 (w0 w1 w2 : W64) : List W64 := [w0, w1, w2, 0, 0, 0, 0, 0, 0, 0, 0, 0, 0, 0, 0, 0]
def dmaD (w0 w1 w3 : W64) : List W64 := [w0, w1, 0, w3, 0, 0, 0, 0]
def elemD (w0 : W64) : List W64 := [w0, 0, 0, 0, 0, 0, 0, 0]

/-- The next state of an outcome. -/
def nx : Host.Outcome State Fault Refusal → State
  | .next t => t
  | _ => {}

/-- The state that an access gives. -/
def got {ε : Type} : Except ε State → State
  | .ok t => t
  | .error _ => {}
def taken : Option (State × List Nat) → State
  | some t => t.1
  | none => {}

/-- Sleeve 1 ACTIVE with a quota of one page of each kind and a host range. -/
def quota1 : State :=
  { up with slv := [(1, { st := .active, record := [0, 0x0000010000010000], ranges := [(0, (0, 0x100000))] }), (2, { st := .quiesced })], pkg := { density := [16, 16, 16, 16], bondedOk := [true, true, true, true] } }

/-- Sleeve 1 ACTIVE with queues of four entries in a host range; sleeve 0's page 2; a host core of job 5. -/
def queues1 : State :=
  { up with slv := [(1, { st := .active, record := [0, 0, 0, 0, 0, 0x0003000300030000, 0, 0], ranges := [(0, (0, 0x100000))], sqTail := 1 })] }
def withCore : State := { up with mgt := { up.mgt with hc := [(3, { loaded := true, sleeve := 1, handle := 5 })] } }
def firmware : State := { up with boot := { phase := .booted, radioFw := true, config := [0, 0xFFFF0000] } }
def issuer5 : Issuer := { sleeve := 1, job := 5 }

/-- Signal core k with a task that has come to a word, its pointers 0. -/
def sigAt (k : Nat) (w : Option W32) : State :=
  { up with rad := { cores := [(k, {
      task := some { entry := 0, mode := false, s1 := 0, s2 := 0, s3 := 0, s4 := 0, seqs := 0, job := 0 }
      store := [(0, w.getD 0)] })] } }

/-- A cell's record that R231 accepts: type 1, pattern 1. -/
def cellRec : List W64 := [0x0004880840000000, 0x0000012C00320008, 0, 0x0014000000000000, 0, 0, 0, 0]

/-- A cell 0, time LOCKED. -/
def withCell (x : Cell) : State :=
  { up with rad := { cells := [(0, x)], dies := [(0, { sc := 32, dec := 4, enc := 2 })] }
            tim := { state := 2 }
            pkg := { density := [16, 16, 16, 16] } }

/-- Device 0 configured on the fabric: port 2 up and home of device 3, chip map 9 of job 5 with chips 0 and 3. -/
def fabMap : ChipMap := { num := 9, fgen := 2, sleeve := 1, devs := [0, 3], handle := 5 }
def fabS : State :=
  { up with fab := { configured := true, ports := [(2, { up := true })], routes := [(3, some 2)], maps := [fabMap] } }

/-- A fabric descriptor of KIND and OPC toward chip 1, of LEN bytes of page 1. -/
def fabD (kind opc len : Nat) : List W64 :=
  [pack 64 [(60, kind), (56, opc), (41, 1)], 0x0000000100000000, 0x0000000100000000, pack 64 [(32, len)], 0, 0, 0, 0]

/-- A packet of chip 1 (device 3) for job 9. -/
def pk (typ addr : Nat) (w3 : List (Nat × Nat)) (bs : List Byte) (seq : Nat) : Packet :=
  stampPacket (mkPacket { fab := { dev := 3 } } typ 0 1 9 2 addr w3 bs) seq false

/-- A tracked packet toward device 3, and a pair with it. -/
def trk : Track := { seq := 0, packet := mkPacket fabS 1 3 0 9 2 65536 [] [1], first := 0, job := 5 }
def withPair (x : Pair) : State := { fabS with fab := { fabS.fab with pairs := [(3, x)] } }

/-- The state of an answer. -/
def ansState : Answer → State
  | .ok t _ => t
  | _ => {}

/-- A fitting set of one entry, of a class; a fitting without operands, and the digest of an empty result. -/
def setOf (cls : Nat) : List Byte :=
  [1] ++ List.replicate 63 0 ++ leBytes 8 (cls * 2 ^ 28) ++ List.replicate 248 0
def fitC : FitCur := { set := 0, fitting := 1, expected := fitDigest up 123 { set := 0, fitting := 1, expected := [] } {} }

/-- A flit of zeros with its CRC-64. -/
def goodFlit : List Byte := List.replicate 248 0 ++ leBytes 8 (crc64 (List.replicate 248 0))

theorem recordsBounded_up : RecordsBounded up :=
  ⟨fun _ => Nat.zero_le 256, by decide +kernel⟩

/-- The hypotheses of ResetEventsComplete, met. -/
theorem witness_ResetEventsComplete :
    (∃ s : State, s.boot.phase = .held ∧ s.pins.thermtrip = false) ∧
    (∃ n : Nat, ∃ s : State, 156 ≤ n ∧ Up s) ∧
    (∃ ns : Nat, ∃ ppm : Nat, ∃ s : State, (100 ≤ ns ∨ 1000 < ppm) ∧ Up s) ∧
    (∃ ns : Nat, ∃ ppm : Nat, ∃ s : State, (100 ≤ ns ∨ 1000 < ppm) ∧ Up s) ∧
    (∃ r : Rail, ∃ s : State, Up s) ∧
    (∃ s : State, Up s) ∧
    (∃ tj : Nat, ∃ s : State, 110 ≤ tj ∧ Up s) ∧
    (∃ s : State, s.pins.thermtrip = true) ∧
    (∃ s : State, s.pins.thermtrip = false ∧ s.pins.railsOk = true ∧ s.boot.phase = .held) :=
  ⟨⟨{}, by decide +kernel⟩, ⟨156, up, by decide +kernel⟩, ⟨100, 0, up, by decide +kernel⟩, ⟨0, 1001, up,
    by decide +kernel⟩, ⟨.serdes0v9, up, by decide +kernel⟩, ⟨up, by decide +kernel⟩, ⟨110, up, by decide +kernel⟩,
    ⟨{ pins := { thermtrip := true } }, by decide +kernel⟩, ⟨{ pins := { railsOk := true } }, by decide +kernel⟩⟩

/-- The hypotheses of SagEventsComplete, met. -/
theorem witness_SagEventsComplete :
    (∃ mv : Nat, ∃ s : State, Up s ∧ s.pwr.sag = false ∧ mv < 1760) ∧
    (∃ s : State, s.pwr.sag = true) ∧
    (∃ s : State, Up s) ∧
    (∃ s : State, s.boot.phase = .booted ∧ s.pwr.inhibit = true) :=
  ⟨⟨1759, up, by decide +kernel⟩, ⟨{ up with pwr := { sag := true } }, by decide +kernel⟩, ⟨up, by decide +kernel⟩,
    ⟨{ up with pwr := { inhibit := true } }, by decide +kernel⟩⟩

/-- The hypotheses of BootEventsComplete, met. -/
theorem witness_BootEventsComplete :
    (∃ flash : List Byte, ∃ o : BootObs, ∃ s : State, s.boot.phase = .released ∧ o.coreRailOk = true) ∧
    (∃ o : BootObs, ∃ s : State, s.boot.phase = .released ∧ o.coreRailOk = true) ∧
    (∃ flash : List Byte, ∃ s : State, s.boot.flash = some []) ∧
    (∃ flash : List Byte, ∃ s : State, ∃ cause : Option Nat, s.boot.update.isSome = true) ∧
    (∃ d : Nat, d < 8) ∧
    (∃ image : List Byte, ∃ o : BootObs, ∃ s : State, s.boot.phase = .waitingImage ∧ s.mgt.cxlUp = true) ∧
    (∃ s : State, s.pins.railsOk = true) ∧
    (∃ s : State, s.pins.railsOk = true ∧ s.pins.cardResetN = true) ∧
    (∃ s : State, s.pins.railsOk = true ∧ s.pins.cardResetN = false) :=
  ⟨⟨[], {}, { boot := { phase := .released } }, by decide +kernel⟩, ⟨{}, { boot := { phase := .released } },
    by decide +kernel⟩, ⟨[], { boot := { flash := some [] } }, by decide +kernel⟩, ⟨[],
    { boot := { update := some ([1], .mailbox 0 3) } }, none, by decide +kernel⟩, ⟨6, by decide +kernel⟩, ⟨[], {},
    { boot := { phase := .waitingImage }, mgt := { cxlUp := true } }, by decide +kernel⟩,
    ⟨{ pins := { railsOk := true } }, by decide +kernel⟩, ⟨{ pins := { railsOk := true } }, by decide +kernel⟩,
    ⟨{ pins := { railsOk := true, cardResetN := false } }, by decide +kernel⟩⟩

/-- The hypotheses of SensorEventsComplete, met. -/
theorem witness_SensorEventsComplete :
    (∃ r : DomainReading, ∃ s : State, Up s ∧ r.domain < 96 ∧ sensorCount r.domain ≠ 0 ∧ r.readings.length =
      sensorCount r.domain) ∧
    (∃ rs : List DomainReading, ∃ s : State, Up s) ∧
    (∃ n : Nat, ∃ i : Nat, ∃ s : State, n < 96 ∧ i ∉ (domain s n).excluded ∧ 10 ≤ tget 0 (domain s n).deviation i ∧
      (domain s n).excluded.length < 2) ∧
    (∃ n : Nat, ∃ i : Nat, ∃ s : State, n < 96 ∧ i ∉ (domain s n).excluded ∧ 10 ≤ tget 0 (domain s n).deviation i ∧ 2
      ≤ (domain s n).excluded.length ∧ (domain s n).sensorFault = false) ∧
    (∃ n : Nat, ∃ s : State, 100 ≤ (domain s n).below.length ∧ 50 ≤ ((domain s n).below.filter id).length ∧ (domain s
      n).belowAt = (domain s n).vindex ∧ belowTable (domain s n) (domain s n).live = true) ∧
    (∃ n : Nat, ∃ s : State, n < 96 ∧ (domain s n).paceFault = false ∧ 3 ≤ ((domain s n).lates.filter fun t => decide
      (since s t ≤ ticksPerS)).length) ∧
    (∃ n : Nat, ∃ tj : Nat, ∃ s : State, Up s ∧ n < 96) ∧
    (∃ d : Nat, ∃ s : State, d < 8 ∧ (diePwr s d).level = 3 ∧ leavable s d 3 = true ∧ leavable s d 2 = false) ∧
    (∃ d : Nat, ∃ s : State, d < 8 ∧ (diePwr s d).level = 1 ∧ leavable s d 1 = true) ∧
    (∃ n : Nat, ∃ e : Nat, ∃ s : State, domainEngine n = some e ∧ isPocketDomain n = false ∧ engineIdle s e = true) ∧
    (∃ n : Nat, ∃ s : State, n < 95 ∧ Up s ∧ domainClass n ≠ .i ∧ domainClass n ≠ .f ∧ (domain s n).retried = false) ∧
    (∃ n : Nat, ∃ s : State, n < 64 ∧ n % 16 < 12 ∧ Up s ∧ (domain s n).retried = true) ∧
    (∃ n : Nat, ∃ m : Nat, ∃ r : Nat, ∃ s : State, n < 96 ∧ Up s ∧ r < 10 * (m - r)) :=
  ⟨⟨{ domain := 0, readings := [1, 2, 3, 4, 5, 6, 7, 8], active := true }, up, by decide +kernel⟩, ⟨[], up,
    by decide +kernel⟩, ⟨95, 0, withDomain 95 { deviation := [(0, 10)], excluded := [1] }, by decide +kernel⟩, ⟨0, 3,
    withDomain 0 { deviation := [(3, 10)], excluded := [1, 2] }, by decide +kernel⟩, ⟨0, withDomain 0
    { below := List.replicate 100 true, table := [(0, { pace := 1, tag := 1 })] }, by decide +kernel⟩, ⟨0, withDomain
    0 { lates := [0, 0, 0] }, by decide +kernel⟩, ⟨0, 95, up, by decide +kernel⟩, ⟨7,
    { up with pwr := { dies := [(7, { level := 3, clear := [0, 0, 10] })] } }, by decide +kernel⟩, ⟨0,
    { up with pwr := { dies := [(0, { level := 1, clear := [10, 0, 0] })] } }, by decide +kernel⟩, ⟨0, 0, up,
    by decide +kernel⟩, ⟨0, up, by decide +kernel⟩, ⟨0, withDomain 0 { retried := true }, by decide +kernel⟩, ⟨95, 1,
    0, up, by decide +kernel⟩⟩

/-- The hypotheses of EnergyWindowSetsBudget, met. -/
theorem witness_EnergyWindowSetsBudget :
    (∃ o : EnergyObs, ∃ s : State, s.boot.phase = .booted) ∧
    (∃ o : EnergyObs, ∃ a : Active, ∃ s : State, s.boot.phase = .booted ∧ s.pwr.active = [a] ∧ 1 ≤ a.sleeve ∧
      a.sleeve ≤ 63 ∧ (sleeve s a.sleeve).st ≠ .absent ∧ a.job ≠ 0 ∧ (job s a.job).gen = a.gen ∧ (domainEngine
      a.domain).isSome = true) :=
  ⟨⟨{}, up, by decide +kernel⟩, ⟨{ draws := [(0, 7)] },
    { domain := 0, sleeve := 1, job := 5, gen := 0, radio := false, beats := 1, est := 0 },
    { up with pwr := { windows := 1, active := [{ domain := 0, sleeve := 1, job := 5, gen := 0, radio := false, beats := 1, est := 0 }] } },
    by decide +kernel⟩⟩

/-- The hypotheses of PowerCommandsComplete, met. -/
theorem witness_PowerCommandsComplete :
    (∃ c : Cmd, ∃ s : State, Served 0x280 1 isManager c s ∧ 250 ≤ argN c 0 ∧ argN c 0 ≤ 700 ∧ s.pwr.fixed +
      s.pwr.precharge + 10 ≤ argN c 0) ∧
    (∃ c : Cmd, ∃ s : State, Served 0x280 1 isManager c s ∧ 250 ≤ argN c 0 ∧ argN c 0 ≤ 700 ∧ s.pwr.fixed +
      s.pwr.precharge + 10 ≤ argN c 0) ∧
    (∃ c : Cmd, ∃ s : State, Served 0x281 2 isManager c s ∧ argN c 0 ≤ 2 ∧ 60 ≤ argN c 1 ∧ argN c 1 ≤ 200) ∧
    (∃ c : Cmd, ∃ s : State, Served 0x281 2 isManager c s ∧ argN c 0 ≤ 2 ∧ 60 ≤ argN c 1 ∧ argN c 1 ≤ 200) ∧
    (∃ c : Cmd, ∃ s : State, Served 0x282 2 isManager c s ∧ 80 ≤ argN c 0 ∧ argN c 0 ≤ 95 ∧ 90 ≤ argN c 1 ∧ argN c 1
      ≤ 100 ∧ argN c 0 + 5 ≤ argN c 1) ∧
    (∃ c : Cmd, ∃ s : State, Served 0x282 2 isManager c s ∧ 80 ≤ argN c 0 ∧ argN c 0 ≤ 95 ∧ 90 ≤ argN c 1 ∧ argN c 1
      ≤ 100 ∧ argN c 0 + 5 ≤ argN c 1) ∧
    (∃ c : Cmd, ∃ s : State, Served 0x283 1 isManager c s ∧ argN c 0 ≤ 95) :=
  ⟨⟨mc [250], up, by decide +kernel⟩, ⟨mc [700], up, by decide +kernel⟩, ⟨mc [0, 60], up, by decide +kernel⟩, ⟨mc [2,
    200], up, by decide +kernel⟩, ⟨mc [80, 90], up, by decide +kernel⟩, ⟨mc [95, 100], up, by decide +kernel⟩, ⟨mc
    [95], up, by decide +kernel⟩⟩

/-- The hypotheses of SeamAndMoveEventsComplete, met. -/
theorem witness_SeamAndMoveEventsComplete :
    (∃ n : Nat, ∃ dir : Nat, ∃ flit : List Byte, ∃ buffer : List (List Byte), ∃ s : State, n < 13 ∧ dir < 2 ∧ Up s ∧
      flitGood flit = false ∧ buffer ≠ []) ∧
    (∃ n : Nat, ∃ dir : Nat, ∃ flit : List Byte, ∃ buffer : List (List Byte), ∃ s : State, n < 13 ∧ dir < 2 ∧ Up s ∧
      flitGood flit = true ∧ ((seamSt s n).owed dir = [] ∨ ((seamSt s n).owed dir).head? = some flit)) ∧
    (∃ n : Nat, ∃ dir : Nat, ∃ flit : List Byte, ∃ buffer : List (List Byte), ∃ s : State, n < 13 ∧ dir < 2 ∧ Up s ∧
      flitGood flit = true ∧ ((seamSt s n).owed dir = [] ∨ ((seamSt s n).owed dir).head? = some flit)) ∧
    (∃ n : Nat, ∃ dir : Nat, ∃ flit : List Byte, ∃ g : List Byte, ∃ gs : List (List Byte), ∃ buffer : List (List
      Byte), ∃ s : State, n < 13 ∧ dir < 2 ∧ Up s ∧ flitGood flit = true ∧ (seamSt s n).owed dir = g :: gs ∧ g ≠
      flit) ∧
    (∃ n : Nat, ∃ m : Nat, ∃ lane : Nat, ∃ dir : Nat, ∃ s : State, n < 13 ∧ m < seamModules n ∧ lane < 64 ∧ Up s ∧
      (seamSt s n).failed = false ∧ 8 ≤ tget 0 (seamSt s n).replays dir ∧ tget 0 (seamSt s n).spares m < 2) ∧
    (∃ n : Nat, ∃ m : Nat, ∃ lane : Nat, ∃ dir : Nat, ∃ s : State, n < 13 ∧ m < seamModules n ∧ lane < 64 ∧ Up s ∧
      (seamSt s n).failed = false ∧ 8 ≤ tget 0 (seamSt s n).replays dir ∧ 2 ≤ tget 0 (seamSt s n).spares m) ∧
    (∃ m : Move, ∃ s : State, s.pkg.moves.find? (fun x => x.page == m.page) = some m) ∧
    (∃ m : Move, ∃ s : State, s.pkg.moves = [m] ∧ s.pkg.waiters = [] ∧ m.loc < 4 ∧ m.frame < 2 ^ 24) :=
  ⟨⟨12, 1, [], [[0]], up, by decide +kernel⟩, ⟨12, 1, goodFlit, [], up, by decide +kernel⟩, ⟨12, 1, goodFlit, [],
    { up with pkg := { seams := [(12, { resend := [(1, [goodFlit])], replays := [(1, 3)] })] } }, by decide +kernel⟩,
    ⟨12, 1, goodFlit, [0], [], [], { up with pkg := { seams := [(12, { resend := [(1, [[0]])] })] } },
    by decide +kernel⟩, ⟨12, 1, 63, 1,
    { up with pkg := { seams := [(12, { replays := [(1, 8)], spares := [(1, 1)] })] } }, by decide +kernel⟩, ⟨12, 1,
    63, 1, { up with pkg := { seams := [(12, { replays := [(1, 8)], spares := [(1, 2)] })] } }, by decide +kernel⟩,
    ⟨{ page := 1, loc := 2, frame := 0, oldLoc := 1, oldFrame := 0 },
    { up with pkg := { moves := [{ page := 1, loc := 2, frame := 0, oldLoc := 1, oldFrame := 0 }] } },
    by decide +kernel⟩, ⟨{ page := 1, loc := 2, frame := 0, oldLoc := 1, oldFrame := 0 },
    { up with pkg := { moves := [{ page := 1, loc := 2, frame := 0, oldLoc := 1, oldFrame := 0 }] } },
    by decide +kernel⟩⟩

/-- The hypotheses of PassesStart, met. -/
theorem witness_PassesStart :
    (∃ e : Nat, ∃ i : Nat, ∃ p : Nat, ∃ n : Nat, ∃ d : List W64, ∃ s : State, nextPass (slot s e i) = some (d, p, n)
      ∧ (slot s e i).paced = true ∧ engineStops s e = false ∧ i < 4 ∧ tenantOk s e i = true ∧ beforeLease s e
      (passBeats d) = true ∧ (slot s e i).tickBack = false) ∧
    (∃ e : Nat, ∃ s : State, (nextPass (slot s e 4)).isSome = true ∧ (slot s e 4).paced = true ∧ engineStops s e =
      false ∧ (engine s e).leased = true ∧ slotRuns s e 4 = true) ∧
    (∃ e : Nat, ∃ i : Nat, ∃ b : Bool, ∃ s : State, i ≠ 4 ∧ (slot s e i).tickBack = true) ∧
    (∃ n : Nat, ∃ s : State, n < 96 ∧ domainClass n = .s) ∧
    (∃ e : Nat, ∃ i : Nat, ∃ beats : Nat, ∃ p : Nat, ∃ n : Nat, ∃ d : List W64, ∃ s : State, nextPass (slot s e i) =
      some (d, p, n) ∧ e < 16 ∧ engineStops s e = false ∧ (chooseTenant s e).1 = some i ∧ passBeats d ≤ beats ∧
      beforeLease s e (passBeats d) = true) ∧
    (∃ e : Nat, ∃ i : Nat, ∃ p : Nat, ∃ n : Nat, ∃ d : List W64, ∃ s : State, nextPass (slot s e i) = some (d, p, n)
      ∧ passInside (slot s e i) d p n = true ∧ engineAwake s e = true) ∧
    (∃ e : Nat, ∃ i : Nat, ∃ p : Nat, ∃ n : Nat, ∃ d : List W64, ∃ s : State, nextPass (slot s e i) = some (d, p, n)
      ∧ passInside (slot s e i) d p n = true ∧ engineAwake s e = true ∧ p ≠ 1) ∧
    (∃ e : Nat, ∃ i : Nat, ∃ p : Nat, ∃ n : Nat, ∃ d : List W64, ∃ s : State, nextPass (slot s e i) = some (d, p, n)
      ∧ passInside (slot s e i) d p n = true ∧ engineAwake s e = false) ∧
    (∃ e : Nat, ∃ i : Nat, ∃ p : Nat, ∃ n : Nat, ∃ d : List W64, ∃ s : State, nextPass (slot s e i) = some (d, p, n)
      ∧ passInside (slot s e i) d p n = false) :=
  ⟨⟨0, 0, 3, 0, chainD 0x1C06060C0A001F00, withCtx
    { ctx with paced := true, run := some { desc := chainD 0x1C06060C0A001F00, phases := [3] } }, by decide +kernel⟩,
    ⟨0,
    { up with eng := [(0, { leased := true, slots := [(4, { ctx with job := 0, sleeve := 0, paced := true, lateTick := true, run := some { desc := chainD 0x1C06060C0A001F00, phases := [3] } })] })] },
    by decide +kernel⟩, ⟨0, 0, true, withCtx { ctx with tickBack := true }, by decide +kernel⟩, ⟨64, up,
    by decide +kernel⟩, ⟨0, 0, 515, 3, 0, chainD 0x1C06060C0A001F00,
    { withCtx { ctx with run := some { desc := chainD 0x1C06060C0A001F00, phases := [3] } } with pwr := { domains := [(0, { vindex := 99 })] } },
    by decide +kernel⟩, ⟨0, 0, 3, 0, chainD 0x1C06060C0A001F00, atRing
    { ctx with run := some { desc := chainD 0x1C06060C0A001F00, phases := [3] } } [], by decide +kernel⟩, ⟨0, 0, 3,
    0, chainD 0x1C06060C0A001F00, atRing
    { ctx with run := some { desc := chainD 0x1C06060C0A001F00, phases := [3] } } [], by decide +kernel⟩, ⟨0, 0, 3,
    0, chainD 0x1C06060C0A001F00, withCtx
    { ctx with run := some { desc := chainD 0x1C06060C0A001F00, phases := [3] } }, by decide +kernel⟩, ⟨0, 0, 3, 0,
    chainD 0x1C06060C0A001F00, withCtx
    { ctx with size := 0, run := some { desc := chainD 0x1C06060C0A001F00, phases := [3] } }, by decide +kernel⟩⟩

/-- The hypotheses of PassesEnd, met. -/
theorem witness_PassesEnd :
    (∃ e : Nat, ∃ obs : PassObs, ∃ p : PassRun, ∃ s : State, e < 16 ∧ (engine s e).pass = some p) ∧
    (∃ e : Nat, ∃ p : PassRun, ∃ k : PassFaultKind, ∃ s : State, e < 16 ∧ (engine s e).pass = some p ∧ (k = .stall ∨
      k = .seamRepair)) ∧
    (∃ e : Nat, ∃ p : PassRun, ∃ k : PassFaultKind, ∃ s : State, e < 16 ∧ (engine s e).pass = some p ∧ (k = .stall ∨
      k = .seamRepair)) ∧
    (∃ e : Nat, ∃ p : PassRun, ∃ es : List PassError, ∃ s : State, e < 16 ∧ (engine s e).pass = some p ∧ (slot s e
      p.slot).mismatched = false) ∧
    (∃ e : Nat, ∃ p : PassRun, ∃ es : List PassError, ∃ s : State, e < 16 ∧ (engine s e).pass = some p ∧ (slot s e
      p.slot).mismatched = true) ∧
    (∃ e : Nat, ∃ i : Nat, ∃ group : Nat, ∃ d : List W64, ∃ lanes : List (Nat × Nat), ∃ shadows : List (Nat × Nat), ∃
      s : State, ElementReady s e i d ∧ elemBad d = false ∧ 256 * group < eOutputs d ∧ elemBar s (slot s e i) e d =
      none ∧ (slot s e i).shadowed = false) ∧
    (∃ e : Nat, ∃ i : Nat, ∃ group : Nat, ∃ d : List W64, ∃ lanes : List (Nat × Nat), ∃ shadows : List (Nat × Nat), ∃
      s : State, ElementReady s e i d ∧ i ≠ 4 ∧ elemBad d = false ∧ 256 * group < eOutputs d ∧ elemBar s (slot s e i)
      e d = none ∧ (slot s e i).shadowed = true) ∧
    (∃ e : Nat, ∃ p : PassRun, ∃ s : State, e < 16 ∧ (engine s e).pass = some p) :=
  ⟨⟨0, {}, { slot := 0, kind := 0, m := 1, paced := false },
    { up with eng := [(0, { pass := some { slot := 0, kind := 0, m := 1, paced := false }, slots := [(0, { ctx with run := some { desc := chainD 0x1C06060C0A001F00, phases := [3] } })] })] },
    by decide +kernel⟩, ⟨0, { slot := 0, kind := 0, m := 1, paced := false }, .stall,
    { up with eng := [(0, { pass := some { slot := 0, kind := 0, m := 1, paced := false }, slots := [(0, { ctx with run := some { desc := chainD 0x1C06060C0A001F00, phases := [3] } })] })] },
    by decide +kernel⟩, ⟨0, { slot := 0, kind := 0, m := 1, paced := false }, .seamRepair,
    { up with eng := [(0, { pass := some { slot := 0, kind := 0, m := 1, paced := false }, slots := [(0, { ctx with run := some { desc := chainD 0x1C06060C0A001F00, phases := [3] } })] })] },
    by decide +kernel⟩, ⟨0, { slot := 0, kind := 0, m := 1, paced := false }, [],
    { up with eng := [(0, { pass := some { slot := 0, kind := 0, m := 1, paced := false }, slots := [(0, { ctx with run := some { desc := chainD 0x1C06060C0A001F00, phases := [3] } })] })] },
    by decide +kernel⟩, ⟨0, { slot := 0, kind := 0, m := 1, paced := false }, [],
    { up with eng := [(0, { pass := some { slot := 0, kind := 0, m := 1, paced := false }, slots := [(0, { ctx with mismatched := true, run := some { desc := chainD 0x1C06060C0A001F00, phases := [3] } })] })] },
    by decide +kernel⟩, ⟨0, 0, 0, elemD 0x010A0A0000000000, [(0, 1)], [], atRing ctx (elemD 0x010A0A0000000000),
    by decide +kernel⟩, ⟨0, 0, 0, elemD 0x010A0A0000000000, [(0, 1)], [], atRing { ctx with shadowed := true } (elemD
    0x010A0A0000000000), by decide +kernel⟩, ⟨0, { slot := 0, kind := 0, m := 1, paced := false },
    { up with eng := [(0, { pass := some { slot := 0, kind := 0, m := 1, paced := false }, slots := [(0, { ctx with run := some { desc := chainD 0x1C06060C0A001F00, phases := [3] } })] })] },
    by decide +kernel⟩⟩

/-- The hypotheses of FeederDescriptorsRun, met. -/
theorem witness_FeederDescriptorsRun :
    (∃ e : Nat, ∃ i : Nat, ∃ d : List W64, ∃ s : State, FeederReady s e i d ∧ descKind d = 1 ∧ descBad d = false ∧
      chainOrderBad (slot s e i) d = false ∧ cFirst d = false) ∧
    (∃ e : Nat, ∃ i : Nat, ∃ d : List W64, ∃ s : State, FeederReady s e i d ∧ descKind d = 1 ∧ descBad d = false ∧
      chainOrderBad (slot s e i) d = false ∧ cFirst d = true ∧ inPart (slot s e i) (cFed d) 8192 = true) ∧
    (∃ e : Nat, ∃ i : Nat, ∃ d : List W64, ∃ s : State, FeederReady s e i d ∧ descKind d = 1 ∧ (descBad d = true ∨
      chainOrderBad (slot s e i) d = true)) ∧
    (∃ e : Nat, ∃ i : Nat, ∃ d : List W64, ∃ s : State, FeederReady s e i d ∧ descKind d = 1 ∧ descBad d = false ∧
      chainOrderBad (slot s e i) d = false ∧ cFirst d = true ∧ inPart (slot s e i) (cFed d) 8192 = false) ∧
    (∃ e : Nat, ∃ i : Nat, ∃ v : Nat, ∃ d : List W64, ∃ s : State, FeederReady s e i d ∧ descKind d = 2 ∧ waitBad d =
      false ∧ readWord s e i (bitOf (wd d 0) 59) (fld (wd d 1) 47 0) = .ok v) ∧
    (∃ e : Nat, ∃ i : Nat, ∃ v : Nat, ∃ d : List W64, ∃ s : State, FeederReady s e i d ∧ descKind d = 2 ∧ waitBad d =
      false ∧ readWord s e i (bitOf (wd d 0) 59) (fld (wd d 1) 47 0) = .ok v) ∧
    (∃ e : Nat, ∃ i : Nat, ∃ v : Nat, ∃ w : WaitFor, ∃ s : State, (slot s e i).waiting = some w ∧ slotFree s e i =
      true ∧ readWord s e i w.space w.addr = .ok v) ∧
    (∃ e : Nat, ∃ i : Nat, ∃ d : List W64, ∃ s : State, ∃ s' : State, FeederReady s e i d ∧ descKind d = 3 ∧ waitBad
      d = false ∧ writeWord s e i (bitOf (wd d 0) 59) (fld (wd d 1) 47 0) (wd d 2).toNat = .ok s') ∧
    (∃ e : Nat, ∃ i : Nat, ∃ d : List W64, ∃ s : State, FeederReady s e i d ∧ (descKind d = 0 ∨ 3 < descKind d)) ∧
    (∃ e : Nat, ∃ i : Nat, ∃ d : List W64, ∃ s : State, FeederReady s e i d ∧ (descKind d = 0 ∨ 3 < descKind d)) :=
  ⟨⟨0, 0, chainD 0x1406060C0A001F00, atRing { ctx with chainOpen := true } (chainD 0x1406060C0A001F00),
    by decide +kernel⟩, ⟨0, 0, chainD 0x1C06060C0A001F00, atRing ctx (chainD 0x1C06060C0A001F00), by decide +kernel⟩,
    ⟨0, 0, first16 0x1000000000000000 0 0, atRing ctx (first16 0x1000000000000000 0 0), by decide +kernel⟩, ⟨0, 0,
    chainD 0x1C06060C0A001F00, atRing { ctx with size := 0 } (chainD 0x1C06060C0A001F00), by decide +kernel⟩, ⟨0, 0,
    0, first16 0x2000000000000000 0 0, atRing ctx (first16 0x2000000000000000 0 0), by decide +kernel⟩, ⟨0, 0,
    0x2800000000000000, first16 0x2800000000000000 65536 0, atRing ctx (first16 0x2800000000000000 65536 0),
    by decide +kernel⟩, ⟨0, 0, 0, { space := true, addr := 65600, value := 1 }, withCtx
    { ctx with waiting := some { space := true, addr := 65600, value := 1 } }, by decide +kernel⟩, ⟨0, 0, first16
    0x3000000000000000 0 1, atRing ctx (first16 0x3000000000000000 0 1), got (writeWord (atRing ctx (first16
    0x3000000000000000 0 1)) 0 0 false 0 1), by decide +kernel⟩, ⟨0, 0, first16 0 0 0, atRing ctx (first16 0 0 0),
    by decide +kernel⟩, ⟨0, 0, first16 0x4000000000000000 0 0, atRing ctx (first16 0x4000000000000000 0 0),
    by decide +kernel⟩⟩

/-- The hypotheses of DmaMovesAndCompletes, met. -/
theorem witness_DmaMovesAndCompletes :
    (∃ r : Nat × (Nat → Nat → List W64 → List (Nat × Byte) → Instr), ∃ e : Nat, ∃ i : Nat, ∃ d : List W64, ∃ flips :
      List (Nat × Byte), ∃ s : State, r ∈ [(1, Instr.dmaIn), (2, Instr.dmaOut), (3, Instr.dmaCopy)] ∧ DmaReady s e i
      d ∧ descKind d = r.1 ∧ dmaBad d = false ∧ dmaReady s e i d = .ok true ∧ dmaWaits s e i d = none ∧ (dmaAttempt s
      e i d flips).2.1 = none) ∧
    (∃ r : Nat × (Nat → Nat → List W64 → List (Nat × Byte) → Instr), ∃ e : Nat, ∃ i : Nat, ∃ d : List W64, ∃ flips :
      List (Nat × Byte), ∃ s : State, r ∈ [(1, Instr.dmaIn), (2, Instr.dmaOut), (3, Instr.dmaCopy)] ∧ DmaReady s e i
      d ∧ descKind d = r.1 ∧ dmaBad d = false ∧ dmaReady s e i d = .ok true ∧ dmaWaits s e i d = none ∧ (dmaAttempt s
      e i d flips).2.1 = none) ∧
    (∃ r : Nat × (Nat → Nat → List W64 → List (Nat × Byte) → Instr), ∃ e : Nat, ∃ i : Nat, ∃ d : List W64, ∃ flips :
      List (Nat × Byte), ∃ s : State, r ∈ [(1, Instr.dmaIn), (2, Instr.dmaOut), (3, Instr.dmaCopy)] ∧ DmaReady s e i
      d ∧ descKind d = r.1 ∧ dmaBad d = false ∧ dmaReady s e i d = .ok true ∧ dmaWaits s e i d = none ∧ (dmaAttempt s
      e i d flips).2.1 = none) ∧
    (∃ r : Nat × (Nat → Nat → List W64 → List (Nat × Byte) → Instr), ∃ e : Nat, ∃ i : Nat, ∃ d : List W64, ∃ flips :
      List (Nat × Byte), ∃ s : State, r ∈ [(1, Instr.dmaIn), (2, Instr.dmaOut), (3, Instr.dmaCopy)] ∧ DmaReady s e i
      d ∧ descKind d = r.1 ∧ dmaBad d = true) ∧
    (∃ r : Nat × (Nat → Nat → List W64 → List (Nat × Byte) → Instr), ∃ e : Nat, ∃ i : Nat, ∃ d : List W64, ∃ flips :
      List (Nat × Byte), ∃ s : State, r ∈ [(1, Instr.dmaIn), (2, Instr.dmaOut), (3, Instr.dmaCopy)] ∧ DmaReady s e i
      d ∧ descKind d = r.1 ∧ dmaBad d = false ∧ dmaReady s e i d = .ok false) ∧
    (∃ r : Nat × (Nat → Nat → List W64 → List (Nat × Byte) → Instr), ∃ e : Nat, ∃ i : Nat, ∃ d : List W64, ∃ flips :
      List (Nat × Byte), ∃ s : State, ∃ a, r ∈ [(1, Instr.dmaIn), (2, Instr.dmaOut), (3, Instr.dmaCopy)] ∧ DmaReady s
      e i d ∧ descKind d = r.1 ∧ dmaBad d = false ∧ dmaReady s e i d = .ok true ∧ dmaWaits s e i d = some a) ∧
    (∃ e : Nat, ∃ i : Nat, ∃ r : DmaRun, ∃ rest : List DmaRun, ∃ flips : List (Nat × Byte), ∃ s : State, (slot s e
      i).dma = r :: rest ∧ r.failed = false ∧ dSignal r.desc = false ∧ (slot s e i).job ≠ 0 ∧ (slot s e i).moveOwed =
      false) ∧
    (∃ e : Nat, ∃ i : Nat, ∃ v : Nat, ∃ r : DmaRun, ∃ rest : List DmaRun, ∃ flips : List (Nat × Byte), ∃ s : State,
      (slot s e i).dma = r :: rest ∧ r.failed = false ∧ dSignal r.desc = true ∧ readWord s e i false (dCompl r.desc)
      = .ok v ∧ (slot s e i).job = 0 ∧ (slot s e i).moveOwed = false) ∧
    (∃ e : Nat, ∃ i : Nat, ∃ r : DmaRun, ∃ rest : List DmaRun, ∃ flips : List (Nat × Byte), ∃ s : State, (slot s e
      i).dma = r :: rest ∧ r.failed = true ∧ r.reran = false ∧ (dmaAttempt s e i r.desc flips).2.1 = none) ∧
    (∃ e : Nat, ∃ i : Nat, ∃ r : DmaRun, ∃ rest : List DmaRun, ∃ flips : List (Nat × Byte), ∃ s : State, (slot s e
      i).dma = r :: rest ∧ r.failed = true ∧ r.reran = true ∧ (slot s e i).job ≠ 0) ∧
    (∃ e : Nat, ∃ i : Nat, ∃ d : List W64, ∃ bs : List Byte, ∃ s : State, descKind d = 1 ∧ inPart (slot s e i)
      (dPocket d 0) (dRowBytes d) = true ∧ 0 ≤ dDev d 0 ∧ dRows d = 1 ∧ devRead s (slotIssuer s (slot s e i)) (dDev d
      0).toNat (dRowBytes d) = .ok bs ∧ s.pkg.eccBad = []) :=
  ⟨⟨(1, Instr.dmaIn), 0, 0, dmaD 0x1000000000010000 0x0000000000400000 0, [], atRing ctx (dmaD 0x1000000000010000
    0x0000000000400000 0), by simp [elementRows, unitRows, atomicRows, collectiveRows], by decide +kernel⟩, ⟨(2,
    Instr.dmaOut), 0, 0, dmaD 0x2000000000010000 0x0000000000400000 0, [], atRing ctx (dmaD 0x2000000000010000
    0x0000000000400000 0), by simp [elementRows, unitRows, atomicRows, collectiveRows], by decide +kernel⟩, ⟨(3,
    Instr.dmaCopy), 0, 0, dmaD 0x3000000000000040 0x0000000000400000 0, [], atRing ctx (dmaD 0x3000000000000040
    0x0000000000400000 0), by simp [elementRows, unitRows, atomicRows, collectiveRows], by decide +kernel⟩, ⟨(1,
    Instr.dmaIn), 0, 0, dmaD 0x1000000000010000 0 0, [], atRing ctx (dmaD 0x1000000000010000 0 0), by simp
    [elementRows, unitRows, atomicRows, collectiveRows], by decide +kernel⟩, ⟨(1, Instr.dmaIn), 0, 0,
    [0x1400000000010000, 0x0000000000400000, 0, 0, 0, 65600, 1, 0], [], atRing ctx ([0x1400000000010000,
    0x0000000000400000, 0, 0, 0, 65600, 1, 0]), by simp [elementRows, unitRows, atomicRows, collectiveRows],
    by decide +kernel⟩, ⟨(1, Instr.dmaIn), 0, 0, dmaD 0x1000000000020000 0x0000000000400000 0, [],
    { atRing ctx (dmaD 0x1000000000020000 0x0000000000400000 0) with pkg := { (atRing ctx (dmaD 0x1000000000020000 0x0000000000400000 0)).pkg with owner := [(1, ownPack 1 5 0 15 false 1 true 0), (2, ownPack 1 5 0 15 false 0 true 1)], moves := [{ page := 2, loc := 2, frame := 0, oldLoc := 1, oldFrame := 1 }] } },
    0x20000, by simp [elementRows, unitRows, atomicRows, collectiveRows], by decide +kernel⟩, ⟨0, 0,
    { desc := dmaD 0x1000000000010000 0x0000000000400000 0 }, [], [], withCtx
    { ctx with dma := [{ desc := dmaD 0x1000000000010000 0x0000000000400000 0 }] }, by decide +kernel⟩, ⟨0, 0, 0,
    { desc := dmaD 0x1800000000010000 0x0000000000400000 1 }, [], [], withCtx
    { ctx with job := 0, dma := [{ desc := dmaD 0x1800000000010000 0x0000000000400000 1 }] }, by decide +kernel⟩, ⟨0,
    0, { desc := dmaD 0x1000000000010000 0x0000000000400000 0, failed := true }, [], [], withCtx
    { ctx with dma := [{ desc := dmaD 0x1000000000010000 0x0000000000400000 0, failed := true }] },
    by decide +kernel⟩, ⟨0, 0,
    { desc := dmaD 0x1000000000010000 0x0000000000400000 0, failed := true, reran := true }, [], [], withCtx
    { ctx with dma := [{ desc := dmaD 0x1000000000010000 0x0000000000400000 0, failed := true, reran := true }] },
    by decide +kernel⟩, ⟨0, 0, dmaD 0x1000000000010000 0x0000000000400000 0, List.replicate 64 0, withCtx ctx,
    by decide +kernel⟩⟩

/-- The hypotheses of ElementRowsRun, met. -/
theorem witness_ElementRowsRun :
    (∃ r : Nat × (Nat → Nat → List W64 → Instr), ∃ e : Nat, ∃ i : Nat, ∃ d : List W64, ∃ s : State, r ∈ elementRows ∧
      ElementReady s e i d ∧ eOp d = r.1 ∧ elemBad d = false ∧ elemBar s (slot s e i) e d = none ∧ ((unitSt s (16 +
      e)).hold ≠ 1 ∨ i = 4)) ∧
    (∃ r : Nat × (Nat → Nat → List W64 → Instr), ∃ e : Nat, ∃ i : Nat, ∃ d : List W64, ∃ s : State, r ∈ elementRows ∧
      ElementReady s e i d ∧ eOp d = r.1 ∧ elemBad d = false ∧ elemBar s (slot s e i) e d = none ∧ ((unitSt s (16 +
      e)).hold ≠ 1 ∨ i = 4)) ∧
    (∃ r : Nat × (Nat → Nat → List W64 → Instr), ∃ e : Nat, ∃ i : Nat, ∃ d : List W64, ∃ s : State, r ∈ elementRows ∧
      ElementReady s e i d ∧ eOp d = r.1 ∧ elemBad d = false ∧ elemBar s (slot s e i) e d = none ∧ (unitSt s (16 +
      e)).hold = 1 ∧ i < 4) ∧
    (∃ r : Nat × (Nat → Nat → List W64 → Instr), ∃ e : Nat, ∃ i : Nat, ∃ d : List W64, ∃ s : State, r ∈ elementRows ∧
      ElementReady s e i d ∧ (eOp d = r.1 ∧ elemBad d = true ∨ isEeOp (eOp d) = false)) ∧
    (∃ r : Nat × (Nat → Nat → List W64 → Instr), ∃ e : Nat, ∃ i : Nat, ∃ d : List W64, ∃ s : State, r ∈ elementRows ∧
      ElementReady s e i d ∧ (eOp d = r.1 ∧ elemBad d = true ∨ isEeOp (eOp d) = false)) ∧
    (∃ r : Nat × (Nat → Nat → List W64 → Instr), ∃ e : Nat, ∃ i : Nat, ∃ d : List W64, ∃ s : State, ∃ inside, inside
      = ((elemReads d ++ elemWriteSpans d).all fun q => inPart (slot s e i) q.1 q.2) ∧ r ∈ elementRows ∧ ElementReady
      s e i d ∧ eOp d = r.1 ∧ elemBad d = false ∧ inside = false) ∧
    (∃ r : Nat × (Nat → Nat → List W64 → Instr), ∃ e : Nat, ∃ i : Nat, ∃ d : List W64, ∃ s : State, ∃ inside, inside
      = ((elemReads d ++ elemWriteSpans d).all fun q => inPart (slot s e i) q.1 q.2) ∧ r ∈ elementRows ∧ ElementReady
      s e i d ∧ eOp d = r.1 ∧ elemBad d = false ∧ inside = true ∧ ((elemReads d).any fun q => eccHit s (partKey (slot
      s e i) e q.1) q.2) = true) ∧
    (∃ r : Nat × (Nat → Nat → List W64 → Instr), ∃ e : Nat, ∃ i : Nat, ∃ d : List W64, ∃ s : State, r ∈ elementRows ∧
      elementFree s e i = true ∧ engineAwake s e = false) :=
  ⟨⟨(0x01, Instr.add), 0, 0, elemD 0x010A0A0000000000, atRing ctx (elemD 0x010A0A0000000000), by simp [elementRows,
    unitRows, atomicRows, collectiveRows], by decide +kernel⟩, ⟨(0x30, Instr.quantMx), 0, 0, elemD
    0x300A060000000000, atRing ctx (elemD 0x300A060000000000), by simp [elementRows, unitRows, atomicRows,
    collectiveRows], by decide +kernel⟩, ⟨(0x01, Instr.add), 0, 0, elemD 0x010A0A0000000000,
    { atRing ctx (elemD 0x010A0A0000000000) with lin := { units := [(16, { hold := 1 })] } }, by simp [elementRows,
    unitRows, atomicRows, collectiveRows], by decide +kernel⟩, ⟨(0x01, Instr.add), 0, 0, elemD 0x0100000000000000,
    atRing ctx (elemD 0x0100000000000000), by simp [elementRows, unitRows, atomicRows, collectiveRows],
    by decide +kernel⟩, ⟨(0x01, Instr.add), 0, 0, elemD 0xFF0A0A0000000000, atRing ctx (elemD 0xFF0A0A0000000000), by
    simp [elementRows, unitRows, atomicRows, collectiveRows], by decide +kernel⟩, ⟨(0x01, Instr.add), 0, 0,
    [0x010A0A0000000000, 0xFFFFFFC000000000, 0, 0, 0, 0, 0, 0], atRing ctx ([0x010A0A0000000000, 0xFFFFFFC000000000,
    0, 0, 0, 0, 0, 0]), _, rfl, by simp [elementRows, unitRows, atomicRows, collectiveRows], by decide +kernel⟩,
    ⟨(0x01, Instr.add), 0, 0, elemD 0x010A0A0000000000,
    { atRing ctx (elemD 0x010A0A0000000000) with pkg := { (atRing ctx (elemD 0x010A0A0000000000)).pkg with eccBad := [partKey ctx 0 0] } },
    _, rfl, by simp [elementRows, unitRows, atomicRows, collectiveRows], by decide +kernel⟩, ⟨(0x01, Instr.add), 0,
    0, elemD 0x010A0A0000000000, withCtx ctx, by simp [elementRows, unitRows, atomicRows, collectiveRows],
    by decide +kernel⟩⟩

/-- The hypotheses of ElementRowsFrame, met. -/
theorem witness_ElementRowsFrame :
    (∃ r : Nat × (Nat → Nat → List W64 → Instr), ∃ e : Nat, ∃ i : Nat, ∃ d : List W64, ∃ s : State, ∃ t : State, ∃ k
      : Nat, r ∈ elementRows ∧ ElementReady s e i d ∧ eOp d = r.1 ∧ elemBad d = false ∧ elemBar s (slot s e i) e d =
      none ∧ (unitSt s (16 + e)).hold = 0 ∧ exec (r.2 e i d) s = .next t ∧ ((∀ w ∈ (elemWork s (slot s e i) e
      (slotChip s (slot s e i)) d).1, k < partKey (slot s e i) e w.1 ∨ partKey (slot s e i) e w.1 + w.2.length ≤ k))) ∧
    (∃ r : Nat × (Nat → Nat → List W64 → Instr), ∃ e : Nat, ∃ i : Nat, ∃ d : List W64, ∃ s : State, ∃ t : State, ∃ e'
      : Nat, r ∈ elementRows ∧ ElementReady s e i d ∧ eOp d = r.1 ∧ elemBad d = false ∧ elemBar s (slot s e i) e d =
      none ∧ (unitSt s (16 + e)).hold = 0 ∧ exec (r.2 e i d) s = .next t ∧ e' ≠ e) ∧
    (∃ r : Nat × (Nat → Nat → List W64 → Instr), ∃ e : Nat, ∃ i : Nat, ∃ d : List W64, ∃ s : State, ∃ t : State, ∃ h
      : Nat, r ∈ elementRows ∧ ElementReady s e i d ∧ eOp d = r.1 ∧ elemBad d = false ∧ elemBar s (slot s e i) e d =
      none ∧ (unitSt s (16 + e)).hold = 0 ∧ exec (r.2 e i d) s = .next t ∧ h ≠ (slot s e i).job) ∧
    (∃ r : Nat × (Nat → Nat → List W64 → Instr), ∃ e : Nat, ∃ i : Nat, ∃ d : List W64, ∃ s : State, ∃ t : State, r ∈
      elementRows ∧ ElementReady s e i d ∧ eOp d = r.1 ∧ elemBad d = false ∧ elemBar s (slot s e i) e d = none ∧
      (unitSt s (16 + e)).hold = 0 ∧ exec (r.2 e i d) s = .next t) ∧
    (∃ r : Nat × (Nat → Nat → List W64 → Instr), ∃ e : Nat, ∃ i : Nat, ∃ d : List W64, ∃ s : State, ∃ t : State, ∃ k
      : Nat, r ∈ elementRows ∧ ElementReady s e i d ∧ eOp d = r.1 ∧ elemBad d = false ∧ elemBar s (slot s e i) e d =
      none ∧ (unitSt s (16 + e)).hold = 0 ∧ exec (r.2 e i d) s = .next t ∧ k ≠ (slot s e i).sleeve) :=
  ⟨⟨(0x01, Instr.add), 0, 0, elemD 0x010A0A0000000000, atRing ctx (elemD 0x010A0A0000000000), _, 0, by simp
    [elementRows, unitRows, atomicRows, collectiveRows], by decide +kernel, by decide +kernel, by decide +kernel,
    by decide +kernel, id (by decide +kernel), rfl, by decide +kernel⟩, ⟨(0x01, Instr.add), 0, 0, elemD
    0x010A0A0000000000, atRing ctx (elemD 0x010A0A0000000000), _, 1, by simp [elementRows, unitRows, atomicRows,
    collectiveRows], by decide +kernel, by decide +kernel, by decide +kernel, by decide +kernel, id (by decide +kernel),
    rfl, by decide +kernel⟩, ⟨(0x01, Instr.add), 0, 0, elemD 0x010A0A0000000000, atRing ctx (elemD
    0x010A0A0000000000), _, 0, by simp [elementRows, unitRows, atomicRows, collectiveRows], by decide +kernel,
    by decide +kernel, by decide +kernel, by decide +kernel, id (by decide +kernel), rfl, by decide +kernel⟩, ⟨(0x01,
    Instr.add), 0, 0, elemD 0x010A0A0000000000, atRing ctx (elemD 0x010A0A0000000000), _, by simp [elementRows,
    unitRows, atomicRows, collectiveRows], by decide +kernel, by decide +kernel, by decide +kernel,
    by decide +kernel, id (by decide +kernel), rfl⟩, ⟨(0x01, Instr.add), 0, 0, elemD 0x010A0A0000000000, atRing ctx (elemD
    0x010A0A0000000000), _, 2, by simp [elementRows, unitRows, atomicRows, collectiveRows], by decide +kernel,
    by decide +kernel, by decide +kernel, by decide +kernel, id (by decide +kernel), rfl, by decide +kernel⟩⟩

/-- The hypotheses of RefereeDecides, met. -/
theorem witness_RefereeDecides :
    (∃ u : Nat, ∃ r : Nat, ∃ d : Dispute, ∃ s : State, disputeOf s u = some d ∧ d.st = .staging ∧ suspectAlone s d =
      false ∧ refereeReady s d r = true ∧ engineAwake s (r % 16) = false) ∧
    (∃ u : Nat, ∃ r : Nat, ∃ d : Dispute, ∃ s : State, disputeOf s u = some d ∧ d.st = .staging ∧ suspectAlone s d =
      false ∧ refereeReady s d r = true ∧ engineAwake s (r % 16) = true ∧ d.element = true) ∧
    (∃ u : Nat, ∃ r : Nat, ∃ d : Dispute, ∃ s : State, ∃ b : Nat, disputeOf s u = some d ∧ d.st = .staging ∧
      suspectAlone s d = false ∧ refereeReady s d r = true ∧ engineAwake s (r % 16) = true ∧ d.element = false ∧
      d.buffer = some b) ∧
    (∃ u : Nat, ∃ r : Nat, ∃ d : Dispute, ∃ s : State, ∃ b : Nat, disputeOf s u = some d ∧ d.st = .staging ∧
      suspectAlone s d = false ∧ refereeReady s d r = true ∧ engineAwake s (r % 16) = true ∧ d.element = false ∧
      d.buffer = none ∧ freeBuffer s = some b ∧ (d.images ≠ [] ∨ chunkEcc s d = false)) ∧
    (∃ u : Nat, ∃ r : Nat, ∃ d : Dispute, ∃ s : State, ∃ b : Nat, disputeOf s u = some d ∧ d.st = .staging ∧
      suspectAlone s d = false ∧ refereeReady s d r = true ∧ engineAwake s (r % 16) = true ∧ d.element = false ∧
      d.buffer = none ∧ freeBuffer s = some b ∧ d.images = [] ∧ chunkEcc s d = true) ∧
    (∃ u : Nat, ∃ r : Nat, ∃ d : Dispute, ∃ s : State, disputeOf s u = some d ∧ d.st = .staging ∧ suspectAlone s d =
      false ∧ refereeReady s d r = true ∧ engineAwake s (r % 16) = true ∧ d.element = false ∧ d.buffer = none ∧
      freeBuffer s = none) ∧
    (∃ u : Nat, ∃ r : Nat, ∃ d : Dispute, ∃ s : State, disputeOf s u = some d ∧ d.st = .staging ∧ suspectAlone s d =
      true ∧ d.mandatory = false) ∧
    (∃ u : Nat, ∃ n : Nat, ∃ d : Dispute, ∃ s : State, disputeOf s u = some d ∧ d.st = .staging ∧ d.mandatory = false
      ∧ (suspectAlone s d = true ∨ anyEligible s d = false ∧ d.noneSince = some n ∧ 100 * ticksPerMs ≤ since s n)) ∧
    (∃ u : Nat, ∃ n : Nat, ∃ d : Dispute, ∃ s : State, disputeOf s u = some d ∧ d.st = .staging ∧ d.mandatory = false
      ∧ (suspectAlone s d = true ∨ anyEligible s d = false ∧ d.noneSince = some n ∧ 100 * ticksPerMs ≤ since s n)) ∧
    (∃ u : Nat, ∃ r : Nat, ∃ d : Dispute, ∃ obs : RefereeObs, ∃ s : State, ∃ v, v = refereed s d r obs ∧ disputeOf s
      u = some d ∧ d.st = .referee ∧ d.refs.getLast? = some r ∧ (d.element = true ∨ eccHit s (scratchKey s (r % 16))
      (2 ^ 20) = false) ∧ v.own = false ∧ d.refs.length < 2) ∧
    (∃ u : Nat, ∃ r : Nat, ∃ d : Dispute, ∃ obs : RefereeObs, ∃ s : State, ∃ v, v = refereed s d r obs ∧ disputeOf s
      u = some d ∧ d.st = .referee ∧ d.refs.getLast? = some r ∧ (d.element = true ∨ eccHit s (scratchKey s (r % 16))
      (2 ^ 20) = false) ∧ v.own = false ∧ 2 ≤ d.refs.length) ∧
    (∃ u : Nat, ∃ r : Nat, ∃ d : Dispute, ∃ obs : RefereeObs, ∃ s : State, ∃ v, v = refereed s d r obs ∧ disputeOf s
      u = some d ∧ d.st = .referee ∧ d.refs.getLast? = some r ∧ (d.element = true ∨ eccHit s (scratchKey s (r % 16))
      (2 ^ 20) = false) ∧ v.own = true ∧ v.same = true ∧ d.mandatory = true) ∧
    (∃ u : Nat, ∃ r : Nat, ∃ d : Dispute, ∃ obs : RefereeObs, ∃ s : State, ∃ v, v = refereed s d r obs ∧ disputeOf s
      u = some d ∧ d.st = .referee ∧ d.refs.getLast? = some r ∧ (d.element = true ∨ eccHit s (scratchKey s (r % 16))
      (2 ^ 20) = false) ∧ v.own = true ∧ v.same = true ∧ d.mandatory = false) ∧
    (∃ u : Nat, ∃ r : Nat, ∃ d : Dispute, ∃ obs : RefereeObs, ∃ s : State, ∃ v, v = refereed s d r obs ∧ disputeOf s
      u = some d ∧ d.st = .referee ∧ d.refs.getLast? = some r ∧ (d.element = true ∨ eccHit s (scratchKey s (r % 16))
      (2 ^ 20) = false) ∧ v.own = true ∧ v.same = false ∧ v.fits = true) ∧
    (∃ u : Nat, ∃ r : Nat, ∃ d : Dispute, ∃ obs : RefereeObs, ∃ s : State, ∃ v, v = refereed s d r obs ∧ disputeOf s
      u = some d ∧ d.st = .referee ∧ d.refs.getLast? = some r ∧ (d.element = true ∨ eccHit s (scratchKey s (r % 16))
      (2 ^ 20) = false) ∧ v.own = true ∧ v.same = false ∧ v.fits = false) ∧
    (∃ u : Nat, ∃ r : Nat, ∃ d : Dispute, ∃ obs : RefereeObs, ∃ s : State, disputeOf s u = some d ∧ d.st = .referee ∧
      d.refs.getLast? = some r ∧ d.element = false ∧ eccHit s (scratchKey s (r % 16)) (2 ^ 20) = true) ∧
    (∃ u : Nat, ∃ faults : List (Nat × Nat × Int), ∃ d : Dispute, ∃ s : State, disputeOf s u = some d ∧ d.st =
      .replay) :=
  ⟨⟨19, 20,
    { suspect := 19, slot := 0, job := 5, gen := 0, sleeve := 1, radio := false, kind := 1, location := 0, rows := [0], desc := elemD 0x010A0A0000000000, st := .staging, refs := [], element := true },
    { up with lin := { disputes := [{ suspect := 19, slot := 0, job := 5, gen := 0, sleeve := 1, radio := false, kind := 1, location := 0, rows := [0], desc := elemD 0x010A0A0000000000, st := .staging, refs := [], element := true }] }, eng := [(3, { slots := [(0, ctx)] })] },
    by decide +kernel⟩, ⟨19, 20,
    { suspect := 19, slot := 0, job := 5, gen := 0, sleeve := 1, radio := false, kind := 1, location := 0, rows := [0], desc := elemD 0x010A0A0000000000, st := .staging, refs := [], element := true },
    { up with lin := { disputes := [{ suspect := 19, slot := 0, job := 5, gen := 0, sleeve := 1, radio := false, kind := 1, location := 0, rows := [0], desc := elemD 0x010A0A0000000000, st := .staging, refs := [], element := true }] }, eng := [(3, { slots := [(0, ctx)] })], pwr := { domains := (engineDomains 4).map fun n => (n, { on := true }) } },
    by decide +kernel⟩, ⟨3, 4,
    { suspect := 3, slot := 0, job := 5, gen := 0, sleeve := 1, radio := false, kind := 1, location := 0, rows := [0], desc := [], st := .staging, refs := [], buffer := some 0 },
    { up with lin := { disputes := [{ suspect := 3, slot := 0, job := 5, gen := 0, sleeve := 1, radio := false, kind := 1, location := 0, rows := [0], desc := [], st := .staging, refs := [], buffer := some 0 }] }, eng := [(3, { slots := [(0, ctx)] })], pwr := { domains := (engineDomains 4).map fun n => (n, { on := true }) } },
    0, by decide +kernel⟩, ⟨3, 4,
    { suspect := 3, slot := 0, job := 5, gen := 0, sleeve := 1, radio := false, kind := 1, location := 0, rows := [0], desc := [], st := .staging, refs := [] },
    { up with lin := { disputes := [{ suspect := 3, slot := 0, job := 5, gen := 0, sleeve := 1, radio := false, kind := 1, location := 0, rows := [0], desc := [], st := .staging, refs := [] }] }, eng := [(3, { slots := [(0, ctx)] })], pwr := { domains := (engineDomains 4).map fun n => (n, { on := true }) } },
    0, by decide +kernel⟩, ⟨3, 4,
    { suspect := 3, slot := 0, job := 5, gen := 0, sleeve := 1, radio := false, kind := 1, location := 0, rows := [0], desc := chainD 0x1C06060C0A001F00, st := .staging, refs := [] },
    { up with lin := { disputes := [{ suspect := 3, slot := 0, job := 5, gen := 0, sleeve := 1, radio := false, kind := 1, location := 0, rows := [0], desc := chainD 0x1C06060C0A001F00, st := .staging, refs := [] }] }, eng := [(3, { slots := [(0, ctx)] })], pwr := { domains := (engineDomains 4).map fun n => (n, { on := true }) }, pkg := { up.pkg with eccBad := [partKey ctx 3 0] } },
    0, by decide +kernel⟩, ⟨3, 4,
    { suspect := 3, slot := 0, job := 5, gen := 0, sleeve := 1, radio := false, kind := 1, location := 0, rows := [0], desc := [], st := .staging, refs := [] },
    { up with lin := { disputes := [{ suspect := 3, slot := 0, job := 5, gen := 0, sleeve := 1, radio := false, kind := 1, location := 0, rows := [0], desc := [], st := .staging, refs := [] }, { suspect := 5, slot := 0, job := 5, gen := 0, sleeve := 1, radio := false, kind := 1, location := 0, rows := [0], desc := [], st := .referee, refs := [6], buffer := some 0 }, { suspect := 8, slot := 0, job := 5, gen := 0, sleeve := 1, radio := false, kind := 1, location := 0, rows := [0], desc := [], st := .referee, refs := [7], buffer := some 1 }] }, eng := [(3, { slots := [(0, ctx)] })], pwr := { domains := (engineDomains 4).map fun n => (n, { on := true }) } },
    by decide +kernel⟩, ⟨3, 4,
    { suspect := 3, slot := 0, job := 5, gen := 0, sleeve := 1, radio := false, kind := 1, location := 0, rows := [0], desc := [], st := .staging, refs := [] },
    { up with lin := { disputes := [{ suspect := 3, slot := 0, job := 5, gen := 0, sleeve := 1, radio := false, kind := 1, location := 0, rows := [0], desc := [], st := .staging, refs := [] }], units := (List.range 32).map fun u => (u, { fence := .confirmed }) }, tim := { raw := 15625000 } },
    by decide +kernel⟩, ⟨3, 0,
    { suspect := 3, slot := 0, job := 5, gen := 0, sleeve := 1, radio := false, kind := 1, location := 0, rows := [0], desc := [], st := .staging, refs := [] },
    { up with lin := { disputes := [{ suspect := 3, slot := 0, job := 5, gen := 0, sleeve := 1, radio := false, kind := 1, location := 0, rows := [0], desc := [], st := .staging, refs := [] }], units := (List.range 32).map fun u => (u, { fence := .confirmed }) }, tim := { raw := 15625000 } },
    by decide +kernel⟩, ⟨3, 0,
    { suspect := 3, slot := 0, job := 5, gen := 0, sleeve := 1, radio := false, kind := 1, location := 0, rows := [0], desc := [], st := .staging, refs := [], noneSince := some 0 },
    { up with lin := { disputes := [{ suspect := 3, slot := 0, job := 5, gen := 0, sleeve := 1, radio := false, kind := 1, location := 0, rows := [0], desc := [], st := .staging, refs := [], noneSince := some 0 }], units := (List.range 31).map fun u => (u, { fence := .confirmed }) }, eng := [(15, { leased := true })], tim := { raw := 15625000 } },
    by decide +kernel⟩, ⟨19, 20,
    { suspect := 19, slot := 0, job := 5, gen := 0, sleeve := 1, radio := false, kind := 1, location := 0, rows := [0], desc := elemD 0x010A0A0000000000, st := .referee, refs := [20], element := true },
    { shadowOk := false },
    { up with lin := { disputes := [{ suspect := 19, slot := 0, job := 5, gen := 0, sleeve := 1, radio := false, kind := 1, location := 0, rows := [0], desc := elemD 0x010A0A0000000000, st := .referee, refs := [20], element := true }] }, eng := [(3, { slots := [(0, ctx)] })] },
    _, rfl, by decide +kernel⟩, ⟨19, 21,
    { suspect := 19, slot := 0, job := 5, gen := 0, sleeve := 1, radio := false, kind := 1, location := 0, rows := [0], desc := elemD 0x010A0A0000000000, st := .referee, refs := [20, 21], element := true },
    { shadowOk := false },
    { up with lin := { disputes := [{ suspect := 19, slot := 0, job := 5, gen := 0, sleeve := 1, radio := false, kind := 1, location := 0, rows := [0], desc := elemD 0x010A0A0000000000, st := .referee, refs := [20, 21], element := true }] }, eng := [(3, { slots := [(0, ctx)] })] },
    _, rfl, by decide +kernel⟩, ⟨19, 20,
    { suspect := 19, slot := 0, job := 5, gen := 0, sleeve := 1, radio := false, kind := 1, location := 0, rows := [0], desc := elemD 0x010A0A0000000000, st := .referee, refs := [20], element := true, mandatory := true },
    {},
    { up with lin := { disputes := [{ suspect := 19, slot := 0, job := 5, gen := 0, sleeve := 1, radio := false, kind := 1, location := 0, rows := [0], desc := elemD 0x010A0A0000000000, st := .referee, refs := [20], element := true, mandatory := true }] }, eng := [(3, { slots := [(0, ctx)] })] },
    _, rfl, by decide +kernel⟩, ⟨19, 20,
    { suspect := 19, slot := 0, job := 5, gen := 0, sleeve := 1, radio := false, kind := 1, location := 0, rows := [0], desc := elemD 0x010A0A0000000000, st := .referee, refs := [20], element := true },
    {},
    { up with lin := { disputes := [{ suspect := 19, slot := 0, job := 5, gen := 0, sleeve := 1, radio := false, kind := 1, location := 0, rows := [0], desc := elemD 0x010A0A0000000000, st := .referee, refs := [20], element := true }] }, eng := [(3, { slots := [(0, ctx)] })] },
    _, rfl, by decide +kernel⟩, ⟨19, 20,
    { suspect := 19, slot := 0, job := 5, gen := 0, sleeve := 1, radio := false, kind := 1, location := 0, rows := [0], desc := elemD 0x010A0A0000000000, st := .referee, refs := [20], element := true, lanes := [(0, 1)] },
    {},
    { up with lin := { disputes := [{ suspect := 19, slot := 0, job := 5, gen := 0, sleeve := 1, radio := false, kind := 1, location := 0, rows := [0], desc := elemD 0x010A0A0000000000, st := .referee, refs := [20], element := true, lanes := [(0, 1)] }] }, eng := [(3, { slots := [(0, ctx)] })] },
    _, rfl, by decide +kernel⟩, ⟨19, 20,
    { suspect := 19, slot := 0, job := 5, gen := 0, sleeve := 1, radio := false, kind := 1, location := 0, rows := [0], desc := elemD 0x010A0A0000000000, st := .referee, refs := [20], element := true, lanes := [(0, 1)], shadows := [(0, 2)] },
    {},
    { up with lin := { disputes := [{ suspect := 19, slot := 0, job := 5, gen := 0, sleeve := 1, radio := false, kind := 1, location := 0, rows := [0], desc := elemD 0x010A0A0000000000, st := .referee, refs := [20], element := true, lanes := [(0, 1)], shadows := [(0, 2)] }] }, eng := [(3, { slots := [(0, ctx)] })] },
    _, rfl, by decide +kernel⟩, ⟨3, 4,
    { suspect := 3, slot := 0, job := 5, gen := 0, sleeve := 1, radio := false, kind := 1, location := 0, rows := [0], desc := [], st := .referee, refs := [4] },
    {},
    { up with lin := { disputes := [{ suspect := 3, slot := 0, job := 5, gen := 0, sleeve := 1, radio := false, kind := 1, location := 0, rows := [0], desc := [], st := .referee, refs := [4] }] }, eng := [(3, { slots := [(0, ctx)] })], pkg := { up.pkg with eccBad := [scratchKey up 4] } },
    by decide +kernel⟩, ⟨3, [],
    { suspect := 3, slot := 0, job := 5, gen := 0, sleeve := 1, radio := false, kind := 1, location := 0, rows := [0], desc := [], st := .replay, refs := [] },
    { up with lin := { disputes := [{ suspect := 3, slot := 0, job := 5, gen := 0, sleeve := 1, radio := false, kind := 1, location := 0, rows := [0], desc := [], st := .replay, refs := [] }] }, eng := [(3, { slots := [(0, ctx)] })] },
    by decide +kernel⟩⟩

/-- The hypotheses of FittingsAndClearance, met. -/
theorem witness_FittingsAndClearance :
    (∃ u : Nat, ∃ s : State, u < 124 ∧ 4 ≤ ((unitSt s u).unconfirmed.filter fun t => since s t < 3600 *
      ticksPerS).length) ∧
    (∃ u : Nat, ∃ f : Nat, ∃ beats : Nat, ∃ r : FitRun, ∃ c : FitCur, ∃ s : State, mayFit s u = true ∧ unitIdle s u =
      true ∧ (unitSt s u).fit = some r ∧ r.current = none ∧ f ∈ r.todo ∧ (fittingsOf s u)[f]? = some c ∧ ((u < 32 →
      (engine s (u % 16)).leased = true → fitBeats u c ≤ beats)) ∧ ((u < 32 → (engine s (u % 16)).leased = false →
      beforeLease s (u % 16) (fitBeats u c) = true)) ∧ ((u < 32 → engineAwake s (u % 16) = true))) ∧
    (∃ u : Nat, ∃ f : Nat, ∃ beats : Nat, ∃ r : FitRun, ∃ c : FitCur, ∃ s : State, mayFit s u = true ∧ unitIdle s u =
      true ∧ (unitSt s u).fit = some r ∧ r.current = none ∧ f ∈ r.todo ∧ (fittingsOf s u)[f]? = some c ∧ u < 32 ∧
      (((engine s (u % 16)).leased = true → fitBeats u c ≤ beats)) ∧ (((engine s (u % 16)).leased = false →
      beforeLease s (u % 16) (fitBeats u c) = true)) ∧ engineAwake s (u % 16) = false) ∧
    (∃ u : Nat, ∃ s : State, u < 96 ∧ mayFit s u = true ∧ (unitSt s u).fit = none ∧ (unitSt s u).lastRun = none) ∧
    (∃ u : Nat, ∃ run : FitObs, ∃ rerun : FitObs, ∃ r : FitRun, ∃ c : FitCur, ∃ s : State, ∃ a, a = fitRun s u c run
      ∧ (unitSt s u).fit = some r ∧ r.current = some c ∧ (32 ≤ u ∨ eccHit s (scratchKey s (u % 16)) (2 ^ 20) = false)
      ∧ fitMatches a u c run = true) ∧
    (∃ u : Nat, ∃ run : FitObs, ∃ rerun : FitObs, ∃ r : FitRun, ∃ c : FitCur, ∃ s : State, ∃ a, a = fitRun s u c run
      ∧ (unitSt s u).fit = some r ∧ r.current = some c ∧ (32 ≤ u ∨ eccHit s (scratchKey s (u % 16)) (2 ^ 20) = false)
      ∧ fitMatches a u c run = false) ∧
    (∃ u : Nat, ∃ r : FitRun, ∃ c : FitCur, ∃ s : State, r.todo ≠ []) ∧
    (∃ u : Nat, ∃ outcome : Nat, ∃ r : FitRun, ∃ c : FitCur, ∃ s : State, r.todo ≠ [] ∧ (outcome = 1 ∨ outcome = 2)) ∧
    (∃ u : Nat, ∃ outcome : Nat, ∃ r : FitRun, ∃ c : FitCur, ∃ s : State, r.todo ≠ [] ∧ (outcome = 1 ∨ outcome = 2)) ∧
    (∃ u : Nat, ∃ s : State, u < 124 ∧ (unitSt s u).clearing = true ∧ since s (unitSt s u).clearSince ≤ 600 *
      ticksPerS ∧ 2 ≤ (unitSt s u).clearRuns) ∧
    (∃ u : Nat, ∃ s : State, u < 124 ∧ (unitSt s u).clearing = true ∧ 600 * ticksPerS < since s (unitSt s
      u).clearSince) :=
  ⟨⟨123, withUnit 123 { unconfirmed := [0, 0, 0, 0] }, by decide +kernel⟩, ⟨0, 0, 0, { todo := [0] },
    { set := 0, fitting := 0, expected := List.replicate 32 0, entry := wordsOf 32 ((setOf 1).drop 64) },
    { up with lin := { units := [(0, { fit := some { todo := [0] } })], activeSet := some (setOf 1) }, pwr := { domains := (engineDomains 0).map fun n => (n, { on := true }) } },
    by decide +kernel⟩, ⟨0, 0, 0, { todo := [0] },
    { set := 0, fitting := 0, expected := List.replicate 32 0, entry := wordsOf 32 ((setOf 1).drop 64) },
    { up with lin := { units := [(0, { fit := some { todo := [0] } })], activeSet := some (setOf 1) } },
    by decide +kernel⟩, ⟨95, { up with lin := { units := [(95, {})] } }, by decide +kernel⟩, ⟨123, {}, {},
    { todo := [2], current := some fitC }, fitC,
    { up with lin := { units := [(123, { fit := some { todo := [2], current := some fitC } })] } }, _, rfl,
    by decide +kernel⟩, ⟨123, {}, {}, { todo := [2], current := some { fitC with expected := [] } },
    { fitC with expected := [] },
    { up with lin := { units := [(123, { fit := some { todo := [2], current := some { fitC with expected := [] } } })] } },
    _, rfl, by decide +kernel⟩, ⟨0, { todo := [2] }, fitC, up, by decide +kernel⟩, ⟨0, 1, { todo := [2] }, fitC, up,
    by decide +kernel⟩, ⟨0, 2, { todo := [2] }, fitC, { up with lin := { units := [(0, { clearing := true })] } },
    by decide +kernel⟩, ⟨123, { up with lin := { units := [(123, { clearing := true, clearRuns := 2 })] } },
    by decide +kernel⟩, ⟨123,
    { { up with lin := { units := [(123, { clearing := true })] } } with tim := { raw := 10 ^ 12 } },
    by decide +kernel⟩⟩

/-- The hypotheses of ScrubsAndLockstep, met. -/
theorem witness_ScrubsAndLockstep :
    (∃ o : ScrubObs, ∃ s : State, s.boot.phase = .booted ∧ (o.loc = 1 ∨ o.loc = 2)) ∧
    (∃ o : ScrubObs, ∃ s : State, s.boot.phase = .booted ∧ (o.loc = 1 ∨ o.loc = 2)) ∧
    (∃ o : ScrubObs, ∃ s : State, ((∀ w ∈ o.words, frameEcc o.loc w.2 = .corrected)) ∧ tget [] s.pkg.frameErrs
      (frameKey o.loc o.frame) = [] ∧ o.words.length < 16) ∧
    (∃ e : Nat, ∃ ws : List (Nat × Nat), ∃ s : State, e < 16 ∧ s.boot.phase = .booted ∧ tget [] s.pkg.pocketErrs e =
      [] ∧ ((∀ w ∈ ws, w.2 = 1)) ∧ ws.length < 64) ∧
    (∃ e : Nat, ∃ ws : List (Nat × Nat), ∃ s : State, e < 16 ∧ s.boot.phase = .booted ∧ tget [] s.pkg.pocketErrs e =
      [] ∧ ((∀ w ∈ ws, w.2 = 1)) ∧ 64 ≤ ws.length) ∧
    (∃ e : Nat, ∃ w : Nat, ∃ s : State, e < 16 ∧ s.boot.phase = .booted ∧ tget [] s.pkg.pocketErrs e = [] ∧ w < 2 ^
      23) ∧
    (∃ p : Nat, ∃ pc : Nat, ∃ s : State, p ≤ 7 ∧ cfgLockstep s / 2 ^ p % 2 = 1 ∧ s.boot.phase = .booted) :=
  ⟨⟨{ loc := 1, frame := 0, words := [] }, up, by decide +kernel⟩, ⟨{ loc := 2, frame := 0, words := [] }, up,
    by decide +kernel⟩, ⟨{ loc := 1, frame := 0, words := [(0, 1)] }, up, by decide +kernel⟩, ⟨15, List.replicate 63
    (0, 1), up, by decide +kernel⟩, ⟨15, List.replicate 64 (0, 1), up, by decide +kernel⟩, ⟨15, 2 ^ 23 - 1, up,
    by decide +kernel⟩, ⟨7, 0, { up with boot := { phase := .booted, config := [0, 0xFF00000000] } },
    by decide +kernel⟩⟩

/-- The hypotheses of LiningCommandsComplete, met. -/
theorem witness_LiningCommandsComplete :
    (∃ c : Cmd, ∃ set : List Byte, ∃ s : State, Served 0x300 2 isMgmt c s ∧ s.pwr.inhibit = false ∧ argN c 1 ≤ 4 * 2
      ^ 20 ∧ readSource s c (partyOf c.src) (arg c 0) 0 (argN c 1) = .ok set) ∧
    (∃ c : Cmd, ∃ s : State, Served 0x301 1 isMgmt c s ∧ argN c 0 ≤ 111) ∧
    (∃ c : Cmd, ∃ s : State, Served 0x301 1 isMgmt c s ∧ argN c 0 = 0xFFFF) ∧
    (∃ c : Cmd, ∃ s : State, Served 0x302 2 isMgmt c s ∧ argN c 0 ≤ 111 ∧ 60 ≤ argN c 1 ∧ argN c 1 ≤ 600 ∧ isFenced s
      (argN c 0) = false ∧ (unitSt s (argN c 0)).fit = none) ∧
    (∃ c : Cmd, ∃ s : State, Served 0x302 2 isMgmt c s ∧ argN c 0 ≤ 111 ∧ 60 ≤ argN c 1 ∧ argN c 1 ≤ 600 ∧ isFenced s
      (argN c 0) = false ∧ (unitSt s (argN c 0)).fit = none) ∧
    (∃ c : Cmd, ∃ k : Candidate, ∃ s : State, Served 0x303 3 isMgmt c s ∧ argN c 0 ≤ 3 ∧ tget none s.lin.candidates
      (argN c 0) = some k ∧ argN c 1 + argN c 2 ≤ (candidateBytes k).length ∧ candidatesBad s = true) ∧
    (∃ c : Cmd, ∃ k : Candidate, ∃ s : State, Served 0x303 3 isMgmt c s ∧ argN c 0 ≤ 3 ∧ tget none s.lin.candidates
      (argN c 0) = some k ∧ argN c 1 + argN c 2 ≤ (candidateBytes k).length ∧ candidatesBad s = false) ∧
    (∃ c : Cmd, ∃ s : State, Served 0x304 1 isMgmt c s ∧ argN c 0 ≤ 3 ∧ (tget none s.lin.candidates (argN c
      0)).isSome = true) ∧
    (∃ c : Cmd, ∃ s : State, Served 0x305 2 isMgmt c s ∧ 1 ≤ argN c 1 ∧ argN c 1 ≤ 64 ∧ liningLogBad s = false) ∧
    (∃ c : Cmd, ∃ s : State, Served 0x305 2 isMgmt c s ∧ 1 ≤ argN c 1 ∧ argN c 1 ≤ 64 ∧ liningLogBad s = false) ∧
    (∃ c : Cmd, ∃ s : State, Served 0x305 2 isMgmt c s ∧ 1 ≤ argN c 1 ∧ argN c 1 ≤ 64 ∧ liningLogBad s = true) :=
  ⟨⟨mc [0x8000000000100000, 0], [], up, by decide +kernel⟩, ⟨mc [111], up, by decide +kernel⟩, ⟨bc [0xFFFF], up,
    by decide +kernel⟩, ⟨mc [111, 60], { up with lin := { units := [(111, {})], activeSet := some (setOf 4) } },
    by decide +kernel⟩, ⟨mc [0, 600], { up with lin := { units := [(0, {})], activeSet := some (setOf 1) } },
    by decide +kernel⟩, ⟨mc [3, 0, 1],
    { unit := 0, location := 0, passKind := 0, desc := [], verdict := 0, sleeve := 1, consent := 0, digest := [], operands := [], syndromes := [] },
    { up with lin := { candidates := [(3, some { unit := 0, location := 0, passKind := 0, desc := [], verdict := 0, sleeve := 1, consent := 0, digest := [], operands := [], syndromes := [] })] }, pkg := { up.pkg with eccBad := [ed0Key 3488 0] } },
    by decide +kernel⟩, ⟨mc [3, 0, 1],
    { unit := 0, location := 0, passKind := 0, desc := [], verdict := 0, sleeve := 1, consent := 0, digest := [], operands := [], syndromes := [] },
    { up with lin := { candidates := [(3, some { unit := 0, location := 0, passKind := 0, desc := [], verdict := 0, sleeve := 1, consent := 0, digest := [], operands := [], syndromes := [] })] } },
    by decide +kernel⟩, ⟨mc [3],
    { up with lin := { candidates := [(3, some { unit := 0, location := 0, passKind := 0, desc := [], verdict := 0, sleeve := 1, consent := 0, digest := [], operands := [], syndromes := [] })] } },
    by decide +kernel⟩, ⟨mc [0, 1], up, by decide +kernel⟩, ⟨mc [0, 64], up, by decide +kernel⟩, ⟨mc [0, 1],
    { up with pkg := { up.pkg with eccBad := [ed0Key 3552 0] } }, by decide +kernel⟩⟩

/-- The hypotheses of JobsStart, met. -/
theorem witness_JobsStart :
    (∃ c : Cmd, ∃ s : State, Served 0x180 8 isSleeveUser c s) ∧
    (∃ h : Nat, ∃ o : LowerObs, ∃ s : State, (job s h).st = .lowering ∧ loweringOk s h o = true ∧ (sleeve s (job s
      h).owner).st = .active) ∧
    (∃ h : Nat, ∃ o : LowerObs, ∃ s : State, (job s h).st = .lowering ∧ loweringOk s h o = true ∧ (sleeve s (job s
      h).owner).st ≠ .active) ∧
    (∃ h : Nat, ∃ o : LowerObs, ∃ s : State, (job s h).st = .lowering ∧ loweringOk s h o = false) ∧
    (∃ h : Nat, ∃ o : LowerObs, ∃ s : State, (job s h).st = .lowering) ∧
    (∃ h : Nat, ∃ ps : List Place, ∃ s : State, placesStand s h ps = true ∧ savedBad s h = false) ∧
    (∃ h : Nat, ∃ ps : List Place, ∃ s : State, placesStand s h ps = true ∧ savedBad s h = false ∧ startsAtBarrier
      (job s h) = false) ∧
    (∃ h : Nat, ∃ ps : List Place, ∃ s : State, placesStand s h ps = true ∧ savedBad s h = false ∧ startsAtBarrier
      (job s h) = true) ∧
    (∃ h : Nat, ∃ ps : List Place, ∃ s : State, placesStand s h ps = true ∧ savedBad s h = true) ∧
    (∃ h : Nat, ∃ ps : List Place, ∃ s : State, placesStand s h ps = false ∧ (job s h).st = .waiting ∧ (sleeve s (job
      s h).owner).st = .active) ∧
    (∃ c : Cmd, ∃ m : SnapImage, ∃ s : State, Served 0x187 9 isSleeveUser c s ∧ readSnap s (partyOf c.src) c = .ok m
      ∧ m.bad = true) ∧
    (∃ c : Cmd, ∃ m : SnapImage, ∃ s : State, Served 0x187 9 isSleeveUser c s ∧ readSnap s (partyOf c.src) c = .ok m
      ∧ m.bad = false) :=
  ⟨⟨tc 1 [0, 0, 0, 0, 0, 0, 0, 0], up, by decide +kernel⟩, ⟨5,
    { contexts := [{ size := 1, fring := 65536, dring := 65664, ering := 65728 }] },
    { withJob { st := .lowering, owner := 1, savePages := List.replicate 16 0 } with slv := [(1, { st := .active, record := [0x0404000000001001], pages := [{ page := 1, kind := 1, perms := 8, job := some 5 }] }), (2, { st := .quiesced, pages := [{ page := 1, kind := 1, perms := 8, job := some 5 }] })] },
    by decide +kernel⟩, ⟨5, { contexts := [{ size := 1, fring := 65536, dring := 65664, ering := 65728 }] },
    { withJob { st := .lowering, owner := 2, savePages := List.replicate 16 0 } with slv := [(1, { st := .active, record := [0x0404000000001001], pages := [{ page := 1, kind := 1, perms := 8, job := some 5 }] }), (2, { st := .quiesced, pages := [{ page := 1, kind := 1, perms := 8, job := some 5 }] })] },
    by decide +kernel⟩, ⟨5, {},
    { withJob { st := .lowering, owner := 1, savePages := List.replicate 16 0 } with slv := [(1, { st := .active, record := [0x0404000000001001], pages := [{ page := 1, kind := 1, perms := 8, job := some 5 }] }), (2, { st := .quiesced, pages := [{ page := 1, kind := 1, perms := 8, job := some 5 }] })] },
    by decide +kernel⟩, ⟨5, {},
    { withJob { st := .lowering, owner := 1, savePages := List.replicate 16 0 } with slv := [(1, { st := .active, record := [0x0404000000001001], pages := [{ page := 1, kind := 1, perms := 8, job := some 5 }] }), (2, { st := .quiesced, pages := [{ page := 1, kind := 1, perms := 8, job := some 5 }] })] },
    by decide +kernel⟩, ⟨5, [{ engine := 0, slot := 0, base := 0, size := 1 }],
    { withJob { st := .waiting, owner := 1, savePages := List.replicate 16 0, lowered := { contexts := [{ size := 1, fring := 65536, dring := 65664, ering := 65728 }] } } with slv := [(1, { st := .active, record := [0x0404000000001001], pages := [{ page := 1, kind := 1, perms := 8, job := some 5 }] }), (2, { st := .quiesced, pages := [{ page := 1, kind := 1, perms := 8, job := some 5 }] })] },
    by decide +kernel⟩, ⟨5, [{ engine := 0, slot := 0, base := 0, size := 1 }],
    { withJob { st := .waiting, owner := 1, savePages := List.replicate 16 0, lowered := { contexts := [{ size := 1, fring := 65536, dring := 65664, ering := 65728 }] } } with slv := [(1, { st := .active, record := [0x0404000000001001], pages := [{ page := 1, kind := 1, perms := 8, job := some 5 }] }), (2, { st := .quiesced, pages := [{ page := 1, kind := 1, perms := 8, job := some 5 }] })] },
    by decide +kernel⟩, ⟨5, [{ engine := 0, slot := 0, base := 0, size := 1 }],
    { withJob { st := .waiting, owner := 1, savePages := List.replicate 16 0, header := [0, 0, 0, 0x0040000000000000], lowered := { contexts := [{ size := 1, fring := 65536, dring := 65664, ering := 65728 }] } } with slv := [(1, { st := .active, record := [0x0404000000001001], pages := [{ page := 1, kind := 1, perms := 8, job := some 5 }] }), (2, { st := .quiesced, pages := [{ page := 1, kind := 1, perms := 8, job := some 5 }] })] },
    by decide +kernel⟩, ⟨5, [{ engine := 0, slot := 0, base := 0, size := 1 }],
    { { withJob { st := .waiting, owner := 1, savePages := List.replicate 16 1, saved := [(0, { ctx with size := 1 })], lowered := { contexts := [{ size := 1, fring := 65536, dring := 65664, ering := 65728 }] } } with slv := [(1, { st := .active, record := [0x0404000000001001], pages := [{ page := 1, kind := 1, perms := 8, job := some 5 }] }), (2, { st := .quiesced, pages := [{ page := 1, kind := 1, perms := 8, job := some 5 }] })] } with pkg := { owner := [(1, ownPack 1 5 0 15 false 1 true 0)], eccBad := [0] } },
    by decide +kernel⟩, ⟨5, [],
    { withJob { st := .waiting, owner := 1, savePages := List.replicate 16 0, lowered := { contexts := [{ size := 1, fring := 65536, dring := 65664, ering := 65728 }] } } with slv := [(1, { st := .active, record := [0x0404000000001001], pages := [{ page := 1, kind := 1, perms := 8, job := some 5 }] }), (2, { st := .quiesced, pages := [{ page := 1, kind := 1, perms := 8, job := some 5 }] })] },
    by decide +kernel⟩, ⟨{ mc [0x8000000000100000, 0, 0, 0, 0, 0, 0, 0, 0] with hostData := [1] }, _, up,
    by decide +kernel, rfl, by decide +kernel⟩,
    ⟨{ mc [0x8000000000100000, 0, 0, 0, 0, 0, 0, 0, 0] with hostData := [0x8A, 0xB2, 0x28, 0x8C, 1] }, _, up,
    by decide +kernel, rfl, by decide +kernel⟩⟩

/-- The hypotheses of JobsRun, met. -/
theorem witness_JobsRun :
    (∃ h : Nat, ∃ o : StepObs, ∃ r : GraphRun, ∃ s : State, (job s h).st = .running ∧ (job s h).core = none ∧ (job s
      h).boundary = none ∧ (job s h).unposted = [] ∧ stepDrained s h = true ∧ (job s h).barrierStep = none ∧
      chipsDone (job s h) o = true ∧ ((∀ c, (job s h).cadence = some c → c.inProgress = true)) ∧ hdrChips (job s
      h).header = 1 ∧ mapOfJob s h = none ∧ s.mgt.tacor = 1 ∧ ((job s h).tokenBytes = 0 ∨ eccHit s (ed0Key (poolFrame
      h) 0) 65536 = false) ∧ boundaryBlocked s h = none ∧ runStep s h o = .ok r) ∧
    (∃ h : Nat, ∃ s : State, (job s h).st = .running ∧ (job s h).tokenBytes = 0 ∧ blkStepRecords (job s h).block =
      false ∧ lastStep (job s h) = false ∧ (job s h).snap = none ∧ (job s h).cadence = none ∧ (sleeve s (job s
      h).owner).st = .active) ∧
    (∃ h : Nat, ∃ s : State, ∃ g : Nat, (job s h).st = .running ∧ (job s h).tokenBytes = 0 ∧ blkStepRecords (job s
      h).block = false ∧ lastStep (job s h) = false ∧ (job s h).snap = none ∧ (job s h).cadence = none ∧ (sleeve s
      (job s h).owner).st = .active ∧ g ≠ h) ∧
    (∃ h : Nat, ∃ o : StepObs, ∃ s : State, (job s h).st = .running ∧ (job s h).core = none ∧ (job s h).boundary =
      none ∧ (job s h).unposted = [] ∧ stepDrained s h = true ∧ chipsDone (job s h) o = true ∧ (job s h).barrierStep
      = none ∧ hdrChips (job s h).header = 1 ∧ s.mgt.tacor = 2 ∧ ((∀ c, (job s h).cadence = some c → c.inProgress =
      true))) ∧
    (∃ h : Nat, ∃ s : State, (job s h).st = .held ∧ ((∀ c ∈ (job s h).holds, holdCleared s (job s h) c = true)) ∧
      (job s h).saved ≠ []) ∧
    (∃ h : Nat, ∃ s : State, (job s h).st = .held ∧ ((∀ c ∈ (job s h).holds, holdCleared s (job s h) c = true)) ∧
      (job s h).saved = [] ∧ (job s h).boundary = none ∧ (job s h).unposted = []) ∧
    (∃ h : Nat, ∃ s : State, ∃ o, (job s h).st = .held ∧ ((∀ c ∈ (job s h).holds, holdCleared s (job s h) c = true))
      ∧ (job s h).saved = [] ∧ (job s h).boundary = some o) ∧
    (∃ h : Nat, ∃ s : State, (job s h).st = .held ∧ ((∀ c ∈ (job s h).holds, holdCleared s (job s h) c = true)) ∧
      (job s h).saved = [] ∧ (job s h).boundary = none ∧ (job s h).unposted ≠ []) ∧
    (∃ h : Nat, ∃ c : Cadence, ∃ s : State, (job s h).cadence = some c ∧ (job s h).st = .running ∧ c.nextRelease ≤
      now s ∧ c.inProgress = false ∧ ((∀ x ∈ jobSlots s h, (diePwr s (x.1 / 4)).level < 2)) ∧ (sleeve s (job s
      h).owner).st = .active) ∧
    (∃ h : Nat, ∃ c : Cadence, ∃ s : State, (job s h).cadence = some c ∧ ((job s h).st = .running ∨ (job s h).st =
      .held) ∧ c.nextRelease ≤ now s ∧ (c.inProgress = true ∨ (job s h).st = .held ∨ (sleeve s (job s h).owner).st ≠
      .active ∨ (∃ x ∈ jobSlots s h, 2 ≤ (diePwr s (x.1 / 4)).level))) ∧
    (∃ h : Nat, ∃ step : Nat, ∃ n : Snap, ∃ r : DrainResult, ∃ s : State, (job s h).snap = some n ∧ n.taken = some
      step ∧ (r ≠ .landed ∨ snapTracks s h = false ∧ snapWaits s h = false)) ∧
    (∃ h : Nat, ∃ step : Nat, ∃ n : Snap, ∃ r : DrainResult, ∃ s : State, (job s h).snap = some n ∧ n.taken = some
      step ∧ (r ≠ .landed ∨ snapTracks s h = false ∧ snapWaits s h = false)) ∧
    (∃ h : Nat, ∃ step : Nat, ∃ n : Snap, ∃ r : DrainResult, ∃ s : State, (job s h).snap = some n ∧ n.taken = some
      step ∧ (r ≠ .landed ∨ snapTracks s h = false ∧ snapWaits s h = false)) :=
  ⟨⟨5, {}, _, up, by refine ⟨?_, ?_, ?_, ?_, ?_, ?_, ?_, ?_, ?_, ?_, ?_, ?_, ?_, rfl⟩ <;> decide +kernel⟩, ⟨5, up, by decide +kernel⟩, ⟨5, up, 6, by decide +kernel⟩, ⟨5, {},
    { up with mgt := { tacor := 2 } }, by decide +kernel⟩, ⟨5,
    { withJob { st := .held, owner := 1, holds := [.tacorRestart, .snapshot], saved := [(0, {})] } with mgt := { up.mgt with tacor := 1 } },
    by decide +kernel⟩, ⟨5,
    { withJob { st := .held, owner := 1, holds := [.tacorRestart, .snapshot, .quiesce] } with mgt := { up.mgt with tacor := 1 } },
    by decide +kernel⟩, ⟨5,
    { withJob { st := .held, owner := 1, holds := [.tacorRestart], boundary := some ({} : StepObs) } with mgt := { up.mgt with tacor := 1 } },
    ({} : StepObs), by decide +kernel⟩, ⟨5,
    { withJob { st := .held, owner := 1, holds := [], unposted := [[0, 0, 0]] } with mgt := { up.mgt with tacor := 1 } },
    by decide +kernel⟩, ⟨5, { characterised := 0, nextRelease := 0 }, withJob
    { st := .running, owner := 1, cadence := some { characterised := 0, nextRelease := 0 } }, by decide +kernel⟩, ⟨5,
    { characterised := 0, nextRelease := 0, inProgress := true }, withJob
    { st := .running, owner := 1, cadence := some { characterised := 0, nextRelease := 0, inProgress := true } },
    by decide +kernel⟩, ⟨5, 0, { target := 0, peer := none, taken := some 0, total := 0, copied := 0 }, .landed,
    withJob
    { st := .running, owner := 1, snap := some { target := 0, peer := none, taken := some 0, total := 0, copied := 0 } },
    by decide +kernel⟩, ⟨5, 0, { target := 0, peer := none, taken := some 0, total := 0, copied := 0 }, .targetLost,
    withJob
    { st := .running, owner := 1, snap := some { target := 0, peer := none, taken := some 0, total := 0, copied := 0 } },
    by decide +kernel⟩, ⟨5, 0, { target := 0, peer := none, taken := some 0, total := 0, copied := 0 }, .crcFailed,
    withJob
    { st := .running, owner := 1, snap := some { target := 0, peer := none, taken := some 0, total := 0, copied := 0 } },
    by decide +kernel⟩⟩

/-- The hypotheses of TeardownRuns, met. -/
theorem witness_TeardownRuns :
    (∃ c : Cmd, ∃ s : State, Served 0x182 2 isSleeveUser c s ∧ NamesJob s c (argN c 0) ∧ (job s (argN c 0)).st ≠
      .draining ∧ (job s (argN c 0)).st ≠ .ending ∧ (job s (argN c 0)).gen = argN c 1) ∧
    (∃ c : Cmd, ∃ s : State, Served 0x182 2 isSleeveUser c s ∧ NamesJob s c (argN c 0) ∧ (job s (argN c 0)).st ≠
      .draining ∧ (job s (argN c 0)).st ≠ .ending ∧ (job s (argN c 0)).gen ≠ argN c 1) ∧
    (∃ h : Nat, ∃ s : State, ((job s h).st = .draining ∨ (job s h).st = .ending) ∧ jobDrained s h = true) ∧
    (∃ h : Nat, ∃ s : State, ((job s h).st = .draining ∨ (job s h).st = .ending) ∧ jobDrained s h = true) ∧
    (∃ h : Nat, ∃ d : Teardown, ∃ s : State, ((job s h).st = .draining ∨ (job s h).st = .ending) ∧ jobDrained s h =
      true ∧ (job s h).tear = some d ∧ (sleeve s (job s h).owner).st = .active ∧ (sleeve s (job s h).owner).submits =
      [] ∧ (job s h).snap = none ∧ ringBad s (job s h).owner (complAddr (job s h) (job s h).complTail) = false) ∧
    (∃ h : Nat, ∃ d : Teardown, ∃ s : State, (job s h).tear = some d ∧ (job s h).st = .draining ∧ d.abandoned = false
      ∧ s.fab.linkMs * ticksPerMs ≤ since s d.startRaw ∧ (sleeve s (job s h).owner).st = .active) :=
  ⟨⟨tc 1 [5, 0], up, by decide +kernel⟩, ⟨tc 1 [5, 1], up, by decide +kernel⟩, ⟨5, withJob
    { st := .draining, owner := 1 }, by decide +kernel⟩, ⟨5, withJob { st := .ending, owner := 1 },
    by decide +kernel⟩, ⟨5, { status := 0, kind := 1, startRaw := 0 }, withJob
    { st := .draining, owner := 1, tear := some { status := 0, kind := 1, startRaw := 0 } }, by decide +kernel⟩, ⟨5,
    { status := 0, kind := 1, startRaw := 0 },
    { withJob { st := .draining, owner := 1, tear := some { status := 0, kind := 1, startRaw := 0 } } with tim := { raw := 10 ^ 9 } },
    by decide +kernel⟩⟩

/-- The hypotheses of JobCommandsComplete, met. -/
theorem witness_JobCommandsComplete :
    (∃ c : Cmd, ∃ s : State, Served 0x181 1 isSleeveUser c s ∧ NamesJob s c (argN c 0) ∧ (job s (argN c 0)).held =
      true ∧ (job s (argN c 0)).st ≠ .waiting ∧ (job s (argN c 0)).ended = false) ∧
    (∃ c : Cmd, ∃ s : State, Served 0x181 1 isSleeveUser c s ∧ NamesJob s c (argN c 0) ∧ (job s (argN c 0)).held =
      true ∧ (job s (argN c 0)).st = .waiting ∧ (job s (argN c 0)).ended = false) ∧
    (∃ c : Cmd, ∃ bs : List Byte, ∃ s : State, Served 0x183 5 isSleeveUser c s ∧ NamesJob s c (argN c 0) ∧ (job s
      (argN c 0)).tokenBytes ≠ 0 ∧ ((∀ n, (job s (argN c 0)).pool.highest = some n → n < argN c 1)) ∧ ((∀ a ∈ (job s
      (argN c 0)).pool.joins, a.number ≠ argN c 1)) ∧ argN c 1 < 2 ^ 32 ∧ argN c 3 ≤ 2 ^ 20 ∧ (job s (argN c 0)).st ≠
      .draining ∧ (job s (argN c 0)).st ≠ .ending ∧ (argN c 4 = 0 ∨ (job s (argN c 0)).lastBoundary = none) ∧ (job s
      (argN c 0)).pool.seqs.length + (job s (argN c 0)).pool.joins.length < 4096 ∧ readArg s (partyOf c.src)
      c.hostData (arg c 2) 1 = .ok bs) ∧
    (∃ c : Cmd, ∃ q : Seq, ∃ s : State, Served 0x184 3 isSleeveUser c s ∧ NamesJob s c (argN c 0) ∧ q ∈ (job s (argN
      c 0)).pool.seqs ∧ q.number = argN c 1 ∧ (job s (argN c 0)).lastBoundary = none) ∧
    (∃ c : Cmd, ∃ s : State, Served 0x185 2 isSleeveUser c s ∧ NamesJob s c (argN c 0) ∧ (job s (argN c 0)).st ≠
      .draining ∧ (job s (argN c 0)).st ≠ .ending ∧ (job s (argN c 0)).core = none ∧ (job s (argN c 0)).snap = none ∧
      snapshots s < 2 ∧ (jobPages s (argN c 0)).length ≤ 4194304 ∧ ((if bitOf (arg c 1) 63 then (snapSink s (job s
      (argN c 0)).owner (fld (arg c 1) 57 48)).isSome = true else (let len := snapBytes s (argN c 0) (jobPages s
      (argN c 0)); inWindow (fld (arg c 1) 47 0) len = true ∧ ∀ q ∈ pagesOf (fld (arg c 1) 47 0) len, ownValid
      (ownEntry s q) = true ∧ ownOwner (ownEntry s q) = (job s (argN c 0)).owner ∧ ownLoc (ownEntry s q) = 2 ∧
      ownShared (ownEntry s q) = true)))) ∧
    (∃ c : Cmd, ∃ n : Snap, ∃ s : State, Served 0x186 1 isSleeveUser c s ∧ NamesJob s c (argN c 0) ∧ (job s (argN c
      0)).snap = some n ∧ n.taken = none) ∧
    (∃ c : Cmd, ∃ n : Snap, ∃ s : State, Served 0x186 1 isSleeveUser c s ∧ NamesJob s c (argN c 0) ∧ (job s (argN c
      0)).snap = some n ∧ n.taken.isSome = true) :=
  ⟨⟨tc 1 [5], withJob { st := .held, owner := 1, held := true }, by decide +kernel⟩, ⟨tc 1 [5], withJob
    { st := .waiting, owner := 1, held := true }, by decide +kernel⟩, ⟨mc [5, 1, 0x8000000000100000, 0, 0], [0],
    withJob { st := .running, owner := 1, tokenBytes := 4 }, by decide +kernel⟩, ⟨tc 1 [5, 7, 0],
    { number := 7, len := 1, st := .running, pages := [] }, withJob
    { st := .running, owner := 1, pool := { seqs := [{ number := 7, len := 1, st := .running, pages := [] }] } },
    by decide +kernel⟩, ⟨tc 1 [5, 0x20000], { up with pkg := { owner := [(2, ownPack 1 0 0 15 false 2 true 0)] } },
    by decide +kernel⟩, ⟨tc 1 [5], { target := 0, peer := none, taken := none, total := 0, copied := 0 }, withJob
    { st := .running, owner := 1, snap := some { target := 0, peer := none, taken := none, total := 0, copied := 0 } },
    by decide +kernel⟩, ⟨tc 1 [5], { target := 0, peer := none, taken := some 0, total := 0, copied := 0 }, withJob
    { st := .running, owner := 1, snap := some { target := 0, peer := none, taken := some 0, total := 0, copied := 0 } },
    by decide +kernel⟩⟩

/-- The hypotheses of SleeveStates, met. -/
theorem witness_SleeveStates :
    (∃ c : Cmd, ∃ s : State, Served 0x100 8 isMgmt c s ∧ firstFail (createChecks s (c.args.take 8)) = none) ∧
    (∃ c : Cmd, ∃ st : Status, ∃ s : State, Served 0x100 8 isMgmt c s ∧ firstFail (createChecks s (c.args.take 8)) =
      some st) ∧
    (∃ c : Cmd, ∃ k : Nat, ∃ r : List W64, ∃ s : State, Served 0x101 8 isMgmt c s ∧ r = c.args.take 8 ∧ k = fld (wd r
      0) 63 58 ∧ NamesSleeve s k ∧ recordBad s r = false ∧ fld (wd r 0) 39 20 = fld (wd (sleeve s k).record 0) 39 20
      ∧ (r.drop 2).take 4 = ((sleeve s k).record.drop 2).take 4 ∧ heldPages (sleeve s k) 0 ≤ fld (wd r 1) 63 40 ∧
      heldPages (sleeve s k) 1 ≤ fld (wd r 1) 39 16 ∧ quotasExceed s k r = false) ∧
    (∃ c : Cmd, ∃ s : State, Served 0x102 4 isMgmt c s ∧ NamesSleeve s (argN c 0) ∧ argN c 1 ≤ 7 ∧ argN c 2 % 4096 =
      0 ∧ argN c 3 % 4096 = 0 ∧ argN c 2 + argN c 3 ≤ 2 ^ 64 ∧ rangesTotal (sleeve s (argN c 0)) (argN c 1) (argN c
      3) ≤ 2 ^ 38 ∧ (sleeve s (argN c 0)).st = .quiesced) ∧
    (∃ c : Cmd, ∃ s : State, Served 0x102 4 isMgmt c s ∧ NamesSleeve s (argN c 0) ∧ argN c 1 ≤ 7 ∧ argN c 2 % 4096 =
      0 ∧ argN c 3 % 4096 = 0 ∧ argN c 2 + argN c 3 ≤ 2 ^ 64 ∧ rangesTotal (sleeve s (argN c 0)) (argN c 1) (argN c
      3) ≤ 2 ^ 38 ∧ (sleeve s (argN c 0)).st = .quiesced) ∧
    (∃ c : Cmd, ∃ s : State, Served 0x103 2 isMgmt c s ∧ NamesSleeve s (argN c 0) ∧ argN c 1 ≤ 1000 ∧ (sleeve s (argN
      c 0)).st = .quiesced) ∧
    (∃ c : Cmd, ∃ s : State, Served 0x103 2 isMgmt c s ∧ NamesSleeve s (argN c 0) ∧ argN c 1 ≤ 1000 ∧ ((sleeve s
      (argN c 0)).st = .active ∨ (sleeve s (argN c 0)).st = .quiescing)) ∧
    (∃ k : Nat, ∃ s : State, (sleeve s k).st = .quiescing ∧ quiesceDone s k = true) ∧
    (∃ k : Nat, ∃ s : State, (sleeve s k).st = .quiescing) ∧
    (∃ k : Nat, ∃ s : State, (sleeve s k).st = .quiescing ∧ ((∀ w ∈ (sleeve s k).quiescers, now s < w.2))) ∧
    (∃ k : Nat, ∃ w : Src × Nat, ∃ s : State, (sleeve s k).st = .quiescing ∧ (sleeve s k).quiescers = [w] ∧ w.2 ≤ now
      s) ∧
    (∃ c : Cmd, ∃ s : State, Served 0x104 1 isMgmt c s ∧ NamesSleeve s (argN c 0) ∧ queuesCovered (sleeve s (argN c
      0)) = true ∧ (sleeve s (argN c 0)).st ≠ .resetting ∧ (sleeve s (argN c 0)).st ≠ .removing) ∧
    (∃ c : Cmd, ∃ s : State, Served 0x105 2 isMgmt c s ∧ NamesSleeve s (argN c 0) ∧ argN c 1 ≤ 1 ∧ ((sleeve s (argN c
      0)).st = .quiesced ∨ argN c 1 = 1)) ∧
    (∃ c : Cmd, ∃ s : State, Served 0x105 2 isMgmt c s ∧ NamesSleeve s (argN c 0) ∧ argN c 1 ≤ 1 ∧ ((sleeve s (argN c
      0)).st = .quiesced ∨ argN c 1 = 1)) ∧
    (∃ c : Cmd, ∃ s : State, Served 0x106 2 isMgmt c s ∧ NamesSleeve s (argN c 0) ∧ argN c 1 ≤ 1 ∧ ((sleeve s (argN c
      0)).st = .quiesced ∨ argN c 1 = 1)) ∧
    (∃ c : Cmd, ∃ s : State, Served 0x106 2 isMgmt c s ∧ NamesSleeve s (argN c 0) ∧ argN c 1 ≤ 1 ∧ ((sleeve s (argN c
      0)).st = .quiesced ∨ argN c 1 = 1)) :=
  ⟨⟨mc [0x0C04000000001001, 0, 0, 0, 0, 0, 0, 0], up, by decide +kernel⟩, ⟨mc [0, 0, 0, 0, 0, 0, 0, 0], .denied, up,
    by decide +kernel⟩, ⟨mc [0x0404000000001001, 0, 0, 0, 0, 0, 0, 0], 1, [0x0404000000001001, 0, 0, 0, 0, 0, 0, 0],
    up, by decide +kernel⟩, ⟨mc [2, 7, 0, 4096], up, by decide +kernel⟩, ⟨mc [2, 0, 0xFFFFFFFFFFFFF000, 4096], up,
    by decide +kernel⟩, ⟨mc [2, 1000], up, by decide +kernel⟩, ⟨mc [1, 0], up, by decide +kernel⟩, ⟨1,
    { up with slv := [(1, { st := .quiescing })], jobs := [] }, by decide +kernel⟩, ⟨1,
    { up with slv := [(1, { st := .quiescing })] }, by decide +kernel⟩, ⟨1,
    { up with slv := [(1, { st := .quiescing, quiescers := [(.mailbox 0 0, 9)] })] }, by decide +kernel⟩, ⟨1,
    (.mailbox 0 0, 0), { up with slv := [(1, { st := .quiescing, quiescers := [(.mailbox 0 0, 0)] })] },
    by decide +kernel⟩, ⟨mc [1], { up with slv := [(1, { st := .active, ranges := [(0, (0, 0x100000))] })] },
    by decide +kernel⟩, ⟨mc [2, 0], up, by decide +kernel⟩, ⟨mc [2, 1], up, by decide +kernel⟩, ⟨mc [2, 0], up,
    by decide +kernel⟩, ⟨mc [2, 1], up, by decide +kernel⟩⟩

/-- The hypotheses of SleeveHoldings, met. -/
theorem witness_SleeveHoldings :
    (∃ c : Cmd, ∃ s : State, Served 0x107 1 isSleeveUser c s ∧ NamesSleeve s (argN c 0) ∧ ownOnly (partyOf c.src)
      (argN c 0) = false) ∧
    (∃ c : Cmd, ∃ ps : List Nat, ∃ s : State, ∃ t : State, ∃ u : State, Served 0x108 5 isSleeveUser c s ∧ NamesSleeve
      s (argN c 0) ∧ ownOnly (partyOf c.src) (argN c 0) = false ∧ argN c 2 ≤ 1 ∧ argN c 3 ≤ 15 ∧ heldPages (sleeve s
      (argN c 0)) (argN c 2) + argN c 1 ≤ quota (sleeve s (argN c 0)) (argN c 2) ∧ checkArg s (partyOf c.src) .wr
      (arg c 4) (8 * argN c 1) = none ∧ takePages s (argN c 0) none (argN c 2) (argN c 3) (argN c 1) = some (t, ps) ∧
      writeArg t (partyOf c.src) (arg c 4) (ps.flatMap (leBytes 8)) = .ok u) ∧
    (∃ c : Cmd, ∃ bs : List Byte, ∃ s : State, ∃ ps, ps = (wordsOf (argN c 1) bs).map BitVec.toNat ∧ Served 0x109 3
      isSleeveUser c s ∧ NamesSleeve s (argN c 0) ∧ ownOnly (partyOf c.src) (argN c 0) = false ∧ readArg s (partyOf
      c.src) c.hostData (arg c 2) (8 * argN c 1) = .ok bs ∧ ((∀ q ∈ ps, pageInUse s (argN c 0) q = false ∧
      isSleevePage (sleeve s (argN c 0)) q = true))) ∧
    (∃ c : Cmd, ∃ ps : List Nat, ∃ s : State, ∃ t : State, Served 0x10A 1 isMgmt c s ∧ NamesSleeve s (argN c 0) ∧
      takePages s (argN c 0) none 1 8 (bitmapNeed (sleeve s (argN c 0))) = some (t, ps)) ∧
    (∃ c : Cmd, ∃ s : State, ∃ u : State, ∃ k, k = argN c 0 ∧ ∃ v, v = sleeve s k ∧ ∃ ps, ps = dirtyPages s k (argN c
      4) ∧ Served 0x10B 5 isMgmt c s ∧ NamesSleeve s (argN c 0) ∧ v.dirtyOn = true ∧ argN c 2 ≤ 512 ∧ argN c 1 + argN
      c 2 ≤ bitmapWords v ∧ bitmapBad s v (argN c 1) (argN c 2) = false ∧ writeArg (clearDirty (clearBitmap s k (argN
      c 1) (argN c 2)) ps) (partyOf c.src) (arg c 3) (ps.flatMap (leBytes 8)) = .ok u) ∧
    (∃ k : Nat, ∃ addr : Nat, ∃ bytes : List Byte, ∃ s : State, ∃ v, v = sleeve s k ∧ ∃ o, o = rangeOffset v addr ∧
      Memory.wf s.pkg.mem = true ∧ s.pkg.eccBad = [] ∧ v.dirtyOn = true ∧ bytes ≠ [] ∧ (o + bytes.length - 1) / 4096
      = o / 4096 ∧ o / 262144 / 8192 < v.bitmapPages.length) ∧
    (∃ c : Cmd, ∃ s : State, Served 0x10C 1 isMgmt c s ∧ NamesSleeve s (argN c 0)) ∧
    (∃ c : Cmd, ∃ s : State, ∃ u : State, Served 0x10D 2 isMgmt c s ∧ NamesSleeve s (argN c 0) ∧ (sleeve s (argN c
      0)).st = .quiesced ∧ writeArg s (partyOf c.src) (arg c 1) (exportBytes (sleeve s (argN c 0))) = .ok u) ∧
    (∃ c : Cmd, ∃ b0 : List Byte, ∃ bs : List Byte, ∃ s : State, ∃ u : State, ∃ rs, rs = ((List.range 8).foldl (fun t
      i => tset (0, 0) t i ((wd (wordsOf 2 (bs.drop (64 + 16 * i))) 0).toNat, (wd (wordsOf 2 (bs.drop (64 + 16 * i)))
      1).toNat)) []) ∧ Served 0x10E 1 isMgmt c s ∧ readArg s (partyOf c.src) c.hostData (arg c 0) 4096 = .ok b0 ∧
      readArg s (partyOf c.src) c.hostData (arg c 0) (cdiv (200 + 4 * leNat ((b0.drop 192).take 8)) 4096 * 4096) =
      .ok bs ∧ firstFail (createChecks s (wordsOf 8 bs)) = none ∧ rangesBad rs = false ∧ importPages (setSleeve s
      (fld (wd (wordsOf 8 bs) 0) 63 58) { st := .quiesced, record := wordsOf 8 bs, ranges := rs }) (fld (wd (wordsOf
      8 bs) 0) 63 58) (exportPages bs) = some u) ∧
    (∃ c : Cmd, ∃ s : State, Served 0x10F 1 (fun p => isSleeveUser p || isRadio p) c s ∧ NamesSleeve s (argN c 0) ∧
      ownOnly (partyOf c.src) (argN c 0) = false ∧ isRadio (partyOf c.src) = false) ∧
    (∃ c : Cmd, ∃ s : State, Served 0x10F 1 (fun p => isSleeveUser p || isRadio p) c s ∧ argN c 0 = 0 ∧ isMgmt
      (partyOf c.src) = true) :=
  ⟨⟨tc 1 [1], up, by decide +kernel⟩, ⟨tc 1 [1, 1, 0, 15, 0x8000000000000000], [0], quota1, taken (takePages quota1 1
    none 0 15 1), got (writeArg (taken (takePages quota1 1 none 0 15 1)) (.tenant 1) 0x8000000000000000 (leBytes 8
    0)), by decide +kernel⟩, ⟨{ tc 1 [1, 1, 0x8000000000000000] with hostData := [1] }, [1, 0, 0, 0, 0, 0, 0, 0],
    { up with slv := [(1, { st := .active, ranges := [(0, (0, 0x100000))], pages := [{ page := 1, kind := 0, perms := 15, job := none }] })], jobs := [], mgt := { up.mgt with pasidOn := true } },
    _, rfl, by decide +kernel⟩, ⟨mc [1], [], up, taken (takePages up 1 none 1 8 0), by decide +kernel⟩, ⟨mc [1, 1, 1,
    0x8000000000100000, 0],
    { up with slv := [(1, { st := .active, dirtyOn := true, ranges := [(0, (0, 0x100000))], bitmapPages := [7] })] },
    got (writeArg (clearDirty (clearBitmap
    { up with slv := [(1, { st := .active, dirtyOn := true, ranges := [(0, (0, 0x100000))], bitmapPages := [7] })] }
    1 1 1) []) .manager 0x8000000000100000 []), _, rfl, _, rfl, _, rfl, by decide +kernel⟩, ⟨1, 0x8000, [1],
    { up with slv := [(1, { st := .active, dirtyOn := true, ranges := [(0, (0, 0x100000))], bitmapPages := [7] })] },
    _, rfl, _, rfl, by decide +kernel⟩, ⟨mc [1], up, by decide +kernel⟩, ⟨mc [2, 0x8000000000100000], up, got
    (writeArg up .manager 0x8000000000100000 (exportBytes (sleeve up 2))), by decide +kernel⟩,
    ⟨{ mc [0x8000000000100000] with hostData := [0x01, 0x10, 0, 0, 0, 0, 4, 12] }, (([0x01, 0x10, 0, 0, 0, 0, 4, 12]
    ++ List.replicate 4096 0).take 4096), (([0x01, 0x10, 0, 0, 0, 0, 4, 12] ++ List.replicate 4096 0).take 4096), up,
    setSleeve up 3 { st := .quiesced, record := [0x0C04000000001001, 0, 0, 0, 0, 0, 0, 0] }, _, rfl,
    by decide +kernel⟩, ⟨tc 1 [1], up, by decide +kernel⟩, ⟨mc [0], up, by decide +kernel⟩⟩

/-- The hypotheses of PagesAllocatedAreZeroed, met. -/
theorem witness_PagesAllocatedAreZeroed :
    (∃ s : State, ∃ t : State, ∃ k : Nat, ∃ kind : Nat, ∃ perms : Nat, ∃ n : Nat, ∃ ps : List Nat, 1 ≤ k ∧ k ≤ 63 ∧
      kind ≤ 1 ∧ perms ≤ 15 ∧ ((∀ g ∈ s.pkg.density, g ≤ 16)) ∧ takePages s k none kind perms n = some (t, ps)) ∧
    (∃ s : State, ∃ t : State, ∃ k : Nat, ∃ kind : Nat, ∃ perms : Nat, ∃ n : Nat, ∃ ps : List Nat, ∃ p : Nat, 1 ≤ k ∧
      k ≤ 63 ∧ kind ≤ 1 ∧ perms ≤ 15 ∧ ((∀ g ∈ s.pkg.density, g ≤ 16)) ∧ takePages s k none kind perms n = some (t,
      ps) ∧ p ∈ ps) ∧
    (∃ s : State, ∃ t : State, ∃ k : Nat, ∃ kind : Nat, ∃ perms : Nat, ∃ n : Nat, ∃ ps : List Nat, ∃ p : Nat, ∃ i :
      Nat, 1 ≤ k ∧ k ≤ 63 ∧ kind ≤ 1 ∧ perms ≤ 15 ∧ ((∀ g ∈ s.pkg.density, g ≤ 16)) ∧ takePages s k none kind perms n
      = some (t, ps) ∧ p ∈ ps ∧ i < 65536) ∧
    (∃ s : State, ∃ t : State, ∃ k : Nat, ∃ kind : Nat, ∃ perms : Nat, ∃ n : Nat, ∃ ps : List Nat, ∃ q : Nat, 1 ≤ k ∧
      k ≤ 63 ∧ kind ≤ 1 ∧ perms ≤ 15 ∧ ((∀ g ∈ s.pkg.density, g ≤ 16)) ∧ takePages s k none kind perms n = some (t,
      ps) ∧ q ∉ ps) :=
  ⟨⟨quota1, taken (takePages quota1 1 none 0 15 1), 1, 0, 15, 1, [0], by decide +kernel⟩, ⟨quota1, taken (takePages
    quota1 1 none 0 15 1), 1, 0, 15, 1, [0], 0, by decide +kernel⟩, ⟨quota1, taken (takePages quota1 1 none 0 15 1),
    1, 0, 15, 1, [0], 0, 65535, by decide +kernel⟩, ⟨quota1, taken (takePages quota1 1 none 0 15 1), 1, 0, 15, 1,
    [0], 1, by decide +kernel⟩⟩

/-- The hypotheses of DoorbellsAndFetches, met. -/
theorem witness_DoorbellsAndFetches :
    (∃ k : Nat, ∃ v : W32, ∃ s : State, doorbellUp s k = true ∧ fld v 15 0 < qEntries (sleeve s k) 63 48) ∧
    (∃ k : Nat, ∃ v : W32, ∃ s : State, doorbellUp s k = true ∧ qEntries (sleeve s k) 63 48 ≤ fld v 15 0) ∧
    (∃ k : Nat, ∃ v : W32, ∃ s : State, doorbellUp s k = true ∧ fld v 15 0 < qEntries (sleeve s k) 47 32 ∧ (sleeve s
      k).backlog = []) ∧
    (∃ k : Nat, ∃ v : W32, ∃ s : State, doorbellUp s k = true ∧ fld v 15 0 < qEntries (sleeve s k) 47 32) ∧
    (∃ k : Nat, ∃ v : W32, ∃ s : State, doorbellUp s k = true ∧ fld v 15 0 < qEntries (sleeve s k) 31 16) ∧
    (∃ k : Nat, ∃ s : State, doorbellUp s k = true) ∧
    (∃ k : Nat, ∃ e : List W64, ∃ data : List Byte, ∃ s : State, fetches s k = true ∧ hostReachable s = true ∧
      inHostRange (sleeve s k) ((wd (sleeve s k).record 2).toNat + 128 * (sleeve s k).sqHead) 128 = true) ∧
    (∃ k : Nat, ∃ e : List W64, ∃ data : List Byte, ∃ s : State, fetches s k = true ∧ hostReachable s = true ∧
      inHostRange (sleeve s k) ((wd (sleeve s k).record 2).toNat + 128 * (sleeve s k).sqHead) 128 = true) ∧
    (∃ k : Nat, ∃ data : List Byte, ∃ s : State, fetches s k = true) :=
  ⟨⟨1, 3, queues1, by decide +kernel⟩, ⟨1, 4, queues1, by decide +kernel⟩, ⟨1, 3, queues1, by decide +kernel⟩, ⟨1, 3,
    queues1, by decide +kernel⟩, ⟨1, 3, queues1, by decide +kernel⟩, ⟨1, queues1, by decide +kernel⟩, ⟨1, [], [],
    queues1, by decide +kernel⟩, ⟨1, [], [], queues1, by decide +kernel⟩, ⟨1, [], queues1, by decide +kernel⟩⟩

/-- The hypotheses of RegisterWritesTakeTheirFields, met. -/
theorem witness_RegisterWritesTakeTheirFields :
    (∃ e : Nat, ∃ i : Nat, ∃ v : W32, ∃ s : State, Up s ∧ e ≤ 15 ∧ i ≤ 4 ∧ fld v 11 0 ≤ (slot s e i).fring.entries) ∧
    (∃ e : Nat, ∃ i : Nat, ∃ v : W32, ∃ s : State, Up s ∧ e ≤ 15 ∧ i ≤ 4 ∧ fld v 11 0 ≤ (slot s e i).fring.entries) ∧
    (∃ e : Nat, ∃ i : Nat, ∃ v : W32, ∃ s : State, Up s ∧ e ≤ 15 ∧ i ≤ 4 ∧ fld v 11 0 ≤ (slot s e i).dring.entries) ∧
    (∃ e : Nat, ∃ i : Nat, ∃ v : W32, ∃ s : State, Up s ∧ e ≤ 15 ∧ i ≤ 4 ∧ fld v 11 0 ≤ (slot s e i).ering.entries) ∧
    (∃ addr : Nat, ∃ v : W64, ∃ s : State, Up s ∧ inRegs addr = true) ∧
    (∃ addr : Nat, ∃ v : W64, ∃ s : State, Up s) ∧
    (∃ v : W64, ∃ s : State, Up s) ∧
    (∃ v : W64, ∃ s : State, Up s ∧ s.mgt.cxlUp = true) ∧
    (∃ v : W64, ∃ s : State, Up s ∧ s.mgt.cxlUp = true ∧ fld v 11 0 ≠ 0) ∧
    (∃ v : W64, ∃ s : State, Up s ∧ s.mgt.cxlUp = true ∧ fld v 11 0 = 0) ∧
    (∃ k : Nat, ∃ addr : Nat, ∃ v : W64, ∃ i : Issuer, ∃ s : State, Up s ∧ coreIssuer s k = some i ∧ inRegs addr =
      true ∧ coreRegWrite s k i.sleeve (regDie addr) (regOff addr) v = none) ∧
    (∃ addr : Nat, ∃ v : W64, ∃ s : State, ∃ t : State, Up s ∧ inRegs addr = true ∧ coreRegWrite s 16 0 (regDie addr)
      (regOff addr) v = some t) :=
  ⟨⟨15, 4, 0, up, by decide +kernel⟩, ⟨0, 0, 3, withCtx ctx, by decide +kernel⟩, ⟨0, 0, 3, withCtx ctx,
    by decide +kernel⟩, ⟨0, 0, 3, withCtx ctx, by decide +kernel⟩, ⟨regBase, 0, up, by decide +kernel⟩, ⟨0, 0, up,
    by decide +kernel⟩, ⟨0, up, by decide +kernel⟩, ⟨0, up, by decide +kernel⟩, ⟨1, up, by decide +kernel⟩, ⟨0x1000,
    up, by decide +kernel⟩, ⟨3, regBase, 0, issuer5, withCore, by decide +kernel⟩, ⟨regBase + 0x40000000 + 0x20000,
    0, up, got (.ok (ε := Unit) ((coreRegWrite up 16 0 4 0x20000 0).getD {})), by decide +kernel⟩⟩

/-- The hypotheses of HostCoreAccessesAreChecked, met. -/
theorem witness_HostCoreAccessesAreChecked :
    (∃ k : Nat, ∃ addr : Nat, ∃ n : Nat, ∃ i : Issuer, ∃ bs : List Byte, ∃ s : State, coreIssuer s k = some i ∧
      inWindow addr n = true ∧ coreTracker s k addr n = true ∧ devRead s i addr n = .ok bs) ∧
    (∃ k : Nat, ∃ addr : Nat, ∃ i : Issuer, ∃ data : List Byte, ∃ s : State, ∃ t : State, coreIssuer s k = some i ∧
      inWindow addr data.length = true ∧ coreTracker s k addr data.length = true ∧ devWrite s i .wr addr data = .ok
      t) ∧
    (∃ k : Nat, ∃ addr : Nat, ∃ v : W64, ∃ i : Issuer, ∃ s : State, coreIssuer s k = some i ∧ inWindow addr 8 = true
      ∧ coreTracker s k addr 8 = true ∧ checkRange s i .at addr 8 = none ∧ windowEcc s addr 8 = false) ∧
    (∃ k : Nat, ∃ addr : Nat, ∃ n : Nat, ∃ i : Issuer, ∃ s : State, coreIssuer s k = some i ∧ inWindow addr n = true
      ∧ coreTracker s k addr n = true ∧ devRead s i addr n = .error .denied) ∧
    (∃ k : Nat, ∃ addr : Nat, ∃ n : Nat, ∃ i : Issuer, ∃ s : State, coreIssuer s k = some i ∧ inWindow addr n = true
      ∧ coreTracker s k addr n = true ∧ devRead s i addr n = .error .stale) ∧
    (∃ k : Nat, ∃ addr : Nat, ∃ n : Nat, ∃ i : Issuer, ∃ s : State, coreIssuer s k = some i ∧ inWindow addr n = true
      ∧ coreTracker s k addr n = true ∧ devRead s i addr n = .error .wait) ∧
    (∃ k : Nat, ∃ addr : Nat, ∃ n : Nat, ∃ i : Issuer, ∃ s : State, coreIssuer s k = some i ∧ inWindow addr n = true
      ∧ coreTracker s k addr n = true ∧ devRead s i addr n = .error .dataEcc) ∧
    (∃ k : Nat, ∃ addr : Nat, ∃ n : Nat, ∃ i : Issuer, ∃ s : State, coreIssuer s k = some i ∧ inWindow addr n = false
      ∧ inRegs addr = false ∧ firmwareCore s k = false) ∧
    (∃ k : Nat, ∃ addr : Nat, ∃ a : CoreAccess, ∃ s : State, coreTracker s k addr (accessLen a) = false) :=
  ⟨⟨3, 65536, 8, issuer5, [0, 0, 0, 0, 0, 0, 0, 0], withCore, by decide +kernel⟩, ⟨3, 131064, issuer5, [1, 2, 3, 4,
    5, 6, 7, 8], withCore, got (devWrite withCore issuer5 .wr 131064 [1, 2, 3, 4, 5, 6, 7, 8]), by decide +kernel⟩,
    ⟨3, 65536, 1, issuer5, withCore, by decide +kernel⟩, ⟨3, 0, 8, issuer5, withCore, by decide +kernel⟩, ⟨3, 65536,
    8, issuer5, { withCore with pkg := { owner := [(1, ownPack 1 5 1 15 false 1 false 0)] } }, by decide +kernel⟩,
    ⟨3, 65536, 8, issuer5, { withCore with pkg := { owner := [(1, ownPack 1 5 0 15 false 0 false 0)] } },
    by decide +kernel⟩, ⟨3, 65536, 8, issuer5,
    { withCore with pkg := { owner := [(1, ownPack 1 5 0 15 false 1 true 0)], eccBad := [0] } }, by decide +kernel⟩,
    ⟨3, 0x018000000000, 8, issuer5, withCore, by decide +kernel⟩, ⟨3, 65536, .load 8,
    { firmware with eng := [(0, { slots := [(4, { dma := List.replicate 4096 { desc := [] } })] })] },
    by decide +kernel⟩⟩

/-- The hypotheses of HostCoreStoreFrame, met. -/
theorem witness_HostCoreStoreFrame :
    (∃ k : Nat, ∃ addr : Nat, ∃ i : Issuer, ∃ data : List Byte, ∃ s : State, ∃ t : State, coreIssuer s k = some i ∧
      inWindow addr data.length = true ∧ coreTracker s k addr data.length = true ∧ devWrite s i .wr addr data = .ok t
      ∧ s.pkg.eccBad = []) ∧
    (∃ k : Nat, ∃ addr : Nat, ∃ i : Issuer, ∃ data : List Byte, ∃ s : State, ∃ t : State, ∃ key : Nat, coreIssuer s k
      = some i ∧ inWindow addr data.length = true ∧ coreTracker s k addr data.length = true ∧ devWrite s i .wr addr
      data = .ok t ∧ s.pkg.eccBad = [] ∧ ((∀ p ∈ pageParts addr data.length, key < windowKey s p.1 ∨ windowKey s p.1
      + p.2.2 ≤ key))) ∧
    (∃ k : Nat, ∃ addr : Nat, ∃ i : Issuer, ∃ data : List Byte, ∃ s : State, ∃ t : State, coreIssuer s k = some i ∧
      inWindow addr data.length = true ∧ coreTracker s k addr data.length = true ∧ devWrite s i .wr addr data = .ok t
      ∧ s.pkg.eccBad = [] ∧ data ≠ [] ∧ addr % 65536 + data.length ≤ 65536) ∧
    (∃ k : Nat, ∃ addr : Nat, ∃ i : Issuer, ∃ data : List Byte, ∃ s : State, ∃ t : State, ∃ q : Nat, coreIssuer s k =
      some i ∧ inWindow addr data.length = true ∧ coreTracker s k addr data.length = true ∧ devWrite s i .wr addr
      data = .ok t ∧ s.pkg.eccBad = []) :=
  ⟨⟨3, 131064, issuer5, [1, 2, 3, 4, 5, 6, 7, 8], withCore, got (devWrite withCore issuer5 .wr 131064 [1, 2, 3, 4, 5,
    6, 7, 8]), by decide +kernel⟩, ⟨3, 131064, issuer5, [1, 2, 3, 4, 5, 6, 7, 8], withCore, got (devWrite withCore
    issuer5 .wr 131064 [1, 2, 3, 4, 5, 6, 7, 8]), 0, by decide +kernel⟩, ⟨3, 131064, issuer5, [1, 2, 3, 4, 5, 6, 7,
    8], withCore, got (devWrite withCore issuer5 .wr 131064 [1, 2, 3, 4, 5, 6, 7, 8]), by decide +kernel⟩, ⟨3,
    131064, issuer5, [1, 2, 3, 4, 5, 6, 7, 8], withCore, got (devWrite withCore issuer5 .wr 131064 [1, 2, 3, 4, 5, 6,
    7, 8]), 0, by decide +kernel⟩⟩

/-- The hypotheses of CellsMove, met. -/
theorem witness_CellsMove :
    (∃ c : Cmd, ∃ s : State, Served 0x200 8 isMgmtRadio c s ∧ cellBad (recordArgs c) = false ∧ ((cell s (cCell
      (recordArgs c))).st = .absent ∨ (cell s (cCell (recordArgs c))).st = .configured ∧ cDie (cell s (cCell
      (recordArgs c))).record = cDie (recordArgs c)) ∧ harqFits s (recordArgs c) = true ∧ ((cell s (cCell (recordArgs
      c))).start = none ∨ cellAdmits s (recordArgs c) = true)) ∧
    (∃ c : Cmd, ∃ s : State, Served 0x200 8 isMgmtRadio c s ∧ cellBad (recordArgs c) = true) ∧
    (∃ c : Cmd, ∃ s : State, Served 0x201 2 isMgmtRadio c s ∧ noCells s = false ∧ timeLocked s = true ∧ argN c 0 ≤
      255 ∧ (cell s (argN c 0)).st = .configured ∧ (cell s (argN c 0)).start = none ∧ frameOk s (argN c 1) = true ∧
      cellAdmits s (cell s (argN c 0)).record = true) ∧
    (∃ c : Cmd, ∃ s : State, Served 0x202 2 isMgmtRadio c s ∧ argN c 0 ≤ 255 ∧ (cell s (argN c 0)).st = .running ∧
      frameOk s (argN c 1) = true) ∧
    (∃ c : Cmd, ∃ s : State, Served 0x203 3 isMgmtRadio c s ∧ argN c 0 ≤ 255 ∧ frameNow s + 3 ≤ argN c 1 ∧ argN c 2 <
      2 ^ 58 ∧ (cell s (argN c 0)).st = .running) ∧
    (∃ c : Cmd, ∃ s : State, Served 0x204 9 isMgmtRadio c s ∧ noCells s = false ∧ timeLocked s = true ∧ cellBad
      (recordArgs c) = false ∧ frameNow s + 5 ≤ argN c 8 ∧ (cell s (cCell (recordArgs c))).st = .absent ∧ cellAdmits
      s (recordArgs c) = true ∧ harqFits s (recordArgs c) = true) ∧
    (∃ f : Nat, ∃ g : Nat, ∃ c : Nat, ∃ s : State, (cell s c).st = .configured ∧ (cell s c).start = some g ∧ g ≤ f ∧
      timeLocked s = true) ∧
    (∃ f : Nat, ∃ g : Nat, ∃ c : Nat, ∃ s : State, (cell s c).st = .stopping ∧ (cell s c).stop = some g ∧ g ≤ f) ∧
    (∃ c : Nat, ∃ f : Nat, ∃ s : State, (cell s c).st = .movingOut ∧ (cell s c).carry = 0 ∧ (cell s c).moveOut = some
      f ∧ f ≤ frameNow s ∧ (cell s c).moveTo = 0 ∧ ((radDie s (cDie (cell s c).record)).jobs.any fun j => j.cell ==
      c) = false) ∧
    (∃ c : Nat, ∃ f : Nat, ∃ addr : Nat, ∃ bs : List Byte, ∃ s : State, (cell s c).job0 = some f ∧ (cell s c).harq =
      [] ∧ carriedBytes s c addr = .ok bs) ∧
    (∃ c : Nat, ∃ f : Nat, ∃ addr : Nat, ∃ b : Bar, ∃ s : State, (cell s c).job0 = some f ∧ carriedBytes s c addr =
      .error b ∧ b ≠ .wait) :=
  ⟨⟨mc cellRec, withCell {}, by decide +kernel⟩, ⟨mc (List.replicate 8 0), up, by decide +kernel⟩, ⟨mc [0, 2],
    withCell { st := .configured, record := cellRec }, by decide +kernel⟩, ⟨mc [0, 2], withCell
    { st := .running, record := cellRec }, by decide +kernel⟩, ⟨mc [0, 3, 4096], withCell
    { st := .running, record := cellRec }, by decide +kernel⟩, ⟨mc (cellRec ++ [5]), withCell {}, by decide +kernel⟩,
    ⟨9, 7, 0, withCell { st := .configured, record := cellRec, start := some 7 }, by decide +kernel⟩, ⟨9, 9, 0,
    withCell { st := .stopping, record := cellRec, stop := some 9 }, by decide +kernel⟩, ⟨0, 0, withCell
    { st := .movingOut, record := cellRec, moveOut := some 0 }, by decide +kernel⟩, ⟨0, 7, 65536, [],
    { withCell { st := .configured, record := cellRec, job0 := some 7 } with pkg := { owner := [(1, ownPack 0 0 0 15 false 1 true 0)] } },
    by decide +kernel⟩, ⟨0, 7, 65536, .denied, withCell { st := .configured, record := cellRec, job0 := some 7 },
    by decide +kernel⟩⟩

/-- The hypotheses of LeasesRun, met. -/
theorem witness_LeasesRun :
    (∃ c : Cmd, ∃ r : List W64, ∃ s : State, Served 0x205 (if argSpace c.src ≥ 32 then 32 else 1) isMgmtRadio c s ∧
      planRecord s (partyOf c.src) c = .ok r ∧ firstFail (planChecks s r) = none) ∧
    (∃ c : Cmd, ∃ r : List W64, ∃ st : Status, ∃ s : State, Served 0x205 (if argSpace c.src ≥ 32 then 32 else 1)
      isMgmtRadio c s ∧ planRecord s (partyOf c.src) c = .ok r ∧ firstFail (planChecks s r) = some st) ∧
    (∃ c : Cmd, ∃ s : State, Served 0x206 1 isMgmt c s ∧ argN c 0 < 65536 ∧ maskCount (argN c 0) ≤ 12) ∧
    (∃ c : Cmd, ∃ s : State, Served 0x207 1 isMgmtRadio c s ∧ argN c 0 ≤ 1) ∧
    (∃ p : Nat, ∃ s : State, s.rad.leaseEnds = false) ∧
    (∃ p : Nat, ∃ s : State, s.rad.leaseEnds = true ∧ s.mgt.tacor = 1) ∧
    (∃ p : Nat, ∃ s : State, s.rad.leaseEnds = true ∧ s.mgt.tacor ≠ 1) ∧
    (∃ s : State, s.rad.planRepeat = true ∧ s.mgt.tacor = 2 ∧ 2 * ticksPerS ≤ since s s.rad.repeatSince) :=
  ⟨⟨bc ([0x0000000200000000] ++ List.replicate 31 0), _, withCell {}, by decide +kernel, rfl, by decide +kernel⟩, ⟨bc
    (List.replicate 32 0), _, .timeout, withCell {}, by decide +kernel, rfl, by decide +kernel⟩, ⟨mc [0xFF], withCell
    {}, by decide +kernel⟩, ⟨mc [0], withCell { st := .running, record := cellRec }, by decide +kernel⟩, ⟨5, withCell
    {}, by decide +kernel⟩, ⟨5, { up with rad := { leaseEnds := true } }, by decide +kernel⟩, ⟨5,
    { up with rad := { leaseEnds := true }, mgt := { tacor := 2 } }, by decide +kernel⟩,
    ⟨{ up with rad := { planRepeat := true }, mgt := { tacor := 2 }, tim := { raw := 10 ^ 9 } }, by decide +kernel⟩⟩

/-- The hypotheses of SlotJobsRun, met. -/
theorem witness_SlotJobsRun :
    (∃ low : Int, ∃ high : Int, ∃ a : Nat, ∃ b : Nat, low ≤ high ∧ 0 < a ∧ 0 < b) ∧
    (∃ low : Int, ∃ high : Int, ∃ a : Nat, ∃ b : Nat, low ≤ high ∧ 0 < a ∧ 0 < b) ∧
    (∃ d : Nat, ∃ v : W32, ∃ s : State, ∃ n, n = (radDie s d).sj.entries + 1 ∧ d ≤ 1 ∧ fld v 11 0 ≤ (radDie s
      d).sj.entries ∧ ((radDie s d).sj.tail + n - (radDie s d).sj.head) % n + (fld v 11 0 + n - (radDie s d).sj.tail)
      % n < n) ∧
    (∃ d : Nat, ∃ v : W32, ∃ s : State, d ≤ 1 ∧ (radDie s d).sj.entries < fld v 11 0 ∧ (radDie s d).overrun < 0x7FFF) ∧
    (∃ d : Nat, ∃ v : W32, ∃ s : State, d ≤ 1 ∧ fld v 11 0 ≤ (radDie s d).rpt.entries) ∧
    (∃ d : Nat, ∃ v : W32, ∃ s : State, d ≤ 1 ∧ fld v 11 0 ≤ (radDie s d).rpt.entries ∧ (radDie s d).buffer = []) ∧
    (∃ d : Nat, ∃ target : Nat, ∃ l : List (Nat × Nat), ∃ s : State, d ≤ 1 ∧ s.rad.cells = [] ∧ (radDie s
      d).shed.isSome = true ∧ ((∀ e ∈ l, e.2 ∈ freeCores s d))) ∧
    (∃ d : Nat, ∃ k : Nat, ∃ b : Nat, ∃ s : State, d ≤ 1 ∧ s.rad.cells = [] ∧ (480000 < b ∨ k ∉ freeCores s d)) ∧
    (∃ d : Nat, ∃ k : Nat, ∃ b : Nat, ∃ s : State, d ≤ 1 ∧ s.rad.cells = [] ∧ (480000 < b ∨ k ∉ freeCores s d)) :=
  ⟨⟨-600, 100, 7129, 10000000, by decide +kernel⟩, ⟨-300, 600, 1, 1, by decide +kernel⟩, ⟨0, 2,
    { up with rad := { dies := [(0, { sj := { entries := 3 }, rpt := { entries := 3, head := 1, tail := 2 } })] } },
    _, rfl, by decide +kernel⟩, ⟨0, 9,
    { up with rad := { dies := [(0, { sj := { entries := 3 }, rpt := { entries := 3, head := 1, tail := 2 } })] } },
    by decide +kernel⟩, ⟨0, 2,
    { up with rad := { dies := [(0, { sj := { entries := 3 }, rpt := { entries := 3, head := 1, tail := 2 } })] } },
    by decide +kernel⟩, ⟨0, 2,
    { up with rad := { dies := [(0, { sj := { entries := 3 }, rpt := { entries := 3, head := 1, tail := 2 } })] } },
    by decide +kernel⟩, ⟨0, 9, [(1, 2)], { up with rad := { dies := [(0, { shed := some 4, pools := [(1, 3)] })] } },
    by decide +kernel⟩, ⟨0, 0, 480001, up, by decide +kernel⟩, ⟨0, 32, 1, up, by decide +kernel⟩⟩

/-- The hypotheses of CoreInstructionsAreChecked, met. -/
theorem witness_CoreInstructionsAreChecked :
    (∃ c : Instr, ∃ k : Nat, ∃ compat : Bool, ∃ w : Option W32, ∃ s : State, coreInstr c = some (k, compat, w) ∧ ¬
      CoreAt s k compat w) ∧
    (∃ c : Instr, ∃ k : Nat, ∃ compat : Bool, ∃ w : Option W32, ∃ s : State, coreInstr c = some (k, compat, w) ∧
      CoreAt s k compat w) ∧
    (∃ k : Nat, ∃ r : Nat, ∃ a : Nat, ∃ b : Nat, ∃ n : Nat, ∃ x : Bool, ∃ y : Bool, ∃ imm : BitVec 14, ∃ s : State, r
      % 2 = 1 ∧ CoreAt s k false (coreInstr (.tapmov k a r b n x y .ok)).get!.2.2) ∧
    (∃ k : Nat, ∃ r : Nat, ∃ a : Nat, ∃ b : Nat, ∃ n : Nat, ∃ x : Bool, ∃ y : Bool, ∃ imm : BitVec 14, ∃ s : State, r
      % 2 = 1 ∧ CoreAt s k false (encMem2 0x24 r a b x imm)) ∧
    (∃ k : Nat, ∃ r : Nat, ∃ a : Nat, ∃ b : Nat, ∃ n : Nat, ∃ x : Bool, ∃ y : Bool, ∃ imm : BitVec 14, ∃ s : State, r
      % 2 = 1 ∧ CoreAt s k false (encMem2 0x25 r a b x imm)) ∧
    (∃ k : Nat, ∃ r : Nat, ∃ a : Nat, ∃ b : Nat, ∃ n : Nat, ∃ x : Bool, ∃ y : Bool, ∃ imm : BitVec 14, ∃ s : State, r
      % 2 = 1 ∧ CoreAt s k false (coreInstr (.vgold k a r .ok)).get!.2.2) ∧
    (∃ k : Nat, ∃ a : Nat, ∃ b : Nat, ∃ sh : Nat, ∃ clr : Bool, ∃ fp : Bool, ∃ s : State, (39 < sh ∨ (fp = true ∧ sh
      ≠ 0)) ∧ CoreAt s k false (coreInstr (.vext k a b sh clr fp .ok)).get!.2.2) ∧
    (∃ k : Nat, ∃ a : Nat, ∃ b : Nat, ∃ sh : Nat, ∃ clr : Bool, ∃ fp : Bool, ∃ s : State, (39 < sh ∨ (fp = true ∧ sh
      ≠ 0)) ∧ CoreAt s k false (coreInstr (.vext k a b sh clr fp .ok)).get!.2.2) ∧
    (∃ k : Nat, ∃ a : Nat, ∃ b : Nat, ∃ c : Nat, ∃ n : Nat, ∃ s : State, 5 < c ∧ CoreAt s k false (coreInstr (.vcrc k
      a b c n .ok)).get!.2.2) ∧
    (∃ k : Nat, ∃ a : Nat, ∃ b : Nat, ∃ c : Nat, ∃ n : Nat, ∃ s : State, 5 < c ∧ CoreAt s k false (coreInstr (.vqam k
      a b c .ok)).get!.2.2) ∧
    (∃ k : Nat, ∃ a : Nat, ∃ b : Nat, ∃ c : Nat, ∃ n : Nat, ∃ s : State, 5 < c ∧ CoreAt s k false (coreInstr (.scmp k
      c a b .ok)).get!.2.2) :=
  ⟨⟨.vadd 0 31 0 7 true .ok, 0, false, encVvv 1 31 0 7 true, up, by decide +kernel⟩, ⟨.vadd 0 31 0 7 true .ok, 0,
    false, encVvv 1 31 0 7 true, sigAt 0 (encVvv 1 31 0 7 true), by decide +kernel⟩, ⟨0, 31, 3, 5, 15, true, true, 0,
    (sigAt 0 (coreInstr (.tapmov 0 3 31 5 15 true true .ok)).get!.2.2), by decide +kernel⟩, ⟨0, 31, 3, 5, 15, true,
    true, 8191, sigAt 0 (encMem2 0x24 31 3 5 true 8191), by decide +kernel⟩, ⟨0, 31, 3, 5, 15, true, true, 8191,
    sigAt 0 (encMem2 0x25 31 3 5 true 8191), by decide +kernel⟩, ⟨0, 31, 3, 5, 15, true, true, 0, (sigAt 0 (coreInstr
    (.vgold 0 3 31 .ok)).get!.2.2), by decide +kernel⟩, ⟨0, 31, 3, 40, true, false, (sigAt 0 (coreInstr (.vext 0 31 3
    40 true false .ok)).get!.2.2), by decide +kernel⟩, ⟨0, 31, 3, 1, false, true, (sigAt 0 (coreInstr (.vext 0 31 3 1
    false true .ok)).get!.2.2), by decide +kernel⟩, ⟨0, 31, 3, 6, 64, (sigAt 0 (coreInstr (.vcrc 0 31 3 6 64
    .ok)).get!.2.2), by decide +kernel⟩, ⟨0, 31, 3, 7, 64, (sigAt 0 (coreInstr (.vqam 0 31 3 7 .ok)).get!.2.2),
    by decide +kernel⟩, ⟨0, 31, 3, 7, 64, (sigAt 0 (coreInstr (.scmp 0 7 31 3 .ok)).get!.2.2), by decide +kernel⟩⟩

/-- The hypotheses of VectorInstructionsRun, met. -/
theorem witness_VectorInstructionsRun :
    (∃ k : Nat, ∃ vd : Nat, ∃ va : Nat, ∃ vb : Nat, ∃ fp : Bool, ∃ s : State, CoreAt s k false (encVvv 0x01 vd va vb
      fp)) ∧
    (∃ k : Nat, ∃ vd : Nat, ∃ va : Nat, ∃ vb : Nat, ∃ fp : Bool, ∃ s : State, CoreAt s k false (encVvv 0x01 vd va vb
      fp)) ∧
    (∃ k : Nat, ∃ vd : Nat, ∃ va : Nat, ∃ vb : Nat, ∃ fp : Bool, ∃ s : State, CoreAt s k false (encVvv 0x02 vd va vb
      fp)) ∧
    (∃ k : Nat, ∃ vd : Nat, ∃ va : Nat, ∃ vb : Nat, ∃ fp : Bool, ∃ s : State, CoreAt s k false (encVvv 0x03 vd va vb
      fp)) ∧
    (∃ k : Nat, ∃ vd : Nat, ∃ va : Nat, ∃ fp : Bool, ∃ s : State, CoreAt s k false (encodeFields 0x04 [(21, 5, vd),
      (16, 5, va), (10, 1, b2n fp)])) ∧
    (∃ k : Nat, ∃ vd : Nat, ∃ va : Nat, ∃ s : State, CoreAt s k false (encodeFields 0x05 [(21, 5, vd), (16, 5, va)])) ∧
    (∃ k : Nat, ∃ vd : Nat, ∃ va : Nat, ∃ vb : Nat, ∃ s : State, CoreAt s k false (encVvv 0x06 vd va vb false)) ∧
    (∃ k : Nat, ∃ vd : Nat, ∃ va : Nat, ∃ vb : Nat, ∃ s : State, CoreAt s k false (encVvv 0x06 vd va vb true)) ∧
    (∃ k : Nat, ∃ vd : Nat, ∃ va : Nat, ∃ vb : Nat, ∃ s : State, CoreAt s k false (encVvv 0x07 vd va vb false)) ∧
    (∃ k : Nat, ∃ vd : Nat, ∃ va : Nat, ∃ vb : Nat, ∃ s : State, CoreAt s k false (encVvv 0x07 vd va vb true)) ∧
    (∃ k : Nat, ∃ vd : Nat, ∃ va : Nat, ∃ vb : Nat, ∃ sm : Nat, ∃ s : State, CoreAt s k false (encodeFields 0x08
      [(21, 5, vd), (16, 5, va), (11, 5, vb), (6, 5, sm)])) ∧
    (∃ k : Nat, ∃ vd : Nat, ∃ va : Nat, ∃ vi : Nat, ∃ s : State, CoreAt s k false (encodeFields 0x09 [(21, 5, vd),
      (16, 5, va), (11, 5, vi)])) ∧
    (∃ k : Nat, ∃ vd : Nat, ∃ va : Nat, ∃ vs : Nat, ∃ s : State, CoreAt s k false (coreInstr (.vscr k vd va vs true
      .ok)).get!.2.2) ∧
    (∃ k : Nat, ∃ vd : Nat, ∃ va : Nat, ∃ vs : Nat, ∃ s : State, CoreAt s k false (coreInstr (.vscr k vd va vs false
      .ok)).get!.2.2 ∧ ((∀ j < 64, vByte (vReg (sigCore s k) va) j ≠ 0x80))) ∧
    (∃ k : Nat, ∃ vd : Nat, ∃ va : Nat, ∃ vb : Nat, ∃ sh : Nat, ∃ s : State, CoreAt s k false (coreInstr (.vsat8 k vd
      va vb sh .ok)).get!.2.2) ∧
    (∃ k : Nat, ∃ vd : Nat, ∃ va : Nat, ∃ vb : Nat, ∃ s : State, CoreAt s k false (coreInstr (.vllradd k vd va vb
      .ok)).get!.2.2) ∧
    (∃ k : Nat, ∃ acc : Nat, ∃ va : Nat, ∃ vb : Nat, ∃ conj : Bool, ∃ neg : Bool, ∃ fp : Bool, ∃ s : State, CoreAt s
      k false (coreInstr (.vmac k acc va vb conj neg fp .ok)).get!.2.2) ∧
    (∃ k : Nat, ∃ acc : Nat, ∃ vw : Nat, ∃ vc : Nat, ∃ tap : Nat, ∃ conj : Bool, ∃ fp : Bool, ∃ s : State, vw % 2 = 0
      ∧ CoreAt s k false (coreInstr (.tapmov k acc vw vc tap conj fp .ok)).get!.2.2) ∧
    (∃ k : Nat, ∃ vd : Nat, ∃ acc : Nat, ∃ sh : Nat, ∃ clr : Bool, ∃ fp : Bool, ∃ s : State, sh ≤ 39 ∧ ((fp = true →
      sh = 0)) ∧ CoreAt s k false (coreInstr (.vext k vd acc sh clr fp .ok)).get!.2.2) ∧
    (∃ k : Nat, ∃ vd : Nat, ∃ acc : Nat, ∃ sh : Nat, ∃ clr : Bool, ∃ fp : Bool, ∃ s : State, sh ≤ 39 ∧ ((fp = true →
      sh = 0)) ∧ CoreAt s k false (coreInstr (.vext k vd acc sh clr fp .ok)).get!.2.2) ∧
    (∃ f : Nat → W32, ∃ i : Nat, i < 16) :=
  ⟨⟨0, 31, 1, 2, false, sigAt 0 (encVvv 1 31 1 2 false), by decide +kernel⟩, ⟨0, 31, 1, 2, true, sigAt 0 (encVvv 1 31
    1 2 true), by decide +kernel⟩, ⟨0, 31, 1, 2, true, sigAt 0 (encVvv 2 31 1 2 true), by decide +kernel⟩, ⟨0, 31, 1,
    2, true, sigAt 0 (encVvv 3 31 1 2 true), by decide +kernel⟩, ⟨0, 31, 1, true, sigAt 0 (encodeFields 0x04 [(21, 5,
    31), (16, 5, 1), (10, 1, 1)]), by decide +kernel⟩, ⟨0, 31, 1, sigAt 0 (encodeFields 0x05 [(21, 5, 31), (16, 5,
    1)]), by decide +kernel⟩, ⟨0, 31, 1, 2, sigAt 0 (encVvv 6 31 1 2 false), by decide +kernel⟩, ⟨0, 31, 1, 2, sigAt
    0 (encVvv 6 31 1 2 true), by decide +kernel⟩, ⟨0, 31, 1, 2, sigAt 0 (encVvv 7 31 1 2 false), by decide +kernel⟩,
    ⟨0, 31, 1, 2, sigAt 0 (encVvv 7 31 1 2 true), by decide +kernel⟩, ⟨0, 31, 1, 2, 31, sigAt 0 (encodeFields 0x08
    [(21, 5, 31), (16, 5, 1), (11, 5, 2), (6, 5, 31)]), by decide +kernel⟩, ⟨0, 31, 1, 2, sigAt 0 (encodeFields 0x09
    [(21, 5, 31), (16, 5, 1), (11, 5, 2)]), by decide +kernel⟩, ⟨0, 31, 1, 2, (sigAt 0 (coreInstr (.vscr 0 31 1 2
    true .ok)).get!.2.2), by decide +kernel⟩, ⟨0, 31, 1, 2, (sigAt 0 (coreInstr (.vscr 0 31 1 2 false
    .ok)).get!.2.2), by decide +kernel⟩, ⟨0, 31, 1, 2, 15, (sigAt 0 (coreInstr (.vsat8 0 31 1 2 15 .ok)).get!.2.2),
    by decide +kernel⟩, ⟨0, 31, 1, 2, (sigAt 0 (coreInstr (.vllradd 0 31 1 2 .ok)).get!.2.2), by decide +kernel⟩, ⟨0,
    3, 1, 2, true, true, true, (sigAt 0 (coreInstr (.vmac 0 3 1 2 true true true .ok)).get!.2.2), by decide +kernel⟩,
    ⟨0, 3, 30, 2, 15, true, true, (sigAt 0 (coreInstr (.tapmov 0 3 30 2 15 true true .ok)).get!.2.2),
    by decide +kernel⟩, ⟨0, 31, 3, 39, true, false, (sigAt 0 (coreInstr (.vext 0 31 3 39 true false .ok)).get!.2.2),
    by decide +kernel⟩, ⟨0, 31, 3, 0, true, true, (sigAt 0 (coreInstr (.vext 0 31 3 0 true true .ok)).get!.2.2),
    by decide +kernel⟩, ⟨fun _ => 7, 15, by decide +kernel⟩⟩

/-- The hypotheses of ScalarAndMemoryInstructionsRun, met. -/
theorem witness_ScalarAndMemoryInstructionsRun :
    (∃ k : Nat, ∃ sd : Nat, ∃ sa : Nat, ∃ sb : Nat, ∃ s : State, CoreAt s k false (encSss 0x18 sd sa sb)) ∧
    (∃ k : Nat, ∃ sd : Nat, ∃ sa : Nat, ∃ sb : Nat, ∃ s : State, CoreAt s k false (encSss 0x19 sd sa sb)) ∧
    (∃ k : Nat, ∃ sd : Nat, ∃ imm : BitVec 21, ∃ s : State, CoreAt s k false (coreInstr (.sli k sd imm
      .ok)).get!.2.2) ∧
    (∃ k : Nat, ∃ sr : Nat, ∃ p : Nat, ∃ s : State, CoreAt s k false (coreInstr (.smovp k sr p true .ok)).get!.2.2) ∧
    (∃ k : Nat, ∃ sr : Nat, ∃ p : Nat, ∃ s : State, CoreAt s k false (coreInstr (.smovp k sr p false .ok)).get!.2.2) ∧
    (∃ k : Nat, ∃ cond : Nat, ∃ sa : Nat, ∃ sb : Nat, ∃ s : State, cond ≤ 5 ∧ CoreAt s k false (coreInstr (.scmp k
      cond sa sb .ok)).get!.2.2) ∧
    (∃ k : Nat, ∃ target : Nat, ∃ cond : Bool, ∃ neg : Bool, ∃ s : State, CoreAt s k false (coreInstr (.br k cond neg
      target .ok)).get!.2.2) ∧
    (∃ k : Nat, ∃ target : Nat, ∃ cond : Bool, ∃ neg : Bool, ∃ s : State, CoreAt s k false (coreInstr (.br k cond neg
      target .ok)).get!.2.2) ∧
    (∃ k : Nat, ∃ sn : Nat, ∃ stop : Nat, ∃ lc : Bool, ∃ s : State, CoreAt s k false (coreInstr (.loop k lc sn stop
      .ok)).get!.2.2) ∧
    (∃ k : Nat, ∃ sc : Nat, ∃ va : Nat, ∃ poly : Nat, ∃ len : Nat, ∃ s : State, poly ≤ 5 ∧ CoreAt s k false
      (coreInstr (.vcrc k sc va poly len .ok)).get!.2.2) ∧
    (∃ k : Nat, ∃ vd : Nat, ∃ vg : Nat, ∃ s : State, vg % 2 = 0 ∧ vd ≠ vg ∧ vd ≠ vg + 1 ∧ CoreAt s k false (coreInstr
      (.vgold k vd vg .ok)).get!.2.2) ∧
    (∃ k : Nat, ∃ vd : Nat, ∃ va : Nat, ∃ qm : Nat, ∃ s : State, qm ≤ 5 ∧ CoreAt s k false (coreInstr (.vqam k vd va
      qm .ok)).get!.2.2) ∧
    (∃ k : Nat, ∃ vd : Nat, ∃ p : Nat, ∃ inc : Bool, ∃ imm : BitVec 16, ∃ s : State, ∃ a, a = (pReg (sigCore s k) p :
      Int) + 64 * imm.toInt ∧ CoreAt s k false (encMem 0x20 vd p inc imm) ∧ (¬ (0 ≤ a ∧ a + 64 ≤ 524288 ∧ a % 64 =
      0))) ∧
    (∃ k : Nat, ∃ vd : Nat, ∃ p : Nat, ∃ inc : Bool, ∃ imm : BitVec 16, ∃ s : State, ∃ bs, ∃ a, a = (pReg (sigCore s
      k) p : Int) + 64 * imm.toInt ∧ CoreAt s k false (encMem 0x20 vd p inc imm) ∧ a % 64 = 0 ∧ coreRead s k a 64 =
      .ok bs) ∧
    (∃ k : Nat, ∃ vd : Nat, ∃ p : Nat, ∃ inc : Bool, ∃ imm : BitVec 16, ∃ s : State, ∃ a, a = (pReg (sigCore s k) p :
      Int) + 64 * imm.toInt ∧ CoreAt s k false (encMem 0x20 vd p inc imm) ∧ isPaired (sigCore s k) = false ∧ (sigCore
      s k).outbox = [] ∧ 0 ≤ a ∧ a + 64 ≤ 524288 ∧ a % 64 = 0 ∧ eccHit s (localKey k a.toNat) 64 = false) ∧
    (∃ k : Nat, ∃ vs : Nat, ∃ p : Nat, ∃ inc : Bool, ∃ imm : BitVec 16, ∃ s : State, ∃ a, a = (pReg (sigCore s k) p :
      Int) + 64 * imm.toInt ∧ CoreAt s k false (encMem 0x21 vs p inc imm) ∧ (¬ (0 ≤ a ∧ a + 64 ≤ 524288 ∧ a % 64 =
      0))) ∧
    (∃ k : Nat, ∃ vs : Nat, ∃ p : Nat, ∃ inc : Bool, ∃ imm : BitVec 16, ∃ s : State, ∃ s', ∃ a, a = (pReg (sigCore s
      k) p : Int) + 64 * imm.toInt ∧ CoreAt s k false (encMem 0x21 vs p inc imm) ∧ a % 64 = 0 ∧ coreWrite s k a
      (vBytes (vReg (sigCore s k) vs)) = .ok s') ∧
    (∃ k : Nat, ∃ vs : Nat, ∃ p : Nat, ∃ inc : Bool, ∃ imm : BitVec 16, ∃ s : State, ∃ a, a = (pReg (sigCore s k) p :
      Int) + 64 * imm.toInt ∧ CoreAt s k false (encMem 0x21 vs p inc imm) ∧ isPaired (sigCore s k) = false ∧ 0 ≤ a ∧
      a + 64 ≤ 524288 ∧ a % 64 = 0 ∧ s.pkg.eccBad = []) ∧
    (∃ k : Nat, ∃ sd : Nat, ∃ p : Nat, ∃ inc : Bool, ∃ imm : BitVec 16, ∃ bs : List Byte, ∃ s : State, CoreAt s k
      false (encMem 0x22 sd p inc imm) ∧ coreRead s k ((pReg (sigCore s k) p : Int) + 4 * imm.toInt) 4 = .ok bs) ∧
    (∃ k : Nat, ∃ ss : Nat, ∃ p : Nat, ∃ inc : Bool, ∃ imm : BitVec 16, ∃ s : State, ∃ s' : State, CoreAt s k false
      (encMem 0x23 ss p inc imm) ∧ coreWrite s k ((pReg (sigCore s k) p : Int) + 4 * imm.toInt) (leBytes 4 (sReg
      (sigCore s k) ss).toNat) = .ok s') ∧
    (∃ k : Nat, ∃ vd : Nat, ∃ pa : Nat, ∃ pb : Nat, ∃ imm : BitVec 14, ∃ x : List Byte, ∃ y : List Byte, ∃ s : State,
      ∃ a, a = (pReg (sigCore s k) pa : Int) + 64 * imm.toInt ∧ ∃ b, b = (pReg (sigCore s k) pb : Int) + 64 *
      imm.toInt ∧ vd % 2 = 0 ∧ CoreAt s k false (encMem2 0x24 vd pa pb false imm) ∧ a % 64 = 0 ∧ b % 64 = 0 ∧
      coreRead s k a 64 = .ok x ∧ coreRead s k b 64 = .ok y) ∧
    (∃ k : Nat, ∃ vs : Nat, ∃ pa : Nat, ∃ pb : Nat, ∃ imm : BitVec 14, ∃ s : State, ∃ s1 : State, ∃ s2 : State, ∃ a,
      a = (pReg (sigCore s k) pa : Int) + 64 * imm.toInt ∧ ∃ b, b = (pReg (sigCore s k) pb : Int) + 64 * imm.toInt ∧
      vs % 2 = 0 ∧ CoreAt s k false (encMem2 0x25 vs pa pb true imm) ∧ pa ≠ pb ∧ a % 64 = 0 ∧ b % 64 = 0 ∧ a ≠ b ∧
      coreWrite s k a (vBytes (vReg (sigCore s k) vs)) = .ok s1 ∧ coreWrite s1 k b (vBytes (vReg (sigCore s k) (vs +
      1))) = .ok s2) :=
  ⟨⟨0, 31, 1, 2, sigAt 0 (encSss 0x18 31 1 2), by decide +kernel⟩, ⟨0, 31, 1, 2, sigAt 0 (encSss 0x19 31 1 2),
    by decide +kernel⟩, ⟨0, 31, 0x1FFFFF, (sigAt 0 (coreInstr (.sli 0 31 0x1FFFFF .ok)).get!.2.2),
    by decide +kernel⟩, ⟨0, 31, 7, (sigAt 0 (coreInstr (.smovp 0 31 7 true .ok)).get!.2.2), by decide +kernel⟩, ⟨0,
    31, 7, (sigAt 0 (coreInstr (.smovp 0 31 7 false .ok)).get!.2.2), by decide +kernel⟩, ⟨0, 5, 1, 31, (sigAt 0
    (coreInstr (.scmp 0 5 1 31 .ok)).get!.2.2), by decide +kernel⟩, ⟨0, 8191, true, true, (sigAt 0 (coreInstr (.br 0
    true true 8191 .ok)).get!.2.2), by decide +kernel⟩, ⟨0, 8191, true, false, (sigAt 0 (coreInstr (.br 0 true false
    8191 .ok)).get!.2.2), by decide +kernel⟩, ⟨0, 31, 8191, true, (sigAt 0 (coreInstr (.loop 0 true 31 8191
    .ok)).get!.2.2), by decide +kernel⟩, ⟨0, 31, 1, 5, 64, (sigAt 0 (coreInstr (.vcrc 0 31 1 5 64 .ok)).get!.2.2),
    by decide +kernel⟩, ⟨0, 31, 2, (sigAt 0 (coreInstr (.vgold 0 31 2 .ok)).get!.2.2), by decide +kernel⟩, ⟨0, 31, 1,
    5, (sigAt 0 (coreInstr (.vqam 0 31 1 5 .ok)).get!.2.2), by decide +kernel⟩, ⟨0, 31, 7, true, -1, sigAt 0 (encMem
    0x20 31 7 true (-1)), _, rfl, by decide +kernel⟩, ⟨0, 31, 7, true, 8191, sigAt 0 (encMem 0x20 31 7 true 8191),
    (List.replicate 64 0), _, rfl, by decide +kernel⟩, ⟨0, 31, 7, true, 8191, sigAt 0 (encMem 0x20 31 7 true 8191),
    _, rfl, by decide +kernel⟩, ⟨0, 31, 7, true, 8192, sigAt 0 (encMem 0x21 31 7 true 8192), _, rfl,
    by decide +kernel⟩, ⟨0, 31, 7, true, 8191, sigAt 0 (encMem 0x21 31 7 true 8191), got (coreWrite (sigAt 0 (encMem
    0x21 31 7 true 8191)) 0 524224 (vBytes (vReg (sigCore (sigAt 0 (encMem 0x21 31 7 true 8191)) 0) 31))), _, rfl,
    by decide +kernel⟩, ⟨0, 31, 7, true, 8191, sigAt 0 (encMem 0x21 31 7 true 8191), _, rfl, by decide +kernel⟩, ⟨0,
    31, 7, true, 15, [0, 0, 0, 0], sigAt 0 (encMem 0x22 31 7 true 15), by decide +kernel⟩, ⟨0, 31, 7, true, 15, sigAt
    0 (encMem 0x23 31 7 true 15), got (coreWrite (sigAt 0 (encMem 0x23 31 7 true 15)) 0 60 [0, 0, 0, 0]),
    by decide +kernel⟩, ⟨0, 30, 6, 7, 0, List.replicate 64 0, List.replicate 64 0, sigAt 0 (encMem2 0x24 30 6 7 false
    0), _, rfl, _, rfl, by decide +kernel⟩, ⟨0, 30, 6, 7, 0,
    ({ up with rad := { cores := [(0, { (sigCore (sigAt 0 (encMem2 0x25 30 6 7 true 0)) 0) with p := [(7, 64)] })] } }),
    got (coreWrite
    ({ up with rad := { cores := [(0, { (sigCore (sigAt 0 (encMem2 0x25 30 6 7 true 0)) 0) with p := [(7, 64)] })] } })
    0 0 (List.replicate 64 0)), got (coreWrite (got (coreWrite
    ({ up with rad := { cores := [(0, { (sigCore (sigAt 0 (encMem2 0x25 30 6 7 true 0)) 0) with p := [(7, 64)] })] } })
    0 0 (List.replicate 64 0))) 0 64 (List.replicate 64 0)), _, rfl, _, rfl, by decide +kernel⟩⟩

/-- The hypotheses of TasksRun, met. -/
theorem witness_TasksRun :
    (∃ k : Nat, ∃ entry : Nat, ∃ seqs : Nat, ∃ mode : Bool, ∃ s1 : W32, ∃ s2 : W32, ∃ s3 : W32, ∃ s4 : W32, ∃ s :
      State, k < 64 ∧ entry < 8192 ∧ coreReady s k = true ∧ (unitSt s (32 + k)).hold = 0 ∧ (radDie s (coreDie
      k)).reruns = []) ∧
    (∃ k : Nat, ∃ p : Nat, ∃ entry : Nat, ∃ seqs : Nat, ∃ mode : Bool, ∃ s1 : W32, ∃ s2 : W32, ∃ s3 : W32, ∃ s4 :
      W32, ∃ s : State, k < 64 ∧ entry < 8192 ∧ coreReady s k = true ∧ (unitSt s (32 + k)).hold ≠ 0 ∧ partnerFor s k
      = some p) ∧
    (∃ k : Nat, ∃ entry : Nat, ∃ seqs : Nat, ∃ slotJob : Nat, ∃ mode : Bool, ∃ s1 : W32, ∃ s2 : W32, ∃ s3 : W32, ∃ s4
      : W32, ∃ work : TaskWork, ∃ r : Nat × Task, ∃ s : State, k < 64 ∧ entry < 8192 ∧ coreReady s k = true ∧ (unitSt
      s (32 + k)).hold = 0 ∧ (radDie s (coreDie k)).reruns = [r] ∧ r.1 ≠ k ∧ r.2.entry = entry ∧ r.2.mode = mode ∧
      r.2.s1 = s1 ∧ r.2.job = slotJob) ∧
    (∃ i : Instr, ∃ k : Nat, ∃ p : Nat, ∃ compat : Bool, ∃ w : Option W32, ∃ s : State, coreInstr i = some (k,
      compat, w) ∧ CoreAt s k compat w ∧ (sigCore s k).partner = some p) ∧
    (∃ k : Nat, ∃ s : State, CoreAt s k true (some 0xFC000000) ∧ isPaired (sigCore s k) = false) ∧
    (∃ k : Nat, ∃ d : SlotDone, ∃ j : SlotJob, ∃ s : State, CoreAt s k true (some 0xFC000000) ∧ isPaired (sigCore s
      k) = false ∧ ((sigCore s k).task.map (·.job)) = some j.id ∧ (radDie s (coreDie k)).jobs.find? (·.id == j.id) =
      some j) ∧
    (∃ k : Nat, ∃ p : Nat, ∃ s : State, CoreAt s k true (some 0xFC000000) ∧ (sigCore s k).copyOf = none ∧ (sigCore s
      k).partner = some p ∧ p ≠ k ∧ (sigCore s p).tended = false) ∧
    (∃ k : Nat, ∃ p : Nat, ∃ s : State, CoreAt s k true (some 0xFC000000) ∧ (sigCore s k).copyOf = none ∧ (sigCore s
      k).partner = some p ∧ p ≠ k ∧ (sigCore s p).tended = true) ∧
    (∃ k : Nat, ∃ m : Nat, ∃ s : State, CoreAt s k true (some 0xFC000000) ∧ (sigCore s k).copyOf = some m) ∧
    (∃ k : Nat, ∃ vs : Nat, ∃ sd : Nat, ∃ q : Nat, ∃ s : State, CoreAt s k true (coreInstr (.qpush k vs sd q
      .ok)).get!.2.2) ∧
    (∃ k : Nat, ∃ vs : Nat, ∃ sd : Nat, ∃ q : Nat, ∃ s : State, CoreAt s k true (coreInstr (.qpush k vs sd q
      .ok)).get!.2.2 ∧ isPaired (sigCore s k) = false) ∧
    (∃ k : Nat, ∃ sd : Nat, ∃ q : Nat, ∃ s : State, q ≤ 10 ∧ CoreAt s k true (coreInstr (.qpop k sd q .ok)).get!.2.2) ∧
    (∃ k : Nat, ∃ p : Nat, ∃ sv : Nat, ∃ bs : List Byte, ∃ s : State, CoreAt s k true (coreInstr (.waitc k p sv
      .ok)).get!.2.2 ∧ coreRead s k (pReg (sigCore s k) p) 8 = .ok bs) ∧
    (∃ k : Nat, ∃ w : W32, ∃ s : State, CoreAt s k true (some w) ∧ (sigCore s k).mode = true ∧ compatNative (opOf w)
      = false) ∧
    (∃ k : Nat, ∃ w : W32, ∃ s : State, CoreAt s k true (some w) ∧ illegalWord (sigCore s k).mode w = true) ∧
    (∃ k : Nat, ∃ w : W32, ∃ s : State, CoreAt s k true (some w) ∧ illegalWord (sigCore s k).mode w = true) ∧
    (∃ k : Nat, ∃ s : State, k < 64 ∧ coreIdle s k = false ∧ ticksPerSlot ≤ since s (sigCore s k).timerAt) ∧
    (∃ k : Nat, ∃ i : Nat, ∃ w : W32, ∃ s : State, k < 64 ∧ i < 8192 ∧ coreIdle s k = true) ∧
    (∃ k : Nat, ∃ i : Nat, ∃ w : W32, ∃ s : State, k < 64 ∧ i < 8192 ∧ coreIdle s k = false) :=
  ⟨⟨0, 8191, 0, true, 1, 2, 3, 4,
    { up with pwr := { domains := (List.range 96).map fun n => (n, { on := true }) }, rad := { dies := [(0, { cores := [0, 1] })] } },
    by decide +kernel⟩, ⟨0, 1, 8191, 0, true, 1, 2, 3, 4,
    { up with pwr := { domains := (List.range 96).map fun n => (n, { on := true }) }, rad := { dies := [(0, { cores := [0, 1] })] }, lin := { units := [(32, { hold := 2 })] } },
    by decide +kernel⟩, ⟨0, 8191, 0, 7, true, 1, 2, 3, 4, {}, (1,
    { entry := 8191, mode := true, s1 := 1, s2 := 2, s3 := 3, s4 := 4, seqs := 0, job := 7 }),
    { up with pwr := { domains := (List.range 96).map fun n => (n, { on := true }) }, rad := { dies := [(0, { cores := [0, 1], reruns := [(1, { entry := 8191, mode := true, s1 := 1, s2 := 2, s3 := 3, s4 := 4, seqs := 0, job := 7 })] })] } },
    by decide +kernel⟩, ⟨.tend 0 false none .ok, 0, 1, true, some 0xFC000000,
    { up with rad := { cores := [(0, { (sigCore (sigAt 0 (some 0xFC000000)) 0) with partner := some 1 }), (1, { (sigCore (sigAt 0 (some 0xFC000000)) 0) with copyOf := some 0 })] } },
    by decide +kernel⟩, ⟨0, sigAt 0 (some 0xFC000000), by decide +kernel⟩, ⟨0, { missed := 0, results := [] },
    { id := 0, dir := 0, cell := 0, frame := 0, slot := 0, header := [0, 0, 0, 0], allocs := [] },
    { up with rad := { (sigAt 0 (some 0xFC000000)).rad with dies := [(0, { jobs := [{ id := 0, dir := 0, cell := 0, frame := 0, slot := 0, header := [0, 0, 0, 0], allocs := [] }] })] } },
    by decide +kernel⟩, ⟨0, 1,
    { up with rad := { cores := [(0, { (sigCore (sigAt 0 (some 0xFC000000)) 0) with partner := some 1 }), (1, { (sigCore (sigAt 0 (some 0xFC000000)) 0) with copyOf := some 0 })] } },
    by decide +kernel⟩, ⟨0, 1,
    { up with rad := { cores := [(0, { (sigCore (sigAt 0 (some 0xFC000000)) 0) with partner := some 1 }), (1, { (sigCore (sigAt 0 (some 0xFC000000)) 0) with copyOf := some 0, tended := true })] } },
    by decide +kernel⟩, ⟨1, 0,
    { up with rad := { cores := [(0, { (sigCore (sigAt 0 (some 0xFC000000)) 0) with partner := some 1 }), (1, { (sigCore (sigAt 0 (some 0xFC000000)) 0) with copyOf := some 0 })] } },
    by decide +kernel⟩, ⟨0, 31, 30, 10, (sigAt 0 (coreInstr (.qpush 0 31 30 10 .ok)).get!.2.2), by decide +kernel⟩,
    ⟨0, 31, 30, 10, (sigAt 0 (coreInstr (.qpush 0 31 30 10 .ok)).get!.2.2), by decide +kernel⟩, ⟨0, 30, 10, (sigAt 0
    (coreInstr (.qpop 0 30 10 .ok)).get!.2.2), by decide +kernel⟩, ⟨0, 7, 0, [0, 0, 0, 0, 0, 0, 0, 0], (sigAt 0
    (coreInstr (.waitc 0 7 0 .ok)).get!.2.2), by decide +kernel⟩, ⟨0, 0,
    { up with rad := { cores := [(0, { (sigCore (sigAt 0 (some 0)) 0) with mode := true })] } }, by decide +kernel⟩,
    ⟨0, 0, sigAt 0 (some 0), by decide +kernel⟩, ⟨0, 0x48FF0000, sigAt 0 (some 0x48FF0000), by decide +kernel⟩, ⟨0,
    { sigAt 0 (some 0xFC000000) with tim := { raw := 10 ^ 9 } }, by decide +kernel⟩, ⟨63, 8191, 7, up,
    by decide +kernel⟩, ⟨0, 8191, 7, sigAt 0 (some 0xFC000000), by decide +kernel⟩⟩

/-- The hypotheses of AcceleratorsServe, met. -/
theorem witness_AcceleratorsServe :
    (∃ r, ∃ k : Nat, ∃ o : UnitObs, ∃ d : List W64, ∃ bs : List Byte, ∃ s : State, r ∈ unitRows ∧ UnitServes s k r.1
      r.2.1 d bs) ∧
    (∃ r, ∃ k : Nat, ∃ o : UnitObs, ∃ d : List W64, ∃ bs : List Byte, ∃ s : State, r ∈ unitRows ∧ UnitServes s k r.1
      r.2.1 d bs) ∧
    (∃ r, ∃ k : Nat, ∃ o : UnitObs, ∃ s : State, r ∈ unitRows ∧ servedDesc s k r.1 r.2.1 = none) ∧
    (∃ r, ∃ k : Nat, ∃ o : UnitObs, ∃ s : State, r ∈ unitRows ∧ unitTracker s (32 + k) 0 = false) ∧
    (∃ k : Nat, ∃ o : UnitObs, ∃ d : List W64, ∃ bs : List Byte, ∃ s : State, UnitServes s k 0 2 d bs ∧ o.crcOk =
      true) ∧
    (∃ k : Nat, ∃ o : UnitObs, ∃ d : List W64, ∃ bs : List Byte, ∃ s : State, UnitServes s k 0 3 d bs ∧ o.crcOk =
      true) ∧
    (∃ k : Nat, ∃ o : UnitObs, ∃ d : List W64, ∃ bs : List Byte, ∃ s : State, UnitServes s k 8 2 d bs ∧ o.crcOk =
      true) ∧
    (∃ k : Nat, ∃ n : Nat, ∃ e : Nat, ∃ late : Bool, ∃ d : List W64, ∃ bs : List Byte, ∃ s : State, ∃ t : State, ∃
      pool, pool = tget 0 (radDie s (coreDie k)).pools (4 * n + e) ∧ ∃ i, i = iterations pool d bs ∧ n ≤ 3 ∧ e ≤ 3 ∧
      servedBy s k (1 + n) 1 (· == 32 + (4 * n + e)) = some d ∧ unitTracker s (32 + k) 0 = true ∧ unitRead s (qSrc d)
      (qLen d) = .ok bs ∧ unitWrite s (qDst d) ((List.range (cdiv ((if qBg2 d then 10 else 22) * qZc d) 8)).map
      (Config.blockUnit 10 (bytesOf d ++ leBytes 1 i) bs) ++ [BitVec.ofNat 8 i]) = .ok t) ∧
    (∃ pool : Nat, ∃ d : List W64, ∃ bs : List Byte, 1 ≤ fld (wd d 3) 21 17) ∧
    (∃ k : Nat, ∃ n : Nat, ∃ late : Bool, ∃ d : List W64, ∃ bs : List Byte, ∃ s : State, n ≤ 1 ∧ UnitServes s k (5 +
      n) 1 d bs) ∧
    (∃ k : Nat, ∃ late : Bool, ∃ d : List W64, ∃ bs : List Byte, ∃ s : State, UnitServes s k 9 1 d bs) ∧
    (∃ k : Nat, ∃ q : Nat, ∃ d : List W64, ∃ late : Bool, ∃ ok : Bool, ∃ s : State, qComplOff d < 524281 ∧
      s.pkg.eccBad = []) :=
  ⟨⟨((0, 1, openBytes 1, Instr.channelEstimation) : Nat × Nat × (List W64 → List Byte → List Byte) × (Nat → UnitObs →
    Instr)), 0, {}, [0x0100070000400000, 0x021000000000, 0x021000000040, 0x0010000000000000], (List.replicate 64 0),
    { up with rad := { dies := [(0, { plan := [(0, [{ slot := 0, seq := 7, core := 0, job := some 0 }])] })], cores := [(0, { queues := [(0, [[0x0100070000400000, 0x021000000000, 0x021000000040, 0x0010000000000000]])] })] } },
    by simp [elementRows, unitRows, atomicRows, collectiveRows], by decide +kernel⟩, ⟨((10, 1, (fun _ bs => bs),
    Instr.localDmaCopy) : Nat × Nat × (List W64 → List Byte → List Byte) × (Nat → UnitObs → Instr)), 0, {},
    [0x0100070000400000, 0x021000000000, 0x021000000040, 0x0010000000000000], (List.replicate 64 0),
    { up with rad := { dies := [(0, { plan := [(10, [{ slot := 0, seq := 7, core := 0, job := some 0 }])] })], cores := [(0, { queues := [(10, [[0x0100070000400000, 0x021000000000, 0x021000000040, 0x0010000000000000]])] })] } },
    by simp [elementRows, unitRows, atomicRows, collectiveRows], by decide +kernel⟩, ⟨((10, 1, (fun _ bs => bs),
    Instr.localDmaCopy) : Nat × Nat × (List W64 → List Byte → List Byte) × (Nat → UnitObs → Instr)), 0, {}, up, by
    simp [elementRows, unitRows, atomicRows, collectiveRows], by decide +kernel⟩, ⟨((10, 1, (fun _ bs => bs),
    Instr.localDmaCopy) : Nat × Nat × (List W64 → List Byte → List Byte) × (Nat → UnitObs → Instr)), 0, {},
    { up with eng := [(0, { slots := [(4, { dma := List.replicate 4096 { desc := [] } })] })] }, by simp
    [elementRows, unitRows, atomicRows, collectiveRows], by decide +kernel⟩, ⟨0, {}, [0x0200070000400000,
    0x021000000000, 0x021000000040, 0x0010000000000000], (List.replicate 64 0),
    { up with rad := { dies := [(0, { plan := [(0, [{ slot := 0, seq := 7, core := 0, job := some 0 }])] })], cores := [(0, { queues := [(0, [[0x0200070000400000, 0x021000000000, 0x021000000040, 0x0010000000000000]])] })] } },
    by decide +kernel⟩, ⟨0, {}, [0x0300070000400000, 0x021000000000, 0x021000000040, 0x0010000000000000],
    (List.replicate 64 0),
    { up with rad := { dies := [(0, { plan := [(0, [{ slot := 0, seq := 7, core := 0, job := some 0 }])] })], cores := [(0, { queues := [(0, [[0x0300070000400000, 0x021000000000, 0x021000000040, 0x0010000000000000]])] })] } },
    by decide +kernel⟩, ⟨0, {}, [0x0200070000400000, 0x021000000000, 0x021000000040, 0x0010000000000000],
    (List.replicate 64 0),
    { up with rad := { dies := [(0, { plan := [(8, [{ slot := 0, seq := 7, core := 0, job := some 0 }])] })], cores := [(0, { queues := [(8, [[0x0200070000400000, 0x021000000000, 0x021000000040, 0x0010000000000000]])] })] } },
    by decide +kernel⟩, ⟨0, 0, 0, false, [0x0100070000400000, 0x021000000000, 0x021000000040, 0x0010000000000000],
    (List.replicate 64 0),
    { up with rad := { dies := [(0, { plan := [(32, [{ slot := 0, seq := 7, core := 0, job := some 0 }])] })], cores := [(0, { queues := [(1, [[0x0100070000400000, 0x021000000000, 0x021000000040, 0x0010000000000000]])] })] } },
    _, _, rfl, _, rfl, by decide +kernel, by decide +kernel, by decide +kernel, by decide +kernel, id (by decide +kernel),
    rfl⟩, ⟨3, [0, 0, 0, 0x20000], [], by decide +kernel⟩, ⟨0, 1, true, [0x0100070000400000, 0x021000000000,
    0x021000000040, 0x0010000000000000], (List.replicate 64 0),
    { up with rad := { dies := [(0, { plan := [(6, [{ slot := 0, seq := 7, core := 0, job := some 0 }])] })], cores := [(0, { queues := [(6, [[0x0100070000400000, 0x021000000000, 0x021000000040, 0x0010000000000000]])] })] } },
    by decide +kernel⟩, ⟨0, false, [0x0100070000400000, 0x021000000000, 0x021000000040, 0x0010000000000000],
    (List.replicate 64 0),
    { up with rad := { dies := [(0, { plan := [(16, [{ slot := 0, seq := 7, core := 0, job := some 0 }])] })], cores := [(0, { queues := [(9, [[0x0100070000400000, 0x021000000000, 0x021000000040, 0x0010000000000000]])] })] } },
    by decide +kernel⟩, ⟨0, 9, [0x0100070000400000, 0x021000000000, 0x021000000040, 0x0010000000000000], true, true,
    up, by decide +kernel⟩⟩

/-- The hypotheses of FronthaulPortsRun, met. -/
theorem witness_FronthaulPortsRun :
    (∃ p : Nat, ∃ eyes : List Nat, ∃ s : State, p ≤ 3 ∧ (fhPort s p).up = true) ∧
    (∃ p : Nat, ∃ eyes : List Nat, ∃ s : State, p ≤ 15 ∧ (vfPort s p).up = true) ∧
    (∃ p : Nat, ∃ lane : Nat, ∃ s : State, p ≤ 3 ∧ lane ≤ 3 ∧ (fhPort s p).up = true ∧ 10 ≤ tget 0 (fhPort s p).low
      lane ∧ (¬ (s.tim.syncePort = p ∧ s.tim.synceLane = lane))) ∧
    (∃ p : Nat, ∃ lane : Nat, ∃ s : State, p ≤ 3 ∧ lane ≤ 3 ∧ (fhPort s p).up = true ∧ 10 ≤ tget 0 (fhPort s p).low
      lane ∧ (¬ (s.tim.syncePort = p ∧ s.tim.synceLane = lane))) ∧
    (∃ p : Nat, ∃ s : State, (fhPort s p).retraining = true ∧ (fhPort s p).restoring = false) ∧
    (∃ p : Nat, ∃ s : State, s.boot.phase = .booted ∧ p ≤ 3 ∧ (fhPort s p).up = false ∧ (fhPort s p).retraining =
      false ∧ (fhPort s p).restoring = false ∧ s.hlt.hr.dies.contains (fhDie p) = false) ∧
    (∃ p : Nat, ∃ s : State, p ≤ 3 ∧ (fhPort s p).restoring = true) ∧
    (∃ c : Cmd, ∃ s : State, Served 0x380 26 isMgmt c s ∧ portConfigBad (argN c) = false ∧ ringDenied s (argN c 22)
      (argN c 23) = false ∧ ringDenied s (argN c 24) (argN c 25) = false) ∧
    (∃ c : Cmd, ∃ s : State, Served 0x380 26 isMgmt c s ∧ portConfigBad (argN c) = true) ∧
    (∃ c : Cmd, ∃ s : State, Served 0x384 2 isMgmt c s ∧ argN c 0 ≤ 3 ∧ argN c 1 ≤ 1 ∧ portCells s (argN c 0) = []) ∧
    (∃ c : Cmd, ∃ s : State, Served 0x384 2 isMgmt c s ∧ argN c 0 ≤ 3 ∧ argN c 1 ≤ 1 ∧ portCells s (argN c 0) = []) ∧
    (∃ c : Cmd, ∃ s : State, Served 0x384 2 isMgmt c s ∧ argN c 0 ≤ 3 ∧ argN c 1 = 1 ∧ portCells s (argN c 0) ≠ []) ∧
    (∃ p : Nat, ∃ s : State, (fhPort s p).up = true ∧ s.hlt.hr.dies.contains (fhDie p) = false) ∧
    (∃ p : Nat, ∃ s : State, ∃ q : Nat, (fhPort s p).up = true ∧ s.hlt.hr.dies.contains (fhDie p) = false ∧ q ≠ p) ∧
    (∃ c : Cmd, ∃ s : State, Served 0x384 2 isMgmt c s ∧ argN c 0 ≤ 3 ∧ argN c 1 = 0 ∧ ((portCells s (argN c 0)).any
      fun x => countedCell (cell s x)) = true) ∧
    (∃ c : Cmd, ∃ s : State, Served 0x385 1 isMgmtRadio c s ∧ argN c 0 ≤ 3) :=
  ⟨⟨3, [1, 2, 3, 4], { up with fh := { ports := [(3, { up := true, lanes := 15 })] } }, by decide +kernel⟩, ⟨15, [1,
    2], { up with fab := { ports := [(15, { up := true })] } }, by decide +kernel⟩, ⟨0, 3,
    { up with fh := { ports := [(0, { up := true, lanes := 15, low := [(3, 10)] })] } }, by decide +kernel⟩, ⟨0, 3,
    { up with fh := { ports := [(0, { up := true, lanes := 15, degradeEn := true, low := [(3, 10)] })] } },
    by decide +kernel⟩, ⟨0, { up with fh := { ports := [(0, { retraining := true, dropped := 3 })] } },
    by decide +kernel⟩, ⟨3, up, by decide +kernel⟩, ⟨0,
    { up with fh := { ports := [(0, { retraining := true, restoring := true })] } }, by decide +kernel⟩, ⟨mc [3, 5,
    1, 32, 500, 0xFFFF, 7, 64, 1, 0, 64, 1, 0, 64, 1, 0, 64, 1, 0, 65535, 1, 100000, 65536, 4, 0, 0],
    { up with pkg := { owner := [(1, ownPack 0 0 0 15 false 1 true 0)] } }, by decide +kernel⟩, ⟨mc [4, 5, 1, 32,
    500, 0xFFFF, 7, 64, 1, 0, 64, 1, 0, 64, 1, 0, 64, 1, 0, 65535, 1, 100000, 65536, 4, 0, 0], up,
    by decide +kernel⟩, ⟨mc [3, 0], up, by decide +kernel⟩, ⟨mc [0, 1], up, by decide +kernel⟩, ⟨mc [0, 1], withCell
    { st := .running, record := cellRec }, by decide +kernel⟩, ⟨3,
    { up with fh := { ports := [(3, { up := true, lanes := 15 })] } }, by decide +kernel⟩, ⟨3,
    { up with fh := { ports := [(3, { up := true, lanes := 15 })] } }, 0, by decide +kernel⟩, ⟨mc [0, 0], withCell
    { st := .running, record := cellRec }, by decide +kernel⟩, ⟨mc [3], up, by decide +kernel⟩⟩

/-- The hypotheses of FramesAreClassified, met. -/
theorem witness_FramesAreClassified :
    (∃ p : Nat, ∃ n : Nat, ∃ f : List Byte, ∃ a : Bool, ∃ b : Bool, ∃ s : State, Up s ∧ p ≤ 3 ∧ (fhPort s p).up =
      false ∧ (fhPort s p).retraining = false) ∧
    (∃ p : Nat, ∃ n : Nat, ∃ f : List Byte, ∃ a : Bool, ∃ b : Bool, ∃ s : State, Up s ∧ p ≤ 3 ∧ (fhPort s p).up =
      true ∧ (fhPort s p).retraining = false ∧ (a = false ∨ b = false)) ∧
    (∃ p : Nat, ∃ n : Nat, ∃ f : List Byte, ∃ a : Bool, ∃ b : Bool, ∃ s : State, Up s ∧ p ≤ 3 ∧ (fhPort s p).up =
      true ∧ (fhPort s p).retraining = false ∧ (a = false ∨ b = false)) ∧
    (∃ p : Nat, ∃ n : Nat, ∃ f : List Byte, ∃ a : Bool, ∃ b : Bool, ∃ s : State, Up s ∧ p ≤ 3 ∧ (fhPort s p).up =
      true ∧ (fhPort s p).retraining = false ∧ a = true ∧ b = true ∧ (f.length < 64 ∨ 9216 < f.length)) ∧
    (∃ p : Nat, ∃ n : Nat, ∃ f : List Byte, ∃ a : Bool, ∃ b : Bool, ∃ s : State, Up s ∧ p ≤ 3 ∧ (fhPort s p).up =
      true ∧ (fhPort s p).retraining = false ∧ a = true ∧ b = true ∧ (f.length < 64 ∨ 9216 < f.length)) ∧
    (∃ p : Nat, ∃ n : Nat, ∃ f : List Byte, ∃ a : Bool, ∃ b : Bool, ∃ s : State, ∃ body, body = f.take (f.length - 4)
      ∧ Up s ∧ p ≤ 3 ∧ (fhPort s p).up = true ∧ (fhPort s p).retraining = false ∧ a = true ∧ b = true ∧ 64 ≤ f.length
      ∧ f.length ≤ 9216 ∧ isPause (parseEth body) = true) ∧
    (∃ p : Nat, ∃ n : Nat, ∃ f : List Byte, ∃ a : Bool, ∃ b : Bool, ∃ s : State, ∃ body, body = f.take (f.length - 4)
      ∧ Up s ∧ p ≤ 3 ∧ (fhPort s p).up = true ∧ (fhPort s p).retraining = false ∧ a = true ∧ b = true ∧ 64 ≤ f.length
      ∧ f.length ≤ 9216 ∧ isPause (parseEth body) = false ∧ isTiming (parseEth body) = true) ∧
    (∃ p : Nat, ∃ n : Nat, ∃ f : List Byte, ∃ a : Bool, ∃ b : Bool, ∃ s : State, ∃ body, body = f.take (f.length - 4)
      ∧ Up s ∧ p ≤ 3 ∧ (fhPort s p).up = true ∧ (fhPort s p).retraining = false ∧ a = true ∧ b = true ∧ 64 ≤ f.length
      ∧ f.length ≤ 9216 ∧ isTiming (parseEth body) = false ∧ (parseEth body).etype = 0xAEFE) ∧
    (∃ p : Nat, ∃ n : Nat, ∃ f : List Byte, ∃ a : Bool, ∃ b : Bool, ∃ s : State, ∃ e, ∃ body, body = f.take (f.length
      - 4) ∧ Up s ∧ p ≤ 3 ∧ (fhPort s p).up = true ∧ (fhPort s p).retraining = false ∧ a = true ∧ b = true ∧ 64 ≤
      f.length ∧ f.length ≤ 9216 ∧ isPause (parseEth body) = false ∧ isTiming (parseEth body) = false ∧ (parseEth
      body).etype ≠ 0xAEFE ∧ (fhPort s p).flows.find? (fun g => flowMatches g.2.words (parseEth body)) = some e) ∧
    (∃ p : Nat, ∃ n : Nat, ∃ f : List Byte, ∃ a : Bool, ∃ b : Bool, ∃ s : State, ∃ body, body = f.take (f.length - 4)
      ∧ Up s ∧ p ≤ 3 ∧ (fhPort s p).up = true ∧ (fhPort s p).retraining = false ∧ a = true ∧ b = true ∧ 64 ≤ f.length
      ∧ f.length ≤ 9216 ∧ isPause (parseEth body) = false ∧ isTiming (parseEth body) = false ∧ (parseEth body).etype
      ≠ 0xAEFE ∧ (fhPort s p).flows.find? (fun g => flowMatches g.2.words (parseEth body)) = none) ∧
    (∃ p : Nat, ∃ i : Nat, ∃ len : Nat, ∃ n : Nat, ∃ f : List Byte, ∃ s : State, ((sleeve s (fSleeve (tget {} (fhPort
      s p).flows i).words)).st ≠ .active ∨ (tget {} (fhPort s p).flows i).stopped = true)) ∧
    (∃ p : Nat, ∃ i : Nat, ∃ len : Nat, ∃ n : Nat, ∃ f : List Byte, ∃ s : State, ((sleeve s (fSleeve (tget {} (fhPort
      s p).flows i).words)).st ≠ .active ∨ (tget {} (fhPort s p).flows i).stopped = true)) ∧
    (∃ level : Nat, ∃ t : Nat, ∃ rate : Nat, ∃ burst : Nat, level ≤ burst * 1250) :=
  ⟨⟨3, 0, (List.replicate 68 (0 : Byte)), true, true, up, by decide +kernel⟩, ⟨3, 0, (List.replicate 68 (0 : Byte)),
    false, true, { up with fh := { ports := [(3, { up := true, lanes := 15 })] } }, by decide +kernel⟩, ⟨3, 0,
    (List.replicate 68 (0 : Byte)), true, false, { up with fh := { ports := [(3, { up := true, lanes := 15 })] } },
    by decide +kernel⟩, ⟨3, 0, (List.replicate 63 (0 : Byte)), true, true,
    { up with fh := { ports := [(3, { up := true, lanes := 15 })] } }, by decide +kernel⟩, ⟨3, 0, [], true, true,
    { up with fh := { ports := [(3, { up := true, lanes := 15 })] } }, by decide +kernel⟩, ⟨3, 0, (List.replicate 12
    (0 : Byte) ++ [0x88, 8, 1, 1] ++ List.replicate 48 0), true, true,
    { up with fh := { ports := [(3, { up := true, lanes := 15 })] } }, _, rfl, by decide +kernel⟩, ⟨3, 0,
    (List.replicate 12 (0 : Byte) ++ [0x88, 0xF7, 0x00] ++ List.replicate 49 0), true, true,
    { up with fh := { ports := [(3, { up := true, lanes := 15 })] } }, _, rfl, by decide +kernel⟩, ⟨3, 0,
    (List.replicate 12 (0 : Byte) ++ [0xAE, 0xFE, 0x00] ++ List.replicate 49 0), true, true,
    { up with fh := { ports := [(3, { up := true, lanes := 15 })] } }, _, rfl, by decide +kernel⟩, ⟨3, 0,
    (List.replicate 12 (0 : Byte) ++ [0x00, 0x00, 0x00] ++ List.replicate 49 0), true, true,
    { up with fh := { ports := [(3, { up := true, flows := [(0, { words := [0x82FFF00000000000, 0, 0x0000100001000000, 0x0024000024000000, 0x0000000000010000, 0, 0, 0] })] })] } },
    _, _, rfl, by decide +kernel, by decide +kernel, rfl, rfl, rfl, rfl, by decide +kernel, by decide +kernel, rfl,
    rfl, by decide +kernel, rfl⟩, ⟨3, 0, (List.replicate 12 (0 : Byte) ++ [0x00, 0x00, 0x00] ++ List.replicate 49 0),
    true, true, { up with fh := { ports := [(3, { up := true, lanes := 15 })] } }, _, rfl, by decide +kernel⟩, ⟨3, 0,
    64, 0, (List.replicate 12 (0 : Byte) ++ [0x00, 0x00, 0x00] ++ List.replicate 49 0),
    { up with fh := { ports := [(3, { up := true, lanes := 15 })] } }, by decide +kernel⟩, ⟨3, 0, 64, 0,
    (List.replicate 12 (0 : Byte) ++ [0x00, 0x00, 0x00] ++ List.replicate 49 0),
    { up with fh := { ports := [(3, { up := true, flows := [(0, { words := [0x82FFF00000000000, 0, 0x0000100001000000, 0x0024000024000000, 0x0000000000010000, 0, 0, 0], stopped := true })] })] } },
    by decide +kernel⟩, ⟨7, 100, 3, 1, by decide +kernel⟩⟩

/-- The hypotheses of EgressAndGatesRun, met. -/
theorem witness_EgressAndGatesRun :
    (∃ p : Nat, ∃ q : Nat, ∃ f : EgFrame, ∃ rest : List (Nat × EgFrame), ∃ s : State, ∃ a : State, p ≤ 3 ∧ (fhPort s
      p).up = true ∧ [0, 1, 2].foldl (queueHead p) (s, []) = (a, (q, f) :: rest)) ∧
    (∃ p : Nat, ∃ q : Nat, ∃ f : EgFrame, ∃ g : List (Nat × EgFrame), ∃ s : State, ∃ a : State, ∃ b : State, ∃ c :
      State, p ≤ 3 ∧ (fhPort s p).up = true ∧ [0, 1, 2].foldl (queueHead p) (s, []) = (a, []) ∧ [3, 4, 5, 6, 7].foldl
      (queueHead p) (a, []) = (b, g) ∧ g ≠ [] ∧ drrTurn p g 1024 b = (c, some (q, f))) ∧
    (∃ p : Nat, ∃ q : Nat, ∃ f : EgFrame, ∃ rest : List EgFrame, ∃ l : List (Nat × EgFrame), ∃ s : State, tget []
      (fhPort s p).queues q = f :: rest ∧ headFate s (fhPort s p) q f = .start) ∧
    (∃ p : Nat, ∃ q : Nat, ∃ f : EgFrame, ∃ s : State, f.entry = none ∧ f.oneStep = false) ∧
    (∃ p : Nat, ∃ r : Nat, ∃ s : State, Up s ∧ p ≤ 3 ∧ r ≤ 15) ∧
    (∃ p : Nat, ∃ r : Nat, ∃ n : Nat, ∃ addr : Nat, ∃ f : EgFrame, ∃ bs : List Byte, ∃ s : State, ∃ t, t = tget {}
      (fhPort s p).tx r ∧ addr = t.ring.addr + 32 * t.ring.pos ∧ t.ring.entries ≠ 0 ∧ t.ring.stopped = false ∧ ((tget
      [] (fhPort s p).queues t.queue).any fun f => f.entry == some (r, addr)) = false ∧ devRead s (ringIssuer
      t.sleeve) addr 32 = .ok bs ∧ bitOf (leW64 bs) 0 = false) ∧
    (∃ p : Nat, ∃ r : Nat, ∃ n : Nat, ∃ addr : Nat, ∃ f : EgFrame, ∃ bs : List Byte, ∃ s : State, ∃ t, t = tget {}
      (fhPort s p).tx r ∧ addr = t.ring.addr + 32 * t.ring.pos ∧ t.ring.entries ≠ 0 ∧ t.ring.stopped = false ∧ ((tget
      [] (fhPort s p).queues t.queue).any fun f => f.entry == some (r, addr)) = false ∧ devRead s (ringIssuer
      t.sleeve) addr 32 = .ok bs ∧ bitOf (leW64 bs) 0 = true ∧ takeEntry s p r addr bs = .frame f) ∧
    (∃ p : Nat, ∃ s : State, Up s ∧ p ≤ 3) ∧
    (∃ p : Nat, ∃ g : GateList, ∃ s : State, Up s ∧ p ≤ 3 ∧ (fhPort s p).pending = some g ∧ networkNs s < g.base) ∧
    (∃ p : Nat, ∃ g : GateList, ∃ s : State, Up s ∧ p ≤ 3 ∧ (fhPort s p).pending = some g ∧ g.base ≤ networkNs s) ∧
    (∃ c : Cmd, ∃ s : State, ∃ w, w = ((List.range 8).map fun i => arg c (2 + i)) ∧ Served 0x381 10 isMgmt c s ∧ argN
      c 0 ≤ 3 ∧ argN c 1 ≤ 511 ∧ flowBad w = false ∧ fValid w = false) ∧
    (∃ c : Cmd, ∃ s : State, ∃ w, w = ((List.range 8).map fun i => arg c (2 + i)) ∧ Served 0x381 10 isMgmt c s ∧ argN
      c 0 ≤ 3 ∧ argN c 1 ≤ 511 ∧ flowBad w = false ∧ fValid w = true ∧ fSleeve w ≠ 0 ∧ (sleeve s (fSleeve w)).st ≠
      .absent ∧ checkRange s (ringIssuer (fSleeve w)) .wr (fld (wd w 4) 47 0) (32 * (fld (wd w 4) 63 52 + 1)) = none) ∧
    (∃ c : Cmd, ∃ s : State, Served 0x382 7 (fun p => isMgmtRadio p && (isMgmt p || argN c 1 == 0)) c s ∧ egressBad
      (argN c) = false ∧ checkRange s (ringIssuer (argN c 2)) .rd (argN c 5) (32 * argN c 6) = none) ∧
    (∃ c : Cmd, ∃ ws : List W64, ∃ s : State, Served 0x383 (if c.args.length > 2 then 1 + gateWords (c.args.drop 1)
      else 2) isMgmt c s ∧ argN c 0 ≤ 3 ∧ gateArg s (partyOf c.src) c = .ok ws ∧ ((gateEntries ws).any fun e => e.1 %
      8 != 7) = false ∧ gateListBad ws = false ∧ (fhPort s (argN c 0)).pending = none) :=
  ⟨⟨3, 1, { bytes := [1, 2, 3], closes := 1000000 }, [],
    { up with fh := { ports := [(3, { up := true, queues := [(1, [{ bytes := [1, 2, 3], closes := 1000000 }])] })] } },
    { up with fh := { ports := [(3, { up := true, queues := [(1, [{ bytes := [1, 2, 3], closes := 1000000 }])] })] } },
    by decide +kernel⟩, ⟨3, 5, { bytes := [1, 2, 3], entry := some (1, 65536) }, [(5,
    { bytes := [1, 2, 3], entry := some (1, 65536) })],
    { up with fh := { ports := [(3, { up := true, queues := [(5, [{ bytes := [1, 2, 3], entry := some (1, 65536) }])] })] } },
    { up with fh := { ports := [(3, { up := true, queues := [(5, [{ bytes := [1, 2, 3], entry := some (1, 65536) }])] })] } },
    { up with fh := { ports := [(3, { up := true, queues := [(5, [{ bytes := [1, 2, 3], entry := some (1, 65536) }])] })] } },
    (drrTurn 3 [(5, { bytes := [1, 2, 3], entry := some (1, 65536) })] 1024
    ({ up with fh := { ports := [(3, { up := true, queues := [(5, [{ bytes := [1, 2, 3], entry := some (1, 65536) }])] })] } })).1,
    by decide +kernel⟩, ⟨3, 1, { bytes := [1, 2, 3], closes := 1000000 }, [], [],
    { up with fh := { ports := [(3, { up := true, queues := [(1, [{ bytes := [1, 2, 3], closes := 1000000 }])] })] } },
    by decide +kernel⟩, ⟨3, 1, { bytes := [1, 2, 3], closes := 1000000 },
    { up with fh := { ports := [(3, { up := true, queues := [(1, [{ bytes := [1, 2, 3], closes := 1000000 }])] })] } },
    by decide +kernel⟩, ⟨3, 15, up, by decide +kernel⟩, ⟨3, 0, 0, 65536, { bytes := [] }, List.replicate 32 0,
    { up with fh := { ports := [(3, { up := true, tx := [(0, { ring := { addr := 65536, entries := 2 } })] })] }, pkg := { owner := [(1, ownPack 0 0 0 15 false 1 true 0)] } },
    _, rfl, by decide +kernel⟩, ⟨3, 0, 0, 65536,
    { bytes := [1, 0] ++ List.replicate 58 0, entry := some (0, 65536) }, [1, 0, 0, 0, 0, 0, 60, 0, 0, 0, 1, 0] ++
    List.replicate 20 0,
    { up with fh := { ports := [(3, { up := true, tx := [(0, { ring := { addr := 65536, entries := 2 } })] })] }, pkg := { mem := [((windowKey { up with pkg := { owner := [(1, ownPack 0 0 0 15 false 1 true 0)] } } 65536), 1), ((windowKey { up with pkg := { owner := [(1, ownPack 0 0 0 15 false 1 true 0)] } } 65536) + 6, 60), ((windowKey { up with pkg := { owner := [(1, ownPack 0 0 0 15 false 1 true 0)] } } 65536) + 10, 1)], owner := [(1, ownPack 0 0 0 15 false 1 true 0)] } },
    _, rfl, by decide +kernel⟩, ⟨3,
    { up with fh := { ports := [(3, { up := true, pending := some { base := 0, cycle := 1000, entries := [(7, 400), (0xFF, 600)] } })] } },
    by decide +kernel⟩, ⟨3, { base := 5, cycle := 1000, entries := [(7, 400), (0xFF, 600)] },
    { up with fh := { ports := [(3, { up := true, pending := some { base := 5, cycle := 1000, entries := [(7, 400), (0xFF, 600)] } })] } },
    by decide +kernel⟩, ⟨3, { base := 0, cycle := 1000, entries := [(7, 400), (0xFF, 600)] },
    { up with fh := { ports := [(3, { up := true, pending := some { base := 0, cycle := 1000, entries := [(7, 400), (0xFF, 600)] } })] } },
    by decide +kernel⟩, ⟨mc [3, 511, 0, 0, 0, 0, 0, 0, 0, 0], up, _, rfl, by decide +kernel⟩, ⟨mc [3, 511,
    0x82FFF00000000000, 0, 0x0000100001000000, 0x0024000024000000, 0x0000000000010000, 0, 0, 0],
    { up with pkg := { owner := [(1, ownPack 1 5 0 15 true 1 true 0)] } }, _, rfl, by decide +kernel⟩, ⟨mc [3, 0, 0,
    0, 4094, 65536, 1], { up with pkg := { owner := [(1, ownPack 0 0 0 15 false 1 true 0)] } }, by decide +kernel⟩,
    ⟨mc [3, 0x00000000000003E8, 0x0001000000000000, 0xFF0003E8], _,
    { up with fh := { ports := [(3, { up := true, lanes := 15 })] } }, by decide +kernel, by decide +kernel, rfl,
    by decide +kernel⟩⟩

/-- The hypotheses of TimebaseCommandsRun, met. -/
theorem witness_TimebaseCommandsRun :
    (∃ c : Cmd, ∃ s : State, Served 0x386 8 isMgmt c s ∧ timeConfigBad (argN c) = false) ∧
    (∃ c : Cmd, ∃ s : State, Served 0x387 1 isMgmtRadio c s ∧ 0x664C2F837 ≤ argN c 0 ∧ argN c 0 ≤ 0x66809D495) ∧
    (∃ c : Cmd, ∃ s : State, Served 0x387 1 isMgmtRadio c s ∧ 0x664C2F837 ≤ argN c 0 ∧ argN c 0 ≤ 0x66809D495) ∧
    (∃ c : Cmd, ∃ s : State, Served 0x388 2 isMgmtRadio c s ∧ argN c 1 ≤ 1 ∧ ((arg c 0).toInt.natAbs ≤ s.tim.jumpNs ∨
      argN c 1 = 1)) ∧
    (∃ c : Cmd, ∃ s : State, Served 0x388 2 isMgmtRadio c s ∧ argN c 1 ≤ 1 ∧ ((arg c 0).toInt.natAbs ≤ s.tim.jumpNs ∨
      argN c 1 = 1)) ∧
    (∃ c : Cmd, ∃ s : State, Served 0x388 2 isMgmtRadio c s ∧ argN c 1 ≤ 1 ∧ s.tim.jumpNs < (arg c 0).toInt.natAbs ∧
      argN c 1 = 0) ∧
    (∃ c : Cmd, ∃ s : State, Served 0x389 2 isMgmtRadio c s ∧ argN c 0 ≤ 2047 ∧ argN c 1 = 0) ∧
    (∃ c : Cmd, ∃ s : State, Served 0x389 2 isMgmtRadio c s ∧ argN c 0 ≤ 2047 ∧ argN c 1 = 0) ∧
    (∃ c : Cmd, ∃ s : State, Served 0x389 2 isMgmtRadio c s ∧ argN c 0 ≤ 2047 ∧ argN c 1 = 0) ∧
    (∃ c : Cmd, ∃ s : State, Served 0x389 2 isMgmtRadio c s ∧ argN c 0 = 0 ∧ argN c 1 = 1 ∧ timeLocked s = true) ∧
    (∃ c : Cmd, ∃ s : State, Served 0x38A 0 isMgmtRadio c s) ∧
    (∃ n : Nat, ∃ v : W64, ∃ s : State, Up s ∧ n ≤ 15) :=
  ⟨⟨mc [100, 1100, 3600, 1023, 500, 3, 3, 1], up, by decide +kernel⟩, ⟨mc [0x664C2F837], up, by decide +kernel⟩, ⟨mc
    [0x66809D495], up, by decide +kernel⟩, ⟨mc [0, 0], up, by decide +kernel⟩, ⟨mc [0xFFFFFFFFFFFFFC18, 1], up,
    by decide +kernel⟩, ⟨mc [0x8000000000000000, 0], up, by decide +kernel⟩, ⟨mc [2047, 0], up, by decide +kernel⟩,
    ⟨mc [0, 0], { up with tim := { state := 1, lockBound := 10 } }, by decide +kernel⟩, ⟨mc [11, 0],
    { up with tim := { state := 2, lockBound := 10 } }, by decide +kernel⟩, ⟨mc [0, 1],
    { up with tim := { state := 3 } }, by decide +kernel⟩, ⟨mc [], up, by decide +kernel⟩, ⟨15, 0xFFFFFFFFFFFFFFFF,
    up, by decide +kernel⟩⟩

/-- The hypotheses of CompareUnitsFire, met. -/
theorem witness_CompareUnitsFire :
    (∃ n : Nat, ∃ s : State, Up s ∧ n ≤ 15 ∧ (cmpUnit s n).armed = true ∧ due32 (now32 s) (cmpUnit s n).target =
      true) ∧
    (∃ n : Nat, ∃ s : State, Up s ∧ n ≤ 15 ∧ ((cmpUnit s n).armed = false ∨ due32 (now32 s) (cmpUnit s n).target =
      false)) ∧
    (∃ n : Nat, ∃ s : State, Up s ∧ n ≤ 15 ∧ ((cmpUnit s n).armed = false ∨ due32 (now32 s) (cmpUnit s n).target =
      false)) ∧
    (∃ n : Nat, ∃ v : W64, ∃ s : State, 15 < n) :=
  ⟨⟨15, { up with tim := { cmps := [(15, { armed := true, target := 0x80000001, source := 128 })] } },
    by decide +kernel⟩, ⟨0, { up with tim := { cmps := [(0, { target := 0 })] } }, by decide +kernel⟩, ⟨0,
    { up with tim := { cmps := [(0, { armed := true, target := 1 })] } }, by decide +kernel⟩, ⟨16, 7, up,
    by decide +kernel⟩⟩

/-- The hypotheses of ClockEventsRun, met. -/
theorem witness_ClockEventsRun :
    (∃ s : State, Up s) ∧
    (∃ d : Nat, ∃ s : State, Up s ∧ (d = 4 ∨ d = 5)) ∧
    (∃ d : Nat, ∃ s : State, Up s ∧ (d = 4 ∨ d = 5)) ∧
    (∃ s : State, Up s ∧ s.tim.ppsSeen = none) ∧
    (∃ u : Nat, ∃ s : State, Up s ∧ s.tim.ppsSeen = some u ∧ since s u < 500 * ticksPerMs) ∧
    (∃ level : Bool, ∃ s : State, Up s ∧ level = ppsDue s) ∧
    (∃ level : Bool, ∃ s : State, Up s ∧ level = ppsDue s) ∧
    (∃ level : Bool, ∃ s : State, level ≠ ppsDue s) ∧
    (∃ s : State, timeLocked s = false) ∧
    (∃ s : State, s.tim.state = 2 ∧ ticksPerS ≤ since s s.tim.lastLock) ∧
    (∃ s : State, (s.tim.state ≠ 2 ∨ since s s.tim.lastLock < ticksPerS)) ∧
    (∃ s : State, (s.tim.state ≠ 2 ∨ since s s.tim.lastLock < ticksPerS)) ∧
    (∃ s : State, s.tim.state = 3 ∧ s.tim.holdoverS * ticksPerS ≤ since s s.tim.holdSince) ∧
    (∃ p : Nat, ∃ lane : Nat, ∃ s : State, Up s ∧ p ≤ 3 ∧ lane ≤ 3 ∧ s.tim.syncePort = p ∧ s.tim.synceLane = lane) ∧
    (∃ p : Nat, ∃ lane : Nat, ∃ s : State, Up s ∧ p ≤ 3 ∧ lane ≤ 3 ∧ s.tim.syncePort = p ∧ s.tim.synceLane = lane ∧
      (fhPort s p).up = true ∧ (fhPort s p).lanes = 15) ∧
    (∃ d : Nat, ∃ x : Int, ∃ s : State, Up s ∧ (d = 4 ∨ d = 5) ∧ x.natAbs < 2) ∧
    (∃ d : Nat, ∃ x : Int, ∃ s : State, Up s ∧ (d = 4 ∨ d = 5) ∧ x.natAbs < 2) ∧
    (∃ d : Nat, ∃ x : Int, ∃ s : State, Up s ∧ (d = 4 ∨ d = 5) ∧ 2 ≤ x.natAbs ∧ tget none s.tim.copyBad d = none) ∧
    (∃ d : Nat, ∃ x : Int, ∃ s : State, Up s ∧ (d = 4 ∨ d = 5) ∧ 2 ≤ x.natAbs ∧ tget none s.tim.copyBad d = none) :=
  ⟨⟨up, by decide +kernel⟩, ⟨4, up, by decide +kernel⟩, ⟨5, up, by decide +kernel⟩, ⟨up, by decide +kernel⟩, ⟨0,
    { up with tim := { ppsSeen := some 0 } }, by decide +kernel⟩, ⟨false, up, by decide +kernel⟩, ⟨true,
    { up with tim := { state := 2 } }, by decide +kernel⟩, ⟨true, up, by decide +kernel⟩, ⟨up, by decide +kernel⟩,
    ⟨{ up with tim := { state := 2, raw := 10 ^ 9 } }, by decide +kernel⟩, ⟨up, by decide +kernel⟩,
    ⟨{ up with tim := { state := 2 } }, by decide +kernel⟩, ⟨{ up with tim := { state := 3, raw := 10 ^ 10 } },
    by decide +kernel⟩, ⟨3, 3, { up with tim := { syncePort := 3, synceLane := 3 } }, by decide +kernel⟩, ⟨3, 3,
    { up with fh := { ports := [(3, { up := true, lanes := 15 })] }, tim := { syncePort := 3, synceLane := 3, noSignal := [(3, 3)], squelch := true } },
    by decide +kernel⟩, ⟨4, -1, up, by decide +kernel⟩, ⟨5, 1, up, by decide +kernel⟩, ⟨4, -2, up,
    by decide +kernel⟩, ⟨5, 2, up, by decide +kernel⟩⟩

/-- The hypotheses of FabricDescriptorsStart, met. -/
theorem witness_FabricDescriptorsStart :
    (∃ h : Nat, ∃ m : ChipMap, ∃ d : List W64, ∃ bs : List Byte, ∃ s : State, FabricStarts s h m 1 d ∧ devRead
      (freshRun s) (jobIssuer (freshRun s) h) (fdLocal d) (fdLen d) = .ok bs) ∧
    (∃ h : Nat, ∃ m : ChipMap, ∃ d : List W64, ∃ s : State, FabricStarts s h m 2 d ∧ checkRange (freshRun s)
      (jobIssuer (freshRun s) h) .wr (fdLocal d) (fdLen d) = none) ∧
    (∃ r, ∃ h : Nat, ∃ m : ChipMap, ∃ d : List W64, ∃ bs : List Byte, ∃ s : State, r ∈ atomicRows ∧ FabricStarts s h
      m 3 d ∧ fdOpc d = r.1 ∧ fdFetch d = false ∧ devRead (freshRun s) (jobIssuer (freshRun s) h) (fdLocal d) (fdLen
      d) = .ok bs) ∧
    (∃ r, ∃ h : Nat, ∃ m : ChipMap, ∃ d : List W64, ∃ bs : List Byte, ∃ s : State, r ∈ atomicRows ∧ FabricStarts s h
      m 3 d ∧ fdOpc d = r.1 ∧ fdFetch d = false ∧ devRead (freshRun s) (jobIssuer (freshRun s) h) (fdLocal d) (fdLen
      d) = .ok bs) ∧
    (∃ r, ∃ h : Nat, ∃ m : ChipMap, ∃ d : List W64, ∃ bs : List Byte, ∃ s : State, r ∈ collectiveRows ∧ FabricStarts
      s h m 4 d ∧ fdOpc d = r.1 ∧ tget none s.fab.colls h = none ∧ checkRange (freshRun s) (jobIssuer (freshRun s) h)
      .wr (fdLocal d) (fdLen d) = none ∧ devRead (freshRun s) (jobIssuer (freshRun s) h) (fdLocal d) (fdLen d) = .ok
      bs) ∧
    (∃ r, ∃ h : Nat, ∃ d : List W64, ∃ s : State, r ∈ collectiveRows ∧ (tget none s.fab.colls h).isSome = true) ∧
    (∃ h : Nat, ∃ m : ChipMap, ∃ d : List W64, ∃ s : State, FabricStarts s h m 5 d ∧ fdOpc d = 0 ∧ m.waits = 0) ∧
    (∃ r, ∃ h : Nat, ∃ m : ChipMap, ∃ d : List W64, ∃ s : State, r ∈ [(1, Instr.put), (2, .get), (5, .barrier)] ++
      atomicRows ++ collectiveRows ∧ mapOfJob s h = some m ∧ (job s h).st = .running ∧ (job s h).barrierStep = none ∧
      ringWaits s h = none ∧ tget none s.fab.colls h = none ∧ fabDescBad m.devs.length d = true) ∧
    (∃ r, ∃ h : Nat, ∃ m : ChipMap, ∃ d : List W64, ∃ s : State, r ∈ [(1, Instr.put), (2, .get), (5, .barrier)] ++
      atomicRows ++ collectiveRows ∧ mapOfJob s h = some m ∧ (job s h).st = .running ∧ (job s h).barrierStep = none ∧
      ringWaits s h = none ∧ tget none s.fab.colls h = none ∧ fabDescBad m.devs.length d = true) ∧
    (∃ p : Packet, ∃ t : Track, ∃ port : Nat, ∃ s : State, homePort s (hDst p) = some port ∧ (vfPort s port).up =
      true ∧ s.fab.configured = true ∧ tget none s.fab.routeNext (hDst p) = none ∧ trackerFree s (6 + port / 8)
      (trackRadio s t) = true ∧ (pairOf s (hDst p)).held = []) ∧
    (∃ p : Packet, ∃ t : Track, ∃ s : State, homePort s (hDst p) = none) ∧
    (∃ h : Nat, ∃ r : FabRun, ∃ ps : List Packet, ∃ s : State, ps ≠ [] ∧ ((∀ p ∈ ps, homePort s (hDst p) = none))) :=
  ⟨⟨5, fabMap, fabD 1 0 8, List.replicate 8 0, fabS, by decide +kernel⟩, ⟨5, fabMap, fabD 2 0 8, fabS,
    by decide +kernel⟩, ⟨((0x0, Instr.addI64) : Nat × (Nat → List W64 → Instr)), 5, fabMap, fabD 3 0 8,
    List.replicate 8 0, fabS, by simp [elementRows, unitRows, atomicRows, collectiveRows], by decide +kernel⟩,
    ⟨((0xA, Instr.cas128) : Nat × (Nat → List W64 → Instr)), 5, fabMap, [pack 64 [(60, 3), (56, 10), (53, 1), (41,
    1)], 0x0000000100000000, 0x0000000100000000, 0x0000002000000000, 0, 0, 0, 0], List.replicate 32 0, fabS, by simp
    [elementRows, unitRows, atomicRows, collectiveRows], by decide +kernel⟩, ⟨((0x5, Instr.sumI64) : Nat × (Nat →
    List W64 → Instr)), 5, fabMap, fabD 4 5 8, List.replicate 8 0, fabS, by simp [elementRows, unitRows, atomicRows,
    collectiveRows], by decide +kernel⟩, ⟨((0x5, Instr.sumI64) : Nat × (Nat → List W64 → Instr)), 5, fabD 4 5 8,
    { fabS with fab := { fabS.fab with colls := [(5, some { cop := 5, len := 8, addr := 65536, compl := 0, rootOnly := false, root := 0 })] } },
    by simp [elementRows, unitRows, atomicRows, collectiveRows], by decide +kernel⟩, ⟨5, fabMap, fabD 5 0 0, fabS,
    by decide +kernel⟩, ⟨((1, Instr.put) : Nat × (Nat → List W64 → Instr)), 5, fabMap, fabD 1 1 8, fabS, by simp
    [elementRows, unitRows, atomicRows, collectiveRows], by decide +kernel⟩, ⟨((5, Instr.barrier) : Nat × (Nat → List
    W64 → Instr)), 5, fabMap, fabD 5 1 8, fabS, by simp [elementRows, unitRows, atomicRows, collectiveRows],
    by decide +kernel⟩, ⟨mkPacket fabS 1 3 0 9 2 65536 [] [1], trk, 2, fabS, by decide +kernel⟩, ⟨mkPacket fabS 1 4 0
    9 2 65536 [] [1], trk, fabS, by decide +kernel⟩, ⟨5, { id := 1, desc := [] }, [mkPacket fabS 1 4 0 9 2 65536 []
    [1]], fabS, by decide +kernel⟩⟩

/-- The hypotheses of PacketsArrive, met. -/
theorem witness_PacketsArrive :
    (∃ r, ∃ port : Nat, ∃ p : Packet, ∃ s : State, PacketArrives s port r.1 p ∧ packetTracker (counted s port p) port
      p = false ∧ r ∈ [(1, Instr.putPacket), (2, .getReq), (3, .getData), (4, .atomicPacket), (5, .atomicResp), (8,
      .barrierArrive), (9, .barrierRelease), (10, .coll)]) ∧
    (∃ r, ∃ port : Nat, ∃ p : Packet, ∃ s : State, PacketArrives s port r.1 p ∧ packetTracker (counted s port p) port
      p = true ∧ packetWaits s (hSrc p) = false ∧ r ∈ [(1, Instr.putPacket), (2, .getReq), (3, .getData), (4,
      .atomicPacket), (5, .atomicResp), (8, .barrierArrive), (9, .barrierRelease), (10, .coll)]) ∧
    (∃ r, ∃ port : Nat, ∃ p : Packet, ∃ s : State, PacketArrives s port r.1 p ∧ packetTracker (counted s port p) port
      p = true ∧ packetWaits s (hSrc p) = true ∧ r ∈ [(1, Instr.putPacket), (2, .getReq), (3, .getData), (4,
      .atomicPacket), (5, .atomicResp), (8, .barrierArrive), (9, .barrierRelease), (10, .coll)]) ∧
    (∃ r, ∃ port : Nat, ∃ p : Packet, ∃ s : State, (vfPort s port).up = false ∧ r ∈ [(1, Instr.putPacket), (2,
      .getReq), (3, .getData), (4, .atomicPacket), (5, .atomicResp), (8, .barrierArrive), (9, .barrierRelease), (10,
      .coll)]) ∧
    (∃ r, ∃ port : Nat, ∃ p : Packet, ∃ s : State, Up s ∧ port ≤ 15 ∧ (vfPort s port).up = true ∧ s.fab.configured =
      false ∧ r ∈ [(1, Instr.putPacket), (2, .getReq), (3, .getData), (4, .atomicPacket), (5, .atomicResp), (8,
      .barrierArrive), (9, .barrierRelease), (10, .coll)]) ∧
    (∃ r, ∃ port : Nat, ∃ p : Packet, ∃ s : State, Up s ∧ port ≤ 15 ∧ (vfPort s port).up = true ∧ s.fab.configured =
      true ∧ headerCrc p.header ≠ fld (wd p.header 3) 31 0 ∧ r ∈ [(1, Instr.putPacket), (2, .getReq), (3, .getData),
      (4, .atomicPacket), (5, .atomicResp), (8, .barrierArrive), (9, .barrierRelease), (10, .coll)]) ∧
    (∃ r, ∃ port : Nat, ∃ p : Packet, ∃ s : State, Up s ∧ port ≤ 15 ∧ (vfPort s port).up = true ∧ s.fab.configured =
      true ∧ headerCrc p.header = fld (wd p.header 3) 31 0 ∧ (hType p = 0 ∨ 11 < hType p ∨ 4096 < hLen p) ∧ r ∈ [(1,
      Instr.putPacket), (2, .getReq), (3, .getData), (4, .atomicPacket), (5, .atomicResp), (8, .barrierArrive), (9,
      .barrierRelease), (10, .coll)]) ∧
    (∃ r, ∃ port : Nat, ∃ p : Packet, ∃ s : State, Up s ∧ port ≤ 15 ∧ (vfPort s port).up = true ∧ s.fab.configured =
      true ∧ headerCrc p.header = fld (wd p.header 3) 31 0 ∧ (hType p = 0 ∨ 11 < hType p ∨ 4096 < hLen p) ∧ r ∈ [(1,
      Instr.putPacket), (2, .getReq), (3, .getData), (4, .atomicPacket), (5, .atomicResp), (8, .barrierArrive), (9,
      .barrierRelease), (10, .coll)]) ∧
    (∃ r, ∃ port : Nat, ∃ p : Packet, ∃ s : State, Up s ∧ port ≤ 15 ∧ (vfPort s port).up = true ∧ s.fab.configured =
      true ∧ headerCrc p.header = fld (wd p.header 3) 31 0 ∧ hType p = r.1 ∧ hLen p ≤ 4096 ∧ hLen p =
      p.payload.length ∧ hDst p ≠ s.fab.dev ∧ r ∈ [(1, Instr.putPacket), (2, .getReq), (3, .getData), (4,
      .atomicPacket), (5, .atomicResp), (8, .barrierArrive), (9, .barrierRelease), (10, .coll)]) ∧
    (∃ port : Nat, ∃ p : Packet, ∃ s : State, ∃ want, want = (pairOf s (hSrc p)).expect ∧ hSync p = false ∧ diff32
      (hSeq p) want < 0) ∧
    (∃ port : Nat, ∃ p : Packet, ∃ s : State, ∃ want, want = (pairOf s (hSrc p)).expect ∧ hSync p = false ∧ 0 <
      diff32 (hSeq p) want) ∧
    (∃ port : Nat, ∃ p : Packet, ∃ s : State, ∃ want, want = (pairOf s (hSrc p)).expect ∧ hSync p = false ∧ diff32
      (hSeq p) want = 0 ∧ p.payload ≠ [] ∧ crc32c p.payload ≠ p.payloadCrc.toNat) ∧
    (∃ port : Nat, ∃ p : Packet, ∃ s : State, ∃ u, ∃ want, want = (pairOf s (hSrc p)).expect ∧ ∃ a, a = (modPair s
      (hSrc p) fun x => { x with expect := want }) ∧ hSync p = false ∧ diff32 (hSeq p) want = 0 ∧ (p.payload = [] ∨
      crc32c p.payload = p.payloadCrc.toNat) ∧ applyPacket a port p = .applied u) ∧
    (∃ port : Nat, ∃ p : Packet, ∃ s : State, ∃ u, ∃ want, want = (pairOf s (hSrc p)).expect ∧ ∃ a, a = (modPair s
      (hSrc p) fun x => { x with expect := want }) ∧ hSync p = false ∧ diff32 (hSeq p) want = 0 ∧ (p.payload = [] ∨
      crc32c p.payload = p.payloadCrc.toNat) ∧ applyPacket a port p = .nack u .denied) ∧
    (∃ port : Nat, ∃ p : Packet, ∃ s : State, ∃ u, ∃ want, want = (pairOf s (hSrc p)).expect ∧ ∃ a, a = (modPair s
      (hSrc p) fun x => { x with expect := want }) ∧ hSync p = false ∧ diff32 (hSeq p) want = 0 ∧ (p.payload = [] ∨
      crc32c p.payload = p.payloadCrc.toNat) ∧ applyPacket a port p = .drop u) ∧
    (∃ port : Nat, ∃ p : Packet, ∃ s : State, ∃ want, want = (pairOf s (hSrc p)).expect ∧ ∃ a, a = (modPair s (hSrc
      p) fun x => { x with expect := want }) ∧ hSync p = false ∧ diff32 (hSeq p) want = 0 ∧ (p.payload = [] ∨ crc32c
      p.payload = p.payloadCrc.toNat) ∧ applyPacket a port p = .wait) ∧
    (∃ port : Nat, ∃ p : Packet, ∃ s : State, hJob p ≠ 0 ∧ mapOf s (hJob p) = none) ∧
    (∃ port : Nat, ∃ m : ChipMap, ∃ p : Packet, ∃ s : State, hJob p ≠ 0 ∧ mapOf s (hJob p) = some m ∧ hFgen p ≠
      m.fgen) ∧
    (∃ port : Nat, ∃ m : ChipMap, ∃ p : Packet, ∃ s : State, hJob p ≠ 0 ∧ mapOf s (hJob p) = some m ∧ hFgen p =
      m.fgen ∧ m.devs.getD (hChip p) 1024 ≠ hSrc p) ∧
    (∃ port : Nat, ∃ m : ChipMap, ∃ p : Packet, ∃ s : State, ∃ u : State, hType p = 1 ∧ devWrite s (mapIssuer s m)
      .wr (hAddr p) p.payload = .ok u) ∧
    (∃ port : Nat, ∃ m : ChipMap, ∃ p : Packet, ∃ s : State, hType p = 4 ∧ hFetch p = false ∧ atomicBad (hOpc p)
      (hAddr p) p.payload.length (hRelaxed p) false = false ∧ hOpc p < 9 ∧ checkRange s (mapIssuer s m) .at (hAddr p)
      p.payload.length = none ∧ windowEcc s (hAddr p) p.payload.length = false) ∧
    (∃ old : List Byte, ∃ x : List Byte, old.length = 8 ∧ x.length = 16) :=
  ⟨⟨(1, Instr.putPacket), 2, pk 1 65536 [] [1, 2] 0,
    { fabS with fab := { fabS.fab with maps := [{ fabMap with sleeve := 0 }] }, eng := [(0, { slots := [(4, { dma := List.replicate 4096 { desc := [] } })] })] },
    by decide +kernel, by decide +kernel, by simp [elementRows, unitRows, atomicRows, collectiveRows]⟩, ⟨(1,
    Instr.putPacket), 2, pk 1 65536 [] [1, 2] 0, fabS, by decide +kernel, by decide +kernel, by decide +kernel, by
    simp [elementRows, unitRows, atomicRows, collectiveRows]⟩, ⟨(1, Instr.putPacket), 2, pk 1 65536 [] [1, 2] 0,
    { fabS with pkg := { fabS.pkg with waiters := [(1, .packet 2 (pk 1 65536 [] [1, 2] 0))] } }, by decide +kernel,
    by decide +kernel, by decide +kernel, by simp [elementRows, unitRows, atomicRows, collectiveRows]⟩, ⟨(1,
    Instr.putPacket), 3, pk 1 65536 [] [1, 2] 0, fabS, by decide +kernel, by simp [elementRows, unitRows, atomicRows,
    collectiveRows]⟩, ⟨(1, Instr.putPacket), 2, pk 1 65536 [] [1, 2] 0,
    { fabS with fab := { fabS.fab with configured := false } }, by decide +kernel, by decide +kernel,
    by decide +kernel, by decide +kernel, by simp [elementRows, unitRows, atomicRows, collectiveRows]⟩, ⟨(1,
    Instr.putPacket), 2, mkPacket fabS 1 0 1 9 2 65536 [] [], fabS, by decide +kernel, by decide +kernel,
    by decide +kernel, by decide +kernel, id (by decide +kernel), by simp [elementRows, unitRows, atomicRows,
    collectiveRows]⟩, ⟨(1, Instr.putPacket), 2, pk 0 65536 [] [] 0, fabS, by decide +kernel, by decide +kernel,
    by decide +kernel, by decide +kernel, id (by decide +kernel), by decide +kernel, by simp [elementRows, unitRows,
    atomicRows, collectiveRows]⟩, ⟨(1, Instr.putPacket), 2, pk 12 65536 [] [] 0, fabS, by decide +kernel,
    by decide +kernel, by decide +kernel, by decide +kernel, id (by decide +kernel), by decide +kernel, by simp
    [elementRows, unitRows, atomicRows, collectiveRows]⟩, ⟨(1, Instr.putPacket), 2, pk 1 65536 [] [1, 2] 0,
    { fabS with fab := { fabS.fab with dev := 1 } }, by decide +kernel, by decide +kernel, by decide +kernel,
    by decide +kernel, id (by decide +kernel), by decide +kernel, by decide +kernel, by decide +kernel, by decide +kernel,
    by simp [elementRows, unitRows, atomicRows, collectiveRows]⟩, ⟨2, pk 1 65536 [] [1] 0xFFFFFFFF, fabS, _, rfl,
    by decide +kernel⟩, ⟨2, pk 1 65536 [] [1] 1, fabS, _, rfl, by decide +kernel⟩, ⟨2,
    { (pk 1 65536 [] [1, 2] 0) with payloadCrc := 0 }, fabS, _, rfl, by decide +kernel⟩, ⟨2, pk 1 65536 [] [1, 2] 0,
    fabS, _, _, rfl, _, rfl, by decide +kernel, by decide +kernel, by decide +kernel, rfl⟩, ⟨2, pk 1 131072 [] [1] 0,
    fabS, _, _, rfl, _, rfl, by decide +kernel, by decide +kernel, by decide +kernel, rfl⟩, ⟨2, stampPacket (mkPacket
    { fab := { dev := 3 } } 1 0 1 9 1 65536 [] [1]) 0 false, fabS, _, _, rfl, _, rfl, by decide +kernel,
    by decide +kernel, by decide +kernel, rfl⟩, ⟨2, pk 1 65536 [] [1, 2] 0,
    { fabS with pkg := { owner := [(1, ownPack 1 5 0 15 false 0 true 0)], moves := [{ page := 1, loc := 1, frame := 1, oldLoc := 1, oldFrame := 0 }] } },
    _, rfl, _, rfl, by decide +kernel⟩, ⟨2, pk 1 65536 [] [1, 2] 0, up, by decide +kernel⟩, ⟨2, fabMap, stampPacket
    (mkPacket { fab := { dev := 3 } } 1 0 1 9 1 65536 [] [1]) 0 false, fabS, by decide +kernel⟩, ⟨2, fabMap,
    stampPacket (mkPacket { fab := { dev := 3 } } 1 0 2 9 2 65536 [] [1]) 0 false, fabS, by decide +kernel⟩, ⟨2,
    fabMap, pk 1 65536 [] [1, 2] 0, fabS, got (devWrite fabS (mapIssuer fabS fabMap) .wr 65536 [1, 2]),
    by decide +kernel⟩, ⟨2, fabMap, pk 4 65536 [] [1, 2, 3, 4, 5, 6, 7, 8] 0, fabS, by decide +kernel⟩, ⟨[1, 2, 3, 4,
    5, 6, 7, 8], [1, 2, 3, 4, 5, 6, 7, 8, 9, 9, 9, 9, 9, 9, 9, 9], by decide +kernel⟩⟩

/-- The hypotheses of AcknowledgementsRun, met. -/
theorem witness_AcknowledgementsRun :
    (∃ port : Nat, ∃ p : Packet, ∃ s : State, PacketArrives s port 6 p) ∧
    (∃ port : Nat, ∃ p : Packet, ∃ s : State, PacketArrives s port 7 p ∧ hAddr p / 4294967296 = 0) ∧
    (∃ port : Nat, ∃ p : Packet, ∃ t : Track, ∃ s : State, PacketArrives s port 7 p ∧ (pairOf s (hSrc
      p)).tracks.find? (fun t => t.seq == hSeq p) = some t ∧ t.cell = none ∧ t.job ≠ 0 ∧ hAddr p / 4294967296 =
      statusCode .denied) ∧
    (∃ port : Nat, ∃ p : Packet, ∃ t : Track, ∃ s : State, PacketArrives s port 7 p ∧ (pairOf s (hSrc
      p)).tracks.find? (fun t => t.seq == hSeq p) = some t ∧ t.cell = none ∧ t.job ≠ 0 ∧ hAddr p / 4294967296 =
      statusCode .checkFailed ∧ t.failed = true) ∧
    (∃ port : Nat, ∃ p : Packet, ∃ t : Track, ∃ s : State, PacketArrives s port 7 p ∧ (pairOf s (hSrc
      p)).tracks.find? (fun t => t.seq == hSeq p) = some t ∧ t.cell = none ∧ t.job ≠ 0 ∧ hAddr p / 4294967296 =
      statusCode .checkFailed ∧ t.failed = false) ∧
    (∃ d : Nat, ∃ o : Track, ∃ r : List Track, ∃ s : State, (pairOf s d).tracks = o :: r ∧ o.resent < 2 ∧ (o.resent +
      1) * usTicks 100 ≤ since s o.first) ∧
    (∃ d : Nat, ∃ o : Track, ∃ r : List Track, ∃ s : State, (pairOf s d).tracks = o :: r ∧ (2 ≤ o.resent ∨ since s
      o.first < (o.resent + 1) * usTicks 100)) ∧
    (∃ d : Nat, ∃ o : Track, ∃ r : List Track, ∃ s : State, (pairOf s d).tracks = o :: r ∧ (2 ≤ o.resent ∨ since s
      o.first < (o.resent + 1) * usTicks 100)) ∧
    (∃ d : Nat, ∃ s : State, (pairOf s d).tracks = []) ∧
    (∃ d : Nat, ∃ port : Nat, ∃ t : Track, ∃ s : State, homePort s d = some port ∧ (vfPort s port).up = true) ∧
    (∃ d : Nat, ∃ s : State, (∃ t ∈ (pairOf s d).tracks, s.fab.linkMs * ticksPerMs ≤ since s t.first)) ∧
    (∃ d : Nat, ∃ s : State, ((∀ t ∈ (pairOf s d).tracks, since s t.first < s.fab.linkMs * ticksPerMs))) ∧
    (∃ h : Nat, ∃ m : ChipMap, ∃ s : State, mapOfJob s h = some m ∧ m.waits ≠ 0 ∧ m.released = false ∧
      s.fab.barrierMs * ticksPerMs ≤ since s m.arrivedAt) ∧
    (∃ n : Nat, ∃ c : Nat, ∃ m : ChipMap, ∃ s : State, ∃ a, a = raise s
      { code := 0x032, severity := 0, d0 := n, d1 := c } ∧ mapOf s n = some m ∧ mapJob a m = none) ∧
    (∃ n : Nat, ∃ c : Nat, ∃ m : ChipMap, ∃ s : State, ∃ h : Nat, ∃ a, a = raise s
      { code := 0x032, severity := 0, d0 := n, d1 := c } ∧ mapOf s n = some m ∧ mapJob a m = some h) :=
  ⟨⟨2, pk 6 0 [] [] 0, withPair { next := 1, tracks := [trk] }, by decide +kernel⟩, ⟨2, pk 7 0 [] [] 0, withPair
    { next := 1, tracks := [trk] }, by decide +kernel⟩, ⟨2, pk 7 (statusCode .denied * 4294967296) [] [] 0, trk,
    withPair { next := 1, tracks := [trk] }, by decide +kernel⟩, ⟨2, pk 7 (statusCode .checkFailed * 4294967296) []
    [] 0, { trk with failed := true }, withPair { next := 1, tracks := [{ trk with failed := true }] },
    by decide +kernel⟩, ⟨2, pk 7 (statusCode .checkFailed * 4294967296) [] [] 0, trk, withPair
    { next := 1, tracks := [trk] }, by decide +kernel⟩, ⟨3, trk, [],
    { withPair { next := 1, tracks := [trk] } with tim := { raw := 10 ^ 9 } }, by decide +kernel⟩, ⟨3, trk, [],
    withPair { next := 1, tracks := [trk] }, by decide +kernel⟩, ⟨3, { trk with resent := 2 }, [],
    { withPair { next := 1, tracks := [{ trk with resent := 2 }] } with tim := { raw := 10 ^ 9 } },
    by decide +kernel⟩, ⟨3, fabS, by decide +kernel⟩, ⟨3, 2, trk, withPair { next := 1, tracks := [trk] },
    by decide +kernel⟩, ⟨3, { withPair { next := 1, tracks := [trk] } with tim := { raw := 10 ^ 9 } },
    by decide +kernel⟩, ⟨3, withPair { next := 1, tracks := [trk] }, by decide +kernel⟩, ⟨5,
    { fabMap with waits := 1 },
    { fabS with fab := { fabS.fab with maps := [{ fabMap with waits := 1 }] }, tim := { raw := 10 ^ 12 } },
    by decide +kernel⟩, ⟨9, 1, { fabMap with handle := 6 },
    { fabS with fab := { fabS.fab with maps := [{ fabMap with handle := 6 }] } }, _, rfl, by decide +kernel⟩, ⟨9, 1,
    fabMap, fabS, 5, _, rfl, by decide +kernel⟩⟩

/-- The hypotheses of FabricCommandsRun, met. -/
theorem witness_FabricCommandsRun :
    (∃ p : Nat, ∃ l : Nat, ∃ s : State, p ≤ 15 ∧ (vfPort s p).up = true) ∧
    (∃ p : Nat, ∃ l : Nat, ∃ s : State, p ≤ 15 ∧ (vfPort s p).up = true) ∧
    (∃ l : Nat, ∃ n : Nat, ∃ x : VfPort, x.replay = some (l, n)) ∧
    (∃ l : Nat, ∃ n : Nat, ∃ x : VfPort, ∃ k : Nat, x.replay = some (l, n) ∧ k ≠ l) ∧
    (∃ p : Nat, ∃ lane : Nat, ∃ s : State, p ≤ 15 ∧ lane ≤ 3 ∧ (vfPort s p).up = true ∧ 10 ≤ tget 0 (vfPort s p).low
      lane) ∧
    (∃ p : Nat, ∃ lane : Nat, ∃ s : State, p ≤ 15 ∧ lane ≤ 3 ∧ (vfPort s p).up = true ∧ 10 ≤ tget 0 (vfPort s p).low
      lane) ∧
    (∃ p : Nat, ∃ s : State, p ≤ 15 ∧ (vfPort s p).up = true) ∧
    (∃ p : Nat, ∃ s : State, s.boot.phase = .booted ∧ p ≤ 15 ∧ (vfPort s p).up = false ∧ s.hlt.hr.dies.contains (6 +
      p / 8) = false) ∧
    (∃ c : Cmd, ∃ s : State, Served 0x400 7 isMgmt c s ∧ s.hlt.hr.withdrawn = false ∧ s.boot.minimal = false ∧
      fabricConfigBad (argN c) = false ∧ s.fab.maps = []) ∧
    (∃ c : Cmd, ∃ s : State, Served 0x400 7 isMgmt c s ∧ s.hlt.hr.withdrawn = false ∧ s.boot.minimal = false ∧
      fabricConfigBad (argN c) = false ∧ s.fab.maps ≠ []) ∧
    (∃ c : Cmd, ∃ s : State, Served 0x401 (1 + 2 * Nat.min 1024 (argN c 0)) isFabricUser c s ∧ argN c 0 ≤ 1024 ∧
      ((routeItems c).any fun i => i.1 > 1023 || (i.2 > 15 && i.2 != 0xFF)) = false) ∧
    (∃ d : Nat, ∃ r : Option Nat, ∃ s : State, (pairOf s d).tracks = [] ∧ (pairOf s d).held = []) ∧
    (∃ d : Nat, ∃ r : Option Nat, ∃ s : State, ∃ e : Nat, (pairOf s d).tracks = [] ∧ (pairOf s d).held = [] ∧ e ≠ d) ∧
    (∃ c : Cmd, ∃ bs : List Byte, ∃ s : State, ∃ t : State, Served 0x402 5 isFabricUser c s ∧ 1 ≤ argN c 2 ∧ argN c 2
      ≤ 1024 ∧ readArg s (partyOf c.src) c.hostData (arg c 4) (8 * argN c 2) = .ok bs ∧ installMap s (argN c 0) (argN
      c 1) (argN c 3) ((wordsOf (argN c 2) bs).map (·.toNat)) false = .ok t []) ∧
    (∃ c : Cmd, ∃ hd : List Byte, ∃ bs : List Byte, ∃ s : State, ∃ t : State, Served 0x403 4 isFabricUser c s ∧ 1 ≤
      leNat hd ∧ leNat hd ≤ 1024 ∧ readArg s (partyOf c.src) c.hostData (arg c 3) 8 = .ok hd ∧ readArg s (partyOf
      c.src) c.hostData (arg c 3) (8 * (leNat hd + 1)) = .ok bs ∧ installMap s (argN c 0) (argN c 1) (argN c 2)
      ((wordsOf (leNat hd) (bs.drop 8)).map (·.toNat)) true = .ok t []) ∧
    (∃ n : Nat, ∃ g : Nat, ∃ k : Nat, ∃ h : Nat, ∃ devs : List Nat, ∃ sink : Bool, ∃ s : State, 1 ≤ n ∧ n < 16777216
      ∧ g ≤ 255 ∧ mapOf s n = none ∧ devs ≠ [] ∧ devs.length ≤ 1024 ∧ ((∀ d ∈ devs, d ≤ 1023)) ∧ NamesSleeve s k ∧
      freeHandle s = some h) ∧
    (∃ c : Cmd, ∃ m : ChipMap, ∃ s : State, Served 0x404 3 isFabricUser c s ∧ mapOf s (argN c 0) = some m ∧ argN c 1
      ≤ 255 ∧ argN c 2 ≤ 14 ∧ mapJob s m = none) ∧
    (∃ c : Cmd, ∃ m : ChipMap, ∃ s : State, ∃ h : Nat, Served 0x404 3 isFabricUser c s ∧ mapOf s (argN c 0) = some m
      ∧ argN c 1 ≤ 255 ∧ argN c 2 ≤ 14 ∧ mapJob s m = some h) ∧
    (∃ c : Cmd, ∃ s : State, Served 0x405 1 isFabricUser c s ∧ argN c 0 ≤ 1023) ∧
    (∃ c : Cmd, ∃ s : State, Served 0x406 1 isFabricUser c s ∧ argN c 0 = 0xFF) ∧
    (∃ c : Cmd, ∃ s : State, Served 0x406 1 isFabricUser c s ∧ argN c 0 ≤ 15) ∧
    (∃ c : Cmd, ∃ s : State, Served 0x407 1 isFabricUser c s ∧ argN c 0 ≤ 15 ∧ (vfPort s (argN c 0)).up = true) ∧
    (∃ c : Cmd, ∃ s : State, Served 0x407 1 isFabricUser c s ∧ argN c 0 ≤ 15 ∧ (vfPort s (argN c 0)).up = false) :=
  ⟨⟨15, 8, { up with fab := { ports := [(15, { up := true, replay := some (8, 7) })] } }, by decide +kernel⟩, ⟨0, 7,
    { up with fab := { ports := [(0, { up := true })] } }, by decide +kernel⟩, ⟨8, 7, { replay := some (8, 7) },
    by decide +kernel⟩, ⟨8, 7, { replay := some (8, 7) }, 9, by decide +kernel⟩, ⟨15, 3,
    { up with fab := { ports := [(15, { up := true, low := [(3, 10)] })] } }, by decide +kernel⟩, ⟨0, 0,
    { up with fab := { ports := [(0, { up := true, degraded := true, low := [(0, 10)] })] } }, by decide +kernel⟩,
    ⟨2, fabS, by decide +kernel⟩, ⟨15, up, by decide +kernel⟩, ⟨mc [1023, 1023, 0xFFFF, 50, 60000, 100000000, 255],
    up, by decide +kernel⟩, ⟨mc [1023, 1023, 0xFFFF, 50, 60000, 100000000, 255], fabS, by decide +kernel⟩, ⟨mc [2, 3,
    0xFF, 1023, 15], fabS, by decide +kernel⟩, ⟨3, none, fabS, by decide +kernel⟩, ⟨3, none, fabS, 4,
    by decide +kernel⟩, ⟨{ mc [9, 2, 2, 1, 0x8000000000100000] with hostData := [0, 0, 0, 0, 0, 0, 0, 0, 3] }, [0, 0,
    0, 0, 0, 0, 0, 0, 3, 0, 0, 0, 0, 0, 0, 0], up, ansState (installMap up 9 2 1 [0, 3] false), by decide +kernel,
    by decide +kernel, by decide +kernel, by decide +kernel, rfl⟩,
    ⟨{ mc [9, 2, 1, 0x8000000000100000] with hostData := [2, 0, 0, 0, 0, 0, 0, 0, 0, 0, 0, 0, 0, 0, 0, 0, 3] }, [2,
    0, 0, 0, 0, 0, 0, 0], [2, 0, 0, 0, 0, 0, 0, 0, 0, 0, 0, 0, 0, 0, 0, 0, 3, 0, 0, 0, 0, 0, 0, 0], up, ansState
    (installMap up 9 2 1 [0, 3] true), by decide +kernel, by decide +kernel, by decide +kernel, by decide +kernel,
    id (by decide +kernel), rfl⟩, ⟨16777215, 255, 1, 1, [0, 1023], false, up, by decide +kernel⟩, ⟨mc [9, 255, 14],
    { fabMap with handle := 6 }, { fabS with fab := { fabS.fab with maps := [{ fabMap with handle := 6 }] } },
    by decide +kernel⟩, ⟨mc [9, 255, 14], fabMap, fabS, 5, by decide +kernel⟩, ⟨mc [3], withPair
    { next := 1, tracks := [trk] }, by decide +kernel⟩, ⟨mc [0xFF], fabS, by decide +kernel⟩, ⟨mc [2], fabS,
    by decide +kernel⟩, ⟨mc [15], { up with fab := { ports := [(15, { up := true })] } }, by decide +kernel⟩, ⟨mc
    [15], up, by decide +kernel⟩⟩

/-- The hypotheses of TacorCommandsAreGated, met. -/
theorem witness_TacorCommandsAreGated :
    (∃ i : Instr, ∃ op : Nat, ∃ argc : Nat, ∃ allow : Party → Bool, ∃ c : Cmd, ∃ s : State, tacorRow i = some (op,
      argc, allow, c) ∧ s.boot.phase = .held) ∧
    (∃ i : Instr, ∃ op : Nat, ∃ argc : Nat, ∃ allow : Party → Bool, ∃ c : Cmd, ∃ s : State, tacorRow i = some (op,
      argc, allow, c) ∧ Up s ∧ srcExists s c.src = false) ∧
    (∃ i : Instr, ∃ op : Nat, ∃ argc : Nat, ∃ allow : Party → Bool, ∃ c : Cmd, ∃ s : State, ∃ w : Nat, ∃ n : Nat,
      tacorRow i = some (op, argc, allow, c) ∧ Up s ∧ srcExists s c.src = true ∧ s.mgt.tacor ≠ 1 ∧ c.src = .mailbox w
      n) ∧
    (∃ i : Instr, ∃ op : Nat, ∃ argc : Nat, ∃ allow : Party → Bool, ∃ c : Cmd, ∃ s : State, ∃ k : Nat, ∃ n : Nat,
      tacorRow i = some (op, argc, allow, c) ∧ Up s ∧ srcExists s c.src = true ∧ s.mgt.tacor ≠ 1 ∧ c.src = .subq k n) ∧
    (∃ i : Instr, ∃ op : Nat, ∃ argc : Nat, ∃ allow : Party → Bool, ∃ c : Cmd, ∃ s : State, ∃ st, tacorRow i = some
      (op, argc, allow, c) ∧ Up s ∧ srcExists s c.src = true ∧ s.mgt.tacor = 1 ∧ gate op argc allow c s = some st) ∧
    (∃ op : Nat, ∃ argc : Nat, ∃ k : Nat, ∃ allow : Party → Bool, ∃ c : Cmd, ∃ s : State, partyOf c.src = .tenant k ∧
      queueFull s c.src = false ∧ (sleeve s k).st = .active ∧ allow (.tenant k) = false) ∧
    (∃ op : Nat, ∃ argc : Nat, ∃ k : Nat, ∃ allow : Party → Bool, ∃ c : Cmd, ∃ s : State, partyOf c.src = .tenant k ∧
      queueFull s c.src = false ∧ (sleeve s k).st = .absent) ∧
    (∃ op : Nat, ∃ argc : Nat, ∃ k : Nat, ∃ allow : Party → Bool, ∃ c : Cmd, ∃ s : State, partyOf c.src = .tenant k ∧
      queueFull s c.src = false ∧ (sleeve s k).st = .quiesced ∧ quiesceAllowed op = false) ∧
    (∃ op : Nat, ∃ src : Src, ∃ st : Status, ∃ res : List W64, ∃ s : State, s.slv.all (fun e => !e.2.dirtyOn) = true) :=
  ⟨⟨.mgmtStatus (mc []), 0x000, 0, isMgmtRadio, mc [], {}, rfl, by decide +kernel⟩, ⟨.mgmtStatus
    ({ mc [] with src := .mailbox 65 0 }), 0x000, 0, isMgmtRadio, { mc [] with src := .mailbox 65 0 }, up, rfl,
    by decide +kernel⟩, ⟨.mgmtStatus (mc []), 0x000, 0, isMgmtRadio, mc [], { up with mgt := { tacor := 2 } }, 0, 0,
    rfl, by decide +kernel⟩, ⟨.mgmtStatus ({ mc [] with src := .subq 1 7 }), 0x000, 0, isMgmtRadio,
    { mc [] with src := .subq 1 7 }, { up with mgt := { tacor := 2 } }, 1, 7, rfl, by decide +kernel⟩, ⟨.mgmtStatus
    (tc 1 []), 0x000, 0, isMgmtRadio, tc 1 [], up, .denied, rfl, by decide +kernel⟩, ⟨0x100, 8, 1, isMgmt, tc 1 [],
    up, by decide +kernel⟩, ⟨0x100, 8, 63, isMgmt, tc 63 [], up, by decide +kernel⟩, ⟨0x180, 8, 2, isSleeveUser, tc 2
    [], up, by decide +kernel⟩, ⟨0x100, .mailbox 0 3, .ok, [], up, by decide +kernel⟩⟩

/-- The hypotheses of TacorRuns, met. -/
theorem witness_TacorRuns :
    (∃ w : Nat, ∃ i : Nat, ∃ op : BitVec 16, ∃ tag : W32, ∃ args : List W64, ∃ s : State, Up s ∧ w ≤ 64 ∧ i ≤ 14 ∧
      ((w ≤ 63 → s.mgt.cxlUp = true)) ∧ (mslot s w i).state = 0 ∧ s.mgt.tacor = 1 ∧ queued s (partyOf (.mailbox w i))
      < 32) ∧
    (∃ w : Nat, ∃ i : Nat, ∃ op : BitVec 16, ∃ tag : W32, ∃ args : List W64, ∃ s : State, Up s ∧ w ≤ 64 ∧ i ≤ 14 ∧
      ((w ≤ 63 → s.mgt.cxlUp = true)) ∧ (mslot s w i).state = 0 ∧ (s.mgt.tacor ≠ 1 ∨ 32 ≤ queued s (partyOf (.mailbox
      w i)))) ∧
    (∃ w : Nat, ∃ i : Nat, ∃ op : BitVec 16, ∃ tag : W32, ∃ args : List W64, ∃ s : State, (mslot s w i).state ≠ 0) ∧
    (∃ op : Nat, ∃ c : Cmd, ∃ s : State, definedOpcode op = false ∧ Served op 0 (fun _ => true) { c with args := [] }
      s) ∧
    (∃ src : Src, ∃ a : Accepted, ∃ s : State, s.mgt.accepted.find? (·.src == src) = some a ∧ a.waiting = false ∧
      isTelemetry a.opcode = true ∧ 10 * ticksPerMs ≤ since s a.raw) ∧
    (∃ c : RestartCause, ∃ s : State, s.boot.phase = .booted ∧ s.mgt.tacor ≠ 0) ∧
    (∃ c : RestartCause, ∃ s : State, s.mgt.restarts = []) ∧
    (∃ flashOk : Bool, ∃ s : State, s.mgt.tacor = 2) ∧
    (∃ flashOk : Bool, ∃ s : State, s.mgt.tacor = 2 ∧ 10 * ticksPerS ≤ since s s.mgt.restartAt) ∧
    (∃ flashOk : Bool, ∃ s : State, s.mgt.tacor = 2 ∧ since s s.mgt.restartAt < 10 * ticksPerS) ∧
    (∃ s : State, s.mgt.tacor = 2 ∧ flashMatches s = true) ∧
    (∃ flashOk : Bool, ∃ s : State, s.mgt.tacor = 2 ∧ flashMatches s = false) ∧
    (∃ c : Cmd, ∃ s : State, Served 0x000 0 isMgmtRadio c s) ∧
    (∃ c : Cmd, ∃ s : State, Served 0x007 0 isMgmt c s) :=
  ⟨⟨64, 14, 0, 7, [1, 2], up, by decide +kernel⟩, ⟨0, 0, 0, 7, [], { up with mgt := { cxlUp := true, tacor := 2 } },
    by decide +kernel⟩, ⟨0, 3, 0, 7, [], setMslot up 0 3 { state := 2 }, by decide +kernel⟩, ⟨0x008, mc [1], up,
    by decide +kernel⟩, ⟨.mailbox 0 3, { src := .mailbox 0 3, opcode := 0x003, raw := 0 },
    { up with mgt := { up.mgt with accepted := [{ src := .mailbox 0 3, opcode := 0x003, raw := 0 }] }, tim := { raw := 10 ^ 9 } },
    by decide +kernel⟩, ⟨.watchdog, up, by decide +kernel⟩, ⟨.watchdog, up, by decide +kernel⟩, ⟨true,
    { up with mgt := { tacor := 2 } }, by decide +kernel⟩, ⟨true,
    { up with mgt := { tacor := 2 }, tim := { raw := 10 ^ 10 } }, by decide +kernel⟩, ⟨true,
    { up with mgt := { tacor := 2 } }, by decide +kernel⟩,
    ⟨{ up with mgt := { tacor := 2 }, boot := { up.boot with flash := some [0] } }, by decide +kernel⟩, ⟨true,
    { up with mgt := { tacor := 2 }, boot := { up.boot with hostSource := true } }, by decide +kernel⟩, ⟨mc [], up,
    by decide +kernel⟩, ⟨mc [], up, by decide +kernel⟩⟩

/-- The hypotheses of HostCoresAndInterruptsRun, met. -/
theorem witness_HostCoresAndInterruptsRun :
    (∃ c : Cmd, ∃ s : State, ∃ h : Nat, Served 0x001 (if argN c 1 = 0 then 6 else 5) isMgrRadio c s ∧ firstFail
      (hcLoadChecks s c (partyOf c.src)) = none ∧ freeHandle s = some h) ∧
    (∃ c : Cmd, ∃ s : State, ∃ st, Served 0x001 (if argN c 1 = 0 then 6 else 5) isMgrRadio c s ∧ firstFail
      (hcLoadChecks s c (partyOf c.src)) = some st) ∧
    (∃ c : Cmd, ∃ s : State, Served 0x002 1 isMgrRadio c s ∧ argN c 0 ≤ 15 ∧ (hostCore s (argN c 0)).loaded = true ∧
      ((partyOf c.src = .radio → (hostCore s (argN c 0)).sleeve = 0)) ∧ (job s (hostCore s (argN c 0)).handle).st ≠
      .draining) ∧
    (∃ c : Cmd, ∃ s : State, Served 0x003 1 isMgmtRadio c s ∧ argN c 0 ≤ 15 ∧ (hostCore s (argN c 0)).loaded = true) ∧
    (∃ k : Nat, ∃ st : BitVec 16, ∃ s : State, (hostCore s k).loaded = true) ∧
    (∃ c : Cmd, ∃ s : State, Served 0x004 2 isMgrRadio c s ∧ argN c 0 ≤ 4095 ∧ 256 ≤ argN c 0 ∧ fld (arg c 1) 63 32 =
      0 ∧ fld (arg c 1) 15 0 = 0 ∧ fld (arg c 1) 24 20 ≤ 19 ∧ partyOf c.src = .manager ∧ (dicSrc s (argN c
      0)).pending = false ∧ (dicSrc s (argN c 0)).active = false) ∧
    (∃ c : Cmd, ∃ s : State, Served 0x004 2 isMgrRadio c s ∧ argN c 0 ≤ 4095 ∧ 256 ≤ argN c 0 ∧ fld (arg c 1) 63 32 =
      0 ∧ fld (arg c 1) 15 0 = 0 ∧ fld (arg c 1) 24 20 ≤ 19 ∧ partyOf c.src = .manager ∧ ((dicSrc s (argN c
      0)).pending = true ∨ (dicSrc s (argN c 0)).active = true)) ∧
    (∃ c : Cmd, ∃ s : State, Served 0x005 1 isMgmtRadio c s ∧ argN c 0 ≤ 19) ∧
    (∃ sl : Nat, ∃ n : Nat, ∃ s : State, Up s ∧ n < 4096 ∧ bitOf (dicRoute s n) 31 = true ∧ fld (dicRoute s n) 30 25
      = sl ∧ (dicSrc s n).pending = false ∧ (dicSrc s n).active = false) ∧
    (∃ sl : Nat, ∃ n : Nat, ∃ s : State, Up s ∧ n < 4096 ∧ bitOf (dicRoute s n) 31 = true ∧ fld (dicRoute s n) 30 25
      ≠ sl) ∧
    (∃ t : Nat, ∃ n : Nat, ∃ prio : Nat, ∃ s : State, t ≤ 19 ∧ dicNext s t = some (n, prio) ∧ (dicCore s t).enable =
      true ∧ (dicCore s t).frozen = false ∧ dicTargetUp s t = true ∧ ((∀ e ∈ (dicCore s t).stack.head?, prio < e.2))) ∧
    (∃ t : Nat, ∃ n : Nat, ∃ prio : Nat, ∃ rest : List (Nat × Nat), ∃ s : State, t ≤ 19 ∧ n < 4096 ∧ (dicCore s
      t).stack = (n, prio) :: rest ∧ (dicCore s t).frozen = false ∧ tget none s.mgt.routeNext n = none) ∧
    (∃ n : Nat, ∃ s : State, Up s ∧ n ≤ 4095) :=
  ⟨⟨mc [3, 1, 65536, 256, 0], { up with jobs := [] }, 1, by decide +kernel⟩, ⟨mc [16, 1, 65536, 256, 0],
    { up with jobs := [] }, .badField, by decide +kernel⟩, ⟨mc [3], withCore, by decide +kernel⟩, ⟨mc [3], withCore,
    by decide +kernel⟩, ⟨3, 7, withCore, by decide +kernel⟩, ⟨mc [4095, 0x81310000], up, by decide +kernel⟩, ⟨mc
    [4095, 0x81310000], { up with mgt := { up.mgt with srcs := [(4095, { active := true })] } }, by decide +kernel⟩,
    ⟨mc [19], up, by decide +kernel⟩, ⟨1, 4095, { up with mgt := { up.mgt with routes := [(4095, 0x82000000)] } },
    by decide +kernel⟩, ⟨2, 4095, { up with mgt := { up.mgt with routes := [(4095, 0x82000000)] } },
    by decide +kernel⟩, ⟨19, 4095, 1,
    { up with mgt := { up.mgt with routes := [(4095, 0x83310000)], srcs := [(4095, { pending := true })], cores := [(19, { enable := true, stack := [(7, 2)] })] } },
    by decide +kernel⟩, ⟨19, 4095, 1, [(7, 2)],
    { up with mgt := { up.mgt with cores := [(19, { stack := [(4095, 1), (7, 2)] })] } }, by decide +kernel⟩, ⟨4095,
    up, by decide +kernel⟩⟩

/-- The hypotheses of HostAttachmentRuns, met. -/
theorem witness_HostAttachmentRuns :
    (∃ addr : Nat, ∃ len : Nat, ∃ s : State, s.mgt.cxlUp = true ∧ s.boot.phase = .booted ∧ inWindow addr len = true ∧
      trackerFree s 6 false = true) ∧
    (∃ addr : Nat, ∃ len : Nat, ∃ s : State, s.mgt.cxlUp = true ∧ s.boot.phase = .booted ∧ inWindow addr len = true ∧
      trackerFree s 6 false = true) ∧
    (∃ addr : Nat, ∃ d : List Byte, ∃ s : State, s.mgt.cxlUp = true ∧ s.boot.phase = .booted ∧ inWindow addr d.length
      = true ∧ trackerFree s 6 false = true) ∧
    (∃ addr : Nat, ∃ d : List Byte, ∃ s : State, s.mgt.cxlUp = true ∧ s.boot.phase = .booted ∧ inWindow addr d.length
      = true ∧ trackerFree s 6 false = true) ∧
    (∃ addr : Nat, ∃ len : Nat, ∃ d : List Byte, ∃ s : State, trackerFree s 6 false = false) ∧
    (∃ addr : Nat, ∃ len : Nat, ∃ k : Nat, ∃ s : State, ownValid (ownEntry s (addr / 65536)) = false ∧
      s.pkg.ownerEcc.contains (addr / 65536) = false ∧ ownLoc (ownEntry s (addr / 65536)) ≠ 3 ∧ fld (ownEntry s (addr
      / 65536)) 28 24 = 0 ∧ k = ownOwner (ownEntry s (addr / 65536))) ∧
    (∃ s : State, s.mgt.cxlUp = true) ∧
    (∃ s : State, Up s ∧ s.mgt.cxlHeld = false) ∧
    (∃ b : Bool, ∃ s : State, s.mgt.cxlUp = true) ∧
    (∃ c : Cmd, ∃ s : State, Served 0x006 (3 + cdiv (argN c 2 % 8192) 8) (· == .bmc) c s ∧ argN c 0 ≤ 1 ∧ argN c 2 ≤
      4032 ∧ argN c 1 + argN c 2 ≤ areaSize (argN c 0)) ∧
    (∃ a : Nat, ∃ s : State, Up s) ∧
    (∃ a : Nat, ∃ s : State, sidebandUp s = true) ∧
    (∃ tag : Nat, ∃ n : Nat, ∃ s : State, sidebandUp s = true ∧ s.mgt.tacor ≠ 1) ∧
    (∃ tag : Nat, ∃ n : Nat, ∃ s : State, sidebandUp s = true ∧ s.mgt.tacor = 1) ∧
    (∃ tag : Nat, ∃ n : Nat, ∃ s : State, sidebandUp s = true ∧ s.mgt.tacor = 1 ∧ s.hlt.pldm = []) ∧
    (∃ s : State, Up s ∧ s.mgt.tacor = 1) :=
  ⟨⟨65536, 4, up, by decide +kernel⟩, ⟨0, 4, up, by decide +kernel⟩, ⟨65536, [1], up, by decide +kernel⟩,
    ⟨0x017FFFFFFFFF, [1], up, by decide +kernel⟩, ⟨65536, 4, [],
    { up with eng := [(0, { slots := [(0, { sleeve := 1, dma := List.replicate 28672 { desc := [] } })] })] },
    by decide +kernel⟩, ⟨131072, 4, 0, up, by decide +kernel⟩, ⟨up, by decide +kernel⟩,
    ⟨{ boot := { phase := .booted } }, by decide +kernel⟩, ⟨true, up, by decide +kernel⟩, ⟨bc ([0, 4190296, 4008] ++
    List.replicate 501 7), up, by decide +kernel⟩, ⟨9, up, by decide +kernel⟩, ⟨9,
    { up with mgt := { i3c := some 9 } }, by decide +kernel⟩, ⟨1, 2,
    { up with mgt := { i3c := some 9, tacor := 2 } }, by decide +kernel⟩, ⟨1, 2,
    { up with mgt := { i3c := some 9, tacor := 1 } }, by decide +kernel⟩, ⟨1, 2,
    { up with mgt := { i3c := some 9, tacor := 1 } }, by decide +kernel⟩, ⟨up, by decide +kernel⟩⟩

/-- The hypotheses of StallsAndRecordsRun, met. -/
theorem witness_StallsAndRecordsRun :
    (∃ d : Nat, ∃ e : ErrEvent, ∃ r : List ErrEvent, ∃ s : State, s.mgt.tacor = 1 ∧ tget [] s.hlt.queues d = e :: r) ∧
    (∃ e : Nat, ∃ s : State, e < 16 ∧ isFenced s e = false ∧ tget none s.hlt.stalls e = none ∧ engineStill s e = true
      ∧ ((List.range 5).any fun i => slotBusy s e i && !timerStopped s e i) = true) ∧
    (∃ e : Nat, ∃ i : Nat, ∃ s : State, e < 16 ∧ i < 5 ∧ isFenced s e = false ∧ tget none s.hlt.stalls e = none ∧
      slotBusy s e i = true ∧ timerStopped s e i = false ∧ hangWindow s (i == 4) ≤ since s (slot s e i).timerAt) ∧
    (∃ e : Nat, ∃ i : Nat, ∃ s : State, (timerStopped s e i = true ∨ since s (slot s e i).timerAt < hangWindow s (i
      == 4))) ∧
    (∃ e : Nat, ∃ i : Nat, ∃ s : State, (timerStopped s e i = true ∨ since s (slot s e i).timerAt < hangWindow s (i
      == 4))) ∧
    (∃ e : Nat, ∃ s : State, engineStill s e = false) ∧
    (∃ e : Nat, ∃ s : State, ((∀ i < 5, slotBusy s e i = true → timerStopped s e i = true))) ∧
    (∃ e : Nat, ∃ i : Nat, ∃ r : List Nat, ∃ t : Stall, ∃ s : State, tget none s.hlt.stalls e = some t ∧ t.suspects =
      i :: r) ∧
    (∃ e : Nat, ∃ i : Nat, ∃ e' : Nat, ∃ i' : Nat, ∃ base : Nat, ∃ r : List Nat, ∃ t : Stall, ∃ s : State, ∃ a, a =
      resetUnit s e ∧ ∃ n, n = (slot a e i).size ∧ tget none s.hlt.stalls e = some t ∧ t.suspects = i :: r ∧
      r.contains i = false ∧ t.seeking = [] ∧ refereePlace a e e' i' base n = true) ∧
    (∃ e : Nat, ∃ i : Nat, ∃ e' : Nat, ∃ i' : Nat, ∃ base : Nat, ∃ r : List Nat, ∃ t : Stall, ∃ s : State, ∃ a, a =
      resetUnit s e ∧ ∃ n, n = (slot a e i).size ∧ tget none s.hlt.stalls e = some t ∧ t.suspects = i :: r ∧
      r.contains i = false ∧ t.seeking = [] ∧ refereePlace a e e' i' base n = false) ∧
    (∃ e : Nat, ∃ i : Nat, ∃ e' : Nat, ∃ i' : Nat, ∃ t : Stall, ∃ s : State, tget none s.hlt.stalls e = some t ∧
      t.moved.find? (·.1 == i) = some (i, e', i')) ∧
    (∃ e : Nat, ∃ i : Nat, ∃ n : Nat, ∃ t : Stall, ∃ s : State, tget none s.hlt.stalls e = some t ∧ (i, n) ∈
      t.seeking ∧ 100 * ticksPerMs ≤ since s n) ∧
    (∃ k : Nat, ∃ s : State, k < 16 ∧ (hostCore s k).loaded = true ∧ s.boot.radioFw = false) ∧
    (∃ d : Nat, ∃ u : Nat, ∃ s : State, (d = 4 ∨ d = 5) ∧ s.boot.phase = .booted ∧ holdsStarted s (d - 4) u = true ∧
      ticksPerSlot ≤ since s (tget 0 (radDie s (d - 4)).timers (unitQueue u)) ∧ u < 6) ∧
    (∃ d : Nat, ∃ u : Nat, ∃ s : State, (d = 4 ∨ d = 5) ∧ s.boot.phase = .booted ∧ holdsStarted s (d - 4) u = true ∧
      ticksPerSlot ≤ since s (tget 0 (radDie s (d - 4)).timers (unitQueue u)) ∧ 6 ≤ u ∧ u ≤ 8) ∧
    (∃ d : Nat, ∃ u : Nat, ∃ s : State, (d = 4 ∨ d = 5) ∧ s.boot.phase = .booted ∧ holdsStarted s (d - 4) u = true ∧
      ticksPerSlot ≤ since s (tget 0 (radDie s (d - 4)).timers (unitQueue u)) ∧ 6 ≤ u ∧ u ≤ 8) ∧
    (∃ d : Nat, ∃ f : Nat, ∃ s : State, functionExists d f = true ∧ s.boot.phase = .booted ∧
      s.hlt.funcFenced.contains (d * 4 + f) = false ∧ f ≠ 1) ∧
    (∃ d : Nat, ∃ f : Nat, ∃ s : State, functionExists d f = true ∧ s.boot.phase = .booted ∧
      s.hlt.funcFenced.contains (d * 4 + f) = false) ∧
    (∃ d : Nat, ∃ f : Nat, ∃ cause : Nat, ∃ s : State, functionExists d f = true ∧ f ≠ 1 ∧ s.hlt.funcFenced.contains
      (d * 4 + f) = false) ∧
    (∃ s : State, ∃ e : ErrEvent, e.die < 8 ∧ (tget [] s.hlt.queues e.die).length < 256) ∧
    (∃ s : State, ∃ e : ErrEvent, ∃ d : Nat, e.die < 8 ∧ (tget [] s.hlt.queues e.die).length < 256 ∧ d ≠ e.die) :=
  ⟨⟨7, { code := 1, severity := 2, die := 7 }, [],
    { up with hlt := { queues := [(7, [{ code := 1, severity := 2, die := 7 }])] } }, by decide +kernel⟩, ⟨15,
    { { up with eng := [(15, { slots := [(3, { valid := true, sleeve := 1, job := 5, dma := [{ desc := [0, 0, 0, 0, 0, 0, 0, 0] }] })] })] } with tim := { raw := 10 ^ 9 } },
    by decide +kernel⟩, ⟨15, 3,
    { { up with eng := [(15, { slots := [(3, { valid := true, sleeve := 1, job := 5, dma := [{ desc := [0, 0, 0, 0, 0, 0, 0, 0] }] })] })] } with tim := { raw := 10 ^ 9 } },
    by decide +kernel⟩, ⟨15, 3, { up with eng := [(15, { slots := [(3, { valid := true, preempted := true })] })] },
    by decide +kernel⟩, ⟨15, 3,
    { up with eng := [(15, { slots := [(3, { valid := true, sleeve := 1, job := 5, dma := [{ desc := [0, 0, 0, 0, 0, 0, 0, 0] }] })] })] },
    by decide +kernel⟩, ⟨15, up, by decide +kernel⟩, ⟨15, up, by decide +kernel⟩, ⟨15, 3, [],
    { suspects := [3], held := [3] }, { up with hlt := { stalls := [(15, some { suspects := [3], held := [3] })] } },
    by decide +kernel⟩, ⟨15, 3, 14, 0, 0, [], { suspects := [3], held := [3] },
    { { up with eng := [(15, { slots := [(3, { valid := true, size := 1, sleeve := 1, job := 5, dma := [{ desc := [0, 0, 0, 0, 0, 0, 0, 0] }] })] })] } with hlt := { stalls := [(15, some { suspects := [3], held := [3] })] } },
    _, rfl, _, rfl, by decide +kernel⟩, ⟨15, 3, 15, 0, 0, [], { suspects := [3], held := [3] },
    { { up with eng := [(15, { slots := [(3, { valid := true, size := 1, sleeve := 1, job := 5, dma := [{ desc := [0, 0, 0, 0, 0, 0, 0, 0] }] })] })] } with hlt := { stalls := [(15, some { suspects := [3], held := [3] })] } },
    _, rfl, _, rfl, by decide +kernel⟩, ⟨15, 3, 14, 0, { suspects := [], held := [3], moved := [(3, 14, 0)] },
    { up with hlt := { stalls := [(15, some { suspects := [], held := [3], moved := [(3, 14, 0)] })] } },
    by decide +kernel⟩, ⟨15, 3, 9, { suspects := [], held := [3], seeking := [(3, 9)] },
    { up with hlt := { stalls := [(15, some { suspects := [], held := [3], seeking := [(3, 9)] })] }, tim := { raw := 10 ^ 9 } },
    by decide +kernel⟩, ⟨3, withCore, by decide +kernel⟩, ⟨4, 5,
    { { up with rad := { dies := [(0, { plan := [(6, [{ slot := 0, seq := 7, core := 0, job := some 0 }])] })], cores := [(0, { queues := [(6, [[0x0100070000400000, 0x021000000000, 0x021000000040, 0x0010000000000000]])] })] } } with tim := { raw := 10 ^ 9 } },
    by decide +kernel⟩, ⟨4, 6,
    { { up with rad := { dies := [(0, { plan := [(0, [{ slot := 0, seq := 7, core := 0, job := some 0 }])] })], cores := [(0, { queues := [(0, [[0x0100070000400000, 0x021000000000, 0x021000000040, 0x0010000000000000]])] })] } } with tim := { raw := 10 ^ 9 } },
    by decide +kernel⟩, ⟨4, 8,
    { { up with rad := { dies := [(0, { plan := [(8, [{ slot := 0, seq := 7, core := 0, job := some 0 }])] })], cores := [(0, { queues := [(8, [[0x0100070000400000, 0x021000000000, 0x021000000040, 0x0010000000000000]])] })] } } with tim := { raw := 10 ^ 9 } },
    by decide +kernel⟩, ⟨6, 3, up, by decide +kernel⟩, ⟨4, 1, up, by decide +kernel⟩, ⟨6, 3, 1, up,
    by decide +kernel⟩, ⟨up, { code := 1, severity := 2, die := 7 }, by decide +kernel⟩, ⟨up,
    { code := 1, severity := 2, die := 7 }, 6, by decide +kernel⟩⟩

/-- The hypotheses of HealthCommandsRun, met. -/
theorem witness_HealthCommandsRun :
    (∃ u : Nat, ∃ s : State, u < 124 ∧ 3 ≤ resetsWin s u) ∧
    (∃ u : Nat, ∃ s : State, u < 124 ∧ resetsWin s u < 3) ∧
    (∃ d : Nat, ∃ s : State, d < 4 ∧ 2 ≤ (functionResets s d 0).length ∧ s.hlt.funcFenced.contains (d * 4) = false) ∧
    (∃ s : State, s.mgt.tacor = 1) ∧
    (∃ s : State, s.mgt.tacor = 1 ∧ s.hlt.evaluated = false ∧ ((currentEntry s).any (·.counted)) = true ∧ 4 ≤
      countedBoots s ∧ s.hlt.hr.withdrawn = false ∧ ((currentEntry s).any (·.stamp.isSome) = true ∨ 60 * ticksPerS ≤
      since s s.hlt.runningAt)) ∧
    (∃ n : Nat, ∃ s : State, s.hlt.shutdownAt = some n ∧ 60 * ticksPerS ≤ since s n) ∧
    (∃ n : Nat, ∃ s : State, s.hlt.resetAt = some n ∧ 10 * ticksPerMs ≤ since s n) ∧
    (∃ n : Nat, ∃ s : State, s.hlt.resetAt = some n ∧ since s n < 10 * ticksPerMs) ∧
    (∃ c : Cmd, ∃ s : State, Served 0x480 0 isMgmtRadio c s) ∧
    (∃ c : Cmd, ∃ s : State, ∃ t : State, ∃ rs, rs = ((s.hlt.log.reverse.dropWhile fun r => r.number != argN c
      0).take (argN c 1)) ∧ Served 0x481 3 isMgmtRadio c s ∧ 1 ≤ argN c 1 ∧ argN c 1 ≤ 64 ∧ rs ≠ [] ∧ writeArg s
      (partyOf c.src) (arg c 2) (bytesOf (rs.flatMap (·.words))) = .ok t) ∧
    (∃ c : Cmd, ∃ s : State, Served 0x482 1 isManager c s ∧ 5 ≤ argN c 0 ∧ argN c 0 ≤ 1000) ∧
    (∃ c : Cmd, ∃ s : State, Served 0x482 1 isManager c s ∧ 5 ≤ argN c 0 ∧ argN c 0 ≤ 1000) ∧
    (∃ c : Cmd, ∃ s : State, Served 0x483 1 isMgmt c s ∧ s.tim.state < 2) ∧
    (∃ c : Cmd, ∃ s : State, Served 0x483 1 isMgmt c s ∧ 2 ≤ s.tim.state) ∧
    (∃ c : Cmd, ∃ bs : List Byte, ∃ s : State, Served 0x484 2 isMgmt c s ∧ argN c 0 ≤ 512 ∧ readArg s (partyOf c.src)
      c.hostData (arg c 1) (8 * argN c 0) = .ok bs ∧ ((wordsOf (argN c 0) bs).any fun w => fld w 63 56 > 123 || fld w
      54 32 != 0) = false) ∧
    (∃ c : Cmd, ∃ s : State, Served 0x485 1 isMgmt c s ∧ argN c 0 ≤ 123 ∧ s.pwr.inhibit = false) ∧
    (∃ c : Cmd, ∃ s : State, Served 0x486 1 isMgmt c s ∧ argN c 0 ≤ 123 ∧ s.pwr.inhibit = false ∧ ((unitSt s (argN c
      0)).fence ≠ .none ∨ (unitSt s (argN c 0)).hold ≠ 0)) ∧
    (∃ c : Cmd, ∃ s : State, Served 0x487 1 isMgmt c s ∧ argN c 0 ≤ 7 ∧ s.pwr.inhibit = false) ∧
    (∃ c : Cmd, ∃ s : State, Served 0x488 0 isMgmt c s ∧ s.hlt.hr.withdrawn = true ∧ s.pwr.inhibit = false ∧
      (s.boot.radioFw = false ∨ s.boot.minimal = true ∨ s.boot.sleeve0 = true)) ∧
    (∃ c : Cmd, ∃ s : State, Served 0x488 0 isMgmt c s ∧ s.hlt.hr.withdrawn = true ∧ s.pwr.inhibit = false ∧
      s.boot.radioFw = true ∧ s.boot.minimal = false ∧ s.boot.sleeve0 = false) ∧
    (∃ c : Cmd, ∃ s : State, Served 0x489 0 isMgmt c s ∧ s.pwr.inhibit = false) ∧
    (∃ c : Cmd, ∃ s : State, Served 0x48A 0 isMgmt c s ∧ s.pwr.inhibit = false) ∧
    (∃ c : Cmd, ∃ s : State, Served 0x48A 0 isMgmt c s ∧ s.pwr.inhibit = true) :=
  ⟨⟨123, withUnit 123 { resetTimes := [0, 0, 0] }, by decide +kernel⟩, ⟨123, withUnit 123 { resetTimes := [0, 0] },
    by decide +kernel⟩, ⟨3, { up with hlt := { funcResets := [(12, [0, 0])] } }, by decide +kernel⟩, ⟨up,
    by decide +kernel⟩,
    ⟨{ { up with hlt := { hr := { entries := [{ incarnation := 4, cause := 0, counted := true, stamp := none }, { incarnation := 3, cause := 0, counted := true, stamp := none }, { incarnation := 2, cause := 0, counted := true, stamp := none }, { incarnation := 1, cause := 0, counted := true, stamp := none }] } } } with tim := { raw := 10 ^ 11 } },
    by decide +kernel⟩, ⟨0, { { up with hlt := { shutdownAt := some 0 } } with tim := { raw := 10 ^ 11 } },
    by decide +kernel⟩, ⟨0, { { up with hlt := { resetAt := some 0 } } with tim := { raw := 10 ^ 11 } },
    by decide +kernel⟩, ⟨0, { up with hlt := { resetAt := some 0 } }, by decide +kernel⟩, ⟨mc [], up,
    by decide +kernel⟩, ⟨mc [7, 1, 0x8000000000100000],
    { up with hlt := { log := [{ number := 7, words := [1] }] } }, _, _, rfl, by decide +kernel, by decide +kernel,
    by decide +kernel, by decide +kernel, rfl⟩, ⟨mc [5], up, by decide +kernel⟩, ⟨mc [1000], up, by decide +kernel⟩,
    ⟨mc [9], up, by decide +kernel⟩, ⟨mc [9], { up with tim := { state := 2 } }, by decide +kernel⟩,
    ⟨{ mc [1, 0x8000000000100000] with hostData := [1, 0, 0, 0, 0, 0, 0, 123] }, [1, 0, 0, 0, 0, 0, 0, 123], up,
    by decide +kernel⟩, ⟨mc [123], up, by decide +kernel⟩, ⟨mc [123], withUnit 123 { hold := 1 }, by decide +kernel⟩,
    ⟨mc [7], up, by decide +kernel⟩, ⟨mc [], { up with hlt := { hr := { withdrawn := true } } }, by decide +kernel⟩,
    ⟨mc [],
    { { up with hlt := { hr := { withdrawn := true } } } with boot := { phase := .booted, radioFw := true } },
    by decide +kernel⟩, ⟨mc [], up, by decide +kernel⟩, ⟨mc [], up, by decide +kernel⟩, ⟨mc [],
    { up with pwr := { inhibit := true } }, by decide +kernel⟩⟩

/-- The hypotheses of BootCommandsRun, met. -/
theorem witness_BootCommandsRun :
    (∃ c : Cmd, ∃ s : State, Served 0x500 0 isMgmtRadio c s) ∧
    (∃ c : Cmd, ∃ s : State, ∃ t : State, Served 0x501 1 isMgmt c s ∧ writeArg s (partyOf c.src) (arg c 0) (bytesOf
      (s.boot.config ++ nextConfig s.nvm)) = .ok t) ∧
    (∃ c : Cmd, ∃ bs : List Byte, ∃ s : State, Served 0x502 1 isMgmt c s ∧ s.pwr.inhibit = false ∧ readSource s c
      (partyOf c.src) (arg c 0) 0 256 = .ok bs ∧ configBad (wordsOf 32 bs) = false) ∧
    (∃ c : Cmd, ∃ bs : List Byte, ∃ s : State, Served 0x502 1 isMgmt c s ∧ s.pwr.inhibit = false ∧ readSource s c
      (partyOf c.src) (arg c 0) 0 256 = .ok bs ∧ configBad (wordsOf 32 bs) = true) ∧
    (∃ n : Nvm, ∃ x : List Byte, validCopy n = some n.copyA) ∧
    (∃ c : Cmd, ∃ bs : List Byte, ∃ s : State, Served 0x503 2 isMgmt c s ∧ s.boot.update = none ∧ argN c 1 ≤ 33554432
      ∧ argN c 1 ≠ 0 ∧ readSource s c (partyOf c.src) (arg c 0) 1 (argN c 1) = .ok bs) ∧
    (∃ b : Bool, ∃ bs : List Byte, ∃ src : Src, ∃ s : State, s.boot.update = some (bs, src)) ∧
    (∃ c : Cmd, ∃ s : State, Served 0x504 0 isMgmt c s ∧ s.pwr.inhibit = false) ∧
    (∃ c : Cmd, ∃ s : State, Served 0x504 0 isMgmt c s ∧ s.pwr.inhibit = true) ∧
    (∃ c : Cmd, ∃ s : State, Served 0x505 5 isMgmt c s ∧ s.pwr.inhibit = false ∧ s.nvm.attestBad = false ∧
      s.nvm.attestIndex < 1099511627776 ∧ checkArg s (partyOf c.src) .wr (arg c 4) 5972 = none) ∧
    (∃ c : Cmd, ∃ s : State, Served 0x506 1 isMgmt c s) ∧
    (∃ c : Cmd, ∃ s : State, Served 0x507 0 isMgmtRadio c s) :=
  ⟨⟨mc [], up, by decide +kernel⟩, ⟨mc [0x8000000000100000], up, got (writeArg up .manager 0x8000000000100000
    (bytesOf (up.boot.config ++ nextConfig up.nvm))), by decide +kernel⟩,
    ⟨{ mc [0x8000000000100000] with hostData := [0, 0, 0, 0, 0, 0, 0, 0, 0, 0, 1] }, ([0, 0, 0, 0, 0, 0, 0, 0, 0, 0,
    1] ++ List.replicate 256 0).take 256, up, by decide +kernel⟩, ⟨mc [0x8000000000100000], List.replicate 256 0, up,
    by decide +kernel⟩, ⟨{ copyA := sealConfig {} [] }, [1], by decide +kernel⟩,
    ⟨{ mc [0x8000000000100000, 4] with hostData := [1] }, [1, 0, 0, 0], up, by decide +kernel⟩, ⟨true, [1, 2],
    .mailbox 0 0, { up with boot := { up.boot with update := some ([1, 2], .mailbox 0 0) } }, by decide +kernel⟩, ⟨mc
    [], up, by decide +kernel⟩, ⟨mc [], { up with pwr := { inhibit := true } }, by decide +kernel⟩, ⟨mc [1, 2, 3, 4,
    0x8000000000100000], up, by decide +kernel⟩, ⟨mc [0x8000000000100000], up, by decide +kernel⟩, ⟨mc [], up,
    by decide +kernel⟩⟩

/-- The hypotheses of ResetLeavesTheMachineEmpty, met. -/
theorem witness_ResetLeavesTheMachineEmpty :
    (∃ s : State, s.pending = [] ∧ s.boot.phase = .held) ∧
    (∃ s : State, s.pending = [] ∧ Up s) :=
  ⟨⟨{}, by decide +kernel⟩, ⟨up, by decide +kernel⟩⟩

/-- The hypotheses of ThermalTripHoldsTheDevice, met. -/
theorem witness_ThermalTripHoldsTheDevice :
    (∃ tj : Nat, ∃ s : State, 110 ≤ tj ∧ Up s) ∧
    (∃ tj : Nat, ∃ s : State, tj < 110) ∧
    (∃ c : Instr, ∃ s : State, ∃ t : State, s.pins.thermtrip = true ∧ s.boot.phase = .held ∧ c ≠ .thermtripRelease ∧
      exec c s = .next t) ∧
    (∃ s : State, s.pins.thermtrip = true ∧ s.boot.phase = .held) :=
  ⟨⟨110, up, by decide +kernel⟩, ⟨109, up, by decide +kernel⟩, ⟨.ppsInEdge, { pins := { thermtrip := true } },
    { pins := { thermtrip := true } }, by decide +kernel, by decide +kernel, by decide +kernel, rfl⟩,
    ⟨{ pins := { thermtrip := true } }, by decide +kernel⟩⟩

/-- The hypotheses of RollbackFloorNeverFalls, met. -/
theorem witness_RollbackFloorNeverFalls :
    (∃ s : State, ∃ t : State, step s = .next t) ∧
    (∃ c : Instr, ∃ s : State, ∃ t : State, ((∀ d, c ≠ .bootRollbackCommit d)) ∧ exec c s = .next t) ∧
    (∃ d : Cmd, ∃ s : State, Served 0x504 0 isMgmt d s ∧ s.pwr.inhibit = false) ∧
    (∃ d : Cmd, ∃ s : State, Served 0x504 0 isMgmt d s ∧ s.pwr.inhibit = true) :=
  ⟨⟨{ up with pending := [.ppsInEdge] }, nx (step { up with pending := [.ppsInEdge] }), rfl⟩, ⟨.ppsInEdge, {}, {},
    by simp, rfl⟩, ⟨mc [], up, by decide +kernel⟩, ⟨mc [], { up with pwr := { inhibit := true } },
    by decide +kernel⟩⟩

/-- The hypotheses of MemoryStaysCanonical, met. -/
theorem witness_MemoryStaysCanonical :
    (∃ s : State, ∃ t : State, Memory.wf s.pkg.mem = true ∧ step s = .next t) :=
  ⟨{ up with pending := [.ppsInEdge] }, nx (step { up with pending := [.ppsInEdge] }), by decide +kernel, rfl⟩

/-- The hypotheses of RecordsStayBounded, met. -/
theorem witness_RecordsStayBounded :
    (∃ s : State, ∃ t : State, RecordsBounded s ∧ step s = .next t) :=
  ⟨{ up with pending := [.ppsInEdge] }, nx (step { up with pending := [.ppsInEdge] }), recordsBounded_up, rfl⟩


/-! ### The hand-written witness of Int16ProductsAccumulate -/

theorem witness_Int16ProductsAccumulate :
    CoreAt (sigAt 0 (coreInstr (.vmac 0 3 31 2 true true false .ok)).get!.2.2) 0 false
      (coreInstr (.vmac 0 3 31 2 true true false .ok)).get!.2.2 ∧
    30 % 2 = 0 ∧
    CoreAt (sigAt 63 (coreInstr (.tapmov 63 3 30 2 15 true false .ok)).get!.2.2) 63 false
      (coreInstr (.tapmov 63 3 30 2 15 true false .ok)).get!.2.2 :=
  ⟨by decide +kernel, rfl, by decide +kernel⟩

/-! ### Well-formed commands: each check refuses an ill-formed operand -/

theorem test_wf_engine : Instr.wf (.chain 16 0 []) = false ∧ Instr.wf (.chain 15 5 []) = false ∧ Instr.wf (.chain 15 4 []) = true := by
  decide
theorem test_wf_window : Instr.wf (.jobSubmit { src := .mailbox 65 0, args := [] }) = false ∧
    Instr.wf (.jobSubmit { src := .mailbox 0 15, args := [] }) = false ∧
    Instr.wf (.jobSubmit { src := .mailbox 64 14, args := [] }) = true := by decide
theorem test_wf_sleeve : Instr.wf (.jobSubmit { src := .subq 0 7, args := [] }) = false ∧
    Instr.wf (.jobSubmit { src := .subq 64 7, args := [] }) = false ∧
    Instr.wf (.jobSubmit { src := .subq 63 7, args := [] }) = true := by decide
theorem test_wf_fabric : Instr.wf (.jobSubmit { src := .fabric 16 0 0, args := [] }) = false ∧
    Instr.wf (.jobSubmit { src := .sideband 9, args := [] }) = true := by decide
theorem test_wf_core : Instr.wf (.vmac 64 0 0 0 false false false .ok) = false ∧
    Instr.wf (.vmac 63 4 0 0 false false false .ok) = false ∧ Instr.wf (.vmac 63 3 32 0 false false false .ok) = false ∧
    Instr.wf (.vmac 63 3 31 31 false false false .ok) = true := by decide
theorem test_wf_units : Instr.wf (.domainIdleOff 96) = false ∧ Instr.wf (.strikeCountConfirm 124) = false ∧
    Instr.wf (.seamFlitCrcError 13 0 [] []) = false ∧ Instr.wf (.lockstepMismatch 8 0) = false := by decide
theorem test_wf_ports : Instr.wf (.laneDrop 4 0) = false ∧ Instr.wf (.txRingPoll 3 16) = false ∧
    Instr.wf (.compareFire 16) = false ∧ Instr.wf (.harqCarrySend 256) = false := by decide

/-! ### Worked examples of the spec -/

/-- R421: the machine after reset has no command waiting. -/
theorem test_reset_queue : State.reset.pending = [] := by decide

/-- R81 and its worked examples: products of two element codes of a format, as exact values. -/
def prods (fa fb : Nat) (l : List (Nat × Nat)) : List Val :=
  l.map fun p => mulV (decodeElem fa p.1) (decodeElem fb p.2)

/-- The FP8 example of 03_numerics.md. -/
theorem test_frame_fp8 : (accumulate (-18) none (prods 6 6 [(0x7E, 0x18), (0x39, 0xF7), (0x81, 1), (0x46, 0x1D)])).1 =
    some (.fin (-63345665)) ∧
    (roundTo 8 { mode := 0 } (Frame.val (-18) (.fin (-63345665)))).1 = 0xDB8D := by decide +kernel

/-- The FP16 example: 2^24 in the frame is 2^-24, exact in FP32 and the smallest FP16 subnormal. -/
theorem test_frame_fp16 : (accumulate (-48) none (prods 8 8 [(0x6800, 0x3C00), (0x3C00, 1), (0xE800, 0x3C00)])).1 =
    some (.fin (2 ^ 24)) ∧
    (roundTo 0x0A { mode := 0 } (Frame.val (-48) (.fin (2 ^ 24)))).1 = 0x33800000 ∧
    (roundTo 0x08 { mode := 0 } (Frame.val (-48) (.fin (2 ^ 24)))).1 = 1 := by decide +kernel

/-- The windowed BF16 example: the two large products cancel, and one of the small ones is below the window. -/
theorem test_frame_bf16 :
    (accumulate (-4) none (prods 9 9 [(0x5DC0, 0x52A0), (0xDDC0, 0x52A0), (0x3FE0, 0x3D80), (0x3E40, 0x3E80)])).1 =
      some (.fin 1) ∧
    (roundTo 9 { mode := 0 } (Frame.val (-4) (.fin 1))).1 = 0x3D80 := by decide +kernel

/-- CRC-32C and CRC-64 of the digits 1 to 9. -/
theorem test_crc : crc32c [0x31, 0x32, 0x33, 0x34, 0x35, 0x36, 0x37, 0x38, 0x39] = 0xE3069283 ∧
    crc64 [0x31, 0x32, 0x33, 0x34, 0x35, 0x36, 0x37, 0x38, 0x39] = 0x995DC9BBDF1939FA := by decide +kernel

/-- R318: truncated time at its wrap and at the edge of its range. -/
theorem test_due32 : due32 0x100 0xFFFFFF00 = true ∧ due32 0xFFFFFF00 0x100 = false ∧ due32 0x100 0x100 = true ∧
    due32 0 0x80000000 = false ∧ due32 0 0x80000001 = true := by decide +kernel

/-- The VMAC and VEXT example of R277 and R278: 1 × (16384 − 16384 i), extracted at 15, is 1 (half up) and 0. -/
def vmacCore : State :=
  { boot := { phase := .booted }, rad := { cores := [(0, {
      task := some { entry := 0, mode := false, s1 := 0, s2 := 0, s3 := 0, s4 := 0, seqs := 0, job := 0 }
      v := [(4, (cpx 1 0).setWidth 512), (5, (cpx 16384 (-16384)).setWidth 512)]
      store := [(0, (coreInstr (.vmac 0 0 4 5 false false false .ok)).get!.2.2.getD 0),
        (1, (coreInstr (.vext 0 7 0 15 false false .ok)).get!.2.2.getD 0)] })] } }
theorem test_vmac : accI (accLane (accReg (sigCore (nx (exec (.vmac 0 0 4 5 false false false .ok) vmacCore)) 0) 0) 0) =
    (16384, -16384) := by decide +kernel
theorem test_vext : lane (vReg (sigCore (nx (exec (.vext 0 7 0 15 false false .ok)
    (nx (exec (.vmac 0 0 4 5 false false false .ok) vmacCore)))) 0) 7) 0 = cpx 1 0 := by decide +kernel

/-- The opcode of the spec's table for VMAC, its fields at their places (R280): A1, VA 2, VB 3, CONJ. -/
theorem test_word_vmac : (coreInstr (.vmac 0 1 2 3 true false false .ok)).get!.2.2 = some 0x40221C00 := by decide +kernel

/-- The routes and stacks of the DIC example of R382. -/
def dicRt (t p : Nat) : W32 := pack 32 [(31, 1), (20, t), (16, p)]
def dicS : State :=
  { boot := { phase := .booted }
    mgt := { tacor := 1, routes := [(300, dicRt 8 5), (310, dicRt 8 2), (320, dicRt 8 5)]
             srcs := [(300, { active := true, rearm := true, count := 2 }), (310, { active := true }), (320, { pending := true })]
             cores := [(8, { enable := true, stack := [(310, 2), (300, 5)] })] } }
/-- Source 320 at the priority of the stacked 300 does not interrupt; after both EOIs 300, rearmed, comes first. -/
theorem test_dic_nesting : (dicCore (nx (exec (.dicDelivery 8) dicS)) 8).stack = [(310, 2), (300, 5)] ∧
    (dicCore (nx (exec (.dicEoi 8 310) dicS)) 8).stack = [(300, 5)] := by decide +kernel
/-- R382: an EOI of a source that is not on top resets the host core's engine domain, which empties its stack. -/
theorem test_dic_wrong_eoi : (dicCore (nx (exec (.dicEoi 8 300) dicS)) 8).stack = [] := by decide +kernel

/-- The hem example of R312: Q4's gate closes at 10,000 ns, at 800 Gb/s. -/
def hemPort (q4 : Nat × Nat × Nat) : FhPort :=
  { up := true, gates := { cycle := 1000000, entries := [(0xFF, 10000), (0xEF, 990000)] }
    group := [(64, 1, 0), q4, (64, 1, 0), (64, 1, 0), (64, 1, 0)] }
def hemAtNs (ns : Nat) : State := { tim := { base := BitVec.ofNat 96 (ns * 2 ^ 32) } }
/-- Length-aware at 9,920 ns: 9,000 bytes wait, 1,500 bytes start. -/
theorem test_hem_length : hemAllows (hemAtNs 9920) (hemPort (64, 1, 0)) 4 9000 = false ∧
    hemAllows (hemAtNs 9920) (hemPort (64, 1, 0)) 4 1500 = true := by decide +kernel
/-- A fixed hem of 93 ns: nothing starts after 9,907 ns. -/
theorem test_hem_fixed : hemAllows (hemAtNs 9907) (hemPort (64, 0, 93)) 4 1500 = true ∧
    hemAllows (hemAtNs 9908) (hemPort (64, 0, 93)) 4 1500 = false := by decide +kernel

/-- The TAPMOV example of R281: two taps of 100 − 50 i and the delay line. -/
def tapCore : State :=
  { boot := { phase := .booted }, rad := { cores := [(0, {
      task := some { entry := 0, mode := false, s1 := 0, s2 := 0, s3 := 0, s4 := 0, seqs := 0, job := 0 }
      v := [(4, (cpx 200 0).setWidth 512), (5, ofLanes fun i => if i = 15 then cpx 100 (-50) else 0),
        (6, ofLanes fun i => if i = 0 then cpx 16384 0 else if i = 1 then cpx 0 16384 else 0)]
      store := [(0, (coreInstr (.tapmov 0 0 4 6 0 false false .ok)).get!.2.2.getD 0),
        (1, (coreInstr (.tapmov 0 0 4 6 1 false false .ok)).get!.2.2.getD 0)] })] } }
theorem test_tapmov : accI (accLane (accReg (sigCore (nx (exec (.tapmov 0 0 4 6 0 false false .ok) tapCore)) 0) 0) 0) =
    (3276800, 0) ∧
    lane (vReg (sigCore (nx (exec (.tapmov 0 0 4 6 0 false false .ok) tapCore)) 0) 4) 0 = cpx 100 (-50) := by decide +kernel
theorem test_tapmov_second : accI (accLane (accReg (sigCore (nx (exec (.tapmov 0 0 4 6 1 false false .ok)
    (nx (exec (.tapmov 0 0 4 6 0 false false .ok) tapCore)))) 0) 0) 0) = (4096000, 1638400) := by decide +kernel

/-- The sequence pool example of R192. -/
def seqRun (n l : Nat) (ps : List Nat) : Seq := { number := n, len := l, st := .running, pages := ps }
def poolPool : Pool :=
  { seqs := [seqRun 101 48 [1, 2, 3], seqRun 102 30 [4, 5], seqRun 103 15 [6], seqRun 105 64 [7, 8, 9, 10], seqRun 107 20 [11, 12]]
    joins := [{ number := 110, prompt := 0, tokens := 20, step := 7 }, { number := 111, prompt := 0, tokens := 5, step := 7 }]
    pages := (List.range 16).map (· + 1) }
def poolPages : List PageRec :=
  (List.range 16).map fun i => { page := i + 1, kind := if i < 12 then 0 else 1, perms := 15, job := some 5 }
def poolS : State :=
  { slv := [(1, { st := .active, record := [0], pages := poolPages })]
    pkg := { owner := (List.range 16).map fun i => (i + 1, ownPack 1 5 0 15 false (if i < 12 then 1 else 2) false i) }
    jobs := [(5, { st := .running, owner := 1, tokenBytes := 4096, step := 7, pool := poolPool })] }
def poolRecord : PoolWork := (applyPool poolS 5 [103]).2
theorem test_pool : (poolRecord.joined, poolRecord.deferred, poolRecord.preempted, poolRecord.departed) = (0, 2, 1, 1) := by
  decide +kernel

/-- The health score example of R415. -/
def daySecs : Nat := 86400
def scoreS : State :=
  { tim := { raw := BitVec.ofNat 64 (20 * daySecs * ticksPerS) }
    lin := { units := [(6, { fence := .confirmed })]
             strikes := [{ unit := 6, kind := 0, location := 0, job := 0, sleeve := 0, confirmed := true, raw := 18 * daySecs * ticksPerS }] }
    hlt := { seed := [BitVec.ofNat 64 (9 * daySecs), BitVec.ofNat 64 (14 * daySecs), BitVec.ofNat 64 (14 * daySecs)]
             seedRaw := 20 * daySecs * ticksPerS
             clock := some (100 * daySecs * 1000000000, 20 * daySecs * ticksPerS)
             hr := { entries := [{ incarnation := 1, cause := 2, counted := true, stamp := some (99 * daySecs * 1000000000) }] } } }
theorem test_score : scoreLevel scoreS = (651, 2) := by decide +kernel

/-- The meter colours of the example of R307: green bucket first, then yellow, else red. -/
theorem test_meter : (meterColour 0 (11025 * 1250) (31050 * 1250) 9000).2 = (2025 * 1250, 22050 * 1250) := by decide +kernel

/-- EVM and SINR of the example of R242: −31.47 dB and 28.35 dB. -/
theorem test_evm : dbField (-600) 100 (some (7129, 10000000)) = 0xFEC5 := by decide +kernel
theorem test_sinr : dbField (-300) 600 (some (683912, 1000)) = 0x011C := by decide +kernel

end Sys2Proof.Tests
end

section
/-! PROOFS. What a ring-tail write and a register write do (R9, R28, R124, R363): the write reaches one place, and one
lemma per place says what stands there afterwards. -/

namespace Sys2Proof.Machine

/-! ### Ring tails (R124) -/

theorem exec_ringTailWrite_of_up {s : State} (h : Up s) (e i : Nat) (k : RingKind) (v : W32) :
    exec (.ringTailWrite e i k v) s = .next (tailWrite s e i k (fld v 11 0)) := by
  change execRingTailWrite e i k v s = _
  simp [execRingTailWrite, h]

/-- A tail write at a slot that exists works on that slot's ring. -/
theorem tailWrite_of_le (s : State) {e i : Nat} (he : e ≤ 15) (hi : i ≤ 4) (k : RingKind) (v : Nat) :
    tailWrite s e i k v =
      modSlot s e i fun x => modRing x k fun r => if v ≤ r.entries then { r with tail := v } else r := by
  simp [tailWrite, Nat.not_lt.mpr he, Nat.not_lt.mpr hi]

/-- What a tail write leaves in its own slot. -/
theorem slot_tailWrite_same (s : State) {e i : Nat} (he : e ≤ 15) (hi : i ≤ 4) (k : RingKind) (v : Nat) :
    slot (tailWrite s e i k v) e i =
      modRing (slot s e i) k fun r => if v ≤ r.entries then { r with tail := v } else r := by
  simp [tailWrite_of_le s he hi]

theorem slot_tailWrite_other (s : State) {e i e' i' : Nat} (h : (e', i') ≠ (e, i)) (k : RingKind) (v : Nat) :
    slot (tailWrite s e i k v) e' i' = slot s e' i' := by
  have hne : ¬(e' = e ∧ i' = i) := by simpa using h
  unfold tailWrite
  split
  · rfl
  · rw [slot_modSlot, if_neg hne]

@[simp] theorem tailWrite_pkg (s : State) (e i : Nat) (k : RingKind) (v : Nat) :
    (tailWrite s e i k v).pkg = s.pkg := by
  unfold tailWrite; split <;> rfl

@[simp] theorem tailWrite_jobs (s : State) (e i : Nat) (k : RingKind) (v : Nat) :
    (tailWrite s e i k v).jobs = s.jobs := by
  unfold tailWrite; split <;> rfl

/-! ### Where a register write goes (R28, R361) -/

section Writers

variable {s t : State} (h : Up s) (addr : Nat) (v : W64)

include h

theorem exec_registerWrite_tacor (ha : inRegs addr = true) :
    exec (.registerWrite .tacor addr v) s = .next (regionWrite s (regDie addr) (regOff addr) v) := by
  change execRegisterWrite .tacor addr v s = _
  simp [execRegisterWrite, h, ha]

theorem exec_registerWrite_bar0 :
    exec (.registerWrite .bar0 addr v) s = .next (bar0Write s addr v) := by
  change execRegisterWrite .bar0 addr v s = _
  simp [execRegisterWrite, h]

/-- A host core's write of a register that it does not reach faults the context that it runs. -/
theorem exec_registerWrite_hostCore_unreached {k : Nat} {i : Issuer} (hk : coreIssuer s k = some i)
    (ha : inRegs addr = true) (hn : coreRegWrite s k i.sleeve (regDie addr) (regOff addr) v = none) :
    exec (.registerWrite (.hostCore k) addr v) s = .next (coreFault s k addr .denied) := by
  change execRegisterWrite (.hostCore k) addr v s = _
  simp [execRegisterWrite, h, hk, ha, hn]

theorem exec_registerWrite_radioFirmware_reached (ha : inRegs addr = true)
    (ht : coreRegWrite s 16 0 (regDie addr) (regOff addr) v = some t) :
    exec (.registerWrite .radioFirmware addr v) s = .next t := by
  change execRegisterWrite .radioFirmware addr v s = _
  simp [execRegisterWrite, h, ha, ht]

end Writers

/-! ### Places (R28, R363, R418) -/

/-- LOG_LOST stands at offset 0x800C of ED0 (R418). -/
theorem regionWrite_logLost (s : State) (v : W64) :
    regionWrite s 6 0x800C v = { s with hlt := { s.hlt with logLost := satW1c s.hlt.logLost v } } := by
  simp [regionWrite, ed0Write]

/-- While the link is up the first 4 KiB from BAR0 offset 0x40000 are the manager page (R361, R363). -/
theorem bar0Write_manager {s : State} (hc : s.mgt.cxlUp = true) {r : Nat} (hr : r < 0x1000) (v : W64) :
    bar0Write s (0x40000 + r) v = managerWrite s r v := by
  have hlt : 0x40000 + r < 0x41000 := by omega
  simp [bar0Write, hc, hlt, Nat.mod_eq_of_lt hr]

theorem managerWrite_evtEntries (s : State) (v : W64) :
    managerWrite s 0x010 v = { s with mgt := { s.mgt with evtEntries := fld v 15 0 } } := by
  simp [managerWrite]

/-- The event ring's base is written only when it is 4 KiB aligned (R10, R363). -/
theorem managerWrite_evtBase (s : State) (v : W64) :
    managerWrite s 0x008 v =
      if fld v 11 0 = 0 then { s with mgt := { s.mgt with evtBase := v } } else s := by
  simp [managerWrite]

end Sys2Proof.Machine

namespace Sys2Proof

open Machine

/-- Settles O27: each writer's write reaches the place that its address names, and that place takes its writable
fields. -/
theorem registerWritesTakeTheirFields : Obligations.RegisterWritesTakeTheirFields := by
  unfold Obligations.RegisterWritesTakeTheirFields
  refine ⟨?feeder, ?dma, ?element, ?tacor, ?bar0, ?logLost, ?evtEntries, ?misaligned, ?aligned, ?core, ?radio⟩
  case feeder =>
    intro e i v s hup he hi hv
    refine ⟨_, exec_ringTailWrite_of_up hup e i .feeder v, ?_, fun e' i' hne => slot_tailWrite_other s hne _ _,
      tailWrite_pkg .., tailWrite_jobs ..⟩
    simp [slot_tailWrite_same s he hi, modRing, hv]
  case dma =>
    intro e i v s hup he hi hv
    refine ⟨_, exec_ringTailWrite_of_up hup e i .dma v, ?_⟩
    simp [slot_tailWrite_same s he hi, modRing, hv]
  case element =>
    intro e i v s hup he hi hv
    refine ⟨_, exec_ringTailWrite_of_up hup e i .element v, ?_⟩
    simp [slot_tailWrite_same s he hi, modRing, hv]
  case tacor => exact fun addr v s hup ha => exec_registerWrite_tacor hup addr v ha
  case bar0 => exact fun addr v s hup => exec_registerWrite_bar0 hup addr v
  case logLost =>
    intro v s hup
    have hexec := exec_registerWrite_tacor hup (regBase + 6 * 0x10000000 + 0x800C) v (by decide)
    exact ⟨_, hexec.trans (congrArg _ (regionWrite_logLost s v)), rfl, rfl, rfl, rfl⟩
  case evtEntries =>
    intro v s hup hc
    have hexec := exec_registerWrite_bar0 hup 0x40010 v
    rw [bar0Write_manager hc (r := 0x010) (by decide), managerWrite_evtEntries] at hexec
    exact ⟨_, hexec, rfl, rfl, rfl, rfl, rfl⟩
  case misaligned =>
    intro v s hup hc hv
    rw [exec_registerWrite_bar0 hup, bar0Write_manager hc (r := 0x008) (by decide), managerWrite_evtBase, if_neg hv]
  case aligned =>
    intro v s hup hc hv
    have hexec := exec_registerWrite_bar0 hup 0x40008 v
    rw [bar0Write_manager hc (r := 0x008) (by decide), managerWrite_evtBase, if_pos hv] at hexec
    exact ⟨_, hexec, rfl, rfl⟩
  case core => exact fun k addr v i s hup hk ha hn => exec_registerWrite_hostCore_unreached hup addr v hk ha hn
  case radio => exact fun addr v s t hup ha ht => exec_registerWrite_radioFirmware_reached hup addr v ha ht

end Sys2Proof
end

section
/-! PROOFS. Ring fetches (R31, R36, R124), and what they give the element engines (R126, R130, R136, R412) and the DMA
(R127, R128, R156, R157, R176). -/

namespace Sys2Proof.Machine

variable {s : State} {e i : Nat} {d : List W64}

/-! ### The fetch of a ring entry (R31, R36, R124) -/

theorem ringHolds_iff {addr n : Nat} : ringHolds s e i addr n d = true ↔
    unitTracker s e (slot s e i).sleeve = true ∧
      ∃ bs, devRead s (slotIssuer s (slot s e i)) addr (8 * n) = .ok bs ∧ wordsOf n bs = d := by
  unfold ringHolds
  cases devRead s (slotIssuer s (slot s e i)) addr (8 * n) <;> simp

/-- A command whose descriptor stands in the ring runs on the state as it is. -/
theorem fetchEntry_of_ringHolds {addr n : Nat} (h : ringHolds s e i addr n d = true) (c : Instr) (k : State → State) :
    fetchEntry s e i addr n c d k = k s := by
  obtain ⟨htracker, bs, hread, hwords⟩ := ringHolds_iff.1 h
  simp [fetchEntry, htracker, hread, hwords]

/-! ### Element engines (R126, R130, R136) -/

theorem exec_elementRow {r : Nat × (Nat → Nat → List W64 → Instr)} (hr : r ∈ elementRows) (e i : Nat) (d : List W64)
    (s : State) : exec (r.2 e i d) s = .next (elemCmd r.1 e i d (r.2 e i d) s) := by
  revert r
  simp only [elementRows, List.forall_mem_cons, List.not_mem_nil, IsEmpty.forall_iff, implies_true, and_true]
  and_intros <;> rfl

theorem isEeOp_of_mem_elementRows {r : Nat × (Nat → Nat → List W64 → Instr)} (hr : r ∈ elementRows) :
    isEeOp r.1 = true := by
  revert r
  decide

/-- A descriptor that stands in the ring of an engine that is awake is checked, and then carried out. -/
theorem elemCmd_of_ready (h : ElementReady s e i d) (op : Nat) (c : Instr) :
    elemCmd op e i d c s =
      if !isEeOp (eOp d) then faultSlot s e i .badField
      else if eOp d != op then s
      else if elemBad d then faultSlot s e i .badField
      else elemRun s e i d := by
  obtain ⟨hfree, hawake, hholds⟩ := h
  simp [elemCmd, hfree, hawake, fetchEntry_of_ringHolds hholds]

/-- An element-engine row carries out a good descriptor of its OP. -/
theorem exec_elementRow_good {r : Nat × (Nat → Nat → List W64 → Instr)} (hr : r ∈ elementRows)
    (h : ElementReady s e i d) (hop : eOp d = r.1) (hbad : elemBad d = false) :
    exec (r.2 e i d) s = .next (elemRun s e i d) := by
  rw [exec_elementRow hr, elemCmd_of_ready h]
  simp [hop, hbad, isEeOp_of_mem_elementRows hr]

/-! ### The lining's state under the writes and the counts of a descriptor -/

@[simp] theorem putWrites_lin (s : State) (x : Slot) (e : Nat) (ws : Writes) : (putWrites s x e ws).lin = s.lin :=
  List.foldlRecOn (motive := fun t : State => t.lin = s.lin) ws _ rfl fun _ h _ _ => h

@[simp] theorem noteBeats_lin (s : State) (ns : List Nat) (x : Slot) (lease : Bool) (beats est : Nat) :
    (noteBeats s ns x lease beats est).lin = s.lin :=
  List.foldlRecOn (motive := fun t : State => t.lin = s.lin) ns _ rfl fun _ h _ _ => h

@[simp] theorem chargeBeats_lin (s : State) (x : Slot) (beats : Nat) : (chargeBeats s x beats).lin = s.lin := by
  unfold chargeBeats
  split <;> rfl

@[simp] theorem addCounts_lin (s : State) (h : Nat) (c : Counts) (w : Nat) : (addCounts s h c w).lin = s.lin := by
  unfold addCounts
  split <;> rfl

/-- The state in which a descriptor's outputs are written and counted and its ring has not moved yet. -/
def elemDone (s : State) (e i : Nat) (d : List W64) : State :=
  let x := slot s e i
  let w := elemWork s x e (slotChip s x) d
  let a := noteBeats (putWrites s x e w.1) ((engineDomains e).drop 1) x (i == 4) (elemBeats d) 0
  modSlot (addCounts (chargeBeats a x (elemBeats d)) x.job w.2) e i fun x => { x with shadowed := false }

@[simp] theorem unitSt_elemDone (s : State) (e i : Nat) (d : List W64) (u : Nat) :
    unitSt (elemDone s e i d) u = unitSt s u := by
  simp [unitSt, elemDone]

/-- A descriptor whose regions stand is written and counted; then its entry completes, or the referee is asked
(R412). -/
theorem elemRun_of_bar_none (h : elemBar s (slot s e i) e d = none) :
    elemRun s e i d =
      if (unitSt s (16 + e)).hold = 1 ∧ i < 4 then
        openDispute (elemDone s e i d) (elemDispute (elemDone s e i d) e i d [] [] true)
      else modSlot (elemDone s e i d) e i fun x =>
        { x with ering := ringNext x.ering }.completes (now (elemDone s e i d)) := by
  rw [← unitSt_elemDone s e i d (16 + e)]
  simp only [elemRun, h]
  simp [elemDone]

theorem elemRun_of_outside (h : ((elemReads d ++ elemWriteSpans d).all fun q => inPart (slot s e i) q.1 q.2) = false) :
    elemRun s e i d = faultSlot s e i .denied := by
  have hbar : elemBar s (slot s e i) e d = some .denied := by simp only [elemBar, h]; rfl
  simp [elemRun, hbar]

theorem elemRun_of_ecc (h : ((elemReads d ++ elemWriteSpans d).all fun q => inPart (slot s e i) q.1 q.2) = true)
    (hecc : ((elemReads d).any fun q => eccHit s (partKey (slot s e i) e q.1) q.2) = true) :
    elemRun s e i d = pocketEcc s e i := by
  have hbar : elemBar s (slot s e i) e d = some .checkFailed := by simp only [elemBar, h, hecc]; rfl
  simp [elemRun, hbar]

/-! ### DMA (R127, R128, R157) -/

/-- The three DMA rows with their KIND (R127). -/
def dmaRowTable : List (Nat × (Nat → Nat → List W64 → List (Nat × Byte) → Instr)) :=
  [(1, .dmaIn), (2, .dmaOut), (3, .dmaCopy)]

variable {r : Nat × (Nat → Nat → List W64 → List (Nat × Byte) → Instr)} {flips : List (Nat × Byte)}

theorem exec_dmaRow (hr : r ∈ dmaRowTable) (e i : Nat) (d : List W64) (flips : List (Nat × Byte)) (s : State) :
    exec (r.2 e i d flips) s = .next (dmaCmd r.1 e i d flips (r.2 e i d flips) s) := by
  revert r
  simp only [dmaRowTable, List.forall_mem_cons, List.not_mem_nil, IsEmpty.forall_iff, implies_true, and_true]
  and_intros <;> rfl

theorem kindReserved_of_mem_dmaRowTable (hr : r ∈ dmaRowTable) : kindReserved r.1 = false := by
  revert r
  decide

/-- A DMA row starts a descriptor of its KIND that stands in the ring, unless the descriptor breaks its layout. -/
theorem exec_dmaRow_ready (hr : r ∈ dmaRowTable) (h : DmaReady s e i d) (hkind : descKind d = r.1) :
    exec (r.2 e i d flips) s = .next (if dmaBad d then faultSlot s e i .badField
      else dmaStart s e i d flips (r.2 e i d flips)) := by
  obtain ⟨hfree, hring, hholds⟩ := h
  obtain ⟨htracker, -⟩ := ringHolds_iff.1 hholds
  rw [unitTracker] at htracker
  rw [exec_dmaRow hr]
  simp [dmaCmd, hfree, hring, htracker, fetchEntry_of_ringHolds hholds, hkind, kindReserved_of_mem_dmaRowTable hr]

theorem moveOwing_of_not_owed (h : (slot s e i).moveOwed = false) : moveOwing s e i = s := by
  simp [moveOwing, h]

@[simp] theorem slot_countDma (s : State) (x : Slot) (n e i : Nat) : slot (countDma s x n) e i = slot s e i := by
  unfold countDma
  split
  · rfl
  · simp

@[simp] theorem countDma_pkg (s : State) (x : Slot) (n : Nat) : (countDma s x n).pkg = s.pkg := by
  unfold countDma
  split <;> rfl

theorem countDma_of_no_job {x : Slot} (h : x.job = 0) (s : State) (n : Nat) : countDma s x n = s := by
  simp [countDma, h]

/-- DMA_COMPLETE works on the oldest descriptor in flight: one whose segments passed their CRC has landed. -/
theorem exec_dmaComplete_landed {r : DmaRun} {rest : List DmaRun} (h : (slot s e i).dma = r :: rest)
    (hgood : r.failed = false) (flips : List (Nat × Byte)) :
    exec (.dmaComplete e i flips) s = .next (dmaLanded s e i r.desc) := by
  change execDmaComplete e i flips s = _
  simp [execDmaComplete, h, hgood]

theorem exec_dmaComplete_rerun {r : DmaRun} {rest : List DmaRun} (h : (slot s e i).dma = r :: rest)
    (hfail : r.failed = true) (hfirst : r.reran = false) {flips : List (Nat × Byte)}
    (hall : (dmaAttempt s e i r.desc flips).2.1 = none) :
    exec (.dmaComplete e i flips) s = .next (modSlot (dmaAttempt s e i r.desc flips).1 e i fun x =>
      { x with dma := { r with reran := true, failed := (dmaAttempt s e i r.desc flips).2.2 } :: rest }) := by
  change execDmaComplete e i flips s = _
  simp [execDmaComplete, h, hfail, hfirst, hall]

theorem exec_dmaComplete_failed {r : DmaRun} {rest : List DmaRun} (h : (slot s e i).dma = r :: rest)
    (hfail : r.failed = true) (hreran : r.reran = true) (flips : List (Nat × Byte)) :
    exec (.dmaComplete e i flips) s = .next (dmaFailed s e i r.desc) := by
  change execDmaComplete e i flips s = _
  simp [execDmaComplete, h, hfail, hreran]

/-- A descriptor without SIGNAL that has landed leaves the ring and is counted. -/
theorem dmaLanded_of_no_signal (hsig : dSignal d = false) (howed : (slot s e i).moveOwed = false) :
    dmaLanded s e i d = countDma (modSlot s e i fun x =>
      { x with dma := x.dma.drop 1, dring := ringNext x.dring }.completes (now s)) (slot s e i) (dBytes d) := by
  simp only [dmaLanded, hsig, Bool.not_false, ↓reduceIte]
  exact moveOwing_of_not_owed (by simp [Slot.completes, howed])

/-- One with SIGNAL, of a context without a job, adds COMPL_ADD to its completion word and leaves the ring. -/
theorem dmaLanded_of_signal {v : Nat} (hsig : dSignal d = true) (howed : (slot s e i).moveOwed = false)
    (hjob : (slot s e i).job = 0) (hword : readWord s e i false (dCompl d) = .ok v) :
    dmaLanded s e i d = modSlot
      (partWrite s (slot s e i) e (dCompl d) (leBytes 8 ((v + fld (wd d 3) 31 0) % 2 ^ 64))) e i
        fun x => { x with dma := x.dma.drop 1, dring := ringNext x.dring }.completes (now s) := by
  have hslot (off : Nat) (bs : List Byte) : slot (partWrite s (slot s e i) e off bs) e i = slot s e i := rfl
  simp only [dmaLanded, hsig, Bool.not_true, Bool.false_eq_true, if_false, hword, countDma_of_no_job hjob]
  exact moveOwing_of_not_owed (by simp [Slot.completes, hslot, howed])

/-- A payload that arrives with no flipped bit arrives as it was. -/
theorem flipped_nil (off : Nat) (bs : List Byte) : flipped [] off bs = bs := by
  simp [flipped, List.map_fst_zip]

theorem pocketWrite_of_no_ecc (h : s.pkg.eccBad = []) (x : Slot) (e off : Nat) (bs : List Byte) :
    pocketWrite s x e off bs = .ok (partWrite s x e off bs) := by
  simp [pocketWrite, eccPartial, eccTouched, h]

end Sys2Proof.Machine

namespace Sys2Proof

open Machine

/-- Settles O13: every row runs its descriptor through `elemCmd`, whose checks come in the order of R126, R121 and
R136. -/
theorem elementRowsRun : Obligations.ElementRowsRun := by
  unfold Obligations.ElementRowsRun
  refine ⟨?runs, ?badField, ?regions, ?wakes⟩
  case runs =>
    intro r e i d s hr hready hop hbad hbar
    rw [exec_elementRow_good hr hready hop hbad, elemRun_of_bar_none hbar]
    refine ⟨fun hhold => ?completes, fun hhold hi => ?refereed⟩
    case completes => exact congrArg _ (if_neg (by omega))
    case refereed => exact congrArg _ (if_pos ⟨hhold, hi⟩)
  case badField =>
    intro r e i d s hr hready h
    rw [exec_elementRow hr, elemCmd_of_ready hready]
    rcases h with ⟨hop, hbad⟩ | hreserved
    · simp [hop, hbad, isEeOp_of_mem_elementRows hr]
    · simp [hreserved]
  case regions =>
    intro r e i d s hr hready hop hbad
    rw [exec_elementRow_good hr hready hop hbad]
    exact ⟨fun h => congrArg _ (elemRun_of_outside h), fun h hecc => congrArg _ (elemRun_of_ecc h hecc)⟩
  case wakes =>
    intro r e i d s hr hfree hawake
    rw [exec_elementRow hr]
    simp [elemCmd, hfree, hawake]

/-- Settles O12: the DMA rows run through `dmaStart`, and DMA_COMPLETE works on the oldest descriptor in flight. -/
theorem dmaMovesAndCompletes : Obligations.DmaMovesAndCompletes := by
  unfold Obligations.DmaMovesAndCompletes
  refine ⟨?moves, ?held, ?lands, ?signals, ?reruns, ?fails, ?bytes⟩
  case moves =>
    intro r e i d flips s hr hready hkind hbad hfirst hwaits hall
    rw [exec_dmaRow_ready hr hready hkind]
    simp [hbad, dmaStart, hfirst, hwaits, hall]
  case held =>
    intro r e i d flips s hr hready hkind
    rw [exec_dmaRow_ready hr hready hkind]
    refine ⟨fun hbad => by simp [hbad], fun hbad hfirst => by simp [hbad, dmaStart, hfirst],
      fun a hbad hfirst hwaits => by simp [hbad, dmaStart, hfirst, hwaits, contextBar]⟩
  case lands =>
    intro e i r rest flips s hdma hgood hsig hjob howed
    refine ⟨_, exec_dmaComplete_landed hdma hgood flips, ?_⟩
    rw [dmaLanded_of_no_signal hsig howed]
    simp [Slot.completes, hdma, countDma, hjob]
  case signals =>
    intro e i v r rest flips s hdma hgood hsig hword hjob howed
    rw [exec_dmaComplete_landed hdma hgood, dmaLanded_of_signal hsig howed hjob hword]
  case reruns =>
    intro e i r rest flips s hdma hfail hfirst hall
    exact exec_dmaComplete_rerun hdma hfail hfirst hall
  case fails =>
    intro e i r rest flips s hdma hfail hreran hjob
    rw [exec_dmaComplete_failed hdma hfail hreran, dmaFailed, if_neg hjob]
  case bytes =>
    intro e i d bs s hkind hpart hdev hrows hread hecc
    have hneg : ¬ dDev d 0 < 0 := by omega
    simp [dmaAttempt, hrows, dmaRows, dmaRow, dmaSource, hpart, hneg, hkind, hread, dmaTarget, flipped_nil,
      pocketWrite_of_no_ecc hecc]

end Sys2Proof
end

section
/-! PROOFS. Accesses of host cores (R28, R31, R32, R36, R160): an access that finds a tracker reaches the page window,
and there it does what the check answers. A store of radio firmware shows where a store sets more than DIRTY. -/

namespace Sys2Proof.Machine

variable {s : State} {k addr n : Nat} {i : Issuer}

/-! ### Where an access goes (R27, R28, R36) -/

theorem exec_hostCoreAccess_of_tracker {a : CoreAccess} (h : coreTracker s k addr (accessLen a) = true) :
    exec (.hostCoreAccess k addr a) s = .next (coreAccess s k addr a) := by
  change execHostCoreAccess k addr a s = _
  simp [execHostCoreAccess, h]

theorem exec_hostCoreAccess_of_no_tracker {a : CoreAccess} (h : coreTracker s k addr (accessLen a) = false) :
    exec (.hostCoreAccess k addr a) s = .next s := by
  change execHostCoreAccess k addr a s = _
  simp [execHostCoreAccess, h]

/-- An access outside the page window needs no tracker. -/
theorem coreTracker_of_outside (h : inWindow addr n = false) : coreTracker s k addr n = true := by
  simp [coreTracker, h]

theorem exec_hostCoreLoad (hi : coreIssuer s k = some i) (hw : inWindow addr n = true)
    (ht : coreTracker s k addr n = true) :
    exec (.hostCoreAccess k addr (.load n)) s = .next (coreMem s k i addr (.load n)) := by
  rw [exec_hostCoreAccess_of_tracker ht]
  simp [coreAccess, accessLen, hi, hw]

theorem exec_hostCoreStore {data : List Byte} (hi : coreIssuer s k = some i) (hw : inWindow addr data.length = true)
    (ht : coreTracker s k addr data.length = true) :
    exec (.hostCoreAccess k addr (.store data)) s = .next (coreMem s k i addr (.store data)) := by
  rw [exec_hostCoreAccess_of_tracker ht]
  simp [coreAccess, accessLen, hi, hw]

theorem exec_hostCoreAdd {v : W64} (hi : coreIssuer s k = some i) (hw : inWindow addr 8 = true)
    (ht : coreTracker s k addr 8 = true) :
    exec (.hostCoreAccess k addr (.atomicAdd v)) s = .next (coreMem s k i addr (.atomicAdd v)) := by
  rw [exec_hostCoreAccess_of_tracker ht]
  simp [coreAccess, accessLen, hi, hw]

/-! ### What the check answers (R31, R32, R160) -/

/-- A load that may not proceed, and does not wait, does what its bar says. -/
theorem coreMem_load_of_bar {b : Bar} (h : devRead s i addr n = .error b) (hb : b ≠ .wait) :
    coreMem s k i addr (.load n) = coreBar s k addr b := by
  simp only [coreMem, h]

theorem coreMem_load_of_wait (h : devRead s i addr n = .error .wait) :
    coreMem s k i addr (.load n) = park s addr n (.coreLoad k addr n) := by
  simp [coreMem, h]

/-! ### A page whose entry the table does not hold (R29, R35) -/

/-- Radio firmware runs on every core, and the frames of RD0 stand: their first page has no entry in the table. -/
def radioFirmwareUp : State :=
  { boot := { phase := .booted, radioFw := true, sleeve0 := true, config := [0, 0xFFFF0000] }
    pkg := { density := [16, 16, 16, 16] } }

/-- A byte stored into that page leaves its entry without VALID and without a frame. -/
theorem ownEntry_store_radioPage : let t := windowWrite radioFirmwareUp (radioPage0 * 65536) [7]
    devWrite radioFirmwareUp { sleeve := 0 } .wr (radioPage0 * 65536) [7] = .ok t ∧
    ownEntry t radioPage0 ≠ ownEntry radioFirmwareUp radioPage0 ∧
    ownEntry t radioPage0 ≠ ownEntry radioFirmwareUp radioPage0 ||| (1 <<< 32) := by
  decide +kernel

end Sys2Proof.Machine

namespace Sys2Proof

open Machine

/-- Settles O28: an access that finds a tracker does what the check of its pages answers. -/
theorem hostCoreAccessesAreChecked : Obligations.HostCoreAccessesAreChecked := by
  unfold Obligations.HostCoreAccessesAreChecked
  refine ⟨?load, ?store, ?add, ?denied, ?stale, ?wait, ?ecc, ?outside, ?tracker⟩
  case load =>
    intro k addr n i bs s hi hw ht hread
    rw [exec_hostCoreLoad hi hw ht, coreMem, hread]
  case store =>
    intro k addr i data s t hi hw ht hwrite
    rw [exec_hostCoreStore hi hw ht, coreMem, hwrite]
  case add =>
    intro k addr v i s hi hw ht hcheck hecc
    rw [exec_hostCoreAdd hi hw ht]
    simp [coreMem, hcheck, hecc]
  case denied =>
    intro k addr n i s hi hw ht hread
    rw [exec_hostCoreLoad hi hw ht, coreMem_load_of_bar hread (by decide), coreBar]
  case stale =>
    intro k addr n i s hi hw ht hread
    rw [exec_hostCoreLoad hi hw ht, coreMem_load_of_bar hread (by decide), coreBar]
  case wait =>
    intro k addr n i s hi hw ht hread
    rw [exec_hostCoreLoad hi hw ht, coreMem_load_of_wait hread]
  case ecc =>
    intro k addr n i s hi hw ht hread
    rw [exec_hostCoreLoad hi hw ht, coreMem_load_of_bar hread (by decide), coreBar]
  case outside =>
    intro k addr n i s hi hw hr hf
    rw [exec_hostCoreAccess_of_tracker (coreTracker_of_outside hw)]
    simp [coreAccess, accessLen, hi, hw, hr, hf]
  case tracker => exact fun k addr a s h => exec_hostCoreAccess_of_no_tracker h

/-- Refutes O29: `markDirty` sets DIRTY in the table's own entry, which for a radio page is 0, so a store of radio
firmware into a page that the table does not hold takes away the page's VALID, LOC and FRAME (R29, R35). -/
theorem not_hostCoreStoreFrame : ¬ Obligations.HostCoreStoreFrame := by
  unfold Obligations.HostCoreStoreFrame
  intro h
  obtain ⟨hwrite, hkept, hdirty⟩ := ownEntry_store_radioPage
  obtain ⟨-, -, -, hentry, -⟩ := h 0 (radioPage0 * 65536) { sleeve := 0 } [7] radioFirmwareUp _ (by decide +kernel)
    (by decide +kernel) (by decide +kernel) hwrite rfl
  exact (hentry radioPage0).elim hkept hdirty

end Sys2Proof
end

section
/-! PROOFS. A page move whose entry comes out as 0 (R34, R35), and the start of a CHAIN descriptor that the feeder notes
(R112, R397): each refutes the statement that leaves it out. -/

namespace Sys2Proof.Machine

/-! ### A page move into bonded frame 0 (R34, R35) -/

/-- A page of RD0 whose entry holds a frame and nothing else, in move to LOC 0 and frame 0. -/
def bareMove : Move := { page := radioPage0, loc := 0, frame := 0, oldLoc := 1, oldFrame := 0 }

def bareMoveState : State :=
  { boot := { sleeve0 := true }
    pkg := { density := [16, 16, 16, 16], owner := [(radioPage0, 1)], moves := [bareMove] } }

/-- The new entry is 0, so the page reads as the radio frame that its number stands for, with LOC 2. -/
theorem ownLoc_finishMove_bareMove :
    ownLoc (ownEntry (finishMove bareMoveState bareMove) radioPage0) = 2 := by decide +kernel

theorem exec_pageMoveDone {m : Move} {s : State} (h : s.pkg.moves.find? (fun x => x.page == m.page) = some m) :
    exec (.pageMoveDone m.page) s = .next (finishMove s m) := by
  change execPageMoveDone m.page s = _
  simp [execPageMoveDone, h]

/-! ### A CHAIN descriptor fetched at raw time 1 (R112, R124, R397) -/

/-- The run of a CHAIN descriptor stands in its slot and goes to its first phase. -/
def chainBegins (s : State) (e i : Nat) (d : List W64) : State :=
  settleRun e i 4 (modSlot s e i fun x => { x with
    chainK := x.chainK + descK d, run := some { desc := d, phases := descPhases d } })

theorem fetchFeeder_of_ready {s : State} {e i : Nat} {d : List W64} (h : FeederReady s e i d) (c : Instr)
    (k : State → State) : fetchFeeder s e i c d k = k s := by
  obtain ⟨hfree, hfence, hrun, hwaiting, hring, hholds⟩ := h
  simp [fetchFeeder, hfree, hfence, hrun, hwaiting, hring, fetchEntry_of_ringHolds hholds]

/-- A CHAIN that is not FIRST and fits its chain begins once the feeder has noted the start of its entry. -/
theorem exec_chain_middle {s : State} {e i : Nat} {d : List W64} (h : FeederReady s e i d) (hkind : descKind d = 1)
    (hlen : d.length = 16) (hbad : descBad d = false) (horder : chainOrderBad (slot s e i) d = false)
    (hfirst : cFirst d = false) : exec (.chain e i d) s = .next (chainBegins (feederStarts s e i) e i d) := by
  change execChain e i d s = _
  simp [execChain, feederRow, fetchFeeder_of_ready h, hkind, kindReserved, hlen, hbad, horder, hfirst, chainBegins]

/-- A CHAIN descriptor of one FP8 tile that is not FIRST. -/
def middleChain : List W64 := [0x1406060C0A001F00, 0, 0, 0, 0, 0x0001000100000000, 0, 0, 0, 0, 0, 0, 0, 0, 0, 0]

/-- A context with an open chain, and the descriptor at the head of its ring, in page 1. -/
def middleChainUp : State :=
  { tim := { raw := 1 }
    pkg := { owner := [(1, ownPack 1 0 0 15 false 1 true 0)], mem := wrBytes [] 0 (bytesOf middleChain) }
    eng := [(0, { slots := [(0, { valid := true, sleeve := 1, size := 29, chainOpen := true,
                                  fring := { entries := 3, addr := 65536, tail := 1 } })] })] }

/-- It stands in the ring and fits the chain. -/
theorem middleChainUp_ready : FeederReady middleChainUp 0 0 middleChain ∧ descKind middleChain = 1 ∧
    descBad middleChain = false ∧ chainOrderBad (slot middleChainUp 0 0) middleChain = false ∧
    cFirst middleChain = false := by
  decide +kernel

/-- The feeder's note of the start is what the run keeps, and without it the slot has none. -/
theorem entryAt_middleChainUp :
    (slot (chainBegins (feederStarts middleChainUp 0 0) 0 0 middleChain) 0 0).entryAt = 1 ∧
    (slot (chainBegins middleChainUp 0 0 middleChain) 0 0).entryAt = 0 := by
  decide +kernel

end Sys2Proof.Machine

namespace Sys2Proof

open Machine

/-- Refutes O8, in its last clause: a move whose entry keeps no bit and whose new place is LOC 0, frame 0 writes the
entry 0, which `ownEntry` reads as the radio frame of the page's number (R35). -/
theorem not_seamAndMoveEventsComplete : ¬ Obligations.SeamAndMoveEventsComplete := by
  unfold Obligations.SeamAndMoveEventsComplete
  rintro ⟨-, -, -, -, -, -, hmove⟩
  obtain ⟨t, hexec, hloc, -⟩ := hmove bareMove bareMoveState rfl rfl (by decide) (by decide)
  rw [exec_pageMoveDone (by decide)] at hexec
  cases hexec
  exact absurd (hloc.symm.trans ownLoc_finishMove_bareMove) (by decide)

/-- Refutes O11, in its first clause: a CHAIN that is fetched after raw time 0 notes the time at which its entry has
started (R397), which the clause leaves as it was. -/
theorem not_feederDescriptorsRun : ¬ Obligations.FeederDescriptorsRun := by
  unfold Obligations.FeederDescriptorsRun
  rintro ⟨hchain, -⟩
  obtain ⟨hready, hkind, hbad, horder, hfirst⟩ := middleChainUp_ready
  have hexec := (exec_chain_middle hready hkind rfl hbad horder hfirst).symm.trans
    (hchain 0 0 middleChain middleChainUp hready hkind hbad horder hfirst)
  have hsame : chainBegins (feederStarts middleChainUp 0 0) 0 0 middleChain =
      chainBegins middleChainUp 0 0 middleChain := by injection hexec
  obtain ⟨hnoted, hnone⟩ := entryAt_middleChainUp
  rw [hsame, hnone] at hnoted
  exact absurd hnoted (by decide)

end Sys2Proof
end

section
/-! PROOFS. Scrubs and lockstep pairs (R158, R159, R160, R161, R401). -/

namespace Sys2Proof.Machine

variable {s : State}

/-! ### Scrub of the frames (R159) -/

theorem exec_scrubFrames_single {o : ScrubObs} (hboot : s.boot.phase = .booted) (hloc : o.loc = 1 ∨ o.loc = 2) :
    exec (.scrubFrames [o]) s = .next (startOwedMoves (scrubFrame s o)) := by
  change execScrubFrames [o] s = _
  simp [execScrubFrames, hboot, hloc]

/-- A finding of corrected words alone, fewer than 16 in the day, only notes their times. -/
theorem scrubFrame_of_corrected {o : ScrubObs} (hcode : ∀ w ∈ o.words, frameEcc o.loc w.2 = .corrected)
    (hold : tget [] s.pkg.frameErrs (frameKey o.loc o.frame) = []) (hfew : o.words.length < 16) :
    scrubFrame s o = { s with pkg := { s.pkg with
      frameErrs := tset [] s.pkg.frameErrs (frameKey o.loc o.frame) (List.replicate o.words.length (now s)) } } := by
  have hcorrected : (o.words.filter fun w => frameEcc o.loc w.2 == .corrected) = o.words :=
    List.filter_eq_self.2 fun w hw => by simp [hcode w hw]
  have hbad : (o.words.filter fun w => frameEcc o.loc w.2 == .uncorrectable) = [] :=
    List.filter_eq_nil_iff.2 fun w hw => by simp [hcode w hw]
  simp [scrubFrame, hcorrected, hbad, hold, Nat.not_le.mpr hfew]

/-! ### Scrub of a pocket (R158, R159, R160) -/

/-- Words with one wrong bit each are corrected, and none is uncorrectable. -/
theorem filter_secDed_of_one {ws : List (Nat × Nat)} (h : ∀ w ∈ ws, w.2 = 1) :
    (ws.filter fun w => secDed w.2 == .corrected) = ws ∧ (ws.filter fun w => secDed w.2 == .uncorrectable) = [] :=
  ⟨List.filter_eq_self.2 fun w hw => by rw [h w hw]; decide,
    List.filter_eq_nil_iff.2 fun w hw => by rw [h w hw]; decide⟩

section Pocket

variable {e : Nat} {ws : List (Nat × Nat)} (he : e < 16) (hboot : s.boot.phase = .booted)
  (hold : tget [] s.pkg.pocketErrs e = [])

include he hboot hold

theorem exec_scrubPocket_few (hone : ∀ w ∈ ws, w.2 = 1) (hfew : ws.length < 64) :
    exec (.scrubPocket e ws) s = .next { s with pkg := { s.pkg with
      pocketErrs := tset [] s.pkg.pocketErrs e (List.replicate ws.length (now s)) } } := by
  obtain ⟨hcorrected, hbad⟩ := filter_secDed_of_one hone
  change execScrubPocket e ws s = _
  simp [execScrubPocket, hcorrected, hbad, hold, hboot, Nat.not_le.mpr he, hfew]

theorem exec_scrubPocket_many (hone : ∀ w ∈ ws, w.2 = 1) (hmany : 64 ≤ ws.length) :
    exec (.scrubPocket e ws) s = .next (strike (raise
      { s with pkg := { s.pkg with pocketErrs := tset [] s.pkg.pocketErrs e [] } }
      { code := 0x005, severity := 1, die := unitDie e, unit := e, d0 := e, d1 := ws.length })
        e 6 0xFFFF 0 0 false) := by
  obtain ⟨hcorrected, hbad⟩ := filter_secDed_of_one hone
  change execScrubPocket e ws s = _
  simp [execScrubPocket, hcorrected, hbad, hold, hboot, Nat.not_le.mpr he, Nat.not_lt.mpr hmany]

/-- A word with two wrong bits stays uncorrectable, and its error is raised. -/
theorem exec_scrubPocket_detected {w : Nat} (hw : w < 2 ^ 23) :
    exec (.scrubPocket e [(w, 2)]) s = .next (
      let a := raise { s with pkg := { s.pkg with
          eccBad := s.pkg.eccBad ++ [pocketKey e (8 * w)].filter fun k => !s.pkg.eccBad.contains k } }
        { code := 0x006, severity := 2, die := unitDie e, unit := e
          d0 := pocketKey e (8 * w) - pocketKey 0 0 + 0x020000000000, d1 := (Config.readerKind 3).toNat }
      { a with pkg := { a.pkg with pocketErrs := tset [] s.pkg.pocketErrs e [] } }) := by
  have hcorrected : ([(w, 2)].filter fun w => secDed w.2 == .corrected) = [] := rfl
  have hbad : (([(w, 2)].filter fun w => secDed w.2 == .uncorrectable).map
      fun w => pocketKey e (w.1 % 2 ^ 23 * 8)) = [pocketKey e (8 * w)] := by
    simp only [List.filter_cons_of_pos (p := fun w : Nat × Nat => secDed w.2 == .uncorrectable) (a := (w, 2)) rfl,
      List.filter_nil, List.map_cons, List.map_nil, Nat.mod_eq_of_lt hw, Nat.mul_comm w 8]
  change execScrubPocket e [(w, 2)] s = _
  simp only [execScrubPocket, hcorrected, hbad]
  rw [List.headD_cons]
  simp [hold, hboot, Nat.not_le.mpr he]

end Pocket

end Sys2Proof.Machine

namespace Sys2Proof

open Machine

/-- Settles O17: the scrubs count what the code corrects (R158, R159), and a lockstep mismatch has the course of
R161. -/
theorem scrubsAndLockstep : Obligations.ScrubsAndLockstep := by
  unfold Obligations.ScrubsAndLockstep
  refine ⟨?frames, ?corrected, ?pocket, ?detected, ?lockstep⟩
  case frames => exact fun o s hboot hloc => exec_scrubFrames_single hboot hloc
  case corrected =>
    intro o s hcode hold hfew
    rw [scrubFrame_of_corrected hcode hold hfew]
    exact ⟨tget_tset_same .., rfl, rfl, rfl⟩
  case pocket =>
    intro e ws s he hboot hold hone
    exact ⟨fun hfew => ⟨_, exec_scrubPocket_few he hboot hold hone hfew, tget_tset_same .., rfl, rfl, rfl⟩,
      fun hmany => exec_scrubPocket_many he hboot hold hone hmany⟩
  case detected =>
    intro e w s he hboot hold hw
    refine ⟨_, exec_scrubPocket_detected he hboot hold hw, ?_, by simp, by simp⟩
    by_cases hmem : pocketKey e (8 * w) ∈ s.pkg.eccBad <;> simp [hmem]
  case lockstep =>
    intro p pc s hp hpair hboot
    change execLockstepMismatch p pc s = _
    simp [execLockstepMismatch, Nat.not_lt.mpr hp, hpair, hboot]

end Sys2Proof
end

section
/-! PROOFS. The accelerators of the radio dies and the local DMA (R36, R241, R248, R283–R287): what a unit does with the
descriptor that it serves, and the completion word that it leaves. -/

namespace Sys2Proof.Machine

variable {s : State}

/-! ### Bytes written and read back (R8, R160) -/

theorem length_leBytes (n v : Nat) : (leBytes n v).length = n := by
  induction n generalizing v with
  | zero => rfl
  | succ n ih => simp [leBytes, ih]

theorem leNat_leBytes (n v : Nat) : leNat (leBytes n v) = v % 256 ^ n := by
  induction n generalizing v with
  | zero => simp [leBytes, leNat, Nat.mod_one]
  | succ n ih =>
    rw [leBytes, leNat, ih, BitVec.toNat_ofNat, Nat.pow_succ' (m := 256), Nat.mod_mul]

theorem leNat_lt (bs : List Byte) : leNat bs < 256 ^ bs.length := by
  induction bs with
  | nil => simp [leNat]
  | cons b r ih =>
    have hb : b.toNat < 256 := b.isLt
    rw [leNat, List.length_cons, Nat.pow_succ']
    omega

/-- Where no word is uncorrectable every byte is written. -/
theorem wrSkip_nil (bs : List Byte) : ∀ (m : Memory) (a : Nat), wrSkip [] m a bs = wrBytes m a bs := by
  induction bs with
  | nil => intros; rfl
  | cons b r ih => intro m a; simp [wrSkip, wrBytes, ih]

theorem rdBytes_wrBytes (m : Memory) (a : Nat) (bs : List Byte) : rdBytes (wrBytes m a bs) a bs.length = bs := by
  refine List.ext_getElem (by simp [rdBytes]) fun i hi hbs => ?_
  simp [rdBytes, rdByte_wrBytes bs m a i hbs]

theorem physRead_physWrite_same (h : s.pkg.eccBad = []) (a : Nat) (bs : List Byte) :
    physRead (physWrite s a bs) a bs.length = bs := by
  simp [physRead, physWrite, eccPartial, eccTouched, h, wrSkip_nil, rdBytes_wrBytes]

/-! ### What the end of a descriptor leaves of the package's state (R46, R57, R286, R397) -/

@[simp] theorem noteActive_pkg (s : State) (a : Active) : (noteActive s a).pkg = s.pkg := rfl
@[simp] theorem lateBeat_pkg (s : State) (n : Nat) : (lateBeat s n).pkg = s.pkg := rfl
@[simp] theorem lateTask_pkg (s : State) (d id : Nat) : (lateTask s d id).pkg = s.pkg := rfl
@[simp] theorem domainBoundary_pkg (s : State) (n : Nat) : (domainBoundary s n).pkg = s.pkg := rfl

@[simp] theorem wakeEngine_pkg (s : State) (e : Nat) : (wakeEngine s e).pkg = s.pkg :=
  List.foldlRecOn (motive := fun t : State => t.pkg = s.pkg) (engineDomains e) _ rfl fun _ h _ _ => h

@[simp] theorem takeThrottle_pkg (s : State) (n : Nat) : (takeThrottle s n).pkg = s.pkg := by
  unfold takeThrottle
  cases domainClass n <;> dsimp only
  case a =>
    cases domainEngine n with
    | none => rfl
    | some e => dsimp only; split <;> simp
  case h => rfl

@[simp] theorem taskBoundary_pkg (s : State) (n : Nat) : (taskBoundary s n).pkg = s.pkg := by
  unfold taskBoundary
  split <;> simp

@[simp] theorem unitTimer_pkg (s : State) (die q : Nat) : (unitTimer s die q).pkg = s.pkg := by
  unfold unitTimer
  split <;> rfl

@[simp] theorem unitLate_pkg (s : State) (k q : Nat) (d : List W64) : (unitLate s k q d).pkg = s.pkg := by
  unfold unitLate
  split <;> simp

@[simp] theorem retireDesc_pkg (s : State) (k q : Nat) (d : List W64) : (retireDesc s k q d).pkg = s.pkg := by
  unfold retireDesc
  cases placeOf s k q d true <;> simp

@[simp] theorem completeDesc_pkg (s : State) (k q : Nat) (d : List W64) (ok : Bool) :
    (completeDesc s k q d ok).pkg = (completionWord s k d ok).pkg := by
  unfold completeDesc
  cases queueDomain (coreDie k) q <;> simp

/-! ### The completion word (R287) -/

/-- The value of a completion word after its descriptor, from its value before. -/
def nextCompletion (ok : Bool) (w : Nat) : Nat :=
  if ok then (w + 1) % 2 ^ 64 else if w < 2 ^ 63 then w + 2 ^ 63 else w

theorem nextCompletion_lt {w : Nat} (ok : Bool) (h : w < 2 ^ 64) : nextCompletion ok w < 2 ^ 64 := by
  unfold nextCompletion
  split_ifs <;> omega

/-- The word depends on the package's state alone. -/
theorem completionWord_pkg_congr {t : State} (h : t.pkg = s.pkg) (k : Nat) (d : List W64) (ok : Bool) :
    (completionWord t k d ok).pkg = (completionWord s k d ok).pkg := by
  cases s
  cases t
  cases h
  rfl

theorem endDesc_pkg (s : State) (k q : Nat) (d : List W64) (late ok : Bool) :
    (endDesc s k q d late ok).pkg = (completionWord s k d ok).pkg := by
  unfold endDesc
  rw [completeDesc_pkg]
  apply completionWord_pkg_congr
  cases queueDomain (coreDie k) q <;> cases late <;> simp

/-- The word reads as the next value of what it held. -/
theorem leNat_completionWord (hecc : s.pkg.eccBad = []) (k : Nat) (d : List W64) (ok : Bool) :
    leNat (physRead (completionWord s k d ok) (localKey k (qComplOff d)) 8) =
      nextCompletion ok (leNat (physRead s (localKey k (qComplOff d)) 8)) := by
  have hw : leNat (physRead s (localKey k (qComplOff d)) 8) < 2 ^ 64 := by
    simpa [physRead, rdBytes] using leNat_lt (physRead s (localKey k (qComplOff d)) 8)
  have hread := physRead_physWrite_same hecc (localKey k (qComplOff d))
    (leBytes 8 (nextCompletion ok (leNat (physRead s (localKey k (qComplOff d)) 8))))
  rw [length_leBytes] at hread
  rw [show completionWord s k d ok = physWrite s (localKey k (qComplOff d))
    (leBytes 8 (nextCompletion ok (leNat (physRead s (localKey k (qComplOff d)) 8)))) from rfl, hread, leNat_leBytes]
  exact Nat.mod_eq_of_lt (nextCompletion_lt ok hw)

/-! ### What a unit does with its descriptor (R31, R36, R286, R287) -/

section Serve

variable {c : Instr} {k q op : Nat} {o : UnitObs} {d : List W64} {bs : List Byte} {only : Nat → Bool}
  {out : List W64 → List Byte → List Byte} {note : List W64 → List Byte → State → State}

/-- A good payload whose output is written: the unit notes it, the descriptor ends, and what follows follows. -/
theorem serveOn_writes {after : List W64 → List Byte → State → State} {t : State}
    (hserved : servedBy s k q op only = some d)
    (htracker : unitTracker s (32 + k) 0 = true) (hread : unitRead s (qSrc d) (qLen d) = .ok bs) (hcrc : o.crcOk = true)
    (hout : out d bs ≠ []) (hwrite : unitWrite s (qDst d) (out d bs) = .ok t) :
    serveOn only c k q op o s out note after = after d bs (endDesc (note d bs t) k q d o.late true) := by
  simp [serveOn, hserved, htracker, hread, hcrc, hout, hwrite]

theorem serveDesc_of_none (h : servedDesc s k q op = none) : serveDesc c k q op o s out note = s := by
  rw [servedDesc] at h
  simp [serveDesc, serveOn, h]

theorem serveDesc_of_no_tracker (h : unitTracker s (32 + k) 0 = false) : serveDesc c k q op o s out note = s := by
  simp only [serveDesc, serveOn, h]
  split <;> rfl

theorem serveDesc_of_bad_crc (h : UnitServes s k q op d bs) (hcrc : o.crcOk = false) :
    serveDesc c k q op o s out note = endDesc s k q d o.late false := by
  obtain ⟨hserved, htracker, hread⟩ := h
  rw [servedDesc] at hserved
  simp [serveDesc, serveOn, hserved, htracker, hread, hcrc]

/-- The output of a good payload is delivered. -/
theorem serveDesc_delivers (h : UnitServes s k q op d bs) (hcrc : o.crcOk = true) :
    serveDesc c k q op o s out note = delivered c s k q d o.late (note d bs) (out d bs) := by
  obtain ⟨hserved, htracker, hread⟩ := h
  rw [servedDesc] at hserved
  simp only [serveDesc, serveOn, delivered, hserved, htracker, hread, hcrc, Bool.not_true,
    Bool.false_eq_true, ↓reduceIte]
  cases unitWrite s (qDst d) (out d bs) with
  | ok t => rfl
  | error b => cases b <;> rfl

end Serve

theorem exec_unitRow {r : Nat × Nat × (List W64 → List Byte → List Byte) × (Nat → UnitObs → Instr)} (hr : r ∈ unitRows)
    (k : Nat) (o : UnitObs) (s : State) :
    exec (r.2.2.2 k o) s = .next (serveDesc (r.2.2.2 k o) k r.1 r.2.1 o s r.2.2.1) := by
  revert r
  simp only [unitRows, List.forall_mem_cons, List.not_mem_nil, IsEmpty.forall_iff, implies_true, and_true]
  and_intros <;> rfl

/-- A decoder runs at least one iteration, at most MAX_ITER where that is given, and at most 8 beyond its pool
(R248). -/
theorem iterations_bounds (pool : Nat) (d : List W64) (bs : List Byte) :
    1 ≤ iterations pool d bs ∧ iterations pool d bs ≤ 8 + pool ∧
      (1 ≤ fld (wd d 3) 21 17 → iterations pool d bs ≤ fld (wd d 3) 21 17) := by
  change 1 ≤ min (max 1 (Config.decodeIterations (bytesOf d) bs)) (max 1 (min (fld (wd d 3) 21 17) (8 + pool))) ∧
    min (max 1 (Config.decodeIterations (bytesOf d) bs)) (max 1 (min (fld (wd d 3) 21 17) (8 + pool))) ≤ 8 + pool ∧
    (_ → min (max 1 (Config.decodeIterations (bytesOf d) bs)) (max 1 (min (fld (wd d 3) 21 17) (8 + pool))) ≤ _)
  omega

end Sys2Proof.Machine

namespace Sys2Proof

open Machine

/-- Settles O37: every unit serves its list through `serveOn`, and the completion word is the last that `endDesc`
changes in memory. -/
theorem acceleratorsServe : Obligations.AcceleratorsServe := by
  unfold Obligations.AcceleratorsServe
  refine ⟨?rows, ?idle, ?noTracker, ?equaliser, ?sounding, ?weights, ?decoder, iterations_bounds, ?encoder, ?symbol,
    ?word⟩
  case rows =>
    intro r hr k o d bs s h
    rw [exec_unitRow hr]
    cases hcrc : o.crcOk
    · exact congrArg _ (serveDesc_of_bad_crc h hcrc)
    · exact congrArg _ (serveDesc_delivers h hcrc)
  case idle =>
    intro r hr k o s h
    rw [exec_unitRow hr, serveDesc_of_none h]
  case noTracker =>
    intro r hr k o s h
    rw [exec_unitRow hr, serveDesc_of_no_tracker h]
  case equaliser => exact fun k o d bs s h hcrc => congrArg Host.Outcome.next (serveDesc_delivers h hcrc)
  case sounding => exact fun k o d bs s h hcrc => congrArg Host.Outcome.next (serveDesc_delivers h hcrc)
  case weights => exact fun k o d bs s h hcrc => congrArg Host.Outcome.next (serveDesc_delivers h hcrc)
  case decoder =>
    intro k n e late d bs s t hn he hserved htracker hread pool i hwrite
    change execLdpcDecode k n e { late := late } s = _
    rw [execLdpcDecode, if_neg (by simp [hn, he])]
    exact congrArg Host.Outcome.next (serveOn_writes hserved htracker hread rfl (by simp) hwrite)
  case encoder =>
    intro k n late d bs s hn h
    change execLdpcEncode k n { late := late } s = _
    rw [execLdpcEncode, if_neg (Nat.not_lt.mpr hn), serveDesc_delivers h rfl]
    rfl
  case symbol =>
    intro k late d bs s h
    exact congrArg Host.Outcome.next (serveDesc_delivers h rfl)
  case word =>
    intro k q d late ok s hoff hecc w
    have hmem : physRead (endDesc s k q d late ok) (localKey k (qComplOff d)) 8 =
        physRead (completionWord s k d ok) (localKey k (qComplOff d)) 8 := by
      rw [physRead, physRead, endDesc_pkg]
    rw [hmem]
    exact leNat_completionWord hecc k d ok

end Sys2Proof
end

section
/-! PROOFS. The machine right after reset, and what a step does while no command waits (R316, R421). -/

namespace Sys2Proof.Machine

variable {s : State}

theorem step_of_empty_queue (h : s.pending = []) : step s = .next (idle s) := by
  simp [step, h]

theorem idle_of_held (h : s.boot.phase = .held) : idle s = s := by
  simp [idle, h]

/-- While the dies are released the raw counter advances by one tick. -/
theorem idle_of_up (h : Up s) : idle s = { s with tim := { s.tim with raw := s.tim.raw + 1 } } := by
  unfold idle
  split
  · next hheld => exact absurd hheld h
  · rfl

end Sys2Proof.Machine

namespace Sys2Proof

open Machine

/-- Settles O56: the reset state's fields by evaluation, the idle step by its two cases. -/
theorem resetLeavesTheMachineEmpty : Obligations.ResetLeavesTheMachineEmpty := by
  unfold Obligations.ResetLeavesTheMachineEmpty
  refine ⟨?fields, rfl, ?bounds, ?held, ?up⟩
  case fields => and_intros <;> rfl
  case bounds => exact ⟨fun _ => Nat.zero_le _, Nat.zero_le _, Nat.zero_le _⟩
  case held => exact fun s hq hheld => by rw [step_of_empty_queue hq, idle_of_held hheld]
  case up => exact fun s hq hup => by rw [step_of_empty_queue hq, idle_of_up hup]

end Sys2Proof
end

section
/-! PROOFS. The power commands (R70, R372, R465): a served command whose arguments pass its checks. -/

namespace Sys2Proof

open Machine

/-- Settles O7: the checks of each command pass, so it is answered with its effect. -/
theorem powerCommandsComplete : Obligations.PowerCommandsComplete := by
  unfold Obligations.PowerCommandsComplete
  refine ⟨?cap, ?guard, ?thermal, ?read⟩
  case cap =>
    intro c s h hlow hhigh hroom
    refine congrArg Host.Outcome.next (serve_ok h (checked_pass ?_))
    simp [Nat.not_lt.mpr hlow, Nat.not_lt.mpr hhigh, Nat.not_lt.mpr hroom]
  case guard =>
    intro c s h hclass hlow hhigh
    refine congrArg Host.Outcome.next (serve_ok h (checked_pass ?_))
    simp [Nat.not_lt.mpr hclass, Nat.not_lt.mpr hlow, Nat.not_lt.mpr hhigh]
  case thermal =>
    intro c s h htlow hthigh hulow huhigh hgap
    refine congrArg Host.Outcome.next (serve_ok h (checked_pass ?_))
    simp [Nat.not_lt.mpr htlow, Nat.not_lt.mpr hthigh, Nat.not_lt.mpr hulow, Nat.not_lt.mpr huhigh,
      Nat.not_lt.mpr hgap]
  case read =>
    intro c s h hdomain
    refine congrArg Host.Outcome.next (serve_ok h ?_)
    have hpass : firstFail [(decide (argN c 0 > 95), Status.badField)] = none := by simp [Nat.not_lt.mpr hdomain]
    simp only [checked_pass hpass]

end Sys2Proof
end

section
/-! PROOFS. Device resets and the state of the balls (R67, R68, R401, R407, R421, R452–R457, R464): a reset keeps the NVM
but for its end cause, and holds the device while a pin of R421 stands against its release. -/

namespace Sys2Proof.Machine

variable {s : State}

/-! ### The device reset (R401, R407) -/

@[simp] theorem deviceReset_jobs (s : State) (c : Option Nat) : (deviceReset s c).jobs = [] := rfl
@[simp] theorem deviceReset_slv (s : State) (c : Option Nat) : (deviceReset s c).slv = [] := rfl
@[simp] theorem deviceReset_hlt (s : State) (c : Option Nat) : (deviceReset s c).hlt = State.reset.hlt := rfl
@[simp] theorem deviceReset_thermtrip (s : State) (c : Option Nat) :
    (deviceReset s c).pins.thermtrip = s.pins.thermtrip := rfl
@[simp] theorem deviceReset_cardResetN (s : State) (c : Option Nat) :
    (deviceReset s c).pins.cardResetN = s.pins.cardResetN := rfl
@[simp] theorem deviceReset_refclk (s : State) (c : Option Nat) : (deviceReset s c).pins.refclk = s.pins.refclk := rfl
@[simp] theorem deviceReset_out (s : State) (c : Option Nat) :
    (deviceReset s c).out = if s.mgt.cxlUp then .cxlDown :: s.out else s.out := rfl
@[simp] theorem deviceReset_nvm_none (s : State) : (deviceReset s none).nvm = s.nvm := rfl
@[simp] theorem domain_deviceReset (s : State) (c : Option Nat) (n : Nat) : domain (deviceReset s c) n = {} := rfl

@[simp] theorem deviceReset_otpFloor (s : State) (c : Option Nat) :
    (deviceReset s c).nvm.otpFloor = s.nvm.otpFloor := by
  cases c with
  | none => rfl
  | some c => cases h : s.pwr.inhibit <;> simp [deviceReset, h]

/-- The end cause stands in the health record unless NVM writes are inhibited. -/
theorem deviceReset_cause (h : s.pwr.inhibit = false) (c : Nat) :
    (deviceReset s (some c)).nvm.health.cause = some c := by
  simp [deviceReset, h]

/-- While a condition of R421 fails the reset leaves the device held. -/
theorem deviceReset_phase_of_held (h : releaseOk s = false) (c : Option Nat) :
    (deviceReset s c).boot.phase = .held := by
  simp [deviceReset, h]

/-! ### The rows that reset a device that runs -/

theorem exec_powerUp (hheld : s.boot.phase = .held) (htrip : s.pins.thermtrip = false) :
    exec .powerUp s = .next { s with
      pins := { s.pins with railsOk := true, refclk := true, cardResetN := true, jtagBalls := false }
      boot := { s.boot with phase := .released }
      tim := { s.tim with raw := 0 } } := by
  change execPowerUp s = _
  simp [execPowerUp, hheld, htrip]

theorem exec_cardReset {n : Nat} (hn : 156 ≤ n) (hup : Up s) :
    exec (.cardReset n) s = .next (deviceReset { s with pins := { s.pins with cardResetN := false } } (some 2)) := by
  change execCardReset n s = _
  simp [execCardReset, Nat.not_lt.mpr hn, hup]

theorem exec_refclkLost {ns ppm : Nat} (hlost : 100 ≤ ns ∨ 1000 < ppm) (hup : Up s) :
    exec (.refclkLost ns ppm) s =
      .next (deviceReset { s with pins := { s.pins with refclk := false } } (some 6)) := by
  have hstays : ¬(ns < 100 ∧ ppm ≤ 1000) := by omega
  change execRefclkLost ns ppm s = _
  simp [execRefclkLost, hstays, hup]

theorem exec_railFault (r : Rail) (hup : Up s) :
    exec (.railFault r) s = .next (deviceReset { s with pins := { s.pins with railsOk := false } } none) := by
  change execRailFault r s = _
  simp [execRailFault, hup]

theorem exec_brownOut (hup : Up s) :
    exec .brownOut s = .next (deviceReset { s with pins := { s.pins with railsOk := false } } none) := by
  change execBrownOut s = _
  simp [execBrownOut, hup]

theorem exec_thermalTrip {tj : Nat} (hhot : 110 ≤ tj) (hup : Up s) :
    exec (.thermalTrip tj) s =
      .next (emit (deviceReset { s with pins := { s.pins with thermtrip := true } } none)
        (.ball "THERMTRIP_N" false)) := by
  change execThermalTrip tj s = _
  simp [execThermalTrip, Nat.not_lt.mpr hhot, hup]

theorem exec_thermtripRelease (h : s.pins.thermtrip = true) :
    exec .thermtripRelease s = .next (emit { s with pins := { s.pins with thermtrip := false, railsOk := false } }
      (.ball "THERMTRIP_N" true)) := by
  change execThermtripRelease s = _
  simp [execThermtripRelease, h]

/-! ### The balls (R464) -/

theorem ballState_of_tripped (h : s.pins.thermtrip = true) : ballState s = ballTripped :=
  funext fun g => by simp [ballState, h]

theorem ballState_of_held (htrip : s.pins.thermtrip = false) (hrails : s.pins.railsOk = true)
    (hheld : s.boot.phase = .held) : ballState s = ballInReset :=
  funext fun g => by simp [ballState, htrip, hrails, hheld]

end Sys2Proof.Machine

namespace Sys2Proof

open Machine

/-- Settles O2: every reset row sets its pin and resets the device, which that pin then holds. -/
theorem resetEventsComplete : Obligations.ResetEventsComplete := by
  unfold Obligations.ResetEventsComplete
  refine ⟨?powerUp, ?cardReset, ?refclk, ?rail, ?brownOut, ?trip, ?release, ?tripped, ?held⟩
  case powerUp =>
    intro s hheld htrip
    exact ⟨_, exec_powerUp hheld htrip, rfl, rfl, rfl, rfl, rfl, rfl⟩
  case cardReset =>
    intro n s hn hup
    exact ⟨_, exec_cardReset hn hup, deviceReset_phase_of_held (by simp [releaseOk]) _, rfl, rfl, rfl, by simp,
      fun h => deviceReset_cause h 2⟩
  case refclk =>
    intro ns ppm s hlost hup
    exact ⟨_, exec_refclkLost hlost hup, deviceReset_phase_of_held (by simp [releaseOk]) _, rfl, rfl, rfl, by simp,
      fun h => deviceReset_cause h 6⟩
  case rail =>
    intro r s hup
    exact ⟨_, exec_railFault r hup, deviceReset_phase_of_held (by simp [releaseOk]) _, rfl, rfl, rfl⟩
  case brownOut =>
    intro s hup
    exact ⟨_, exec_brownOut hup, deviceReset_phase_of_held (by simp [releaseOk]) _, fun _ => rfl, rfl, rfl, rfl⟩
  case trip =>
    intro tj s hhot hup
    exact ⟨_, exec_thermalTrip hhot hup, deviceReset_phase_of_held (by simp [releaseOk]) none, rfl, fun _ => rfl, rfl, rfl⟩
  case release => exact fun s h => ⟨_, exec_thermtripRelease h, rfl, rfl, rfl, rfl⟩
  case tripped =>
    intro s h
    rw [ballState_of_tripped h]
    funext g
    cases g <;> rfl
  case held =>
    intro s htrip hrails hheld
    rw [ballState_of_held htrip hrails hheld]
    exact ⟨rfl, rfl, rfl, rfl, rfl⟩

end Sys2Proof
end

section
/-! PROOFS. Throttling (R46, R65, R66, R68): what the throttle levels of the dies may change, once for every row that
enters or leaves one; then the supply sag (R68, R408). -/

namespace Sys2Proof.Machine

variable {s t u : State}

/-! ### What throttling may change -/

/-- t is s but for the engines, the domains and dies of the power manager, and the error queues. -/
def ThrottleFrame (s t : State) : Prop :=
  t = { s with
    eng := t.eng
    pwr := { s.pwr with domains := t.pwr.domains, dies := t.pwr.dies }
    hlt := { s.hlt with queues := t.hlt.queues, logLost := t.hlt.logLost } }

namespace ThrottleFrame

theorem refl (s : State) : ThrottleFrame s s := rfl

theorem trans (h : ThrottleFrame s t) (k : ThrottleFrame t u) : ThrottleFrame s u := by
  unfold ThrottleFrame at *
  rw [k, h]

theorem foldl {β : Type} {f : State → β → State} (hf : ∀ s b, ThrottleFrame s (f s b)) (l : List β) (s : State) :
    ThrottleFrame s (l.foldl f s) :=
  List.foldlRecOn (motive := ThrottleFrame s) l f (refl s) fun _ h b _ => h.trans (hf _ b)

section Fields

variable (h : ThrottleFrame s t)

include h

theorem jobs : t.jobs = s.jobs := by rw [h]
theorem slv : t.slv = s.slv := by rw [h]
theorem pkg : t.pkg = s.pkg := by rw [h]
theorem tim : t.tim = s.tim := by rw [h]
theorem hr : t.hlt.hr = s.hlt.hr := by rw [h]
theorem sag : t.pwr.sag = s.pwr.sag := by rw [h]
theorem pwr : t.pwr = { s.pwr with domains := t.pwr.domains, dies := t.pwr.dies } := by rw [h]

end Fields

end ThrottleFrame

theorem throttleFrame_setDomain (s : State) (n : Nat) (v : Domain) : ThrottleFrame s (setDomain s n v) := rfl
theorem throttleFrame_modDomain (s : State) (n : Nat) (f : Domain → Domain) : ThrottleFrame s (modDomain s n f) := rfl
theorem throttleFrame_setDiePwr (s : State) (d : Nat) (v : DiePwr) : ThrottleFrame s (setDiePwr s d v) := rfl
theorem throttleFrame_modEngine (s : State) (e : Nat) (f : Engine → Engine) : ThrottleFrame s (modEngine s e f) := rfl
theorem throttleFrame_modSlot (s : State) (e i : Nat) (f : Slot → Slot) : ThrottleFrame s (modSlot s e i f) := rfl

theorem throttleFrame_raise (s : State) (e : ErrEvent) : ThrottleFrame s (raise s e) := by
  unfold raise
  dsimp only
  split_ifs <;> rfl

theorem throttleFrame_wakeEngine (s : State) (e : Nat) : ThrottleFrame s (wakeEngine s e) :=
  .foldl (fun _ _ => throttleFrame_modDomain ..) _ s

theorem throttleFrame_takeThrottle (s : State) (n : Nat) : ThrottleFrame s (takeThrottle s n) := by
  unfold takeThrottle
  cases domainClass n <;> dsimp only
  case a =>
    cases domainEngine n with
    | none => exact .refl s
    | some e =>
      dsimp only
      split
      · exact ((throttleFrame_modDomain ..).trans (throttleFrame_modEngine ..)).trans (throttleFrame_wakeEngine ..)
      · exact (throttleFrame_modDomain ..).trans (throttleFrame_modEngine ..)
  case h => exact throttleFrame_modDomain ..
  all_goals exact .refl s

/-- An index asked for sets the domain's index and the one that waits, or nothing (R46, R57). -/
theorem setIndex_cases (s : State) (n i : Nat) : setIndex s n i = s ∨
    ∃ v w, setIndex s n i = setDomain s n { domain s n with vindex := v, vnext := w } := by
  unfold setIndex
  generalize (if heldAtCeiling s n then ceilingIndex (domainClass n) else clampIndex n i) = j
  dsimp only
  split
  · exact .inr ⟨_, _, rfl⟩
  · split
    · exact .inl rfl
    · split
      · exact .inr ⟨_, _, rfl⟩
      · exact .inr ⟨(domain s n).vindex, _, rfl⟩

theorem throttleFrame_setIndex (s : State) (n i : Nat) : ThrottleFrame s (setIndex s n i) := by
  rcases setIndex_cases s n i with h | ⟨v, w, h⟩ <;> rw [h]
  · exact .refl s
  · exact throttleFrame_setDomain ..

theorem throttleFrame_setLevel (s : State) (d level : Nat) : ThrottleFrame s (setLevel s d level) := by
  have hdomains := (throttleFrame_setDiePwr s d { diePwr s d with
      level := level, held1 := level != 0 && ((diePwr s d).held1 || level > 1 || tableCond s d 1) }).trans
    (ThrottleFrame.foldl (f := fun s i =>
      if atBoundary s (dieDomain0 d + i) then takeThrottle s (dieDomain0 d + i) else s)
      (fun s i => by split; exacts [throttleFrame_takeThrottle .., .refl s]) (List.range (dieDomains d)) _)
  unfold setLevel
  dsimp only
  split
  · exact hdomains.trans (throttleFrame_raise ..)
  · exact hdomains

theorem throttleFrame_enterThrottle (s : State) (d : Nat) : ThrottleFrame s (enterThrottle s d) := by
  unfold enterThrottle
  split
  · exact throttleFrame_setLevel ..
  · split
    · exact throttleFrame_setDiePwr ..
    · exact .refl s

theorem throttleFrame_enterThrottles (s : State) : ThrottleFrame s (enterThrottles s) :=
  .foldl throttleFrame_enterThrottle _ s

/-! ### Levels (R65) -/

@[simp] theorem diePwr_raise (s : State) (e : ErrEvent) (x : Nat) : diePwr (raise s e) x = diePwr s x := by
  simp [diePwr]

@[simp] theorem diePwr_modEngine (s : State) (e : Nat) (f : Engine → Engine) (x : Nat) :
    diePwr (modEngine s e f) x = diePwr s x := rfl

@[simp] theorem diePwr_wakeEngine (s : State) (e x : Nat) : diePwr (wakeEngine s e) x = diePwr s x :=
  List.foldlRecOn (motive := fun t : State => diePwr t x = diePwr s x) (engineDomains e) _ rfl fun _ h _ _ => h

@[simp] theorem diePwr_takeThrottle (s : State) (n x : Nat) : diePwr (takeThrottle s n) x = diePwr s x := by
  unfold takeThrottle
  cases domainClass n <;> dsimp only
  case a =>
    cases domainEngine n with
    | none => rfl
    | some e => dsimp only; split <;> simp
  case h => simp

/-- The domains that take a level leave the dies as they are. -/
theorem diePwr_setLevel (s : State) (d level x : Nat) : diePwr (setLevel s d level) x =
    if x = d then { diePwr s d with
      level := level, held1 := level != 0 && ((diePwr s d).held1 || level > 1 || tableCond s d 1) }
    else diePwr s x := by
  have hfold (l : List Nat) (a : State) : diePwr (l.foldl (fun s i =>
      if atBoundary s (dieDomain0 d + i) then takeThrottle s (dieDomain0 d + i) else s) a) x = diePwr a x :=
    List.foldlRecOn (motive := fun t : State => diePwr t x = diePwr a x) l _ rfl fun t h i _ => by
      split <;> simp [h]
  unfold setLevel
  dsimp only
  split <;> simp [hfold]

/-- A die goes up to its entry level, and no other die changes its level. -/
theorem level_enterThrottle (s : State) (d x : Nat) : (diePwr (enterThrottle s d) x).level =
    if x = d then max (diePwr s d).level (entryLevel s d) else (diePwr s x).level := by
  unfold enterThrottle
  by_cases hx : x = d
  · subst hx
    split
    · next h => simp [diePwr_setLevel, Nat.max_eq_right (Nat.le_of_lt h)]
    · next h =>
      have hmax : max (diePwr s x).level (entryLevel s x) = (diePwr s x).level := Nat.max_eq_left (Nat.not_lt.mp h)
      split <;> simp [hmax]
  · split
    · simp [diePwr_setLevel, hx]
    · split <;> simp [hx]

theorem level_le_level_enterThrottle (s : State) (d x : Nat) :
    (diePwr s x).level ≤ (diePwr (enterThrottle s d) x).level := by
  rw [level_enterThrottle]
  split
  · next h => exact h ▸ Nat.le_max_left ..
  · exact le_rfl

/-- The supply sag asks every die for level 1 (R68). -/
theorem one_le_entryLevel_of_sag (h : s.pwr.sag = true) (d : Nat) : 1 ≤ entryLevel s d := by
  have hcond : entryCond s d 1 = true := by simp [entryCond, h]
  unfold entryLevel
  split_ifs <;> omega

/-- Under the sag every die that is looked at comes to level 1 or higher. -/
theorem one_le_level_foldl_enterThrottle (l : List Nat) {s : State} (h : s.pwr.sag = true) :
    ∀ d ∈ l, 1 ≤ (diePwr (l.foldl enterThrottle s) d).level := by
  have hmono (l : List Nat) (a : State) (d : Nat) : (diePwr a d).level ≤ (diePwr (l.foldl enterThrottle a) d).level :=
    List.foldlRecOn (motive := fun t : State => (diePwr a d).level ≤ (diePwr t d).level) l _ le_rfl
      fun t ht x _ => ht.trans (level_le_level_enterThrottle t x d)
  induction l generalizing s with
  | nil => simp
  | cons x l ih =>
    have hsag : (enterThrottle s x).pwr.sag = true := (throttleFrame_enterThrottle s x).sag.trans h
    intro d hd
    rcases List.mem_cons.1 hd with rfl | hd
    · refine le_trans ?_ (hmono l (enterThrottle s d) d)
      rw [level_enterThrottle, if_pos rfl]
      exact le_trans (one_le_entryLevel_of_sag h d) (Nat.le_max_right ..)
    · exact ih hsag d hd

/-! ### The supply sag (R68, R408) -/

@[simp] theorem setRec_hr (s : State) (r : HealthRec) : (setRec s r).hlt.hr = r := by
  unfold setRec
  dsimp only
  split <;> rfl

@[simp] theorem setRec_jobs (s : State) (r : HealthRec) : (setRec s r).jobs = s.jobs := by
  unfold setRec
  dsimp only
  split <;> rfl

@[simp] theorem setRec_slv (s : State) (r : HealthRec) : (setRec s r).slv = s.slv := by
  unfold setRec
  dsimp only
  split <;> rfl

@[simp] theorem setRec_pwr (s : State) (r : HealthRec) : (setRec s r).pwr = s.pwr := by
  unfold setRec
  dsimp only
  split <;> rfl

/-- The state in which the sag is noted, in the power manager and in the record in force. -/
def sagNoted (s : State) (b : Bool) : State :=
  { setRec s { s.hlt.hr with sag := b } with pwr := { s.pwr with sag := b } }

theorem exec_sagThrottle {mv : Nat} (hup : Up s) (hsag : s.pwr.sag = false) (hmv : mv < 1760) :
    exec (.sagThrottle mv) s =
      .next (enterThrottles (raise (sagNoted s true) { code := 0x009, severity := 0, d0 := mv })) := by
  change execSagThrottle mv s = _
  simp [execSagThrottle, powered, hup, hsag, Nat.not_le.mpr hmv, sagNoted]

/-- With the sag over, a die whose level 1 has no cause of R65 leaves it. -/
def endSag (s : State) (d : Nat) : State :=
  if (diePwr s d).level == 1 && !(diePwr s d).held1 then setLevel s d 0 else s

theorem throttleFrame_endSag (s : State) (d : Nat) : ThrottleFrame s (endSag s d) := by
  unfold endSag
  split
  · exact throttleFrame_setLevel ..
  · exact .refl s

theorem exec_sagCleared (hsag : s.pwr.sag = true) :
    exec .sagCleared s = .next ((List.range 8).foldl endSag
      (setRec { s with pwr := { s.pwr with sag := false } } { s.hlt.hr with sag := false })) := by
  change execSagCleared s = _
  simp only [execSagCleared, hsag]
  rfl

theorem exec_nvmWriteInhibit (hup : Up s) :
    exec .nvmWriteInhibit s = .next { s with pwr := { s.pwr with inhibit := true } } := by
  change execNvmWriteInhibit s = _
  simp [execNvmWriteInhibit, powered, hup]

theorem exec_nvmWriteResume (hboot : s.boot.phase = .booted) (hinhibit : s.pwr.inhibit = true) :
    exec .nvmWriteResume s = .next { s with
      pwr := { s.pwr with inhibit := false }
      nvm := { s.nvm with health := s.hlt.hr } } := by
  change execNvmWriteResume s = _
  simp [execNvmWriteResume, hboot, hinhibit]

end Sys2Proof.Machine

namespace Sys2Proof

open Machine

/-- Settles O3: throttling leaves the record, the jobs and the sleeves alone (`ThrottleFrame`), and the sag brings every
die that it looks at to level 1. -/
theorem sagEventsComplete : Obligations.SagEventsComplete := by
  unfold Obligations.SagEventsComplete
  refine ⟨?throttle, ?cleared, ?inhibit, ?resume⟩
  case throttle =>
    intro mv s hup hsag hmv
    have hnoted : (raise (sagNoted s true) { code := 0x009, severity := 0, d0 := mv }).pwr.sag = true := by
      simp [sagNoted]
    have hraise := throttleFrame_raise (sagNoted s true) { code := 0x009, severity := 0, d0 := mv }
    have hframe := hraise.trans (throttleFrame_enterThrottles _)
    refine ⟨_, exec_sagThrottle hup hsag hmv, hframe.sag, ?_, ?_, ?_, ?_⟩
    · rw [hframe.hr]
      simp [sagNoted]
    · exact fun d hd => one_le_level_foldl_enterThrottle _ hnoted d (List.mem_range.2 hd)
    · rw [hframe.jobs]
      simp [sagNoted]
    · rw [hframe.slv]
      simp [sagNoted]
  case cleared =>
    intro s hsag
    have hframe := ThrottleFrame.foldl throttleFrame_endSag (List.range 8)
      (setRec { s with pwr := { s.pwr with sag := false } } { s.hlt.hr with sag := false })
    refine ⟨_, exec_sagCleared hsag, ?_, ?_, ?_, ?_⟩
    · rw [hframe.sag, setRec_pwr]
    · rw [hframe.hr, setRec_hr]
    · rw [hframe.jobs, setRec_jobs]
    · rw [hframe.slv, setRec_slv]
  case inhibit => exact fun s hup => ⟨_, exec_nvmWriteInhibit hup, rfl, rfl, rfl, rfl⟩
  case resume => exact fun s hboot hinhibit => ⟨_, exec_nvmWriteResume hboot hinhibit, rfl, rfl, rfl, rfl, rfl⟩

end Sys2Proof
end

section
/-! PROOFS. Sensor and domain events (R46–R48, R52, R57, R64, R65, R72): which field of which domain or die each one
sets. -/

namespace Sys2Proof.Machine

variable {s t u : State}

/-! ### Sensors (R47, R48, R52, R57) -/

theorem exec_sensorSample (rs : List DomainReading) (hup : Up s) :
    exec (.sensorSample rs) s = .next (rs.foldl sampleDomain s) := by
  change execSensorSample rs s = _
  simp [execSensorSample, powered, hup]

/-- A sample with a reading of every sensor of its domain sets the live pace. -/
theorem domain_sampleDomain {r : DomainReading} (hn : r.domain < 96) (hcount : sensorCount r.domain ≠ 0)
    (hlen : r.readings.length = sensorCount r.domain) (x : Nat) :
    (domain (sampleDomain s r) r.domain).live =
        (lowest (domain s r.domain).excluded r.readings).getD (domain s r.domain).live ∧
      (x ≠ r.domain → domain (sampleDomain s r) x = domain s x) := by
  have hgood : ¬(r.domain ≥ 96 || sensorCount r.domain = 0 || r.readings.length != sensorCount r.domain) = true := by
    simp [hcount, hlen, hn]
  unfold sampleDomain
  rw [if_neg hgood]
  exact ⟨by simp, fun hx => by simp [hx]⟩

theorem exec_sensorExclude {n i : Nat} (hn : n < 96) (hnew : i ∉ (domain s n).excluded)
    (hdev : 10 ≤ tget 0 (domain s n).deviation i) : exec (.sensorExclude n i) s = .next (excludeSensor s n i) := by
  change execSensorExclude n i s = _
  simp [execSensorExclude, Nat.not_le.mpr hn, hnew, Nat.not_lt.mpr hdev]

theorem excludeSensor_of_few {n : Nat} (i : Nat) (h : (domain s n).excluded.length < 2) :
    excludeSensor s n i = setDomain s n { domain s n with excluded := (domain s n).excluded ++ [i] } := by
  simp [excludeSensor, h]

theorem excludeSensor_of_many {n : Nat} (i : Nat) (h : 2 ≤ (domain s n).excluded.length)
    (hfault : (domain s n).sensorFault = false) :
    excludeSensor s n i = ((domainUnits n).filter fun u => u < 32 || (96 ≤ u && u < 112)).foldl suspectUnit
      (raise (modDomain (setDomain s n { domain s n with excluded := (domain s n).excluded ++ [i] }) n fun x => { x with
          sensorFault := true, vindex := ceilingIndex (domainClass n), vnext := none })
        { code := 0x007, severity := 3, die := domainDie n, domain := n, d0 := i, d1 := 1 }) := by
  simp [excludeSensor, Nat.not_lt.mpr h, hfault]

theorem exec_paceEntryLoaded {n : Nat} (hlen : 100 ≤ (domain s n).below.length)
    (hactive : 50 ≤ ((domain s n).below.filter id).length) (hat : (domain s n).belowAt = (domain s n).vindex)
    (hbelow : belowTable (domain s n) (domain s n).live = true) :
    exec (.paceEntryLoaded n) s = .next (setDomain s n { domain s n with
      below := []
      table := tmod {} (domain s n).table (domain s n).vindex fun e =>
        { e with pace := (domain s n).live, tag := 2 } }) := by
  change execPaceEntryLoaded n s = _
  simp [execPaceEntryLoaded, Nat.not_lt.mpr hlen, Nat.not_lt.mpr hactive, hat, hbelow]

theorem exec_paceFaultSet {n : Nat} (hn : n < 96) (hfault : (domain s n).paceFault = false)
    (hlate : 3 ≤ ((domain s n).lates.filter fun t => decide (since s t ≤ ticksPerS)).length) :
    exec (.paceFaultSet n) s = .next ((domainUnits n).foldl suspectUnit
      (raise (setDomain s n { domain s n with paceFault := true })
        { code := 0x008, severity := 3, die := domainDie n, domain := n
          d0 := ((domain s n).lates.filter fun t => decide (since s t ≤ ticksPerS)).length
          d1 := (domain s n).vindex })) := by
  change execPaceFaultSet n s = _
  simp [execPaceFaultSet, Nat.not_le.mpr hn, hfault, Nat.not_lt.mpr hlate]

/-! ### Temperatures (R64, R65) -/

/-- Two states show the same temperatures of domains and dies. -/
def SameTemps (s t : State) : Prop :=
  (∀ n, (domain t n).temp = (domain s n).temp) ∧ ∀ d, (diePwr t d).tj = (diePwr s d).tj

namespace SameTemps

theorem refl (s : State) : SameTemps s s := ⟨fun _ => rfl, fun _ => rfl⟩

theorem trans (h : SameTemps s t) (k : SameTemps t u) : SameTemps s u :=
  ⟨fun n => (k.1 n).trans (h.1 n), fun d => (k.2 d).trans (h.2 d)⟩

theorem foldl {β : Type} {f : State → β → State} (hf : ∀ s b, SameTemps s (f s b)) (l : List β) (s : State) :
    SameTemps s (l.foldl f s) :=
  List.foldlRecOn (motive := SameTemps s) l f (refl s) fun _ h b _ => h.trans (hf _ b)

end SameTemps

theorem sameTemps_setDomain {n : Nat} {v : Domain} (h : v.temp = (domain s n).temp) : SameTemps s (setDomain s n v) :=
  ⟨fun m => by
    rw [domain_setDomain]
    split
    · next hm => rw [h, hm]
    · rfl, fun _ => rfl⟩

theorem sameTemps_modDomain {n : Nat} {f : Domain → Domain} (h : ∀ x, (f x).temp = x.temp) :
    SameTemps s (modDomain s n f) := sameTemps_setDomain (h _)

theorem sameTemps_setDiePwr {d : Nat} {v : DiePwr} (h : v.tj = (diePwr s d).tj) : SameTemps s (setDiePwr s d v) :=
  ⟨fun _ => rfl, fun m => by
    rw [diePwr_setDiePwr]
    split
    · next hm => rw [h, hm]
    · rfl⟩

theorem sameTemps_modEngine (s : State) (e : Nat) (f : Engine → Engine) : SameTemps s (modEngine s e f) :=
  ⟨fun _ => rfl, fun _ => rfl⟩

theorem sameTemps_raise (s : State) (e : ErrEvent) : SameTemps s (raise s e) :=
  ⟨fun n => by simp, fun d => by simp⟩

theorem sameTemps_setIndex (s : State) (n i : Nat) : SameTemps s (setIndex s n i) := by
  rcases setIndex_cases s n i with h | ⟨v, w, h⟩ <;> rw [h]
  · exact .refl s
  · exact sameTemps_setDomain rfl

theorem temp_throttled (s : State) (n : Nat) (x : Domain) : (throttled s n x).temp = x.temp := by
  unfold throttled
  split <;> rfl

theorem sameTemps_throttled (s : State) (n : Nat) (f : Domain → Domain) (h : ∀ x, (f x).temp = x.temp) :
    SameTemps s (modDomain s n fun x => throttled s n (f x)) :=
  sameTemps_modDomain fun x => (temp_throttled s n (f x)).trans (h x)

theorem sameTemps_wakeEngine (s : State) (e : Nat) : SameTemps s (wakeEngine s e) :=
  .foldl (fun _ _ => sameTemps_modDomain fun x => by split <;> rfl) _ s

theorem sameTemps_takeThrottle (s : State) (n : Nat) : SameTemps s (takeThrottle s n) := by
  unfold takeThrottle
  cases domainClass n <;> dsimp only
  case a =>
    cases domainEngine n with
    | none => exact .refl s
    | some e =>
      dsimp only
      split
      · refine ((sameTemps_throttled s n _ ?_).trans (sameTemps_modEngine ..)).trans (sameTemps_wakeEngine ..)
        exact fun _ => rfl
      · refine (sameTemps_throttled s n _ ?_).trans (sameTemps_modEngine ..)
        exact fun _ => rfl
  case h =>
    refine sameTemps_throttled s n _ ?_
    exact fun _ => rfl
  all_goals exact .refl s

theorem sameTemps_setLevel (s : State) (d level : Nat) : SameTemps s (setLevel s d level) := by
  have hdomains := (sameTemps_setDiePwr (s := s) (d := d) (v := { diePwr s d with
      level := level, held1 := level != 0 && ((diePwr s d).held1 || level > 1 || tableCond s d 1) }) rfl).trans
    (SameTemps.foldl (f := fun s i =>
      if atBoundary s (dieDomain0 d + i) then takeThrottle s (dieDomain0 d + i) else s)
      (fun s i => by split; exacts [sameTemps_takeThrottle .., .refl s]) (List.range (dieDomains d)) _)
  unfold setLevel
  dsimp only
  split
  · exact hdomains.trans (sameTemps_raise ..)
  · exact hdomains

theorem sameTemps_enterThrottles (s : State) : SameTemps s (enterThrottles s) :=
  .foldl (fun s d => by
    unfold enterThrottle
    split
    · exact sameTemps_setLevel ..
    · split
      · exact sameTemps_setDiePwr rfl
      · exact .refl s) _ s

theorem sameTemps_noteHot (s : State) (d : Nat) : SameTemps s (noteHot s d) := sameTemps_setDiePwr rfl

/-- A radio domain that a failed sensor holds goes to its ceiling (R64). -/
def riseRadio (s : State) (n : Nat) : State :=
  if isRadioDomain s n && heldAtCeiling s n then setIndex s n (ceilingIndex (domainClass n)) else s

theorem sameTemps_riseRadio (s : State) (n : Nat) : SameTemps s (riseRadio s n) := by
  unfold riseRadio
  split
  · exact sameTemps_setIndex ..
  · exact .refl s

theorem throttleFrame_riseRadio (s : State) (n : Nat) : ThrottleFrame s (riseRadio s n) := by
  unfold riseRadio
  split
  · exact throttleFrame_setIndex ..
  · exact .refl s

/-- The one reading of a sample reaches the die of its domain. -/
def noteTj (n tj : Nat) (s : State) (d : Nat) : State :=
  if domainDie n = d then setDiePwr s d { diePwr s d with tj := tj } else s

theorem throttleFrame_noteTj (n tj : Nat) (s : State) (d : Nat) : ThrottleFrame s (noteTj n tj s d) := by
  unfold noteTj
  split
  · exact throttleFrame_setDiePwr ..
  · exact .refl s

theorem domain_noteTj (n tj : Nat) (s : State) (d x : Nat) : domain (noteTj n tj s d) x = domain s x := by
  unfold noteTj
  split <;> rfl

theorem tj_foldl_noteTj (n tj : Nat) (l : List Nat) : ∀ (s : State) (d : Nat),
    (diePwr (l.foldl (noteTj n tj) s) d).tj = if d = domainDie n ∧ d ∈ l then tj else (diePwr s d).tj := by
  induction l with
  | nil => simp
  | cons x l ih =>
    intro s d
    rw [List.foldl_cons, ih, noteTj]
    by_cases hx : domainDie n = x
    · subst hx
      by_cases hd : d = domainDie n <;> simp [hd]
    · have hne : d = domainDie n → d ≠ x := fun h => h ▸ hx
      by_cases hd : d = domainDie n
      · simp [hx, hd]
      · simp [hx, hd]

theorem domainDie_lt (n : Nat) : domainDie n < 8 := by
  unfold domainDie
  split_ifs <;> omega

/-- One sample of one domain without a failed sensor. -/
def oneTempSample (s : State) (n tj : Nat) : State :=
  enterThrottles ((List.range 8).foldl noteHot ((List.range 96).foldl riseRadio
    ((List.range 8).foldl (noteTj n tj) (modDomain s n fun x => { x with temp := Nat.min 255 tj }))))

theorem exec_tempSample_single {n tj : Nat} (hup : Up s) (hn : n < 96) :
    exec (.tempSample [(n, tj)] []) s = .next (oneTempSample s n tj) := by
  have hnote : (fun (s : State) (d : Nat) =>
      if ([(n, tj)].filter fun r => r.1 < 96 && domainDie r.1 == d).isEmpty then s
      else setDiePwr s d { diePwr s d with
        tj := ([(n, tj)].filter fun r => r.1 < 96 && domainDie r.1 == d).foldl (fun m r => Nat.max m r.2) 0 }) =
      noteTj n tj := by
    funext s d
    by_cases hd : domainDie n = d <;> simp [noteTj, hn, hd]
  have hrise : (fun (s : State) (n : Nat) =>
      if isRadioDomain s n && heldAtCeiling s n then setIndex s n (ceilingIndex (domainClass n)) else s) = riseRadio :=
    rfl
  change execTempSample [(n, tj)] [] s = _
  simp only [execTempSample, powered, hnote, hrise]
  simp [hup, hn, oneTempSample]

theorem throttleFrame_oneTempSample (s : State) (n tj : Nat) : ThrottleFrame s (oneTempSample s n tj) :=
  (throttleFrame_modDomain ..).trans <| (ThrottleFrame.foldl (throttleFrame_noteTj n tj) _ _).trans <|
    (ThrottleFrame.foldl throttleFrame_riseRadio _ _).trans <|
      (ThrottleFrame.foldl (fun _ _ => throttleFrame_setDiePwr ..) _ _).trans (throttleFrame_enterThrottles _)

/-- What follows the notes of a sample leaves the temperatures alone. -/
theorem temps_oneTempSample (s : State) (n tj : Nat) :
    (domain (oneTempSample s n tj) n).temp = Nat.min 255 tj ∧
      ∀ d, (diePwr (oneTempSample s n tj) d).tj = if d = domainDie n then tj else (diePwr s d).tj := by
  obtain ⟨htemp, htj⟩ := (SameTemps.foldl sameTemps_riseRadio (List.range 96) ((List.range 8).foldl (noteTj n tj)
      (modDomain s n fun x => { x with temp := Nat.min 255 tj }))).trans
    ((SameTemps.foldl sameTemps_noteHot (List.range 8) _).trans (sameTemps_enterThrottles _))
  constructor
  · refine (htemp n).trans ?_
    have hkeep := List.foldlRecOn (motive := fun t : State => domain t n = _) (List.range 8) (noteTj n tj)
      (b := modDomain s n fun x => { x with temp := Nat.min 255 tj }) rfl
      fun t h d _ => (domain_noteTj n tj t d n).trans h
    rw [hkeep]
    simp
  · intro d
    refine (htj d).trans ?_
    rw [tj_foldl_noteTj]
    by_cases hd : d = domainDie n
    · simp [hd, domainDie_lt]
    · simp [hd]

theorem exec_throttleExit_three {d : Nat} (hd : d < 8) (hlevel : (diePwr s d).level = 3)
    (hthree : leavable s d 3 = true) (htwo : leavable s d 2 = false) :
    exec (.throttleExit d) s = .next (setLevel s d (Nat.max 2 (entryLevel s d))) := by
  change execThrottleExit d s = _
  simp [execThrottleExit, Nat.not_le.mpr hd, hlevel, hthree, htwo]

theorem exec_throttleExit_one {d : Nat} (hd : d < 8) (hlevel : (diePwr s d).level = 1)
    (hone : leavable s d 1 = true) : exec (.throttleExit d) s = .next (setLevel s d (entryLevel s d)) := by
  change execThrottleExit d s = _
  simp [execThrottleExit, Nat.not_le.mpr hd, hlevel, hone]

/-! ### Domains that are switched off or fail (R46, R72) -/

theorem exec_domainIdleOff {n e : Nat} (he : domainEngine n = some e) (hpocket : isPocketDomain n = false)
    (hidle : engineIdle s e = true) : exec (.domainIdleOff n) s = .next (modDomain s n fun x => { x with on := false }) := by
  change execDomainIdleOff n s = _
  simp [execDomainIdleOff, he, hpocket, hidle]

/-- The first failure of a domain that is not of class I or F is retried. -/
theorem exec_domainVoltageFail_first {n : Nat} (hn : n < 95) (hup : Up s) (hi : domainClass n ≠ .i)
    (hf : domainClass n ≠ .f) (hfirst : (domain s n).retried = false) :
    exec (.domainVoltageFail n) s = .next (modDomain s n fun x => { x with retried := true }) := by
  change execDomainVoltageFail n s = _
  simp [execDomainVoltageFail, powered, Nat.not_le.mpr hn, hup, hi, hf, hfirst]

/-- The domains of an engine have a unit each, and none is of class I or F. -/
theorem domainUnits_of_engine {n : Nat} (hn : n < 64) (hl : n % 16 < 12) :
    (domainUnits n).isEmpty = false ∧ domainClass n = .a := by
  revert n
  decide +kernel

/-- The second failure in a row of an engine's domain fences its units. -/
theorem exec_domainVoltageFail_again {n : Nat} (hn : n < 64) (hl : n % 16 < 12) (hup : Up s)
    (hagain : (domain s n).retried = true) :
    let a := raise (modDomain s n fun x => { x with on := false })
      { code := 0x00A, severity := 3, die := domainDie n, domain := n, d0 := 5, d1 := domainMj s n }
    exec (.domainVoltageFail n) s = .next ((domainUnits n).foldl
      (fun s u => if isFenced s u then s else fenceUnit s u .unconfirmed 2)
      (if isPocketDomain n then failPocket a (n / 16 * 4 + n % 4) else a)) := by
  obtain ⟨hunits, hclass⟩ := domainUnits_of_engine hn hl
  have he : domainEngine n = some (n / 16 * 4 + n % 4) := by simp [domainEngine, hn, hl]
  have hlt : ¬ 95 ≤ n := by omega
  change execDomainVoltageFail n s = _
  simp only [execDomainVoltageFail, powered, hclass, he, hunits]
  simp [hlt, hup, hagain]

theorem exec_energyMeterCheck {n m r : Nat} (hn : n < 96) (hup : Up s) (hoff : r < 10 * (m - r)) :
    exec (.energyMeterCheck n m r) s = .next (modDomain (raise s
      { code := 0x00A, severity := 3, die := domainDie n, domain := n, d0 := 4, d1 := m }) n fun x =>
        { x with estimatedUntil := now s + ticksPerS }) := by
  have hge : r ≤ m := by omega
  have hdiff : ¬ (m - r) * 10 ≤ r := by omega
  change execEnergyMeterCheck n m r s = _
  simp [execEnergyMeterCheck, powered, Nat.not_le.mpr hn, hup, hge, hdiff, now]

end Sys2Proof.Machine

namespace Sys2Proof

open Machine

/-- Settles O5: each row writes one domain or die, and what a temperature sample brings about besides leaves the
temperatures, the jobs and the sleeves alone. -/
theorem sensorEventsComplete : Obligations.SensorEventsComplete := by
  unfold Obligations.SensorEventsComplete
  refine ⟨?sample, ?samples, ?exclude, ?third, ?loaded, ?paceFault, ?temp, ?exitThree, ?exitOne, ?idle, ?retry, ?fail,
    ?meter⟩
  case sample =>
    intro r s hup hn hcount hlen
    refine ⟨_, exec_sensorSample [r] hup, (domain_sampleDomain hn hcount hlen 0).1, fun n hne =>
      (domain_sampleDomain hn hcount hlen n).2 hne⟩
  case samples => exact fun rs s hup => exec_sensorSample rs hup
  case exclude =>
    intro n i s hn hnew hdev hfew
    refine ⟨_, exec_sensorExclude hn hnew hdev, ?_⟩
    rw [excludeSensor_of_few i hfew]
    exact ⟨by simp, by simp, fun m hm => by simp [hm]⟩
  case third =>
    intro n i s hn hnew hdev hmany hfault
    exact (exec_sensorExclude hn hnew hdev).trans (congrArg _ (excludeSensor_of_many i hmany hfault))
  case loaded =>
    intro n s hlen hactive hat hbelow
    refine ⟨_, exec_paceEntryLoaded hlen hactive hat hbelow, ?_, by simp, fun m hm => by simp [hm]⟩
    simp [paceEntry]
  case paceFault => exact fun n s hn hfault hlate => exec_paceFaultSet hn hfault hlate
  case temp =>
    intro n tj s hup hn
    obtain ⟨htemp, htj⟩ := temps_oneTempSample s n tj
    have hframe := throttleFrame_oneTempSample s n tj
    exact ⟨_, exec_tempSample_single hup hn, htemp, (htj _).trans (if_pos rfl), fun d hd => (htj d).trans (if_neg hd),
      hframe.jobs, hframe.slv⟩
  case exitThree => exact fun d s hd hlevel hthree htwo => exec_throttleExit_three hd hlevel hthree htwo
  case exitOne => exact fun d s hd hlevel hone => exec_throttleExit_one hd hlevel hone
  case idle =>
    intro n e s he hpocket hidle
    exact ⟨_, exec_domainIdleOff he hpocket hidle, by simp, by simp, fun m hm => by simp [hm]⟩
  case retry =>
    intro n s hn hup hi hf hfirst
    exact ⟨_, exec_domainVoltageFail_first hn hup hi hf hfirst, by simp, by simp, fun m hm => by simp [hm]⟩
  case fail => exact fun n s hn hl hup hagain => exec_domainVoltageFail_again hn hl hup hagain
  case meter =>
    intro n m r s hn hup hoff
    exact ⟨_, exec_energyMeterCheck hn hup hoff, by simp, by simp⟩

end Sys2Proof
end

section
/-! PROOFS. The energy window (R58, R60, R61, R70, R191): what the charges of the window that has passed may change, the
budget that the new window opens with, and that throttling and voltages leave both alone. -/

namespace Sys2Proof.Machine

variable {s t u : State} {o : EnergyObs}

/-! ### What ending and charging the old window may change -/

/-- t is s but for jobs, sleeves, the jobs passed over and what domains' meters hold; estimates run on as they did. -/
def ChargeFrame (s t : State) : Prop :=
  t = { s with
    jobs := t.jobs
    slv := t.slv
    pwr := { s.pwr with domains := t.pwr.domains, overNow := t.pwr.overNow } } ∧
  ∀ n, (domain t n).estimatedUntil = (domain s n).estimatedUntil

namespace ChargeFrame

theorem refl (s : State) : ChargeFrame s s := ⟨rfl, fun _ => rfl⟩

theorem trans (h : ChargeFrame s t) (k : ChargeFrame t u) : ChargeFrame s u := by
  obtain ⟨hst, hs⟩ := h
  obtain ⟨htu, ht⟩ := k
  exact ⟨by rw [htu, hst], fun n => (ht n).trans (hs n)⟩

theorem foldl {β : Type} {f : State → β → State} (hf : ∀ s b, ChargeFrame s (f s b)) (l : List β) (s : State) :
    ChargeFrame s (l.foldl f s) :=
  List.foldlRecOn (motive := ChargeFrame s) l f (refl s) fun _ h b _ => h.trans (hf _ b)

section Fields

variable (h : ChargeFrame s t)

include h

theorem eng : t.eng = s.eng := by rw [h.1]
theorem lin : t.lin = s.lin := by rw [h.1]
theorem rad : t.rad = s.rad := by rw [h.1]
theorem mgt : t.mgt = s.mgt := by rw [h.1]
theorem tim : t.tim = s.tim := by rw [h.1]
theorem pwr : t.pwr = { s.pwr with domains := t.pwr.domains, overNow := t.pwr.overNow } := by rw [h.1]

end Fields

end ChargeFrame

theorem chargeFrame_passOver (s : State) (hs : List Nat) : ChargeFrame s (passOver s hs) := ⟨rfl, fun _ => rfl⟩

theorem chargeFrame_modJob (s : State) (h : Nat) (f : Job → Job) : ChargeFrame s (modJob s h f) := ⟨rfl, fun _ => rfl⟩

theorem chargeFrame_modSleeve (s : State) (k : Nat) (f : Sleeve → Sleeve) : ChargeFrame s (modSleeve s k f) :=
  ⟨rfl, fun _ => rfl⟩

/-- A domain's reading reaches its meter. -/
def meter (s : State) (d : Nat × Nat) : State :=
  if d.1 ≥ 96 then s else modDomain s d.1 fun x => { x with energy := x.energy + w64 d.2 }

theorem chargeFrame_meter (s : State) (d : Nat × Nat) : ChargeFrame s (meter s d) := by
  unfold meter
  split
  · exact .refl s
  · exact ⟨rfl, fun n => by rw [domain_modDomain]; split <;> rfl⟩

/-- A job's part of a charge (R191). -/
def chargeJob (s : State) (a : Active) (uj : Nat) (est : Bool) : State :=
  if a.job = 0 || (job s a.job).gen != a.gen then s
  else modJob s a.job fun j => { j with ctr := { j.ctr with
    energy := j.ctr.energy + w64 uj, estimated := j.ctr.estimated || est } }

/-- A sleeve's part of a charge (R226). -/
def chargeSleeve (s : State) (a : Active) (uj : Nat) (est : Bool) : State :=
  if a.sleeve > 63 || (sleeve s a.sleeve).st == .absent then s
  else modSleeve s a.sleeve fun v => { v with acct := { v.acct with
    energy := v.acct.energy + w64 uj, estimated := v.acct.estimated || est } }

theorem chargeTo_eq (s : State) (a : Active) (uj : Nat) (est : Bool) :
    chargeTo s a uj est = chargeSleeve (chargeJob s a uj est) a uj est := rfl

theorem chargeFrame_chargeTo (s : State) (a : Active) (uj : Nat) (est : Bool) :
    ChargeFrame s (chargeTo s a uj est) := by
  have hjob : ChargeFrame s (chargeJob s a uj est) := by
    unfold chargeJob
    split
    · exact .refl s
    · exact chargeFrame_modJob ..
  have hsleeve : ChargeFrame (chargeJob s a uj est) (chargeTo s a uj est) := by
    rw [chargeTo_eq]
    unfold chargeSleeve
    split
    · exact .refl _
    · exact chargeFrame_modSleeve ..
  exact hjob.trans hsleeve

theorem chargeFrame_endWindow (s : State) : ChargeFrame s (endWindow s) :=
  .foldl (fun _ _ => chargeFrame_passOver ..) _ s

/-- The entries of a window that are charged to a sleeve (R58). -/
def charged (s : State) : List Active :=
  s.pwr.active.filter fun a => a.sleeve != 0 && (domainEngine a.domain).isSome

theorem chargeEnergy_eq (s : State) (o : EnergyObs) : chargeEnergy s o =
    (charged s).foldl (fun t a => chargeTo t a (shareOf s o a) (onEstimate s a)) (o.draws.foldl meter s) := rfl

theorem chargeFrame_chargeEnergy (s : State) (o : EnergyObs) : ChargeFrame s (chargeEnergy s o) :=
  (ChargeFrame.foldl chargeFrame_meter _ s).trans (.foldl (fun _ _ => chargeFrame_chargeTo ..) _ _)

/-! ### What the figures of a window depend on (R58, R60) -/

theorem ChargeFrame.fixedLoad (h : ChargeFrame s t) (o : EnergyObs) : fixedLoad t o = fixedLoad s o := by
  rw [h.1]
  rfl

theorem ChargeFrame.preCharge (h : ChargeFrame s t) (o : EnergyObs) : preCharge t o = preCharge s o := by
  rw [h.1]
  rfl

theorem fixedLoad_withPwr {p : Pwr} (h : p.active = s.pwr.active) (o : EnergyObs) :
    fixedLoad { s with pwr := p } o = fixedLoad s o := by
  simp only [fixedLoad, idleDomain, beatsIn, h]
  rfl

section Shares

variable (htim : t.tim = s.tim) (hactive : t.pwr.active = s.pwr.active)
  (hest : ∀ n, (domain t n).estimatedUntil = (domain s n).estimatedUntil)

include htim hactive hest

theorem shareOf_congr (o : EnergyObs) (a : Active) : shareOf t o a = shareOf s o a := by
  have hestimated (n : Nat) : isEstimated t n = isEstimated s n :=
    decide_eq_decide.2 (by rw [now, now, htim, hest])
  have hbeats (n : Nat) : beatsIn t n = beatsIn s n := by simp [beatsIn, hactive]
  simp only [shareOf, hestimated, hbeats]

theorem radioUse_congr (o : EnergyObs) : radioUse t o = radioUse s o := by
  simp [radioUse, hactive, shareOf_congr htim hactive hest]

theorem tenantUse_congr (o : EnergyObs) : tenantUse t o = tenantUse s o := by
  have hshare : shareOf t o = shareOf s o := funext (shareOf_congr htim hactive hest o)
  simp [tenantUse, hactive, hshare]

end Shares

/-! ### Settings (R70) -/

/-- Settings change the cap, the guards and the temperatures alone. -/
def SettingFrame (p q : Pwr) : Prop := q = { p with
  cap := q.cap, guardA := q.guardA, guardS := q.guardS, guardH := q.guardH
  tempThrottle := q.tempThrottle, tempStop := q.tempStop }

theorem settingFrame_foldl_applySetting (l : List (Nat × Nat × Nat)) (p : Pwr) :
    SettingFrame p (l.foldl applySetting p) :=
  List.foldlRecOn (motive := SettingFrame p) l _ rfl fun q h x _ => by
    have hone : SettingFrame q (applySetting q x) := by
      unfold SettingFrame applySetting
      split <;> rfl
    unfold SettingFrame at *
    rw [hone, h]

/-- The cap that the settings leave depends on the cap alone. -/
theorem cap_foldl_applySetting (l : List (Nat × Nat × Nat)) : ∀ {p q : Pwr}, p.cap = q.cap →
    (l.foldl applySetting p).cap = (l.foldl applySetting q).cap := by
  induction l with
  | nil => exact fun h => h
  | cons x l ih =>
    refine fun {p q} h => ih ?_
    unfold applySetting
    split
    case h_1 => rfl
    all_goals exact h

/-! ### The new window (R60, R61) -/

/-- The state in which the old window has ended and been charged and the settings that waited stand. -/
def windowEnds (s : State) (o : EnergyObs) : State :=
  let a := chargeEnergy (endWindow s) o
  { a with pwr := { a.pwr.nextSettings.foldl applySetting a.pwr with nextSettings := [] } }

/-- What follows the opening of the new window. -/
def windowFollows (s : State) (o : EnergyObs) : State :=
  addCredit (setVoltages (settleThrottles (enterThrottles ((List.range 8).foldl countClear s))) o)

theorem exec_energyWindow (hboot : s.boot.phase = .booted) (o : EnergyObs) :
    exec (.energyWindow o) s = .next (windowFollows (openWindow (windowEnds s o) o) o) := by
  change execEnergyWindow o s = _
  simp [execEnergyWindow, hboot, windowFollows, windowEnds]

theorem throttleFrame_grantIndex (s : State) (n i : Nat) : ThrottleFrame s (grantIndex s n i) := by
  unfold grantIndex
  split
  · exact .refl s
  · exact throttleFrame_setIndex ..

theorem throttleFrame_setVoltages (s : State) (o : EnergyObs) : ThrottleFrame s (setVoltages s o) := by
  refine ThrottleFrame.foldl (fun s n => ?_) _ s
  dsimp only
  split
  · exact .refl s
  · refine (throttleFrame_modDomain s n fun x => { x with paced := (requiredPace o.scheduled n).isSome }).trans ?_
    split
    · exact throttleFrame_setIndex ..
    · split
      · split
        · exact throttleFrame_grantIndex ..
        · exact .refl _
      · exact throttleFrame_setIndex ..
      · exact throttleFrame_setIndex ..

theorem throttleFrame_addCredit (s : State) : ThrottleFrame s (addCredit s) :=
  .foldl (fun s e => .foldl (fun s i => by
    dsimp only
    split
    · exact .refl s
    · exact throttleFrame_modSlot ..) _ s) _ s

theorem throttleFrame_settleThrottles (s : State) : ThrottleFrame s (settleThrottles s) :=
  .foldl (fun s n => by
    split
    · exact throttleFrame_takeThrottle ..
    · exact .refl s) _ s

theorem throttleFrame_windowFollows (s : State) (o : EnergyObs) : ThrottleFrame s (windowFollows s o) :=
  (ThrottleFrame.foldl (fun _ _ => throttleFrame_setDiePwr ..) _ s).trans <| (throttleFrame_enterThrottles _).trans <|
    (throttleFrame_settleThrottles _).trans <| (throttleFrame_setVoltages _ o).trans (throttleFrame_addCredit _)

theorem chargeFrame_windowCharged (s : State) (o : EnergyObs) : ChargeFrame s (chargeEnergy (endWindow s) o) :=
  (chargeFrame_endWindow s).trans (chargeFrame_chargeEnergy _ o)

/-- What the old window leaves of the power manager's fields that R60 counts with. -/
theorem windowEnds_pwr (s : State) (o : EnergyObs) :
    let p := (windowEnds s o).pwr
    p.cap = (s.pwr.nextSettings.foldl applySetting s.pwr).cap ∧ p.history = s.pwr.history ∧
      p.budget = s.pwr.budget ∧ p.fixed = s.pwr.fixed ∧ p.precharge = s.pwr.precharge ∧ p.debt = s.pwr.debt ∧
      p.grant = s.pwr.grant ∧ p.windows = s.pwr.windows ∧ p.active = s.pwr.active ∧
      p.domains = (chargeEnergy (endWindow s) o).pwr.domains := by
  have hcharge := (chargeFrame_windowCharged s o).pwr
  have hnext : (chargeEnergy (endWindow s) o).pwr.nextSettings = s.pwr.nextSettings := by rw [hcharge]
  have hcap : (chargeEnergy (endWindow s) o).pwr.cap = s.pwr.cap := by rw [hcharge]
  have hset := settingFrame_foldl_applySetting s.pwr.nextSettings (chargeEnergy (endWindow s) o).pwr
  simp only [windowEnds, hnext]
  refine ⟨cap_foldl_applySetting _ hcap, ?_, ?_, ?_, ?_, ?_, ?_, ?_, ?_, ?_⟩
  all_goals rw [hset, hcharge]

/-- The figures of R60 come out of the old window as they stood before its charges. -/
theorem windowEnds_figures (s : State) (o : EnergyObs) :
    let a := windowEnds s o
    fixedLoad a o = fixedLoad s o ∧ preCharge a o = preCharge s o ∧ radioUse a o = radioUse s o ∧
      tenantUse a o = tenantUse s o := by
  have hcharge := chargeFrame_windowCharged s o
  obtain ⟨-, -, -, -, -, -, -, -, hactive, hdomains⟩ := windowEnds_pwr s o
  have htim : (windowEnds s o).tim = s.tim := hcharge.tim
  have hest (n : Nat) : (domain (windowEnds s o) n).estimatedUntil = (domain s n).estimatedUntil := by
    rw [domain, hdomains]
    exact hcharge.2 n
  refine ⟨?_, hcharge.preCharge o, radioUse_congr htim hactive hest o, tenantUse_congr htim hactive hest o⟩
  rw [← hcharge.fixedLoad o]
  exact fixedLoad_withPwr (hactive.trans (by rw [hcharge.pwr])) o

/-! ### Whom the old window is charged to (R58, R191, R226) -/

theorem foldl_meter_jobs (l : List (Nat × Nat)) (s : State) :
    (l.foldl meter s).jobs = s.jobs ∧ (l.foldl meter s).slv = s.slv :=
  List.foldlRecOn (motive := fun t : State => t.jobs = s.jobs ∧ t.slv = s.slv) l meter ⟨rfl, rfl⟩ fun t h d _ => by
    unfold meter
    split <;> exact h

theorem endWindow_jobs (s : State) : (endWindow s).jobs = s.jobs ∧ (endWindow s).slv = s.slv :=
  List.foldlRecOn (motive := fun t : State => t.jobs = s.jobs ∧ t.slv = s.slv) (List.range 16) _ ⟨rfl, rfl⟩
    fun _ h _ _ => h

/-- The meters have counted the window and nobody is charged yet. -/
def metered (s : State) (o : EnergyObs) : State := o.draws.foldl meter (endWindow s)

theorem job_metered (s : State) (o : EnergyObs) (h : Nat) : job (metered s o) h = job s h := by
  rw [job, job, metered, (foldl_meter_jobs ..).1, (endWindow_jobs s).1]

theorem sleeve_metered (s : State) (o : EnergyObs) (k : Nat) : sleeve (metered s o) k = sleeve s k := by
  rw [sleeve, sleeve, metered, (foldl_meter_jobs ..).2, (endWindow_jobs s).2]

theorem endWindow_active (s : State) : (endWindow s).pwr.active = s.pwr.active := by
  rw [(chargeFrame_endWindow s).pwr]

theorem shareOf_endWindow (s : State) (o : EnergyObs) (a : Active) : shareOf (endWindow s) o a = shareOf s o a :=
  shareOf_congr (chargeFrame_endWindow s).tim (endWindow_active s) (chargeFrame_endWindow s).2 o a

theorem windowCharged_nobody (h : s.pwr.active = []) (o : EnergyObs) :
    (chargeEnergy (endWindow s) o).jobs = s.jobs := by
  have hnone : charged (endWindow s) = [] := by simp [charged, endWindow_active, h]
  rw [chargeEnergy_eq, hnone, List.foldl_nil, (foldl_meter_jobs ..).1, (endWindow_jobs s).1]

/-- One entry of a context: its job and its sleeve are charged. -/
theorem windowCharged_single {a : Active} (h : s.pwr.active = [a]) (hsleeve : a.sleeve ≠ 0)
    (hengine : (domainEngine a.domain).isSome = true) (o : EnergyObs) :
    chargeEnergy (endWindow s) o =
      chargeTo (metered s o) a (shareOf s o a) (onEstimate (endWindow s) a) := by
  have hone : charged (endWindow s) = [a] := by simp [charged, endWindow_active, h, hsleeve, hengine]
  rw [chargeEnergy_eq, hone, List.foldl_cons, List.foldl_nil, shareOf_endWindow, metered]

theorem job_chargeTo {a : Active} (hjob : a.job ≠ 0) (hgen : (job s a.job).gen = a.gen) (uj : Nat) (est : Bool)
    (x : Nat) : job (chargeTo s a uj est) x = if x = a.job then { job s x with ctr := { (job s x).ctr with
      energy := (job s x).ctr.energy + w64 uj, estimated := (job s x).ctr.estimated || est } } else job s x := by
  rw [chargeTo_eq, chargeSleeve]
  split <;> simp [chargeJob, hjob, hgen]

theorem sleeve_chargeTo {a : Active} (hk : a.sleeve ≤ 63) (hst : (sleeve s a.sleeve).st ≠ .absent) (uj : Nat)
    (est : Bool) (x : Nat) : sleeve (chargeTo s a uj est) x = if x = a.sleeve then
      { sleeve s x with acct := { (sleeve s x).acct with
        energy := (sleeve s x).acct.energy + w64 uj, estimated := (sleeve s x).acct.estimated || est } }
      else sleeve s x := by
  have hsame (y : Nat) : sleeve (chargeJob s a uj est) y = sleeve s y := by
    unfold chargeJob
    split
    · rfl
    · simp
  simp [chargeTo_eq, chargeSleeve, hsame, Nat.not_lt.mpr hk, hst]

/-! ### The power manager in the new window -/

/-- What the throttling and the voltages that follow leave of the opened window. -/
theorem newWindow_pwr (s : State) (o : EnergyObs) :
    let a := windowEnds s o
    let t := windowFollows (openWindow a o) o
    let hist := (fixedLoad a o :: a.pwr.history).take 8
    t.pwr.budget = a.pwr.cap ∧ t.pwr.nextSettings = [] ∧ t.pwr.windows = a.pwr.windows + 1 ∧ t.pwr.active = [] ∧
      t.pwr.precharge = preCharge a o ∧ t.pwr.fixed = hist.sum / hist.length ∧
      t.pwr.debt = a.pwr.debt - Nat.min a.pwr.debt (a.pwr.budget - a.pwr.fixed - a.pwr.precharge) +
        (radioUse a o - a.pwr.precharge) + (tenantUse a o - a.pwr.grant) ∧
      t.pwr.grant = t.pwr.budget - t.pwr.fixed - t.pwr.precharge - t.pwr.debt := by
  have hframe := (throttleFrame_windowFollows (openWindow (windowEnds s o) o) o).pwr
  dsimp only
  rw [hframe]
  exact ⟨rfl, rfl, rfl, rfl, rfl, rfl, rfl, rfl⟩

theorem newWindow_jobs (s : State) (o : EnergyObs) :
    let t := windowFollows (openWindow (windowEnds s o) o) o
    t.jobs = (chargeEnergy (endWindow s) o).jobs ∧ t.slv = (chargeEnergy (endWindow s) o).slv := by
  have hframe := throttleFrame_windowFollows (openWindow (windowEnds s o) o) o
  exact ⟨hframe.jobs, hframe.slv⟩

end Sys2Proof.Machine

namespace Sys2Proof

open Machine

/-- Settles O6: the window opens with the figures that stood before its charges, and what follows leaves the budget, the
jobs and the sleeves alone. -/
theorem energyWindowSetsBudget : Obligations.EnergyWindowSetsBudget := by
  unfold Obligations.EnergyWindowSetsBudget
  refine ⟨?budget, ?charge⟩
  case budget =>
    intro o s hboot
    have hpwr := newWindow_pwr s o
    obtain ⟨hfixed, hpre, hradio, htenant⟩ := windowEnds_figures s o
    obtain ⟨hcap, hhistory, hbudget, hold, hcharge, hdebt, hgrant, hwindows, -, -⟩ := windowEnds_pwr s o
    simp only [hfixed, hpre, hradio, htenant, hcap, hhistory, hbudget, hold, hcharge, hdebt, hgrant, hwindows] at hpwr
    obtain ⟨hB, hnext, hw, hactive, hP, hF, hD, hT⟩ := hpwr
    exact ⟨_, exec_energyWindow hboot o, hB, hnext, hw, hactive, hP, hF, hD, hT, fun h =>
      (newWindow_jobs s o).1.trans (windowCharged_nobody h o)⟩
  case charge =>
    intro o a s hboot hactive hone hk hst hjob hgen hengine
    obtain ⟨hjobs, hslv⟩ := newWindow_jobs s o
    rw [windowCharged_single hactive (by omega) hengine] at hjobs hslv
    have hjobAt (x : Nat) := job_chargeTo hjob ((congrArg Job.gen (job_metered s o a.job)).trans hgen) (shareOf s o a)
      (onEstimate (endWindow s) a) x
    have hsleeveAt (x : Nat) := sleeve_chargeTo hk (by rwa [sleeve_metered s o]) (shareOf s o a)
      (onEstimate (endWindow s) a) x
    simp only [job_metered, sleeve_metered] at hjobAt hsleeveAt
    refine ⟨_, exec_energyWindow hboot o, ?_, ?_, fun h hne => ?_, fun k hne => ?_⟩
    · rw [job, hjobs, ← job, hjobAt, if_pos rfl]
    · rw [sleeve, hslv, ← sleeve, hsleeveAt, if_pos rfl]
    · rw [job, hjobs, ← job, hjobAt, if_neg hne]
    · rw [sleeve, hslv, ← sleeve, hsleeveAt, if_neg hne]

end Sys2Proof
end

section
/-! PROOFS. What an element-engine descriptor leaves unchanged (R58, R90, R130, R191, R226): the frames of its writes,
its beats and its counts, which its run puts one behind the other. -/

namespace Sys2Proof.Machine

variable {s t u : State} {e i : Nat} {d : List W64} {x : Slot}

/-! ### Bytes outside a write (R160) -/

theorem rdByte_wrSkip_other (bad : List Nat) (bs : List Byte) : ∀ (m : Memory) (a k : Nat),
    (k < a ∨ a + bs.length ≤ k) → rdByte (wrSkip bad m a bs) k = rdByte m k := by
  induction bs with
  | nil => intros; rfl
  | cons b bs ih =>
    intro m a k h
    rw [List.length_cons] at h
    rw [wrSkip, ih _ _ _ (by omega)]
    split
    · rfl
    · exact rdByte_wrByte_other m b (by omega)

theorem rdByte_partWrite_other (s : State) (x : Slot) (e off : Nat) (bs : List Byte) {k : Nat}
    (h : k < partKey x e off ∨ partKey x e off + bs.length ≤ k) :
    rdByte (partWrite s x e off bs).pkg.mem k = rdByte s.pkg.mem k :=
  rdByte_wrSkip_other _ bs _ _ k h

/-- A byte that no write of a list covers reads as before. -/
theorem rdByte_putWrites_other (s : State) (x : Slot) (e : Nat) {ws : Writes} {k : Nat}
    (h : ∀ w ∈ ws, k < partKey x e w.1 ∨ partKey x e w.1 + w.2.length ≤ k) :
    rdByte (putWrites s x e ws).pkg.mem k = rdByte s.pkg.mem k :=
  List.foldlRecOn (motive := fun t : State => rdByte t.pkg.mem k = rdByte s.pkg.mem k) ws _ rfl fun t ht w hw =>
    (rdByte_partWrite_other t x e w.1 w.2 (h w hw)).trans ht

/-! ### Frames -/

/-- t is s but for memory with its ECC words, the engines, jobs, sleeves and active beats. -/
def ElementFrame (s t : State) : Prop :=
  t = { s with
    pkg := { s.pkg with mem := t.pkg.mem, eccBad := t.pkg.eccBad }
    eng := t.eng
    jobs := t.jobs
    slv := t.slv
    pwr := { s.pwr with active := t.pwr.active } }

namespace ElementFrame

theorem refl (s : State) : ElementFrame s s := rfl

theorem trans (h : ElementFrame s t) (k : ElementFrame t u) : ElementFrame s u := by
  unfold ElementFrame at *
  rw [k, h]

theorem foldl {β : Type} {f : State → β → State} (hf : ∀ s b, ElementFrame s (f s b)) (l : List β) (s : State) :
    ElementFrame s (l.foldl f s) :=
  List.foldlRecOn (motive := ElementFrame s) l f (refl s) fun _ h b _ => h.trans (hf _ b)

end ElementFrame

theorem elementFrame_putWrites (s : State) (x : Slot) (e : Nat) (ws : Writes) : ElementFrame s (putWrites s x e ws) :=
  .foldl (f := fun s (p : Nat × List Byte) => partWrite s x e p.1 p.2) (fun _ _ => rfl) ws s

theorem elementFrame_noteBeats (s : State) (ns : List Nat) (x : Slot) (lease : Bool) (beats est : Nat) :
    ElementFrame s (noteBeats s ns x lease beats est) :=
  .foldl (f := fun s n => noteActive s { domain := n, sleeve := x.sleeve, job := x.job, gen := (job s x.job).gen
                                         radio := lease, beats := beats, est := est }) (fun _ _ => rfl) ns s

theorem elementFrame_chargeBeats (s : State) (x : Slot) (beats : Nat) : ElementFrame s (chargeBeats s x beats) := by
  unfold chargeBeats
  split <;> rfl

theorem elementFrame_addCounts (s : State) (h : Nat) (c : Counts) (w : Nat) : ElementFrame s (addCounts s h c w) := by
  unfold addCounts
  split <;> rfl

theorem elementFrame_modSlot (s : State) (e i : Nat) (f : Slot → Slot) : ElementFrame s (modSlot s e i f) := rfl

/-! ### Memory, engines, jobs and sleeves one by one -/

@[simp] theorem putWrites_eng (s : State) (x : Slot) (e : Nat) (ws : Writes) : (putWrites s x e ws).eng = s.eng :=
  List.foldlRecOn (motive := fun t : State => t.eng = s.eng) ws _ rfl fun _ h _ _ => h

@[simp] theorem putWrites_jobs (s : State) (x : Slot) (e : Nat) (ws : Writes) : (putWrites s x e ws).jobs = s.jobs :=
  List.foldlRecOn (motive := fun t : State => t.jobs = s.jobs) ws _ rfl fun _ h _ _ => h

@[simp] theorem putWrites_slv (s : State) (x : Slot) (e : Nat) (ws : Writes) : (putWrites s x e ws).slv = s.slv :=
  List.foldlRecOn (motive := fun t : State => t.slv = s.slv) ws _ rfl fun _ h _ _ => h

section NoteBeats

variable (s : State) (ns : List Nat) (x : Slot) (lease : Bool) (beats est : Nat)

@[simp] theorem noteBeats_pkg : (noteBeats s ns x lease beats est).pkg = s.pkg :=
  List.foldlRecOn (motive := fun t : State => t.pkg = s.pkg) ns _ rfl fun _ h _ _ => h

@[simp] theorem noteBeats_eng : (noteBeats s ns x lease beats est).eng = s.eng :=
  List.foldlRecOn (motive := fun t : State => t.eng = s.eng) ns _ rfl fun _ h _ _ => h

@[simp] theorem noteBeats_jobs : (noteBeats s ns x lease beats est).jobs = s.jobs :=
  List.foldlRecOn (motive := fun t : State => t.jobs = s.jobs) ns _ rfl fun _ h _ _ => h

@[simp] theorem noteBeats_slv : (noteBeats s ns x lease beats est).slv = s.slv :=
  List.foldlRecOn (motive := fun t : State => t.slv = s.slv) ns _ rfl fun _ h _ _ => h

end NoteBeats

@[simp] theorem chargeBeats_pkg (s : State) (x : Slot) (beats : Nat) : (chargeBeats s x beats).pkg = s.pkg := by
  unfold chargeBeats
  split <;> rfl

@[simp] theorem chargeBeats_eng (s : State) (x : Slot) (beats : Nat) : (chargeBeats s x beats).eng = s.eng := by
  unfold chargeBeats
  split <;> rfl

theorem job_chargeBeats_other (s : State) {x : Slot} {h : Nat} (hne : h ≠ x.job) (beats : Nat) :
    job (chargeBeats s x beats) h = job s h := by
  unfold chargeBeats
  split
  · rfl
  · simp [hne]

/-- The beats reach the account of the context's own sleeve, and nothing else of a sleeve. -/
theorem sleeve_chargeBeats (s : State) (x : Slot) (beats k : Nat) : sleeve (chargeBeats s x beats) k =
    if k = x.sleeve then { sleeve s k with acct := (sleeve (chargeBeats s x beats) k).acct } else sleeve s k := by
  unfold chargeBeats
  split
  · simp
  · by_cases hk : k = x.sleeve <;> simp [hk]

@[simp] theorem addCounts_pkg (s : State) (h : Nat) (c : Counts) (w : Nat) : (addCounts s h c w).pkg = s.pkg := by
  unfold addCounts
  split <;> rfl

@[simp] theorem addCounts_eng (s : State) (h : Nat) (c : Counts) (w : Nat) : (addCounts s h c w).eng = s.eng := by
  unfold addCounts
  split <;> rfl

@[simp] theorem addCounts_slv (s : State) (h : Nat) (c : Counts) (w : Nat) : (addCounts s h c w).slv = s.slv := by
  unfold addCounts
  split <;> rfl

theorem job_addCounts_other (s : State) {h j : Nat} (hne : j ≠ h) (c : Counts) (w : Nat) :
    job (addCounts s h c w) j = job s j := by
  unfold addCounts
  split
  · rfl
  · simp [hne]

/-! ### The descriptor's run -/

theorem elementFrame_elemDone (s : State) (e i : Nat) (d : List W64) : ElementFrame s (elemDone s e i d) :=
  (elementFrame_putWrites ..).trans <| (elementFrame_noteBeats ..).trans <| (elementFrame_chargeBeats ..).trans <|
    (elementFrame_addCounts ..).trans (elementFrame_modSlot _ e i fun x => { x with shadowed := false })

theorem rdByte_elemDone_other {k : Nat} (h : ∀ w ∈ (elemWork s (slot s e i) e (slotChip s (slot s e i)) d).1,
    k < partKey (slot s e i) e w.1 ∨ partKey (slot s e i) e w.1 + w.2.length ≤ k) :
    rdByte (elemDone s e i d).pkg.mem k = rdByte s.pkg.mem k := by
  simpa [elemDone] using rdByte_putWrites_other s (slot s e i) e h

theorem engine_elemDone_other {e' : Nat} (h : e' ≠ e) : engine (elemDone s e i d) e' = engine s e' := by
  rw [elemDone, engine_modSlot, if_neg h]
  simp [engine]

theorem job_elemDone_other {h : Nat} (hne : h ≠ (slot s e i).job) : job (elemDone s e i d) h = job s h := by
  rw [elemDone, job_modSlot_frame, job_addCounts_other _ hne, job_chargeBeats_other _ hne]
  simp [job]

theorem sleeve_elemDone (k : Nat) : sleeve (elemDone s e i d) k = if k = (slot s e i).sleeve then
    { sleeve s k with acct := (sleeve (elemDone s e i d) k).acct } else sleeve s k := by
  have hcounts (a : State) (h : Nat) (c : Counts) (w : Nat) : sleeve (addCounts a h c w) k = sleeve a k := by
    rw [sleeve, sleeve, addCounts_slv]
  have hbefore (ns : List Nat) (ws : Writes) (b : Nat) (l : Bool) :
      sleeve (noteBeats (putWrites s (slot s e i) e ws) ns (slot s e i) l b 0) k = sleeve s k := by
    rw [sleeve, sleeve, noteBeats_slv, putWrites_slv]
  simp only [elemDone, sleeve_modSlot_frame, hcounts]
  rw [sleeve_chargeBeats, hbefore]
  split <;> rfl

end Sys2Proof.Machine

namespace Sys2Proof

open Machine

/-- Settles O14: without a hold the run ends in `elemDone` and the ring's step, and each part of it has its frame. -/
theorem elementRowsFrame : Obligations.ElementRowsFrame := by
  unfold Obligations.ElementRowsFrame
  intro r e i d s t hr hready hop hbad hbar hhold hexec
  have hrun : t = modSlot (elemDone s e i d) e i fun x =>
      { x with ering := ringNext x.ering }.completes (now (elemDone s e i d)) := by
    rw [exec_elementRow_good hr hready hop hbad, elemRun_of_bar_none hbar, if_neg (by omega)] at hexec
    exact (Host.Outcome.next.inj hexec).symm
  have hframe : ElementFrame s t := hrun ▸ (elementFrame_elemDone s e i d).trans (elementFrame_modSlot ..)
  have hsleeve (k : Nat) : sleeve t k = if k = (slot s e i).sleeve then
      { sleeve s k with acct := (sleeve t k).acct } else sleeve s k := by
    rw [hrun, sleeve_modSlot_frame]
    exact sleeve_elemDone k
  refine ⟨?memory, ?engines, ?jobs, ?power, ?sleeves, ?own, ?rest⟩
  case memory => exact fun k h => (congrArg (fun a : State => rdByte a.pkg.mem k) hrun).trans (rdByte_elemDone_other h)
  case engines =>
    intro e' hne
    rw [hrun, engine_modSlot, if_neg hne, engine_elemDone_other hne]
  case jobs =>
    intro h hne
    rw [hrun, job_modSlot_frame, job_elemDone_other hne]
  case power => rw [hframe]
  case sleeves => exact fun k hne => (hsleeve k).trans (if_neg hne)
  case own => exact (hsleeve _).trans (if_pos rfl)
  case rest =>
    rw [hframe]
    exact ⟨rfl, rfl, rfl, rfl, rfl, rfl, rfl, rfl, rfl, rfl, rfl, rfl⟩

end Sys2Proof
end

section
/-! PROOFS. How passes start and end (R54–R57, R62, R101–R116, R136, R146): what enters the array, and what a discarded
pass leaves. -/

namespace Sys2Proof.Machine

variable {s t : State} {e i p n : Nat} {d : List W64}

/-! ### Ticks (R54, R56, R57) -/

theorem exec_passTick (e i : Nat) (landed : Bool) (s : State) :
    exec (.releaseTick (.pass e i) landed) s = .next (passTick s e i landed) := rfl

/-- A tenant's paced pass that its engine, lease and context allow. -/
theorem pacedOk_tenant (hnext : nextPass (slot s e i) = some (d, p, n)) (hpaced : (slot s e i).paced = true)
    (hstops : engineStops s e = false) (hi : i ≠ 4) (hok : tenantOk s e i = true)
    (hlease : beforeLease s e (passBeats d) = true) : pacedOk s e i = true := by
  simp [pacedOk, hnext, hpaced, hstops, hi, hok, hlease]

theorem pacedOk_lease (hnext : (nextPass (slot s e 4)).isSome = true) (hpaced : (slot s e 4).paced = true)
    (hstops : engineStops s e = false) (hleased : (engine s e).leased = true) (hruns : slotRuns s e 4 = true) :
    pacedOk s e 4 = true := by
  obtain ⟨⟨d, p, n⟩, hnext⟩ := Option.isSome_iff_exists.1 hnext
  simp [pacedOk, hnext, hpaced, hstops, hleased, hruns]

theorem passTick_tenant (hok : pacedOk s e i = true) (hi : i ≠ 4) (hback : (slot s e i).tickBack = false) :
    passTick s e i true = startPass (modDomain s (arrayDomain e) fun y => { y with radioFirst := false }) e i ∧
    passTick s e i false = modSlot s e i fun x => { x with lateTick := true } := by
  simp [passTick, hok, hi, hback]

theorem passTick_lease (hok : pacedOk s e 4 = true) :
    let t := startPass (modDomain s (arrayDomain e) fun y => { y with radioFirst := false }) e 4
    passTick s e 4 true =
      if (slot s e 4).lateTick = true ∧ (slot t e 4).lateTick = false then operandWait t (arrayDomain e) else t := by
  simp [passTick, hok]

/-- The tick that passes after a late radio beat. -/
theorem passTick_back (hi : i ≠ 4) (hback : (slot s e i).tickBack = true) (landed : Bool) :
    passTick s e i landed = modSlot s e i fun x => { x with tickBack := false } := by
  simp [passTick, hi, hback]

theorem exec_radioTaskTick (hn : n < 96) (hclass : domainClass n = .s) (landed : Bool) :
    exec (.releaseTick (.radioTask n) landed) s = .next (if landed then s else operandWait s n) := by
  change execReleaseTick (.radioTask n) landed s = _
  simp [execReleaseTick, Nat.not_le.mpr hn, hclass]

theorem exec_freePassStart {beats : Nat} (hnext : nextPass (slot s e i) = some (d, p, n)) (he : e < 16)
    (hstops : engineStops s e = false) (hchosen : (chooseTenant s e).1 = some i) (hbeats : passBeats d ≤ beats)
    (hlease : beforeLease s e (passBeats d) = true) :
    exec (.freePassStart e i beats) s = .next (startPass s e i) := by
  change execFreePassStart e i beats s = _
  simp [execFreePassStart, hnext, he, hstops, hchosen, hbeats, hlease]

/-! ### The first stream row (R46, R101, R105, R126, R186) -/

theorem startPass_of_outside (hnext : nextPass (slot s e i) = some (d, p, n))
    (hinside : passInside (slot s e i) d p n = false) : startPass s e i = faultSlot s e i .denied := by
  simp [startPass, hnext, hinside]

theorem startPass_of_asleep (hnext : nextPass (slot s e i) = some (d, p, n))
    (hinside : passInside (slot s e i) d p n = true) (hawake : engineAwake s e = false) :
    startPass s e i = wakeEngine s e := by
  simp [startPass, hnext, hinside, hawake]

/-- The energy of a free pass leaves what remains of the grant, and its job counts anew (R62). -/
def passCharged (s : State) (e i p : Nat) (d : List W64) : State :=
  if (slot s e i).paced then s
  else { startsNow s (slot s e i).job with pwr := { (startsNow s (slot s e i).job).pwr with
    remaining := s.pwr.remaining - passEnergy s e d p } }

/-- The charge changes the power manager alone. -/
theorem passCharged_frame (s : State) (e i p : Nat) (d : List W64) :
    passCharged s e i p d = { s with pwr := (passCharged s e i p d).pwr } := by
  unfold passCharged
  split <;> rfl

theorem engine_passCharged (s : State) (e i p : Nat) (d : List W64) (x : Nat) :
    engine (passCharged s e i p d) x = engine s x := by
  rw [passCharged_frame]
  rfl

theorem slot_passCharged (s : State) (e i p : Nat) (d : List W64) (x y : Nat) :
    slot (passCharged s e i p d) x y = slot s x y := by
  rw [slot, slot, engine_passCharged]

theorem now_passCharged (s : State) (e i p : Nat) (d : List W64) : now (passCharged s e i p d) = now s := by
  rw [passCharged_frame]
  rfl

theorem tileFor_passCharged (s : State) (e i p n : Nat) (d : List W64) :
    tileFor (passCharged s e i p d) e i d n = tileFor s e i d n := by
  rw [passCharged_frame]
  rfl

/-- What is noted in flight of a pass that starts. -/
def startedPass (s : State) (e i p n : Nat) (d : List W64) : PassRun :=
  { slot := i, kind := kindOf p, m := streamM d, paced := (slot s e i).paced, desc := d, phase := p, index := n
    tile := if p = 1 then [] else (tileFor s e i d n).bytes }

theorem startPass_of_awake (hnext : nextPass (slot s e i) = some (d, p, n))
    (hinside : passInside (slot s e i) d p n = true) (hawake : engineAwake s e = true) :
    let a := passCharged s e i p d
    startPass s e i = modSlot (modEngine (loadRegisters a e i d p n) e fun y => y.enter (startedPass a e i p n d)) e i
      fun x => { x with
        credit := x.credit - passBeats d, lastStart := now a, lateTick := false, preempted := false
        run := x.run.map fun r => { r with started := r.started + 1 } } := by
  simp only [startPass, hnext, hinside, hawake, Bool.not_true, Bool.false_eq_true, if_false, startedPass,
    slot_passCharged]
  rfl

/-- The pass comes behind those in flight. -/
theorem enter_list (y : Engine) (r : PassRun) : (y.enter r).pass.toList ++ (y.enter r).behind =
    y.pass.toList ++ if y.pass.isSome then y.behind ++ [r] else r :: y.behind := by
  cases h : y.pass <;> simp [Engine.enter, h]

theorem enter_active (y : Engine) (r : PassRun) : (y.enter r).active = y.active := by
  cases h : y.pass <;> simp [Engine.enter, h]

theorem enter_slots (y : Engine) (r : PassRun) : (y.enter r).slots = y.slots := by
  cases h : y.pass <;> simp [Engine.enter, h]

section Awake

variable (hnext : nextPass (slot s e i) = some (d, p, n)) (hinside : passInside (slot s e i) d p n = true)
  (hawake : engineAwake s e = true)

include hnext hinside hawake

theorem slot_startPass_of_awake : slot (startPass s e i) e i = { slot s e i with
    credit := (slot s e i).credit - passBeats d, lastStart := now s, lateTick := false, preempted := false
    run := (slot s e i).run.map fun r => { r with started := r.started + 1 } } := by
  have hslot (a : State) (r : PassRun) :
      slot (modEngine (loadRegisters a e i d p n) e fun y => y.enter r) e i = slot a e i := by
    simp [loadRegisters, enter_slots, slot]
  rw [startPass_of_awake hnext hinside hawake, slot_modSlot, if_pos ⟨rfl, rfl⟩, hslot, slot_passCharged,
    now_passCharged]

theorem engine_startPass_of_awake :
    (engine (startPass s e i) e).pass.toList ++ (engine (startPass s e i) e).behind = (engine s e).pass.toList ++
      (if (engine s e).pass.isSome then (engine s e).behind ++ [startedPass s e i p n d]
        else startedPass s e i p n d :: (engine s e).behind) ∧
    (engine (startPass s e i) e).active = if p = 1 then none else some (tileFor s e i d n) := by
  have hstarted : startedPass (passCharged s e i p d) e i p n d = startedPass s e i p n d := by
    rw [startedPass, startedPass, slot_passCharged, tileFor_passCharged]
  rw [startPass_of_awake hnext hinside hawake, hstarted]
  simp [loadRegisters, enter_list, enter_active, engine_passCharged, tileFor_passCharged]

theorem startPass_of_awake_frame :
    (startPass s e i).jobs = s.jobs ∧ (startPass s e i).slv = s.slv ∧ (startPass s e i).pkg = s.pkg := by
  rw [startPass_of_awake hnext hinside hawake, passCharged_frame]
  exact ⟨rfl, rfl, rfl⟩

end Awake

/-! ### The end of a pass (R57, R102, R114, R115, R136, R146) -/

theorem exec_passBoundary (he : e < 16) {r : PassRun} (hpass : (engine s e).pass = some r) (obs : PassObs) :
    exec (.passBoundary e obs) s = .next (passEnds s e r obs.errors false obs.late) := by
  change execPassBoundary e obs s = _
  simp [execPassBoundary, hpass, he]

theorem exec_passFault_discards (he : e < 16) {r : PassRun} (hpass : (engine s e).pass = some r) {k : PassFaultKind}
    (hk : k = .stall ∨ k = .seamRepair) : exec (.passFault e k) s = .next (discardPass s e r) := by
  change execPassFault e k s = _
  rcases hk with rfl | rfl <;> simp [execPassFault, hpass, Nat.not_le.mpr he]

theorem exec_passFault_duplicated (he : e < 16) {r : PassRun} (hpass : (engine s e).pass = some r)
    (es : List PassError) : exec (.passFault e (.duplicatedUnit es)) s = .next (pathMismatch s e r es) := by
  change execPassFault e (.duplicatedUnit es) s = _
  simp [execPassFault, hpass, Nat.not_le.mpr he]

/-- The array keeps the passes of other contexts. -/
theorem engine_discardPass {r : PassRun} (hpass : (engine s e).pass = some r) :
    (engine (discardPass s e r) e).pass.toList ++ (engine (discardPass s e r) e).behind =
      (engine s e).behind.filter (fun q => q.slot != r.slot) ∧
    (engine (discardPass s e r) e).reruns = (engine s e).reruns.add 0xFFFF 1 := by
  have hlist (l : List PassRun) : l.head?.toList ++ l.tail = l := by cases l <;> rfl
  simp [discardPass, dropPasses, hpass, hlist, -List.head?_filter]

theorem slot_discardPass (s : State) (e : Nat) (r : PassRun) : slot (discardPass s e r) e r.slot = { slot s e r.slot with
    run := (slot s e r.slot).run.map fun q => { q with started := q.next }
    rerunOwed := (slot s e r.slot).run.isSome } := by
  simp [discardPass, dropPasses, slot]

theorem discardPass_frame (s : State) (e : Nat) (r : PassRun) :
    (discardPass s e r).pkg = s.pkg ∧ (discardPass s e r).jobs = s.jobs ∧ (discardPass s e r).lin = s.lin :=
  ⟨rfl, rfl, rfl⟩

/-- Seen once, a mismatch of the duplicated units strikes the engine and discards the pass. -/
theorem pathMismatch_first {r : PassRun} (h : (slot s e r.slot).mismatched = false) (es : List PassError) :
    pathMismatch s e r es = modSlot (discardPass
      (strike s e 3 0xFFFF (slot s e r.slot).job (slot s e r.slot).sleeve false) e r) e r.slot
        fun x => { x with mismatched := true } := by
  simp [pathMismatch, h]

theorem pathMismatch_again {r : PassRun} (h : (slot s e r.slot).mismatched = true) (es : List PassError) :
    pathMismatch s e r es = passEnds s e r es true false := by
  simp [pathMismatch, h]

theorem devRead_ok {j : Issuer} {addr len : Nat} {bs : List Byte} (h : devRead s j addr len = .ok bs) :
    checkRange s j .rd addr len = none ∧ windowRead s addr len = bs := by
  unfold devRead at h
  split at h
  · cases h
  · next hnone =>
    split at h
    · cases h
    · exact ⟨hnone, Except.ok.inj h⟩

/-- The entry at the head of the element ring may be read, and is the descriptor. -/
theorem elementEntry_of_ready (h : ElementReady s e i d) : elementFree s e i = true ∧
    checkRange s (slotIssuer s (slot s e i)) .rd (ringEntry (slot s e i).ering 64 0) 64 = none ∧
    wordsOf 8 (windowRead s (ringEntry (slot s e i).ering 64 0) 64) = d := by
  obtain ⟨hfree, -, hholds⟩ := h
  obtain ⟨-, bs, hread, hwords⟩ := ringHolds_iff.1 hholds
  obtain ⟨hrange, hbytes⟩ := devRead_ok (len := 64) hread
  exact ⟨hfree, hrange, hbytes ▸ hwords⟩

section Shadow

variable {group : Nat} (lanes shadows : List (Nat × Nat)) (hready : ElementReady s e i d) (hbad : elemBad d = false)
  (hgroup : 256 * group < eOutputs d) (hbar : elemBar s (slot s e i) e d = none)

include hready hbad hgroup hbar

/-- A shadow mismatch seen once: the groups before it are written, a strike and a rerun. -/
theorem shadowMismatch_first (h : (slot s e i).shadowed = false) :
    shadowMismatch s e i group lanes shadows = modEngine (modSlot
      (strike (putWrites s (slot s e i) e (writesBelow d group
        (elemWork s (slot s e i) e (slotChip s (slot s e i)) d).1)) (16 + e) 3 0xFFFF (slot s e i).job
          (slot s e i).sleeve false) e i fun x => { x with shadowed := true }) e
        fun y => { y with reruns := y.reruns.add 0xFFFF 1 } := by
  obtain ⟨hfree, hrange, hwords⟩ := elementEntry_of_ready hready
  simp [shadowMismatch, hfree, hrange, hwords, hbad, Nat.not_le.mpr hgroup, hbar, h]

/-- Seen again on the rerun of a tenant's descriptor it is a disagreement. -/
theorem shadowMismatch_again (hi : i ≠ 4) (h : (slot s e i).shadowed = true) :
    shadowMismatch s e i group lanes shadows = openDispute (modSlot (putWrites s (slot s e i) e (writesBelow d group
        (elemWork s (slot s e i) e (slotChip s (slot s e i)) d).1)) e i fun x => { x with shadowed := false })
      (elemDispute s e i d lanes shadows false) := by
  obtain ⟨hfree, hrange, hwords⟩ := elementEntry_of_ready hready
  simp [shadowMismatch, hfree, hrange, hwords, hbad, Nat.not_le.mpr hgroup, hbar, h, hi]

end Shadow

/-- An element engine that is free stands on one of the 16 engines. -/
theorem lt_of_elementFree (h : elementFree s e i = true) : e < 16 := by
  simp only [elementFree, slotFree, slotRuns, Bool.and_eq_true, decide_eq_true_eq] at h
  tauto

theorem exec_passFault_shadow (he : e < 16) (group : Nat) (lanes shadows : List (Nat × Nat)) :
    exec (.passFault e (.shadow i group lanes shadows)) s = .next (shadowMismatch s e i group lanes shadows) := by
  change execPassFault e (.shadow i group lanes shadows) s = _
  simp [execPassFault, Nat.not_le.mpr he]

theorem exec_engineHang (he : e < 16) {r : PassRun} (hpass : (engine s e).pass = some r) :
    exec (.engineHang e) s = .next (countReset (resetUnit (discardPass s e r) e) e 2) := by
  change execEngineHang e s = _
  simp [execEngineHang, hpass, Nat.not_le.mpr he]

end Sys2Proof.Machine

namespace Sys2Proof

open Machine

/-- Settles O9: a tick or a choice leads to `startPass`, whose pass enters the array behind those in flight. -/
theorem passesStart : Obligations.PassesStart := by
  unfold Obligations.PassesStart
  refine ⟨?tenant, ?lease, ?back, ?radio, ?free, ?enters, ?stops⟩
  case tenant =>
    intro e i p n d s hnext hpaced hstops hi hok hlease hback
    have hne : i ≠ 4 := by omega
    obtain ⟨hlanded, hlate⟩ := passTick_tenant (pacedOk_tenant hnext hpaced hstops hne hok hlease) hne hback
    exact ⟨congrArg _ hlanded, congrArg _ hlate⟩
  case lease =>
    intro e s hnext hpaced hstops hleased hruns
    exact congrArg _ (passTick_lease (pacedOk_lease hnext hpaced hstops hleased hruns))
  case back => exact fun e i b s hi hback => congrArg _ (passTick_back hi hback b)
  case radio =>
    intro n s hn hclass
    refine ⟨exec_radioTaskTick hn hclass true, _, exec_radioTaskTick hn hclass false, ?_, fun m hm => ?_⟩
    · simp [operandWait]
    · simp [operandWait, hm]
  case free =>
    exact fun e i beats p n d s hnext he hstops hchosen hbeats hlease =>
      exec_freePassStart hnext he hstops hchosen hbeats hlease
  case enters =>
    intro e i p n d s hnext hinside hawake
    obtain ⟨hlist, hactive⟩ := engine_startPass_of_awake hnext hinside hawake
    have hslot := slot_startPass_of_awake hnext hinside hawake
    exact ⟨hlist, fun hp => hactive.trans (if_neg hp), congrArg Slot.credit hslot, congrArg Slot.lastStart hslot,
      congrArg Slot.run hslot, startPass_of_awake_frame hnext hinside hawake⟩
  case stops =>
    exact fun e i p n d s hnext => ⟨fun hinside hawake => startPass_of_asleep hnext hinside hawake,
      fun hinside => startPass_of_outside hnext hinside⟩

/-- Settles O10: each row works on the pass in flight, which a fault discards with what its context has behind it. -/
theorem passesEnd : Obligations.PassesEnd := by
  unfold Obligations.PassesEnd
  refine ⟨?boundary, ?discard, ?unit, ?unitAgain, ?shadow, ?shadowAgain, ?hang⟩
  case boundary => exact fun e obs p s he hpass => exec_passBoundary he hpass obs
  case discard =>
    intro e p k s he hpass hk
    obtain ⟨hlist, hreruns⟩ := engine_discardPass hpass
    have hslot := slot_discardPass s e p
    exact ⟨_, exec_passFault_discards he hpass hk, hlist, hreruns, congrArg Slot.rerunOwed hslot,
      congrArg Slot.run hslot, discardPass_frame s e p⟩
  case unit =>
    intro e p es s he hpass hfirst
    exact (exec_passFault_duplicated he hpass es).trans (congrArg _ (pathMismatch_first hfirst es))
  case unitAgain =>
    intro e p es s he hpass hagain
    exact (exec_passFault_duplicated he hpass es).trans (congrArg _ (pathMismatch_again hagain es))
  case shadow =>
    intro e i group d lanes shadows s hready hbad hgroup hbar hfirst
    exact (exec_passFault_shadow (lt_of_elementFree hready.1) group lanes shadows).trans
      (congrArg _ (shadowMismatch_first lanes shadows hready hbad hgroup hbar hfirst))
  case shadowAgain =>
    intro e i group d lanes shadows s hready hi hbad hgroup hbar hagain
    exact (exec_passFault_shadow (lt_of_elementFree hready.1) group lanes shadows).trans
      (congrArg _ (shadowMismatch_again lanes shadows hready hbad hgroup hbar hi hagain))
  case hang => exact fun e p s he hpass => exec_engineHang he hpass

end Sys2Proof
end

section
/-! PROOFS. Slot jobs, reports and the slot boundary (R46, R85, R235–R242, R251, R252, R286, R289), and the fields of EVM
and SINR as the logarithm that R242 names. -/

namespace Sys2Proof.Machine

variable {s : State} {d : Nat}

/-! ### 10 log10 of a ratio (R85, R242) -/

/-- The steps of 0.1 dB that a ratio reaches, rounded half-up. -/
noncomputable def dbSteps (a b : Nat) : Int := ⌊10 * (10 * Real.logb 10 ((a : ℝ) / (b : ℝ))) + 1 / 2⌋

/-- 10 to a power is at most the 200th power of a ratio when the power is at most 200 logarithms of the ratio. -/
theorem zpow_mul_le_iff {a b : Nat} (ha : 0 < a) (hb : 0 < b) (e : Int) :
    (b : ℝ) ^ 200 * (10 : ℝ) ^ e ≤ (a : ℝ) ^ 200 ↔ (e : ℝ) ≤ 200 * Real.logb 10 ((a : ℝ) / b) := by
  have ha' : (0 : ℝ) < a := Nat.cast_pos.2 ha
  have hb' : (0 : ℝ) < b := Nat.cast_pos.2 hb
  have hpow : (200 : ℝ) * Real.logb 10 ((a : ℝ) / b) = Real.logb 10 (((a : ℝ) / b) ^ 200) := by
    rw [Real.logb_pow]
    norm_num
  rw [hpow, Real.le_logb_iff_rpow_le (by norm_num) (by positivity), Real.rpow_intCast, div_pow,
    le_div_iff₀ (by positivity), mul_comm]

theorem reachesDb_iff {a b : Nat} (ha : 0 < a) (hb : 0 < b) (n : Int) : reachesDb n a b = true ↔ n ≤ dbSteps a b := by
  have hreal : reachesDb n a b = true ↔ (b : ℝ) ^ 200 * (10 : ℝ) ^ (2 * n - 1) ≤ (a : ℝ) ^ 200 := by
    unfold reachesDb
    dsimp only
    by_cases he : 2 * n - 1 < 0
    · have habs : (2 * n - 1) = -((2 * n - 1).natAbs : Int) := by omega
      rw [if_pos he, decide_eq_true_eq, habs, zpow_neg, zpow_natCast, ← div_eq_mul_inv, div_le_iff₀ (by positivity),
        Int.natAbs_neg, Int.natAbs_natCast]
      exact_mod_cast Iff.rfl
    · have habs : (2 * n - 1) = ((2 * n - 1).natAbs : Int) := by omega
      rw [if_neg he, decide_eq_true_eq, habs, zpow_natCast, Int.natAbs_natCast]
      exact_mod_cast Iff.rfl
  rw [hreal, zpow_mul_le_iff ha hb, dbSteps, Int.le_floor]
  push_cast
  constructor <;> intro h <;> linarith

/-- How many of the first steps above a lower end a value reaches. -/
theorem length_filter_reached (low F : Int) (N : Nat) :
    ((List.range N).filter fun i : Nat => decide (low + i + 1 ≤ F)).length = min N (F - low).toNat := by
  induction N with
  | zero => simp
  | succ N ih =>
    rw [List.range_succ, List.filter_append, List.length_append, ih]
    by_cases h : low + N + 1 ≤ F
    · simp only [h, decide_true, List.filter_cons_of_pos, List.filter_nil, List.length_singleton]
      omega
    · simp only [h, decide_false, Bool.false_eq_true, not_false_eq_true, List.filter_cons_of_neg, List.filter_nil,
        List.length_nil]
      omega

theorem dbTenths_eq {low high : Int} {a b : Nat} (hle : low ≤ high) (ha : 0 < a) (hb : 0 < b) :
    dbTenths low high a b = max low (min high (dbSteps a b)) := by
  have hreach : (fun i : Nat => reachesDb (low + i + 1) a b) = fun i : Nat => decide (low + i + 1 ≤ dbSteps a b) :=
    funext fun i => by rw [Bool.eq_iff_iff, reachesDb_iff ha hb, decide_eq_true_eq]
  rw [dbTenths, hreach, length_filter_reached]
  omega

/-! ### The slot-job ring and the report ring (R235, R239, R240) -/

theorem exec_eqpSjTailWrite_taken {v : W32} (hd : d ≤ 1) (hfits : fld v 11 0 ≤ (radDie s d).sj.entries)
    (hpasses : ((radDie s d).sj.tail + ((radDie s d).sj.entries + 1) - (radDie s d).sj.head) %
        ((radDie s d).sj.entries + 1) +
      (fld v 11 0 + ((radDie s d).sj.entries + 1) - (radDie s d).sj.tail) % ((radDie s d).sj.entries + 1) <
        (radDie s d).sj.entries + 1) :
    let n := (radDie s d).sj.entries + 1
    let a := modRadDie s d fun x => { x with
      sj := { x.sj with tail := fld v 11 0 }
      arrivals := x.arrivals ++ List.replicate ((fld v 11 0 + n - (radDie s d).sj.tail) % n) (networkTime s) }
    exec (.eqpSjTailWrite d v) s = .next (if (radDie s d).fenced then a else fetchSlotJobs d n a) := by
  have hn : ¬ (radDie s d).sj.entries + 1 ≤ fld v 11 0 := by omega
  change execEqpSjTailWrite d v s = _
  simp [execEqpSjTailWrite, Nat.not_lt.mpr hd, hn, Nat.not_le.mpr hpasses]

theorem exec_eqpSjTailWrite_ignored {v : W32} (hd : d ≤ 1) (hpast : (radDie s d).sj.entries < fld v 11 0)
    (hcount : (radDie s d).overrun < 0x7FFF) :
    exec (.eqpSjTailWrite d v) s = .next (setRadDie s d
      { radDie s d with overrun := (radDie s d).overrun + 1 }) := by
  change execEqpSjTailWrite d v s = _
  simp [execEqpSjTailWrite, Nat.not_lt.mpr hd, Nat.succ_le_of_lt hpast, modRadDie, hcount]

theorem exec_eqpRptHeadWrite {v : W32} (hd : d ≤ 1) (hfits : fld v 11 0 ≤ (radDie s d).rpt.entries) :
    exec (.eqpRptHeadWrite d v) s = .next (drainReports d (radDie s d).buffer.length
      (modRadDie s d fun x => { x with rpt := { x.rpt with head := fld v 11 0 } })) := by
  change execEqpRptHeadWrite d v s = _
  simp [execEqpRptHeadWrite, Nat.not_lt.mpr hd, Nat.not_lt.mpr hfits]

/-! ### The slot boundary (R46, R251, R252, R286, R289) -/

/-- The units in service are taken up, and cells are shed where their points are too many. -/
def unitsShed (s : State) (d : Nat) : State :=
  if pointsUsed (takeUnits s d) d > pointsMax (takeUnits s d) d && (radDie (takeUnits s d) d).shed.isNone then
    modRadDie (takeUnits s d) d fun x => { x with shed := some (pointsMax s d) }
  else takeUnits s d

/-- The die's pools are empty, and what it has seen of past frames is dropped. -/
def slotOpens (s : State) (d : Nat) : State :=
  modRadDie (unitsShed s d) d fun x => { x with
    pools := []
    seen := x.seen.filter fun k => frameNow (unitsShed s d) - 2 ≤ k.2.1
    lateUl := x.lateUl.filter fun k => frameNow (unitsShed s d) - 2 ≤ k.2.1 }

/-- IQ of frames that have passed is dropped. -/
def dropIq (s : State) (old : Nat) : State :=
  { s with rad := { s.rad with iq := s.rad.iq.filter fun r => old ≤ r.frame } }

@[simp] theorem modRadDie_cells (s : State) (d : Nat) (f : RadDie → RadDie) :
    (modRadDie s d f).rad.cells = s.rad.cells := rfl

@[simp] theorem modRadDie_cores (s : State) (d : Nat) (f : RadDie → RadDie) :
    (modRadDie s d f).rad.cores = s.rad.cores := rfl

theorem takePlan_frame (s : State) (d : Nat) (p : SlotPlan) :
    (takePlan s d p).rad.cells = s.rad.cells ∧ (takePlan s d p).rad.cores = s.rad.cores ∧
      (takePlan s d p).pkg = s.pkg := by
  unfold takePlan
  split <;> simp

theorem slotOpens_frame (s : State) (d : Nat) :
    (slotOpens s d).rad.cells = s.rad.cells ∧ (slotOpens s d).rad.cores = s.rad.cores ∧
      (slotOpens s d).pkg = s.pkg ∧ (slotOpens s d).tim = s.tim := by
  unfold slotOpens unitsShed
  split <;> simp [takeUnits]

theorem slotNow_slotOpens (s : State) (d : Nat) : slotNow (slotOpens s d) = slotNow s := by
  obtain ⟨-, -, -, htim⟩ := slotOpens_frame s d
  simp only [slotNow, networkNs, networkTime, now, htim]

theorem radDie_slotOpens (s : State) (d : Nat) :
    let x := radDie (slotOpens s d) d
    x.pools = [] ∧ x.cores = freeCores s d ∧ x.plan = (radDie s d).plan ∧ x.sc = (availUnits s d).1 ∧
      x.dec = (availUnits s d).2.1 ∧ x.enc = (availUnits s d).2.2 ∧ x.jobs = (radDie s d).jobs := by
  unfold slotOpens unitsShed
  split <;> simp [takeUnits]

/-- The state at the end of the slot boundary of a die without cells. -/
def slotEnds (s : State) (d : Nat) (p : SlotPlan) : State :=
  dropIq (takePlan (slotOpens s d) d p) (frameNow (unitsShed s d) - 2)

theorem slotEnds_frame (s : State) (d : Nat) (p : SlotPlan) :
    (slotEnds s d p).rad.cells = s.rad.cells ∧ (slotEnds s d p).rad.cores = s.rad.cores ∧
      (slotEnds s d p).pkg = s.pkg := by
  obtain ⟨hcells, hcores, hpkg, -⟩ := slotOpens_frame s d
  obtain ⟨kcells, kcores, kpkg⟩ := takePlan_frame (slotOpens s d) d p
  exact ⟨kcells.trans hcells, kcores.trans hcores, kpkg.trans hpkg⟩

theorem exec_slotBoundary_of_no_cells (hd : d ≤ 1) (hcells : s.rad.cells = []) (p : SlotPlan) :
    exec (.slotBoundary d [] [] p []) s = .next (slotEnds s d p) := by
  have hnone : (slotEnds s d p).rad.cells = [] := (slotEnds_frame s d p).1.trans hcells
  have hexec : exec (.slotBoundary d [] [] p []) s = .next (if d > 1 then s else
      ((slotEnds s d p).rad.cells.map (·.1)).foldl
        (fun t c => planCell t d ((slotNow (slotEnds s d p) + 2) / 20) ((slotNow (slotEnds s d p) + 2) % 20) [] c)
        (slotEnds s d p)) := rfl
  rw [hexec, if_neg (Nat.not_lt.mpr hd), hnone]
  rfl

/-- The die at the end of the boundary: the plan that was taken stands, and all else is as the boundary opened. -/
theorem radDie_slotEnds (s : State) (d : Nat) (p : SlotPlan) :
    radDie (slotEnds s d p) d = radDie (takePlan (slotOpens s d) d p) d := rfl

theorem takePlan_of_good {p : SlotPlan} (h : slotPlanOk s d p = true) : takePlan s d p = modRadDie s d fun x => { x with
    plan := p.lists.foldl (fun t e => tmod [] t e.1 fun l => sortBy (fun a b => !b.before a)
      (l ++ e.2.map fun y => { slot := slotNow s, seq := y.1, core := y.2 })) x.plan } := by
  simp [takePlan, h]

theorem takePlan_of_bad {p : SlotPlan} (h : slotPlanOk s d p = false) : takePlan s d p = s := by
  simp [takePlan, h]

end Sys2Proof.Machine

namespace Sys2Proof

open Machine

/-- Settles O32: the writes by their conditions, the boundary by what it leaves of the die, and the field of a ratio by
counting the steps that its logarithm reaches. -/
theorem slotJobsRun : Obligations.SlotJobsRun := by
  unfold Obligations.SlotJobsRun
  refine ⟨?db, ?taken, ?ignored, ?reports, ?empty, ?boundary, ?none⟩
  case db => exact fun low high a b hle ha hb => dbTenths_eq hle ha hb
  case taken => exact fun d v s hd hfits hpasses => exec_eqpSjTailWrite_taken hd hfits hpasses
  case ignored =>
    intro d v s hd hpast hcount
    exact ⟨_, exec_eqpSjTailWrite_ignored hd hpast hcount, by simp, rfl⟩
  case reports => exact fun d v s hd hfits => exec_eqpRptHeadWrite hd hfits
  case empty =>
    intro d v s hd hfits hbuffer
    refine ⟨_, exec_eqpRptHeadWrite hd hfits, ?_⟩
    rw [hbuffer]
    exact ⟨by simp [drainReports], rfl⟩
  case boundary =>
    intro d target l s hd hcells hshed hcores
    obtain ⟨hpools, hfree, hplan, hsc, hdec, henc, hjobs⟩ := radDie_slotOpens s d
    obtain ⟨-, hkept, hpkg⟩ := slotEnds_frame s d { lists := [(target, l)] }
    have hgood : slotPlanOk (slotOpens s d) d { lists := [(target, l)] } = true := by
      simpa [slotPlanOk, hfree] using fun k x h => hcores (k, x) h
    refine ⟨_, exec_slotBoundary_of_no_cells hd hcells _, ?_⟩
    beta_reduce
    rw [radDie_slotEnds, takePlan_of_good hgood, slotNow_slotOpens]
    simp [hpools, hfree, hplan, hsc, hdec, henc, hjobs, hkept, hpkg]
  case none =>
    intro d k b s hd hcells hbad
    obtain ⟨-, hfree, hplan, -⟩ := radDie_slotOpens s d
    have hnone : slotPlanOk (slotOpens s d) d { beats := [(k, b)] } = false := by
      rcases hbad with hb | hk
      · simp [slotPlanOk, hfree, Nat.not_le.mpr hb]
      · simp [slotPlanOk, hfree, hk]
    refine ⟨_, exec_slotBoundary_of_no_cells hd hcells _, ?_⟩
    beta_reduce
    rw [radDie_slotEnds, takePlan_of_bad hnone, hplan]

end Sys2Proof
end

section
/-! PROOFS. Step boundaries, holds, cadence releases and snapshot drains (R65, R177, R189–R200, R219): what the writes of
a step's descriptors leave alone, and where each row's guards let it run. -/

namespace Sys2Proof.Machine

variable {s : State} {h : Nat}

/-! ### A step's start leaves jobs and sleeves alone (R190) -/

/-- t has the jobs and the sleeves of s. -/
def SameJobs (s t : State) : Prop := t.jobs = s.jobs ∧ t.slv = s.slv

theorem SameJobs.foldl {β : Type} {f : State → β → State} (hf : ∀ s b, SameJobs s (f s b)) (l : List β) (s : State) :
    SameJobs s (l.foldl f s) :=
  List.foldlRecOn (motive := SameJobs s) l f ⟨rfl, rfl⟩ fun t h b _ =>
    ⟨(hf t b).1.trans h.1, (hf t b).2.trans h.2⟩

theorem sameJobs_markDirty (s : State) (a n : Nat) : SameJobs s (markDirty s a n) :=
  .foldl (f := fun s p =>
    { s with pkg := { s.pkg with owner := tmod 0 s.pkg.owner p fun w => w ||| (1 <<< 32) } }) (fun _ _ => ⟨rfl, rfl⟩) _ s

theorem sameJobs_windowWrite (s : State) (a : Nat) (bs : List Byte) : SameJobs s (windowWrite s a bs) :=
  have hm := sameJobs_markDirty (backInvalidate s a bs.length) a bs.length
  have hw := SameJobs.foldl
    (f := fun s (p : Nat × Nat × Nat) => physWrite s (windowKey s p.1) ((bs.drop p.2.1).take p.2.2))
    (fun _ _ => ⟨rfl, rfl⟩) (pageParts a bs.length) (markDirty (backInvalidate s a bs.length) a bs.length)
  ⟨hw.1.trans hm.1, hw.2.trans hm.2⟩

theorem sameJobs_fillRing (s : State) (r : Ring) (ds : List (List W64)) (size : Nat) :
    SameJobs s (fillRing s r ds size).1 :=
  List.foldlRecOn (motive := fun x : State × Ring => SameJobs s x.1) ds _ ⟨rfl, rfl⟩ fun x h d _ =>
    have hw := sameJobs_windowWrite x.1 (x.2.addr + size * x.2.tail) (bytesOf d)
    ⟨hw.1.trans h.1, hw.2.trans h.2⟩

@[simp] theorem fillRing_jobs (s : State) (r : Ring) (ds : List (List W64)) (size : Nat) :
    (fillRing s r ds size).1.jobs = s.jobs := (sameJobs_fillRing s r ds size).1

@[simp] theorem fillRing_slv (s : State) (r : Ring) (ds : List (List W64)) (size : Nat) :
    (fillRing s r ds size).1.slv = s.slv := (sameJobs_fillRing s r ds size).2

theorem sameJobs_startStep (s : State) (h : Nat) : SameJobs s (startStep s h) := by
  unfold startStep
  exact List.foldlRecOn (motive := SameJobs s) _ _ ⟨rfl, rfl⟩ fun t ht c _ => by
    obtain ⟨hj, hs⟩ := ht
    simp [SameJobs, hj, hs]

/-! ### The boundary of a plain job (R190) -/

/-- The job with its boundary noted. -/
def noteBoundary (s : State) (h : Nat) : State :=
  modJob ((job s h).ctxs.foldl (fun s c => modSlot s c.1 c.2 fun x => x.completes (now s)) s) h fun j => { j with
    boundary := none, lastBoundary := some j.step, ctr := { j.ctr with choices := j.ctr.choices.add 0xFFFFFFFF 0 } }

theorem sameJobs_completes (s : State) (cs : List (Nat × Nat)) :
    SameJobs s (cs.foldl (fun s c => modSlot s c.1 c.2 fun x => x.completes (now s)) s) :=
  .foldl (f := fun s c => modSlot s c.1 c.2 fun x => x.completes (now s)) (fun _ _ => ⟨rfl, rfl⟩) cs s

theorem job_noteBoundary (s : State) (h g : Nat) : job (noteBoundary s h) g = if g = h then { job s g with
    boundary := none, lastBoundary := some (job s g).step
    ctr := { (job s g).ctr with choices := (job s g).ctr.choices.add 0xFFFFFFFF 0 } } else job s g := by
  have hj : ∀ g, job ((job s h).ctxs.foldl (fun s c => modSlot s c.1 c.2 fun x => x.completes (now s)) s) g = job s g :=
    fun g => by simp only [job, (sameJobs_completes s _).1]
  simp only [noteBoundary, job_modJob, hj]

theorem slv_noteBoundary (s : State) (h : Nat) : (noteBoundary s h).slv = s.slv := (sameJobs_completes s _).2

theorem applyBoundary_of_plain (hpool : (job s h).tokenBytes = 0) (hrec : blkStepRecords (job s h).block = false)
    (hlast : lastStep (job s h) = false) (hcad : (job s h).cadence = none) :
    applyBoundary s h [] = leaveBoundary (noteBoundary s h) h false := by
  have hnote : lastStep (job (noteBoundary s h) h) = false := by
    rw [job_noteBoundary, if_pos rfl]
    exact hlast
  have hcad' : (job (noteBoundary s h) h).cadence = none := by
    rw [job_noteBoundary, if_pos rfl]
    exact hcad
  have hrec' : blkStepRecords (job (noteBoundary s h) h).block = false := by
    rw [job_noteBoundary, if_pos rfl]
    exact hrec
  have hrun : endRun (noteBoundary s h) h = noteBoundary s h := by simp only [endRun, hcad']
  have hdef : modJob ((job s h).ctxs.foldl (fun s c => modSlot s c.1 c.2 fun x => x.completes (now s)) s) h (fun j => { j with
    boundary := none, lastBoundary := some j.step, ctr := { j.ctr with choices := j.ctr.choices.add 0xFFFFFFFF 0 } }) =
      noteBoundary s h := rfl
  unfold applyBoundary applyPool
  rw [if_pos hpool]
  dsimp only
  rw [hdef, hnote]
  simp [hrun, hrec', postBoundary, postAll]

/-- A plain job leaves its boundary into its next step. -/
theorem leaveBoundary_of_plain (hst : (job s h).st = .running) (hsnap : (job s h).snap = none)
    (hcad : (job s h).cadence = none) (hsleeve : (sleeve s (job s h).owner).st = .active) :
    leaveBoundary s h false =
      startStep (modJob (modJob s h fun j => { j with unposted := [] }) h fun j => { j with step := j.step + 1 }) h := by
  have hdue : snapDue s h = false := by simp [snapDue, hsnap]
  have htake : takeSnapshot s h = s := by simp only [takeSnapshot, hsnap]
  have hjobs : ∀ t, job (startStep t h) h = job t h := fun t => by simp only [job, (sameJobs_startStep t h).1]
  have hslv : ∀ t k, sleeve (startStep t h) k = sleeve t k := fun t k => by simp only [sleeve, (sameJobs_startStep t h).2]
  unfold leaveBoundary
  simp [htake, hdue, hst, hcad, hsleeve, hjobs, hslv]

theorem job_leaveBoundary_of_plain (hst : (job s h).st = .running) (hsnap : (job s h).snap = none)
    (hcad : (job s h).cadence = none) (hsleeve : (sleeve s (job s h).owner).st = .active) (g : Nat) :
    job (leaveBoundary s h false) g =
      if g = h then { job s g with unposted := [], step := (job s g).step + 1 } else job s g := by
  have hjobs : ∀ t, job (startStep t h) g = job t g := fun t => by simp only [job, (sameJobs_startStep t h).1]
  rw [leaveBoundary_of_plain hst hsnap hcad hsleeve, hjobs]
  by_cases hg : g = h <;> simp [hg]

theorem slv_leaveBoundary_of_plain (hst : (job s h).st = .running) (hsnap : (job s h).snap = none)
    (hcad : (job s h).cadence = none) (hsleeve : (sleeve s (job s h).owner).st = .active) :
    (leaveBoundary s h false).slv = s.slv := by
  rw [leaveBoundary_of_plain hst hsnap hcad hsleeve]
  exact (sameJobs_startStep _ h).2

/-! ### STEP_BOUNDARY (R190) -/

section StepBoundary

variable {o : StepObs} (hst : (job s h).st = .running) (hcore : (job s h).core = none)
  (hfresh : (job s h).boundary = none) (hposted : (job s h).unposted = []) (hdrained : stepDrained s h = true)
  (hbarrier : (job s h).barrierStep = none) (hdone : chipsDone (job s h) o = true)
  (hrun : ∀ c, (job s h).cadence = some c → c.inProgress = true) (hchips : hdrChips (job s h).header = 1)

include hst hcore hfresh hposted hdrained hbarrier hdone hrun hchips

/-- A one-chip job whose step is drained runs its boundary, or is held before it while Tacor restarts. -/
theorem exec_stepBoundary_of_drained : exec (.stepBoundary h o) s = .next (if s.mgt.tacor != 1 then
      modJob (holdJob (leaveBarrier s h) h .tacorRestart) h fun j => { j with boundary := some o }
    else runBoundary (leaveBarrier s h) h o) := by
  have hcadence : (job s h).cadence.any (!·.inProgress) = false := by
    cases hc : (job s h).cadence with
    | none => rfl
    | some c => simp [hrun c hc]
  have hwaits : waitsBoundary s h = false := by simp [waitsBoundary, hchips]
  change execStepBoundary h o s = _
  simp [execStepBoundary, hst, hcore, hfresh, hposted, hdrained, hbarrier, hdone, hcadence, hwaits]

theorem exec_stepBoundary_held (htacor : s.mgt.tacor ≠ 1) : exec (.stepBoundary h o) s =
    .next (modJob (holdJob (leaveBarrier s h) h .tacorRestart) h fun j => { j with boundary := some o }) := by
  rw [exec_stepBoundary_of_drained hst hcore hfresh hposted hdrained hbarrier hdone hrun hchips]
  simp [htacor]

theorem exec_stepBoundary_runs (hmap : mapOfJob s h = none) (htacor : s.mgt.tacor = 1) :
    exec (.stepBoundary h o) s = .next (runBoundary s h o) := by
  rw [exec_stepBoundary_of_drained hst hcore hfresh hposted hdrained hbarrier hdone hrun hchips]
  simp [htacor, leaveBarrier, hmap]

end StepBoundary

theorem runBoundary_of_ok {o : StepObs} {r : GraphRun}
    (hecc : (job s h).tokenBytes = 0 ∨ eccHit s (ed0Key (poolFrame h) 0) 65536 = false)
    (hfree : boundaryBlocked s h = none) (hok : runStep s h o = .ok r) :
    runBoundary s h o = applyBoundary r.st h r.ended := by
  have hread : ((job s h).tokenBytes != 0 && eccHit s (ed0Key (poolFrame h) 0) 65536) = false := by
    rcases hecc with h0 | hc
    · simp [h0]
    · simp [hc]
  simp only [runBoundary, hread, hfree, hok, Bool.false_eq_true, if_false]

@[simp] theorem leaveBarrier_jobs (s : State) (h : Nat) : (leaveBarrier s h).jobs = s.jobs := by
  unfold leaveBarrier
  split <;> rfl

@[simp] theorem leaveBarrier_pkg (s : State) (h : Nat) : (leaveBarrier s h).pkg = s.pkg := by
  unfold leaveBarrier
  split <;> rfl

@[simp] theorem job_leaveBarrier (s : State) (h g : Nat) : job (leaveBarrier s h) g = job s g := by
  simp only [job, leaveBarrier_jobs]

theorem mem_holds_holdJob (s : State) (h : Nat) (c : HoldCause) : c ∈ (job (holdJob s h c) h).holds := by
  by_cases hc : c ∈ (job s h).holds <;> simp [holdJob, hc]

/-! ### JOB_HOLD_RELEASE, CADENCE_RELEASE and SNAPSHOT_DRAIN_DONE (R65, R189, R194, R195, R200) -/

theorem exec_jobHoldRelease_of_cleared (hst : (job s h).st = .held)
    (hclear : ∀ c ∈ (job s h).holds, holdCleared s (job s h) c = true) :
    exec (.jobHoldRelease h) s = .next (resumeJob s h) := by
  have hany : (job s h).holds.any (fun c => !holdCleared s (job s h) c) = false := by
    simpa using hclear
  change execJobHoldRelease h s = _
  simp [execJobHoldRelease, hst, hany]

theorem resumeJob_of_saved (hsaved : (job s h).saved ≠ []) :
    resumeJob s h = modJob s h fun j => { j with st := .waiting, holds := [] } := by
  have hset : (modJob s h fun j => { j with st := if j.saved.isEmpty then .running else .waiting, holds := [] }) =
      modJob s h fun j => { j with st := .waiting, holds := [] } := by
    simp [modJob, hsaved]
  rw [resumeJob, hset]
  simp

theorem resumeJob_of_no_saved (hsaved : (job s h).saved = []) :
    resumeJob s h = continueBoundary (modJob s h fun j => { j with st := .running, holds := [] }) h := by
  have hset : (modJob s h fun j => { j with st := if j.saved.isEmpty then .running else .waiting, holds := [] }) =
      modJob s h fun j => { j with st := .running, holds := [] } := by
    simp [modJob, hsaved]
  rw [resumeJob, hset]
  simp

/-- Why a release is skipped: a run in progress, a held job, a sleeve not ACTIVE, or a throttled die (R65, R194). -/
def releaseSkipped (s : State) (h : Nat) (c : Cadence) : Prop :=
  c.inProgress = true ∨ (job s h).st = .held ∨ (sleeve s (job s h).owner).st ≠ .active ∨
    ∃ x ∈ jobSlots s h, 2 ≤ (diePwr s (x.1 / 4)).level

section CadenceRelease

variable {c : Cadence} (hc : (job s h).cadence = some c) (hst : (job s h).st = .running ∨ (job s h).st = .held)
  (hdue : c.nextRelease ≤ now s)

include hc hst hdue

theorem exec_cadenceRelease_of_skipped (hskip : releaseSkipped s h c) : exec (.cadenceRelease h) s = .next
    (modSleeve (modJob s h fun j => { j with
        cadence := some { c with nextRelease := releaseAfter (blkPeriod (job s h).block) c.nextRelease }
        ctr := { j.ctr with misses := j.ctr.misses.add 0xFFFFFFFF 1 } }) (job s h).owner fun v => { v with
      acct := { v.acct with
        misses := Nat.min 0xFFFFFFFF (v.acct.misses + 1)
        sat := v.acct.sat || v.acct.misses == 0xFFFFFFFF } }) := by
  have hlive : ((job s h).st != .running && (job s h).st != .held) = false := by rcases hst with h | h <;> simp [h]
  have hskip' : (c.inProgress || ((jobSlots s h).any fun x => decide ((diePwr s (x.1 / 4)).level ≥ 2)) ||
      (job s h).st == .held || (sleeve s (job s h).owner).st != .active) = true := by
    simpa [releaseSkipped, or_assoc, or_comm, or_left_comm] using hskip
  change execCadenceRelease h s = _
  simp only [execCadenceRelease, hc, hlive, hskip', Nat.not_lt.mpr hdue]
  simp

theorem exec_cadenceRelease_of_runs (hrun : ¬ releaseSkipped s h c) : exec (.cadenceRelease h) s = .next
    (startStep (modJob s h fun j => { j with cadence := some { c with
      nextRelease := releaseAfter (blkPeriod j.block) c.nextRelease, inProgress := true, startRaw := now s } }) h) := by
  have hlive : ((job s h).st != .running && (job s h).st != .held) = false := by rcases hst with h | h <;> simp [h]
  have hrun' : (c.inProgress || ((jobSlots s h).any fun x => decide ((diePwr s (x.1 / 4)).level ≥ 2)) ||
      (job s h).st == .held || (sleeve s (job s h).owner).st != .active) = false := by
    rw [Bool.eq_false_iff]
    exact fun hskip => hrun (by simpa [releaseSkipped, or_assoc, or_comm, or_left_comm] using hskip)
  change execCadenceRelease h s = _
  simp only [execCadenceRelease, hc, hlive, hrun', Nat.not_lt.mpr hdue, decide_false, Bool.or_self, Bool.false_eq_true, if_false, modJob]

end CadenceRelease

/-- The status of a snapshot's record (R200). -/
def drainStatus : DrainResult → Status
  | .landed => .ok
  | .targetLost => .targetLost
  | .crcFailed => .checkFailed

theorem exec_snapshotDrainDone_of_taken {n : Snap} {step : Nat} {r : DrainResult} (hsnap : (job s h).snap = some n)
    (htaken : n.taken = some step) (hdone : r ≠ .landed ∨ snapTracks s h = false ∧ snapWaits s h = false) :
    exec (.snapshotDrainDone h r) s = .next (endPost (modJob s h fun j => { j with snap := none }) h
      (recWords (modJob s h fun j => { j with snap := none }) (job s h) h (job s h).gen 4 (statusCode (drainStatus r)) step 0
        0xFFFF 0 [])) := by
  have hgo : (r == .landed && (snapTracks s h || snapWaits s h)) = false := by
    rcases hdone with hr | ⟨ht, hw⟩
    · simp [hr]
    · simp [ht, hw]
  change execSnapshotDrainDone h r s = _
  simp only [execSnapshotDrainDone, hsnap, htaken, hgo, Bool.false_eq_true, if_false]
  cases r <;> rfl

end Sys2Proof.Machine

namespace Sys2Proof
open Machine Host

/-- Settles O20: each row's guards let it run as said, and a step's start writes its descriptors and no job or sleeve. -/
theorem jobsRun : Obligations.JobsRun := by
  unfold Obligations.JobsRun
  refine ⟨?runs, ?plain, ?held, ?release, ?cadence, ?skip, ?snapshot⟩
  case runs =>
    intro h o r s hst hcore hfresh hposted hdrained hbarrier hdone hrun hchips hmap htacor hecc hfree hok
    rw [exec_stepBoundary_runs hst hcore hfresh hposted hdrained hbarrier hdone hrun hchips hmap htacor,
      runBoundary_of_ok hecc hfree hok]
  case plain =>
    intro h s hst hpool hrec hlast hsnap hcad hsleeve
    have hn := job_noteBoundary s h
    have hslv := slv_noteBoundary s h
    have hnst : (job (noteBoundary s h) h).st = .running := by simp [hn, hst]
    have hnsnap : (job (noteBoundary s h) h).snap = none := by simp [hn, hsnap]
    have hncad : (job (noteBoundary s h) h).cadence = none := by simp [hn, hcad]
    have hnsleeve : (sleeve (noteBoundary s h) (job (noteBoundary s h) h).owner).st = .active := by
      simp only [hn, if_pos, sleeve, hslv]
      exact hsleeve
    dsimp only
    rw [applyBoundary_of_plain hpool hrec hlast hcad, slv_leaveBoundary_of_plain hnst hnsnap hncad hnsleeve, hslv]
    simp only [job_leaveBoundary_of_plain hnst hnsnap hncad hnsleeve, hn, if_pos, hst, true_and, and_true]
    exact fun g hg => by simp [hg]
  case held =>
    intro h o s hst hcore hfresh hposted hdrained hdone hbarrier hchips htacor hrun
    refine ⟨_, exec_stepBoundary_held hst hcore hfresh hposted hdrained hbarrier hdone hrun hchips (by simp [htacor]), ?_⟩
    have hcause := mem_holds_holdJob (leaveBarrier s h) h .tacorRestart
    simpa [holdJob] using hcause
  case release =>
    intro h s hst hclear a
    refine ⟨fun hsaved => ?_, fun hsaved hfresh hposted => ?_, fun o hsaved hkept => ?_, fun hsaved hfresh hleft => ?_⟩
    · rw [exec_jobHoldRelease_of_cleared hst hclear, resumeJob_of_saved hsaved]
    · rw [exec_jobHoldRelease_of_cleared hst hclear, resumeJob_of_no_saved hsaved]
      simp [a, continueBoundary, hfresh, hposted]
    · rw [exec_jobHoldRelease_of_cleared hst hclear, resumeJob_of_no_saved hsaved]
      simp [a, continueBoundary, hkept]
    · rw [exec_jobHoldRelease_of_cleared hst hclear, resumeJob_of_no_saved hsaved]
      simp [a, continueBoundary, hfresh, hleft]
  case cadence =>
    intro h c s hc hst hdue hidle hcool hsleeve
    refine exec_cadenceRelease_of_runs hc (.inl hst) hdue ?_
    rintro (hbusy | hheld | haway | ⟨x, hx, hhot⟩)
    · simp [hidle] at hbusy
    · simp [hst] at hheld
    · exact haway hsleeve
    · exact absurd (hcool x hx) (Nat.not_lt.mpr hhot)
  case skip =>
    intro h c s hc hst hdue hskip
    have hexec := exec_cadenceRelease_of_skipped hc hst hdue hskip
    refine ⟨_, hexec, ?_⟩
    simp only [job_modSleeve_frame, job_modJob, sleeve_modSleeve, sleeve_modJob_frame, if_pos, and_self]
  case snapshot =>
    intro h step n r s hsnap htaken hdone a
    rw [exec_snapshotDrainDone_of_taken hsnap htaken hdone]
    cases r <;> rfl

end Sys2Proof
end


section
/-! PROOFS. The trip and the state (R67, R457): the ball THERMTRIP_N and the phase, which hold a tripped device,
and that no operation of the package, the jobs, the fabric, the fronthaul or the life cycle touches them, file by file
of the model. A device reset keeps them where the ball is asserted. -/

namespace Sys2Proof.Machine

open Sys2Proof

/-- The two things that the trip holds: its ball and the reset. -/
def tripOf (s : State) : Bool × Phase := (s.pins.thermtrip, s.boot.phase)

@[simp] theorem tripOf_mk (a b c d e f g h) (bt : Boot) (pn : Pins) (i j k l m n o p) :
    tripOf ⟨a, b, c, d, e, f, g, h, bt, pn, i, j, k, l, m, n, o, p⟩ = (pn.thermtrip, bt.phase) := (rfl)

@[simp] theorem tripOf_fold (s : State) : (s.pins.thermtrip, s.boot.phase) = tripOf s := (rfl)

@[simp] theorem tripOf_ite (c : Prop) [Decidable c] (s t : State) :
    tripOf (if c then s else t) = if c then tripOf s else tripOf t := apply_ite ..

@[simp] theorem tripOf_foldl {β : Type} {f : State → β → State} (hf : ∀ s b, tripOf (f s b) = tripOf s)
    (l : List β) (s : State) : tripOf (l.foldl f s) = tripOf s := by
  induction l generalizing s with
  | nil => rfl
  | cons b l ih => exact (ih _).trans (hf s b)

@[simp] theorem tripOf_elim {α : Type} (o : Option α) (s : State) (f : α → State) (hf : ∀ a, tripOf (f a) = tripOf s) :
    tripOf (o.elim s f) = tripOf s := by
  cases o with
  | none => rfl
  | some a => exact hf a

@[simp] theorem afterOf_next (s t : State) : afterOf (.next t) s = t := rfl

/-! ### Sys2Proof/Machine/Ops.lean -/

@[simp] theorem tripOf_setUnit (s : State) (u : Nat) (v : UnitSt) : tripOf (setUnit s u v) = tripOf s := by
  simp [setUnit]

@[simp] theorem tripOf_modUnit (s : State) (u : Nat) (f : UnitSt → UnitSt) : tripOf (modUnit s u f) = tripOf s := by
  simp [modUnit]

@[simp] theorem tripOf_setEngine (s : State) (e : Nat) (v : Engine) : tripOf (setEngine s e v) = tripOf s := by
  simp [setEngine]

@[simp] theorem tripOf_modEngine (s : State) (e : Nat) (f : Engine → Engine) : tripOf (modEngine s e f) = tripOf s := by
  simp [modEngine]

@[simp] theorem tripOf_setSlot (s : State) (e i : Nat) (v : Slot) : tripOf (setSlot s e i v) = tripOf s := by
  simp [setSlot]

@[simp] theorem tripOf_modSlot (s : State) (e i : Nat) (f : Slot → Slot) : tripOf (modSlot s e i f) = tripOf s := by
  simp [modSlot]

@[simp] theorem tripOf_setJob (s : State) (h : Nat) (v : Job) : tripOf (setJob s h v) = tripOf s := by
  simp [setJob]

@[simp] theorem tripOf_modJob (s : State) (h : Nat) (f : Job → Job) : tripOf (modJob s h f) = tripOf s := by
  simp [modJob]

@[simp] theorem tripOf_setSleeve (s : State) (k : Nat) (v : Sleeve) : tripOf (setSleeve s k v) = tripOf s := by
  simp [setSleeve]

@[simp] theorem tripOf_modSleeve (s : State) (k : Nat) (f : Sleeve → Sleeve) : tripOf (modSleeve s k f) = tripOf s := by
  simp [modSleeve]

@[simp] theorem tripOf_setDomain (s : State) (n : Nat) (v : Domain) : tripOf (setDomain s n v) = tripOf s := by
  simp [setDomain]

@[simp] theorem tripOf_modDomain (s : State) (n : Nat) (f : Domain → Domain) : tripOf (modDomain s n f) = tripOf s := by
  simp [modDomain]

@[simp] theorem tripOf_setDiePwr (s : State) (d : Nat) (v : DiePwr) : tripOf (setDiePwr s d v) = tripOf s := by
  simp [setDiePwr]

@[simp] theorem tripOf_setMslot (s : State) (w i : Nat) (v : MSlot) : tripOf (setMslot s w i v) = tripOf s := by
  simp [setMslot]

@[simp] theorem tripOf_setHostCore (s : State) (k : Nat) (v : HostCore) : tripOf (setHostCore s k v) = tripOf s := by
  simp [setHostCore]

@[simp] theorem tripOf_setSigCore (s : State) (k : Nat) (v : SigCore) : tripOf (setSigCore s k v) = tripOf s := by
  simp [setSigCore]

@[simp] theorem tripOf_modSigCore (s : State) (k : Nat) (f : SigCore → SigCore) :
    tripOf (modSigCore s k f) = tripOf s := by
  simp [modSigCore]

@[simp] theorem tripOf_emit (s : State) (o : Out) : tripOf (emit s o) = tripOf s := by
  simp [emit]

@[simp] theorem tripOf_takeFree (s : State) (site : Nat) : tripOf (takeFree s site).2 = tripOf s := (rfl)

@[simp] theorem tripOf_physWrite (s : State) (key : Nat) (bytes : List Byte) :
    tripOf (physWrite s key bytes) = tripOf s := by
  simp [physWrite]

@[simp] theorem tripOf_physZero (s : State) (key n : Nat) : tripOf (physZero s key n) = tripOf s := by
  simp [physZero]

@[simp] theorem tripOf_physCopy (s : State) (dst src n : Nat) : tripOf (physCopy s dst src n) = tripOf s := by
  simp [physCopy]

@[simp] theorem tripOf_setOwn (s : State) (page : Nat) (w : W64) : tripOf (setOwn s page w) = tripOf s := by
  simp [setOwn]

@[simp] theorem tripOf_backInvalidate (s : State) (addr len : Nat) : tripOf (backInvalidate s addr len) = tripOf s := by
  simp [backInvalidate]

@[simp] theorem tripOf_markDirty (s : State) (addr len : Nat) : tripOf (markDirty s addr len) = tripOf s := by
  simp [markDirty]

@[simp] theorem tripOf_windowWrite (s : State) (addr : Nat) (bytes : List Byte) :
    tripOf (windowWrite s addr bytes) = tripOf s := by
  simp [windowWrite]

theorem tripOf_devWrite {s t : State} {i : Issuer} {k : Kind} {a : Nat} {bs : List Byte}
    (h : devWrite s i k a bs = .ok t) : tripOf t = tripOf s := by
  unfold devWrite at h
  split at h
  · cases h
  · split at h
    · cases h
    · cases h
      simp

@[simp] theorem tripOf_park (s : State) (addr len : Nat) (w : Waiter) : tripOf (park s addr len w) = tripOf s := by
  simp [park]

@[simp] theorem tripOf_raise (s : State) (e : ErrEvent) : tripOf (raise s e) = tripOf s := by
  simp [raise]

@[simp] theorem tripOf_msix (s : State) (v : Nat) : tripOf (msix s v) = tripOf s := by
  simp [msix]

@[simp] theorem tripOf_postEvent (s : State) (kind status sl : Nat) (detail : List W64) :
    tripOf (postEvent s kind status sl detail) = tripOf s := by
  simp [postEvent]

@[simp] theorem tripOf_setDicSrc (s : State) (n : Nat) (v : DicSrc) : tripOf (setDicSrc s n v) = tripOf s := by
  simp [setDicSrc]

@[simp] theorem tripOf_setDicCore (s : State) (t : Nat) (v : DicCore) : tripOf (setDicCore s t v) = tripOf s := by
  simp [setDicCore]

@[simp] theorem tripOf_dicDrop (s : State) (isDenied : Bool) : tripOf (dicDrop s isDenied) = tripOf s := by
  simp [dicDrop]

@[simp] theorem tripOf_dicMessage (s : State) (sl value : Nat) : tripOf (dicMessage s sl value) = tripOf s := by
  simp [dicMessage]

@[simp] theorem tripOf_setBitmapWord (s : State) (v : Sleeve) (i : Nat) (w : W64) :
    tripOf (setBitmapWord s v i w) = tripOf s := by
  unfold setBitmapWord
  split <;> simp

@[simp] theorem tripOf_markHostDirty (s : State) (k addr len : Nat) :
    tripOf (markHostDirty s k addr len) = tripOf s := by
  simp [markHostDirty]

@[simp] theorem tripOf_hostWrite (s : State) (k addr : Nat) (bytes : List Byte) :
    tripOf (hostWrite s k addr bytes) = tripOf s := by
  simp [hostWrite]

@[simp] theorem tripOf_countHost (s : State) (k n : Nat) : tripOf (countHost s k n) = tripOf s := by
  simp [countHost]

@[simp] theorem tripOf_hostRead (s : State) (k addr n : Nat) : tripOf (hostRead s k addr n) = tripOf s := by
  simp [hostRead]

@[simp] theorem tripOf_queueFault (s : State) (k : Nat) : tripOf (queueFault s k) = tripOf s := by
  simp [queueFault]

@[simp] theorem tripOf_postFault (s : State) (k : Nat) (record : List W64) :
    tripOf (postFault s k record) = tripOf s := by
  simp [postFault]

@[simp] theorem tripOf_postCq (s : State) (k tag status : Nat) (result : List W64) :
    tripOf (postCq s k tag status result) = tripOf s := by
  simp [postCq]

/-! ### Sys2Proof/Machine/Chain.lean -/

@[simp] theorem tripOf_partWrite (s : State) (x : Slot) (e off : Nat) (bytes : List Byte) :
    tripOf (partWrite s x e off bytes) = tripOf s := by
  simp [partWrite]

@[simp] theorem tripOf_writeAnchor (s : State) (x : Slot) (e : Nat) (d : List W64) (m n : Nat) (a : AnchorWord) :
    tripOf (writeAnchor s x e d m n a) = tripOf s := by
  simp [writeAnchor]

@[simp] theorem tripOf_setFed (s : State) (x : Slot) (e m : Nat) : tripOf (setFed s x e m) = tripOf s := by
  simp [setFed]

@[simp] theorem tripOf_scalePass (s : State) (x : Slot) (e : Nat) (d : List W64) (next : Nat) (isNew : Bool) :
    tripOf (scalePass s x e d next isNew) = tripOf s := by
  simp [scalePass]

@[simp] theorem tripOf_classify (s : State) (x : Slot) (e : Nat) (d : List W64) :
    tripOf (classify s x e d).1 = tripOf s :=
  List.foldlRecOn (motive := fun y : State × Nat => tripOf y.1 = tripOf s) (outputs d) _ rfl fun y h mn _ => by
    dsimp only
    split
    · split <;> simp [h]
    · simp [h]

@[simp] theorem tripOf_anchorPass (s : State) (x : Slot) (e : Nat) (d : List W64) (tile : Tbl Byte) (t : Nat) :
    tripOf (anchorPass s x e d tile t) = tripOf s := by
  refine tripOf_foldl (fun s mn => ?_) _ s
  dsimp only
  split
  · rfl
  · split <;> simp

@[simp] theorem tripOf_productOut (r : PassRule) (m n : Nat) (fed : Bool) (o : PassOut) :
    tripOf (productOut r m n fed o).st = tripOf o.st := by
  unfold productOut
  dsimp only
  split
  · simp
  · simp

@[simp] theorem tripOf_productPass (s : State) (r : PassRule) : tripOf (productPass s r).st = tripOf s :=
  List.foldlRecOn (motive := fun o : PassOut => tripOf o.st = tripOf s) (List.range (cRows r.d)) _ rfl fun o h m _ => by
    have hrow : ∀ (fed : Bool) (l : List Nat) (o : PassOut),
        tripOf (l.foldl (fun o n => productOut r m n fed o) o).st = tripOf o.st := fun fed l o =>
      List.foldlRecOn (motive := fun p : PassOut => tripOf p.st = tripOf o.st) l _ rfl fun p hp n _ => by simp [hp]
    dsimp only
    split
    · split <;> simp [hrow, h]
    · split <;> simp [hrow, h]

/-! ### Sys2Proof/Machine/Elements.lean -/

@[simp] theorem tripOf_putWrites (s : State) (x : Slot) (e : Nat) (ws : Writes) :
    tripOf (putWrites s x e ws) = tripOf s := by
  simp [putWrites]

/-! ### Sys2Proof/Machine/Domains.lean -/

@[simp] theorem tripOf_domainBoundary (s : State) (n : Nat) : tripOf (domainBoundary s n) = tripOf s := by
  simp [domainBoundary]

@[simp] theorem tripOf_wakeEngine (s : State) (e : Nat) : tripOf (wakeEngine s e) = tripOf s := by
  simp [wakeEngine]

@[simp] theorem tripOf_releaseSlot (s : State) (c : Nat × Nat) : tripOf (releaseSlot s c) = tripOf s := by
  simp [releaseSlot]

@[simp] theorem tripOf_riseIfHeld (s : State) (n : Nat) : tripOf (riseIfHeld s n) = tripOf s := by
  simp [riseIfHeld]

@[simp] theorem tripOf_takeThrottle (s : State) (n : Nat) : tripOf (takeThrottle s n) = tripOf s := by
  unfold takeThrottle
  (repeat' split) <;> simp

@[simp] theorem tripOf_taskBoundary (s : State) (n : Nat) : tripOf (taskBoundary s n) = tripOf s := by
  simp [taskBoundary]

@[simp] theorem tripOf_noteReferees (s : State) : tripOf (noteReferees s) = tripOf s := by
  simp [noteReferees]

/-! ### Sys2Proof/Machine/RadioOps.lean -/

@[simp] theorem tripOf_setCell (s : State) (c : Nat) (v : Cell) : tripOf (setCell s c v) = tripOf s := by
  simp [setCell]

@[simp] theorem tripOf_modCell (s : State) (c : Nat) (f : Cell → Cell) : tripOf (modCell s c f) = tripOf s := by
  simp [modCell]

@[simp] theorem tripOf_setRadDie (s : State) (d : Nat) (v : RadDie) : tripOf (setRadDie s d v) = tripOf s := by
  simp [setRadDie]

@[simp] theorem tripOf_modRadDie (s : State) (d : Nat) (f : RadDie → RadDie) : tripOf (modRadDie s d f) = tripOf s := by
  simp [modRadDie]

@[simp] theorem tripOf_takeUnits (s : State) (d : Nat) : tripOf (takeUnits s d) = tripOf s := by
  simp [takeUnits]

@[simp] theorem tripOf_stopCell (s : State) (c : Nat) : tripOf (stopCell s c) = tripOf s := by
  simp [stopCell]

@[simp] theorem tripOf_capacityLost (s : State) (d before after : Nat) :
    tripOf (capacityLost s d before after) = tripOf s := by
  simp [capacityLost]

@[simp] theorem tripOf_stopCells (s : State) (p : Cell → Bool) : tripOf (stopCells s p) = tripOf s := by
  simp [stopCells]

@[simp] theorem tripOf_radioFenced (s : State) (d : Nat) : tripOf (radioFenced s d) = tripOf s := by
  simp [radioFenced]

@[simp] theorem tripOf_shedCells (d fuel : Nat) (s : State) : tripOf (shedCells d fuel s) = tripOf s := by
  induction fuel generalizing s with
  | zero => rfl
  | succ fuel ih =>
    unfold shedCells
    split
    · rfl
    · split
      · simp [ih]
      · rfl

@[simp] theorem tripOf_writeReport (s : State) (d : Nat) (words : List W64) :
    tripOf (writeReport s d words) = tripOf s := by
  fun_induction writeReport s d words with
  | case1 s w0 w1 w2 w3 rest r s' ih => simp [ih, s']
  | case2 => rfl

@[simp] theorem tripOf_loseReport (s : State) (d : Nat) : tripOf (loseReport s d) = tripOf s := by
  simp [loseReport]

/-- The state that a report's turn leaves. -/
def ReportTurn.st : ReportTurn → State
  | .done s => s
  | .stays s => s

@[simp] theorem tripOf_tryReport (s : State) (d : Nat) (words : List W64) :
    tripOf (tryReport s d words).st = tripOf s := by
  unfold tryReport
  dsimp only
  split
  · rfl
  · split
    · simp [ReportTurn.st]
    · simp [ReportTurn.st]
    · simp [ReportTurn.st]

theorem tripOf_of_done {s t : State} {d : Nat} {words : List W64} (h : tryReport s d words = .done t) :
    tripOf t = tripOf s := by
  simpa [h, ReportTurn.st] using tripOf_tryReport s d words

theorem tripOf_of_stays {s t : State} {d : Nat} {words : List W64} (h : tryReport s d words = .stays t) :
    tripOf t = tripOf s := by
  simpa [h, ReportTurn.st] using tripOf_tryReport s d words

@[simp] theorem tripOf_bufferReport (s : State) (d : Nat) (words : List W64) :
    tripOf (bufferReport s d words) = tripOf s := by
  simp [bufferReport]

@[simp] theorem tripOf_putReport (s : State) (d : Nat) (words : List W64) :
    tripOf (putReport s d words) = tripOf s := by
  unfold putReport
  split
  · simp
  · split
    · next h => exact tripOf_of_done h
    · next h => simp [tripOf_of_stays h]

@[simp] theorem tripOf_drainReports (d fuel : Nat) (s : State) : tripOf (drainReports d fuel s) = tripOf s := by
  induction fuel generalizing s with
  | zero => rfl
  | succ fuel ih =>
    unfold drainReports
    split
    · rfl
    · split
      · next h => simp [ih, tripOf_of_done h]
      · next h => exact tripOf_of_stays h

@[simp] theorem tripOf_reportStatus (s : State) (d : Nat) (h : List W64) (as : List (List W64)) (status : Nat) :
    tripOf (reportStatus s d h as status) = tripOf s := by
  simp [reportStatus]

@[simp] theorem tripOf_unitTimer (s : State) (die q : Nat) : tripOf (unitTimer s die q) = tripOf s := by
  simp [unitTimer]

@[simp] theorem tripOf_retireDesc (s : State) (k q : Nat) (d : List W64) : tripOf (retireDesc s k q d) = tripOf s := by
  simp [retireDesc]

@[simp] theorem tripOf_completionWord (s : State) (k : Nat) (d : List W64) (ok : Bool) :
    tripOf (completionWord s k d ok) = tripOf s := by
  simp [completionWord]

@[simp] theorem tripOf_completeDesc (s : State) (k q : Nat) (d : List W64) (ok : Bool) :
    tripOf (completeDesc s k q d ok) = tripOf s := by
  unfold completeDesc
  split <;> simp

@[simp] theorem tripOf_failAllocs (s : State) (d : Nat) (t : Task) : tripOf (failAllocs s d t) = tripOf s := by
  simp [failAllocs]

@[simp] theorem tripOf_abortOne (rerun : Bool) (s : State) (k : Nat) : tripOf (abortOne rerun s k) = tripOf s := by
  unfold abortOne
  split <;> simp

@[simp] theorem tripOf_abortTask (s : State) (k : Nat) (rerun : Bool) : tripOf (abortTask s k rerun) = tripOf s :=
  tripOf_foldl (fun s => tripOf_abortOne rerun s) _ s

@[simp] theorem tripOf_pushDesc (s : State) (k q : Nat) (d : List W64) : tripOf (pushDesc s k q d) = tripOf s := by
  simp [pushDesc]

@[simp] theorem tripOf_resetSignalCore (s : State) (k : Nat) : tripOf (resetSignalCore s k) = tripOf s := by
  simp [resetSignalCore]

@[simp] theorem tripOf_oweFallback (s : State) (cells : List Nat) : tripOf (oweFallback s cells) = tripOf s := by
  simp [oweFallback]

@[simp] theorem tripOf_leaseReplan (s : State) (e : Nat) : tripOf (leaseReplan s e) = tripOf s := by
  unfold leaseReplan
  split <;> simp

@[simp] theorem tripOf_setLease (s : State) (es : List Nat) : tripOf (setLease s es) = tripOf s := by
  simp [setLease]

@[simp] theorem tripOf_endLease (s : State) : tripOf (endLease s) = tripOf s := by
  simp [endLease]

@[simp] theorem tripOf_planRepeat (s : State) : tripOf (planRepeat s) = tripOf s := by
  simp [planRepeat]

@[simp] theorem tripOf_tacorBack (s : State) : tripOf (tacorBack s) = tripOf s := by
  simp [tacorBack]

/-! ### Sys2Proof/Machine/Chunks.lean -/

@[simp] theorem tripOf_zeroReferee (s : State) (d : Dispute) : tripOf (zeroReferee s d) = tripOf s := by
  simp [zeroReferee]

@[simp] theorem tripOf_reportUnreadable (s : State) (frame : Nat) : tripOf (reportUnreadable s frame) = tripOf s := by
  simp [reportUnreadable]

@[simp] theorem tripOf_gatherChunk (s : State) (d : Dispute) (key : Nat) : tripOf (gatherChunk s d key) = tripOf s := by
  simp [gatherChunk]

@[simp] theorem tripOf_placeImage (s : State) (key : Nat) (image : List Host.Cell) :
    tripOf (placeImage s key image) = tripOf s := by
  simp [placeImage]

@[simp] theorem tripOf_capture (s : State) (d : Dispute) (verdict : Nat) : tripOf (capture s d verdict) = tripOf s := by
  unfold capture
  dsimp only
  split <;> simp

/-! ### Sys2Proof/Machine/FabricOps.lean -/

@[simp] theorem tripOf_setVfPort (s : State) (p : Nat) (v : VfPort) : tripOf (setVfPort s p v) = tripOf s := by
  simp [setVfPort]

@[simp] theorem tripOf_modVfPort (s : State) (p : Nat) (f : VfPort → VfPort) : tripOf (modVfPort s p f) = tripOf s := by
  simp [modVfPort]

@[simp] theorem tripOf_setPair (s : State) (d : Nat) (v : Pair) : tripOf (setPair s d v) = tripOf s := by
  simp [setPair]

@[simp] theorem tripOf_modPair (s : State) (d : Nat) (f : Pair → Pair) : tripOf (modPair s d f) = tripOf s := by
  simp [modPair]

@[simp] theorem tripOf_vfCount (s : State) (p i : Nat) : tripOf (vfCount s p i) = tripOf s := by
  simp [vfCount]

@[simp] theorem tripOf_modMap (s : State) (num : Nat) (f : ChipMap → ChipMap) : tripOf (modMap s num f) = tripOf s := by
  simp [modMap]

@[simp] theorem tripOf_emitPacket (s : State) (port : Nat) (p : Packet) : tripOf (emitPacket s port p) = tripOf s := by
  simp [emitPacket]

theorem tripOf_sendPacket {s u : State} {p : Packet} {t : Track} (h : sendPacket s p t = some u) :
    tripOf u = tripOf s := by
  unfold sendPacket at h
  dsimp only at h
  split at h
  · cases h
  · split at h
    · cases h
    · split at h
      · cases h
        simp
      · cases h
        simp

@[simp] theorem tripOf_sendReply (s : State) (typ dst seq status : Nat) :
    tripOf (sendReply s typ dst seq status) = tripOf s := by
  unfold sendReply
  split <;> simp

theorem tripOf_sendAll {s u : State} {ps : List (Packet × Track)} (h : sendAll s ps = some u) :
    tripOf u = tripOf s := by
  induction ps generalizing s with
  | nil =>
    cases h
    rfl
  | cons p ps ih =>
    unfold sendAll at h
    split at h
    · cases h
    · next hp => exact (ih h).trans (tripOf_sendPacket hp)

@[simp] theorem tripOf_countFabric (s : State) (k h bytes : Nat) : tripOf (countFabric s k h bytes) = tripOf s := by
  simp [countFabric]

@[simp] theorem tripOf_markLost (s : State) (d : Nat) : tripOf (markLost s d) = tripOf s := by
  simp [markLost]

@[simp] theorem tripOf_endCarry (s : State) (c : Nat) : tripOf (endCarry s c) = tripOf s := by
  simp [endCarry]

@[simp] theorem tripOf_dropTracks (s : State) (d : Nat) (which : Track → Bool) :
    tripOf (dropTracks s d which).1 = tripOf s := by
  simp [dropTracks]

@[simp] theorem tripOf_portEvent (s : State) (family die port event : Nat) :
    tripOf (portEvent s family die port event) = tripOf s := by
  simp [portEvent]

@[simp] theorem tripOf_fabPortDown (s : State) (p : Nat) : tripOf (fabPortDown s p).1 = tripOf s := by
  unfold fabPortDown
  refine List.foldlRecOn (motive := fun a : State × List Nat => tripOf a.1 = tripOf s) _ _ ?_ fun a h d _ => ?_
  · simp
  · simp [h]

@[simp] theorem tripOf_fabricDieDown (s : State) : tripOf (fabricDieDown s).1 = tripOf s :=
  List.foldlRecOn (motive := fun a : State × List Nat => tripOf a.1 = tripOf s) (List.range 8) _ rfl fun a h i _ => by
    dsimp only
    split <;> simp [h]

@[simp] theorem tripOf_stopFabric (s : State) (h : Nat) : tripOf (stopFabric s h) = tripOf s := by
  simp [stopFabric]

@[simp] theorem tripOf_fabricJobFault (s : State) (h status : Nat) : tripOf (fabricJobFault s h status) = tripOf s := by
  unfold fabricJobFault
  split <;> simp

@[simp] theorem tripOf_fabricJobFree (s : State) (h : Nat) : tripOf (fabricJobFree s h) = tripOf s := by
  simp [fabricJobFree]

@[simp] theorem tripOf_barrierReleased (s : State) (m : ChipMap) (snap : Bool) (value : W64) :
    tripOf (barrierReleased s m snap value) = tripOf s := by
  simp [barrierReleased]

@[simp] theorem tripOf_lagCount (s : State) (m : ChipMap) : tripOf (lagCount s m) = tripOf s := by
  unfold lagCount
  dsimp only
  split <;> simp

@[simp] theorem tripOf_releaseBarrier (s : State) (m : ChipMap) : tripOf (releaseBarrier s m) = tripOf s := by
  have hsend : ∀ (s : State) (p : Packet) (t : Track) (d : Nat),
      tripOf (match sendPacket s p t with | some s' => s' | none => markLost s d) = tripOf s := by
    intro s p t d
    split
    · next h => exact tripOf_sendPacket h
    · simp
  unfold releaseBarrier
  dsimp only
  split
  · rw [tripOf_barrierReleased, tripOf_modMap, tripOf_foldl]
    · simp
    · intro s c
      split
      · rfl
      · exact hsend ..
  · rw [tripOf_modMap, tripOf_foldl]
    · simp
    · intro s c
      split
      · rfl
      · exact hsend ..

@[simp] theorem tripOf_recordArrival (s : State) (num chip : Nat) (armed : Bool) (value : W64) :
    tripOf (recordArrival s num chip armed value) = tripOf s := by
  unfold recordArrival
  dsimp only
  split <;> simp

@[simp] theorem tripOf_arriveBarrier (s : State) (h kind cop : Nat) (value : W64) (desc : Nat) :
    tripOf (arriveBarrier s h kind cop value desc) = tripOf s := by
  unfold arriveBarrier
  split
  · rfl
  · dsimp only
    split
    · simp
    · split
      · next hp => simp [tripOf_sendPacket hp]
      · simp

/-! ### Sys2Proof/Machine/FhOps.lean -/

@[simp] theorem tripOf_setFhPort (s : State) (p : Nat) (v : FhPort) : tripOf (setFhPort s p v) = tripOf s := by
  simp [setFhPort]

@[simp] theorem tripOf_modFhPort (s : State) (p : Nat) (f : FhPort → FhPort) : tripOf (modFhPort s p f) = tripOf s := by
  simp [modFhPort]

@[simp] theorem tripOf_fhCount (s : State) (p i : Nat) : tripOf (fhCount s p i) = tripOf s := by
  simp [fhCount]

@[simp] theorem tripOf_ringStopped (s : State) (k p : Nat) : tripOf (ringStopped s k p) = tripOf s := by
  simp [ringStopped]

@[simp] theorem tripOf_stopTx (s : State) (p r : Nat) : tripOf (stopTx s p r) = tripOf s := by
  simp [stopTx]

@[simp] theorem tripOf_writeBackCode (s : State) (p r addr st ts : Nat) :
    tripOf (writeBackCode s p r addr st ts) = tripOf s := by
  unfold writeBackCode
  dsimp only
  split
  · simp
  · simp
  · split
    · next h => exact tripOf_devWrite h
    · simp
    · simp

@[simp] theorem tripOf_writeBack (s : State) (p r addr : Nat) (st : Status) (ts : Nat) :
    tripOf (writeBack s p r addr st ts) = tripOf s := by
  simp [writeBack]

@[simp] theorem tripOf_setRx (s : State) (p flow pos : Nat) (stopped : Bool) :
    tripOf (setRx s p flow pos stopped) = tripOf s := by
  simp [setRx]

@[simp] theorem tripOf_deliver (s : State) (p flow colour : Nat) (frame : List Byte) (time : Nat) :
    tripOf (deliver s p flow colour frame time) = tripOf s := by
  unfold deliver
  dsimp only
  split
  · simp
  · split
    · simp
    · simp
    · split
      · simp
      · split
        · simp
        · simp
        · next h₁ =>
          split
          · simp
          · simp
          · next h₂ => simp [tripOf_devWrite h₂, tripOf_devWrite h₁]

@[simp] theorem tripOf_missSymbol (s : State) (m : Nat × Nat × Nat × Nat) : tripOf (missSymbol s m) = tripOf s := by
  simp [missSymbol]

@[simp] theorem tripOf_failEgress (s : State) (p : Nat) (st : Status) (f : EgFrame) :
    tripOf (failEgress s p st f) = tripOf s := by
  unfold failEgress
  (repeat' split) <;> simp

@[simp] theorem tripOf_fhPortDown (s : State) (p : Nat) : tripOf (fhPortDown s p) = tripOf s := by
  simp [fhPortDown]

@[simp] theorem tripOf_clearFlows (s : State) (k : Nat) : tripOf (clearFlows s k) = tripOf s := by
  simp [clearFlows]

@[simp] theorem tripOf_gateNow (s : State) (p : Nat) : tripOf (gateNow s p) = tripOf s := by
  simp [gateNow]

/-! ### Sys2Proof/Machine/Operands.lean -/

theorem tripOf_writeArg {s t : State} {p : Party} {a : W64} {bs : List Byte} (h : writeArg s p a bs = .ok t) :
    tripOf t = tripOf s := by
  unfold writeArg at h
  split at h
  · cases h
  · split at h
    · split at h
      · cases h
        simp
      · cases h
        rfl
    · split at h
      · cases h
      · cases h
        simp

@[simp] theorem tripOf_finish (s : State) (src : Src) (op : Nat) (st : Status) (res : List W64) :
    tripOf (finish s src op st res) = tripOf s := by
  unfold finish
  split <;> simp

@[simp] theorem tripOf_journal (s : State) (src : Src) (op : Nat) : tripOf (journal s src op) = tripOf s := by
  simp [journal]

@[simp] theorem tripOf_complete (s : State) (src : Src) (op : Nat) (resAddr : W64) (st : Status) (res : List W64) :
    tripOf (complete s src op resAddr st res) = tripOf s := by
  unfold complete
  split
  · simp
  · split
    · simp
    · split
      · next h => simp [tripOf_writeArg h]
      · simp
      · simp

@[simp] theorem tripOf_finishLater (s : State) (src : Src) (st : Status) (res : List W64) :
    tripOf (finishLater s src st res) = tripOf s := by
  simp [finishLater]

/-! ### Sys2Proof/Machine/Lifecycle.lean -/

@[simp] theorem tripOf_givePage (s : State) (k : Nat) (own : Option (Nat × Nat)) (kind perms page frame : Nat) :
    tripOf (givePage s k own kind perms page frame) = tripOf s := by
  simp [givePage]

theorem tripOf_takePages {s t : State} {k : Nat} {own : Option (Nat × Nat)} {kind perms n : Nat} {ps : List Nat}
    (h : takePages s k own kind perms n = some (t, ps)) : tripOf t = tripOf s := by
  unfold takePages at h
  dsimp only at h
  split at h
  · cases h
  · cases h
    simp

@[simp] theorem tripOf_dropFrame (s : State) (loc frame : Nat) : tripOf (dropFrame s loc frame) = tripOf s := by
  simp [dropFrame]

@[simp] theorem tripOf_dropPage (s : State) (k page : Nat) : tripOf (dropPage s k page) = tripOf s := by
  simp [dropPage]

@[simp] theorem tripOf_dropPages (s : State) (k : Nat) (ps : List Nat) : tripOf (dropPages s k ps) = tripOf s := by
  simp [dropPages]

@[simp] theorem tripOf_startMove (s : State) (page loc frame dest : Nat) :
    tripOf (startMove s page loc frame dest) = tripOf s := by
  unfold startMove
  split <;> simp

theorem tripOf_jobDigest {s t : State} {h : Nat} {ws : List W64} (hd : jobDigest s h = .ok (t, ws)) :
    tripOf t = tripOf s := by
  unfold jobDigest at hd
  dsimp only at hd
  split at hd
  · cases hd
  · split at hd
    · cases hd
      rfl
    · split at hd
      · next hw =>
        cases hd
        exact tripOf_devWrite hw
      · cases hd

theorem tripOf_postRecord {s t : State} {h : Nat} {r : List W64} (hp : postRecord s h r = .ok (some t)) :
    tripOf t = tripOf s := by
  unfold postRecord at hp
  dsimp only at hp
  split at hp
  · cases hp
  · split at hp
    · cases hp
    · split at hp
      · cases hp
      · next hw =>
        cases hp
        simp [tripOf_devWrite hw]

@[simp] theorem tripOf_postInstead (s : State) (k : Nat) (record : List W64) (b : Bar) :
    tripOf (postInstead s k record b) = tripOf s := by
  simp [postInstead]

@[simp] theorem tripOf_postAt (s : State) (k a : Nat) (record : List W64) :
    tripOf (postAt s k a record) = tripOf s := by
  unfold postAt
  dsimp only
  split
  · simp
  · split
    · simp
    · split
      · simp
      · next h => exact tripOf_devWrite h

@[simp] theorem tripOf_postLast (s : State) (h : Nat) (record : List W64) :
    tripOf (postLast s h record) = tripOf s := by
  unfold postLast
  dsimp only
  split
  · next hp => exact tripOf_postRecord hp
  · simp
  · simp
  · simp

@[simp] theorem tripOf_refreshHealth (s : State) : tripOf (refreshHealth s) = tripOf s := by
  simp [refreshHealth]

@[simp] theorem tripOf_setRec (s : State) (r : HealthRec) : tripOf (setRec s r) = tripOf s := by
  simp [setRec]

/-- A tripped device stays in reset, whatever resets it: R457 keeps the reset until the card has removed power. -/
theorem tripOf_deviceReset {s : State} (h : tripOf s = (true, .held)) (cause : Option Nat) :
    tripOf (deviceReset s cause) = (true, .held) := by
  obtain ⟨htrip, -⟩ := Prod.mk.inj h
  have hhold : releaseOk s = false := by simp [releaseOk, htrip]
  simp [deviceReset, hhold, htrip]

@[simp] theorem tripOf_abandonSnap (s : State) (h status : Nat) : tripOf (abandonSnap s h status) = tripOf s := by
  unfold abandonSnap
  dsimp only
  split <;> simp

@[simp] theorem tripOf_markSuspect (s : State) (u : Nat) : tripOf (markSuspect s u) = tripOf s := by
  simp [markSuspect]

@[simp] theorem tripOf_abandonDispute (s : State) (d : Dispute) : tripOf (abandonDispute s d) = tripOf s := by
  simp [abandonDispute]

@[simp] theorem tripOf_abandonDisputes (s : State) (h : Nat) : tripOf (abandonDisputes s h) = tripOf s := by
  simp [abandonDisputes]

@[simp] theorem tripOf_stopSlot (s : State) (c : Nat × Nat) : tripOf (stopSlot s c) = tripOf s := by
  simp [stopSlot]

@[simp] theorem tripOf_beginTeardown (s : State) (h status kind : Nat) (waiter : Option Src) :
    tripOf (beginTeardown s h status kind waiter) = tripOf s := by
  simp [beginTeardown]

@[simp] theorem tripOf_faultJob (s : State) (h : Nat) (st : Status) (addr : Nat) (unit : Nat) :
    tripOf (faultJob s h st addr unit) = tripOf s := by
  simp [faultJob]

@[simp] theorem tripOf_faultSlot (s : State) (e i : Nat) (st : Status) (addr : Nat) :
    tripOf (faultSlot s e i st addr) = tripOf s := by
  simp [faultSlot]

@[simp] theorem tripOf_zeroPartition (s : State) (c : Nat × Nat) : tripOf (zeroPartition s c) = tripOf s := by
  simp [zeroPartition]

@[simp] theorem tripOf_savePages (s : State) (key : Nat) (ps : List Nat) : tripOf (savePages s key ps) = tripOf s := by
  simp [savePages]

@[simp] theorem tripOf_loadPages (s : State) (key : Nat) (ps : List Nat) : tripOf (loadPages s key ps) = tripOf s := by
  simp [loadPages]

@[simp] theorem tripOf_rewritePage (s : State) (k : Nat) (p : PageRec) : tripOf (rewritePage s k p) = tripOf s := by
  unfold rewritePage
  dsimp only
  (repeat' split) <;> simp

@[simp] theorem tripOf_zeroQueues (s : State) (k : Nat) : tripOf (zeroQueues s k) = tripOf s := by
  simp [zeroQueues]

@[simp] theorem tripOf_finishReset (s : State) (k status : Nat) (waiter : Option Src) :
    tripOf (finishReset s k status waiter) = tripOf s := by
  unfold finishReset
  split <;> simp

@[simp] theorem tripOf_strandPages (s : State) (k h : Nat) : tripOf (strandPages s k h) = tripOf s := by
  simp [strandPages]

@[simp] theorem tripOf_eraseCandidate (s : State) (k i : Nat) : tripOf (eraseCandidate s k i) = tripOf s := by
  unfold eraseCandidate
  split <;> simp

@[simp] theorem tripOf_finishRemove (s : State) (k : Nat) (src : Src) : tripOf (finishRemove s k src) = tripOf s := by
  simp [finishRemove]

@[simp] theorem tripOf_settleSleeve (s : State) (k : Nat) : tripOf (settleSleeve s k) = tripOf s := by
  unfold settleSleeve
  (repeat' split) <;> simp

@[simp] theorem tripOf_endQuiesce (s : State) (k : Nat) (st : Status) : tripOf (endQuiesce s k st) = tripOf s := by
  simp [endQuiesce]

@[simp] theorem tripOf_expireQuiesce (s : State) (k : Nat) : tripOf (expireQuiesce s k) = tripOf s := by
  simp [expireQuiesce]

@[simp] theorem tripOf_endSubmits (s : State) (k : Nat) (st : Status) : tripOf (endSubmits s k st) = tripOf s := by
  simp [endSubmits]

@[simp] theorem tripOf_giveWay (s : State) (k : Nat) : tripOf (giveWay s k) = tripOf s := by
  unfold giveWay
  dsimp only
  rw [tripOf_foldl fun s w => tripOf_finishLater s w .busy []]
  simp

@[simp] theorem tripOf_sleeveResetOp (s : State) (k : Nat) (st : Status) (waiter : Option Src) :
    tripOf (sleeveResetOp s k st waiter) = tripOf s := by
  simp [sleeveResetOp]

@[simp] theorem tripOf_entryReset (s : State) (k : Nat) : tripOf (entryReset s k) = tripOf s := by
  simp [entryReset]

@[simp] theorem tripOf_endPost (s : State) (h : Nat) (record : List W64) : tripOf (endPost s h record) = tripOf s := by
  simp [endPost]

@[simp] theorem tripOf_jobBar (s : State) (h addr : Nat) (b : Bar) : tripOf (jobBar s h addr b) = tripOf s := by
  unfold jobBar
  split <;> simp

@[simp] theorem tripOf_settleSnaps (s : State) : tripOf (settleSnaps s) = tripOf s := by
  simp [settleSnaps]

@[simp] theorem tripOf_finishTeardown (s : State) (h : Nat) : tripOf (finishTeardown s h) = tripOf s := by
  unfold finishTeardown
  dsimp only
  split
  · simp
  · simp only [tripOf_ite, tripOf_entryReset, tripOf_settleSleeve, tripOf_fabricJobFree, ite_self]
    split
    · simp only [tripOf_finishLater, tripOf_modSleeve, tripOf_modJob, tripOf_ite, tripOf_postFault, tripOf_postLast,
        ite_self]
      split <;> simp
    · simp only [tripOf_modSleeve, tripOf_modJob, tripOf_ite, tripOf_postFault, tripOf_postLast, ite_self]
      split <;> simp

@[simp] theorem tripOf_addCounts (s : State) (h : Nat) (c : Counts) (windowed : Nat) :
    tripOf (addCounts s h c windowed) = tripOf s := by
  simp [addCounts]

@[simp] theorem tripOf_evictSlot (s : State) (e i : Nat) : tripOf (evictSlot s e i) = tripOf s := by
  simp [evictSlot]

@[simp] theorem tripOf_moveSlot (s : State) (e i : Nat) : tripOf (moveSlot s e i) = tripOf s := by
  unfold moveSlot
  dsimp only
  (repeat' split) <;> simp

@[simp] theorem tripOf_losePasses (s : State) (e : Nat) : tripOf (losePasses s e) = tripOf s := by
  simp [losePasses]

@[simp] theorem tripOf_clearEngine (s : State) (e : Nat) : tripOf (clearEngine s e) = tripOf s := by
  simp [clearEngine]

@[simp] theorem tripOf_failPocket (s : State) (e : Nat) : tripOf (failPocket s e) = tripOf s := by
  simp [failPocket]

@[simp] theorem tripOf_faultCore (s : State) (k : Nat) (st : Status) : tripOf (faultCore s k st) = tripOf s := by
  simp [faultCore]

@[simp] theorem tripOf_dicClear (s : State) (t : Nat) : tripOf (dicClear s t) = tripOf s := by
  simp [dicClear]

@[simp] theorem tripOf_resetUnit (s : State) (u : Nat) : tripOf (resetUnit s u) = tripOf s := by
  simp [resetUnit]

@[simp] theorem tripOf_countReset (s : State) (u cause : Nat) : tripOf (countReset s u cause) = tripOf s := by
  simp [countReset]

@[simp] theorem tripOf_fenceRecord (s : State) (u cause : Nat) : tripOf (fenceRecord s u cause) = tripOf s := by
  simp [fenceRecord]

@[simp] theorem tripOf_takeOut (s : State) (u : Nat) : tripOf (takeOut s u) = tripOf s := by
  simp [takeOut]

@[simp] theorem tripOf_fenceUnit (s : State) (u : Nat) (f : Fence) (cause : Nat) :
    tripOf (fenceUnit s u f cause) = tripOf s := by
  simp [fenceUnit]

@[simp] theorem tripOf_holdUnit (s : State) (u : Nat) : tripOf (holdUnit s u) = tripOf s := by
  simp [holdUnit]

@[simp] theorem tripOf_selfFence (s : State) (u : Nat) (f : Fence) (cause : Nat) :
    tripOf (selfFence s u f cause) = tripOf s := by
  simp [selfFence]

@[simp] theorem tripOf_strike (s : State) (u kind location jobH sl : Nat) (confirmed : Bool) :
    tripOf (strike s u kind location jobH sl confirmed) = tripOf s := by
  simp [strike]

@[simp] theorem tripOf_countDisagree (s : State) (u : Nat) : tripOf (countDisagree s u) = tripOf s := by
  simp [countDisagree]

@[simp] theorem tripOf_loseMoves (s : State) (d : Nat) : tripOf (loseMoves s d) = tripOf s := by
  simp [loseMoves]

@[simp] theorem tripOf_losePages (s : State) (d : Nat) : tripOf (losePages s d) = tripOf s := by
  unfold losePages
  refine (tripOf_foldl (fun t i => ?_) _ _).trans (tripOf_loseMoves s d)
  refine (tripOf_foldl (fun t p => ?_) _ _).trans (by simp)
  split <;> simp

@[simp] theorem tripOf_memoryOut (s : State) (d : Nat) : tripOf (memoryOut s d) = tripOf s := by
  simp [memoryOut]

theorem tripOf_dieFault {s : State} (h : tripOf s = (true, .held)) (d cause : Nat) :
    tripOf (dieFault s d cause) = (true, .held) := by
  unfold dieFault
  dsimp only
  split
  · exact tripOf_deviceReset (by simp [h]) _
  · simp [h]

end Sys2Proof.Machine
end

section
/-! PROOFS. The trip and the operations of the commands (R67): none of them touches the ball or the phase, file by
file of the model. -/

namespace Sys2Proof.Machine

open Sys2Proof

/-! ### Sys2Proof/Machine/SleeveCmds.lean -/

@[simp] theorem tripOf_releaseSleeve (s : State) (k : Nat) (h : HoldCause) :
    tripOf (releaseSleeve s k h) = tripOf s := by
  simp [releaseSleeve]

@[simp] theorem tripOf_doorbellWrite (s : State) (k : Nat) (value : W32) (hi lo : Nat) (f : Sleeve → Nat → Sleeve) :
    tripOf (doorbellWrite s k value hi lo f) = tripOf s := by
  simp [doorbellWrite]

@[simp] theorem tripOf_flushCq (s : State) (k : Nat) : tripOf (flushCq s k) = tripOf s := by
  simp [flushCq]

/-! ### Sys2Proof/Machine/Graph.lean -/

theorem tripOf_storeTensor {r r' : GraphRun} {h i : Nat} {t : Tensor} (hr : storeTensor r h i t = .ok r') :
    tripOf r'.st = tripOf r.st := by
  unfold storeTensor at hr
  dsimp only at hr
  split at hr
  · cases hr
  · cases hr
    rfl
  · next a _ =>
    cases hw : devWrite r.st (jobIssuer r.st h) .wr a t.bytes with
    | error b =>
      rw [hw] at hr
      cases hr
    | ok s' =>
      rw [hw] at hr
      cases hr
      exact tripOf_devWrite hw

theorem tripOf_appendTokens {h n : Nat} {a : Tensor} {rnd : Nat → Rounding} {qs : List Seq} {r : Nat} {s t : State}
    (ht : appendTokens h n a rnd qs r s = .ok t) : tripOf t = tripOf s := by
  induction qs generalizing r s with
  | nil =>
    cases ht
    rfl
  | cons q qs ih =>
    unfold appendTokens at ht
    dsimp only at ht
    split at ht
    · exact ih ht
    · split at ht
      · cases ht
      · next hw => simpa [tripOf_devWrite hw] using ih ht

theorem tripOf_kvAppend {r r' : GraphRun} {h n : Nat} {a : Tensor} {rnd : Nat → Rounding}
    (hr : kvAppend r h n a rnd = .ok r') : tripOf r'.st = tripOf r.st := by
  unfold kvAppend at hr
  cases ha : appendTokens h n a rnd ((batch (job r.st h)).take (a.dims.headD 0)) 0 r.st with
  | error e =>
    rw [ha] at hr
    cases hr
  | ok t =>
    rw [ha] at hr
    cases hr
    exact tripOf_appendTokens ha

theorem tripOf_runOp {h n : Nat} {obs : StepObs} {r r' : GraphRun} (hr : runOp h obs r n = .ok r') :
    tripOf r'.st = tripOf r.st := by
  unfold runOp at hr
  dsimp only at hr
  split at hr
  · cases hr
  · split at hr
    · exact tripOf_kvAppend hr
    · cases hr
      rfl
    · split at hr
      · cases hr
      · split at hr
        · cases hr
          rfl
        · exact tripOf_storeTensor hr
    · split at hr
      · cases hr
        rfl
      · split at hr
        · cases hr
        · split at hr
          · exact tripOf_storeTensor hr
          · exact tripOf_storeTensor hr

theorem tripOf_runStep {s : State} {h : Nat} {obs : StepObs} {r : GraphRun} (hr : runStep s h obs = .ok r) :
    tripOf r.st = tripOf s := by
  have hops : ∀ (ns : List Nat) (a b : GraphRun), ns.foldlM (runOp h obs) a = .ok b → tripOf b.st = tripOf a.st := by
    intro ns
    induction ns with
    | nil =>
      intro a b hab
      cases hab
      rfl
    | cons n ns ih =>
      intro a b hab
      rw [List.foldlM_cons] at hab
      cases ha : runOp h obs a n with
      | error e =>
        rw [ha] at hab
        cases hab
      | ok c =>
        rw [ha] at hab
        exact (ih c b hab).trans (tripOf_runOp ha)
  exact hops _ _ _ hr

/-! ### Sys2Proof/Machine/JobCmds.lean -/

theorem tripOf_takeJobPages {s t : State} {k h gen : Nat} {b : List W64} {prog : List Byte} {ps : List Nat × List Nat}
    (ht : takeJobPages s k h gen b prog = some (t, ps)) : tripOf t = tripOf s := by
  unfold takeJobPages at ht
  dsimp only at ht
  split at ht
  · cases ht
  · next h₀ =>
    split at ht
    · cases ht
    · next h₁ =>
      split at ht
      · cases ht
      · next h₂ =>
        split at ht
        · cases ht
        · next h₃ =>
          cases ht
          rw [tripOf_takePages h₃, tripOf_takePages h₂, tripOf_takePages h₁, tripOf_takePages h₀]

theorem tripOf_submit {s t : State} {p : Party} {b : List W64} {n : Nat} (ht : submit s p b = .ok (t, n)) :
    tripOf t = tripOf s := by
  unfold submit at ht
  dsimp only at ht
  split at ht
  · cases ht
  · split at ht
    · cases ht
    · split at ht
      · cases ht
      · split at ht
        · cases ht
        · split at ht
          · cases ht
          · next hp =>
            split at ht
            · cases ht
            · split at ht
              · cases ht
              · cases ht
                simp [tripOf_takeJobPages hp]

@[simp] theorem tripOf_retrySubmits (s : State) (k : Nat) : tripOf (retrySubmits s k) = tripOf s := by
  unfold retrySubmits
  refine (tripOf_foldl (fun s w => ?_) _ _).trans (by simp)
  split
  · next h => simp [tripOf_submit h]
  · simp

@[simp] theorem tripOf_bringWeights (s : State) (h : Nat) : tripOf (bringWeights s h) = tripOf s := by
  simp [bringWeights]

@[simp] theorem tripOf_putCarried (s : State) (h : Nat) : tripOf (putCarried s h) = tripOf s := by
  unfold putCarried
  dsimp only
  rw [tripOf_modJob]
  refine tripOf_foldl (fun s c => ?_) _ s
  split <;> simp

@[simp] theorem tripOf_fillRing (s : State) (r : Ring) (ds : List (List W64)) (size : Nat) :
    tripOf (fillRing s r ds size).1 = tripOf s :=
  List.foldlRecOn (motive := fun x : State × Ring => tripOf x.1 = tripOf s) ds _ rfl fun x h d _ => by simp [h]

@[simp] theorem tripOf_startStep (s : State) (h : Nat) : tripOf (startStep s h) = tripOf s := by
  unfold startStep
  refine tripOf_foldl (fun t c => ?_) _ s
  simp

@[simp] theorem tripOf_placeOne (s : State) (h : Nat) (c : Nat × Slot) (p : Place) :
    tripOf (placeOne s h c p) = tripOf s := by
  simp [placeOne]

@[simp] theorem tripOf_placeAll (s : State) (h : Nat) (places : List Place) :
    tripOf (placeAll s h places) = tripOf s := by
  simp [placeAll]

@[simp] theorem tripOf_swapPages (s : State) (k p q : Nat) : tripOf (swapPages s k p q) = tripOf s := by
  simp [swapPages]

@[simp] theorem tripOf_setSeqs (s : State) (h : Nat) (f : List Seq → List Seq) : tripOf (setSeqs s h f) = tripOf s := by
  simp [setSeqs]

@[simp] theorem tripOf_departures (s : State) (h : Nat) (ended : List Nat) (w : PoolWork) :
    tripOf (departures s h ended w).1 = tripOf s := by
  simp [departures]

@[simp] theorem tripOf_preempt (s : State) (h : Nat) (w : PoolWork) : tripOf (preempt s h w).1 = tripOf s := by
  unfold preempt
  dsimp only
  split
  · rfl
  · split <;> simp

@[simp] theorem tripOf_growOne (h n fuel : Nat) (x : State × PoolWork) :
    tripOf (growOne h n fuel x).1 = tripOf x.1 := by
  induction fuel generalizing x with
  | zero => rfl
  | succ fuel ih =>
    unfold growOne
    dsimp only
    split
    · rfl
    · split
      · rfl
      · split
        · simp [ih]
        · simp [ih]

@[simp] theorem tripOf_growth (s : State) (h : Nat) (w : PoolWork) : tripOf (growth s h w).1 = tripOf s := by
  unfold growth
  exact List.foldlRecOn (motive := fun x : State × PoolWork => tripOf x.1 = tripOf s) _ _ rfl fun x hx n _ => by simp [
    hx]

@[simp] theorem tripOf_recompute (s : State) (j : Job) (q : Seq) (ps : List Nat) :
    tripOf (recompute s j q ps) = tripOf s := by
  simp [recompute]

@[simp] theorem tripOf_resumes (h : Nat) (ns : List Nat) (x : State × PoolWork) :
    tripOf (resumes h ns x).1.1 = tripOf x.1 := by
  induction ns generalizing x with
  | nil => rfl
  | cons n ns ih =>
    unfold resumes
    dsimp only
    split
    · exact ih _
    · split
      · rfl
      · simp [ih]

@[simp] theorem tripOf_joins (h : Nat) (js : List Join) (x : State × PoolWork) :
    tripOf (joins h js x).1 = tripOf x.1 := by
  induction js generalizing x with
  | nil => rfl
  | cons a js ih =>
    unfold joins
    dsimp only
    split
    · rfl
    · simp [ih]

@[simp] theorem tripOf_applyPool (s : State) (h : Nat) (ended : List Nat) :
    tripOf (applyPool s h ended).1 = tripOf s := by
  unfold applyPool
  split
  · rfl
  · simp [apply_ite Prod.fst]

@[simp] theorem tripOf_postAll (s : State) (h : Nat) (rs : List (List W64)) : tripOf (postAll s h rs).1 = tripOf s := by
  induction rs generalizing s with
  | nil => rfl
  | cons r rs ih =>
    unfold postAll
    split
    · simp [ih]
    · rfl
    · rfl
    · next hp => simp [ih, tripOf_postRecord hp]

@[simp] theorem tripOf_landPieces (s : State) (h : Nat) (xs : List (Nat × List Byte)) :
    tripOf (landPieces s h xs) = tripOf s := by
  induction xs generalizing s with
  | nil => rfl
  | cons x xs ih =>
    unfold landPieces
    split
    · next hw => simp [ih, tripOf_devWrite hw]
    · simp
    · simp

@[simp] theorem tripOf_drainSnap (s : State) (h : Nat) (n : Snap) (image : List (Nat × List Byte)) :
    tripOf (drainSnap s h n image) = tripOf s := by
  unfold drainSnap
  dsimp only
  split
  · simp
  · split
    · simp
    · split
      · simp
      · next ht => simp [tripOf_sendAll ht]

@[simp] theorem tripOf_takeSnapshot (s : State) (h : Nat) : tripOf (takeSnapshot s h) = tripOf s := by
  unfold takeSnapshot
  split <;> simp

@[simp] theorem tripOf_endRun (s : State) (h : Nat) : tripOf (endRun s h) = tripOf s := by
  unfold endRun
  split <;> simp

@[simp] theorem tripOf_holdJob (s : State) (h : Nat) (c : HoldCause) : tripOf (holdJob s h c) = tripOf s := by
  simp [holdJob]

@[simp] theorem tripOf_leaveBarrier (s : State) (h : Nat) : tripOf (leaveBarrier s h) = tripOf s := by
  unfold leaveBarrier
  split <;> simp

@[simp] theorem tripOf_leaveBoundary (s : State) (h : Nat) (last : Bool) :
    tripOf (leaveBoundary s h last) = tripOf s := by
  simp [leaveBoundary]

@[simp] theorem tripOf_parkBoundary (s : State) (h addr : Nat) (o : StepObs) :
    tripOf (parkBoundary s h addr o) = tripOf s := by
  simp [parkBoundary]

@[simp] theorem tripOf_postBoundary (s : State) (h : Nat) (records : List (List W64)) :
    tripOf (postBoundary s h records) = tripOf s := by
  unfold postBoundary
  dsimp only
  split
  · simp
  · simp
  · simp
  · simp

@[simp] theorem tripOf_poolUnreadable (s : State) (h : Nat) : tripOf (poolUnreadable s h) = tripOf s := by
  simp [poolUnreadable]

@[simp] theorem tripOf_applyBoundary (s : State) (h : Nat) (ended : List Nat) :
    tripOf (applyBoundary s h ended) = tripOf s := by
  unfold applyBoundary
  dsimp only
  split
  · simp
  · next t dg hd =>
    simp only [tripOf_postBoundary, tripOf_endRun]
    split at hd
    · simp [tripOf_jobDigest hd]
    · cases hd
      simp

@[simp] theorem tripOf_runBoundary (s : State) (h : Nat) (o : StepObs) : tripOf (runBoundary s h o) = tripOf s := by
  unfold runBoundary
  dsimp only
  split
  · simp
  · split
    · simp
    · split
      · simp
      · simp
      · next hr => simp [tripOf_runStep hr]

@[simp] theorem tripOf_continueBoundary (s : State) (h : Nat) : tripOf (continueBoundary s h) = tripOf s := by
  unfold continueBoundary
  split <;> simp

@[simp] theorem tripOf_resumeJob (s : State) (h : Nat) : tripOf (resumeJob s h) = tripOf s := by
  simp [resumeJob]

@[simp] theorem tripOf_enterBoundary (s : State) (h : Nat) : tripOf (enterBoundary s h) = tripOf s := by
  simp [enterBoundary]

/-! ### Sys2Proof/Machine/MgmtCmds.lean -/

@[simp] theorem tripOf_endRestartHold (s : State) (h : Nat) : tripOf (endRestartHold s h) = tripOf s := by
  simp [endRestartHold]

@[simp] theorem tripOf_releaseRestartHolds (s : State) : tripOf (releaseRestartHolds s) = tripOf s := by
  simp [releaseRestartHolds]

@[simp] theorem tripOf_readJournal (s : State) : tripOf (readJournal s) = tripOf s := by
  simp [readJournal]

@[simp] theorem tripOf_applyRoute (s : State) (n : Nat) : tripOf (applyRoute s n) = tripOf s := by
  unfold applyRoute
  split <;> simp

@[simp] theorem tripOf_linkDown (s : State) : tripOf (linkDown s) = tripOf s := by
  simp [linkDown]

@[simp] theorem tripOf_pldmServe (s : State) (tag : Nat) (k : State → State) (hk : ∀ t, tripOf (k t) = tripOf t) :
    tripOf (pldmServe s tag k) = tripOf s := by
  simp [pldmServe, hk]

@[simp] theorem tripOf_pldmAck (s : State) (n : Nat) : tripOf (pldmAck s n) = tripOf s := by
  simp [pldmAck]

@[simp] theorem tripOf_uartServe (s : State) (k : State → State) (hk : ∀ t, tripOf (k t) = tripOf t) :
    tripOf (uartServe s k) = tripOf s := by
  simp [uartServe, hk]

/-! ### Sys2Proof/Machine/HealthCmds.lean -/

@[simp] theorem tripOf_recordEvent (s : State) (e : ErrEvent) : tripOf (recordEvent s e) = tripOf s := by
  simp [recordEvent]

@[simp] theorem tripOf_countHang (s : State) (u : Nat) : tripOf (countHang s u) = tripOf s := by
  simp [countHang]

@[simp] theorem tripOf_hangRecord (s : State) (kind unit die func suspects : Nat) (sl : Option Nat)
    (jb : Option (Nat × Nat)) :
    tripOf (hangRecord s kind unit die func suspects sl jb) = tripOf s := by
  simp [hangRecord]

@[simp] theorem tripOf_startStall (s : State) (e kind : Nat) (suspects : List Nat) :
    tripOf (startStall s e kind suspects) = tripOf s := by
  simp [startStall]

@[simp] theorem tripOf_settleStall (s : State) (e : Nat) (t : Stall) : tripOf (settleStall s e t) = tripOf s := by
  simp [settleStall]

@[simp] theorem tripOf_moveTo (s : State) (e i e' i' base : Nat) : tripOf (moveTo s e i e' i' base) = tripOf s := by
  simp [moveTo]

@[simp] theorem tripOf_uncountReset (s : State) (u : Nat) : tripOf (uncountReset s u) = tripOf s := by
  simp [uncountReset]

/-! ### Sys2Proof/Machine/RadioCmds.lean -/

@[simp] theorem tripOf_cellFrame (s : State) (frame c : Nat) : tripOf (cellFrame s frame c) = tripOf s := by
  simp [cellFrame]

@[simp] theorem tripOf_frameBoundary (frame : Nat) (s : State) : tripOf (frameBoundary frame s) = tripOf s := by
  unfold frameBoundary
  dsimp only
  refine (tripOf_foldl (fun t d => ?_) _ _).trans (by simp)
  split <;> simp

@[simp] theorem tripOf_startPeriod (s : State) (period : Nat) : tripOf (startPeriod s period) = tripOf s := by
  simp [startPeriod]

@[simp] theorem tripOf_discardIq (s : State) (d c frame slot : Nat) :
    tripOf (discardIq s d c frame slot) = tripOf s := by
  simp [discardIq]

@[simp] theorem tripOf_takeSlotJob (s : State) (d arrival : Nat) (h : List W64) (as : List (List W64)) :
    tripOf (takeSlotJob s d arrival h as) = tripOf s := by
  unfold takeSlotJob
  split <;> simp

@[simp] theorem tripOf_fetchSlotJobs (d fuel : Nat) (s : State) : tripOf (fetchSlotJobs d fuel s) = tripOf s := by
  induction fuel generalizing s with
  | zero => rfl
  | succ fuel ih =>
    unfold fetchSlotJobs
    dsimp only
    split
    · rfl
    · split
      · simp
      · simp [ih]
      · split
        · simp [ih]
        · split
          · simp
          · simp [ih]
          · simp [ih]

@[simp] theorem tripOf_queueRadio (s : State) (p q : Nat) (f : EgFrame) : tripOf (queueRadio s p q f) = tripOf s := by
  simp [queueRadio]

@[simp] theorem tripOf_sendCplane (s : State) (c frame slot dir : Nat) :
    tripOf (sendCplane s c frame slot dir) = tripOf s := by
  simp [sendCplane]

@[simp] theorem tripOf_attachWeights (s : State) (c frame slot : Nat) (ext : List Byte) :
    tripOf (attachWeights s c frame slot ext) = tripOf s := by
  simp [attachWeights]

@[simp] theorem tripOf_planCell (s : State) (d frame slot : Nat) (csiRs : List Nat) (c : Nat) :
    tripOf (planCell s d frame slot csiRs c) = tripOf s := by
  simp [planCell]

@[simp] theorem tripOf_groupOff (s : State) (d g : Nat) : tripOf (groupOff s d g) = tripOf s := by
  simp [groupOff]

@[simp] theorem tripOf_groupOn (s : State) (d g : Nat) : tripOf (groupOn s d g) = tripOf s := by
  simp [groupOn]

@[simp] theorem tripOf_takePlan (s : State) (d : Nat) (p : SlotPlan) : tripOf (takePlan s d p) = tripOf s := by
  simp [takePlan]

/-! ### Sys2Proof/Machine/PowerOps.lean -/

@[simp] theorem tripOf_setIndex (s : State) (n i : Nat) : tripOf (setIndex s n i) = tripOf s := by
  simp [setIndex]

@[simp] theorem tripOf_suspectUnit (s : State) (u : Nat) : tripOf (suspectUnit s u) = tripOf s := by
  simp [suspectUnit]

@[simp] theorem tripOf_excludeSensor (s : State) (n i : Nat) : tripOf (excludeSensor s n i) = tripOf s := by
  simp [excludeSensor]

@[simp] theorem tripOf_lateBeat (s : State) (n : Nat) : tripOf (lateBeat s n) = tripOf s := by
  simp [lateBeat]

@[simp] theorem tripOf_operandWait (s : State) (n : Nat) : tripOf (operandWait s n) = tripOf s := by
  simp [operandWait]

@[simp] theorem tripOf_setLevel (s : State) (d level : Nat) : tripOf (setLevel s d level) = tripOf s := by
  simp [setLevel]

@[simp] theorem tripOf_enterThrottle (s : State) (d : Nat) : tripOf (enterThrottle s d) = tripOf s := by
  simp [enterThrottle]

@[simp] theorem tripOf_enterThrottles (s : State) : tripOf (enterThrottles s) = tripOf s :=
  tripOf_foldl tripOf_enterThrottle _ s

@[simp] theorem tripOf_noteActive (s : State) (a : Active) : tripOf (noteActive s a) = tripOf s := by
  simp [noteActive]

@[simp] theorem tripOf_noteBeats (s : State) (ns : List Nat) (x : Slot) (lease : Bool) (beats est : Nat) :
    tripOf (noteBeats s ns x lease beats est) = tripOf s := by
  simp [noteBeats]

@[simp] theorem tripOf_noteOverhead (s : State) (u beats : Nat) : tripOf (noteOverhead s u beats) = tripOf s := by
  simp [noteOverhead]

/-! ### Sys2Proof/Machine/SignalOps.lean -/

@[simp] theorem tripOf_releaseOne (s : State) (k : Nat) (r : Release) : tripOf (releaseOne s k r) = tripOf s := by
  cases r <;> simp [releaseOne]

@[simp] theorem tripOf_releasePair (k p fuel : Nat) (s : State) : tripOf (releasePair k p fuel s) = tripOf s := by
  induction fuel generalizing s with
  | zero => rfl
  | succ fuel ih =>
    unfold releasePair
    split
    · split <;> simp [ih]
    · rfl

@[simp] theorem tripOf_settlePair (k : Nat) (s : State) : tripOf (settlePair k s) = tripOf s := by
  unfold settlePair
  dsimp only
  split <;> simp

@[simp] theorem tripOf_releaseFrom (s : State) (k : Nat) (r : Release) : tripOf (releaseFrom s k r) = tripOf s := by
  simp [releaseFrom]

theorem tripOf_coreWrite {s t : State} {k : Nat} {addr : Int} {bs : List Byte} (h : coreWrite s k addr bs = .ok t) :
    tripOf t = tripOf s := by
  unfold coreWrite at h
  split at h
  · cases h
  · split at h
    · cases h
    · cases h
      simp

/-- What an instruction's retirement leaves of the trip: its own state does, and a fault's none is asked. -/
def Retire.KeepsTrip (s : State) : Retire → Prop
  | .next t _ | .jump t _ _ | .full t | .waits t | .aborted t | .ended t => tripOf t = tripOf s
  | .fault | .ecc _ => True

section

variable (s t : State) (beats pc : Nat)

@[simp] theorem keepsTrip_next : (Retire.next t beats).KeepsTrip s ↔ tripOf t = tripOf s := Iff.rfl

@[simp] theorem keepsTrip_jump : (Retire.jump t beats pc).KeepsTrip s ↔ tripOf t = tripOf s := Iff.rfl

@[simp] theorem keepsTrip_full : (Retire.full t).KeepsTrip s ↔ tripOf t = tripOf s := Iff.rfl

@[simp] theorem keepsTrip_waits : (Retire.waits t).KeepsTrip s ↔ tripOf t = tripOf s := Iff.rfl

@[simp] theorem keepsTrip_aborted : (Retire.aborted t).KeepsTrip s ↔ tripOf t = tripOf s := Iff.rfl

@[simp] theorem keepsTrip_ended : (Retire.ended t).KeepsTrip s ↔ tripOf t = tripOf s := Iff.rfl

@[simp] theorem keepsTrip_fault : Retire.fault.KeepsTrip s := trivial

@[simp] theorem keepsTrip_ite (c : Prop) [Decidable c] (a b : Retire) :
    (if c then a else b).KeepsTrip s ↔ (c → a.KeepsTrip s) ∧ (¬ c → b.KeepsTrip s) := by
  split <;> simp [*]

end

@[simp] theorem keepsTrip_released (s t : State) (k beats : Nat) (f : SigCore → SigCore) :
    (Retire.released t k beats f).KeepsTrip s ↔ tripOf t = tripOf s := by
  unfold Retire.released
  split <;> simp [Retire.KeepsTrip]

@[simp] theorem keepsTrip_ofBar (s : State) (b : MemBar) : (Retire.ofBar b).KeepsTrip s := by
  cases b <;> trivial

@[simp] theorem tripOf_fwRecord (s : State) (k : Nat) : tripOf (fwRecord s k) = tripOf s := by
  simp [fwRecord]

@[simp] theorem tripOf_firmwareFault (s : State) (k : Nat) : tripOf (firmwareFault s k) = tripOf s := by
  simp [firmwareFault]

@[simp] theorem tripOf_coreEcc (s : State) (k addr : Nat) : tripOf (coreEcc s k addr) = tripOf s := by
  simp [coreEcc]

theorem tripOf_settle {s : State} {r : Retire} (h : r.KeepsTrip s) (k : Nat) : tripOf (settle s k r) = tripOf s := by
  cases r <;> simp_all [settle, Retire.KeepsTrip]

@[simp] theorem tripOf_countMismatch (s : State) (k : Nat) : tripOf (countMismatch s k) = tripOf s := by
  simp [countMismatch]

@[simp] theorem tripOf_countCorrected (s : State) (k : Nat) : tripOf (countCorrected s k) = tripOf s := by
  simp [countCorrected]

@[simp] theorem tripOf_coreRuns (k : Nat) (compat : Bool) (word : Option W32) (chk : CoreCheck) (s : State)
    (body : State → Retire) (hbody : ∀ t, (body t).KeepsTrip t) :
    tripOf (coreRuns k compat word chk s body) = tripOf s := by
  unfold coreRuns
  dsimp only
  split
  · rfl
  · split <;> simp [tripOf_settle (hbody _)]

@[simp] theorem tripOf_regInstr (k beats : Nat) (word : Option W32) (chk : CoreCheck) (s : State)
    (f : SigCore → SigCore) : tripOf (regInstr k beats word chk s f) = tripOf s :=
  tripOf_coreRuns _ _ _ _ _ _ fun t => tripOf_modSigCore t k f

@[simp] theorem tripOf_laneInstr (k vd va vb : Nat) (fp : Bool) (word : Option W32) (chk : CoreCheck) (s : State)
    (f : W32 → W32 → W32) :
    tripOf (laneInstr k vd va vb fp word chk s f) = tripOf s := by
  simp [laneInstr]

@[simp] theorem tripOf_takeFreeNat (s : State) (site n : Nat) : tripOf (takeFreeNat s site n).2 = tripOf s := by
  induction n with
  | zero => rfl
  | succ n ih => simpa [takeFreeNat] using ih

@[simp] theorem tripOf_takeFreeV (s : State) (site : Nat) : tripOf (takeFreeV s site).2 = tripOf s :=
  tripOf_takeFreeNat s site 8

/-! ### Sys2Proof/Machine/SignalCmds.lean -/

@[simp] theorem tripOf_modJobOf (s : State) (d id : Nat) (f : SlotJob → SlotJob) :
    tripOf (modJobOf s d id f) = tripOf s := by
  simp [modJobOf]

@[simp] theorem tripOf_harqCombine (s : State) (d : Nat) (j : SlotJob) (h : HarqTask) :
    tripOf (harqCombine s d j h) = tripOf s := by
  simp [harqCombine]

@[simp] theorem tripOf_beginTask (s : State) (k : Nat) (t : Task) (s2 s3 : W32) (partner copyOf : Option Nat) :
    tripOf (beginTask s k t s2 s3 partner copyOf) = tripOf s := by
  simp [beginTask]

@[simp] theorem tripOf_endReruns (s : State) (d : Nat) (j : SlotJob) : tripOf (endReruns s d j).1 = tripOf s := by
  simp [endReruns]

@[simp] theorem tripOf_completeSlot (s : State) (d : Nat) (j : SlotJob) (r : SlotDone) :
    tripOf (completeSlot s d j r) = tripOf s := by
  unfold completeSlot
  dsimp only
  simp

@[simp] theorem tripOf_lateTask (s : State) (d id : Nat) : tripOf (lateTask s d id) = tripOf s := by
  simp [lateTask]

@[simp] theorem tripOf_taskOver (s : State) (k : Nat) : tripOf (taskOver s k) = tripOf s := by
  simp [taskOver]

@[simp] theorem tripOf_endTask (s : State) (k : Nat) (late : Bool) (done : Option SlotDone) :
    tripOf (endTask s k late done) = tripOf s := by
  unfold endTask
  dsimp only
  split <;> simp

@[simp] theorem tripOf_postInc2 (s : State) (k : Nat) (on : Bool) (pa pb : Nat) (a b : Int) :
    tripOf (postInc2 s k on pa pb a b) = tripOf s := by
  simp [postInc2]

@[simp] theorem tripOf_fl5Effect (s : State) (k : Nat) : tripOf (fl5Effect s k) = tripOf s := by
  simp [fl5Effect]

/-! ### Sys2Proof/Machine/AccelCmds.lean -/

theorem tripOf_unitWrite {s t : State} {addr : Nat} {bs : List Byte} (h : unitWrite s addr bs = .ok t) :
    tripOf t = tripOf s := by
  unfold unitWrite at h
  split at h
  · split at h
    · cases h
    · cases h
      simp
  · exact tripOf_devWrite h

@[simp] theorem tripOf_unitLate (s : State) (k q : Nat) (d : List W64) : tripOf (unitLate s k q d) = tripOf s := by
  unfold unitLate
  split <;> simp

@[simp] theorem tripOf_noteUnit (s : State) (k q : Nat) (d : List W64) (f : UnitRec → UnitRec) :
    tripOf (noteUnit s k q d f) = tripOf s := by
  simp [noteUnit]

@[simp] theorem tripOf_endDesc (s : State) (k q : Nat) (d : List W64) (late ok : Bool) :
    tripOf (endDesc s k q d late ok) = tripOf s := by
  unfold endDesc
  split <;> simp

@[simp] theorem tripOf_refusedDesc (s : State) (k q : Nat) (d : List W64) (late : Bool) (b : Bar) :
    tripOf (refusedDesc s k q d late b) = tripOf s := by
  simp [refusedDesc]

@[simp] theorem tripOf_serveOn (only : Nat → Bool) (c : Instr) (k q op : Nat) (o : UnitObs) (s : State)
    (out : List W64 → List Byte → List Byte) (note after : List W64 → List Byte → State → State)
    (hnote : ∀ d bs t, tripOf (note d bs t) = tripOf t) (hafter : ∀ d bs t, tripOf (after d bs t) = tripOf t) :
    tripOf (serveOn only c k q op o s out note after) = tripOf s := by
  unfold serveOn
  dsimp only
  split
  · rfl
  · split
    · rfl
    · split
      · simp
      · simp
      · split
        · simp
        · split
          · simp [hnote, hafter]
          · split
            · simp
            · simp
            · next h => simp [hnote, hafter, tripOf_unitWrite h]

@[simp] theorem tripOf_serveDesc (c : Instr) (k q op : Nat) (o : UnitObs) (s : State)
    (out : List W64 → List Byte → List Byte) (note after : List W64 → List Byte → State → State)
    (hnote : ∀ d bs t, tripOf (note d bs t) = tripOf t) (hafter : ∀ d bs t, tripOf (after d bs t) = tripOf t) :
    tripOf (serveDesc c k q op o s out note after) = tripOf s :=
  tripOf_serveOn _ c k q op o s out note after hnote hafter

@[simp] theorem tripOf_queueSymbol (s : State) (d : List W64) (sl : Nat × Nat) (iq : List Byte) :
    tripOf (queueSymbol s d sl iq) = tripOf s := by
  simp [queueSymbol]

/-! ### Sys2Proof/Machine/BootCmds.lean -/

@[simp] theorem tripOf_tap (s : State) (code : Nat) (k : State → State) (hk : ∀ t, tripOf (k t) = tripOf t) :
    tripOf (tap s code k) = tripOf s := by
  simp [tap, hk]

/-! ### Sys2Proof/Machine/EngineOps.lean -/

@[simp] theorem tripOf_countStale (s : State) : tripOf (countStale s) = tripOf s := by
  simp [countStale]

@[simp] theorem tripOf_contextEcc (s : State) (e i addr : Nat) : tripOf (contextEcc s e i addr) = tripOf s := by
  simp [contextEcc]

@[simp] theorem tripOf_barFault (s : State) (e i addr : Nat) (b : Bar) : tripOf (barFault s e i addr b) = tripOf s := by
  unfold barFault
  split <;> simp

@[simp] theorem tripOf_contextBar (s : State) (e i addr len : Nat) (c : Instr) (b : Bar) :
    tripOf (contextBar s e i addr len c b) = tripOf s := by
  simp [contextBar]

@[simp] theorem tripOf_pocketEcc (s : State) (e i : Nat) : tripOf (pocketEcc s e i) = tripOf s := by
  simp [pocketEcc]

@[simp] theorem tripOf_fetchEntry (s : State) (e i addr n : Nat) (c : Instr) (d : List W64) (k : State → State)
    (hk : ∀ t, tripOf (k t) = tripOf t) : tripOf (fetchEntry s e i addr n c d k) = tripOf s := by
  unfold fetchEntry
  split
  · rfl
  · split
    · simp
    · simp [hk]

@[simp] theorem tripOf_feederStarts (s : State) (e i : Nat) : tripOf (feederStarts s e i) = tripOf s := by
  simp [feederStarts]

@[simp] theorem tripOf_endChain (s : State) (e i : Nat) (d : List W64) : tripOf (endChain s e i d) = tripOf s := by
  simp [endChain]

@[simp] theorem tripOf_enterPhase (s : State) (e i : Nat) (d : List W64) (phase : Nat) :
    tripOf (enterPhase s e i d phase) = tripOf s := by
  simp [enterPhase]

@[simp] theorem tripOf_settleRun (e i fuel : Nat) (s : State) : tripOf (settleRun e i fuel s) = tripOf s := by
  induction fuel generalizing s with
  | zero => rfl
  | succ fuel ih =>
    unfold settleRun
    split
    · rfl
    · split
      · simp
      · simp [ih]

@[simp] theorem tripOf_passOver (s : State) (hs : List Nat) : tripOf (passOver s hs) = tripOf s := by
  simp [passOver]

@[simp] theorem tripOf_startsNow (s : State) (h : Nat) : tripOf (startsNow s h) = tripOf s := by
  simp [startsNow]

@[simp] theorem tripOf_selectNext (s : State) (e : Nat) : tripOf (selectNext s e) = tripOf s := by
  simp [selectNext]

@[simp] theorem tripOf_loadRegisters (s : State) (e i : Nat) (d : List W64) (phase t : Nat) :
    tripOf (loadRegisters s e i d phase t) = tripOf s := by
  simp [loadRegisters]

@[simp] theorem tripOf_startPass (s : State) (e i : Nat) : tripOf (startPass s e i) = tripOf s := by
  unfold startPass
  dsimp only
  split <;> simp

@[simp] theorem tripOf_popPass (s : State) (e : Nat) : tripOf (popPass s e) = tripOf s := by
  simp [popPass]

@[simp] theorem tripOf_dropPasses (s : State) (e i : Nat) : tripOf (dropPasses s e i) = tripOf s := by
  simp [dropPasses]

@[simp] theorem tripOf_discardPass (s : State) (e : Nat) (p : PassRun) : tripOf (discardPass s e p) = tripOf s := by
  simp [discardPass]

@[simp] theorem tripOf_openDispute (s : State) (d : Dispute) : tripOf (openDispute s d) = tripOf s := by
  simp [openDispute]

@[simp] theorem tripOf_leaseFailed (s : State) (e : Nat) : tripOf (leaseFailed s e) = tripOf s := by
  simp [leaseFailed]

@[simp] theorem tripOf_endReferee (s : State) (u i : Nat) (element : Bool) :
    tripOf (endReferee s u i element) = tripOf s := by
  simp [endReferee]

@[simp] theorem tripOf_chargeBeats (s : State) (x : Slot) (beats : Nat) :
    tripOf (chargeBeats s x beats) = tripOf s := by
  simp [chargeBeats]

@[simp] theorem tripOf_countBeats (s : State) (e i beats est : Nat) :
    tripOf (countBeats s e i beats est) = tripOf s := by
  simp [countBeats]

@[simp] theorem tripOf_putWords (s : State) (x : Slot) (e : Nat) (d : List W64) (es : List PassError) :
    tripOf (putWords s x e d es) = tripOf s := by
  refine tripOf_foldl (fun s q => ?_) es s
  split
  · simp
  · rfl

theorem tripOf_passEffect {s t : State} {e : Nat} {p : PassRun} {es : List PassError}
    (h : passEffect s e p es = some t) :
    tripOf t = tripOf s := by
  unfold passEffect at h
  dsimp only at h
  split at h
  · cases h
  · split at h
    · cases h
      simp
    · cases h
      simp
    · split at h
      · cases h
      · cases h
        simp

@[simp] theorem tripOf_stepRun (s : State) (e i : Nat) : tripOf (stepRun s e i) = tripOf s := by
  simp [stepRun]

@[simp] theorem tripOf_boundaryPower (s : State) (e : Nat) : tripOf (boundaryPower s e) = tripOf s := by
  simp [boundaryPower]

@[simp] theorem tripOf_passGoesOn (s : State) (e : Nat) (d : Dispute) : tripOf (passGoesOn s e d) = tripOf s := by
  simp [passGoesOn]

@[simp] theorem tripOf_passResult (s : State) (e : Nat) (p : PassRun) (es : List PassError) (forced : Bool) :
    tripOf (passResult s e p es forced) = tripOf s := by
  unfold passResult
  dsimp only
  split
  · split
    · simp
    · next h => simp [tripOf_passEffect h]
  · split
    · simp
    · next h => simp [tripOf_passEffect h]

@[simp] theorem tripOf_engineLate (s : State) (e : Nat) : tripOf (engineLate s e) = tripOf s := by
  simp [engineLate]

@[simp] theorem tripOf_passEnds (s : State) (e : Nat) (p : PassRun) (es : List PassError) (forced late : Bool) :
    tripOf (passEnds s e p es forced late) = tripOf s := by
  simp [passEnds]

/-! ### Sys2Proof/Machine/ElementCmds.lean -/

@[simp] theorem tripOf_elemRun (s : State) (e i : Nat) (d : List W64) : tripOf (elemRun s e i d) = tripOf s := by
  unfold elemRun
  dsimp only
  split <;> simp

@[simp] theorem tripOf_elemCmd (op e i : Nat) (d : List W64) (c : Instr) (s : State) :
    tripOf (elemCmd op e i d c s) = tripOf s := by
  simp [elemCmd]

@[simp] theorem tripOf_shadowMismatch (s : State) (e i group : Nat) (lanes shadows : List (Nat × Nat)) :
    tripOf (shadowMismatch s e i group lanes shadows) = tripOf s := by
  simp [shadowMismatch]

/-! ### Sys2Proof/Machine/EngineCmds.lean -/

@[simp] theorem tripOf_passTick (s : State) (e i : Nat) (landed : Bool) :
    tripOf (passTick s e i landed) = tripOf s := by
  simp [passTick]

@[simp] theorem tripOf_pathMismatch (s : State) (e : Nat) (p : PassRun) (errors : List PassError) :
    tripOf (pathMismatch s e p errors) = tripOf s := by
  simp [pathMismatch]

@[simp] theorem tripOf_fetchFeeder (s : State) (e i : Nat) (c : Instr) (d : List W64) (k : State → State)
    (hk : ∀ t, tripOf (k t) = tripOf t) : tripOf (fetchFeeder s e i c d k) = tripOf s := by
  simp [fetchFeeder, hk]

@[simp] theorem tripOf_feederRow (kind e i : Nat) (c : Instr) (d : List W64) (s : State) (k : State → State)
    (hk : ∀ t, tripOf (k t) = tripOf t) : tripOf (feederRow kind e i c d s k) = tripOf s := by
  simp [feederRow, hk]

theorem tripOf_writeWord {s t : State} {e i : Nat} {space : Bool} {addr value : Nat}
    (h : writeWord s e i space addr value = .ok t) : tripOf t = tripOf s := by
  unfold writeWord at h
  dsimp only at h
  split at h
  · exact tripOf_devWrite h
  · split at h
    · cases h
    · cases h
      simp

@[simp] theorem tripOf_endFeeder (s : State) (e i : Nat) : tripOf (endFeeder s e i) = tripOf s := by
  simp [endFeeder]

@[simp] theorem tripOf_endWait (s : State) (e i : Nat) : tripOf (endWait s e i) = tripOf s := by
  simp [endWait]

theorem tripOf_pocketWrite {s t : State} {x : Slot} {e off : Nat} {bs : List Byte}
    (h : pocketWrite s x e off bs = .ok t) : tripOf t = tripOf s := by
  unfold pocketWrite at h
  split at h
  · cases h
    simp
  · cases h

theorem tripOf_dmaTarget {s t : State} {e i r : Nat} {d : List W64} {bs : List Byte}
    (h : dmaTarget s e i d r bs = .ok t) : tripOf t = tripOf s := by
  unfold dmaTarget at h
  dsimp only at h
  split at h
  · exact tripOf_devWrite h
  · exact tripOf_pocketWrite h

theorem tripOf_dmaRow {s t : State} {e i r : Nat} {d : List W64} {flips : List (Nat × Byte)} {good : Option Nat}
    (h : dmaRow s e i d flips good r = .ok t) : tripOf t = tripOf s := by
  unfold dmaRow at h
  split at h
  · cases h
  · exact tripOf_dmaTarget h

@[simp] theorem tripOf_dmaRows (e i : Nat) (d : List W64) (flips : List (Nat × Byte)) (good : Option Nat)
    (rs : List Nat) (s : State) : tripOf (dmaRows e i d flips good rs s).1 = tripOf s := by
  induction rs generalizing s with
  | nil => rfl
  | cons r rs ih =>
    unfold dmaRows
    split
    · rfl
    · next h => exact (ih _).trans (tripOf_dmaRow h)

@[simp] theorem tripOf_dmaAttempt (s : State) (e i : Nat) (d : List W64) (flips : List (Nat × Byte)) :
    tripOf (dmaAttempt s e i d flips).1 = tripOf s := tripOf_dmaRows ..

@[simp] theorem tripOf_dmaStart (s : State) (e i : Nat) (d : List W64) (flips : List (Nat × Byte)) (c : Instr) :
    tripOf (dmaStart s e i d flips c) = tripOf s := by
  unfold dmaStart
  dsimp only
  split
  · simp
  · rfl
  · split
    · simp
    · split <;> simp

@[simp] theorem tripOf_dmaCmd (kind e i : Nat) (d : List W64) (flips : List (Nat × Byte)) (c : Instr) (s : State) :
    tripOf (dmaCmd kind e i d flips c s) = tripOf s := by
  simp [dmaCmd]

@[simp] theorem tripOf_countDma (s : State) (x : Slot) (n : Nat) : tripOf (countDma s x n) = tripOf s := by
  simp [countDma]

@[simp] theorem tripOf_moveOwing (s : State) (e i : Nat) : tripOf (moveOwing s e i) = tripOf s := by
  simp [moveOwing]

@[simp] theorem tripOf_dmaLanded (s : State) (e i : Nat) (d : List W64) : tripOf (dmaLanded s e i d) = tripOf s := by
  unfold dmaLanded
  (repeat' split) <;> simp

@[simp] theorem tripOf_dmaFailed (s : State) (e i : Nat) (d : List W64) : tripOf (dmaFailed s e i d) = tripOf s := by
  simp [dmaFailed]

/-! ### Sys2Proof/Machine/TimeCmds.lean -/

@[simp] theorem tripOf_modTim (s : State) (f : Tim → Tim) : tripOf (modTim s f) = tripOf s := by
  simp [modTim]

@[simp] theorem tripOf_setPps (s : State) (level : Bool) : tripOf (setPps s level) = tripOf s := by
  simp [setPps]

@[simp] theorem tripOf_lockLost (s : State) (cause : Nat) : tripOf (lockLost s cause) = tripOf s := by
  simp [lockLost]

@[simp] theorem tripOf_lockStops (s : State) (cause : Nat) : tripOf (lockStops s cause) = tripOf s := by
  simp [lockStops]

@[simp] theorem tripOf_forcedStep (s : State) : tripOf (forcedStep s) = tripOf s := by
  simp [forcedStep]

@[simp] theorem tripOf_setCmp (s : State) (n : Nat) (v : Cmp) : tripOf (setCmp s n v) = tripOf s := by
  simp [setCmp]

@[simp] theorem tripOf_writeCmp (s : State) (n : Nat) (w : W64) : tripOf (writeCmp s n w) = tripOf s := by
  simp [writeCmp]

@[simp] theorem tripOf_fireCmp (s : State) (n : Nat) : tripOf (fireCmp s n) = tripOf s := by
  simp [fireCmp]

@[simp] theorem tripOf_applyChange (s : State) (a : Apply) : tripOf (applyChange s a) = tripOf s := by
  simp [applyChange]

/-! ### Sys2Proof/Machine/FronthaulCmds.lean -/

@[simp] theorem tripOf_meterNow (s : State) (p : Nat) : tripOf (meterNow s p) = tripOf s := by
  simp [meterNow]

@[simp] theorem tripOf_popHead (s : State) (p q : Nat) : tripOf (popHead s p q) = tripOf s := by
  simp [popHead]

@[simp] theorem tripOf_headFrame (p q fuel : Nat) (s : State) : tripOf (headFrame p q fuel s).1 = tripOf s := by
  induction fuel generalizing s with
  | zero => rfl
  | succ fuel ih =>
    unfold headFrame
    dsimp only
    split
    · rfl
    · split
      · rfl
      · simp [ih]
      · simp [ih]
      · simp [ih]
      · simp

@[simp] theorem tripOf_drrTurn (p : Nat) (ready : List (Nat × EgFrame)) (fuel : Nat) (s : State) :
    tripOf (drrTurn p ready fuel s).1 = tripOf s := by
  induction fuel generalizing s with
  | zero => rfl
  | succ fuel ih =>
    unfold drrTurn
    dsimp only
    split
    · simp [ih]
    · simp [apply_ite Prod.fst, ih]

@[simp] theorem tripOf_startFrame (s : State) (p q : Nat) (f : EgFrame) : tripOf (startFrame s p q f) = tripOf s := by
  unfold startFrame
  dsimp only
  split <;> simp

@[simp] theorem tripOf_queueHead (p : Nat) (a : State × List (Nat × EgFrame)) (q : Nat) :
    tripOf (queueHead p a q).1 = tripOf a.1 := by
  unfold queueHead
  dsimp only
  split <;> simp

/-! ### Sys2Proof/Machine/FabricCmds.lean -/

@[simp] theorem tripOf_fabricEcc (s : State) (h addr : Nat) : tripOf (fabricEcc s h addr) = tripOf s := by
  simp [fabricEcc]

@[simp] theorem tripOf_fabBar (s : State) (h addr : Nat) (b : Bar) : tripOf (fabBar s h addr b) = tripOf s := by
  simp [fabBar]

@[simp] theorem tripOf_ringPark (s : State) (page : Nat) (c : Instr) : tripOf (ringPark s page c) = tripOf s := by
  simp [ringPark]

@[simp] theorem tripOf_descBar (s : State) (i : Issuer) (k : Kind) (h addr len : Nat) (c : Instr) (b : Bar) :
    tripOf (descBar s i k h addr len c b) = tripOf s := by
  simp [descBar]

@[simp] theorem tripOf_loseJobs (s : State) (hs : List Nat) : tripOf (loseJobs s hs) = tripOf s := by
  simp [loseJobs]

@[simp] theorem tripOf_setRuns (s : State) (h : Nat) (l : List FabRun) : tripOf (setRuns s h l) = tripOf s := by
  simp [setRuns]

@[simp] theorem tripOf_modRun (s : State) (h id : Nat) (f : FabRun → FabRun) : tripOf (modRun s h id f) = tripOf s := by
  simp [modRun]

@[simp] theorem tripOf_settleRuns (h fuel : Nat) (s : State) : tripOf (settleRuns h fuel s) = tripOf s := by
  induction fuel generalizing s with
  | zero => rfl
  | succ fuel ih =>
    unfold settleRuns
    dsimp only
    split
    · rfl
    · split
      · rfl
      · split
        · simp
        · simp
        · split
          · simp
          · next hw => simp [ih, tripOf_devWrite hw]

@[simp] theorem tripOf_settleJob (s : State) (h : Nat) : tripOf (settleJob s h) = tripOf s := by
  simp [settleJob]

@[simp] theorem tripOf_settleAll (s : State) : tripOf (settleAll s) = tripOf s := by
  simp [settleAll]

@[simp] theorem tripOf_fabStart (s : State) (h kind : Nat) (opc : Option Nat) (c : Instr) (d : List W64)
    (body : ChipMap → Nat → State → State) (hbody : ∀ m id t, tripOf (body m id t) = tripOf t) :
    tripOf (fabStart s h kind opc c d body) = tripOf s := by
  unfold fabStart
  split
  · rfl
  · split
    · rfl
    · split
      · simp
      · split
        · simp
        · split
          · rfl
          · split
            · simp
            · rfl
            · simp [hbody]

@[simp] theorem tripOf_addRun (s : State) (h : Nat) (r : FabRun) : tripOf (addRun s h r) = tripOf s := by
  simp [addRun]

@[simp] theorem tripOf_sendRun (s : State) (h : Nat) (r : FabRun) (ps : List Packet) :
    tripOf (sendRun s h r ps) = tripOf s := by
  unfold sendRun
  dsimp only
  split
  · simp
  · next hs => simp [tripOf_sendAll hs]

@[simp] theorem tripOf_atomicCmd (aop h : Nat) (d : List W64) (c : Instr) (s : State) :
    tripOf (atomicCmd aop h d c s) = tripOf s := by
  refine tripOf_fabStart _ _ _ _ _ _ _ fun m id t => ?_
  dsimp only
  split
  · simp
  · split <;> simp

@[simp] theorem tripOf_sendColl (s : State) (h : Nat) (m : ChipMap) (c : Coll) (chip addr : Nat) (bs : List Byte) :
    tripOf (sendColl s h m c chip addr bs) = tripOf s := by
  unfold sendColl
  dsimp only
  split
  · rfl
  · split
    · simp
    · next hs => simp [tripOf_sendPacket hs]

@[simp] theorem tripOf_landColl (s : State) (h : Nat) (c : Coll) (off : Nat) (bs : List Byte) :
    tripOf (landColl s h c off bs) = tripOf s := by
  unfold landColl
  split
  · next hw => exact tripOf_devWrite hw
  · simp

@[simp] theorem tripOf_finalColl (s : State) (h : Nat) (m : ChipMap) (c : Coll) (off : Nat) (bs : List Byte) :
    tripOf (finalColl s h m c off bs) = tripOf s := by
  simp [finalColl]

@[simp] theorem tripOf_applyColl (s : State) (h : Nat) (m : ChipMap) (c : Coll) (p : Packet) :
    tripOf (applyColl s h m c p) = tripOf s := by
  unfold applyColl
  dsimp only
  (repeat' split) <;> simp

@[simp] theorem tripOf_endColl (s : State) (h : Nat) (m : ChipMap) : tripOf (endColl s h m) = tripOf s := by
  unfold endColl
  split <;> simp

@[simp] theorem tripOf_takeColl (s : State) (h : Nat) (m : ChipMap) (p : Packet) :
    tripOf (takeColl s h m p) = tripOf s := by
  unfold takeColl
  split <;> simp

@[simp] theorem tripOf_startColl (s : State) (h : Nat) (m : ChipMap) (id : Nat) (c : Coll) (d : List W64)
    (bs : List Byte) :
    tripOf (startColl s h m id c d bs) = tripOf s := by
  simp [startColl]

@[simp] theorem tripOf_collCmd (cop h : Nat) (d : List W64) (q : Instr) (s : State) :
    tripOf (collCmd cop h d q s) = tripOf s := by
  unfold collCmd
  split
  · rfl
  · refine tripOf_fabStart _ _ _ _ _ _ _ fun m id t => ?_
    dsimp only
    split <;> simp

@[simp] theorem tripOf_settleBarrier (s : State) (h : Nat) : tripOf (settleBarrier s h) = tripOf s := by
  unfold settleBarrier
  dsimp only
  split
  · rfl
  · split
    · rfl
    · split
      · rfl
      · split
        · simp
        · split
          · simp
          · simp
          · next hw => simp [tripOf_devWrite hw]

/-- What a packet's application leaves of the trip. -/
def Rcv.KeepsTrip (s : State) : Rcv → Prop
  | .applied t | .drop t | .nack t _ => tripOf t = tripOf s
  | .wait => True

theorem keepsTrip_rcvBar (s : State) (h addr : Nat) (b : Bar) : (rcvBar s h addr b).KeepsTrip s := by
  cases b <;> simp [rcvBar, Rcv.KeepsTrip]

@[simp] theorem tripOf_sendAnswer (s : State) (m : ChipMap) (dst : Nat) (p : Packet) :
    tripOf (sendAnswer s m dst p) = tripOf s := by
  unfold sendAnswer
  dsimp only
  split
  · simp
  · next hs => simp [tripOf_sendPacket hs]

theorem keepsTrip_applyData (s : State) (port : Nat) (m : ChipMap) (p : Packet) :
    (applyData s port m p).KeepsTrip s := by
  unfold applyData
  extract_lets h i a count reply len span old t'
  have hcount : ∀ t, tripOf (count t) = tripOf t := fun t => tripOf_countFabric t _ _ _
  have hreply : ∀ at0 r, (reply at0 r).KeepsTrip s := by
    intro at0 r
    unfold reply
    split
    · exact keepsTrip_rcvBar ..
    · next hw => simp [Rcv.KeepsTrip, hcount, tripOf_devWrite hw]
  split
  · split
    · exact keepsTrip_rcvBar ..
    · next hw => simp [Rcv.KeepsTrip, hcount, tripOf_devWrite hw]
  · split
    · rfl
    · split
      · exact keepsTrip_rcvBar ..
      · simp [Rcv.KeepsTrip, hcount]
  · split
    · rfl
    · exact hreply ..
  · split
    · simp [Rcv.KeepsTrip]
    · split
      · exact keepsTrip_rcvBar ..
      · split
        · exact keepsTrip_rcvBar ..
        · simp [Rcv.KeepsTrip, t', hcount]
  · split
    · rfl
    · exact hreply ..
  · split
    · rfl
    · simp [Rcv.KeepsTrip]
  · split
    · rfl
    · split
      · rfl
      · simp [Rcv.KeepsTrip]
  · split
    · trivial
    · simp [Rcv.KeepsTrip, hcount]

theorem keepsTrip_applyPacket (s : State) (port : Nat) (p : Packet) : (applyPacket s port p).KeepsTrip s := by
  unfold applyPacket
  split
  · split
    · rfl
    · split
      · exact keepsTrip_rcvBar ..
      · next hw => exact tripOf_devWrite hw
  · split
    · rfl
    · split
      · simp [Rcv.KeepsTrip]
      · split
        · rfl
        · exact keepsTrip_applyData ..

@[simp] theorem tripOf_parkPacket (s : State) (port : Nat) (p : Packet) : tripOf (parkPacket s port p) = tripOf s := by
  simp [parkPacket]

@[simp] theorem tripOf_receiveSeq (s : State) (port : Nat) (p : Packet) : tripOf (receiveSeq s port p) = tripOf s := by
  unfold receiveSeq
  extract_lets src seq want d t step
  have hstep : ∀ u, tripOf (step u) = tripOf u := fun u => tripOf_modPair u src _
  have happly : (applyPacket t port p).KeepsTrip s := by
    simpa [Rcv.KeepsTrip, t] using keepsTrip_applyPacket t port p
  split
  · rw [tripOf_sendReply, tripOf_vfCount]
  · split
    · rw [tripOf_sendReply]
    · split
      · rw [tripOf_sendReply, tripOf_vfCount, tripOf_modPair]
      · split
        · next ht => simpa [ht, Rcv.KeepsTrip, hstep] using happly
        · next ht => simpa [ht, Rcv.KeepsTrip, hstep] using happly
        · next ht => simpa [ht, Rcv.KeepsTrip] using happly
        · simp [t]

@[simp] theorem tripOf_arrive (typ port : Nat) (p : Packet) (s : State) (body : State → State)
    (hbody : ∀ t, tripOf (body t) = tripOf t) : tripOf (arrive typ port p s body) = tripOf s := by
  simp [arrive, hbody]

@[simp] theorem tripOf_arriveSeq (typ port : Nat) (p : Packet) (s : State) :
    tripOf (afterOf (arriveSeq typ port p s) s) = tripOf s := by
  simp [arriveSeq]

@[simp] theorem tripOf_acked (s : State) (dev : Nat) (t : Track) : tripOf (acked s dev t) = tripOf s := by
  unfold acked
  split <;> simp

@[simp] theorem tripOf_flushHeld (s : State) (dev : Nat) : tripOf (flushHeld s dev) = tripOf s := by
  unfold flushHeld
  dsimp only
  split
  · rfl
  · refine (tripOf_foldl (fun s t => ?_) _ _).trans (by simp)
    split
    · next hs => exact tripOf_sendPacket hs
    · simp only [tripOf_ite, tripOf_faultJob, ite_self]
      split <;> simp

@[simp] theorem tripOf_flushAll (s : State) : tripOf (flushAll s) = tripOf s := by
  simp [flushAll]

@[simp] theorem tripOf_routeChange (s : State) (dev : Nat) : tripOf (routeChange s dev) = tripOf s := by
  unfold routeChange
  split <;> simp

@[simp] theorem tripOf_resend (s : State) (dev : Nat) (ts : List Track) : tripOf (resend s dev ts) = tripOf s := by
  unfold resend
  split <;> simp

@[simp] theorem tripOf_vfDown (s : State) (p : Nat) : tripOf (vfDown s p) = tripOf s := by
  unfold vfDown
  dsimp only
  simp

end Sys2Proof.Machine
end

section
/-! PROOFS. The trip and the operations of the accesses, the referee, the lining and the power manager (R67). -/

namespace Sys2Proof.Machine

open Sys2Proof

/-! ### Sys2Proof/Machine/MgmtCmds.lean -/

@[simp] theorem tripOf_execMailboxPost (w i : Nat) (opcode : BitVec 16) (tag : W32) (args : List W64) (s : State) :
    tripOf (afterOf (execMailboxPost w i opcode tag args s) s) = tripOf s := by
  simp [execMailboxPost]

/-! ### Sys2Proof/Machine/SignalCmds.lean -/

@[simp] theorem tripOf_execInstructionStoreWrite (k i : Nat) (w : W32) (s : State) :
    tripOf (afterOf (execInstructionStoreWrite k i w s) s) = tripOf s := by
  simp [execInstructionStoreWrite]

@[simp] theorem tripOf_execEqpSjTailWrite (d : Nat) (v : W32) (s : State) :
    tripOf (afterOf (execEqpSjTailWrite d v s) s) = tripOf s := by
  simp [execEqpSjTailWrite]

@[simp] theorem tripOf_execEqpRptHeadWrite (d : Nat) (v : W32) (s : State) :
    tripOf (afterOf (execEqpRptHeadWrite d v s) s) = tripOf s := by
  simp [execEqpRptHeadWrite]

/-! ### Sys2Proof/Machine/TimeCmds.lean -/

@[simp] theorem tripOf_execFhNtNsRead (die : Nat) (s : State) :
    tripOf (afterOf (execFhNtNsRead die s) s) = tripOf s := by
  simp [execFhNtNsRead]

@[simp] theorem tripOf_execDicSrcRead (n : Nat) (s : State) : tripOf (afterOf (execDicSrcRead n s) s) = tripOf s := by
  simp [execDicSrcRead]

theorem tripOf_startRestart {s : State} (h : tripOf s = (true, .held)) (c : RestartCause) :
    tripOf (startRestart s c) = (true, .held) := by
  unfold startRestart
  dsimp only
  split
  · exact tripOf_deviceReset (by simp [h]) _
  · simp [h]

theorem tripOf_dicOrder {s : State} (h : tripOf s = (true, .held)) (t n top : Nat) :
    tripOf (execDicEoi.dicOrder s t n top) = (true, .held) := by
  unfold execDicEoi.dicOrder
  dsimp only
  split
  · exact tripOf_startRestart (by simp [h]) _
  · simp [h]

theorem tripOf_execDicEoi {s : State} (h : tripOf s = (true, .held)) (t : Nat) (v : W32) :
    tripOf (afterOf (execDicEoi t v s) s) = (true, .held) := by
  unfold execDicEoi
  dsimp only [afterOf_next]
  split
  · exact h
  · split
    · split
      · simp [h]
      · exact tripOf_dicOrder h ..
    · exact tripOf_dicOrder h ..

/-! ### Sys2Proof/Machine/AccessCmds.lean -/

@[simp] theorem tripOf_mboxWrite (s : State) (w off : Nat) (v : W64) : tripOf (mboxWrite s w off v) = tripOf s := by
  unfold mboxWrite
  dsimp only
  split
  · rfl
  · split
    · split <;> simp
    · simp

@[simp] theorem tripOf_eqpWrite (s : State) (d r : Nat) (v : W64) : tripOf (eqpWrite s d r v) = tripOf s := by
  simp [eqpWrite]

@[simp] theorem tripOf_sccWrite (s : State) (k r : Nat) (v : W64) : tripOf (sccWrite s k r v) = tripOf s := by
  simp [sccWrite]

@[simp] theorem tripOf_fhWrite (s : State) (p r : Nat) (v : W64) (tacor : Bool) :
    tripOf (fhWrite s p r v tacor) = tripOf s := by
  simp [fhWrite]

@[simp] theorem tripOf_radioWrite (s : State) (d off : Nat) (v : W64) (tacor : Bool) :
    tripOf (radioWrite s d off v tacor) = tripOf s := by
  simp [radioWrite]

theorem tripOf_dicWrite {s : State} (h : tripOf s = (true, .held)) (sl off : Nat) (v : W64) :
    tripOf (dicWrite s sl off v) = (true, .held) := by
  unfold dicWrite
  extract_lets t q n
  split
  · simp [h]
  · split
    · simp [h]
    · split
      · simp [h]
      · split
        · simp [h]
        · split
          · exact tripOf_execDicEoi h ..
          · exact h

@[simp] theorem tripOf_coreFault (s : State) (k addr : Nat) (st : Status) :
    tripOf (coreFault s k addr st) = tripOf s := by
  simp [coreFault]

@[simp] theorem tripOf_coreBar (s : State) (k addr : Nat) (b : Bar) : tripOf (coreBar s k addr b) = tripOf s := by
  unfold coreBar
  split <;> simp

theorem tripOf_coreRegWrite {s t : State} (h : tripOf s = (true, .held)) {k sl die off : Nat} {v : W64}
    (hw : coreRegWrite s k sl die off v = some t) : tripOf t = (true, .held) := by
  unfold coreRegWrite at hw
  split at hw
  · obtain rfl := Option.some.inj hw
    exact tripOf_dicWrite h ..
  · split at hw
    · obtain rfl := Option.some.inj hw
      rw [tripOf_radioWrite, h]
    · split at hw
      · obtain rfl := Option.some.inj hw
        rw [tripOf_mboxWrite, h]
      · nomatch hw

theorem tripOf_coreRegRead {s t : State} {k sl die off : Nat} (hr : coreRegRead s k sl die off = some t) :
    tripOf t = tripOf s := by
  unfold coreRegRead at hr
  extract_lets answer at hr
  have hanswer : ∀ v, tripOf (answer v) = tripOf s := fun v => tripOf_emit s _
  split at hr
  · split at hr
    · obtain rfl := Option.some.inj hr
      exact hanswer _
    · split at hr
      · obtain rfl := Option.some.inj hr
        exact tripOf_execDicSrcRead ..
      · obtain rfl := Option.some.inj hr
        exact hanswer _
  · split at hr
    · split at hr
      · obtain rfl := Option.some.inj hr
        exact tripOf_execFhNtNsRead ..
      · obtain rfl := Option.some.inj hr
        exact hanswer _
    · split at hr
      · obtain rfl := Option.some.inj hr
        exact hanswer _
      · nomatch hr

theorem tripOf_coreRegs {s : State} (h : tripOf s = (true, .held)) (k : Nat) (i : Issuer) (addr : Nat)
    (a : CoreAccess) :
    tripOf (coreRegs s k i addr a) = (true, .held) := by
  obtain ⟨r, hr⟩ : ∃ r, coreRegRead s k i.sleeve (regDie addr) (regOff addr) = r := ⟨_, rfl⟩
  obtain ⟨w, hw⟩ : ∃ w, coreRegWrite s k i.sleeve (regDie addr) (regOff addr) = w := ⟨_, rfl⟩
  have hread : ∀ t, r = some t → tripOf t = (true, .held) := fun t ht =>
    (tripOf_coreRegRead (hr.trans ht)).trans h
  have hwrite : ∀ v t, w v = some t → tripOf t = (true, .held) := fun v t ht =>
    tripOf_coreRegWrite h ((congrFun hw v).trans ht)
  unfold coreRegs
  dsimp only
  rw [hr, hw]
  split
  · split
    · exact hread _ rfl
    · simp [h]
  · split
    · next ht => exact hwrite _ _ ht
    · simp [h]
  · simp [h]

@[simp] theorem tripOf_coreMem (s : State) (k : Nat) (i : Issuer) (addr : Nat) (a : CoreAccess) :
    tripOf (coreMem s k i addr a) = tripOf s := by
  unfold coreMem
  split
  · split <;> simp
  · split
    · next hw => exact tripOf_devWrite hw
    · simp
    · simp
  · split
    · simp
    · simp
    · simp
  · rfl

@[simp] theorem tripOf_coreLocal (s : State) (k addr : Nat) (a : CoreAccess) :
    tripOf (coreLocal s k addr a) = tripOf s := by
  unfold coreLocal
  split <;> simp

@[simp] theorem tripOf_coreHost (s : State) (k : Nat) (i : Issuer) (addr n : Nat) (run : State → State)
    (hrun : ∀ t, tripOf (run t) = tripOf t) : tripOf (coreHost s k i addr n run) = tripOf s := by
  simp [coreHost, hrun]

theorem tripOf_coreAccess {s : State} (h : tripOf s = (true, .held)) (k addr : Nat) (a : CoreAccess) :
    tripOf (coreAccess s k addr a) = (true, .held) := by
  unfold coreAccess
  dsimp only
  split
  · exact h
  · split
    · simp [h]
    · simp [h]
    · simp [h]
    · simp [h, tripOf_coreRegs h]

/-! ### Sys2Proof/Machine/Referee.lean -/

@[simp] theorem tripOf_modDispute (s : State) (u : Nat) (f : Dispute → Dispute) :
    tripOf (modDispute s u f) = tripOf s := by
  simp [modDispute]

@[simp] theorem tripOf_dropDispute (s : State) (d : Dispute) : tripOf (dropDispute s d) = tripOf s := by
  simp [dropDispute]

@[simp] theorem tripOf_failDispute (s : State) (d : Dispute) (st : Status) :
    tripOf (failDispute s d st) = tripOf s := by
  simp [failDispute]

@[simp] theorem tripOf_countReferee (s : State) (r beats : Nat) : tripOf (countReferee s r beats) = tripOf s := by
  simp [countReferee]

@[simp] theorem tripOf_captureOpen (s : State) (d : Dispute) : tripOf (captureOpen s d) = tripOf s := by
  simp [captureOpen]

@[simp] theorem tripOf_stagingBad (s : State) (d : Dispute) (b : Nat) : tripOf (stagingBad s d b) = tripOf s := by
  simp [stagingBad]

@[simp] theorem tripOf_scratchBad (s : State) (d : Dispute) (r : Nat) : tripOf (scratchBad s d r) = tripOf s := by
  simp [scratchBad]

@[simp] theorem tripOf_stageChunk (s : State) (d : Dispute) (b r : Nat) : tripOf (stageChunk s d b r) = tripOf s := by
  simp [stageChunk]

@[simp] theorem tripOf_fillBuffer (s : State) (d : Dispute) (b : Nat) : tripOf (fillBuffer s d b) = tripOf s := by
  unfold fillBuffer
  split <;> simp

@[simp] theorem tripOf_withhold (s : State) (d : Dispute) : tripOf (withhold s d) = tripOf s := by
  simp [withhold]

@[simp] theorem tripOf_nextChunk (s : State) (d : Dispute) : tripOf (nextChunk s d) = tripOf s := by
  simp [nextChunk]

@[simp] theorem tripOf_writeRows (s : State) (d : Dispute) (rows : List (List Byte)) :
    tripOf (writeRows s d rows) = tripOf s := by
  simp [writeRows]

/-- What a referee places is bytes of memory. -/
@[simp] theorem tripOf_refereePass (s : State) (d : Dispute) (r : Nat) (es : List PassError) :
    tripOf (refereePass s d r es).placed = tripOf s := by
  simp [refereePass]

@[simp] theorem tripOf_refereeDesc (s : State) (d : Dispute) (o : RefereeObs) :
    tripOf (refereeDesc s d o).placed = tripOf s := by
  simp [refereeDesc]

@[simp] theorem tripOf_refereeWords (s : State) (d : Dispute) (o : RefereeObs) :
    tripOf (refereeWords s d o).placed = tripOf s := by
  simp [refereeWords]

@[simp] theorem tripOf_refereed (s : State) (d : Dispute) (r : Nat) (o : RefereeObs) :
    tripOf (refereed s d r o).placed = tripOf s := by
  unfold refereed
  split
  · simp
  · split <;> simp

@[simp] theorem tripOf_refereeFails (s : State) (d : Dispute) (r : Nat) : tripOf (refereeFails s d r) = tripOf s := by
  simp [refereeFails]

/-! ### Sys2Proof/Machine/LiningCmds.lean -/

@[simp] theorem tripOf_placeOperands (s : State) (u : Nat) (c : FitCur) : tripOf (placeOperands s u c) = tripOf s := by
  unfold placeOperands
  split <;> simp

@[simp] theorem tripOf_fitChain (s : State) (e : Nat) (d : List W64) (errors : List (Nat × PassError)) :
    tripOf (fitChain s e d errors) = tripOf s := by
  unfold fitChain
  dsimp only
  refine (tripOf_foldl (fun s p => ?_) _ _).trans (by simp)
  split <;> simp

@[simp] theorem tripOf_fitElement (s : State) (e : Nat) (d : List W64) (lanes : List (Nat × Nat)) :
    tripOf (fitElement s e d lanes) = tripOf s := by
  simp [fitElement]

@[simp] theorem tripOf_fitRun (s : State) (u : Nat) (c : FitCur) (o : FitObs) : tripOf (fitRun s u c o) = tripOf s := by
  unfold fitRun
  dsimp only
  (repeat' split) <;> simp

@[simp] theorem tripOf_logFitting (s : State) (r : FitResult) : tripOf (logFitting s r) = tripOf s := by
  simp [logFitting]

@[simp] theorem tripOf_liftFence (s : State) (u : Nat) : tripOf (liftFence s u) = tripOf s := by
  simp [liftFence]

@[simp] theorem tripOf_confirmFence (s : State) (u : Nat) : tripOf (confirmFence s u) = tripOf s := by
  simp [confirmFence]

@[simp] theorem tripOf_fitResult (s : State) (u : Nat) (r : FitRun) (c : FitCur) (outcome : Nat) :
    tripOf (fitResult s u r c outcome) = tripOf s := by
  simp [fitResult]

/-! ### Sys2Proof/Machine/PowerCmds.lean -/

@[simp] theorem tripOf_sampleDomain (s : State) (r : DomainReading) : tripOf (sampleDomain s r) = tripOf s := by
  simp [sampleDomain]

@[simp] theorem tripOf_noteHot (s : State) (d : Nat) : tripOf (noteHot s d) = tripOf s := by
  simp [noteHot]

end Sys2Proof.Machine
end

section
/-! PROOFS. The trip and the rows (R67): which rows leave the ball and the phase as they are in every state, family by
family. Where rows of one family share their operands, one lemma says it of all of them. -/

namespace Sys2Proof.Machine

open Sys2Proof

abbrev KeepsTrip (s : State) (o : Host.Outcome State Fault Refusal) : Prop := tripOf (afterOf o s) = tripOf s

@[simp] theorem tripOf_sleeveRows (k : Nat) (s : State) :
    KeepsTrip s (execQuiesceComplete k s) ∧ KeepsTrip s (execQuiesceTimeout k s) ∧
    KeepsTrip s (execDoorbellStateRead k s) ∧ KeepsTrip s (execFqLostRead k s) := by
  simp [KeepsTrip, execQuiesceComplete, execQuiesceTimeout, execDoorbellStateRead, execFqLostRead]

@[simp] theorem tripOf_queueRows (k : Nat) (v : W32) (s : State) :
    KeepsTrip s (execSqTailWrite k v s) ∧ KeepsTrip s (execCqHeadWrite k v s) ∧
    KeepsTrip s (execFqHeadWrite k v s) := by
  simp [KeepsTrip, execSqTailWrite, execCqHeadWrite, execFqHeadWrite]

@[simp] theorem tripOf_execLoweringDone (h : Nat) (ok : Bool) (lowered : LowerObs) (s : State) :
    KeepsTrip s (execLoweringDone h ok lowered s) := by
  simp [KeepsTrip, execLoweringDone]

@[simp] theorem tripOf_execJobPlaced (h : Nat) (places : List Place) (s : State) :
    KeepsTrip s (execJobPlaced h places s) := by
  simp [KeepsTrip, execJobPlaced]

@[simp] theorem tripOf_execStepBoundary (h : Nat) (o : StepObs) (s : State) : KeepsTrip s (execStepBoundary h o s) := by
  simp [KeepsTrip, execStepBoundary]

@[simp] theorem tripOf_jobRows (h : Nat) (s : State) :
    KeepsTrip s (execJobHoldRelease h s) ∧ KeepsTrip s (execTeardownDrainDone h s) := by
  simp [KeepsTrip, execJobHoldRelease, execTeardownDrainDone]

@[simp] theorem tripOf_execCadenceRelease (h : Nat) (s : State) : KeepsTrip s (execCadenceRelease h s) := by
  unfold execCadenceRelease
  dsimp only
  split <;> simp [KeepsTrip]

@[simp] theorem tripOf_execSnapshotDrainDone (h : Nat) (r : DrainResult) (s : State) :
    KeepsTrip s (execSnapshotDrainDone h r s) := by
  unfold execSnapshotDrainDone
  dsimp only
  (repeat' split) <;> simp [KeepsTrip]

@[simp] theorem tripOf_execTeardownTimeout (h : Nat) (s : State) : KeepsTrip s (execTeardownTimeout h s) := by
  unfold execTeardownTimeout
  dsimp only
  (repeat' split) <;> simp [KeepsTrip]

@[simp] theorem tripOf_execTelemetryDrop (src : Src) (s : State) : KeepsTrip s (execTelemetryDrop src s) := by
  unfold execTelemetryDrop
  split <;> simp [KeepsTrip]

@[simp] theorem tripOf_execHcExitCall (core : Nat) (status : BitVec 16) (s : State) :
    KeepsTrip s (execHcExitCall core status s) := by
  simp [KeepsTrip, execHcExitCall]

@[simp] theorem tripOf_execDicDelivery (t : Nat) (s : State) : KeepsTrip s (execDicDelivery t s) := by
  unfold execDicDelivery
  split <;> simp [KeepsTrip]

@[simp] theorem tripOf_execCxlLinkDown (c : LinkDownCause) (s : State) : KeepsTrip s (execCxlLinkDown c s) := by
  simp [KeepsTrip, execCxlLinkDown]

@[simp] theorem tripOf_execPasidEnableChange (on : Bool) (s : State) : KeepsTrip s (execPasidEnableChange on s) := by
  simp [KeepsTrip, execPasidEnableChange]

@[simp] theorem tripOf_consoleRows (s : State) :
    KeepsTrip s (execEvtLostRead s) ∧ KeepsTrip s (execUartStatus s) ∧ KeepsTrip s (execUartIdentity s) := by
  simp [KeepsTrip, execEvtLostRead, execUartStatus, execUartIdentity]

@[simp] theorem tripOf_sidebandRows (n : Nat) (s : State) :
    KeepsTrip s (execSetEndpointId n s) ∧ KeepsTrip s (execPldmDiscovery n s) ∧
    KeepsTrip s (execSetEventReceiver n s) ∧ KeepsTrip s (execPlatformEventMessageResponse n s) := by
  simp [KeepsTrip, execSetEndpointId, execPldmDiscovery, execSetEventReceiver, execPlatformEventMessageResponse]

@[simp] theorem tripOf_execUartOtherInput (_line : List Byte) (s : State) :
    KeepsTrip s (execUartOtherInput _line s) := by
  simp [KeepsTrip, execUartOtherInput]

@[simp] theorem tripOf_execErrorRecord (die : Nat) (s : State) : KeepsTrip s (execErrorRecord die s) := by
  unfold execErrorRecord
  (repeat' split) <;> simp [KeepsTrip]

@[simp] theorem tripOf_unitHealthRows (n : Nat) (s : State) :
    KeepsTrip s (execEngineStall n s) ∧ KeepsTrip s (execHostCoreStall n s) ∧
    KeepsTrip s (execEngineResetThreshold n s) := by
  simp [KeepsTrip, execEngineStall, execHostCoreStall, execEngineResetThreshold]

@[simp] theorem tripOf_execContextStall (e i : Nat) (s : State) : KeepsTrip s (execContextStall e i s) := by
  simp [KeepsTrip, execContextStall]

@[simp] theorem tripOf_execStallReplayDone (e i : Nat) (outcome : ReplayOutcome) (s : State) :
    KeepsTrip s (execStallReplayDone e i outcome s) := by
  unfold execStallReplayDone
  (repeat' split) <;> simp [KeepsTrip]

@[simp] theorem tripOf_execStallNoReferee (e i : Nat) (s : State) : KeepsTrip s (execStallNoReferee e i s) := by
  unfold execStallNoReferee
  split <;> simp [KeepsTrip]

@[simp] theorem tripOf_healthRows (s : State) :
    KeepsTrip s (execWithdrawnEvaluation s) ∧ KeepsTrip s (execHealthScoreUpdate s) ∧
    KeepsTrip s (execCleanMarkExpiry s) := by
  simp [KeepsTrip, execWithdrawnEvaluation, execHealthScoreUpdate, execCleanMarkExpiry]

@[simp] theorem tripOf_leaseRows (n : Nat) (s : State) :
    KeepsTrip s (execCellFrameBoundary n s) ∧ KeepsTrip s (execMoveJob0Close n s) ∧
    KeepsTrip s (execLeasePeriodStart n s) ∧ KeepsTrip s (execLeaseCheckPoint n s) := by
  simp [KeepsTrip, execCellFrameBoundary, execMoveJob0Close, execLeasePeriodStart, execLeaseCheckPoint]

@[simp] theorem tripOf_execHarqCarryLanded (c : Nat) (crcOk : Bool) (addr : Nat) (s : State) :
    KeepsTrip s (execHarqCarryLanded c crcOk addr s) := by
  unfold execHarqCarryLanded
  split <;> simp [KeepsTrip]

@[simp] theorem tripOf_execLeaseEndNoTacor (s : State) : KeepsTrip s (execLeaseEndNoTacor s) := by
  simp [KeepsTrip, execLeaseEndNoTacor]

@[simp] theorem tripOf_execSlotBoundary (d : Nat) (groupsOff groupsOn : List Nat) (plan : SlotPlan)
    (csiRs : List Nat) (s : State) :
    KeepsTrip s (execSlotBoundary d groupsOff groupsOn plan csiRs s) := by
  simp [KeepsTrip, execSlotBoundary]

@[simp] theorem tripOf_execTaskStart (k entry : Nat) (mode : Bool) (s1 s2 s3 s4 : W32) (seqs slotJob : Nat)
    (work : TaskWork) (s : State) :
    KeepsTrip s (execTaskStart k entry mode s1 s2 s3 s4 seqs slotJob work s) := by
  unfold execTaskStart
  dsimp only
  (repeat' split) <;> simp [KeepsTrip]

@[simp] theorem tripOf_execVmac (k acc va vb : Nat) (conj neg fp : Bool) (chk : CoreCheck) (s : State) :
    KeepsTrip s (execVmac k acc va vb conj neg fp chk s) := by
  simp [KeepsTrip, execVmac]

@[simp] theorem tripOf_execTapmov (k acc vw vc tap : Nat) (conj fp : Bool) (chk : CoreCheck) (s : State) :
    KeepsTrip s (execTapmov k acc vw vc tap conj fp chk s) := by
  simp [KeepsTrip, execTapmov]

@[simp] theorem tripOf_arithmeticRows (k vd va vb : Nat) (fp : Bool) (chk : CoreCheck) (s : State) :
    KeepsTrip s (execVadd k vd va vb fp chk s) ∧ KeepsTrip s (execVsub k vd va vb fp chk s) ∧
    KeepsTrip s (execVmul k vd va vb fp chk s) ∧ KeepsTrip s (execVmax k vd va vb fp chk s) ∧
    KeepsTrip s (execVmin k vd va vb fp chk s) := by
  simp [KeepsTrip, execVadd, execVsub, execVmul, execVmax, execVmin]

@[simp] theorem tripOf_flaggedRows (k a b : Nat) (flag : Bool) (chk : CoreCheck) (s : State) :
    KeepsTrip s (execVconj k a b flag chk s) ∧ KeepsTrip s (execSmovp k a b flag chk s) := by
  simp [KeepsTrip, execVconj, execSmovp]

@[simp] theorem tripOf_unaryRows (k a b : Nat) (chk : CoreCheck) (s : State) :
    KeepsTrip s (execVpow k a b chk s) ∧ KeepsTrip s (execVgold k a b chk s) := by
  simp [KeepsTrip, execVpow, execVgold]

@[simp] theorem tripOf_selectRows (k a b c d : Nat) (chk : CoreCheck) (s : State) :
    KeepsTrip s (execVsel k a b c d chk s) ∧ KeepsTrip s (execVcrc k a b c d chk s) ∧
    KeepsTrip s (execVsat8 k a b c d chk s) := by
  simp [KeepsTrip, execVsel, execVcrc, execVsat8]

@[simp] theorem tripOf_vectorRows (k a b c : Nat) (chk : CoreCheck) (s : State) :
    KeepsTrip s (execVperm k a b c chk s) ∧ KeepsTrip s (execVllradd k a b c chk s) ∧
    KeepsTrip s (execSadd k a b c chk s) ∧ KeepsTrip s (execSsub k a b c chk s) ∧
    KeepsTrip s (execScmp k a b c chk s) ∧ KeepsTrip s (execQpush k a b c chk s) := by
  simp [KeepsTrip, execVperm, execVllradd, execSadd, execSsub, execScmp, execQpush]

@[simp] theorem tripOf_execSli (k sd : Nat) (imm : BitVec 21) (chk : CoreCheck) (s : State) :
    KeepsTrip s (execSli k sd imm chk s) := by
  simp [KeepsTrip, execSli]

@[simp] theorem tripOf_execLoop (k : Nat) (lc : Bool) (sn stop : Nat) (chk : CoreCheck) (s : State) :
    KeepsTrip s (execLoop k lc sn stop chk s) := by
  simp [KeepsTrip, execLoop]

@[simp] theorem tripOf_execBr (k : Nat) (cond neg : Bool) (target : Nat) (chk : CoreCheck) (s : State) :
    KeepsTrip s (execBr k cond neg target chk s) := by
  simp [KeepsTrip, execBr]

@[simp] theorem tripOf_execQpop (k sd queue : Nat) (chk : CoreCheck) (s : State) :
    KeepsTrip s (execQpop k sd queue chk s) := by
  unfold execQpop
  split <;> simp [KeepsTrip]

@[simp] theorem tripOf_execIllegalInstruction (k : Nat) (word : W32) (s : State) :
    KeepsTrip s (execIllegalInstruction k word s) := by
  simp [KeepsTrip, execIllegalInstruction]

@[simp] theorem tripOf_execScStall (k : Nat) (s : State) : KeepsTrip s (execScStall k s) := by
  simp [KeepsTrip, execScStall]

@[simp] theorem tripOf_acceleratorRows (k : Nat) (o : UnitObs) (s : State) :
    KeepsTrip s (execChannelEstimation k o s) ∧ KeepsTrip s (execEqualisation k o s) ∧
    KeepsTrip s (execSrsChannelEstimation k o s) ∧ KeepsTrip s (execPolarDecode k o s) ∧
    KeepsTrip s (execPolarEncode k o s) ∧ KeepsTrip s (execReedMullerDecode k o s) ∧
    KeepsTrip s (execSequenceDetection k o s) ∧ KeepsTrip s (execPrecoding k o s) ∧
    KeepsTrip s (execWeightAttachment k o s) ∧ KeepsTrip s (execWeightComputation k o s) ∧
    KeepsTrip s (execUplaneSymbol k o s) ∧ KeepsTrip s (execLocalDmaCopy k o s) := by
  simp [KeepsTrip, execChannelEstimation, execEqualisation, execSrsChannelEstimation, execPolarDecode,
    execPolarEncode, execReedMullerDecode, execSequenceDetection, execPrecoding, execWeightAttachment,
    execWeightComputation, execUplaneSymbol, execLocalDmaCopy]

@[simp] theorem tripOf_execLdpcDecode (k decoder engineNo : Nat) (o : UnitObs) (s : State) :
    KeepsTrip s (execLdpcDecode k decoder engineNo o s) := by
  simp [KeepsTrip, execLdpcDecode]

@[simp] theorem tripOf_execLdpcEncode (k encoder : Nat) (o : UnitObs) (s : State) :
    KeepsTrip s (execLdpcEncode k encoder o s) := by
  simp [KeepsTrip, execLdpcEncode]

@[simp] theorem tripOf_execFlashWriteDone (readbackOk : Bool) (s : State) :
    KeepsTrip s (execFlashWriteDone readbackOk s) := by
  unfold execFlashWriteDone
  split <;> simp [KeepsTrip]

@[simp] theorem tripOf_jtagRows (s : State) :
    KeepsTrip s (execBypass s) ∧ KeepsTrip s (execIdcode s) ∧ KeepsTrip s (execSamplePreload s) ∧
    KeepsTrip s (execExtest s) := by
  simp [KeepsTrip, execBypass, execIdcode, execSamplePreload, execExtest]

@[simp] theorem tripOf_elementRows (e i : Nat) (d : List W64) (s : State) :
    KeepsTrip s (execAdd e i d s) ∧ KeepsTrip s (execSub e i d s) ∧ KeepsTrip s (execMul e i d s) ∧
    KeepsTrip s (execFma e i d s) ∧ KeepsTrip s (execDiv e i d s) ∧ KeepsTrip s (execSqrt e i d s) ∧
    KeepsTrip s (execMax e i d s) ∧ KeepsTrip s (execMin e i d s) ∧ KeepsTrip s (execRint e i d s) ∧
    KeepsTrip s (execScaleb e i d s) ∧ KeepsTrip s (execConvert e i d s) ∧ KeepsTrip s (execExp e i d s) ∧
    KeepsTrip s (execLog e i d s) ∧ KeepsTrip s (execSigmoid e i d s) ∧ KeepsTrip s (execSilu e i d s) ∧
    KeepsTrip s (execTanh e i d s) ∧ KeepsTrip s (execGelu e i d s) ∧ KeepsTrip s (execRsqrt e i d s) ∧
    KeepsTrip s (execFramesum e i d s) ∧ KeepsTrip s (execFramedot e i d s) ∧ KeepsTrip s (execSoftmax e i d s) ∧
    KeepsTrip s (execLayernorm e i d s) ∧ KeepsTrip s (execRmsnorm e i d s) ∧ KeepsTrip s (execQuantMx e i d s) := by
  simp [KeepsTrip, execAdd, execSub, execMul, execFma, execDiv, execSqrt, execMax, execMin, execRint, execScaleb,
    execConvert, execExp, execLog, execSigmoid, execSilu, execTanh, execGelu, execRsqrt, execFramesum, execFramedot,
    execSoftmax, execLayernorm, execRmsnorm, execQuantMx]

@[simp] theorem tripOf_execReleaseTick (target : TickTarget) (landed : Bool) (s : State) :
    KeepsTrip s (execReleaseTick target landed s) := by
  unfold execReleaseTick
  split <;> simp [KeepsTrip]

@[simp] theorem tripOf_execFreePassStart (e i beatsToTick : Nat) (s : State) :
    KeepsTrip s (execFreePassStart e i beatsToTick s) := by
  unfold execFreePassStart
  split <;> simp [KeepsTrip]

@[simp] theorem tripOf_execPassBoundary (e : Nat) (obs : PassObs) (s : State) :
    KeepsTrip s (execPassBoundary e obs s) := by
  unfold execPassBoundary
  split <;> simp [KeepsTrip]

@[simp] theorem tripOf_execPassFault (e : Nat) (kind : PassFaultKind) (s : State) :
    KeepsTrip s (execPassFault e kind s) := by
  unfold execPassFault
  (repeat' split) <;> simp [KeepsTrip]

@[simp] theorem tripOf_execEngineHang (e : Nat) (s : State) : KeepsTrip s (execEngineHang e s) := by
  unfold execEngineHang
  (repeat' split) <;> simp [KeepsTrip]

@[simp] theorem tripOf_execChain (e i : Nat) (d : List W64) (s : State) : KeepsTrip s (execChain e i d s) := by
  simp [KeepsTrip, execChain]

@[simp] theorem tripOf_execWaitSatisfied (e i : Nat) (s : State) : KeepsTrip s (execWaitSatisfied e i s) := by
  unfold execWaitSatisfied
  (repeat' split) <;> simp [KeepsTrip]

@[simp] theorem tripOf_dmaStartRows (e i : Nat) (d : List W64) (flips : List (Nat × Byte)) (s : State) :
    KeepsTrip s (execDmaIn e i d flips s) ∧ KeepsTrip s (execDmaOut e i d flips s) ∧
    KeepsTrip s (execDmaCopy e i d flips s) := by
  simp [KeepsTrip, execDmaIn, execDmaOut, execDmaCopy]

@[simp] theorem tripOf_execDmaComplete (e i : Nat) (flips : List (Nat × Byte)) (s : State) :
    KeepsTrip s (execDmaComplete e i flips s) := by
  unfold execDmaComplete
  dsimp only
  (repeat' split) <;> simp [KeepsTrip]

@[simp] theorem tripOf_execCompareArm (n : Nat) (value : W64) (s : State) : KeepsTrip s (execCompareArm n value s) := by
  simp [KeepsTrip, execCompareArm]

@[simp] theorem tripOf_execCompareFire (n : Nat) (s : State) : KeepsTrip s (execCompareFire n s) := by
  simp [KeepsTrip, execCompareFire]

@[simp] theorem tripOf_timebaseRows (s : State) :
    KeepsTrip s (execTimeApplyTick s) ∧ KeepsTrip s (execHoldoverEnter s) ∧ KeepsTrip s (execHoldoverExpire s) ∧
    KeepsTrip s (execPpsInEdge s) ∧ KeepsTrip s (execTbsNtNsRead s) := by
  simp [KeepsTrip, execTimeApplyTick, execHoldoverEnter, execHoldoverExpire, execPpsInEdge, execTbsNtNsRead]

@[simp] theorem tripOf_signalRows (p lane : Nat) (s : State) :
    KeepsTrip s (execLossOfSignal p lane s) ∧ KeepsTrip s (execLaneSignalRestored p lane s) ∧
    KeepsTrip s (execLaneDrop p lane s) := by
  simp [KeepsTrip, execLossOfSignal, execLaneSignalRestored, execLaneDrop]

@[simp] theorem tripOf_execPpsOutPulse (level : Bool) (s : State) : KeepsTrip s (execPpsOutPulse level s) := by
  simp [KeepsTrip, execPpsOutPulse]

@[simp] theorem tripOf_execLaneEyeSample (family : PortFamily) (p : Nat) (eyes : List Nat) (s : State) :
    KeepsTrip s (execLaneEyeSample family p eyes s) := by
  unfold execLaneEyeSample
  split <;> simp [KeepsTrip]

@[simp] theorem tripOf_threeLaneRows (p : Nat) (s : State) :
    KeepsTrip s (execThreeLaneLinkUp p s) ∧ KeepsTrip s (execThreeLaneTimeout p s) := by
  simp [KeepsTrip, execThreeLaneLinkUp, execThreeLaneTimeout]

@[simp] theorem tripOf_execEgressFrameStart (p : Nat) (s : State) : KeepsTrip s (execEgressFrameStart p s) := by
  unfold execEgressFrameStart
  dsimp only
  (repeat' split) <;> simp [KeepsTrip]

@[simp] theorem tripOf_atomicRows (h : Nat) (d : List W64) (s : State) :
    KeepsTrip s (execAddI64 h d s) ∧ KeepsTrip s (execMinI64 h d s) ∧ KeepsTrip s (execMaxI64 h d s) ∧
    KeepsTrip s (execAddF32 h d s) ∧ KeepsTrip s (execMinF32 h d s) ∧ KeepsTrip s (execMaxF32 h d s) ∧
    KeepsTrip s (execAddF64 h d s) ∧ KeepsTrip s (execMinF64 h d s) ∧ KeepsTrip s (execMaxF64 h d s) ∧
    KeepsTrip s (execCas64 h d s) ∧ KeepsTrip s (execCas128 h d s) ∧ KeepsTrip s (execAnchorMin h d s) ∧
    KeepsTrip s (execAnchorMax h d s) ∧ KeepsTrip s (execScaleMax h d s) ∧ KeepsTrip s (execSumWide h d s) ∧
    KeepsTrip s (execSumI64 h d s) ∧ KeepsTrip s (execCollectiveMinI64 h d s) ∧
    KeepsTrip s (execCollectiveMaxI64 h d s) := by
  simp [KeepsTrip, execAddI64, execMinI64, execMaxI64, execAddF32, execMinF32, execMaxF32, execAddF64, execMinF64,
    execMaxF64, execCas64, execCas128, execAnchorMin, execAnchorMax, execScaleMax, execSumWide, execSumI64,
    execCollectiveMinI64, execCollectiveMaxI64]

@[simp] theorem tripOf_execBarrierTimeout (h : Nat) (s : State) : KeepsTrip s (execBarrierTimeout h s) := by
  unfold execBarrierTimeout
  split <;> simp [KeepsTrip]

@[simp] theorem tripOf_packetRows (port : Nat) (p : Packet) (s : State) :
    KeepsTrip s (execPutPacket port p s) ∧ KeepsTrip s (execGetReq port p s) ∧ KeepsTrip s (execGetData port p s) ∧
    KeepsTrip s (execAtomicPacket port p s) ∧ KeepsTrip s (execAtomicResp port p s) ∧
    KeepsTrip s (execBarrierArrive port p s) ∧ KeepsTrip s (execBarrierRelease port p s) ∧
    KeepsTrip s (execColl port p s) ∧ KeepsTrip s (execAck port p s) := by
  simp [KeepsTrip, execPutPacket, execGetReq, execGetData, execAtomicPacket, execAtomicResp, execBarrierArrive,
    execBarrierRelease, execColl, execAck]

@[simp] theorem tripOf_execAckTimeout (dev : Nat) (s : State) : KeepsTrip s (execAckTimeout dev s) := by
  unfold execAckTimeout
  split <;> simp [KeepsTrip]

@[simp] theorem tripOf_deviceRows (n : Nat) (s : State) :
    KeepsTrip s (execLinkTimeout n s) ∧ KeepsTrip s (execFabricPortDown n s) := by
  simp [KeepsTrip, execLinkTimeout, execFabricPortDown]

@[simp] theorem tripOf_linkRows (a b : Nat) (s : State) :
    KeepsTrip s (execLinkReplayRequest a b s) ∧ KeepsTrip s (execFabricLaneDrop a b s) := by
  simp [KeepsTrip, execLinkReplayRequest, execFabricLaneDrop]

@[simp] theorem tripOf_execSlowChipReceived (num chip : Nat) (s : State) :
    KeepsTrip s (execSlowChipReceived num chip s) := by
  unfold execSlowChipReceived
  dsimp only
  (repeat' split) <;> simp [KeepsTrip]

@[simp] theorem tripOf_execRefereeStaging (u r : Nat) (s : State) : KeepsTrip s (execRefereeStaging u r s) := by
  unfold execRefereeStaging
  (repeat' split) <;> simp [KeepsTrip]

@[simp] theorem tripOf_execRefereeTimeout (u : Nat) (s : State) : KeepsTrip s (execRefereeTimeout u s) := by
  unfold execRefereeTimeout
  split <;> simp [KeepsTrip]

@[simp] theorem tripOf_execRefereePassDone (u : Nat) (obs : RefereeObs) (s : State) :
    KeepsTrip s (execRefereePassDone u obs s) := by
  unfold execRefereePassDone
  split <;> simp [KeepsTrip]

@[simp] theorem tripOf_execLocatingReplayDone (u : Nat) (faults : List (Nat × Nat × Int)) (s : State) :
    KeepsTrip s (execLocatingReplayDone u faults s) := by
  unfold execLocatingReplayDone
  split <;> simp [KeepsTrip]

@[simp] theorem tripOf_liningRows (u : Nat) (s : State) :
    KeepsTrip s (execStrikeCountConfirm u s) ∧ KeepsTrip s (execFittingPeriodEnd u s) ∧
    KeepsTrip s (execFenceClearanceDone u s) := by
  simp [KeepsTrip, execStrikeCountConfirm, execFittingPeriodEnd, execFenceClearanceDone]

@[simp] theorem tripOf_execFittingStart (u fitting beatsToTick : Nat) (s : State) :
    KeepsTrip s (execFittingStart u fitting beatsToTick s) := by
  unfold execFittingStart
  split <;> simp [KeepsTrip]

@[simp] theorem tripOf_execFittingDone (u : Nat) (run rerun : FitObs) (s : State) :
    KeepsTrip s (execFittingDone u run rerun s) := by
  unfold execFittingDone
  (repeat' split) <;> simp [KeepsTrip]

@[simp] theorem tripOf_powerRows (n : Nat) (s : State) :
    KeepsTrip s (execSagThrottle n s) ∧ KeepsTrip s (execPaceEntryLoaded n s) ∧ KeepsTrip s (execPaceFaultSet n s) ∧
    KeepsTrip s (execThrottleExit n s) := by
  simp [KeepsTrip, execSagThrottle, execPaceEntryLoaded, execPaceFaultSet, execThrottleExit]

@[simp] theorem tripOf_supplyRows (s : State) :
    KeepsTrip s (execSagCleared s) ∧ KeepsTrip s (execNvmWriteInhibit s) := by
  simp [KeepsTrip, execSagCleared, execNvmWriteInhibit]

@[simp] theorem tripOf_execSensorSample (rs : List DomainReading) (s : State) :
    KeepsTrip s (execSensorSample rs s) := by
  simp [KeepsTrip, execSensorSample]

@[simp] theorem tripOf_execSensorExclude (n i : Nat) (s : State) : KeepsTrip s (execSensorExclude n i s) := by
  simp [KeepsTrip, execSensorExclude]

@[simp] theorem tripOf_execTempSample (readings : List (Nat × Nat)) (failed : List Nat) (s : State) :
    KeepsTrip s (execTempSample readings failed s) := by
  simp [KeepsTrip, execTempSample]

@[simp] theorem tripOf_execDomainIdleOff (n : Nat) (s : State) : KeepsTrip s (execDomainIdleOff n s) := by
  unfold execDomainIdleOff
  split <;> simp [KeepsTrip]

@[simp] theorem tripOf_execEnergyMeterCheck (n meter regulator : Nat) (s : State) :
    KeepsTrip s (execEnergyMeterCheck n meter regulator s) := by
  simp [KeepsTrip, execEnergyMeterCheck]

theorem keepsTrip_of_next {s t : State} {o : Host.Outcome State Fault Refusal} (ho : o = .next t)
    (ht : tripOf t = tripOf s) : KeepsTrip s o := by
  rw [KeepsTrip, ho]
  exact ht

@[simp] theorem tripOf_execPldmSensorRead (tag sensor : Nat) (s : State) :
    KeepsTrip s (execPldmSensorRead tag sensor s) := by
  refine keepsTrip_of_next rfl (tripOf_pldmServe s tag _ fun t => ?_)
  split <;> simp

@[simp] theorem tripOf_execPollForPlatformEventMessage (tag : Nat) (ack : Option Nat) (s : State) :
    KeepsTrip s (execPollForPlatformEventMessage tag ack s) := by
  refine keepsTrip_of_next rfl (tripOf_pldmServe s tag _ fun t => ?_)
  dsimp only
  cases ack with
  | none => dsimp only; split <;> simp
  | some n => dsimp only; split <;> simp

@[simp] theorem tripOf_execUartErrors (s : State) : KeepsTrip s (execUartErrors s) := by
  refine keepsTrip_of_next rfl (tripOf_uartServe s _ fun t => ?_)
  rw [List.foldr_eq_foldl_reverse, tripOf_foldl fun u r => tripOf_emit u _, tripOf_emit]

@[simp] theorem tripOf_execHarqCarrySend (c : Nat) (s : State) : KeepsTrip s (execHarqCarrySend c s) := by
  refine keepsTrip_of_next rfl ?_
  extract_lets x dev parts packets
  split
  · rfl
  · split
    · simp
    · split
      · next hs => simp [tripOf_sendAll hs]
      · simp

/-! The core instructions that read or write a signal core's local memory, or ask for a free value. -/

@[simp] theorem tripOf_execTend (k : Nat) (late : Bool) (done : Option SlotDone) (chk : CoreCheck) (s : State) :
    KeepsTrip s (execTend k late done chk s) := by
  refine keepsTrip_of_next rfl (tripOf_coreRuns _ _ _ _ _ _ fun t => ?_)
  dsimp only
  split
  · simp
  · split
    · simp
    · simp

@[simp] theorem tripOf_execVext (k vd acc sh : Nat) (clr fp : Bool) (chk : CoreCheck) (s : State) :
    KeepsTrip s (execVext k vd acc sh clr fp chk s) := by
  refine keepsTrip_of_next rfl (tripOf_coreRuns _ _ _ _ _ _ fun t => ?_)
  split
  · trivial
  · exact tripOf_modSigCore ..

@[simp] theorem tripOf_execVld (k vd p : Nat) (postinc : Bool) (imm : BitVec 16) (chk : CoreCheck) (s : State) :
    KeepsTrip s (execVld k vd p postinc imm chk s) := by
  refine keepsTrip_of_next rfl (tripOf_coreRuns _ _ _ _ _ _ fun t => ?_)
  dsimp only
  split
  · simp
  · split <;> simp

@[simp] theorem tripOf_execVst (k vs p : Nat) (postinc : Bool) (imm : BitVec 16) (chk : CoreCheck) (s : State) :
    KeepsTrip s (execVst k vs p postinc imm chk s) := by
  refine keepsTrip_of_next rfl (tripOf_coreRuns _ _ _ _ _ _ fun t => ?_)
  dsimp only
  split
  · simp
  · split
    · simp
    · next hw => simp [tripOf_coreWrite hw]

@[simp] theorem tripOf_execVld2 (k vd pa pb : Nat) (postinc : Bool) (imm : BitVec 14) (chk : CoreCheck) (s : State) :
    KeepsTrip s (execVld2 k vd pa pb postinc imm chk s) := by
  refine keepsTrip_of_next rfl (tripOf_coreRuns _ _ _ _ _ _ fun t => ?_)
  dsimp only
  split
  · simp
  · split <;> simp

@[simp] theorem tripOf_execVst2 (k vs pa pb : Nat) (postinc : Bool) (imm : BitVec 14) (chk : CoreCheck) (s : State) :
    KeepsTrip s (execVst2 k vs pa pb postinc imm chk s) := by
  refine keepsTrip_of_next rfl (tripOf_coreRuns _ _ _ _ _ _ fun t => ?_)
  dsimp only
  split
  · simp
  · split
    · simp
    · next h₁ =>
      have hfree : ∀ c : Prop, [Decidable c] → ∀ v, tripOf (if c then takeFreeV t 41 else (v, t)).2 = tripOf t := by
        intro c _ v
        split <;> simp
      split
      · simp
      · next h₂ => simp [tripOf_coreWrite h₂, tripOf_coreWrite h₁, hfree]

@[simp] theorem tripOf_execVlds (k sd p : Nat) (postinc : Bool) (imm : BitVec 16) (chk : CoreCheck) (s : State) :
    KeepsTrip s (execVlds k sd p postinc imm chk s) := by
  refine keepsTrip_of_next rfl (tripOf_coreRuns _ _ _ _ _ _ fun t => ?_)
  dsimp only
  split <;> simp

@[simp] theorem tripOf_execVsts (k ss p : Nat) (postinc : Bool) (imm : BitVec 16) (chk : CoreCheck) (s : State) :
    KeepsTrip s (execVsts k ss p postinc imm chk s) := by
  refine keepsTrip_of_next rfl (tripOf_coreRuns _ _ _ _ _ _ fun t => ?_)
  dsimp only
  split
  · simp
  · next hw => simp [tripOf_coreWrite hw]

@[simp] theorem tripOf_execFl5Instruction (k : Nat) (word : W32) (peripheral : Bool) (chk : CoreCheck) (s : State) :
    KeepsTrip s (execFl5Instruction k word peripheral chk s) := by
  refine keepsTrip_of_next rfl ?_
  split
  · rfl
  · refine tripOf_coreRuns _ _ _ _ _ _ fun t => ?_
    split
    · trivial
    · dsimp only
      split
      · exact tripOf_fl5Effect ..
      · exact tripOf_fl5Effect ..

@[simp] theorem tripOf_execVscr (k vd va vs : Nat) (mode : Bool) (chk : CoreCheck) (s : State) :
    KeepsTrip s (execVscr k vd va vs mode chk s) := by
  refine keepsTrip_of_next rfl (tripOf_coreRuns _ _ _ _ _ _ fun t => ?_)
  dsimp only
  split
  · simp
  · simp only [keepsTrip_next, tripOf_modSigCore, apply_ite Prod.snd, tripOf_ite, tripOf_takeFreeV, ite_self]

@[simp] theorem tripOf_execVqam (k vd va qm : Nat) (chk : CoreCheck) (s : State) :
    KeepsTrip s (execVqam k vd va qm chk s) := by
  refine keepsTrip_of_next rfl (tripOf_coreRuns _ _ _ _ _ _ fun t => ?_)
  dsimp only
  split
  · simp
  · simp only [keepsTrip_next, tripOf_modSigCore, apply_ite Prod.snd, tripOf_ite, tripOf_takeFreeV, ite_self]

@[simp] theorem tripOf_execWaitc (k p sv : Nat) (chk : CoreCheck) (s : State) :
    KeepsTrip s (execWaitc k p sv chk s) := by
  refine keepsTrip_of_next rfl (tripOf_coreRuns _ _ _ _ _ _ fun t => ?_)
  dsimp only
  split <;> simp

@[simp] theorem tripOf_execWait (e i : Nat) (d : List W64) (s : State) : KeepsTrip s (execWait e i d s) := by
  refine keepsTrip_of_next rfl (tripOf_feederRow _ _ _ _ _ _ _ fun t => ?_)
  dsimp only
  split
  · simp
  · split <;> simp

@[simp] theorem tripOf_execSignal (e i : Nat) (d : List W64) (s : State) : KeepsTrip s (execSignal e i d s) := by
  refine keepsTrip_of_next rfl (tripOf_feederRow _ _ _ _ _ _ _ fun t => ?_)
  dsimp only
  split
  · simp
  · split
    · simp
    · next hw => simp [tripOf_writeWord hw]

@[simp] theorem tripOf_execPut (h : Nat) (d : List W64) (s : State) : KeepsTrip s (execPut h d s) := by
  refine keepsTrip_of_next rfl (tripOf_fabStart _ _ _ _ _ _ _ fun m id t => ?_)
  dsimp only
  split <;> simp

@[simp] theorem tripOf_execGet (h : Nat) (d : List W64) (s : State) : KeepsTrip s (execGet h d s) := by
  refine keepsTrip_of_next rfl (tripOf_fabStart _ _ _ _ _ _ _ fun m id t => ?_)
  dsimp only
  split <;> simp

@[simp] theorem tripOf_execBarrier (h : Nat) (d : List W64) (s : State) : KeepsTrip s (execBarrier h d s) := by
  refine keepsTrip_of_next rfl (tripOf_fabStart _ _ _ _ _ _ _ fun m id t => ?_)
  dsimp only
  generalize (if fdOpc d = 0 then (.ok [] : Except Bar (List Byte)) else devRead t (jobIssuer t h) (fdLocal d) 8) = v
  split
  · rfl
  · cases v <;> simp

@[simp] theorem tripOf_execNack (port : Nat) (p : Packet) (s : State) : KeepsTrip s (execNack port p s) := by
  refine keepsTrip_of_next rfl (tripOf_arrive _ _ _ _ _ fun t => ?_)
  dsimp only
  split
  · simp
  · split
    · rfl
    · split
      · simp
      · simp only [tripOf_ite, tripOf_faultJob, ite_self]
        split <;> simp

/-! ### Rows that may reset the device -/

section Resets

variable {s : State} (h : tripOf s = (true, .held))

include h

theorem tripOf_execTacorRestartLimit : tripOf (afterOf (execTacorRestartLimit s) s) = (true, .held) := by
  unfold execTacorRestartLimit
  dsimp only [afterOf_next]
  split
  · exact h
  · exact tripOf_deviceReset h _

theorem tripOf_execDeferredDeviceReset : tripOf (afterOf (execDeferredDeviceReset s) s) = (true, .held) := by
  unfold execDeferredDeviceReset
  dsimp only [afterOf_next]
  split
  · exact tripOf_deviceReset h _
  · exact h

theorem tripOf_execTacorRestartDone (imageOk flashOk : Bool) :
    tripOf (afterOf (execTacorRestartDone imageOk flashOk s) s) = (true, .held) := by
  unfold execTacorRestartDone
  dsimp only [afterOf_next]
  split
  · exact h
  · split
    · exact tripOf_deviceReset h _
    · simp [h]

theorem tripOf_execFunctionResetThreshold (die func : Nat) :
    tripOf (afterOf (execFunctionResetThreshold die func s) s) = (true, .held) := by
  unfold execFunctionResetThreshold
  dsimp only [afterOf_next]
  split
  · exact h
  · split
    · simp [h]
    · split
      · simp [h]
      · exact tripOf_dieFault (by simp [h]) _ _

theorem tripOf_execRawCopyCheck (die : Nat) (difference : Int) :
    tripOf (afterOf (execRawCopyCheck die difference s) s) = (true, .held) := by
  unfold execRawCopyCheck
  dsimp only [afterOf_next]
  split
  · exact h
  · split
    · simp [h]
    · split
      · exact tripOf_dieFault (by simp [h]) _ _
      · simp [h]

theorem tripOf_execDomainVoltageFail (n : Nat) :
    tripOf (afterOf (execDomainVoltageFail n s) s) = (true, .held) := by
  unfold execDomainVoltageFail
  dsimp only [afterOf_next]
  split
  · exact h
  · split
    · exact tripOf_dieFault (by simp [h]) _ _
    · split
      · simp [h]
      · split
        · rw [tripOf_radioFenced]
          split <;> simp [h]
        · refine (tripOf_foldl (fun t u => ?_) _ _).trans ?_
          · simp
          · split <;> simp [h]

theorem tripOf_execHostCoreAccess (k addr : Nat) (a : CoreAccess) :
    tripOf (afterOf (execHostCoreAccess k addr a s) s) = (true, .held) := by
  unfold execHostCoreAccess
  dsimp only [afterOf_next]
  split
  · exact tripOf_coreAccess h _ _ _
  · exact h

end Resets

end Sys2Proof.Machine
end

section
/-! PROOFS. The trip and the rows that a held device does not serve (R67, R421), the waiters that a page move releases,
and the resets: the ball and the reset stand whatever command runs. -/

namespace Sys2Proof.Machine

open Sys2Proof

section Held

variable {s : State} (hp : s.boot.phase = .held)

include hp

theorem reservedCommand_held (op : Nat) (c : Cmd) : execReservedCommand op c s = .next s := by
  simp [execReservedCommand, serve_held hp]

theorem managementCommands_held (c : Cmd) :
    execMgmtStatus c s = .next s ∧ execHcLoad c s = .next s ∧ execHcStop c s = .next s ∧ execHcStatus c s = .next s ∧
    execDicRouteSet c s = .next s ∧ execDicStatus c s = .next s ∧ execSidebandUpload c s = .next s ∧
    execTelemetryRead c s = .next s := by
  constructorm* _ ∧ _ <;> exact congrArg Host.Outcome.next (serve_held hp)

theorem sleeveCommands_held (c : Cmd) :
    execSleeveCreate c s = .next s ∧ execSleeveSet c s = .next s ∧ execSleeveHostRange c s = .next s ∧
    execSleeveQuiesce c s = .next s ∧ execSleeveResume c s = .next s ∧ execSleeveReset c s = .next s ∧
    execSleeveRemove c s = .next s ∧ execSleeveStatus c s = .next s ∧ execPagesAlloc c s = .next s ∧
    execPagesFree c s = .next s ∧ execSleeveDirtyStart c s = .next s ∧ execSleeveDirtyRead c s = .next s ∧
    execSleeveDirtyStop c s = .next s ∧ execSleeveExport c s = .next s ∧ execSleeveImport c s = .next s ∧
    execSleeveAccountRead c s = .next s := by
  constructorm* _ ∧ _ <;> exact congrArg Host.Outcome.next (serve_held hp)

theorem jobCommands_held (c : Cmd) :
    execJobSubmit c s = .next s ∧ execJobStatus c s = .next s ∧ execJobCancel c s = .next s ∧
    execSeqJoin c s = .next s ∧ execSeqLeave c s = .next s ∧ execSnapshotBegin c s = .next s ∧
    execSnapshotStatus c s = .next s ∧ execSnapshotRestore c s = .next s := by
  constructorm* _ ∧ _ <;> exact congrArg Host.Outcome.next (serve_held hp)

theorem radioCommands_held (c : Cmd) :
    execCellConfig c s = .next s ∧ execCellStart c s = .next s ∧ execCellStop c s = .next s ∧
    execCellMoveOut c s = .next s ∧ execCellMoveIn c s = .next s ∧ execLeasePlan c s = .next s ∧
    execLeaseCeilingSet c s = .next s ∧ execRadioStatus c s = .next s := by
  constructorm* _ ∧ _ <;> exact congrArg Host.Outcome.next (serve_held hp)

theorem powerCommands_held (c : Cmd) :
    execPwrCapSet c s = .next s ∧ execPwrGuardSet c s = .next s ∧ execPwrThermalSet c s = .next s ∧
    execPwrDomainRead c s = .next s := by
  constructorm* _ ∧ _ <;> exact congrArg Host.Outcome.next (serve_held hp)

theorem liningCommands_held (c : Cmd) :
    execFittingLoad c s = .next s ∧ execFittingStatus c s = .next s ∧ execFittingRun c s = .next s ∧
    execCandidateRead c s = .next s ∧ execCandidateFree c s = .next s ∧ execLiningLogRead c s = .next s := by
  constructorm* _ ∧ _ <;> exact congrArg Host.Outcome.next (serve_held hp)

theorem fronthaulCommands_held (c : Cmd) :
    execFhPortConfig c s = .next s ∧ execFhFlowSet c s = .next s ∧ execFhEgressSet c s = .next s ∧
    execFhGateList c s = .next s ∧ execFhPortRestore c s = .next s ∧ execFhPortStatus c s = .next s ∧
    execTimeConfig c s = .next s ∧ execTimeRate c s = .next s ∧ execTimeStep c s = .next s ∧
    execTimeLock c s = .next s ∧ execTimeRead c s = .next s := by
  constructorm* _ ∧ _ <;> exact congrArg Host.Outcome.next (serve_held hp)

theorem fabricCommands_held (c : Cmd) :
    execFabricConfig c s = .next s ∧ execFabricRouteSet c s = .next s ∧ execFabricJobMap c s = .next s ∧
    execFabricSink c s = .next s ∧ execFabricTeardown c s = .next s ∧ execFabricDeviceLost c s = .next s ∧
    execFabricStatus c s = .next s ∧ execFabricPortRestore c s = .next s := by
  constructorm* _ ∧ _ <;> exact congrArg Host.Outcome.next (serve_held hp)

theorem healthCommands_held (c : Cmd) :
    execHealthStatus c s = .next s ∧ execHealthLogRead c s = .next s ∧ execHealthConfig c s = .next s ∧
    execHealthClockSet c s = .next s ∧ execHealthSeed c s = .next s ∧ execHealthUnitConfirm c s = .next s ∧
    execHealthUnitClear c s = .next s ∧ execHealthDieClear c s = .next s ∧ execHealthReinstate c s = .next s ∧
    execHealthShutdown c s = .next s ∧ execHealthDeviceReset c s = .next s := by
  constructorm* _ ∧ _ <;> exact congrArg Host.Outcome.next (serve_held hp)

theorem bootCommands_held (c : Cmd) :
    execBootStatus c s = .next s ∧ execBootConfigRead c s = .next s ∧ execBootConfigSet c s = .next s ∧
    execBootImageUpdate c s = .next s ∧ execBootRollbackCommit c s = .next s ∧ execAttest c s = .next s ∧
    execAttestKeyRead c s = .next s ∧ execIdRead c s = .next s := by
  constructorm* _ ∧ _ <;> exact congrArg Host.Outcome.next (serve_held hp)

theorem mgmtCommand_held (op : Nat) (c : Cmd) : mgmtCommand op c s = .next s := by
  unfold mgmtCommand
  split <;> simp [managementCommands_held hp c, reservedCommand_held hp]

theorem sleeveCommand_held (op : Nat) (c : Cmd) : sleeveCommand op c s = .next s := by
  unfold sleeveCommand
  split <;> simp [sleeveCommands_held hp c, reservedCommand_held hp]

theorem jobCommand_held (op : Nat) (c : Cmd) : jobCommand op c s = .next s := by
  unfold jobCommand
  split <;> simp [jobCommands_held hp c, reservedCommand_held hp]

theorem radioCommand_held (op : Nat) (c : Cmd) : radioCommand op c s = .next s := by
  unfold radioCommand
  split <;> simp [radioCommands_held hp c, reservedCommand_held hp]

theorem powerCommand_held (op : Nat) (c : Cmd) : powerCommand op c s = .next s := by
  unfold powerCommand
  split <;> simp [powerCommands_held hp c, reservedCommand_held hp]

theorem liningCommand_held (op : Nat) (c : Cmd) : liningCommand op c s = .next s := by
  unfold liningCommand
  split <;> simp [liningCommands_held hp c, reservedCommand_held hp]

theorem fronthaulCommand_held (op : Nat) (c : Cmd) : fronthaulCommand op c s = .next s := by
  unfold fronthaulCommand
  split <;> simp [fronthaulCommands_held hp c, reservedCommand_held hp]

theorem fabricCommand_held (op : Nat) (c : Cmd) : fabricCommand op c s = .next s := by
  unfold fabricCommand
  split <;> simp [fabricCommands_held hp c, reservedCommand_held hp]

theorem healthCommand_held (op : Nat) (c : Cmd) : healthCommand op c s = .next s := by
  unfold healthCommand
  split <;> simp [healthCommands_held hp c, reservedCommand_held hp]

theorem bootCommand_held (op : Nat) (c : Cmd) : bootCommand op c s = .next s := by
  unfold bootCommand
  split <;> simp [bootCommands_held hp c, reservedCommand_held hp]

theorem runCommand_held (op : Nat) (c : Cmd) : runCommand op c s = .next s := by
  simp [runCommand, mgmtCommand_held hp, sleeveCommand_held hp, jobCommand_held hp, radioCommand_held hp,
    powerCommand_held hp, liningCommand_held hp, fronthaulCommand_held hp, fabricCommand_held hp, healthCommand_held hp,
    bootCommand_held hp, reservedCommand_held hp]

end Held

section Tripped

variable {s : State} (h : tripOf s = (true, .held))

include h

theorem phase_of_tripped : s.boot.phase = .held := (Prod.mk.inj h).2

theorem thermtrip_of_tripped : s.pins.thermtrip = true := (Prod.mk.inj h).1

theorem tripOf_execTxRingPoll (p r : Nat) : tripOf (afterOf (execTxRingPoll p r s) s) = (true, .held) := by
  simp [execTxRingPoll, phase_of_tripped h, h]

theorem tripOf_execCxlMemRead (a n : Nat) : tripOf (afterOf (execCxlMemRead a n s) s) = (true, .held) := by
  simp [execCxlMemRead, phase_of_tripped h, h]

theorem tripOf_execCxlMemWrite (a : Nat) (bs : List Byte) :
    tripOf (afterOf (execCxlMemWrite a bs s) s) = (true, .held) := by
  simp [execCxlMemWrite, phase_of_tripped h, h]

theorem tripOf_runParked (c : Instr) : tripOf (runParked c s) = (true, .held) := by
  unfold runParked
  split <;> simp [h, tripOf_execTxRingPoll h]

theorem tripOf_runWaiter (w : Waiter) : tripOf (runWaiter s w) = (true, .held) := by
  cases w with
  | coreStore k addr data => exact tripOf_coreAccess h ..
  | coreLoad k addr n => exact tripOf_coreAccess h ..
  | coreAdd k addr v => exact tripOf_coreAccess h ..
  | cxlRead addr n => exact tripOf_execCxlMemRead h ..
  | cxlWrite addr data => exact tripOf_execCxlMemWrite h ..
  | command c => exact tripOf_runParked h c
  | tacor op c => simp [runWaiter, runCommand_held (phase_of_tripped h), h]
  | _ => simp [runWaiter, h]

theorem tripOf_releaseWaiters : tripOf (releaseWaiters s) = (true, .held) := by
  unfold releaseWaiters
  refine List.foldlRecOn (motive := fun t => tripOf t = (true, .held)) _ _ (by simpa using h) fun t ht w _ => ?_
  split
  · simpa using ht
  · exact tripOf_runWaiter ht w.2

theorem tripOf_finishMove (m : Move) : tripOf (finishMove s m) = (true, .held) := by
  unfold finishMove
  exact tripOf_releaseWaiters (by simp [h])

theorem tripOf_execPageMoveDone (page : Nat) : tripOf (afterOf (execPageMoveDone page s) s) = (true, .held) := by
  unfold execPageMoveDone
  dsimp only [afterOf_next]
  split
  · exact tripOf_releaseWaiters h
  · exact tripOf_finishMove h _

theorem tripOf_execSubmissionFetch (k : Nat) (entry : Option (List W64)) (data : List Byte) :
    tripOf (afterOf (execSubmissionFetch k entry data s) s) = (true, .held) := by
  unfold execSubmissionFetch
  dsimp only
  split
  · exact h
  · split
    · simp [h]
    · split
      · simp [h]
      · rw [runCommand_held]
        · simp [h]
        · exact phase_of_tripped (by simp [h])

end Tripped

@[simp] theorem tripOf_fhLinkUp (s : State) (p : Nat) : tripOf (fhLinkUp s p) = tripOf s := by
  simp [fhLinkUp]

section

variable {s : State} (hp : s.boot.phase = .held)

include hp

theorem unitRows_held :
    (∀ sl value, execDicDoorbell sl value s = .next s) ∧ (∀ address, execEntdaa address s = .next s) ∧
    (∀ die unit, execAcceleratorStall die unit s = .next s) ∧ (∀ die func, execControllerStall die func s = .next s) ∧
    (∀ die func, execControllerFault die func s = .next s) ∧ (∀ width rate, execCxlLinkUp width rate s = .next s) ∧
    (∀ pair pc, execLockstepMismatch pair pc s = .next s) ∧ (∀ found, execScrubFrames found s = .next s) ∧
    (∀ e words, execScrubPocket e words s = .next s) ∧
    (∀ n dir flit buffer, execSeamFlitCrcError n dir flit buffer s = .next s) ∧
    (∀ n m lane, execSeamLaneRepair n m lane s = .next s) ∧ (∀ o, execEnergyWindow o s = .next s) := by
  simp [execDicDoorbell, execEntdaa, execAcceleratorStall, execControllerStall, execControllerFault, execCxlLinkUp,
    execLockstepMismatch, execScrubFrames, execScrubPocket, execSeamFlitCrcError, execSeamLaneRepair,
    execEnergyWindow, hp]

theorem bootRows_held :
    (∀ flash o, execColdBoot flash o s = .next s) ∧ (∀ image down o, execBootMboxGo image down o s = .next s) ∧
    (∀ c, execTacorWatchdog c s = .next s) ∧ (∀ tj, execThermalTrip tj s = .next s) := by
  simp [execColdBoot, execBootMboxGo, execTacorWatchdog, execThermalTrip, hp]

theorem portRows_held :
    (∀ p frame fcsOk eccOk buffered, execFrameReceived p frame fcsOk eccOk buffered s = .next s) ∧
    (∀ p, execGateEntryChange p s = .next s) ∧ (∀ p, execGateListSwitch p s = .next s) ∧
    (∀ p r, execTxRingPoll p r s = .next s) ∧ (∀ p up, execFabricLinkRetry p up s = .next s) := by
  simp [execFrameReceived, execGateEntryChange, execGateListSwitch, execTxRingPoll, execFabricLinkRetry, hp]

theorem accessRows_held :
    (∀ e i k value, execRingTailWrite e i k value s = .next s) ∧
    (∀ writer addr value, execRegisterWrite writer addr value s = .next s) := by
  simp [execRingTailWrite, execRegisterWrite, hp]

end

section

variable {s : State} (h : tripOf s = (true, .held))

include h

theorem tripOf_execPowerUp : tripOf (afterOf (execPowerUp s) s) = (true, .held) := by
  simp [execPowerUp, phase_of_tripped h, thermtrip_of_tripped h]

theorem tripOf_execNvmWriteResume : tripOf (afterOf (execNvmWriteResume s) s) = (true, .held) := by
  simp [execNvmWriteResume, h]

theorem tripOf_execFhLinkRetry (p : Nat) (up : Bool) : tripOf (afterOf (execFhLinkRetry p up s) s) = (true, .held) := by
  simp [execFhLinkRetry, phase_of_tripped h, h]

/-- The balls and rails of a device that is held already: what happens to them is noted and nothing is reset. -/
theorem tripOf_execCardReset (n : Nat) : tripOf (afterOf (execCardReset n s) s) = (true, .held) := by
  simp [execCardReset, phase_of_tripped h, thermtrip_of_tripped h, h]

theorem tripOf_execRefclkLost (ns ppm : Nat) : tripOf (afterOf (execRefclkLost ns ppm s) s) = (true, .held) := by
  simp [execRefclkLost, phase_of_tripped h, thermtrip_of_tripped h, h]

theorem tripOf_execRailFault (r : Rail) : tripOf (afterOf (execRailFault r s) s) = (true, .held) := by
  simp [execRailFault, phase_of_tripped h, thermtrip_of_tripped h]

theorem tripOf_execBrownOut : tripOf (afterOf (execBrownOut s) s) = (true, .held) := by
  simp [execBrownOut, phase_of_tripped h, thermtrip_of_tripped h]

theorem tripOf_exec {c : Instr} (hc : c ≠ .thermtripRelease) :
    tripOf (afterOf (exec c s) s) = (true, .held) := by
  have hp := phase_of_tripped h
  cases c with
  | thermtripRelease => exact absurd rfl hc
  | powerUp => exact tripOf_execPowerUp h
  | nvmWriteResume => exact tripOf_execNvmWriteResume h
  | fhLinkRetry => exact tripOf_execFhLinkRetry h ..
  | cardReset => exact tripOf_execCardReset h ..
  | refclkLost => exact tripOf_execRefclkLost h ..
  | railFault r => exact tripOf_execRailFault h r
  | brownOut => exact tripOf_execBrownOut h
  | tacorRestartLimit => exact tripOf_execTacorRestartLimit h
  | tacorRestartDone => exact tripOf_execTacorRestartDone h ..
  | deferredDeviceReset => exact tripOf_execDeferredDeviceReset h
  | functionResetThreshold => exact tripOf_execFunctionResetThreshold h ..
  | rawCopyCheck => exact tripOf_execRawCopyCheck h ..
  | domainVoltageFail => exact tripOf_execDomainVoltageFail h ..
  | hostCoreAccess => exact tripOf_execHostCoreAccess h ..
  | dicEoi => exact tripOf_execDicEoi h ..
  | txRingPoll => exact tripOf_execTxRingPoll h ..
  | cxlMemRead => exact tripOf_execCxlMemRead h ..
  | cxlMemWrite => exact tripOf_execCxlMemWrite h ..
  | pageMoveDone => exact tripOf_execPageMoveDone h ..
  | submissionFetch => exact tripOf_execSubmissionFetch h ..
  | reservedCommand => simp [exec, h, reservedCommand_held hp]
  | _ =>
    simp [exec, h, unitRows_held hp, bootRows_held hp, portRows_held hp, accessRows_held hp,
      managementCommands_held hp, sleeveCommands_held hp, jobCommands_held hp, radioCommands_held hp,
      powerCommands_held hp, liningCommands_held hp, fronthaulCommands_held hp, fabricCommands_held hp,
      healthCommands_held hp, bootCommands_held hp]

end

end Sys2Proof.Machine
end

section
/-! PROOFS. The thermal trip holds the device (R67, R457). -/

namespace Sys2Proof

open Machine

/-- Settles O57: a tripped device is held, and `tripOf_exec` shows that every row but the release keeps it so. -/
theorem thermalTripHoldsTheDevice : Obligations.ThermalTripHoldsTheDevice := by
  unfold Obligations.ThermalTripHoldsTheDevice
  refine ⟨?trips, ?cooler, ?holds, ?release⟩
  case trips =>
    intro tj s hhot hup
    exact ⟨_, exec_thermalTrip hhot hup, rfl, fun _ => rfl, deviceReset_phase_of_held (by simp [releaseOk]) none,
      rfl, rfl, rfl⟩
  case cooler =>
    intro tj s hcool
    change execThermalTrip tj s = _
    simp [execThermalTrip, hcool]
  case holds =>
    intro c s t htrip hheld hc hexec
    have h : tripOf t = (true, .held) := by
      simpa [hexec] using tripOf_exec (s := s) (by rw [tripOf, htrip, hheld]) hc
    exact ⟨thermtrip_of_tripped h, phase_of_tripped h⟩
  case release =>
    intro s htrip hheld
    exact ⟨_, exec_thermtripRelease htrip, rfl, hheld, _, exec_powerUp hheld rfl, rfl⟩

end Sys2Proof
end

section
/-! PROOFS. What the operations of the model make of its stores: the bytes of memory and the error paths (R122, R160,
R395, R396). Most operations leave them alone (`stores_…`); the others change them by writes of bytes, by zeroing, and
by the bounded writes of the error paths, which `Yields` gathers (`yields_…`), file by file of the model. -/

namespace Sys2Proof.Machine

open Sys2Proof

/-- What the invariants of memory and of the error paths speak of: the bytes of memory, the error queues of the dies,
the log and the PLDM queue. -/
structure Stores where
  mem : Memory
  queues : Tbl (List ErrEvent)
  log : List ErrRec
  pldm : List Nat

/-- The stores of a state. -/
def stores (s : State) : Stores := ⟨s.pkg.mem, s.hlt.queues, s.hlt.log, s.hlt.pldm⟩

/-- What the operations make of stores, one write at a time: a byte written, bytes zeroed, and on the error paths writes
that keep the sizes of R395 and R396 or make a queue shorter. -/
inductive Yields (c : Stores) : Stores → Prop
  | refl : Yields c c
  | byte {m q l p} (k : Nat) (b : Byte) : Yields c ⟨m, q, l, p⟩ → Yields c ⟨wrByte m k b, q, l, p⟩
  | zero {m q l p} (f : Nat × Byte → Bool) : Yields c ⟨m, q, l, p⟩ → Yields c ⟨m.filter f, q, l, p⟩
  | queue {m q l p} (d : Nat) (es : List ErrEvent) : es.length ≤ 256 ∨ es.length ≤ (tget [] q d).length →
      Yields c ⟨m, q, l, p⟩ → Yields c ⟨m, tset [] q d es, l, p⟩
  | noQueues {m q l p} : Yields c ⟨m, q, l, p⟩ → Yields c ⟨m, [], l, p⟩
  | log {m q l p} (rs : List ErrRec) : rs.length ≤ 32768 → Yields c ⟨m, q, l, p⟩ → Yields c ⟨m, q, rs, p⟩
  | pldm {m q l p} (ns : List Nat) : ns.length ≤ 64 ∨ ns.length ≤ p.length →
      Yields c ⟨m, q, l, p⟩ → Yields c ⟨m, q, l, ns⟩

@[simp] theorem stores_mk (a b c d e f g h i j k l m n o p q r) :
    stores ⟨a, b, c, d, e, f, g, h, i, j, k, l, m, n, o, p, q, r⟩ = ⟨a.mem, g.queues, g.log, g.pldm⟩ := (rfl)

@[simp] theorem stores_fold (s : State) : Stores.mk s.pkg.mem s.hlt.queues s.hlt.log s.hlt.pldm = stores s := (rfl)

@[simp] theorem stores_ite (p : Prop) [Decidable p] (s t : State) :
    stores (if p then s else t) = if p then stores s else stores t := apply_ite ..

@[simp] theorem stores_foldl {β : Type} {f : State → β → State} (hf : ∀ s b, stores (f s b) = stores s)
    (l : List β) (s : State) : stores (l.foldl f s) = stores s := by
  induction l generalizing s with
  | nil => rfl
  | cons b l ih => exact (ih _).trans (hf s b)

@[simp] theorem stores_elim {α : Type} (o : Option α) (s : State) (f : α → State) (hf : ∀ a, stores (f a) = stores s) :
    stores (o.elim s f) = stores s := by
  cases o with
  | none => rfl
  | some a => exact hf a

@[simp] theorem yields_refl (c : Stores) : Yields c c := .refl

theorem Yields.trans {a b c : Stores} (hab : Yields a b) (hbc : Yields b c) : Yields a c := by
  induction hbc with
  | refl => exact hab
  | byte k b _ ih => exact ih.byte k b
  | zero f _ ih => exact ih.zero f
  | queue d es hes _ ih => exact ih.queue d es hes
  | noQueues _ ih => exact ih.noQueues
  | log rs hrs _ ih => exact ih.log rs hrs
  | pldm ns hns _ ih => exact ih.pldm ns hns

@[simp] theorem yields_ite {c x y : Stores} {p : Prop} [Decidable p] :
    Yields c (if p then x else y) ↔ (p → Yields c x) ∧ (¬ p → Yields c y) := by
  split <;> simp [*]

@[simp] theorem yields_foldl {c : Stores} {β : Type} {f : State → β → State} {s : State} (h : Yields c (stores s))
    (hf : ∀ t b, Yields (stores t) (stores (f t b))) (l : List β) : Yields c (stores (l.foldl f s)) :=
  List.foldlRecOn (motive := fun t => Yields c (stores t)) l f h fun t ht b _ => ht.trans (hf t b)

theorem stores_of_next {o : Host.Outcome State Fault Refusal} {s t : State} (ho : o = .next t)
    (ht : stores t = stores s) : stores (afterOf o s) = stores s := by
  rw [ho, afterOf_next, ht]

theorem yields_of_next {c : Stores} {o : Host.Outcome State Fault Refusal} {s t : State} (ho : o = .next t)
    (ht : Yields c (stores t)) : Yields c (stores (afterOf o s)) := by
  rwa [ho, afterOf_next]

/-! ### Sys2Proof/Machine/Tbl.lean -/

section

variable {c : Stores} {m : Memory} {q : Tbl (List ErrEvent)} {l : List ErrRec} {p : List Nat}
  (h : Yields c ⟨m, q, l, p⟩)

include h

theorem yields_wrSkip (bad : List Nat) (k : Nat) (bs : List Byte) : Yields c ⟨wrSkip bad m k bs, q, l, p⟩ := by
  induction bs generalizing m k with
  | nil => exact h
  | cons b bs ih =>
    refine ih ?_ _
    split
    · exact h
    · exact h.byte k b

theorem yields_zeroBytes (k n : Nat) : Yields c ⟨zeroBytes m k n, q, l, p⟩ := h.zero _

theorem yields_copyBytes (dst src n : Nat) : Yields c ⟨copyBytes m dst src n, q, l, p⟩ :=
  List.foldlRecOn (motive := fun m => Yields c ⟨m, q, l, p⟩) _ _ (yields_zeroBytes h dst n) fun _ hm _ _ => hm.byte _ _

theorem yields_noBytes : Yields c ⟨[], q, l, p⟩ := by
  simpa using h.zero fun _ => false

end

end Sys2Proof.Machine
end

section
/-! PROOFS. What a step makes of the stores (R122, R160, R395, R396): the shared operations, chains, the element
engine and the domains. -/

namespace Sys2Proof.Machine

open Sys2Proof

/-! ### Sys2Proof/Machine/Ops.lean -/

section

variable {s : State}

@[simp] theorem stores_setUnit (u v) : stores (setUnit s u v) = stores s := (rfl)

@[simp] theorem stores_modUnit (u f) : stores (modUnit s u f) = stores s := (rfl)

@[simp] theorem stores_setEngine (e v) : stores (setEngine s e v) = stores s := (rfl)

@[simp] theorem stores_modEngine (e f) : stores (modEngine s e f) = stores s := (rfl)

@[simp] theorem stores_setSlot (e i v) : stores (setSlot s e i v) = stores s := (rfl)

@[simp] theorem stores_modSlot (e i f) : stores (modSlot s e i f) = stores s := (rfl)

@[simp] theorem stores_setJob (j v) : stores (setJob s j v) = stores s := (rfl)

@[simp] theorem stores_modJob (j f) : stores (modJob s j f) = stores s := (rfl)

@[simp] theorem stores_setSleeve (k v) : stores (setSleeve s k v) = stores s := (rfl)

@[simp] theorem stores_modSleeve (k f) : stores (modSleeve s k f) = stores s := (rfl)

@[simp] theorem stores_setDomain (n v) : stores (setDomain s n v) = stores s := (rfl)

@[simp] theorem stores_modDomain (n f) : stores (modDomain s n f) = stores s := (rfl)

@[simp] theorem stores_setDiePwr (d v) : stores (setDiePwr s d v) = stores s := (rfl)

@[simp] theorem stores_setMslot (w i v) : stores (setMslot s w i v) = stores s := (rfl)

@[simp] theorem stores_setHostCore (k v) : stores (setHostCore s k v) = stores s := (rfl)

@[simp] theorem stores_setSigCore (k v) : stores (setSigCore s k v) = stores s := (rfl)

@[simp] theorem stores_modSigCore (k f) : stores (modSigCore s k f) = stores s := (rfl)

@[simp] theorem stores_emit (o) : stores (emit s o) = stores s := (rfl)

@[simp] theorem stores_takeFree (site) : stores (takeFree s site).2 = stores s := (rfl)

@[simp] theorem stores_takeFreeBytes (site n) : stores (takeFreeBytes s site n).2 = stores s := (rfl)

@[simp] theorem stores_setOwn (page w) : stores (setOwn s page w) = stores s := (rfl)

@[simp] theorem stores_backInvalidate (addr len) : stores (backInvalidate s addr len) = stores s := (rfl)

@[simp] theorem stores_markDirty (addr len) : stores (markDirty s addr len) = stores s := by
  simp [markDirty]

@[simp] theorem stores_park (addr len w) : stores (park s addr len w) = stores s := by
  simp [park]

@[simp] theorem stores_msix (v) : stores (msix s v) = stores s := by
  simp [msix]

@[simp] theorem stores_postEvent (kind status sl detail) : stores (postEvent s kind status sl detail) = stores s := by
  simp [postEvent]

@[simp] theorem stores_setDicSrc (n v) : stores (setDicSrc s n v) = stores s := (rfl)

@[simp] theorem stores_setDicCore (t v) : stores (setDicCore s t v) = stores s := (rfl)

@[simp] theorem stores_dicDrop (isDenied) : stores (dicDrop s isDenied) = stores s := by
  simp [dicDrop]

@[simp] theorem stores_dicMessage (sl value) : stores (dicMessage s sl value) = stores s := by
  simp [dicMessage]

@[simp] theorem stores_countHost (k n) : stores (countHost s k n) = stores s := (rfl)

@[simp] theorem stores_hostRead (k addr n) : stores (hostRead s k addr n) = stores s := (rfl)

@[simp] theorem stores_queueFault (k) : stores (queueFault s k) = stores s := by
  simp [queueFault]

end

section

variable {c : Stores} {s : State} (h : Yields c (stores s))

include h

@[simp] theorem yields_physWrite (key bytes) : Yields c (stores (physWrite s key bytes)) := yields_wrSkip h ..

@[simp] theorem yields_physZero (key n) : Yields c (stores (physZero s key n)) := yields_zeroBytes h ..

@[simp] theorem yields_physCopy (dst src n) : Yields c (stores (physCopy s dst src n)) := by
  unfold physCopy
  dsimp only [stores_mk]
  split
  · exact yields_copyBytes h ..
  · exact yields_wrSkip h ..

@[simp] theorem yields_windowWrite (addr bytes) : Yields c (stores (windowWrite s addr bytes)) := by
  simp [windowWrite, h]

theorem yields_devWrite {s'} {i k addr bytes} (hs : devWrite s i k addr bytes = .ok s') : Yields c (stores s') := by
  grind [devWrite, yields_windowWrite]

@[simp] theorem yields_raise (e) : Yields c (stores (raise s e)) := by
  unfold raise
  extract_lets d q
  split
  · next hq => exact h.queue _ _ (.inl (by simpa [q] using hq))
  · exact h

@[simp] theorem yields_setBitmapWord (v i w) : Yields c (stores (setBitmapWord s v i w)) := by
  unfold setBitmapWord
  split <;> simp [h]

@[simp] theorem yields_markHostDirty (k addr len) : Yields c (stores (markHostDirty s k addr len)) := by
  simp [markHostDirty, h]

@[simp] theorem yields_hostWrite (k addr bytes) : Yields c (stores (hostWrite s k addr bytes)) := by
  simp [hostWrite, h]

@[simp] theorem yields_postFault (k record) : Yields c (stores (postFault s k record)) := by
  simp [postFault, h]

@[simp] theorem yields_postCq (k tag status result) : Yields c (stores (postCq s k tag status result)) := by
  simp [postCq, h]

end

/-! ### Sys2Proof/Machine/Chain.lean -/

section

variable {c : Stores} {s : State} (h : Yields c (stores s))

include h

@[simp] theorem yields_partWrite (x e off bytes) : Yields c (stores (partWrite s x e off bytes)) := by
  simp [partWrite, h]

@[simp] theorem yields_writeAnchor (x e d m n a) : Yields c (stores (writeAnchor s x e d m n a)) := by
  simp [writeAnchor, h]

@[simp] theorem yields_setFed (x e m) : Yields c (stores (setFed s x e m)) := by
  simp [setFed, h]

@[simp] theorem yields_scalePass (x e d next isNew) : Yields c (stores (scalePass s x e d next isNew)) := by
  unfold scalePass
  refine yields_foldl h (fun u mn => ?_) _
  exact yields_partWrite (yields_writeAnchor .refl ..) ..

@[simp] theorem yields_classify (x e d) : Yields c (stores (classify s x e d).1) :=
  List.foldlRecOn (motive := fun y : State × Nat => Yields c (stores y.1)) (outputs d) _ h fun y hy mn _ => by
    dsimp only
    split
    · split <;> simp [hy]
    · simp [hy]

@[simp] theorem yields_anchorPass (x e d tile t) : Yields c (stores (anchorPass s x e d tile t)) := by
  refine yields_foldl h (fun u mn => ?_) _
  dsimp only
  split
  · exact .refl
  · split <;> simp

omit h in
@[simp] theorem yields_productOut (r m n fed) (o : PassOut) (ho : Yields c (stores o.st)) :
    Yields c (stores (productOut r m n fed o).st) := by
  unfold productOut
  dsimp only
  split <;> simp [ho]

omit h in
theorem yields_productRow (r m fed ns) (o : PassOut) (ho : Yields c (stores o.st)) :
    Yields c (stores (List.foldl (fun o n => productOut r m n fed o) o ns).st) :=
  List.foldlRecOn (motive := fun o : PassOut => Yields c (stores o.st)) ns _ ho fun p hp n _ =>
    yields_productOut r m n fed p hp

@[simp] theorem yields_productPass (r) : Yields c (stores (productPass s r).st) :=
  List.foldlRecOn (motive := fun o : PassOut => Yields c (stores o.st)) (List.range (cRows r.d)) _ h fun o ho m _ => by
    have hrow := yields_productRow r m (fedBit o.st r.x r.e m) (List.range (cCols r.d)) o ho
    dsimp only
    split
    · refine yields_setFed ?_ ..
      split
      · exact yields_partWrite hrow ..
      · exact hrow
    · split <;> simp [hrow]

end

/-! ### Sys2Proof/Machine/Elements.lean -/

section

variable {c : Stores} {s : State} (h : Yields c (stores s))

include h

@[simp] theorem yields_putWrites (x e ws) : Yields c (stores (putWrites s x e ws)) := by
  simp [putWrites, h]

end

/-! ### Sys2Proof/Machine/Domains.lean -/

section

variable {s : State}

@[simp] theorem stores_domainBoundary (n) : stores (domainBoundary s n) = stores s := (rfl)

@[simp] theorem stores_wakeEngine (e) : stores (wakeEngine s e) = stores s := (rfl)

@[simp] theorem stores_releaseSlot (d) : stores (releaseSlot s d) = stores s := (rfl)

@[simp] theorem stores_riseIfHeld (n) : stores (riseIfHeld s n) = stores s := by
  simp [riseIfHeld]

@[simp] theorem stores_takeThrottle (n) : stores (takeThrottle s n) = stores s := by
  unfold takeThrottle
  (repeat' split) <;> simp

@[simp] theorem stores_taskBoundary (n) : stores (taskBoundary s n) = stores s := by
  simp [taskBoundary]

@[simp] theorem stores_noteReferees : stores (noteReferees s) = stores s := (rfl)

end

end Sys2Proof.Machine
end

section
/-! PROOFS. What a step makes of the stores (R122, R160, R395, R396): the operations of the radio, of referee chunks,
of the fabric and of the fronthaul ports. -/

namespace Sys2Proof.Machine

open Sys2Proof

/-! ### Sys2Proof/Machine/RadioOps.lean -/

section

variable {s : State}

@[simp] theorem stores_setCell (d v) : stores (setCell s d v) = stores s := (rfl)

@[simp] theorem stores_modCell (d f) : stores (modCell s d f) = stores s := (rfl)

@[simp] theorem stores_setRadDie (d v) : stores (setRadDie s d v) = stores s := (rfl)

@[simp] theorem stores_modRadDie (d f) : stores (modRadDie s d f) = stores s := (rfl)

@[simp] theorem stores_takeUnits (d) : stores (takeUnits s d) = stores s := (rfl)

@[simp] theorem stores_stopCell (d) : stores (stopCell s d) = stores s := (rfl)

@[simp] theorem stores_stopCells (p) : stores (stopCells s p) = stores s := by
  simp [stopCells]

@[simp] theorem stores_shedCells (d fuel) : stores (shedCells d fuel s) = stores s := by
  induction fuel generalizing s with
  | zero => rfl
  | succ fuel ih =>
    unfold shedCells
    split
    · rfl
    · split
      · simp [ih]
      · rfl

@[simp] theorem stores_loseReport (d) : stores (loseReport s d) = stores s := (rfl)

@[simp] theorem stores_bufferReport (d words) : stores (bufferReport s d words) = stores s := by
  simp [bufferReport]

@[simp] theorem stores_unitTimer (die q) : stores (unitTimer s die q) = stores s := by
  simp [unitTimer]

@[simp] theorem stores_retireDesc (k q d) : stores (retireDesc s k q d) = stores s := by
  simp [retireDesc]

@[simp] theorem stores_failAllocs (d t) : stores (failAllocs s d t) = stores s := (rfl)

@[simp] theorem stores_abortOne (rerun k) : stores (abortOne rerun s k) = stores s := by
  unfold abortOne
  split <;> simp

@[simp] theorem stores_abortTask (k rerun) : stores (abortTask s k rerun) = stores s := by
  simp [abortTask]

@[simp] theorem stores_pushDesc (k q d) : stores (pushDesc s k q d) = stores s := by
  simp [pushDesc]

@[simp] theorem stores_resetSignalCore (k) : stores (resetSignalCore s k) = stores s := by
  simp [resetSignalCore]

@[simp] theorem stores_oweFallback (cells) : stores (oweFallback s cells) = stores s := by
  simp [oweFallback]

@[simp] theorem stores_leaseReplan (e) : stores (leaseReplan s e) = stores s := by
  unfold leaseReplan
  split <;> simp

@[simp] theorem stores_setLease (es) : stores (setLease s es) = stores s := by
  simp [setLease]

@[simp] theorem stores_endLease : stores (endLease s) = stores s := by
  simp [endLease]

@[simp] theorem stores_planRepeat : stores (planRepeat s) = stores s := (rfl)

@[simp] theorem stores_tacorBack : stores (tacorBack s) = stores s := by
  simp [tacorBack]

@[simp] theorem stores_radioBoot : stores (radioBoot s) = stores s := (rfl)

end

section

variable {c : Stores} {s : State} (h : Yields c (stores s))

include h

@[simp] theorem yields_capacityLost (d before after) : Yields c (stores (capacityLost s d before after)) := by
  simp [capacityLost, h]

@[simp] theorem yields_radioFenced (d) : Yields c (stores (radioFenced s d)) := by
  simp [radioFenced, h]

@[simp] theorem yields_writeReport (d words) : Yields c (stores (writeReport s d words)) := by
  fun_induction writeReport s d words with
  | case1 s w0 w1 w2 w3 rest r s' ih => exact ih (by simp [s', h])
  | case2 => exact h

@[simp] theorem yields_tryReport (d words) : Yields c (stores (tryReport s d words).st) := by
  unfold tryReport
  dsimp only
  split
  · exact h
  · split <;> simp [ReportTurn.st, h]

theorem yields_of_done {d words s'} (hs : tryReport s d words = .done s') : Yields c (stores s') := by
  simpa [hs, ReportTurn.st] using yields_tryReport h d words

theorem yields_of_stays {d words s'} (hs : tryReport s d words = .stays s') : Yields c (stores s') := by
  simpa [hs, ReportTurn.st] using yields_tryReport h d words

@[simp] theorem yields_putReport (d words) : Yields c (stores (putReport s d words)) := by
  grind [putReport, stores_bufferReport, yields_of_done, yields_of_stays]

@[simp] theorem yields_drainReports (d fuel) : Yields c (stores (drainReports d fuel s)) := by
  induction fuel generalizing s with
  | zero => exact h
  | succ fuel ih =>
    unfold drainReports
    split
    · exact h
    · split
      · next hs => exact ih (by simpa using yields_of_done h hs)
      · next hs => exact yields_of_stays h hs

@[simp] theorem yields_reportStatus (d j as status) : Yields c (stores (reportStatus s d j as status)) := by
  simp [reportStatus, h]

@[simp] theorem yields_completionWord (k d ok) : Yields c (stores (completionWord s k d ok)) := by
  simp [completionWord, h]

@[simp] theorem yields_completeDesc (k q d ok) : Yields c (stores (completeDesc s k q d ok)) := by
  unfold completeDesc
  split <;> simp [h]

@[simp] theorem yields_failStarted (u) : Yields c (stores (failStarted s u)) := by
  simp [failStarted, h]

@[simp] theorem yields_radioFunctionReset (d) : Yields c (stores (radioFunctionReset s d)) := by
  simp [radioFunctionReset, h]

end

/-! ### Sys2Proof/Machine/Chunks.lean -/

section

variable {c : Stores} {s : State} (h : Yields c (stores s))

include h

@[simp] theorem yields_zeroReferee (d) : Yields c (stores (zeroReferee s d)) := by
  unfold zeroReferee
  refine yields_foldl ?_ (fun _ _ => yields_physZero .refl ..) _
  cases d.buffer with
  | none => exact h
  | some b => exact yields_physZero h ..

@[simp] theorem yields_reportUnreadable (frame) : Yields c (stores (reportUnreadable s frame)) := by
  simp [reportUnreadable, h]

@[simp] theorem yields_gatherChunk (d key) : Yields c (stores (gatherChunk s d key)) := by
  unfold gatherChunk
  refine yields_foldl (yields_physZero (yields_physCopy h ..) ..) (fun u mr => ?_) _
  extract_lets m r u₁ u₂ u₃ u₄ a
  have h₁ : Yields (stores u) (stores u₁) := by
    unfold u₁
    split
    · exact yields_physCopy .refl ..
    · exact .refl
  have h₃ : Yields (stores u) (stores u₃) := yields_physCopy (yields_physCopy h₁ ..) ..
  have h₄ : Yields (stores u) (stores u₄) := by
    unfold u₄
    split
    · exact yields_foldl h₃ (fun _ _ => yields_physWrite .refl ..) _
    · exact h₃
  split
  · exact yields_physWrite h₄ ..
  · exact h₄

@[simp] theorem yields_placeImage (key image) : Yields c (stores (placeImage s key image)) := by
  simp [placeImage, h]

@[simp] theorem yields_withChunk (d) : Yields c (stores (withChunk s d)) := by
  unfold withChunk
  split <;> simp [h]

@[simp] theorem yields_capture (d verdict) : Yields c (stores (capture s d verdict)) := by
  unfold capture
  extract_lets consent operands entry t
  have ht : Yields c (stores t) := by
    unfold t
    split
    · exact yields_reportUnreadable h ..
    · exact h
  split
  · exact yields_physWrite (yields_physZero ht ..) ..
  · exact ht

end

/-! ### Sys2Proof/Machine/FabricOps.lean -/

section

variable {s : State}

@[simp] theorem stores_setVfPort (p v) : stores (setVfPort s p v) = stores s := (rfl)

@[simp] theorem stores_modVfPort (p f) : stores (modVfPort s p f) = stores s := (rfl)

@[simp] theorem stores_setPair (d v) : stores (setPair s d v) = stores s := (rfl)

@[simp] theorem stores_modPair (d f) : stores (modPair s d f) = stores s := (rfl)

@[simp] theorem stores_vfCount (p i) : stores (vfCount s p i) = stores s := (rfl)

@[simp] theorem stores_modMap (num f) : stores (modMap s num f) = stores s := (rfl)

@[simp] theorem stores_emitPacket (port p) : stores (emitPacket s port p) = stores s := (rfl)

theorem stores_sendPacket {s'} {p t} (hs : sendPacket s p t = some s') : stores s' = stores s := by
  grind [sendPacket, stores_setPair, stores_emitPacket]

@[simp] theorem stores_sendReply (typ dst seq status) : stores (sendReply s typ dst seq status) = stores s := by
  unfold sendReply
  split <;> simp

theorem stores_sendAll {s'} {ps} (hs : sendAll s ps = some s') : stores s' = stores s := by
  induction ps generalizing s with
  | nil => grind [sendAll]
  | cons p ps ih => grind [sendAll, stores_sendPacket]

@[simp] theorem stores_countFabric (k j bytes) : stores (countFabric s k j bytes) = stores s := by
  simp [countFabric]

@[simp] theorem stores_markLost (d) : stores (markLost s d) = stores s := (rfl)

@[simp] theorem stores_endCarry (d) : stores (endCarry s d) = stores s := (rfl)

@[simp] theorem stores_endCarries : stores (endCarries s) = stores s := by
  simp [endCarries]

@[simp] theorem stores_dropTracks (d which) : stores (dropTracks s d which).1 = stores s := by
  simp [dropTracks]

@[simp] theorem stores_stopFabric (j) : stores (stopFabric s j) = stores s := (rfl)

@[simp] theorem stores_fabricJobFault (j status) : stores (fabricJobFault s j status) = stores s := by
  unfold fabricJobFault
  split <;> simp

@[simp] theorem stores_fabricJobFree (j) : stores (fabricJobFree s j) = stores s := (rfl)

@[simp] theorem stores_barrierReleased (m snap value) : stores (barrierReleased s m snap value) = stores s := by
  simp [barrierReleased]

@[simp] theorem stores_lagCount (m) : stores (lagCount s m) = stores s := by
  unfold lagCount
  dsimp only
  split <;> simp

theorem stores_sendOrLost (u : State) (p t d) :
    stores (match sendPacket u p t with | some s' => s' | none => markLost u d) = stores u := by
  grind [stores_sendPacket, stores_markLost]

@[simp] theorem stores_releaseBarrier (m) : stores (releaseBarrier s m) = stores s := by
  unfold releaseBarrier
  dsimp only
  split
  · rw [stores_barrierReleased, stores_modMap, stores_foldl]
    · simp
    · intro u i
      split
      · rfl
      · exact stores_sendOrLost ..
  · rw [stores_modMap, stores_foldl]
    · simp
    · intro u i
      split
      · rfl
      · exact stores_sendOrLost ..

@[simp] theorem stores_recordArrival (num chip armed value) :
    stores (recordArrival s num chip armed value) = stores s := by
  unfold recordArrival
  dsimp only
  split <;> simp

@[simp] theorem stores_arriveBarrier (j kind cop value desc) :
    stores (arriveBarrier s j kind cop value desc) = stores s := by
  grind [arriveBarrier, stores_modMap, stores_recordArrival, stores_sendPacket, stores_markLost]

end

section

variable {c : Stores} {s : State} (h : Yields c (stores s))

include h

@[simp] theorem yields_portEvent (family die port event) : Yields c (stores (portEvent s family die port event)) := by
  simp [portEvent, h]

@[simp] theorem yields_fabPortDown (p) : Yields c (stores (fabPortDown s p).1) := by
  unfold fabPortDown
  refine List.foldlRecOn (motive := fun a : State × List Nat => Yields c (stores a.1)) _ _ ?_ fun a ha d _ => ?_
  · simp [h]
  · simp [ha]

@[simp] theorem yields_fabricDieDown : Yields c (stores (fabricDieDown s).1) :=
  List.foldlRecOn (motive := fun a : State × List Nat => Yields c (stores a.1)) (List.range 8) _ h fun a ha i _ => by
    dsimp only
    split <;> simp [ha]

end

/-! ### Sys2Proof/Machine/FhOps.lean -/

section

variable {s : State}

@[simp] theorem stores_setFhPort (p v) : stores (setFhPort s p v) = stores s := (rfl)

@[simp] theorem stores_modFhPort (p f) : stores (modFhPort s p f) = stores s := (rfl)

@[simp] theorem stores_fhCount (p i) : stores (fhCount s p i) = stores s := (rfl)

@[simp] theorem stores_ringStopped (k p) : stores (ringStopped s k p) = stores s := by
  simp [ringStopped]

@[simp] theorem stores_stopTx (p r) : stores (stopTx s p r) = stores s := by
  simp [stopTx]

@[simp] theorem stores_setRx (p flow pos stopped) : stores (setRx s p flow pos stopped) = stores s := (rfl)

@[simp] theorem stores_missSymbol (m) : stores (missSymbol s m) = stores s := (rfl)

@[simp] theorem stores_fhLinkUp (p) : stores (fhLinkUp s p) = stores s := (rfl)

@[simp] theorem stores_vfLinkUp (p) : stores (vfLinkUp s p) = stores s := (rfl)

@[simp] theorem stores_portsBoot : stores (portsBoot s) = stores s := by
  unfold portsBoot
  refine (stores_foldl (fun u p => ?_) _ _).trans (stores_foldl (fun u p => ?_) _ _)
  · split <;> simp
  · split <;> simp

@[simp] theorem stores_clearFlows (k) : stores (clearFlows s k) = stores s := by
  unfold clearFlows
  exact stores_foldl (fun _ _ => stores_modFhPort ..) _ _

@[simp] theorem stores_gateNow (p) : stores (gateNow s p) = stores s := (rfl)

end

section

variable {c : Stores} {s : State} (h : Yields c (stores s))

include h

@[simp] theorem yields_writeBackCode (p r addr st ts) : Yields c (stores (writeBackCode s p r addr st ts)) := by
  grind [writeBackCode, stores_park, stores_stopTx, yields_devWrite]

@[simp] theorem yields_writeBack (p r addr st ts) : Yields c (stores (writeBack s p r addr st ts)) := by
  simp [writeBack, h]

@[simp] theorem yields_deliver (p flow colour frame time) : Yields c (stores (deliver s p flow colour frame time)) := by
  unfold deliver
  dsimp only
  split
  · simp [h]
  · split
    · simp [h]
    · simp [h]
    · split
      · simp [h]
      · split
        · simp [h]
        · simp [h]
        · next h₁ =>
          split
          · simp [h]
          · simp [h]
          · next h₂ => simp [yields_devWrite (yields_devWrite h h₁) h₂]

@[simp] theorem yields_failEgress (p st f) : Yields c (stores (failEgress s p st f)) := by
  unfold failEgress
  (repeat' split) <;> simp [h]

@[simp] theorem yields_fhPortDown (p) : Yields c (stores (fhPortDown s p)) := by
  unfold fhPortDown
  exact yields_capacityLost (yields_portEvent (by simp [h]) ..) ..

end

end Sys2Proof.Machine
end

section
/-! PROOFS. What a step makes of the stores (R122, R160, R395, R396): operands, and the life cycle of jobs and
sleeves. -/

namespace Sys2Proof.Machine

open Sys2Proof

/-! ### Sys2Proof/Machine/Operands.lean -/

section

variable {s : State}

@[simp] theorem stores_argRead (p a len) : stores (argRead s p a len) = stores s := by
  unfold argRead
  split <;> simp

@[simp] theorem stores_journal (src op) : stores (journal s src op) = stores s := (rfl)

@[simp] theorem stores_acceptStill (src op) : stores (acceptStill s src op) = stores s := by
  simp [acceptStill]

end

section

variable {c : Stores} {s : State} (h : Yields c (stores s))

include h

theorem yields_writeArg {s'} {p a bytes} (hs : writeArg s p a bytes = .ok s') : Yields c (stores s') := by
  unfold writeArg at hs
  split at hs
  · cases hs
  · split at hs
    · split at hs
      · cases hs
        simp [h]
      · cases hs
        simpa using h
    · split at hs
      · cases hs
      · cases hs
        simp [h]

@[simp] theorem yields_finish (src op st res) : Yields c (stores (finish s src op st res)) := by
  unfold finish
  split <;> simp [h]

@[simp] theorem yields_complete (src op resAddr st res) : Yields c (stores (complete s src op resAddr st res)) := by
  grind [complete, yields_finish, yields_writeArg, stores_park, stores_journal]

@[simp] theorem yields_finishLater (src st res) : Yields c (stores (finishLater s src st res)) := by
  simp [finishLater, h]

omit h in
/-- What a command's rules answer leaves stores that the operations can make of `c`. -/
def AnswerYields (c : Stores) : Answer → Prop
  | .ok t _ | .failIn t _ _ => Yields c (stores t)
  | .fail _ | .wait _ _ => True
  | .defer f => ∀ t, Yields c (stores t) → Yields c (stores (f t))

omit h in
@[simp] theorem answerYields_ok (t res) : AnswerYields c (.ok t res) ↔ Yields c (stores t) := Iff.rfl

omit h in
@[simp] theorem answerYields_failIn (t st res) : AnswerYields c (.failIn t st res) ↔ Yields c (stores t) := Iff.rfl

omit h in
@[simp] theorem answerYields_fail (st) : AnswerYields c (.fail st) := trivial

omit h in
@[simp] theorem answerYields_wait (addr len) : AnswerYields c (.wait addr len) := trivial

omit h in
@[simp] theorem answerYields_defer (f) :
    AnswerYields c (.defer f) ↔ ∀ t, Yields c (stores t) → Yields c (stores (f t)) := Iff.rfl

omit h in
@[simp] theorem answerYields_ite {p : Prop} [Decidable p] {x y : Answer} :
    AnswerYields c (if p then x else y) ↔ (p → AnswerYields c x) ∧ (¬ p → AnswerYields c y) := by
  split <;> simp [*]

omit h in
@[simp] theorem answerYields_ofArg (a len st) : AnswerYields c (Answer.ofArg a len st) := by
  cases st <;> trivial

@[simp] theorem answerYields_keeping {x : Answer} (hx : AnswerYields c x) : AnswerYields c (Answer.keeping s x) := by
  cases x with
  | fail => exact h
  | _ => exact hx

omit h in
@[simp] theorem answerYields_checked {cs} {x : Answer} (hx : AnswerYields c x) : AnswerYields c (checked cs x) := by
  unfold checked
  split
  · trivial
  · exact hx

@[simp] theorem yields_serve {op argc allow cmd} {body : Party → State → Answer}
    (hbody : ∀ p, AnswerYields c (body p s)) : Yields c (stores (serve op argc allow cmd s body)) := by
  unfold serve
  have hanswer := hbody (partyOf cmd.src)
  split
  · exact h
  · split
    · split <;> simp [h]
    · split
      · exact h
      · split
        · exact yields_finish h ..
        · split
          · next hb => exact yields_complete (by simpa [hb] using hanswer) ..
          · exact yields_finish h ..
          · next hb => exact yields_complete (by simpa [hb] using hanswer) ..
          · simp [h]
          · next hb => exact (answerYields_defer _).1 (hb ▸ hanswer) _ (by simp [h])

theorem yields_served {op argc allow cmd o} {body : Party → State → Answer}
    (ho : o = .next (serve op argc allow cmd s body)) (hbody : ∀ p, AnswerYields c (body p s)) :
    Yields c (stores (afterOf o s)) :=
  yields_of_next ho (yields_serve h hbody)

end

/-! ### Sys2Proof/Machine/Lifecycle.lean -/

section

variable {s : State}

@[simp] theorem stores_startMove (page loc frame dest) : stores (startMove s page loc frame dest) = stores s := by
  unfold startMove
  split <;> simp

@[simp] theorem stores_setRec (r) : stores (setRec s r) = stores s := by
  simp [setRec]

@[simp] theorem stores_markSuspect (u) : stores (markSuspect s u) = stores s := (rfl)

@[simp] theorem stores_stopSlot (d) : stores (stopSlot s d) = stores s := (rfl)

@[simp] theorem stores_strandPages (k j) : stores (strandPages s k j) = stores s := (rfl)

@[simp] theorem stores_addCounts (j d windowed) : stores (addCounts s j d windowed) = stores s := by
  simp [addCounts]

@[simp] theorem stores_losePasses (e) : stores (losePasses s e) = stores s := by
  simp [losePasses]

@[simp] theorem stores_dicClear (t) : stores (dicClear s t) = stores s := by
  simp [dicClear]

@[simp] theorem stores_resetUnit (u) : stores (resetUnit s u) = stores s := by
  simp [resetUnit]

@[simp] theorem stores_countDisagree (u) : stores (countDisagree s u) = stores s := (rfl)

@[simp] theorem stores_loseMoves (d) : stores (loseMoves s d) = stores s := by
  simp [loseMoves]

@[simp] theorem stores_memoryOut (d) : stores (memoryOut s d) = stores s := by
  simp [memoryOut]

end

section

variable {c : Stores} {s : State} (h : Yields c (stores s))

include h

@[simp] theorem yields_givePage (k own kind perms page frame) :
    Yields c (stores (givePage s k own kind perms page frame)) := by
  simp [givePage, h]

theorem yields_takePages {k own kind perms n s' ps} (hs : takePages s k own kind perms n = some (s', ps)) :
    Yields c (stores s') := by
  unfold takePages at hs
  dsimp only at hs
  split at hs
  · cases hs
  · cases hs
    simp [h]

@[simp] theorem yields_dropFrame (loc frame) : Yields c (stores (dropFrame s loc frame)) := by
  have hzero := yields_physZero h (frameBase loc frame) 65536
  unfold dropFrame
  dsimp only
  split
  · exact hzero
  · exact hzero

@[simp] theorem yields_dropPage (k page) : Yields c (stores (dropPage s k page)) := by
  simp [dropPage, h]

@[simp] theorem yields_dropPages (k ps) : Yields c (stores (dropPages s k ps)) := by
  simp [dropPages, h]

theorem yields_jobDigest {j s' ws} (hs : jobDigest s j = .ok (s', ws)) : Yields c (stores s') := by
  grind [jobDigest, yields_devWrite]

theorem yields_postRecord {j record s'} (hs : postRecord s j record = .ok (some s')) : Yields c (stores s') := by
  grind [postRecord, yields_devWrite, stores_modJob]

@[simp] theorem yields_postInstead (k record b) : Yields c (stores (postInstead s k record b)) := by
  simp [postInstead, h]

@[simp] theorem yields_postAt (k a record) : Yields c (stores (postAt s k a record)) := by
  grind [postAt, yields_postInstead, yields_postFault, yields_devWrite]

@[simp] theorem yields_postLast (j record) : Yields c (stores (postLast s j record)) := by
  unfold postLast
  dsimp only
  split
  · next hs => exact yields_postRecord h hs
  · simp [h]
  · simp [h]
  · simp [h]

@[simp] theorem yields_refreshHealth : Yields c (stores (refreshHealth s)) := by
  simp [refreshHealth, h]

@[simp] theorem yields_deviceReset (cause) : Yields c (stores (deviceReset s cause)) := by
  have hempty := (((yields_noBytes h).noQueues).log [] (by simp)).pldm [] (by simp)
  exact hempty

@[simp] theorem yields_abandonSnap (j status) : Yields c (stores (abandonSnap s j status)) := by
  unfold abandonSnap
  dsimp only
  split <;> simp [h]

@[simp] theorem yields_abandonDispute (d) : Yields c (stores (abandonDispute s d)) := by
  simp [abandonDispute, h]

@[simp] theorem yields_abandonDisputes (j) : Yields c (stores (abandonDisputes s j)) := by
  simp [abandonDisputes, h]

@[simp] theorem yields_beginTeardown (j status kind waiter) :
    Yields c (stores (beginTeardown s j status kind waiter)) := by
  simp [beginTeardown, h]

@[simp] theorem yields_faultJob (j st addr unit) : Yields c (stores (faultJob s j st addr unit)) := by
  simp [faultJob, h]

@[simp] theorem yields_faultSlot (e i st addr) : Yields c (stores (faultSlot s e i st addr)) := by
  simp [faultSlot, h]

@[simp] theorem yields_zeroPartition (d) : Yields c (stores (zeroPartition s d)) := by
  simp [zeroPartition, h]

@[simp] theorem yields_savePages (key ps) : Yields c (stores (savePages s key ps)) := by
  simp [savePages, h]

@[simp] theorem yields_loadPages (key ps) : Yields c (stores (loadPages s key ps)) := by
  simp [loadPages, h]

@[simp] theorem yields_rewritePage (k p) : Yields c (stores (rewritePage s k p)) := by
  grind [rewritePage, stores_setOwn, yields_physZero]

@[simp] theorem yields_zeroQueues (k) : Yields c (stores (zeroQueues s k)) := by
  simp [zeroQueues, h]

@[simp] theorem yields_finishReset (k status waiter) : Yields c (stores (finishReset s k status waiter)) := by
  have hend (w : Option Src) (u : State) (hu : Yields c (stores u)) :
      Yields c (stores (match w with | some src => finishLater u src .ok [] | none => u)) := by
    split
    · exact yields_finishLater hu ..
    · exact hu
  unfold finishReset
  refine hend waiter _ ?_
  rw [stores_modSleeve]
  refine yields_raise (yields_postFault (yields_zeroQueues ?_ _) ..) ..
  simp [h]

@[simp] theorem yields_eraseCandidate (k i) : Yields c (stores (eraseCandidate s k i)) := by
  unfold eraseCandidate
  split
  · exact h
  · split
    · exact h
    · exact yields_physZero h ..

@[simp] theorem yields_finishRemove (k src) : Yields c (stores (finishRemove s k src)) := by
  unfold finishRemove
  refine yields_finishLater ?_ ..
  simp only [stores_clearFlows, stores_setSleeve]
  refine yields_foldl (yields_dropPages ?_ ..) (fun _ _ => yields_eraseCandidate .refl ..) _
  simp [h]

@[simp] theorem yields_settleSleeve (k) : Yields c (stores (settleSleeve s k)) := by
  unfold settleSleeve
  (repeat' split) <;> simp [h]

@[simp] theorem yields_endQuiesce (k st) : Yields c (stores (endQuiesce s k st)) := by
  simp [endQuiesce, h]

@[simp] theorem yields_expireQuiesce (k) : Yields c (stores (expireQuiesce s k)) := by
  simp [expireQuiesce, h]

@[simp] theorem yields_endSubmits (k st) : Yields c (stores (endSubmits s k st)) := by
  simp [endSubmits, h]

@[simp] theorem yields_giveWay (k) : Yields c (stores (giveWay s k)) := by
  unfold giveWay
  refine yields_foldl ?_ (fun _ _ => yields_finishLater .refl ..) _
  simp [h]

@[simp] theorem yields_sleeveResetOp (k st waiter) : Yields c (stores (sleeveResetOp s k st waiter)) := by
  unfold sleeveResetOp
  refine yields_settleSleeve (yields_foldl ?_ (fun _ _ => yields_beginTeardown .refl ..) _) _
  simp [h]

@[simp] theorem yields_entryReset (k) : Yields c (stores (entryReset s k)) := by
  simp [entryReset, h]

@[simp] theorem yields_endPost (j record) : Yields c (stores (endPost s j record)) := by
  grind [endPost, yields_postLast, yields_entryReset, yields_faultJob]

@[simp] theorem yields_jobBar (j addr b) : Yields c (stores (jobBar s j addr b)) := by
  unfold jobBar
  split <;> simp [h]

@[simp] theorem yields_settleSnaps : Yields c (stores (settleSnaps s)) := by
  unfold settleSnaps
  refine yields_foldl h (fun u e => ?_) _
  have hsnap := yields_abandonSnap .refl (s := u) e.1 (statusCode .targetLost)
  split
  · dsimp only
    split
    · exact yields_entryReset (yields_faultJob hsnap ..) _
    · exact hsnap
  · exact .refl

@[simp] theorem yields_finishTeardown (j) : Yields c (stores (finishTeardown s j)) := by
  unfold finishTeardown
  extract_lets s₁ j cs i lens bad s₂ s₃ s₄ n s₅
  have h₁ : Yields c (stores s₁) := yields_abandonSnap h ..
  split
  · exact h₁
  · extract_lets dg record s₆ s₇ s₈ s₉ s₁₀
    have h₂ : Yields c (stores s₂) := yields_foldl h₁ (fun _ _ => yields_zeroPartition .refl _) _
    have h₅ : Yields c (stores s₅) := by
      have h₄ : Yields c (stores s₄) := yields_dropPages (by simpa [s₃] using h₂) ..
      unfold s₅
      split <;> simpa using h₄
    have h₆ : Yields c (stores s₆) := by
      unfold s₆
      split
      · exact h₅
      · split
        · exact yields_postFault h₅ ..
        · exact yields_postLast h₅ ..
    have h₉ : Yields c (stores s₉) := by
      have h₈ : Yields c (stores s₈) := by simpa [s₈, s₇] using h₆
      unfold s₉
      split
      · exact yields_finishLater h₈ ..
      · exact h₈
    have h₁₀ : Yields c (stores s₁₀) := yields_settleSleeve (by simpa using h₉) _
    split
    · exact yields_entryReset h₁₀ _
    · exact h₁₀

@[simp] theorem yields_evictSlot (e i) : Yields c (stores (evictSlot s e i)) := by
  simp [evictSlot, h]

@[simp] theorem yields_moveSlot (e i) : Yields c (stores (moveSlot s e i)) := by
  grind [moveSlot, stores_modSlot, yields_faultSlot, yields_evictSlot, yields_physCopy, stores_releaseSlot,
    yields_zeroPartition, stores_wakeEngine, stores_setSlot, stores_modJob]

@[simp] theorem yields_clearEngine (e) : Yields c (stores (clearEngine s e)) := by
  simp [clearEngine, h]

@[simp] theorem yields_failPocket (e) : Yields c (stores (failPocket s e)) := by
  simp [failPocket, h]

@[simp] theorem yields_faultCore (k st) : Yields c (stores (faultCore s k st)) := by
  simp [faultCore, h]

@[simp] theorem yields_countReset (u cause) : Yields c (stores (countReset s u cause)) := by
  simp [countReset, h]

@[simp] theorem yields_fenceRecord (u cause) : Yields c (stores (fenceRecord s u cause)) := by
  simp [fenceRecord, h]

@[simp] theorem yields_takeOut (u) : Yields c (stores (takeOut s u)) := by
  simp [takeOut, h]

@[simp] theorem yields_fenceUnit (u f cause) : Yields c (stores (fenceUnit s u f cause)) := by
  grind [fenceUnit, stores_modUnit, stores_setRec, yields_refreshHealth, stores_noteReferees, yields_takeOut,
    yields_fenceRecord]

@[simp] theorem yields_holdUnit (u) : Yields c (stores (holdUnit s u)) := by
  simp [holdUnit, h]

@[simp] theorem yields_selfFence (u f cause) : Yields c (stores (selfFence s u f cause)) := by
  simp [selfFence, h]

@[simp] theorem yields_strike (u kind location jobH sl confirmed) :
    Yields c (stores (strike s u kind location jobH sl confirmed)) := by
  unfold strike
  extract_lets x un s₁ s₂ lin s₃ s₄
  have h₂ : Yields c (stores s₂) := by
    unfold s₂
    split
    · exact yields_reportUnreadable (by simpa [s₁] using h) _
    · simpa [s₁] using h
  have h₄ : Yields c (stores s₄) := yields_raise (s := s₃) h₂ _
  refine yields_refreshHealth ?_
  split
  · exact yields_selfFence h₄ ..
  · exact h₄

@[simp] theorem yields_losePages (d) : Yields c (stores (losePages s d)) := by
  unfold losePages
  refine yields_foldl (by simpa using h) (fun u i => ?_) _
  refine yields_foldl (yields_foldl .refl (fun _ _ => yields_faultJob .refl ..) _) (fun v p => ?_) _
  split
  · simp
  · simp

@[simp] theorem yields_dieFault (d cause) : Yields c (stores (dieFault s d cause)) := by
  unfold dieFault
  extract_lets s₁ hr s₂ s₃ s₄ s₅ r
  have h₂ : Yields c (stores s₂) := by
    have h₁ : Yields c (stores s₁) := yields_raise h _
    unfold s₂
    split
    · exact h₁
    · simpa using h₁
  have h₃ : Yields c (stores s₃) := yields_refreshHealth h₂
  have h₄ : Yields c (stores s₄) := by
    unfold s₄
    split
    · exact yields_losePages (by simpa using h₃) _
    · exact h₃
  have h₅ : Yields c (stores s₅) := by
    refine yields_foldl h₄ (fun _ _ => ?_) _
    split
    · exact .refl
    · exact yields_fenceUnit .refl ..
  split
  · exact yields_deviceReset h₃ _
  · split
    · exact yields_radioFenced h₅ _
    · split
      · exact yields_settleSnaps (yields_foldl (yields_fabricDieDown h₅) (fun _ _ => yields_faultJob .refl ..) _)
      · exact h₅

end

end Sys2Proof.Machine
end

section
/-! PROOFS. What a step makes of the stores (R122, R160, R395, R396): the sleeve commands and the lowered graph. -/

namespace Sys2Proof.Machine

open Sys2Proof

/-! ### Sys2Proof/Machine/SleeveCmds.lean -/

section

variable {s : State}

@[simp] theorem stores_holdStanding (k) : stores (holdStanding s k) = stores s := (rfl)

@[simp] theorem stores_releaseSleeve (k j) : stores (releaseSleeve s k j) = stores s := (rfl)

@[simp] theorem stores_clearDirty (ps) : stores (clearDirty s ps) = stores s := by
  simp [clearDirty]

@[simp] theorem stores_doorbellWrite (k value hi lo f) : stores (doorbellWrite s k value hi lo f) = stores s := by
  simp [doorbellWrite]

@[simp] theorem stores_execSqTailWrite (k value) : stores (afterOf (execSqTailWrite k value s) s) = stores s := by
  simp [execSqTailWrite]

@[simp] theorem stores_execFqHeadWrite (k value) : stores (afterOf (execFqHeadWrite k value s) s) = stores s := by
  simp [execFqHeadWrite]

@[simp] theorem stores_execDoorbellStateRead (k) : stores (afterOf (execDoorbellStateRead k s) s) = stores s := by
  simp [execDoorbellStateRead]

@[simp] theorem stores_execFqLostRead (k) : stores (afterOf (execFqLostRead k s) s) = stores s := by
  simp [execFqLostRead]

end

section

variable {c : Stores} {s : State} (h : Yields c (stores s))

include h

@[simp] theorem yields_execSleeveCreate (cmd) : Yields c (stores (afterOf (execSleeveCreate cmd s) s)) := by
  simp [execSleeveCreate, h]

@[simp] theorem yields_execSleeveSet (cmd) : Yields c (stores (afterOf (execSleeveSet cmd s) s)) := by
  simp [execSleeveSet, h]

@[simp] theorem yields_execSleeveHostRange (cmd) : Yields c (stores (afterOf (execSleeveHostRange cmd s) s)) := by
  simp [execSleeveHostRange, h]

@[simp] theorem yields_execSleeveQuiesce (cmd) : Yields c (stores (afterOf (execSleeveQuiesce cmd s) s)) := by
  simp [execSleeveQuiesce, h]

@[simp] theorem yields_execQuiesceComplete (k) : Yields c (stores (afterOf (execQuiesceComplete k s) s)) := by
  simp [execQuiesceComplete, h]

@[simp] theorem yields_execQuiesceTimeout (k) : Yields c (stores (afterOf (execQuiesceTimeout k s) s)) := by
  simp [execQuiesceTimeout, h]

@[simp] theorem yields_execSleeveResume (cmd) : Yields c (stores (afterOf (execSleeveResume cmd s) s)) := by
  refine yields_served h rfl fun _ => ?_
  simp [h]

@[simp] theorem yields_execSleeveReset (cmd) : Yields c (stores (afterOf (execSleeveReset cmd s) s)) := by
  refine yields_served h rfl fun _ => ?_
  refine answerYields_checked fun _ ht => ?_
  simp [ht]

@[simp] theorem yields_execSleeveRemove (cmd) : Yields c (stores (afterOf (execSleeveRemove cmd s) s)) := by
  refine yields_served h rfl fun _ => ?_
  refine answerYields_checked fun u hu => ?_
  refine yields_settleSleeve (yields_foldl ?_ (fun _ _ => yields_beginTeardown .refl ..) _) _
  simp [hu]

@[simp] theorem yields_execSleeveStatus (cmd) : Yields c (stores (afterOf (execSleeveStatus cmd s) s)) := by
  simp [execSleeveStatus, h]

@[simp] theorem yields_execPagesAlloc (cmd) : Yields c (stores (afterOf (execPagesAlloc cmd s) s)) := by
  refine yields_served h rfl fun _ => ?_
  refine answerYields_checked ?_
  split
  · simp
  · split
    · simp
    · next hp =>
      split
      · next hw => exact yields_writeArg (yields_takePages h hp) hw
      · simp

@[simp] theorem yields_execPagesFree (cmd) : Yields c (stores (afterOf (execPagesFree cmd s) s)) := by
  refine yields_served h rfl fun p => ?_
  refine answerYields_checked ?_
  split
  · simp
  · have hread : Yields c (stores (argRead s p (arg cmd 2) (8 * argN cmd 1))) := by simpa using h
    exact answerYields_keeping hread (answerYields_checked (yields_dropPages hread ..))

@[simp] theorem yields_dirtyStart (k ps) : Yields c (stores (dirtyStart s k ps)) := by
  unfold dirtyStart
  rw [stores_clearDirty]
  refine yields_foldl (by simpa using h) (fun _ _ => yields_physZero ?_ ..) _
  simp

@[simp] theorem yields_execSleeveDirtyStart (cmd) : Yields c (stores (afterOf (execSleeveDirtyStart cmd s) s)) := by
  refine yields_served h rfl fun _ => ?_
  refine answerYields_checked ?_
  split
  · simp
  · next hp => exact yields_dirtyStart (yields_takePages h hp) ..

@[simp] theorem yields_clearBitmap (k first n) : Yields c (stores (clearBitmap s k first n)) := by
  simp [clearBitmap, h]

@[simp] theorem yields_execSleeveDirtyRead (cmd) : Yields c (stores (afterOf (execSleeveDirtyRead cmd s) s)) := by
  refine yields_served h rfl fun _ => ?_
  refine answerYields_checked ?_
  dsimp only
  split
  · simp
  · next hw => simpa using yields_writeArg (by simp [h]) hw

@[simp] theorem yields_execSleeveDirtyStop (cmd) : Yields c (stores (afterOf (execSleeveDirtyStop cmd s) s)) := by
  refine yields_served h rfl fun _ => ?_
  simp [h]

@[simp] theorem yields_execSleeveExport (cmd) : Yields c (stores (afterOf (execSleeveExport cmd s) s)) := by
  refine yields_served h rfl fun _ => ?_
  refine answerYields_checked ?_
  split
  · next hw => exact yields_writeArg h hw
  · simp

theorem yields_importPages {j ps s'} (hs : importPages s j ps = some s') : Yields c (stores s') := by
  unfold importPages at hs
  dsimp only at hs
  split at hs
  · cases hs
  · cases hs
    have hgive : ∀ t (x : (Nat × Nat × Nat) × Nat),
        Yields (stores t) (stores (givePage t j none x.1.2.1 x.1.2.2 x.1.1 x.2)) := by simp
    exact yields_foldl (yields_foldl h hgive _) hgive _

@[simp] theorem yields_execSleeveImport (cmd) : Yields c (stores (afterOf (execSleeveImport cmd s) s)) := by
  refine yields_served h rfl fun _ => ?_
  dsimp only
  split
  · simp
  · split
    · simp
    · refine answerYields_checked ?_
      split
      · simp
      · next hi => exact yields_importPages (by simpa using h) hi

@[simp] theorem yields_execSleeveAccountRead (cmd) : Yields c (stores (afterOf (execSleeveAccountRead cmd s) s)) := by
  simp [execSleeveAccountRead, h]

@[simp] theorem yields_flushCq (k) : Yields c (stores (flushCq s k)) := by
  simp [flushCq, h]

@[simp] theorem yields_execCqHeadWrite (k value) : Yields c (stores (afterOf (execCqHeadWrite k value s) s)) := by
  simp [execCqHeadWrite, h]

end

/-! ### Sys2Proof/Machine/Graph.lean -/

section

variable {c : Stores} {s : State} (h : Yields c (stores s))

include h

omit h in
theorem yields_storeTensor {r r' : GraphRun} (hr : Yields c (stores r.st)) {j i x} (hs : storeTensor r j i x = .ok r') :
    Yields c (stores r'.st) := by
  unfold storeTensor at hs
  dsimp only at hs
  split at hs
  · cases hs
  · cases hs
    exact hr
  · next a _ =>
    cases hw : devWrite r.st (jobIssuer r.st j) .wr a x.bytes with
    | error b =>
      rw [hw] at hs
      cases hs
    | ok t =>
      rw [hw] at hs
      cases hs
      exact yields_devWrite hr hw

theorem yields_appendTokens {j n a rnd qs r s'} (hs : appendTokens j n a rnd qs r s = .ok s') :
    Yields c (stores s') := by
  induction qs generalizing r s with
  | nil =>
    cases hs
    exact h
  | cons q qs ih =>
    unfold appendTokens at hs
    dsimp only at hs
    split at hs
    · exact ih h hs
    · split at hs
      · cases hs
      · next hw => exact ih (by simp [yields_devWrite h hw]) hs

omit h in
theorem yields_kvAppend {r r' : GraphRun} (hr : Yields c (stores r.st)) {j n a rnd} (hs :
    kvAppend r j n a rnd = .ok r') :
    Yields c (stores r'.st) := by
  unfold kvAppend at hs
  cases ha : appendTokens j n a rnd ((batch (job r.st j)).take (a.dims.headD 0)) 0 r.st with
  | error e =>
    rw [ha] at hs
    cases hs
  | ok t =>
    rw [ha] at hs
    cases hs
    exact yields_appendTokens hr ha

omit h in
theorem yields_runOp {j obs} {r r' : GraphRun} {n} (hr : Yields c (stores r.st)) (hs : runOp j obs r n = .ok r') :
    Yields c (stores r'.st) := by
  unfold runOp at hs
  dsimp only at hs
  split at hs
  · cases hs
  · split at hs
    · exact yields_kvAppend hr hs
    · cases hs
      exact hr
    · split at hs
      · cases hs
      · split at hs
        · cases hs
          exact hr
        · exact yields_storeTensor hr hs
    · split at hs
      · cases hs
        exact hr
      · split at hs
        · cases hs
        · split at hs
          · exact yields_storeTensor hr hs
          · exact yields_storeTensor hr hs

omit h in
theorem yields_runOps {j obs} {ns : List Nat} {r r' : GraphRun} (hr : Yields c (stores r.st))
    (hs : ns.foldlM (runOp j obs) r = .ok r') : Yields c (stores r'.st) := by
  induction ns generalizing r with
  | nil =>
    cases hs
    exact hr
  | cons n ns ih =>
    rw [List.foldlM_cons] at hs
    cases ho : runOp j obs r n with
    | error e =>
      rw [ho] at hs
      cases hs
    | ok r₁ =>
      rw [ho] at hs
      exact ih (yields_runOp hr ho) hs

theorem yields_runStep {j obs} {r : GraphRun} (hs : runStep s j obs = .ok r) : Yields c (stores r.st) :=
  yields_runOps h hs

end

end Sys2Proof.Machine
end

section
/-! PROOFS. What a step makes of the stores (R122, R160, R395, R396): the job commands. -/

namespace Sys2Proof.Machine

open Sys2Proof

/-! ### Sys2Proof/Machine/JobCmds.lean -/

section

variable {s : State}

@[simp] theorem stores_bringWeights (j) : stores (bringWeights s j) = stores s := by
  simp [bringWeights]

@[simp] theorem stores_setSeqs (j f) : stores (setSeqs s j f) = stores s := (rfl)

@[simp] theorem stores_joins (j js) (x : State × PoolWork) : stores (joins j js x).1 = stores x.1 := by
  induction js generalizing x with
  | nil => rfl
  | cons a js ih =>
    unfold joins
    dsimp only
    split
    · rfl
    · simp [ih]

@[simp] theorem stores_endRun (j) : stores (endRun s j) = stores s := by
  unfold endRun
  split <;> simp

@[simp] theorem stores_holdJob (j d) : stores (holdJob s j d) = stores s := (rfl)

@[simp] theorem stores_leaveBarrier (j) : stores (leaveBarrier s j) = stores s := by
  unfold leaveBarrier
  split <;> simp

@[simp] theorem stores_parkBoundary (j addr o) : stores (parkBoundary s j addr o) = stores s := by
  simp [parkBoundary]

@[simp] theorem stores_enterBoundary (j) : stores (enterBoundary s j) = stores s := by
  simp [enterBoundary]

end

section

variable {c : Stores} {s : State} (h : Yields c (stores s))

include h

theorem yields_takeJobPages {k j gen b prog s' ps} (hs : takeJobPages s k j gen b prog = some (s', ps)) :
    Yields c (stores s') := by
  unfold takeJobPages at hs
  dsimp only at hs
  split at hs
  · cases hs
  · next h₀ =>
    split at hs
    · cases hs
    · next h₁ =>
      split at hs
      · cases hs
      · next h₂ =>
        split at hs
        · cases hs
        · next h₃ =>
          cases hs
          exact yields_takePages (yields_takePages (yields_takePages (yields_takePages h h₀) h₁) h₂) h₃

theorem yields_submit {p b s' n} (hs : submit s p b = .ok (s', n)) : Yields c (stores s') := by
  unfold submit at hs
  dsimp only at hs
  split at hs
  · cases hs
  · split at hs
    · cases hs
    · split at hs
      · cases hs
      · split at hs
        · cases hs
        · split at hs
          · cases hs
          · next hp =>
            split at hs
            · cases hs
            · split at hs
              · cases hs
              · cases hs
                simpa using yields_takeJobPages h hp

@[simp] theorem yields_execJobSubmit (cmd) : Yields c (stores (afterOf (execJobSubmit cmd s) s)) := by
  refine yields_served h rfl fun _ => ?_
  dsimp only
  split
  · next hs => exact yields_submit h hs
  · split
    · exact fun u hu => by simpa using hu
    · simp

@[simp] theorem yields_retrySubmits (k) : Yields c (stores (retrySubmits s k)) := by
  unfold retrySubmits
  refine yields_foldl (by simpa using h) (fun u w => ?_) _
  split
  · next hs => exact yields_finishLater (yields_submit .refl hs) ..
  · simp

@[simp] theorem yields_putCarried (j) : Yields c (stores (putCarried s j)) := by
  unfold putCarried
  dsimp only
  rw [stores_modJob]
  refine yields_foldl h (fun u w => ?_) _
  split <;> simp

@[simp] theorem yields_execLoweringDone (j ok lowered) :
    Yields c (stores (afterOf (execLoweringDone j ok lowered s) s)) := by
  simp [execLoweringDone, h]

@[simp] theorem yields_fillRing (r ds size) : Yields c (stores (fillRing s r ds size).1) :=
  List.foldlRecOn (motive := fun x : State × Ring => Yields c (stores x.1)) ds _ h fun _ hx _ _ =>
    yields_windowWrite hx ..

@[simp] theorem yields_startStep (j) : Yields c (stores (startStep s j)) := by
  refine yields_foldl h (fun u w => ?_) _
  exact yields_fillRing (yields_fillRing (yields_fillRing .refl ..) ..) ..

@[simp] theorem yields_placeOne (j d p) : Yields c (stores (placeOne s j d p)) := by
  simp [placeOne, h]

@[simp] theorem yields_placeAll (j places) : Yields c (stores (placeAll s j places)) := by
  unfold placeAll
  extract_lets starts isNew s₁ s₂
  have h₁ : Yields c (stores s₁) := yields_foldl h (fun _ _ => yields_placeOne .refl ..) _
  rw [stores_modJob]
  unfold s₂
  split
  · exact yields_startStep h₁ _
  · exact h₁

@[simp] theorem yields_swapPages (k p q) : Yields c (stores (swapPages s k p q)) := by
  simp [swapPages, h]

@[simp] theorem yields_departures (j ended w) : Yields c (stores (departures s j ended w).1) := by
  simp [departures, h]

@[simp] theorem yields_preempt (j w) : Yields c (stores (preempt s j w).1) := by
  unfold preempt
  dsimp only
  split
  · exact h
  · split <;> simp [h]

omit h in
@[simp] theorem yields_growOne {x : State × PoolWork} (hx : Yields c (stores x.1)) (j n fuel) :
    Yields c (stores (growOne j n fuel x).1) := by
  induction fuel generalizing x with
  | zero => exact hx
  | succ fuel ih =>
    unfold growOne
    dsimp only
    split
    · exact hx
    · split
      · exact hx
      · split
        · exact ih (by simpa using hx)
        · exact ih (yields_preempt hx ..)

@[simp] theorem yields_growth (j w) : Yields c (stores (growth s j w).1) := by
  unfold growth
  exact List.foldlRecOn (motive := fun x : State × PoolWork => Yields c (stores x.1)) _ _ h fun x hx n _ =>
    yields_growOne hx ..

@[simp] theorem yields_recompute (j q ps) : Yields c (stores (recompute s j q ps)) := by
  simp [recompute, h]

omit h in
@[simp] theorem yields_resumes {x : State × PoolWork} (hx : Yields c (stores x.1)) (j ns) :
    Yields c (stores (resumes j ns x).1.1) := by
  induction ns generalizing x with
  | nil => exact hx
  | cons n ns ih =>
    obtain ⟨u, w⟩ := x
    unfold resumes
    extract_lets k room
    split
    · exact ih hx
    · extract_lets need u₁ extra u₂ u₃
      have h₁ : Yields c (stores u₁) := by
        unfold u₁
        split
        · exact yields_foldl hx (fun _ _ => yields_swapPages .refl ..) _
        · exact hx
      have h₂ : Yields c (stores u₂) := by
        unfold u₂
        split
        · exact yields_recompute h₁ ..
        · exact h₁
      split
      · exact hx
      · exact ih (by simpa [u₃] using h₂)

@[simp] theorem yields_applyPool (j ended) : Yields c (stores (applyPool s j ended).1) := by
  unfold applyPool
  split
  · exact h
  · extract_lets s₁
    have h₁ : Yields c (stores s₁) := by simp [s₁, h]
    split
    next s₂ w₂ hdepartures =>
    have h₂ : Yields c (stores s₂) := by simpa [hdepartures] using yields_departures h₁ j ended {}
    split
    next s₃ w₃ hgrowth =>
    have h₃ : Yields c (stores s₃) := by simpa [hgrowth] using yields_growth h₂ j w₂
    extract_lets waiting
    split
    next s₄ w₄ go hresumes =>
    have h₄ : Yields c (stores s₄) := by
      simpa [hresumes] using yields_resumes (x := (s₃, w₃)) h₃ j (sortedNumbers waiting)
    split
    split
    · simpa using h₄
    · exact h₄

@[simp] theorem yields_postAll (j rs) : Yields c (stores (postAll s j rs).1) := by
  induction rs generalizing s with
  | nil => exact h
  | cons r rs ih =>
    unfold postAll
    split
    · exact ih (yields_jobBar h ..)
    · exact h
    · exact h
    · next hp => exact ih (yields_postRecord h hp)

@[simp] theorem yields_landPieces (j xs) : Yields c (stores (landPieces s j xs)) := by
  induction xs generalizing s with
  | nil => exact h
  | cons x xs ih =>
    unfold landPieces
    split
    · next hw => exact ih (yields_devWrite h hw)
    · simp [h]
    · simp [h]

@[simp] theorem yields_drainSnap (j n image) : Yields c (stores (drainSnap s j n image)) := by
  unfold drainSnap
  dsimp only
  split
  · simp [h]
  · split
    · simp [h]
    · split
      · simp [h]
      · next ht => simp [stores_sendAll ht, h]

@[simp] theorem yields_takeSnapshot (j) : Yields c (stores (takeSnapshot s j)) := by
  unfold takeSnapshot
  split <;> simp [h]

@[simp] theorem yields_leaveBoundary (j last) : Yields c (stores (leaveBoundary s j last)) := by
  simp [leaveBoundary, h]

@[simp] theorem yields_postBoundary (j records) : Yields c (stores (postBoundary s j records)) := by
  unfold postBoundary
  dsimp only
  split <;> simp [h]

@[simp] theorem yields_poolUnreadable (j) : Yields c (stores (poolUnreadable s j)) := by
  simp [poolUnreadable, h]

@[simp] theorem yields_applyBoundary (j ended) : Yields c (stores (applyBoundary s j ended)) := by
  unfold applyBoundary
  split
  next s₁ w hpool =>
  have h₁ : Yields c (stores s₁) := by simpa [hpool] using yields_applyPool h j ended
  extract_lets s₂ s₃ last
  have h₃ : Yields c (stores s₃) := by simpa [s₃, s₂] using h₁
  split
  · exact yields_jobBar h₃ ..
  · next t dg hd =>
    refine yields_postBoundary ?_ ..
    rw [stores_endRun]
    split at hd
    · exact yields_jobDigest h₃ hd
    · cases hd
      exact h₃

@[simp] theorem yields_runBoundary (j o) : Yields c (stores (runBoundary s j o)) := by
  unfold runBoundary
  dsimp only
  split
  · simp [h]
  · split
    · simp [h]
    · split
      · simp [h]
      · simp [h]
      · next hr => simp [yields_runStep h hr]

@[simp] theorem yields_continueBoundary (j) : Yields c (stores (continueBoundary s j)) := by
  unfold continueBoundary
  split <;> simp [h]

@[simp] theorem yields_resumeJob (j) : Yields c (stores (resumeJob s j)) := by
  simp [resumeJob, h]

@[simp] theorem yields_execJobPlaced (j places) : Yields c (stores (afterOf (execJobPlaced j places s) s)) := by
  simp [execJobPlaced, h]

@[simp] theorem yields_execStepBoundary (j o) : Yields c (stores (afterOf (execStepBoundary j o s) s)) := by
  simp [execStepBoundary, h]

@[simp] theorem yields_execJobHoldRelease (j) : Yields c (stores (afterOf (execJobHoldRelease j s) s)) := by
  simp [execJobHoldRelease, h]

@[simp] theorem yields_execCadenceRelease (j) : Yields c (stores (afterOf (execCadenceRelease j s) s)) := by
  unfold execCadenceRelease
  dsimp only
  split <;> simp [h]

@[simp] theorem yields_execSnapshotDrainDone (j r) : Yields c (stores (afterOf (execSnapshotDrainDone j r s) s)) := by
  refine yields_of_next rfl ?_
  dsimp only
  (repeat' split) <;> simp [h]

@[simp] theorem yields_execTeardownDrainDone (j) : Yields c (stores (afterOf (execTeardownDrainDone j s) s)) := by
  simp [execTeardownDrainDone, h]

@[simp] theorem yields_execTeardownTimeout (j) : Yields c (stores (afterOf (execTeardownTimeout j s) s)) := by
  refine yields_of_next rfl ?_
  extract_lets j st record s₁
  split
  · exact h
  · extract_lets s₂
    have h₁ : Yields c (stores s₁) := by
      unfold s₁
      split <;> simp [h]
    have h₂ : Yields c (stores s₂) := by simpa [s₂] using h₁
    split
    · exact h
    · split <;> simp [h₂]

@[simp] theorem yields_execJobStatus (cmd) : Yields c (stores (afterOf (execJobStatus cmd s) s)) := by
  refine yields_served h rfl fun _ => ?_
  dsimp only
  split <;> simp [h]

@[simp] theorem yields_execJobCancel (cmd) : Yields c (stores (afterOf (execJobCancel cmd s) s)) := by
  refine yields_served h rfl fun _ => ?_
  refine answerYields_checked fun _ ht => ?_
  simp [ht]

@[simp] theorem yields_execSeqJoin (cmd) : Yields c (stores (afterOf (execSeqJoin cmd s) s)) := by
  refine yields_served h rfl fun _ => ?_
  refine answerYields_checked ?_
  split <;> simp [h]

@[simp] theorem yields_execSeqLeave (cmd) : Yields c (stores (afterOf (execSeqLeave cmd s) s)) := by
  simp [execSeqLeave, h]

@[simp] theorem yields_execSnapshotBegin (cmd) : Yields c (stores (afterOf (execSnapshotBegin cmd s) s)) := by
  refine yields_served h rfl fun _ => ?_
  simp [h]

@[simp] theorem yields_execSnapshotStatus (cmd) : Yields c (stores (afterOf (execSnapshotStatus cmd s) s)) := by
  refine yields_served h rfl fun _ => ?_
  dsimp only
  split <;> simp [h]

theorem yields_restoreInto {n m s'} (hs : restoreInto s n m = some s') : Yields c (stores s') := by
  obtain ⟨l, -, rfl⟩ := Option.map_eq_some_iff.1 hs
  exact yields_foldl h (fun _ _ => yields_windowWrite .refl ..) _

@[simp] theorem yields_execSnapshotRestore (cmd) : Yields c (stores (afterOf (execSnapshotRestore cmd s) s)) := by
  refine yields_served h rfl fun p => ?_
  dsimp only
  split
  · simp
  · refine answerYields_keeping (by simpa using h) ?_
    split
    · simp
    · split
      · simp
      · next ht =>
        have ht := yields_submit (c := c) (by simpa using h) ht
        split
        · simp
        · split
          · simp
          · next hr => exact yields_restoreInto ht hr

end

end Sys2Proof.Machine
end

section
/-! PROOFS. What a step makes of the stores (R122, R160, R395, R396): the management and health commands. -/

namespace Sys2Proof.Machine

open Sys2Proof

/-! ### Sys2Proof/Machine/MgmtCmds.lean -/

section

variable {s : State}

@[simp] theorem stores_execMailboxPost (w i opcode tag args) :
    stores (afterOf (execMailboxPost w i opcode tag args s) s) = stores s := by
  simp [execMailboxPost]

@[simp] theorem stores_loadCore (cmd j) : stores (loadCore s cmd j) = stores s := (rfl)

@[simp] theorem stores_applyRoute (n) : stores (applyRoute s n) = stores s := by
  unfold applyRoute
  split <;> simp

@[simp] theorem stores_execDicDoorbell (sl value) : stores (afterOf (execDicDoorbell sl value s) s) = stores s := by
  simp [execDicDoorbell]

@[simp] theorem stores_execDicDelivery (t) : stores (afterOf (execDicDelivery t s) s) = stores s := by
  unfold execDicDelivery
  split <;> simp

@[simp] theorem stores_execDicSrcRead (n) : stores (afterOf (execDicSrcRead n s) s) = stores s := by
  simp [execDicSrcRead]

@[simp] theorem stores_holdLine (line) : stores (holdLine s line) = stores s := by
  unfold holdLine
  (repeat' split) <;> simp

@[simp] theorem stores_cxlReadNow (addr len) : stores (cxlReadNow s addr len) = stores s := by
  simp [cxlReadNow]

@[simp] theorem stores_execCxlMemRead (addr len) : stores (afterOf (execCxlMemRead addr len s) s) = stores s := by
  unfold execCxlMemRead
  (repeat' split) <;> simp

@[simp] theorem stores_linkDown : stores (linkDown s) = stores s := (rfl)

@[simp] theorem stores_execCxlLinkDown (d) : stores (afterOf (execCxlLinkDown d s) s) = stores s := by
  simp [execCxlLinkDown]

@[simp] theorem stores_execCxlLinkUp (width rate) : stores (afterOf (execCxlLinkUp width rate s) s) = stores s := by
  simp [execCxlLinkUp]

@[simp] theorem stores_execPasidEnableChange (on) : stores (afterOf (execPasidEnableChange on s) s) = stores s := by
  simp [execPasidEnableChange]

@[simp] theorem stores_execEvtLostRead : stores (afterOf (execEvtLostRead s) s) = stores s := by
  simp [execEvtLostRead]

@[simp] theorem stores_execEntdaa (address) : stores (afterOf (execEntdaa address s) s) = stores s := by
  simp [execEntdaa]

@[simp] theorem stores_execSetEndpointId (eid) : stores (afterOf (execSetEndpointId eid s) s) = stores s := by
  simp [execSetEndpointId]

@[simp] theorem stores_pldmServe (tag k) (hk : ∀ t, stores (k t) = stores t) :
    stores (pldmServe s tag k) = stores s := by
  simp [pldmServe, hk]

theorem yields_pldmServe {c : Stores} (h : Yields c (stores s)) (tag) {k : State → State}
    (hk : Yields c (stores (k s))) : Yields c (stores (pldmServe s tag k)) := by
  simp [pldmServe, h, hk]

@[simp] theorem stores_execPldmDiscovery (tag) : stores (afterOf (execPldmDiscovery tag s) s) = stores s := by
  simp [execPldmDiscovery]

@[simp] theorem stores_execPldmSensorRead (tag sensor) :
    stores (afterOf (execPldmSensorRead tag sensor s) s) = stores s := by
  refine stores_of_next rfl ?_
  refine stores_pldmServe _ _ fun u => ?_
  split <;> simp

@[simp] theorem stores_execSetEventReceiver (eid) : stores (afterOf (execSetEventReceiver eid s) s) = stores s := by
  simp [execSetEventReceiver]

@[simp] theorem stores_uartServe (k) (hk : ∀ t, stores (k t) = stores t) : stores (uartServe s k) = stores s := by
  simp [uartServe, hk]

@[simp] theorem stores_execUartStatus : stores (afterOf (execUartStatus s) s) = stores s := by
  simp [execUartStatus]

@[simp] theorem stores_execUartErrors : stores (afterOf (execUartErrors s) s) = stores s := by
  refine stores_of_next rfl ?_
  refine stores_uartServe _ fun u => ?_
  generalize u.hlt.log.length = n
  induction u.hlt.log with
  | nil => simp
  | cons r rs ih => simpa using ih

@[simp] theorem stores_execUartIdentity : stores (afterOf (execUartIdentity s) s) = stores s := by
  simp [execUartIdentity]

@[simp] theorem stores_execUartOtherInput (line) : stores (afterOf (execUartOtherInput line s) s) = stores s := (rfl)

end

section

variable {c : Stores} {s : State} (h : Yields c (stores s))

include h

@[simp] theorem yields_execReservedCommand (opcode cmd) :
    Yields c (stores (afterOf (execReservedCommand opcode cmd s) s)) := by
  simp [execReservedCommand, h]

@[simp] theorem yields_execTelemetryDrop (src) : Yields c (stores (afterOf (execTelemetryDrop src s) s)) := by
  unfold execTelemetryDrop
  split <;> simp [h]

@[simp] theorem yields_startRestart (d) : Yields c (stores (startRestart s d)) := by
  unfold startRestart
  extract_lets times s₁ s₂ s₃
  have h₁ : Yields c (stores s₁) := yields_raise h _
  split
  · exact yields_deviceReset h₁ _
  · have h₃ : Yields c (stores s₃) := yields_physZero (by simpa [s₂] using h₁) ..
    simpa using h₃

@[simp] theorem yields_execTacorWatchdog (d) : Yields c (stores (afterOf (execTacorWatchdog d s) s)) := by
  simp [execTacorWatchdog, h]

@[simp] theorem yields_endRestartHold (j) : Yields c (stores (endRestartHold s j)) := by
  simp [endRestartHold, h]

@[simp] theorem yields_releaseRestartHolds : Yields c (stores (releaseRestartHolds s)) := by
  simp [releaseRestartHolds, h]

@[simp] theorem yields_readJournal : Yields c (stores (readJournal s)) := by
  unfold readJournal
  refine yields_foldl (yields_foldl ?_ (fun _ _ => yields_finish .refl ..) _) (fun u k => ?_) _
  · exact h
  · split <;> simp

@[simp] theorem yields_execTacorRestartLimit : Yields c (stores (afterOf (execTacorRestartLimit s) s)) := by
  simp [execTacorRestartLimit, h]

@[simp] theorem yields_execMgmtStatus (cmd) : Yields c (stores (afterOf (execMgmtStatus cmd s) s)) := by
  simp [execMgmtStatus, h]

@[simp] theorem yields_execTelemetryRead (cmd) : Yields c (stores (afterOf (execTelemetryRead cmd s) s)) := by
  simp [execTelemetryRead, h]

@[simp] theorem yields_execHcLoad (cmd) : Yields c (stores (afterOf (execHcLoad cmd s) s)) := by
  simp [execHcLoad, h]

@[simp] theorem yields_execHcStop (cmd) : Yields c (stores (afterOf (execHcStop cmd s) s)) := by
  refine yields_served h rfl fun _ => ?_
  refine answerYields_checked fun _ ht => ?_
  simp [ht]

@[simp] theorem yields_execHcStatus (cmd) : Yields c (stores (afterOf (execHcStatus cmd s) s)) := by
  simp [execHcStatus, h]

@[simp] theorem yields_execHcExitCall (core status) : Yields c (stores (afterOf (execHcExitCall core status s) s)) := by
  simp [execHcExitCall, h]

@[simp] theorem yields_execDicRouteSet (cmd) : Yields c (stores (afterOf (execDicRouteSet cmd s) s)) := by
  simp [execDicRouteSet, h]

@[simp] theorem yields_execDicStatus (cmd) : Yields c (stores (afterOf (execDicStatus cmd s) s)) := by
  simp [execDicStatus, h]

theorem yields_dicOrder (x n top) : Yields c (stores (execDicEoi.dicOrder s x n top)) := by
  unfold execDicEoi.dicOrder
  extract_lets d s₁ s₂ u
  have h₂ : Yields c (stores s₂) := yields_raise (s := s₁) h _
  split
  · exact yields_startRestart h₂ _
  · simp [h₂]

@[simp] theorem yields_execDicEoi (x value) : Yields c (stores (afterOf (execDicEoi x value s) s)) := by
  refine yields_of_next rfl ?_
  extract_lets n d
  split
  · exact h
  · split
    · split
      · simp [h]
      · exact yields_dicOrder h ..
    · exact yields_dicOrder h ..

@[simp] theorem yields_cxlWriteNow (addr data) : Yields c (stores (cxlWriteNow s addr data)) := by
  simp [cxlWriteNow, h]

@[simp] theorem yields_execCxlMemWrite (addr data) : Yields c (stores (afterOf (execCxlMemWrite addr data s) s)) := by
  unfold execCxlMemWrite
  (repeat' split) <;> simp [h]

@[simp] theorem yields_execSidebandUpload (cmd) : Yields c (stores (afterOf (execSidebandUpload cmd s) s)) := by
  refine yields_served h rfl fun _ => ?_
  simp [h]

@[simp] theorem yields_pldmAck (n) : Yields c (stores (pldmAck s n)) := h.pldm _ (.inr (List.length_filter_le ..))

@[simp] theorem yields_execPollForPlatformEventMessage (tag ack) :
    Yields c (stores (afterOf (execPollForPlatformEventMessage tag ack s) s)) := by
  refine yields_of_next rfl ?_
  refine yields_pldmServe h _ ?_
  have hack : Yields c (stores (match ack with | some n => pldmAck s n | none => s)) := by
    split <;> simp [h]
  dsimp only
  split
  · rw [stores_emit]
    exact hack
  · rw [stores_emit]
    exact hack

@[simp] theorem yields_execPlatformEventMessageResponse (number) :
    Yields c (stores (afterOf (execPlatformEventMessageResponse number s) s)) := by
  refine yields_of_next rfl ?_
  exact yields_pldmServe h _ (yields_pldmAck h _)

end

/-! ### Sys2Proof/Machine/HealthCmds.lean -/

section

variable {s : State}

@[simp] theorem stores_countHang (u) : stores (countHang s u) = stores s := (rfl)

@[simp] theorem stores_settleStall (e t) : stores (settleStall s e t) = stores s := (rfl)

@[simp] theorem stores_uncountReset (u) : stores (uncountReset s u) = stores s := (rfl)

@[simp] theorem stores_execCleanMarkExpiry : stores (afterOf (execCleanMarkExpiry s) s) = stores s := by
  simp [execCleanMarkExpiry]

@[simp] theorem stores_writeClean : stores (writeClean s) = stores s := by
  simp [writeClean]

end

section

variable {c : Stores} {s : State} (h : Yields c (stores s))

include h

@[simp] theorem yields_recordEvent (e) : Yields c (stores (recordEvent s e)) := by
  unfold recordEvent
  extract_lets n r hlt s₁ s₂
  have h₁ : Yields c (stores s₁) :=
    (h.log _ (List.length_take_le ..)).pldm (pldmQueue s.hlt.pldm n) (.inl (by
      rw [pldmQueue, List.length_drop, List.length_append]
      simp only [List.length_singleton]
      omega))
  have h₂ : Yields c (stores s₂) := by
    unfold s₂
    split
    · simpa using h₁
    · exact h₁
  simpa using h₂

@[simp] theorem yields_execErrorRecord (die) : Yields c (stores (afterOf (execErrorRecord die s) s)) := by
  refine yields_of_next rfl ?_
  split
  · exact h
  · split
    · exact h
    · next hq => exact yields_recordEvent (h.queue _ _ (.inr (by simp [hq]))) _

@[simp] theorem yields_hangRecord (kind unit die func suspects sl jb) :
    Yields c (stores (hangRecord s kind unit die func suspects sl jb)) := by
  simp [hangRecord, h]

@[simp] theorem yields_startStall (e kind suspects) : Yields c (stores (startStall s e kind suspects)) := by
  simp [startStall, h]

@[simp] theorem yields_execEngineStall (e) : Yields c (stores (afterOf (execEngineStall e s) s)) := by
  simp [execEngineStall, h]

@[simp] theorem yields_execContextStall (e i) : Yields c (stores (afterOf (execContextStall e i s) s)) := by
  simp [execContextStall, h]

@[simp] theorem yields_moveTo (e i e' i' base) : Yields c (stores (moveTo s e i e' i' base)) := by
  simp [moveTo, h]

@[simp] theorem yields_execStallReplayDone (e i outcome) :
    Yields c (stores (afterOf (execStallReplayDone e i outcome s) s)) := by
  unfold execStallReplayDone
  (repeat' split) <;> simp [h]

@[simp] theorem yields_execStallNoReferee (e i) : Yields c (stores (afterOf (execStallNoReferee e i s) s)) := by
  unfold execStallNoReferee
  split <;> simp [h]

@[simp] theorem yields_execHostCoreStall (k) : Yields c (stores (afterOf (execHostCoreStall k s) s)) := by
  refine yields_of_next rfl ?_
  extract_lets radio u sl s₁ s₂
  have h₂ : Yields c (stores s₂) := yields_faultCore (by simp [s₁, h]) ..
  split
  · exact h
  · split
    · simpa using h₂
    · exact h₂

@[simp] theorem yields_resetFunction (d f cause) : Yields c (stores (resetFunction s d f cause)) := by
  simp [resetFunction, h]

@[simp] theorem yields_execAcceleratorStall (die unit) :
    Yields c (stores (afterOf (execAcceleratorStall die unit s) s)) := by
  refine yields_of_next rfl ?_
  split
  · exact h
  · split
    · exact yields_failStarted (by simp [h]) _
    · simp [h]

@[simp] theorem yields_execControllerStall (die func) :
    Yields c (stores (afterOf (execControllerStall die func s) s)) := by
  simp [execControllerStall, h]

@[simp] theorem yields_execControllerFault (die func) :
    Yields c (stores (afterOf (execControllerFault die func s) s)) := by
  simp [execControllerFault, h]

@[simp] theorem yields_execEngineResetThreshold (u) : Yields c (stores (afterOf (execEngineResetThreshold u s) s)) := by
  simp [execEngineResetThreshold, h]

@[simp] theorem yields_execFunctionResetThreshold (die func) :
    Yields c (stores (afterOf (execFunctionResetThreshold die func s) s)) := by
  refine yields_of_next rfl ?_
  extract_lets hlt s₁ s₂ mgt s₃
  have h₂ : Yields c (stores s₂) := yields_raise (s := s₁) h _
  split
  · exact h
  · split
    · split
      · rw [stores_linkDown]
        exact h₂
      · exact h₂
    · split
      · exact yields_radioFenced h₂ _
      · exact yields_dieFault h₂ ..

@[simp] theorem yields_stampEntry : Yields c (stores (stampEntry s)) := by
  unfold stampEntry
  split <;> simp [h]

@[simp] theorem yields_execWithdrawnEvaluation : Yields c (stores (afterOf (execWithdrawnEvaluation s) s)) := by
  simp [execWithdrawnEvaluation, h]

@[simp] theorem yields_execHealthScoreUpdate : Yields c (stores (afterOf (execHealthScoreUpdate s) s)) := by
  simp [execHealthScoreUpdate, h]

@[simp] theorem yields_execDeferredDeviceReset : Yields c (stores (afterOf (execDeferredDeviceReset s) s)) := by
  simp [execDeferredDeviceReset, h]

@[simp] theorem yields_execHealthStatus (cmd) : Yields c (stores (afterOf (execHealthStatus cmd s) s)) := by
  simp [execHealthStatus, h]

@[simp] theorem yields_execHealthLogRead (cmd) : Yields c (stores (afterOf (execHealthLogRead cmd s) s)) := by
  refine yields_served h rfl fun _ => ?_
  refine answerYields_checked ?_
  split
  · next hw => exact yields_writeArg h hw
  · simp

@[simp] theorem yields_execHealthConfig (cmd) : Yields c (stores (afterOf (execHealthConfig cmd s) s)) := by
  simp [execHealthConfig, h]

@[simp] theorem yields_execHealthClockSet (cmd) : Yields c (stores (afterOf (execHealthClockSet cmd s) s)) := by
  refine yields_served h rfl fun _ => ?_
  simp [h]

@[simp] theorem yields_execHealthSeed (cmd) : Yields c (stores (afterOf (execHealthSeed cmd s) s)) := by
  refine yields_served h rfl fun _ => ?_
  refine answerYields_checked ?_
  split <;> simp [h]

@[simp] theorem yields_execHealthUnitConfirm (cmd) : Yields c (stores (afterOf (execHealthUnitConfirm cmd s) s)) := by
  refine yields_served h rfl fun _ => ?_
  simp [h]

@[simp] theorem yields_execHealthUnitClear (cmd) : Yields c (stores (afterOf (execHealthUnitClear cmd s) s)) := by
  simp [execHealthUnitClear, h]

@[simp] theorem yields_execHealthDieClear (cmd) : Yields c (stores (afterOf (execHealthDieClear cmd s) s)) := by
  refine yields_served h rfl fun _ => ?_
  simp [h]

@[simp] theorem yields_execHealthReinstate (cmd) : Yields c (stores (afterOf (execHealthReinstate cmd s) s)) := by
  refine yields_served h rfl fun _ => ?_
  refine answerYields_checked ?_
  dsimp only
  split <;> simp [h]

@[simp] theorem yields_execHealthShutdown (cmd) : Yields c (stores (afterOf (execHealthShutdown cmd s) s)) := by
  simp [execHealthShutdown, h]

@[simp] theorem yields_execHealthDeviceReset (cmd) : Yields c (stores (afterOf (execHealthDeviceReset cmd s) s)) := by
  simp [execHealthDeviceReset, h]

end

end Sys2Proof.Machine
end

section
/-! PROOFS. What a step makes of the stores (R122, R160, R395, R396): the radio, the signal cores and the
accelerators. -/

namespace Sys2Proof.Machine

open Sys2Proof

/-! ### Sys2Proof/Machine/RadioCmds.lean -/

section

variable {s : State}

@[simp] theorem stores_cellFrame (frame d) : stores (cellFrame s frame d) = stores s := by
  simp [cellFrame]

@[simp] theorem stores_execHarqCarrySend (d) : stores (afterOf (execHarqCarrySend d s) s) = stores s := by
  refine stores_of_next rfl ?_
  extract_lets x dev parts packets
  split
  · rfl
  · split
    · simp
    · split
      · next hs => simp [stores_sendAll hs]
      · simp

@[simp] theorem stores_execHarqCarryLanded (d crcOk addr) :
    stores (afterOf (execHarqCarryLanded d crcOk addr s) s) = stores s := by
  unfold execHarqCarryLanded
  split <;> simp

@[simp] theorem stores_execMoveJob0Close (d) : stores (afterOf (execMoveJob0Close d s) s) = stores s := (rfl)

@[simp] theorem stores_setFreeOrder (j on) : stores (setFreeOrder s j on) = stores s := by
  simp [setFreeOrder]

@[simp] theorem stores_retestCadence : stores (retestCadence s) = stores s := by
  simp [retestCadence]

@[simp] theorem stores_startPeriod (period) : stores (startPeriod s period) = stores s := by
  simp [startPeriod]

@[simp] theorem stores_execLeasePeriodStart (period) :
    stores (afterOf (execLeasePeriodStart period s) s) = stores s := by
  simp [execLeasePeriodStart]

@[simp] theorem stores_execLeaseCheckPoint (period) : stores (afterOf (execLeaseCheckPoint period s) s) = stores s :=
  (rfl)

@[simp] theorem stores_execLeaseEndNoTacor : stores (afterOf (execLeaseEndNoTacor s) s) = stores s := by
  simp [execLeaseEndNoTacor]

@[simp] theorem stores_discardIq (d d' frame slot) : stores (discardIq s d d' frame slot) = stores s := (rfl)

@[simp] theorem stores_queueRadio (p q f) : stores (queueRadio s p q f) = stores s := (rfl)

@[simp] theorem stores_sendCplane (d frame slot dir) : stores (sendCplane s d frame slot dir) = stores s := by
  simp [sendCplane]

@[simp] theorem stores_attachWeights (d frame slot ext) : stores (attachWeights s d frame slot ext) = stores s := by
  simp [attachWeights]

@[simp] theorem stores_planCell (d frame slot csiRs d') : stores (planCell s d frame slot csiRs d') = stores s := by
  simp [planCell]

@[simp] theorem stores_takePlan (d p) : stores (takePlan s d p) = stores s := by
  simp [takePlan]

end

section

variable {c : Stores} {s : State} (h : Yields c (stores s))

include h

@[simp] theorem yields_execCellConfig (cmd) : Yields c (stores (afterOf (execCellConfig cmd s) s)) := by
  simp [execCellConfig, h]

@[simp] theorem yields_execCellStart (cmd) : Yields c (stores (afterOf (execCellStart cmd s) s)) := by
  simp [execCellStart, h]

@[simp] theorem yields_execCellStop (cmd) : Yields c (stores (afterOf (execCellStop cmd s) s)) := by
  simp [execCellStop, h]

@[simp] theorem yields_execCellMoveOut (cmd) : Yields c (stores (afterOf (execCellMoveOut cmd s) s)) := by
  simp [execCellMoveOut, h]

@[simp] theorem yields_execCellMoveIn (cmd) : Yields c (stores (afterOf (execCellMoveIn cmd s) s)) := by
  simp [execCellMoveIn, h]

@[simp] theorem yields_frameBoundary (frame) : Yields c (stores (frameBoundary frame s)) := by
  unfold frameBoundary
  refine yields_foldl (by simpa using h) (fun u d => ?_) _
  split
  · exact .refl
  · dsimp only
    split
    · simp
    · exact yields_capacityLost (by simp) ..

@[simp] theorem yields_execCellFrameBoundary (frame) :
    Yields c (stores (afterOf (execCellFrameBoundary frame s) s)) := by
  simp [execCellFrameBoundary, h]

@[simp] theorem yields_execLeasePlan (cmd) : Yields c (stores (afterOf (execLeasePlan cmd s) s)) := by
  refine yields_served h rfl fun _ => ?_
  dsimp only
  split <;> simp [h]

@[simp] theorem yields_execLeaseCeilingSet (cmd) : Yields c (stores (afterOf (execLeaseCeilingSet cmd s) s)) := by
  simp [execLeaseCeilingSet, h]

@[simp] theorem yields_execRadioStatus (cmd) : Yields c (stores (afterOf (execRadioStatus cmd s) s)) := by
  simp [execRadioStatus, h]

@[simp] theorem yields_takeSlotJob (d arrival j as) : Yields c (stores (takeSlotJob s d arrival j as)) := by
  unfold takeSlotJob
  split <;> simp [h]

@[simp] theorem yields_fetchSlotJobs (d fuel) : Yields c (stores (fetchSlotJobs d fuel s)) := by
  induction fuel generalizing s with
  | zero => exact h
  | succ fuel ih =>
    unfold fetchSlotJobs
    dsimp only
    split
    · exact h
    · split
      · simp [h]
      · exact ih (by simpa using h)
      · split
        · exact ih (yields_reportStatus (by simpa using h) ..)
        · split
          · simp [h]
          · exact ih (yields_reportStatus (by simpa using h) ..)
          · exact ih (yields_takeSlotJob (by simpa using h) ..)

@[simp] theorem yields_execEqpSjTailWrite (d value) : Yields c (stores (afterOf (execEqpSjTailWrite d value s) s)) := by
  simp [execEqpSjTailWrite, h]

@[simp] theorem yields_execEqpRptHeadWrite (d value) :
    Yields c (stores (afterOf (execEqpRptHeadWrite d value s) s)) := by
  simp [execEqpRptHeadWrite, h]

@[simp] theorem yields_groupOff (d g) : Yields c (stores (groupOff s d g)) := by
  simp [groupOff, h]

@[simp] theorem yields_groupOn (d g) : Yields c (stores (groupOn s d g)) := by
  simp [groupOn, h]

@[simp] theorem yields_execSlotBoundary (d groupsOff groupsOn plan csiRs) :
    Yields c (stores (afterOf (execSlotBoundary d groupsOff groupsOn plan csiRs s) s)) := by
  refine yields_of_next rfl ?_
  extract_lets before s₁ s₂ old s₃ s₄ rad s₅ s₆ n
  have h₂ : Yields c (stores s₂) := by simp [s₂, s₁, h]
  have h₄ : Yields c (stores s₄) := by simpa [s₄, s₃] using h₂
  have h₆ : Yields c (stores s₆) :=
    yields_foldl (yields_foldl (s := s₅) h₄ (fun _ _ => by simp) _) (fun _ _ => by simp) _
  split
  · exact h
  · exact yields_foldl h₆ (fun _ _ => by simp) _

end

/-! ### Sys2Proof/Machine/PowerOps.lean -/

section

variable {s : State}

@[simp] theorem stores_setIndex (n i) : stores (setIndex s n i) = stores s := by
  simp [setIndex]

@[simp] theorem stores_suspectUnit (u) : stores (suspectUnit s u) = stores s := by
  simp [suspectUnit]

@[simp] theorem stores_lateBeat (n) : stores (lateBeat s n) = stores s := (rfl)

@[simp] theorem stores_operandWait (n) : stores (operandWait s n) = stores s := (rfl)

@[simp] theorem stores_noteActive (a) : stores (noteActive s a) = stores s := (rfl)

@[simp] theorem stores_noteBeats (ns x lease beats est) : stores (noteBeats s ns x lease beats est) = stores s := by
  simp [noteBeats]

@[simp] theorem stores_noteOverhead (u beats) : stores (noteOverhead s u beats) = stores s := by
  simp [noteOverhead]

end

section

variable {c : Stores} {s : State} (h : Yields c (stores s))

include h

@[simp] theorem yields_excludeSensor (n i) : Yields c (stores (excludeSensor s n i)) := by
  simp [excludeSensor, h]

@[simp] theorem yields_setLevel (d level) : Yields c (stores (setLevel s d level)) := by
  simp [setLevel, h]

@[simp] theorem yields_enterThrottle (d) : Yields c (stores (enterThrottle s d)) := by
  simp [enterThrottle, h]

@[simp] theorem yields_enterThrottles : Yields c (stores (enterThrottles s)) := by
  simp [enterThrottles, h]

end

/-! ### Sys2Proof/Machine/SignalOps.lean -/

section

variable {s : State}

@[simp] theorem stores_countMismatch (k) : stores (countMismatch s k) = stores s := (rfl)

@[simp] theorem stores_countCorrected (k) : stores (countCorrected s k) = stores s := (rfl)

@[simp] theorem stores_takeFreeNat (site n) : stores (takeFreeNat s site n).2 = stores s := by
  induction n with
  | zero => rfl
  | succ n ih => simpa [takeFreeNat] using ih

@[simp] theorem stores_takeFreeV (site) : stores (takeFreeV s site).2 = stores s := (rfl)

end

section

variable {c : Stores} {s : State} (h : Yields c (stores s))

include h

@[simp] theorem yields_releaseOne (k x) : Yields c (stores (releaseOne s k x)) := by
  unfold releaseOne
  split <;> simp [h]

@[simp] theorem yields_releasePair (k p fuel) : Yields c (stores (releasePair k p fuel s)) := by
  induction fuel generalizing s with
  | zero => exact h
  | succ fuel ih =>
    unfold releasePair
    split
    · split
      · exact ih (by simp [h])
      · simp [h]
    · exact h

@[simp] theorem yields_settlePair (k) : Yields c (stores (settlePair k s)) := by
  unfold settlePair
  dsimp only
  split <;> simp [h]

@[simp] theorem yields_releaseFrom (k r) : Yields c (stores (releaseFrom s k r)) := by
  simp [releaseFrom, h]

theorem yields_coreWrite {s'} {k addr bs} (hs : coreWrite s k addr bs = .ok s') : Yields c (stores s') := by
  grind [coreWrite, yields_releaseFrom]

@[simp] theorem yields_fwRecord (k) : Yields c (stores (fwRecord s k)) := by
  simp [fwRecord, h]

@[simp] theorem yields_firmwareFault (k) : Yields c (stores (firmwareFault s k)) := by
  simp [firmwareFault, h]

@[simp] theorem yields_coreEcc (k addr) : Yields c (stores (coreEcc s k addr)) := by
  simp [coreEcc, h]

omit h in
/-- What an instruction's retirement leaves of the stores: its own state's, and a fault leaves the state before it. -/
def RetireYields (c : Stores) : Retire → Prop
  | .next t _ | .jump t _ _ | .full t | .waits t | .aborted t | .ended t => Yields c (stores t)
  | .fault | .ecc _ => True

theorem RetireYields.trans {r : Retire} (hr : RetireYields (stores s) r) : RetireYields c r := by
  cases r with
  | fault => trivial
  | ecc => trivial
  | _ => exact h.trans hr

omit h in
@[simp] theorem retireYields_next (t beats) : RetireYields c (.next t beats) ↔ Yields c (stores t) := Iff.rfl

omit h in
@[simp] theorem retireYields_jump (t beats pc) : RetireYields c (.jump t beats pc) ↔ Yields c (stores t) := Iff.rfl

omit h in
@[simp] theorem retireYields_full (t) : RetireYields c (.full t) ↔ Yields c (stores t) := Iff.rfl

omit h in
@[simp] theorem retireYields_waits (t) : RetireYields c (.waits t) ↔ Yields c (stores t) := Iff.rfl

omit h in
@[simp] theorem retireYields_aborted (t) : RetireYields c (.aborted t) ↔ Yields c (stores t) := Iff.rfl

omit h in
@[simp] theorem retireYields_ended (t) : RetireYields c (.ended t) ↔ Yields c (stores t) := Iff.rfl

omit h in
@[simp] theorem retireYields_fault : RetireYields c .fault := trivial

omit h in
@[simp] theorem retireYields_ite {p : Prop} [Decidable p] {x y : Retire} :
    RetireYields c (if p then x else y) ↔ (p → RetireYields c x) ∧ (¬ p → RetireYields c y) := by
  split <;> simp [*]

omit h in
@[simp] theorem retireYields_ofBar (b) : RetireYields c (Retire.ofBar b) := by
  cases b <;> trivial

@[simp] theorem retireYields_released (k beats f) : RetireYields c (Retire.released s k beats f) := by
  unfold Retire.released
  split <;> simp [h]

theorem yields_settle {r : Retire} (hr : RetireYields c r) (k) : Yields c (stores (settle s k r)) := by
  cases r with
  | fault => exact yields_firmwareFault h _
  | ecc a => exact yields_coreEcc h ..
  | waits t => exact hr
  | aborted t => exact hr
  | _ => simpa [settle] using hr

@[simp] theorem yields_coreRuns (k compat word chk) {body : State → Retire}
    (hbody : ∀ t, RetireYields (stores t) (body t)) :
    Yields c (stores (coreRuns k compat word chk s body)) := by
  have hsettle (t : State) (ht : Yields c (stores t)) : Yields c (stores (settle t k (body t))) :=
    yields_settle ht ((hbody t).trans ht) k
  unfold coreRuns
  dsimp only
  split
  · exact h
  · split
    · exact hsettle _ h
    · exact hsettle _ (by simpa using h)
    · exact hsettle _ (by simp [h])
    · simp [h]
    · simp [h]

@[simp] theorem yields_regInstr (k beats word chk f) : Yields c (stores (regInstr k beats word chk s f)) := by
  simp [regInstr, h]

@[simp] theorem yields_laneInstr (k vd va vb fp word chk f) :
    Yields c (stores (laneInstr k vd va vb fp word chk s f)) := by
  simp [laneInstr, h]

end

/-! ### Sys2Proof/Machine/SignalCmds.lean -/

section

variable {s : State}

@[simp] theorem stores_modJobOf (d id f) : stores (modJobOf s d id f) = stores s := (rfl)

@[simp] theorem stores_harqCombine (d j j') : stores (harqCombine s d j j') = stores s := (rfl)

@[simp] theorem stores_beginTask (k t s2 s3 partner copyOf) :
    stores (beginTask s k t s2 s3 partner copyOf) = stores s :=
  (rfl)

@[simp] theorem stores_execTaskStart (k entry mode s1 s2 s3 s4 seqs slotJob work) :
    stores (afterOf (execTaskStart k entry mode s1 s2 s3 s4 seqs slotJob work s) s) = stores s := by
  refine stores_of_next rfl ?_
  extract_lets held d j s₂ s₃ x partner t₁ t₂
  have ht : stores t₂ = stores s := by
    cases hp : partner with
    | none => simp [t₂, t₁, hp]
    | some p => simp [t₂, t₁, hp]
  split
  · rfl
  · split <;> simp [ht]

@[simp] theorem stores_endReruns (d j) : stores (endReruns s d j).1 = stores s := (rfl)

@[simp] theorem stores_lateTask (d id) : stores (lateTask s d id) = stores s := (rfl)

@[simp] theorem stores_taskOver (k) : stores (taskOver s k) = stores s := by
  simp [taskOver]

@[simp] theorem stores_postInc2 (k on pa pb a b) : stores (postInc2 s k on pa pb a b) = stores s := by
  simp [postInc2]

@[simp] theorem stores_execInstructionStoreWrite (k index word) :
    stores (afterOf (execInstructionStoreWrite k index word s) s) = stores s := by
  simp [execInstructionStoreWrite]

end

section

variable {c : Stores} {s : State} (h : Yields c (stores s))

include h

@[simp] theorem yields_completeSlot (d j r) : Yields c (stores (completeSlot s d j r)) := by
  simp [completeSlot, h]

@[simp] theorem yields_endTask (k late done) : Yields c (stores (endTask s k late done)) := by
  unfold endTask
  dsimp only
  split <;> simp [h]

@[simp] theorem yields_execTend (k late done chk) : Yields c (stores (afterOf (execTend k late done chk s) s)) := by
  refine yields_of_next rfl (yields_coreRuns h _ _ _ _ fun u => ?_)
  dsimp only
  split
  · simp
  · split
    · simp
    · split
      · simp
      · split <;> simp

@[simp] theorem yields_execVmac (k acc va vb conj neg fp chk) :
    Yields c (stores (afterOf (execVmac k acc va vb conj neg fp chk s) s)) := by
  simp [execVmac, h]

@[simp] theorem yields_execTapmov (k acc vw vc tap conj fp chk) :
    Yields c (stores (afterOf (execTapmov k acc vw vc tap conj fp chk s) s)) := by
  simp [execTapmov, h]

@[simp] theorem yields_execVext (k vd acc sh clr fp chk) :
    Yields c (stores (afterOf (execVext k vd acc sh clr fp chk s) s)) := by
  refine yields_of_next rfl (yields_coreRuns h _ _ _ _ fun u => ?_)
  split
  · trivial
  · exact .refl

@[simp] theorem yields_execVld (k vd p postinc imm chk) :
    Yields c (stores (afterOf (execVld k vd p postinc imm chk s) s)) := by
  refine yields_of_next rfl (yields_coreRuns h _ _ _ _ fun u => ?_)
  dsimp only
  (repeat' split) <;> simp

@[simp] theorem yields_execVst (k vs p postinc imm chk) :
    Yields c (stores (afterOf (execVst k vs p postinc imm chk s) s)) := by
  refine yields_of_next rfl (yields_coreRuns h _ _ _ _ fun u => ?_)
  dsimp only
  split
  · simp
  · split
    · simp
    · next hw => simp [yields_coreWrite .refl hw]

@[simp] theorem yields_execVld2 (k vd pa pb postinc imm chk) :
    Yields c (stores (afterOf (execVld2 k vd pa pb postinc imm chk s) s)) := by
  refine yields_of_next rfl (yields_coreRuns h _ _ _ _ fun u => ?_)
  dsimp only
  (repeat' split) <;> simp

@[simp] theorem yields_execVst2 (k vs pa pb postinc imm chk) :
    Yields c (stores (afterOf (execVst2 k vs pa pb postinc imm chk s) s)) := by
  refine yields_of_next rfl (yields_coreRuns h _ _ _ _ fun u => ?_)
  have hfree (p : Prop) [Decidable p] (v) : stores (if p then takeFreeV u 41 else (v, u)).2 = stores u := by
    split <;> simp
  dsimp only
  split
  · simp
  · split
    · simp
    · next h₁ =>
      split
      · simp
      · next h₂ =>
        have hw := yields_coreWrite (yields_coreWrite .refl h₁) h₂
        rw [hfree] at hw
        simp [hw]

@[simp] theorem yields_execVlds (k sd p postinc imm chk) :
    Yields c (stores (afterOf (execVlds k sd p postinc imm chk s) s)) := by
  refine yields_of_next rfl (yields_coreRuns h _ _ _ _ fun u => ?_)
  dsimp only
  split <;> simp

@[simp] theorem yields_execVsts (k ss p postinc imm chk) :
    Yields c (stores (afterOf (execVsts k ss p postinc imm chk s) s)) := by
  refine yields_of_next rfl (yields_coreRuns h _ _ _ _ fun u => ?_)
  dsimp only
  split
  · simp
  · next hw => simp [yields_coreWrite .refl hw]

@[simp] theorem yields_execVadd (k vd va vb fp chk) : Yields c (stores (afterOf (execVadd k vd va vb fp chk s) s)) := by
  simp [execVadd, h]

@[simp] theorem yields_execVsub (k vd va vb fp chk) : Yields c (stores (afterOf (execVsub k vd va vb fp chk s) s)) := by
  simp [execVsub, h]

@[simp] theorem yields_execVmul (k vd va vb fp chk) : Yields c (stores (afterOf (execVmul k vd va vb fp chk s) s)) := by
  simp [execVmul, h]

@[simp] theorem yields_execVconj (k vd va fp chk) : Yields c (stores (afterOf (execVconj k vd va fp chk s) s)) := by
  simp [execVconj, h]

@[simp] theorem yields_execVpow (k vd va chk) : Yields c (stores (afterOf (execVpow k vd va chk s) s)) := by
  simp [execVpow, h]

@[simp] theorem yields_execVmax (k vd va vb fp chk) : Yields c (stores (afterOf (execVmax k vd va vb fp chk s) s)) := by
  simp [execVmax, h]

@[simp] theorem yields_execVmin (k vd va vb fp chk) : Yields c (stores (afterOf (execVmin k vd va vb fp chk s) s)) := by
  simp [execVmin, h]

@[simp] theorem yields_execVsel (k vd va vb sm chk) : Yields c (stores (afterOf (execVsel k vd va vb sm chk s) s)) := by
  simp [execVsel, h]

@[simp] theorem yields_execVperm (k vd va vi chk) : Yields c (stores (afterOf (execVperm k vd va vi chk s) s)) := by
  simp [execVperm, h]

@[simp] theorem yields_execVscr (k vd va vs mode chk) :
    Yields c (stores (afterOf (execVscr k vd va vs mode chk s) s)) := by
  refine yields_of_next rfl (yields_coreRuns h _ _ _ _ fun u => ?_)
  dsimp only
  split
  · simp
  · simp only [retireYields_next, stores_modSigCore, apply_ite Prod.snd, stores_ite, stores_takeFreeV, ite_self,
      yields_refl]

@[simp] theorem yields_execVgold (k vd vg chk) : Yields c (stores (afterOf (execVgold k vd vg chk s) s)) := by
  simp [execVgold, h]

@[simp] theorem yields_execVcrc (k sc va poly len chk) :
    Yields c (stores (afterOf (execVcrc k sc va poly len chk s) s)) := by
  simp [execVcrc, h]

@[simp] theorem yields_execVqam (k vd va qm chk) : Yields c (stores (afterOf (execVqam k vd va qm chk s) s)) := by
  refine yields_of_next rfl (yields_coreRuns h _ _ _ _ fun u => ?_)
  dsimp only
  split
  · simp
  · simp only [retireYields_next, stores_modSigCore, apply_ite Prod.snd, stores_ite, stores_takeFreeV, ite_self,
      yields_refl]

@[simp] theorem yields_execVsat8 (k vd va vb sh chk) :
    Yields c (stores (afterOf (execVsat8 k vd va vb sh chk s) s)) := by
  simp [execVsat8, h]

@[simp] theorem yields_execVllradd (k vd va vb chk) : Yields c (stores (afterOf (execVllradd k vd va vb chk s) s)) := by
  simp [execVllradd, h]

@[simp] theorem yields_execSadd (k sd sa sb chk) : Yields c (stores (afterOf (execSadd k sd sa sb chk s) s)) := by
  simp [execSadd, h]

@[simp] theorem yields_execSsub (k sd sa sb chk) : Yields c (stores (afterOf (execSsub k sd sa sb chk s) s)) := by
  simp [execSsub, h]

@[simp] theorem yields_execSli (k sd imm chk) : Yields c (stores (afterOf (execSli k sd imm chk s) s)) := by
  simp [execSli, h]

@[simp] theorem yields_execSmovp (k sr p dir chk) : Yields c (stores (afterOf (execSmovp k sr p dir chk s) s)) := by
  simp [execSmovp, h]

@[simp] theorem yields_execLoop (k lc sn stop chk) : Yields c (stores (afterOf (execLoop k lc sn stop chk s) s)) := by
  simp [execLoop, h]

@[simp] theorem yields_execBr (k cond neg target chk) :
    Yields c (stores (afterOf (execBr k cond neg target chk s) s)) := by
  simp [execBr, h]

@[simp] theorem yields_execScmp (k cond sa sb chk) : Yields c (stores (afterOf (execScmp k cond sa sb chk s) s)) := by
  simp [execScmp, h]

@[simp] theorem yields_execQpush (k vs sd queue chk) :
    Yields c (stores (afterOf (execQpush k vs sd queue chk s) s)) := by
  refine yields_of_next rfl (yields_coreRuns h _ _ _ _ fun u => ?_)
  split <;> simp

@[simp] theorem yields_execQpop (k sd queue chk) : Yields c (stores (afterOf (execQpop k sd queue chk s) s)) := by
  refine yields_of_next rfl (yields_coreRuns h _ _ _ _ fun u => ?_)
  dsimp only
  split <;> simp

@[simp] theorem yields_execWaitc (k p sv chk) : Yields c (stores (afterOf (execWaitc k p sv chk s) s)) := by
  refine yields_of_next rfl (yields_coreRuns h _ _ _ _ fun u => ?_)
  dsimp only
  split <;> simp

@[simp] theorem yields_fl5Effect (k) : Yields c (stores (fl5Effect s k)) := by
  simp [fl5Effect, h]

@[simp] theorem yields_execFl5Instruction (k word peripheral chk) :
    Yields c (stores (afterOf (execFl5Instruction k word peripheral chk s) s)) := by
  simp [execFl5Instruction, h]

@[simp] theorem yields_execIllegalInstruction (k word) :
    Yields c (stores (afterOf (execIllegalInstruction k word s) s)) := by
  simp [execIllegalInstruction, h]

@[simp] theorem yields_execScStall (k) : Yields c (stores (afterOf (execScStall k s) s)) := by
  simp [execScStall, h]

end

/-! ### Sys2Proof/Machine/AccelCmds.lean -/

section

variable {s : State}

@[simp] theorem stores_unitLate (k q d) : stores (unitLate s k q d) = stores s := by
  unfold unitLate
  split <;> simp

@[simp] theorem stores_noteUnit (k q d f) : stores (noteUnit s k q d f) = stores s := (rfl)

@[simp] theorem stores_queueSymbol (d sl iq) : stores (queueSymbol s d sl iq) = stores s := by
  simp [queueSymbol]

end

section

variable {c : Stores} {s : State} (h : Yields c (stores s))

include h

theorem yields_unitWrite {s'} {addr bs} (hs : unitWrite s addr bs = .ok s') : Yields c (stores s') := by
  grind [unitWrite, yields_physWrite, yields_devWrite]

@[simp] theorem yields_endDesc (k q d late ok) : Yields c (stores (endDesc s k q d late ok)) := by
  unfold endDesc
  split <;> simp [h]

@[simp] theorem yields_refusedDesc (k q d late b) : Yields c (stores (refusedDesc s k q d late b)) := by
  simp [refusedDesc, h]

@[simp] theorem yields_serveOn (only d k q op o out) {note after : List W64 → List Byte → State → State}
    (hnote : ∀ w bs t, stores (note w bs t) = stores t)
    (hafter : ∀ w bs t, Yields (stores t) (stores (after w bs t))) :
    Yields c (stores (serveOn only d k q op o s out note after)) := by
  have hend (w bs) (t : State) (ht : Yields c (stores t)) :
      Yields c (stores (after w bs (endDesc (note w bs t) k q w o.late true))) :=
    .trans (yields_endDesc (by simpa [hnote] using ht) ..) (hafter ..)
  unfold serveOn
  dsimp only
  split
  · exact h
  · split
    · exact h
    · split
      · simp [h]
      · simp [h]
      · split
        · simp [h]
        · split
          · exact hend _ _ _ h
          · split
            · simp [h]
            · simp [h]
            · next hw => exact hend _ _ _ (yields_unitWrite h hw)

@[simp] theorem yields_serveDesc (d k q op o out) {note after : List W64 → List Byte → State → State}
    (hnote : ∀ w bs t, stores (note w bs t) = stores t)
    (hafter : ∀ w bs t, Yields (stores t) (stores (after w bs t))) :
    Yields c (stores (serveDesc d k q op o s out note after)) :=
  yields_serveOn h _ _ _ _ _ _ _ hnote hafter

@[simp] theorem yields_execChannelEstimation (k o) : Yields c (stores (afterOf (execChannelEstimation k o s) s)) := by
  simp [execChannelEstimation, h]

@[simp] theorem yields_execEqualisation (k o) : Yields c (stores (afterOf (execEqualisation k o s) s)) := by
  simp [execEqualisation, h]

@[simp] theorem yields_execSrsChannelEstimation (k o) :
    Yields c (stores (afterOf (execSrsChannelEstimation k o s) s)) := by
  simp [execSrsChannelEstimation, h]

@[simp] theorem yields_execLdpcDecode (k decoder engineNo o) :
    Yields c (stores (afterOf (execLdpcDecode k decoder engineNo o s) s)) := by
  simp [execLdpcDecode, h]

@[simp] theorem yields_execLdpcEncode (k encoder o) : Yields c (stores (afterOf (execLdpcEncode k encoder o s) s)) := by
  simp [execLdpcEncode, h]

@[simp] theorem yields_execPolarDecode (k o) : Yields c (stores (afterOf (execPolarDecode k o s) s)) := by
  simp [execPolarDecode, h]

@[simp] theorem yields_execPolarEncode (k o) : Yields c (stores (afterOf (execPolarEncode k o s) s)) := by
  simp [execPolarEncode, h]

@[simp] theorem yields_execReedMullerDecode (k o) : Yields c (stores (afterOf (execReedMullerDecode k o s) s)) := by
  simp [execReedMullerDecode, h]

@[simp] theorem yields_execSequenceDetection (k o) : Yields c (stores (afterOf (execSequenceDetection k o s) s)) := by
  simp [execSequenceDetection, h]

@[simp] theorem yields_execPrecoding (k o) : Yields c (stores (afterOf (execPrecoding k o s) s)) := by
  simp [execPrecoding, h]

@[simp] theorem yields_execWeightAttachment (k o) : Yields c (stores (afterOf (execWeightAttachment k o s) s)) := by
  simp [execWeightAttachment, h]

@[simp] theorem yields_execWeightComputation (k o) : Yields c (stores (afterOf (execWeightComputation k o s) s)) := by
  simp [execWeightComputation, h]

@[simp] theorem yields_execUplaneSymbol (k o) : Yields c (stores (afterOf (execUplaneSymbol k o s) s)) := by
  simp [execUplaneSymbol, h]

@[simp] theorem yields_execLocalDmaCopy (k o) : Yields c (stores (afterOf (execLocalDmaCopy k o s) s)) := by
  simp [execLocalDmaCopy, h]

end

end Sys2Proof.Machine
end

section
/-! PROOFS. What a step makes of the stores (R122, R160, R395, R396): boot, and the engines and their descriptors. -/

namespace Sys2Proof.Machine

open Sys2Proof

/-! ### Sys2Proof/Machine/BootOps.lean -/

section

variable {s : State}

@[simp] theorem stores_bootHealth : stores (bootHealth s) = stores s := by
  simp [bootHealth]

@[simp] theorem stores_setSeam (n v) : stores (setSeam s n v) = stores s := (rfl)

@[simp] theorem stores_bootDomains : stores (bootDomains s) = stores s := by
  unfold bootDomains
  refine stores_foldl (fun u n => ?_) _ _
  rfl

@[simp] theorem stores_bootWindow : stores (bootWindow s) = stores s := (rfl)

@[simp] theorem stores_bootFittings : stores (bootFittings s) = stores s := by
  simp [bootFittings]

@[simp] theorem stores_bootRoutes : stores (bootRoutes s) = stores s := by
  simp only [bootRoutes, stores]

end

section

variable {c : Stores} {s : State} (h : Yields c (stores s))

include h

@[simp] theorem yields_noteDie (d cause) : Yields c (stores (noteDie s d cause)) := by
  simp [noteDie, h]

@[simp] theorem yields_bootFence (us cause) : Yields c (stores (bootFence s us cause)) := by
  simp [bootFence, h]

@[simp] theorem yields_dropDie (d) : Yields c (stores (dropDie s d)) := by
  simp [dropDie, h]

@[simp] theorem yields_bootSeams (failed) : Yields c (stores (bootSeams s failed)) := by
  unfold bootSeams
  refine yields_foldl h (fun u n => ?_) _
  extract_lets _ s₁ s₂ s₃
  exact yields_foldl (s := s₂) (yields_raise (s := s₁) .refl _) (fun _ _ => yields_noteDie .refl ..) _

@[simp] theorem yields_memoryFailed (d detail) : Yields c (stores (memoryFailed s d detail)) := by
  unfold memoryFailed
  extract_lets s₁ s₂ s₃
  have h₂ : Yields c (stores s₂) := by simp [s₂, s₁, h]
  have h₃ : Yields c (stores s₃) := yields_dropDie (yields_noteDie h₂ ..) _
  split
  · exact yields_radioFenced h₂ _
  · split <;> exact h₃

@[simp] theorem yields_bootMemories (o) : Yields c (stores (bootMemories s o)) := by
  unfold bootMemories
  refine yields_foldl (yields_foldl (by simpa using h) (fun u d => ?_) _) (fun u i => ?_) _
  · split
    · exact yields_memoryFailed .refl ..
    · exact .refl
  · dsimp only
    split
    · exact yields_memoryFailed .refl ..
    · split
      · exact yields_memoryFailed .refl ..
      · exact .refl

@[simp] theorem yields_bootSensors (readings) : Yields c (stores (bootSensors s readings)) := by
  unfold bootSensors
  refine yields_foldl h (fun u r => ?_) _
  split
  · exact .refl
  · exact yields_foldl (by simp) (fun _ _ => yields_excludeSensor .refl ..) _

@[simp] theorem yields_fenceSlow (n) : Yields c (stores (fenceSlow s n)) := by
  simp [fenceSlow, h]

@[simp] theorem yields_bootPace (o) : Yields c (stores (bootPace s o)) := by
  unfold bootPace
  extract_lets s₁ s₂ s₃
  have h₂ : Yields c (stores s₂) := by
    refine yields_foldl (yields_bootSensors h _) (fun u x => ?_) _
    split <;> simp
  have h₃ : Yields c (stores s₃) := yields_foldl h₂ (fun _ _ => yields_fenceSlow .refl _) _
  refine yields_foldl h₃ (fun u d => ?_) _
  split <;> simp

@[simp] theorem yields_loadModels (models) : Yields c (stores (loadModels s models)) := by
  simp [loadModels, h]

@[simp] theorem yields_bootFenceList : Yields c (stores (bootFenceList s)) := by
  simp [bootFenceList, h]

@[simp] theorem yields_bootRunning (o) : Yields c (stores (bootRunning s o)) := by
  unfold bootRunning
  extract_lets e _ _ _ s₁ s₂ s₃ s₄ s₅
  have h₃ : Yields c (stores s₃) := yields_recordEvent (yields_refreshHealth (s := s₁) h) _
  have h₅ : Yields c (stores s₅) := by simpa [s₅, s₄] using h₃
  refine yields_stampEntry (yields_refreshHealth ?_)
  split
  · simpa using h₅
  · exact h₅

@[simp] theorem yields_bootFrom (b host o) : Yields c (stores (bootFrom s b host o)) := by
  unfold bootFrom
  split
  · exact h
  · extract_lets _ s₁ s₂ s₃ s₄ s₅ s₆ s₇ s₈
    have h₂ : Yields c (stores s₂) := yields_bootMemories (s := s₁) h _
    have h₃ : Yields c (stores s₃) := by simpa [s₃] using yields_bootPace h₂ _
    have h₅ : Yields c (stores s₅) :=
      yields_foldl (yields_bootFenceList h₃) (fun _ _ => yields_dropDie .refl _) _
    have h₇ : Yields c (stores s₇) := yields_bootFence (yields_physWrite h₅ ..) ..
    have h₈ : Yields c (stores s₈) := by
      unfold s₈
      split
      · exact yields_loadModels h₇ _
      · exact h₇
    exact yields_bootRunning (by simpa using h₈) _

end

/-! ### Sys2Proof/Machine/BootCmds.lean -/

section

variable {s : State}

@[simp] theorem stores_execPowerUp : stores (afterOf (execPowerUp s) s) = stores s := by
  simp [execPowerUp]

@[simp] theorem stores_execThermtripRelease : stores (afterOf (execThermtripRelease s) s) = stores s := by
  simp [execThermtripRelease]

@[simp] theorem stores_postImage : stores (postImage s) = stores s := by
  simp [postImage]

@[simp] theorem stores_tap {code k} (hk : ∀ t, stores (k t) = stores t) : stores (tap s code k) = stores s := by
  unfold tap
  split
  · rfl
  · exact hk _

@[simp] theorem stores_execBypass : stores (afterOf (execBypass s) s) = stores s := by
  simp [execBypass]

@[simp] theorem stores_execIdcode : stores (afterOf (execIdcode s) s) = stores s := by
  simp [execIdcode]

@[simp] theorem stores_execSamplePreload : stores (afterOf (execSamplePreload s) s) = stores s := by
  simp [execSamplePreload]

@[simp] theorem stores_execExtest : stores (afterOf (execExtest s) s) = stores s := by
  simp [execExtest]

end

section

variable {c : Stores} {s : State} (h : Yields c (stores s))

include h

@[simp] theorem yields_execCardReset (samples) : Yields c (stores (afterOf (execCardReset samples s) s)) := by
  simp [execCardReset, h]

@[simp] theorem yields_execRefclkLost (ns ppm) : Yields c (stores (afterOf (execRefclkLost ns ppm s) s)) := by
  simp [execRefclkLost, h]

@[simp] theorem yields_execRailFault (rail) : Yields c (stores (afterOf (execRailFault rail s) s)) := by
  simp [execRailFault, h]

@[simp] theorem yields_execBrownOut : Yields c (stores (afterOf (execBrownOut s) s)) := by
  simp [execBrownOut, h]

@[simp] theorem yields_execThermalTrip (tj) : Yields c (stores (afterOf (execThermalTrip tj s) s)) := by
  simp [execThermalTrip, h]

@[simp] theorem yields_execColdBoot (flash o) : Yields c (stores (afterOf (execColdBoot flash o s) s)) := by
  simp [execColdBoot, h]

@[simp] theorem yields_execBootMboxGo (image down o) :
    Yields c (stores (afterOf (execBootMboxGo image down o s) s)) := by
  simp [execBootMboxGo, h]

@[simp] theorem yields_execTacorRestartDone (imageOk flashOk) :
    Yields c (stores (afterOf (execTacorRestartDone imageOk flashOk s) s)) := by
  refine yields_of_next rfl ?_
  extract_lets s₁
  have h₁ : Yields c (stores s₁) := by
    unfold s₁
    split
    · exact h
    · exact yields_physWrite h ..
  split
  · exact h
  · split
    · exact yields_deviceReset h _
    · rw [stores_postEvent]
      refine yields_releaseRestartHolds (yields_readJournal ?_)
      rw [stores_tacorBack]
      exact h₁

@[simp] theorem yields_execBootStatus (cmd) : Yields c (stores (afterOf (execBootStatus cmd s) s)) := by
  simp [execBootStatus, h]

@[simp] theorem yields_execBootConfigRead (cmd) : Yields c (stores (afterOf (execBootConfigRead cmd s) s)) := by
  refine yields_served h rfl fun _ => ?_
  split
  · next hw => exact yields_writeArg h hw
  · simp

@[simp] theorem yields_execBootConfigSet (cmd) : Yields c (stores (afterOf (execBootConfigSet cmd s) s)) := by
  refine yields_served h rfl fun _ => ?_
  dsimp only
  split <;> simp [h]

@[simp] theorem yields_execBootImageUpdate (cmd) : Yields c (stores (afterOf (execBootImageUpdate cmd s) s)) := by
  refine yields_served h rfl fun _ => answerYields_checked ?_
  split
  · simp
  · split
    · exact fun t ht => ht
    · simp

@[simp] theorem yields_execFlashWriteDone (readbackOk) :
    Yields c (stores (afterOf (execFlashWriteDone readbackOk s) s)) := by
  unfold execFlashWriteDone
  split <;> simp [h]

@[simp] theorem yields_execBootRollbackCommit (cmd) : Yields c (stores (afterOf (execBootRollbackCommit cmd s) s)) := by
  simp [execBootRollbackCommit, h]

@[simp] theorem yields_execAttest (cmd) : Yields c (stores (afterOf (execAttest cmd s) s)) := by
  refine yields_served h rfl fun _ => answerYields_checked ?_
  split
  · simp
  · extract_lets report _ s₁
    split
    · next hw => exact yields_writeArg (s := s₁) h hw
    · exact h

@[simp] theorem yields_execAttestKeyRead (cmd) : Yields c (stores (afterOf (execAttestKeyRead cmd s) s)) := by
  refine yields_served h rfl fun _ => ?_
  split
  · next hw => exact yields_writeArg h hw
  · simp

@[simp] theorem yields_execIdRead (cmd) : Yields c (stores (afterOf (execIdRead cmd s) s)) := by
  simp [execIdRead, h]

end

/-! ### Sys2Proof/Machine/EngineOps.lean -/

section

variable {s : State}

@[simp] theorem stores_countStale : stores (countStale s) = stores s := (rfl)

@[simp] theorem stores_feederStarts (e i) : stores (feederStarts s e i) = stores s := by
  simp [feederStarts]

@[simp] theorem stores_endChain (e i d) : stores (endChain s e i d) = stores s := (rfl)

@[simp] theorem stores_passOver (hs) : stores (passOver s hs) = stores s := (rfl)

@[simp] theorem stores_startsNow (j) : stores (startsNow s j) = stores s := (rfl)

@[simp] theorem stores_selectNext (e) : stores (selectNext s e) = stores s := by
  unfold selectNext
  extract_lets k s₁
  refine (stores_foldl (fun u i => ?_) _ _).trans ?_
  · split <;> rfl
  · simp [s₁]

@[simp] theorem stores_loadRegisters (e i d phase t) : stores (loadRegisters s e i d phase t) = stores s := (rfl)

@[simp] theorem stores_popPass (e) : stores (popPass s e) = stores s := (rfl)

@[simp] theorem stores_dropPasses (e i) : stores (dropPasses s e i) = stores s := (rfl)

@[simp] theorem stores_discardPass (e p) : stores (discardPass s e p) = stores s := (rfl)

@[simp] theorem stores_leaseFailed (e) : stores (leaseFailed s e) = stores s := by
  simp [leaseFailed]

@[simp] theorem stores_chargeBeats (x beats) : stores (chargeBeats s x beats) = stores s := by
  simp [chargeBeats]

@[simp] theorem stores_countBeats (e i beats est) : stores (countBeats s e i beats est) = stores s := by
  simp [countBeats]

@[simp] theorem stores_stepRun (e i) : stores (stepRun s e i) = stores s := (rfl)

@[simp] theorem stores_boundaryPower (e) : stores (boundaryPower s e) = stores s := by
  simp [boundaryPower]

@[simp] theorem stores_engineLate (e) : stores (engineLate s e) = stores s := by
  simp [engineLate]

end

section

variable {c : Stores} {s : State} (h : Yields c (stores s))

include h

@[simp] theorem yields_contextEcc (e i addr) : Yields c (stores (contextEcc s e i addr)) := by
  simp [contextEcc, h]

@[simp] theorem yields_barFault (e i addr b) : Yields c (stores (barFault s e i addr b)) := by
  unfold barFault
  split <;> simp [h]

@[simp] theorem yields_contextBar (e i addr len d b) : Yields c (stores (contextBar s e i addr len d b)) := by
  simp [contextBar, h]

@[simp] theorem yields_pocketEcc (e i) : Yields c (stores (pocketEcc s e i)) := by
  simp [pocketEcc, h]

@[simp] theorem yields_fetchEntry {e i addr n d d' k} (hk : Yields c (stores (k s))) :
    Yields c (stores (fetchEntry s e i addr n d d' k)) := by
  unfold fetchEntry
  split
  · exact h
  · split
    · exact yields_contextBar h ..
    · split
      · exact hk
      · exact h

@[simp] theorem yields_enterPhase (e i d phase) : Yields c (stores (enterPhase s e i d phase)) := by
  simp [enterPhase, h]

@[simp] theorem yields_settleRun (e i fuel) : Yields c (stores (settleRun e i fuel s)) := by
  induction fuel generalizing s with
  | zero => exact h
  | succ fuel ih =>
    unfold settleRun
    split
    · exact h
    · split
      · simpa using h
      · extract_lets s₁
        have h₁ : Yields c (stores s₁) := by
          unfold s₁
          split
          · exact yields_enterPhase h ..
          · exact h
        split
        · exact h₁
        · exact ih (by simpa using h₁)

@[simp] theorem yields_startPass (e i) : Yields c (stores (startPass s e i)) := by
  unfold startPass
  dsimp only
  split <;> simp [h]

@[simp] theorem yields_openDispute (d) : Yields c (stores (openDispute s d)) := by
  simp [openDispute, h]

@[simp] theorem yields_endReferee (u i element) : Yields c (stores (endReferee s u i element)) := by
  simp [endReferee, h]

@[simp] theorem yields_putWords (x e d es) : Yields c (stores (putWords s x e d es)) := by
  unfold putWords
  refine yields_foldl h (fun u q => ?_) _
  split
  · split
    · exact yields_partWrite .refl ..
    · exact .refl
  · exact .refl

theorem yields_passEffect {s'} {e p es} (hs : passEffect s e p es = some s') : Yields c (stores s') := by
  unfold passEffect at hs
  extract_lets i x s₁ o at hs
  have h₁ : Yields c (stores s₁) := yields_putWords (yields_scalePass h ..) ..
  have ho : Yields c (stores o.st) := yields_productPass h _
  split at hs
  · cases hs
  · split at hs
    · cases hs
      simpa using h₁
    · cases hs
      exact yields_putWords (yields_anchorPass h ..) ..
    · split at hs
      · cases hs
      · cases hs
        simpa using ho

@[simp] theorem yields_passGoesOn (e d) : Yields c (stores (passGoesOn s e d)) := by
  simp [passGoesOn, h]

@[simp] theorem yields_passResult (e p es forced) : Yields c (stores (passResult s e p es forced)) := by
  grind [passResult, yields_passEffect, yields_pocketEcc, stores_leaseFailed, yields_settleRun, stores_stepRun,
    yields_openDispute, stores_dropPasses, yields_passGoesOn]

@[simp] theorem yields_passEnds (e p es forced late) : Yields c (stores (passEnds s e p es forced late)) := by
  simp [passEnds, h]

end

/-! ### Sys2Proof/Machine/ElementCmds.lean -/

section

variable {c : Stores} {s : State} (h : Yields c (stores s))

include h

@[simp] theorem yields_elemRun (e i d) : Yields c (stores (elemRun s e i d)) := by
  unfold elemRun
  dsimp only
  split <;> simp [h]

@[simp] theorem yields_elemCmd (op e i d d') : Yields c (stores (elemCmd op e i d d' s)) := by
  simp [elemCmd, h]

@[simp] theorem yields_shadowMismatch (e i group lanes shadows) :
    Yields c (stores (shadowMismatch s e i group lanes shadows)) := by
  simp [shadowMismatch, h]

@[simp] theorem yields_execAdd (e i d) : Yields c (stores (afterOf (execAdd e i d s) s)) := by
  simp [execAdd, h]

@[simp] theorem yields_execSub (e i d) : Yields c (stores (afterOf (execSub e i d s) s)) := by
  simp [execSub, h]

@[simp] theorem yields_execMul (e i d) : Yields c (stores (afterOf (execMul e i d s) s)) := by
  simp [execMul, h]

@[simp] theorem yields_execFma (e i d) : Yields c (stores (afterOf (execFma e i d s) s)) := by
  simp [execFma, h]

@[simp] theorem yields_execDiv (e i d) : Yields c (stores (afterOf (execDiv e i d s) s)) := by
  simp [execDiv, h]

@[simp] theorem yields_execSqrt (e i d) : Yields c (stores (afterOf (execSqrt e i d s) s)) := by
  simp [execSqrt, h]

@[simp] theorem yields_execMax (e i d) : Yields c (stores (afterOf (execMax e i d s) s)) := by
  simp [execMax, h]

@[simp] theorem yields_execMin (e i d) : Yields c (stores (afterOf (execMin e i d s) s)) := by
  simp [execMin, h]

@[simp] theorem yields_execRint (e i d) : Yields c (stores (afterOf (execRint e i d s) s)) := by
  simp [execRint, h]

@[simp] theorem yields_execScaleb (e i d) : Yields c (stores (afterOf (execScaleb e i d s) s)) := by
  simp [execScaleb, h]

@[simp] theorem yields_execConvert (e i d) : Yields c (stores (afterOf (execConvert e i d s) s)) := by
  simp [execConvert, h]

@[simp] theorem yields_execExp (e i d) : Yields c (stores (afterOf (execExp e i d s) s)) := by
  simp [execExp, h]

@[simp] theorem yields_execLog (e i d) : Yields c (stores (afterOf (execLog e i d s) s)) := by
  simp [execLog, h]

@[simp] theorem yields_execSigmoid (e i d) : Yields c (stores (afterOf (execSigmoid e i d s) s)) := by
  simp [execSigmoid, h]

@[simp] theorem yields_execSilu (e i d) : Yields c (stores (afterOf (execSilu e i d s) s)) := by
  simp [execSilu, h]

@[simp] theorem yields_execTanh (e i d) : Yields c (stores (afterOf (execTanh e i d s) s)) := by
  simp [execTanh, h]

@[simp] theorem yields_execGelu (e i d) : Yields c (stores (afterOf (execGelu e i d s) s)) := by
  simp [execGelu, h]

@[simp] theorem yields_execRsqrt (e i d) : Yields c (stores (afterOf (execRsqrt e i d s) s)) := by
  simp [execRsqrt, h]

@[simp] theorem yields_execFramesum (e i d) : Yields c (stores (afterOf (execFramesum e i d s) s)) := by
  simp [execFramesum, h]

@[simp] theorem yields_execFramedot (e i d) : Yields c (stores (afterOf (execFramedot e i d s) s)) := by
  simp [execFramedot, h]

@[simp] theorem yields_execSoftmax (e i d) : Yields c (stores (afterOf (execSoftmax e i d s) s)) := by
  simp [execSoftmax, h]

@[simp] theorem yields_execLayernorm (e i d) : Yields c (stores (afterOf (execLayernorm e i d s) s)) := by
  simp [execLayernorm, h]

@[simp] theorem yields_execRmsnorm (e i d) : Yields c (stores (afterOf (execRmsnorm e i d s) s)) := by
  simp [execRmsnorm, h]

@[simp] theorem yields_execQuantMx (e i d) : Yields c (stores (afterOf (execQuantMx e i d s) s)) := by
  simp [execQuantMx, h]

end

/-! ### Sys2Proof/Machine/EngineCmds.lean -/

section

variable {s : State}

@[simp] theorem stores_endFeeder (e i) : stores (endFeeder s e i) = stores s := (rfl)

@[simp] theorem stores_endWait (e i) : stores (endWait s e i) = stores s := (rfl)

@[simp] theorem stores_countDma (x n) : stores (countDma s x n) = stores s := by
  simp [countDma]

end

section

variable {c : Stores} {s : State} (h : Yields c (stores s))

include h

@[simp] theorem yields_passTick (e i landed) : Yields c (stores (passTick s e i landed)) := by
  simp [passTick, h]

@[simp] theorem yields_execReleaseTick (target landed) :
    Yields c (stores (afterOf (execReleaseTick target landed s) s)) := by
  unfold execReleaseTick
  split <;> simp [h]

@[simp] theorem yields_execFreePassStart (e i beatsToTick) :
    Yields c (stores (afterOf (execFreePassStart e i beatsToTick s) s)) := by
  unfold execFreePassStart
  split <;> simp [h]

@[simp] theorem yields_execPassBoundary (e obs) : Yields c (stores (afterOf (execPassBoundary e obs s) s)) := by
  unfold execPassBoundary
  split <;> simp [h]

@[simp] theorem yields_pathMismatch (e p errors) : Yields c (stores (pathMismatch s e p errors)) := by
  simp [pathMismatch, h]

@[simp] theorem yields_execPassFault (e kind) : Yields c (stores (afterOf (execPassFault e kind s) s)) := by
  unfold execPassFault
  (repeat' split) <;> simp [h]

@[simp] theorem yields_execEngineHang (e) : Yields c (stores (afterOf (execEngineHang e s) s)) := by
  unfold execEngineHang
  (repeat' split) <;> simp [h]

@[simp] theorem yields_fetchFeeder {e i d d' k} (hk : Yields c (stores (k s))) :
    Yields c (stores (fetchFeeder s e i d d' k)) := by
  unfold fetchFeeder
  dsimp only
  split
  · exact h
  · exact yields_fetchEntry h hk

@[simp] theorem yields_feederRow {kind e i d d' k} (hk : Yields c (stores (k s))) :
    Yields c (stores (feederRow kind e i d d' s k)) := by
  refine yields_fetchFeeder h ?_
  split
  · exact yields_faultSlot h ..
  · split
    · exact h
    · exact hk

@[simp] theorem yields_execChain (e i d) : Yields c (stores (afterOf (execChain e i d s) s)) := by
  refine yields_of_next rfl (yields_feederRow h ?_)
  extract_lets x s₁ s₂
  have h₁ : Yields c (stores s₁) := by
    unfold s₁
    split
    · exact yields_physZero (by simpa using h) ..
    · exact h
  split
  · simp [h]
  · split
    · simp [h]
    · exact yields_settleRun (by simpa [s₂] using h₁) ..

theorem yields_writeWord {s'} {e i space addr value} (hs : writeWord s e i space addr value = .ok s') :
    Yields c (stores s') := by
  unfold writeWord at hs
  dsimp only at hs
  split at hs
  · exact yields_devWrite h hs
  · split at hs
    · cases hs
    · cases hs
      exact yields_partWrite h ..

@[simp] theorem yields_execWait (e i d) : Yields c (stores (afterOf (execWait e i d s) s)) := by
  refine yields_of_next rfl (yields_feederRow h ?_)
  split
  · simp [h]
  · dsimp only
    split
    · simp [h]
    · split <;> simp [h]

@[simp] theorem yields_execWaitSatisfied (e i) : Yields c (stores (afterOf (execWaitSatisfied e i s) s)) := by
  unfold execWaitSatisfied
  (repeat' split) <;> simp [h]

@[simp] theorem yields_execSignal (e i d) : Yields c (stores (afterOf (execSignal e i d s) s)) := by
  refine yields_of_next rfl (yields_feederRow h ?_)
  split
  · simp [h]
  · dsimp only
    split
    · simp [h]
    · next hw => simpa using yields_writeWord h hw

theorem yields_pocketWrite {s'} {x e off bytes} (hs : pocketWrite s x e off bytes = .ok s') : Yields c (stores s') := by
  grind [pocketWrite, yields_partWrite]

theorem yields_dmaTarget {s'} {e i d r bs} (hs : dmaTarget s e i d r bs = .ok s') : Yields c (stores s') := by
  grind [dmaTarget, yields_devWrite, yields_pocketWrite]

theorem yields_dmaRow {s'} {e i d flips good r} (hs : dmaRow s e i d flips good r = .ok s') : Yields c (stores s') := by
  grind [dmaRow, yields_dmaTarget]

@[simp] theorem yields_dmaRows (e i d flips good rs) : Yields c (stores (dmaRows e i d flips good rs s).1) := by
  induction rs generalizing s with
  | nil => exact h
  | cons r rs ih =>
    unfold dmaRows
    split
    · exact h
    · next hr => exact ih (yields_dmaRow h hr)

@[simp] theorem yields_dmaAttempt (e i d flips) : Yields c (stores (dmaAttempt s e i d flips).1) := by
  simp [dmaAttempt, h]

@[simp] theorem yields_dmaStart (e i d flips d') : Yields c (stores (dmaStart s e i d flips d')) := by
  grind [dmaStart, yields_contextBar, yields_dmaAttempt, stores_modSlot, yields_barFault]

@[simp] theorem yields_dmaCmd (kind e i d flips d') : Yields c (stores (dmaCmd kind e i d flips d' s)) := by
  simp [dmaCmd, h]

@[simp] theorem yields_execDmaIn (e i d flips) : Yields c (stores (afterOf (execDmaIn e i d flips s) s)) := by
  simp [execDmaIn, h]

@[simp] theorem yields_execDmaOut (e i d flips) : Yields c (stores (afterOf (execDmaOut e i d flips s) s)) := by
  simp [execDmaOut, h]

@[simp] theorem yields_execDmaCopy (e i d flips) : Yields c (stores (afterOf (execDmaCopy e i d flips s) s)) := by
  simp [execDmaCopy, h]

@[simp] theorem yields_moveOwing (e i) : Yields c (stores (moveOwing s e i)) := by
  simp [moveOwing, h]

@[simp] theorem yields_dmaLanded (e i d) : Yields c (stores (dmaLanded s e i d)) := by
  unfold dmaLanded
  (repeat' split) <;> simp [h]

@[simp] theorem yields_dmaFailed (e i d) : Yields c (stores (dmaFailed s e i d)) := by
  grind [dmaFailed, yields_raise, yields_faultSlot, yields_strike]

@[simp] theorem yields_execDmaComplete (e i flips) : Yields c (stores (afterOf (execDmaComplete e i flips s) s)) := by
  refine yields_of_next rfl ?_
  split
  · exact h
  · extract_lets a
    have ha : Yields c (stores a.1) := yields_dmaRows h ..
    split
    · exact yields_dmaLanded h ..
    · split
      · exact yields_dmaFailed h ..
      · split
        · exact yields_contextBar ha ..
        · simpa using ha

end

end Sys2Proof.Machine
end

section
/-! PROOFS. What a step makes of the stores (R122, R160, R395, R396): the timebase and the fronthaul. -/

namespace Sys2Proof.Machine

open Sys2Proof

/-! ### Sys2Proof/Machine/TimeCmds.lean -/

section

variable {s : State}

@[simp] theorem stores_modTim (f) : stores (modTim s f) = stores s := (rfl)

@[simp] theorem stores_setPps (level) : stores (setPps s level) = stores s := by
  simp [setPps]

@[simp] theorem stores_setCmp (n v) : stores (setCmp s n v) = stores s := (rfl)

@[simp] theorem stores_writeCmp (n w) : stores (writeCmp s n w) = stores s := (rfl)

@[simp] theorem stores_fireCmp (n) : stores (fireCmp s n) = stores s := by
  simp [fireCmp]

@[simp] theorem stores_execCompareArm (n value) : stores (afterOf (execCompareArm n value s) s) = stores s := by
  simp [execCompareArm]

@[simp] theorem stores_execCompareFire (n) : stores (afterOf (execCompareFire n s) s) = stores s := by
  simp [execCompareFire]

@[simp] theorem stores_schedule (rate step forced) : stores (schedule s rate step forced) = stores s := (rfl)

@[simp] theorem stores_execHoldoverEnter : stores (afterOf (execHoldoverEnter s) s) = stores s := by
  simp [execHoldoverEnter]

@[simp] theorem stores_execLossOfSignal (p lane) : stores (afterOf (execLossOfSignal p lane s) s) = stores s := by
  simp [execLossOfSignal]

@[simp] theorem stores_execLaneSignalRestored (p lane) :
    stores (afterOf (execLaneSignalRestored p lane s) s) = stores s := by
  simp [execLaneSignalRestored]

@[simp] theorem stores_execPpsInEdge : stores (afterOf (execPpsInEdge s) s) = stores s := by
  simp [execPpsInEdge]

@[simp] theorem stores_execPpsOutPulse (level) : stores (afterOf (execPpsOutPulse level s) s) = stores s := by
  simp [execPpsOutPulse]

@[simp] theorem stores_execTbsNtNsRead : stores (afterOf (execTbsNtNsRead s) s) = stores s := by
  simp [execTbsNtNsRead]

@[simp] theorem stores_execFhNtNsRead (die) : stores (afterOf (execFhNtNsRead die s) s) = stores s := by
  simp [execFhNtNsRead]

end

section

variable {c : Stores} {s : State} (h : Yields c (stores s))

include h

@[simp] theorem yields_lockLost (cause) : Yields c (stores (lockLost s cause)) := by
  simp [lockLost, h]

@[simp] theorem yields_lockStops (cause) : Yields c (stores (lockStops s cause)) := by
  simp [lockStops, h]

@[simp] theorem yields_forcedStep : Yields c (stores (forcedStep s)) := by
  simp [forcedStep, h]

@[simp] theorem yields_applyChange (a) : Yields c (stores (applyChange s a)) := by
  simp [applyChange, h]

@[simp] theorem yields_execTimeApplyTick : Yields c (stores (afterOf (execTimeApplyTick s) s)) := by
  simp [execTimeApplyTick, h]

@[simp] theorem yields_execTimeRate (cmd) : Yields c (stores (afterOf (execTimeRate cmd s) s)) := by
  simp [execTimeRate, h]

@[simp] theorem yields_execTimeStep (cmd) : Yields c (stores (afterOf (execTimeStep cmd s) s)) := by
  simp [execTimeStep, h]

@[simp] theorem yields_execTimeLock (cmd) : Yields c (stores (afterOf (execTimeLock cmd s) s)) := by
  refine yields_served h rfl fun _ => ?_
  simp [h]

@[simp] theorem yields_execTimeRead (cmd) : Yields c (stores (afterOf (execTimeRead cmd s) s)) := by
  simp [execTimeRead, h]

@[simp] theorem yields_execHoldoverExpire : Yields c (stores (afterOf (execHoldoverExpire s) s)) := by
  simp [execHoldoverExpire, h]

@[simp] theorem yields_execTimeConfig (cmd) : Yields c (stores (afterOf (execTimeConfig cmd s) s)) := by
  simp [execTimeConfig, h]

@[simp] theorem yields_execRawCopyCheck (die difference) :
    Yields c (stores (afterOf (execRawCopyCheck die difference s) s)) := by
  simp [execRawCopyCheck, h]

end

/-! ### Sys2Proof/Machine/FronthaulCmds.lean -/

section

variable {s : State}

@[simp] theorem stores_execLaneEyeSample (family p eyes) :
    stores (afterOf (execLaneEyeSample family p eyes s) s) = stores s := by
  unfold execLaneEyeSample
  split <;> simp

@[simp] theorem stores_execThreeLaneLinkUp (p) : stores (afterOf (execThreeLaneLinkUp p s) s) = stores s := by
  simp [execThreeLaneLinkUp]

@[simp] theorem stores_uplaneIq (p d eaxc msg) : stores (uplaneIq s p d eaxc msg) = stores s := by
  unfold uplaneIq
  dsimp only
  split <;> simp

@[simp] theorem stores_meterNow (p) : stores (meterNow s p) = stores s := (rfl)

@[simp] theorem stores_execGateEntryChange (p) : stores (afterOf (execGateEntryChange p s) s) = stores s := by
  simp [execGateEntryChange]

@[simp] theorem stores_switchGates (p) : stores (switchGates s p) = stores s := by
  unfold switchGates
  split <;> simp

@[simp] theorem stores_execGateListSwitch (p) : stores (afterOf (execGateListSwitch p s) s) = stores s := by
  simp [execGateListSwitch]

@[simp] theorem stores_popHead (p q) : stores (popHead s p q) = stores s := (rfl)

@[simp] theorem stores_drrTurn (p ready fuel) : stores (drrTurn p ready fuel s).1 = stores s := by
  induction fuel generalizing s with
  | zero => rfl
  | succ fuel ih =>
    unfold drrTurn
    dsimp only
    split
    · exact ih
    · rw [apply_ite Prod.fst, stores_ite, ih]
      exact ite_self _

@[simp] theorem stores_putFlow (p n words) : stores (putFlow s p n words) = stores s := (rfl)

end

section

variable {c : Stores} {s : State} (h : Yields c (stores s))

include h

@[simp] theorem yields_execLaneDrop (p lane) : Yields c (stores (afterOf (execLaneDrop p lane s) s)) := by
  simp [execLaneDrop, h]

@[simp] theorem yields_execThreeLaneTimeout (p) : Yields c (stores (afterOf (execThreeLaneTimeout p s) s)) := by
  simp [execThreeLaneTimeout, h]

@[simp] theorem yields_startRestore (p) : Yields c (stores (startRestore s p)) := by
  simp [startRestore, h]

@[simp] theorem yields_execFhLinkRetry (p up) : Yields c (stores (afterOf (execFhLinkRetry p up s) s)) := by
  simp [execFhLinkRetry, h]

@[simp] theorem yields_radioIngress (p e frame) : Yields c (stores (radioIngress s p e frame)) := by
  unfold radioIngress
  dsimp only
  split <;> simp [h]

@[simp] theorem yields_flowFrame (p n frame len buffered) : Yields c (stores (flowFrame s p n frame len buffered)) := by
  simp [flowFrame, h]

@[simp] theorem yields_execFrameReceived (p frame fcsOk eccOk buffered) :
    Yields c (stores (afterOf (execFrameReceived p frame fcsOk eccOk buffered s) s)) := by
  refine yields_of_next rfl ?_
  extract_lets x s₁ body e
  have h₁ : Yields c (stores s₁) := by simpa [s₁] using h
  split
  · exact h
  · split
    · simp [h]
    · split
      · simp [h₁]
      · split
        · simp [h₁]
        · split
          · exact yields_deliver h₁ ..
          · split
            · exact yields_radioIngress h₁ ..
            · split
              · exact yields_flowFrame h₁ ..
              · simp [h₁]

@[simp] theorem yields_headFrame (p q fuel) : Yields c (stores (headFrame p q fuel s).1) := by
  induction fuel generalizing s with
  | zero => exact h
  | succ fuel ih =>
    unfold headFrame
    dsimp only
    split
    · exact h
    · split
      · exact h
      · exact ih (yields_failEgress (by simpa using h) ..)
      · exact ih (yields_failEgress (by simpa using h) ..)
      · exact ih (yields_failEgress (by simpa using h) ..)
      · simpa using h

@[simp] theorem yields_startFrame (p q f) : Yields c (stores (startFrame s p q f)) := by
  unfold startFrame
  dsimp only
  split <;> simp [h]

omit h in
theorem yields_queueHead {a : State × List (Nat × EgFrame)} (ha : Yields c (stores a.1)) (p q) :
    Yields c (stores (queueHead p a q).1) := by
  unfold queueHead
  dsimp only
  split <;> exact yields_headFrame ha ..

@[simp] theorem yields_execEgressFrameStart (p) : Yields c (stores (afterOf (execEgressFrameStart p s) s)) := by
  refine yields_of_next rfl ?_
  have hheads : ∀ {t} (_ : Yields c (stores t)) (qs : List Nat),
      Yields c (stores (qs.foldl (queueHead p) (t, [])).1) := fun ht qs =>
    List.foldlRecOn (motive := fun a : State × List (Nat × EgFrame) => Yields c (stores a.1)) qs _ ht
      fun a ha q _ => yields_queueHead ha p q
  split
  · exact h
  · extract_lets top group r
    have htop : Yields c (stores top.1) := hheads h _
    have hgroup : Yields c (stores group.1) := hheads htop _
    have hr : Yields c (stores r.1) := by simpa [r] using hgroup
    split
    · exact yields_startFrame htop ..
    · split
      · exact hgroup
      · split
        · exact yields_startFrame hr ..
        · exact hr

@[simp] theorem yields_pollRing (p r fuel) : Yields c (stores (pollRing p r fuel s)) := by
  induction fuel generalizing s with
  | zero => exact h
  | succ fuel ih =>
    unfold pollRing
    dsimp only
    split
    · exact h
    · split
      · simp [h]
      · simp [h]
      · split
        · exact h
        · split
          · simp [h]
          · exact ih (yields_writeBack (by simpa using h) ..)
          · exact ih (by simpa using h)

@[simp] theorem yields_execTxRingPoll (p r) : Yields c (stores (afterOf (execTxRingPoll p r s) s)) := by
  simp [execTxRingPoll, h]

@[simp] theorem yields_execFhPortConfig (cmd) : Yields c (stores (afterOf (execFhPortConfig cmd s) s)) := by
  simp [execFhPortConfig, h]

@[simp] theorem yields_execFhFlowSet (cmd) : Yields c (stores (afterOf (execFhFlowSet cmd s) s)) := by
  refine yields_served h rfl fun _ => ?_
  simp [h]

@[simp] theorem yields_assignRing (p r ring) : Yields c (stores (assignRing s p r ring)) := by
  simp [assignRing, h]

@[simp] theorem yields_execFhEgressSet (cmd) : Yields c (stores (afterOf (execFhEgressSet cmd s) s)) := by
  refine yields_served h rfl fun _ => ?_
  simp [h]

@[simp] theorem yields_execFhGateList (cmd) : Yields c (stores (afterOf (execFhGateList cmd s) s)) := by
  refine yields_served h rfl fun _ => ?_
  dsimp only
  split <;> simp [h]

@[simp] theorem yields_execFhPortRestore (cmd) : Yields c (stores (afterOf (execFhPortRestore cmd s) s)) := by
  refine yields_served h rfl fun _ => ?_
  refine answerYields_checked ?_
  split <;> simp [h]

@[simp] theorem yields_execFhPortStatus (cmd) : Yields c (stores (afterOf (execFhPortStatus cmd s) s)) := by
  simp [execFhPortStatus, h]

end

end Sys2Proof.Machine
end

section
/-! PROOFS. What a step makes of the stores (R122, R160, R395, R396): the fabric. -/

namespace Sys2Proof.Machine

open Sys2Proof

/-! ### Sys2Proof/Machine/FabricCmds.lean -/

section

variable {s : State}

@[simp] theorem stores_ringPark (page d) : stores (ringPark s page d) = stores s := (rfl)

@[simp] theorem stores_setRuns (j l) : stores (setRuns s j l) = stores s := (rfl)

@[simp] theorem stores_modRun (j id f) : stores (modRun s j id f) = stores s := (rfl)

@[simp] theorem stores_addRun (j r) : stores (addRun s j r) = stores s := (rfl)

@[simp] theorem stores_sendAnswer (m dst p) : stores (sendAnswer s m dst p) = stores s := by
  grind [sendAnswer, stores_sendPacket, stores_markLost, stores_countFabric]

@[simp] theorem stores_parkPacket (port p) : stores (parkPacket s port p) = stores s := (rfl)

@[simp] theorem stores_acked (dev t) : stores (acked s dev t) = stores s := by
  unfold acked
  split <;> simp

@[simp] theorem stores_resend (dev ts) : stores (resend s dev ts) = stores s := by
  unfold resend
  split <;> simp

@[simp] theorem stores_execAckTimeout (dev) : stores (afterOf (execAckTimeout dev s) s) = stores s := by
  unfold execAckTimeout
  split <;> simp

@[simp] theorem stores_execFabricLinkRetry (p up) : stores (afterOf (execFabricLinkRetry p up s) s) = stores s := by
  simp [execFabricLinkRetry]

end

section

variable {c : Stores} {s : State} (h : Yields c (stores s))

include h

@[simp] theorem yields_fabricEcc (j addr) : Yields c (stores (fabricEcc s j addr)) := by
  simp [fabricEcc, h]

@[simp] theorem yields_fabBar (j addr b) : Yields c (stores (fabBar s j addr b)) := by
  simp [fabBar, h]

@[simp] theorem yields_descBar (i k j addr len d b) : Yields c (stores (descBar s i k j addr len d b)) := by
  simp [descBar, h]

@[simp] theorem yields_loseJobs (hs) : Yields c (stores (loseJobs s hs)) := by
  unfold loseJobs
  exact yields_settleSnaps (yields_foldl h (fun _ _ => yields_faultJob .refl ..) _)

@[simp] theorem yields_settleRuns (j fuel) : Yields c (stores (settleRuns j fuel s)) := by
  induction fuel generalizing s with
  | zero => exact h
  | succ fuel ih =>
    unfold settleRuns
    dsimp only
    split
    · exact h
    · split
      · exact h
      · split
        · simp [h]
        · simp [h]
        · split
          · simp [h]
          · next hw => exact ih (by simpa using yields_devWrite h hw)

@[simp] theorem yields_settleJob (j) : Yields c (stores (settleJob s j)) := by
  simp [settleJob, h]

@[simp] theorem yields_settleAll : Yields c (stores (settleAll s)) := by
  simp [settleAll, h]

@[simp] theorem yields_fabStart {j kind opc d d' body} (hbody : ∀ m id t, Yields (stores t) (stores (body m id t))) :
    Yields c (stores (fabStart s j kind opc d d' body)) := by
  unfold fabStart
  split
  · exact h
  · split
    · exact h
    · split
      · simp [h]
      · split
        · simp [h]
        · split
          · exact h
          · split
            · simp [h]
            · exact h
            · exact h.trans (hbody _ _ { s with fab := { s.fab with nextId := s.fab.nextId + 1 } })

@[simp] theorem yields_sendRun (j r ps) : Yields c (stores (sendRun s j r ps)) := by
  grind [sendRun, stores_sendAll, stores_addRun, yields_faultJob, stores_countFabric]

@[simp] theorem yields_execPut (j d) : Yields c (stores (afterOf (execPut j d s) s)) := by
  refine yields_of_next rfl (yields_fabStart h fun m id t => ?_)
  dsimp only
  split <;> simp

@[simp] theorem yields_execGet (j d) : Yields c (stores (afterOf (execGet j d s) s)) := by
  refine yields_of_next rfl (yields_fabStart h fun m id t => ?_)
  dsimp only
  split <;> simp

@[simp] theorem yields_atomicCmd (aop j d d') : Yields c (stores (atomicCmd aop j d d' s)) := by
  refine yields_fabStart h fun m id t => ?_
  dsimp only
  split
  · simp
  · split <;> simp

@[simp] theorem yields_execAddI64 (j d) : Yields c (stores (afterOf (execAddI64 j d s) s)) := by
  simp [execAddI64, h]

@[simp] theorem yields_execMinI64 (j d) : Yields c (stores (afterOf (execMinI64 j d s) s)) := by
  simp [execMinI64, h]

@[simp] theorem yields_execMaxI64 (j d) : Yields c (stores (afterOf (execMaxI64 j d s) s)) := by
  simp [execMaxI64, h]

@[simp] theorem yields_execAddF32 (j d) : Yields c (stores (afterOf (execAddF32 j d s) s)) := by
  simp [execAddF32, h]

@[simp] theorem yields_execMinF32 (j d) : Yields c (stores (afterOf (execMinF32 j d s) s)) := by
  simp [execMinF32, h]

@[simp] theorem yields_execMaxF32 (j d) : Yields c (stores (afterOf (execMaxF32 j d s) s)) := by
  simp [execMaxF32, h]

@[simp] theorem yields_execAddF64 (j d) : Yields c (stores (afterOf (execAddF64 j d s) s)) := by
  simp [execAddF64, h]

@[simp] theorem yields_execMinF64 (j d) : Yields c (stores (afterOf (execMinF64 j d s) s)) := by
  simp [execMinF64, h]

@[simp] theorem yields_execMaxF64 (j d) : Yields c (stores (afterOf (execMaxF64 j d s) s)) := by
  simp [execMaxF64, h]

@[simp] theorem yields_execCas64 (j d) : Yields c (stores (afterOf (execCas64 j d s) s)) := by
  simp [execCas64, h]

@[simp] theorem yields_execCas128 (j d) : Yields c (stores (afterOf (execCas128 j d s) s)) := by
  simp [execCas128, h]

@[simp] theorem yields_sendColl (j m d chip addr bs) : Yields c (stores (sendColl s j m d chip addr bs)) := by
  grind [sendColl, stores_sendPacket, yields_faultJob, stores_countFabric]

@[simp] theorem yields_landColl (j d off bs) : Yields c (stores (landColl s j d off bs)) := by
  grind [landColl, yields_devWrite, yields_fabBar]

@[simp] theorem yields_finalColl (j m d off bs) : Yields c (stores (finalColl s j m d off bs)) := by
  simp [finalColl, h]

@[simp] theorem yields_applyColl (j m d p) : Yields c (stores (applyColl s j m d p)) := by
  unfold applyColl
  extract_lets n me size phase last off len _ s₁ s₂
  have h₁ : Yields c (stores s₁) := h
  have h₂ : Yields c (stores s₂) := yields_landColl h₁ ..
  split
  · exact yields_faultJob h₁ ..
  · split
    · split
      · exact yields_fabBar h₁ ..
      · split
        · exact yields_faultJob h₁ ..
        · split
          · exact yields_finalColl h₁ ..
          · exact yields_sendColl h₁ ..
    · split
      · exact h₂
      · exact yields_sendColl h₂ ..

@[simp] theorem yields_endColl (j m) : Yields c (stores (endColl s j m)) := by
  unfold endColl
  split <;> simp [h]

@[simp] theorem yields_takeColl (j m p) : Yields c (stores (takeColl s j m p)) := by
  unfold takeColl
  split <;> simp [h]

@[simp] theorem yields_startColl (j m id d d' bs) : Yields c (stores (startColl s j m id d d' bs)) := by
  unfold startColl
  extract_lets n me _ s₁ last s₂ mine _ s₃
  have h₁ : Yields c (stores s₁) := h
  have h₂ : Yields c (stores s₂) := yields_foldl h₁ (fun _ _ => yields_sendColl .refl ..) _
  exact yields_endColl (yields_foldl (s := s₃) h₂ (fun _ _ => yields_takeColl .refl ..) _) ..

@[simp] theorem yields_collCmd (cop j d q) : Yields c (stores (collCmd cop j d q s)) := by
  unfold collCmd
  split
  · exact h
  · refine yields_fabStart h fun m id t => ?_
    dsimp only
    split <;> simp

@[simp] theorem yields_execAnchorMin (j d) : Yields c (stores (afterOf (execAnchorMin j d s) s)) := by
  simp [execAnchorMin, h]

@[simp] theorem yields_execAnchorMax (j d) : Yields c (stores (afterOf (execAnchorMax j d s) s)) := by
  simp [execAnchorMax, h]

@[simp] theorem yields_execScaleMax (j d) : Yields c (stores (afterOf (execScaleMax j d s) s)) := by
  simp [execScaleMax, h]

@[simp] theorem yields_execSumWide (j d) : Yields c (stores (afterOf (execSumWide j d s) s)) := by
  simp [execSumWide, h]

@[simp] theorem yields_execSumI64 (j d) : Yields c (stores (afterOf (execSumI64 j d s) s)) := by
  simp [execSumI64, h]

@[simp] theorem yields_execCollectiveMinI64 (j d) : Yields c (stores (afterOf (execCollectiveMinI64 j d s) s)) := by
  simp [execCollectiveMinI64, h]

@[simp] theorem yields_execCollectiveMaxI64 (j d) : Yields c (stores (afterOf (execCollectiveMaxI64 j d s) s)) := by
  simp [execCollectiveMaxI64, h]

@[simp] theorem yields_settleBarrier (j) : Yields c (stores (settleBarrier s j)) := by
  unfold settleBarrier
  dsimp only
  split
  · exact h
  · split
    · exact h
    · split
      · exact h
      · split
        · exact yields_settleJob (by simpa using h) _
        · split
          · simp [h]
          · simp [h]
          · next hw => exact yields_settleJob (by simpa using yields_devWrite h hw) _

@[simp] theorem yields_execBarrier (j d) : Yields c (stores (afterOf (execBarrier j d s) s)) := by
  refine yields_of_next rfl (yields_fabStart h fun m id t => ?_)
  split
  · exact .refl
  · dsimp only
    split
    · simp
    · exact yields_settleBarrier (by simp) _

@[simp] theorem yields_execBarrierTimeout (j) : Yields c (stores (afterOf (execBarrierTimeout j s) s)) := by
  unfold execBarrierTimeout
  split <;> simp [h]

omit h in
/-- What a packet's application leaves. -/
def RcvYields (c : Stores) : Rcv → Prop
  | .applied t | .drop t | .nack t _ => Yields c (stores t)
  | .wait => True

omit h in
@[simp] theorem rcvYields_applied (t) : RcvYields c (.applied t) ↔ Yields c (stores t) := Iff.rfl

omit h in
@[simp] theorem rcvYields_drop (t) : RcvYields c (.drop t) ↔ Yields c (stores t) := Iff.rfl

omit h in
@[simp] theorem rcvYields_nack (t st) : RcvYields c (.nack t st) ↔ Yields c (stores t) := Iff.rfl

omit h in
@[simp] theorem rcvYields_wait : RcvYields c .wait := trivial

theorem rcvYields_rcvBar (j addr b) : RcvYields c (rcvBar s j addr b) := by
  cases b <;> simp [rcvBar, h]

theorem rcvYields_applyData (port m p) : RcvYields c (applyData s port m p) := by
  unfold applyData
  extract_lets j i a count reply len span old s₁
  have hcount : ∀ {t}, Yields c (stores t) → Yields c (stores (count t)) := fun ht => by simpa [count] using ht
  have hreply : ∀ at0 r, RcvYields c (reply at0 r) := by
    intro at0 r
    unfold reply
    split
    · exact rcvYields_rcvBar h ..
    · next hw => exact yields_settleJob (by simpa using hcount (yields_devWrite h hw)) _
  have h₁ : Yields c (stores s₁) := hcount (yields_windowWrite h ..)
  split
  · split
    · exact rcvYields_rcvBar h ..
    · next hw => exact hcount (yields_devWrite h hw)
  · split
    · exact h
    · split
      · exact rcvYields_rcvBar h ..
      · simpa using hcount h
  · split
    · exact h
    · exact hreply ..
  · split
    · simpa using h
    · split
      · exact rcvYields_rcvBar h ..
      · split
        · exact rcvYields_rcvBar h ..
        · split
          · simpa using h₁
          · exact h₁
  · split
    · exact h
    · exact hreply ..
  · split
    · exact h
    · exact yields_settleBarrier (by simpa using h) _
  · split
    · exact h
    · split
      · exact h
      · exact yields_settleBarrier (by simpa using h) _
  · split
    · trivial
    · exact yields_takeColl (hcount h) ..

theorem rcvYields_applyPacket (port p) : RcvYields c (applyPacket s port p) := by
  unfold applyPacket
  split
  · split
    · exact h
    · split
      · exact rcvYields_rcvBar h ..
      · next hw => exact yields_devWrite h hw
  · split
    · exact h
    · split
      · simpa using h
      · split
        · exact h
        · exact rcvYields_applyData h ..

@[simp] theorem yields_receiveSeq (port p) : Yields c (stores (receiveSeq s port p)) := by
  unfold receiveSeq
  extract_lets src seq want d s₁ step
  have h₁ : Yields c (stores s₁) := h
  have happly := rcvYields_applyPacket h₁ port p
  have hstep : ∀ t, stores (step t) = stores t := fun _ => rfl
  split
  · rw [stores_sendReply]
    exact h
  · split
    · rw [stores_sendReply]
      exact h
    · split
      · rw [stores_sendReply]
        exact h₁
      · split
        · next hx =>
          rw [hx] at happly
          rw [stores_sendReply, hstep]
          exact happly
        · next hx =>
          rw [hx] at happly
          rw [hstep]
          exact happly
        · next hx =>
          rw [hx] at happly
          rw [stores_sendReply]
          split <;> exact happly
        · exact h₁

@[simp] theorem yields_arrive {typ port p body} (hbody : ∀ t, Yields (stores t) (stores (body t))) :
    Yields c (stores (arrive typ port p s body)) := by
  have hlast : Yields c (stores (body (modVfPort s port fun x =>
      { x with rxBytes := x.rxBytes + w64 p.payload.length }))) :=
    Yields.trans (by simpa using h) (hbody _)
  simp [arrive, h, hlast]

@[simp] theorem yields_arriveSeq (typ port p) : Yields c (stores (afterOf (arriveSeq typ port p s) s)) := by
  simp [arriveSeq, h]

@[simp] theorem yields_execPutPacket (port p) : Yields c (stores (afterOf (execPutPacket port p s) s)) := by
  simp [execPutPacket, h]

@[simp] theorem yields_execGetReq (port p) : Yields c (stores (afterOf (execGetReq port p s) s)) := by
  simp [execGetReq, h]

@[simp] theorem yields_execGetData (port p) : Yields c (stores (afterOf (execGetData port p s) s)) := by
  simp [execGetData, h]

@[simp] theorem yields_execAtomicPacket (port p) : Yields c (stores (afterOf (execAtomicPacket port p s) s)) := by
  simp [execAtomicPacket, h]

@[simp] theorem yields_execAtomicResp (port p) : Yields c (stores (afterOf (execAtomicResp port p s) s)) := by
  simp [execAtomicResp, h]

@[simp] theorem yields_execBarrierArrive (port p) : Yields c (stores (afterOf (execBarrierArrive port p s) s)) := by
  simp [execBarrierArrive, h]

@[simp] theorem yields_execBarrierRelease (port p) : Yields c (stores (afterOf (execBarrierRelease port p s) s)) := by
  simp [execBarrierRelease, h]

@[simp] theorem yields_execColl (port p) : Yields c (stores (afterOf (execColl port p s) s)) := by
  simp [execColl, h]

@[simp] theorem yields_flushHeld (dev) : Yields c (stores (flushHeld s dev)) := by
  unfold flushHeld
  extract_lets x
  split
  · exact h
  · refine yields_foldl (by simpa using h) (fun u t => ?_) _
    split
    · next hs => simp [stores_sendPacket hs]
    · extract_lets s₁ s₂
      have h₂ : Yields (stores u) (stores s₂) := by
        unfold s₂
        split <;> simp [s₁]
      split
      · exact h₂
      · exact yields_faultJob h₂ ..

@[simp] theorem yields_flushAll : Yields c (stores (flushAll s)) := by
  simp [flushAll, h]

@[simp] theorem yields_routeChange (dev) : Yields c (stores (routeChange s dev)) := by
  unfold routeChange
  split <;> simp [h]

@[simp] theorem yields_execAck (port p) : Yields c (stores (afterOf (execAck port p s) s)) := by
  refine yields_of_next rfl (yields_arrive h fun t => ?_)
  exact yields_settleAll (yields_flushAll (yields_routeChange (by simp) _))

@[simp] theorem yields_execNack (port p) : Yields c (stores (afterOf (execNack port p s) s)) := by
  refine yields_of_next rfl (yields_arrive h fun t => ?_)
  extract_lets dev x st
  split
  · simp
  · split
    · exact .refl
    · extract_lets s₁
      have h₁ : Yields (stores t) (stores s₁) := by
        unfold s₁
        split <;> simp
      split
      · simp
      · split
        · exact h₁
        · exact yields_faultJob h₁ ..

@[simp] theorem yields_execLinkTimeout (dev) : Yields c (stores (afterOf (execLinkTimeout dev s) s)) := by
  refine yields_of_next rfl ?_
  dsimp only
  split
  · exact h
  · exact yields_flushAll (yields_routeChange (yields_loseJobs (by simpa using h) _) _)

@[simp] theorem yields_vfDown (p) : Yields c (stores (vfDown s p)) := by
  unfold vfDown
  extract_lets homed r
  have hr : Yields c (stores r.1) := yields_fabPortDown h _
  exact yields_flushAll (yields_foldl (yields_loseJobs hr _) (fun _ _ => yields_routeChange .refl _) _)

@[simp] theorem yields_execLinkReplayRequest (p link) :
    Yields c (stores (afterOf (execLinkReplayRequest p link s) s)) := by
  simp [execLinkReplayRequest, h]

@[simp] theorem yields_execFabricLaneDrop (p lane) : Yields c (stores (afterOf (execFabricLaneDrop p lane s) s)) := by
  simp [execFabricLaneDrop, h]

@[simp] theorem yields_execFabricPortDown (p) : Yields c (stores (afterOf (execFabricPortDown p s) s)) := by
  simp [execFabricPortDown, h]

@[simp] theorem yields_execFabricConfig (cmd) : Yields c (stores (afterOf (execFabricConfig cmd s) s)) := by
  simp [execFabricConfig, h]

@[simp] theorem yields_setRoute (dev r) : Yields c (stores (setRoute s dev r)) := by
  simp [setRoute, h]

@[simp] theorem yields_execFabricRouteSet (cmd) : Yields c (stores (afterOf (execFabricRouteSet cmd s) s)) := by
  refine yields_served h rfl fun _ => answerYields_checked ?_
  refine yields_foldl h (fun _ _ => ?_) _
  exact yields_setRoute .refl ..

theorem answerYields_installMap (num fgen k devs sink) : AnswerYields c (installMap s num fgen k devs sink) := by
  refine answerYields_checked ?_
  split
  · simp
  · exact h

@[simp] theorem yields_execFabricJobMap (cmd) : Yields c (stores (afterOf (execFabricJobMap cmd s) s)) := by
  refine yields_served h rfl fun _ => answerYields_checked ?_
  split
  · simp
  · exact answerYields_installMap h ..

@[simp] theorem yields_execFabricSink (cmd) : Yields c (stores (afterOf (execFabricSink cmd s) s)) := by
  refine yields_served h rfl fun _ => ?_
  split
  · simp
  · refine answerYields_checked ?_
    split
    · simp
    · exact answerYields_installMap h ..

@[simp] theorem yields_execFabricTeardown (cmd) : Yields c (stores (afterOf (execFabricTeardown cmd s) s)) := by
  refine yields_served h rfl fun _ => ?_
  dsimp only
  (repeat' split) <;> simp [h]

@[simp] theorem yields_execFabricDeviceLost (cmd) : Yields c (stores (afterOf (execFabricDeviceLost cmd s) s)) := by
  refine yields_served h rfl fun _ => answerYields_checked ?_
  extract_lets r s₁
  have h₁ : Yields c (stores s₁) := yields_loseJobs (by simpa [r] using h) _
  exact yields_flushAll (yields_routeChange (by simpa using h₁) _)

@[simp] theorem yields_execFabricStatus (cmd) : Yields c (stores (afterOf (execFabricStatus cmd s) s)) := by
  simp [execFabricStatus, h]

@[simp] theorem yields_execFabricPortRestore (cmd) : Yields c (stores (afterOf (execFabricPortRestore cmd s) s)) := by
  simp [execFabricPortRestore, h]

@[simp] theorem yields_execSlowChipReceived (num chip) :
    Yields c (stores (afterOf (execSlowChipReceived num chip s) s)) := by
  refine yields_of_next rfl ?_
  split
  · exact h
  · dsimp only
    split
    · simp [h]
    · refine yields_foldl (by simp [h]) (fun _ _ => ?_) _
      simp

end

end Sys2Proof.Machine
end

section
/-! PROOFS. What a step makes of the stores (R122, R160, R395, R396): register and host core accesses, and the
referee. -/

namespace Sys2Proof.Machine

open Sys2Proof

/-! ### Sys2Proof/Machine/AccessCmds.lean -/

section

variable {s : State}

@[simp] theorem stores_mboxWrite (w off v) : stores (mboxWrite s w off v) = stores s := by
  unfold mboxWrite
  split <;> simp

@[simp] theorem stores_tailWrite (e i k v) : stores (tailWrite s e i k v) = stores s := by
  simp [tailWrite]

@[simp] theorem stores_execRingTailWrite (e i k value) :
    stores (afterOf (execRingTailWrite e i k value s) s) = stores s := by
  simp [execRingTailWrite]

@[simp] theorem stores_sccWrite (k r v) : stores (sccWrite s k r v) = stores s := by
  simp [sccWrite]

@[simp] theorem stores_fhWrite (p r v tacor) : stores (fhWrite s p r v tacor) = stores s := by
  simp [fhWrite]

@[simp] theorem stores_tbsWrite (r v) : stores (tbsWrite s r v) = stores s := by
  simp [tbsWrite]

@[simp] theorem stores_pwrWrite (die off v) : stores (pwrWrite s die off v) = stores s := by
  simp [pwrWrite]

@[simp] theorem stores_managerWrite (r v) : stores (managerWrite s r v) = stores s := by
  simp [managerWrite]

theorem stores_coreRegRead {s'} {k sl die off} (hs : coreRegRead s k sl die off = some s') :
    stores s' = stores s := by
  unfold coreRegRead at hs
  extract_lets answer at hs
  have hanswer : ∀ v, stores (answer v) = stores s := fun v => stores_emit ..
  split at hs
  · split at hs
    · obtain rfl := Option.some.inj hs
      exact hanswer _
    · split at hs
      · obtain rfl := Option.some.inj hs
        exact stores_execDicSrcRead _
      · obtain rfl := Option.some.inj hs
        exact hanswer _
  · split at hs
    · split at hs
      · obtain rfl := Option.some.inj hs
        exact stores_execFhNtNsRead _
      · obtain rfl := Option.some.inj hs
        exact hanswer _
    · split at hs
      · obtain rfl := Option.some.inj hs
        exact hanswer _
      · nomatch hs

end

section

variable {c : Stores} {s : State} (h : Yields c (stores s))

include h

@[simp] theorem yields_mxeWrite (e r v) : Yields c (stores (mxeWrite s e r v)) := by
  simp [mxeWrite, h]

@[simp] theorem yields_eqpWrite (d r v) : Yields c (stores (eqpWrite s d r v)) := by
  simp [eqpWrite, h]

@[simp] theorem yields_radioWrite (d off v tacor) : Yields c (stores (radioWrite s d off v tacor)) := by
  simp [radioWrite, h]

@[simp] theorem yields_dicWrite (sl off v) : Yields c (stores (dicWrite s sl off v)) := by
  simp [dicWrite, h]

@[simp] theorem yields_ed0Write (off v) : Yields c (stores (ed0Write s off v)) := by
  simp [ed0Write, h]

@[simp] theorem yields_regionWrite (die off v) : Yields c (stores (regionWrite s die off v)) := by
  simp [regionWrite, h]

@[simp] theorem yields_bar0Write (off v) : Yields c (stores (bar0Write s off v)) := by
  simp [bar0Write, h]

@[simp] theorem yields_coreFault (k addr st) : Yields c (stores (coreFault s k addr st)) := by
  simp [coreFault, h]

@[simp] theorem yields_coreBar (k addr b) : Yields c (stores (coreBar s k addr b)) := by
  unfold coreBar
  split <;> simp [h]

theorem yields_coreRegWrite {s'} {k sl die off v} (hs : coreRegWrite s k sl die off v = some s') :
    Yields c (stores s') := by
  unfold coreRegWrite at hs
  split at hs
  · obtain rfl := Option.some.inj hs
    exact yields_dicWrite h ..
  · split at hs
    · obtain rfl := Option.some.inj hs
      exact yields_radioWrite h ..
    · split at hs
      · obtain rfl := Option.some.inj hs
        simpa using h
      · nomatch hs

@[simp] theorem yields_coreRegs (k i addr a) : Yields c (stores (coreRegs s k i addr a)) := by
  obtain ⟨r, hr⟩ : ∃ r, coreRegRead s k i.sleeve (regDie addr) (regOff addr) = r := ⟨_, rfl⟩
  obtain ⟨w, hw⟩ : ∃ w, coreRegWrite s k i.sleeve (regDie addr) (regOff addr) = w := ⟨_, rfl⟩
  have hread : ∀ t, r = some t → Yields c (stores t) := fun t ht => by
    rw [stores_coreRegRead (hr.trans ht)]
    exact h
  have hwrite : ∀ v t, w v = some t → Yields c (stores t) := fun v t ht =>
    yields_coreRegWrite h ((congrFun hw v).trans ht)
  unfold coreRegs
  dsimp only
  rw [hr, hw]
  split
  · split
    · exact hread _ rfl
    · simp [h]
  · split
    · next ht => exact hwrite _ _ ht
    · simp [h]
  · simp [h]

@[simp] theorem yields_coreMem (k i addr a) : Yields c (stores (coreMem s k i addr a)) := by
  unfold coreMem
  split
  · split <;> simp [h]
  · split
    · next hw => exact yields_devWrite h hw
    · simp [h]
    · simp [h]
  · split
    · simp [h]
    · simp [h]
    · simp [h]
  · exact h

@[simp] theorem yields_coreLocal (k addr a) : Yields c (stores (coreLocal s k addr a)) := by
  unfold coreLocal
  split <;> simp [h]

@[simp] theorem yields_coreHost {k i addr n run} (hrun : Yields c (stores (run s))) :
    Yields c (stores (coreHost s k i addr n run)) := by
  unfold coreHost
  (repeat' split) <;> simp [h, hrun]

@[simp] theorem yields_coreAccess (k addr a) : Yields c (stores (coreAccess s k addr a)) := by
  unfold coreAccess
  (repeat' split) <;> simp [h]

@[simp] theorem yields_execHostCoreAccess (k addr a) :
    Yields c (stores (afterOf (execHostCoreAccess k addr a s) s)) := by
  simp [execHostCoreAccess, h]

@[simp] theorem yields_execRegisterWrite (writer addr value) :
    Yields c (stores (afterOf (execRegisterWrite writer addr value s) s)) := by
  refine yields_of_next rfl ?_
  split
  · exact h
  · split
    · split
      · exact yields_regionWrite h ..
      · exact h
    · exact yields_bar0Write h ..
    · split
      · cases hw : coreRegWrite s 16 0 (regDie addr) (regOff addr) value with
        | none => exact h
        | some t => exact yields_coreRegWrite h hw
      · exact h
    · split
      · exact h
      · split
        · exact h
        · split
          · next hw => exact yields_coreRegWrite h hw
          · exact yields_coreFault h ..

end

/-! ### Sys2Proof/Machine/Referee.lean -/

section

variable {s : State}

@[simp] theorem stores_modDispute (u f) : stores (modDispute s u f) = stores s := (rfl)

@[simp] theorem stores_countReferee (r beats) : stores (countReferee s r beats) = stores s := by
  simp [countReferee]

end

section

variable {c : Stores} {s : State} (h : Yields c (stores s))

include h

@[simp] theorem yields_dropDispute (d) : Yields c (stores (dropDispute s d)) := by
  simp [dropDispute, h]

@[simp] theorem yields_failDispute (d st) : Yields c (stores (failDispute s d st)) := by
  simp [failDispute, h]

@[simp] theorem yields_captureOpen (d) : Yields c (stores (captureOpen s d)) := by
  simp [captureOpen, h]

@[simp] theorem yields_stagingBad (d b) : Yields c (stores (stagingBad s d b)) := by
  unfold stagingBad
  extract_lets s₁ keys frames retired s₂
  have h₂ : Yields c (stores s₂) := yields_raise (yields_captureOpen h _) _
  refine yields_failDispute ?_ ..
  exact h₂

@[simp] theorem yields_scratchBad (d r) : Yields c (stores (scratchBad s d r)) := by
  grind [scratchBad, yields_strike, yields_failDispute, yields_captureOpen]

@[simp] theorem yields_stageChunk (d b r) : Yields c (stores (stageChunk s d b r)) := by
  simp [stageChunk, h]

@[simp] theorem yields_fillBuffer (d b) : Yields c (stores (fillBuffer s d b)) := by
  unfold fillBuffer
  split <;> simp [h]

@[simp] theorem yields_execRefereeStaging (u r) : Yields c (stores (afterOf (execRefereeStaging u r s) s)) := by
  unfold execRefereeStaging
  (repeat' split) <;> simp [h]

@[simp] theorem yields_execRefereeTimeout (u) : Yields c (stores (afterOf (execRefereeTimeout u s) s)) := by
  unfold execRefereeTimeout
  split <;> simp [h]

@[simp] theorem yields_withhold (d) : Yields c (stores (withhold s d)) := by
  unfold withhold
  extract_lets s₁ s₂ s₃
  have h₂ : Yields c (stores s₂) := yields_raise (yields_dropDispute h _) _
  have h₃ : Yields c (stores s₃) := by
    unfold s₃
    split
    · exact h₂
    · exact yields_faultSlot h₂ ..
  refine yields_foldl h₃ (fun u r => ?_) _
  dsimp only
  split <;> simp

@[simp] theorem yields_nextChunk (d) : Yields c (stores (nextChunk s d)) := by
  simp [nextChunk, h]

@[simp] theorem yields_writeRows (d rows) : Yields c (stores (writeRows s d rows)) := by
  simp [writeRows, h]

@[simp] theorem yields_refereePass (d r es) : Yields c (stores (refereePass s d r es).placed) := by
  simp [refereePass, h]

@[simp] theorem yields_refereeDesc (d o) : Yields c (stores (refereeDesc s d o).placed) := by
  simp [refereeDesc, h]

@[simp] theorem yields_refereeWords (d o) : Yields c (stores (refereeWords s d o).placed) := by
  simp [refereeWords, h]

@[simp] theorem yields_refereed (d r o) : Yields c (stores (refereed s d r o).placed) := by
  unfold refereed
  split
  · exact yields_refereeDesc h ..
  · split
    · exact yields_refereeWords h ..
    · exact yields_refereePass h ..

@[simp] theorem yields_refereeFails (d r) : Yields c (stores (refereeFails s d r)) := by
  simp [refereeFails, h]

@[simp] theorem yields_execRefereePassDone (u obs) : Yields c (stores (afterOf (execRefereePassDone u obs s) s)) := by
  refine yields_of_next rfl ?_
  split
  · exact h
  · next d _ =>
    extract_lets r v s₁
    have hv : Yields c (stores v.placed) := yields_refereed h ..
    have h₁ : Yields c (stores s₁) := by
      unfold s₁
      split
      · exact hv
      · exact h
    split
    · exact h
    · split
      · exact yields_scratchBad h ..
      · split
        · exact yields_refereeFails h ..
        · split
          · split
            · exact yields_nextChunk h _
            · simp [h₁]
          · split
            · simp [hv]
            · simp [h]

@[simp] theorem yields_execLocatingReplayDone (u faults) :
    Yields c (stores (afterOf (execLocatingReplayDone u faults s) s)) := by
  unfold execLocatingReplayDone
  split <;> simp [h]

end

end Sys2Proof.Machine
end

section
/-! PROOFS. What a step makes of the stores (R122, R160, R395, R396): the lining commands. -/

namespace Sys2Proof.Machine

open Sys2Proof

/-! ### Sys2Proof/Machine/LiningCmds.lean -/

section

variable {s : State}

@[simp] theorem stores_execFittingPeriodEnd (u) : stores (afterOf (execFittingPeriodEnd u s) s) = stores s := by
  simp [execFittingPeriodEnd]

@[simp] theorem stores_logFitting (r) : stores (logFitting s r) = stores s := by
  unfold logFitting
  exact stores_mk ..

@[simp] theorem stores_startOwedMoves : stores (startOwedMoves s) = stores s := by
  unfold startOwedMoves
  refine stores_foldl (fun u key => ?_) _ _
  split
  · simp
  · rfl

@[simp] theorem stores_retireFrame (loc frame move) : stores (retireFrame s loc frame move) = stores s := by
  unfold retireFrame
  split <;> simp

end

section

variable {c : Stores} {s : State} (h : Yields c (stores s))

include h

@[simp] theorem yields_execStrikeCountConfirm (u) : Yields c (stores (afterOf (execStrikeCountConfirm u s) s)) := by
  simp [execStrikeCountConfirm, h]

@[simp] theorem yields_placeOperands (u d) : Yields c (stores (placeOperands s u d)) := by
  unfold placeOperands
  split <;> simp [h]

@[simp] theorem yields_execFittingStart (u fitting beatsToTick) :
    Yields c (stores (afterOf (execFittingStart u fitting beatsToTick s) s)) := by
  unfold execFittingStart
  split <;> simp [h]

@[simp] theorem yields_fitChain (e d errors) : Yields c (stores (fitChain s e d errors)) := by
  unfold fitChain
  extract_lets x tile run
  refine yields_foldl (yields_physZero h ..) (fun u p => ?_) _
  split
  · exact yields_foldl .refl (fun _ _ => yields_scalePass .refl ..) _
  · extract_lets s₁
    have h₁ : Yields (stores u) (stores s₁) := by simp [s₁]
    split
    · exact h₁
    · exact yields_foldl h₁ (fun _ _ => yields_anchorPass .refl ..) _
  · exact yields_foldl .refl (fun _ _ => yields_productPass .refl _) _

@[simp] theorem yields_fitElement (e d lanes) : Yields c (stores (fitElement s e d lanes)) := by
  simp [fitElement, h]

@[simp] theorem yields_fitRun (u d o) : Yields c (stores (fitRun s u d o)) := by
  grind [fitRun, stores_noteOverhead, yields_fitChain, yields_fitElement, yields_physWrite]

@[simp] theorem yields_liftFence (u) : Yields c (stores (liftFence s u)) := by
  simp [liftFence, h]

@[simp] theorem yields_confirmFence (u) : Yields c (stores (confirmFence s u)) := by
  simp [confirmFence, h]

@[simp] theorem yields_fitResult (u r d outcome) : Yields c (stores (fitResult s u r d outcome)) := by
  simp [fitResult, h]

@[simp] theorem yields_execFittingDone (u run rerun) :
    Yields c (stores (afterOf (execFittingDone u run rerun s) s)) := by
  refine yields_of_next rfl ?_
  split
  · exact h
  · split
    · exact h
    · next r _ d _ =>
      extract_lets i s₁ s₂
      have h₁ : Yields c (stores s₁) := yields_fitRun h ..
      have h₂ : Yields c (stores s₂) := yields_fitRun (yields_placeOperands h₁ ..) ..
      split
      · simp [h]
      · split
        · exact yields_fitResult h₁ ..
        · exact yields_fitResult h₂ ..

@[simp] theorem yields_execFenceClearanceDone (u) : Yields c (stores (afterOf (execFenceClearanceDone u s) s)) := by
  simp [execFenceClearanceDone, h]

@[simp] theorem yields_scrubFrame (o) : Yields c (stores (scrubFrame s o)) := by
  simp [scrubFrame, h]

@[simp] theorem yields_execScrubFrames (found) : Yields c (stores (afterOf (execScrubFrames found s) s)) := by
  simp [execScrubFrames, h]

@[simp] theorem yields_execScrubPocket (e words) : Yields c (stores (afterOf (execScrubPocket e words s) s)) := by
  simp [execScrubPocket, h]

@[simp] theorem yields_execLockstepMismatch (pair pc) :
    Yields c (stores (afterOf (execLockstepMismatch pair pc s) s)) := by
  refine yields_of_next rfl ?_
  extract_lets k x s₁ s₂ s₃
  have h₁ : Yields c (stores s₁) := yields_raise h _
  have h₂ : Yields c (stores s₂) := by simp [s₂, h₁]
  split
  · exact h
  · exact yields_strike (yields_faultCore (yields_faultCore h₂ ..) ..) ..

@[simp] theorem yields_receiveSet (set) : Yields c (stores (receiveSet s set)) := by
  simp [receiveSet, h]

@[simp] theorem yields_activateSet (set) : Yields c (stores (activateSet s set)) := by
  unfold activateSet
  extract_lets s₁ _ _ s₂
  have h₁ : Yields c (stores s₁) := yields_physZero (yields_physWrite (yields_physZero h ..) ..) ..
  refine yields_foldl (s := s₂) h₁ (fun u n => ?_) _
  split <;> simp

@[simp] theorem yields_execFittingLoad (cmd) : Yields c (stores (afterOf (execFittingLoad cmd s) s)) := by
  refine yields_served h rfl fun _ => ?_
  refine answerYields_checked ?_
  dsimp only
  (repeat' split) <;> simp [h]

@[simp] theorem yields_execFittingStatus (cmd) : Yields c (stores (afterOf (execFittingStatus cmd s) s)) := by
  simp [execFittingStatus, h]

@[simp] theorem yields_execFittingRun (cmd) : Yields c (stores (afterOf (execFittingRun cmd s) s)) := by
  refine yields_served h rfl fun _ => ?_
  simp [h]

@[simp] theorem yields_execCandidateRead (cmd) : Yields c (stores (afterOf (execCandidateRead cmd s) s)) := by
  refine yields_served h rfl fun _ => ?_
  dsimp only
  split <;> simp [h]

@[simp] theorem yields_execCandidateFree (cmd) : Yields c (stores (afterOf (execCandidateFree cmd s) s)) := by
  simp [execCandidateFree, h]

@[simp] theorem yields_execLiningLogRead (cmd) : Yields c (stores (afterOf (execLiningLogRead cmd s) s)) := by
  refine yields_served h rfl fun _ => ?_
  simp [h]

end

end Sys2Proof.Machine
end

section
/-! PROOFS. What a step makes of the stores (R122, R160, R395, R396): power, submissions, page moves and the seams. -/

namespace Sys2Proof.Machine

open Sys2Proof

/-! ### Sys2Proof/Machine/PowerCmds.lean -/

section

variable {s : State}

@[simp] theorem stores_execNvmWriteInhibit : stores (afterOf (execNvmWriteInhibit s) s) = stores s := by
  simp [execNvmWriteInhibit]

@[simp] theorem stores_execNvmWriteResume : stores (afterOf (execNvmWriteResume s) s) = stores s := by
  simp [execNvmWriteResume]

@[simp] theorem stores_sampleDomain (r) : stores (sampleDomain s r) = stores s := by
  simp [sampleDomain]

@[simp] theorem stores_execSensorSample (rs) : stores (afterOf (execSensorSample rs s) s) = stores s := by
  simp [execSensorSample]

@[simp] theorem stores_execPaceEntryLoaded (n) : stores (afterOf (execPaceEntryLoaded n s) s) = stores s := by
  simp [execPaceEntryLoaded]

@[simp] theorem stores_noteHot (d) : stores (noteHot s d) = stores s := (rfl)

@[simp] theorem stores_openWindow (o) : stores (openWindow s o) = stores s := (rfl)

@[simp] theorem stores_chargeTo (a uj est) : stores (chargeTo s a uj est) = stores s := by
  simp [chargeTo]

@[simp] theorem stores_chargeEnergy (o) : stores (chargeEnergy s o) = stores s := by
  simp [chargeEnergy]

@[simp] theorem stores_endWindow : stores (endWindow s) = stores s := by
  unfold endWindow
  exact stores_foldl (f := fun s e => passOver s _) (fun _ _ => stores_passOver ..) _ _

@[simp] theorem stores_addCredit : stores (addCredit s) = stores s := by
  unfold addCredit
  refine stores_foldl (fun u e => ?_) _ _
  refine stores_foldl (fun v i => ?_) _ _
  dsimp only
  split <;> rfl

@[simp] theorem stores_grantIndex (n i) : stores (grantIndex s n i) = stores s := by
  simp [grantIndex]

@[simp] theorem stores_setVoltages (o) : stores (setVoltages s o) = stores s := by
  unfold setVoltages
  refine stores_foldl (fun u n => ?_) _ _
  dsimp only
  split
  · rfl
  · split
    · simp
    · split
      · split <;> simp
      · simp
      · simp

@[simp] theorem stores_settleThrottles : stores (settleThrottles s) = stores s := by
  unfold settleThrottles
  refine stores_foldl (fun u n => ?_) _ _
  split <;> simp

@[simp] theorem stores_countClear (d) : stores (countClear s d) = stores s := (rfl)

@[simp] theorem stores_execDomainIdleOff (n) : stores (afterOf (execDomainIdleOff n s) s) = stores s := by
  unfold execDomainIdleOff
  split <;> simp

@[simp] theorem stores_nextSetting (kind a b) : stores (nextSetting s kind a b) = stores s := (rfl)

end

section

variable {c : Stores} {s : State} (h : Yields c (stores s))

include h

@[simp] theorem yields_execSagThrottle (mv) : Yields c (stores (afterOf (execSagThrottle mv s) s)) := by
  simp [execSagThrottle, h]

@[simp] theorem yields_execSagCleared : Yields c (stores (afterOf (execSagCleared s) s)) := by
  simp [execSagCleared, h]

@[simp] theorem yields_execSensorExclude (n i) : Yields c (stores (afterOf (execSensorExclude n i s) s)) := by
  simp [execSensorExclude, h]

@[simp] theorem yields_execPaceFaultSet (n) : Yields c (stores (afterOf (execPaceFaultSet n s) s)) := by
  simp [execPaceFaultSet, h]

@[simp] theorem yields_execTempSample (readings failed) :
    Yields c (stores (afterOf (execTempSample readings failed s) s)) := by
  refine yields_of_next rfl ?_
  extract_lets s₁ s₂ s₃ s₄
  have h₁ : Yields c (stores s₁) := by
    refine yields_foldl h (fun u r => ?_) _
    split <;> simp
  have h₂ : Yields c (stores s₂) := by
    refine yields_foldl h₁ (fun u n => ?_) _
    split <;> simp
  have h₃ : Yields c (stores s₃) := by
    refine yields_foldl h₂ (fun u d => ?_) _
    dsimp only
    split <;> simp
  have h₄ : Yields c (stores s₄) := by
    refine yields_foldl h₃ (fun u n => ?_) _
    split <;> simp
  split
  · exact h
  · refine yields_enterThrottles ?_
    rw [stores_foldl fun _ _ => stores_noteHot ..]
    exact h₄

@[simp] theorem yields_execThrottleExit (d) : Yields c (stores (afterOf (execThrottleExit d s) s)) := by
  simp [execThrottleExit, h]

@[simp] theorem yields_execEnergyWindow (o) : Yields c (stores (afterOf (execEnergyWindow o s) s)) := by
  simp [execEnergyWindow, h]

@[simp] theorem yields_execDomainVoltageFail (n) : Yields c (stores (afterOf (execDomainVoltageFail n s) s)) := by
  refine yields_of_next rfl ?_
  extract_lets x ev s₁ s₂ us
  have h₁ : Yields c (stores s₁) := yields_raise (by simpa using h) _
  have h₂ : Yields c (stores s₂) := by
    unfold s₂
    split
    · split
      · exact yields_failPocket h₁ _
      · exact h₁
    · exact h₁
  split
  · exact h
  · split
    · exact yields_dieFault (yields_raise h _) ..
    · split
      · simp [h]
      · split
        · exact yields_radioFenced h₂ _
        · refine yields_foldl h₂ (fun u n => ?_) _
          split <;> simp

@[simp] theorem yields_execEnergyMeterCheck (n meter regulator) :
    Yields c (stores (afterOf (execEnergyMeterCheck n meter regulator s) s)) := by
  simp [execEnergyMeterCheck, h]

@[simp] theorem yields_execPwrCapSet (cmd) : Yields c (stores (afterOf (execPwrCapSet cmd s) s)) := by
  simp [execPwrCapSet, h]

@[simp] theorem yields_execPwrGuardSet (cmd) : Yields c (stores (afterOf (execPwrGuardSet cmd s) s)) := by
  simp [execPwrGuardSet, h]

@[simp] theorem yields_execPwrThermalSet (cmd) : Yields c (stores (afterOf (execPwrThermalSet cmd s) s)) := by
  simp [execPwrThermalSet, h]

@[simp] theorem yields_execPwrDomainRead (cmd) : Yields c (stores (afterOf (execPwrDomainRead cmd s) s)) := by
  simp [execPwrDomainRead, h]

end

/-! ### Sys2Proof/Machine/SubmissionCmds.lean -/

section

variable {c : Stores} {s : State} (h : Yields c (stores s))

include h

@[simp] theorem yields_mgmtCommand (op d) : Yields c (stores (afterOf (mgmtCommand op d s) s)) := by
  unfold mgmtCommand
  split <;> simp [h]

@[simp] theorem yields_sleeveCommand (op d) : Yields c (stores (afterOf (sleeveCommand op d s) s)) := by
  unfold sleeveCommand
  split <;> simp [h]

@[simp] theorem yields_jobCommand (op d) : Yields c (stores (afterOf (jobCommand op d s) s)) := by
  unfold jobCommand
  split <;> simp [h]

@[simp] theorem yields_radioCommand (op d) : Yields c (stores (afterOf (radioCommand op d s) s)) := by
  unfold radioCommand
  split <;> simp [h]

@[simp] theorem yields_powerCommand (op d) : Yields c (stores (afterOf (powerCommand op d s) s)) := by
  unfold powerCommand
  split <;> simp [h]

@[simp] theorem yields_liningCommand (op d) : Yields c (stores (afterOf (liningCommand op d s) s)) := by
  unfold liningCommand
  split <;> simp [h]

@[simp] theorem yields_fronthaulCommand (op d) : Yields c (stores (afterOf (fronthaulCommand op d s) s)) := by
  unfold fronthaulCommand
  split <;> simp [h]

@[simp] theorem yields_fabricCommand (op d) : Yields c (stores (afterOf (fabricCommand op d s) s)) := by
  unfold fabricCommand
  split <;> simp [h]

@[simp] theorem yields_healthCommand (op d) : Yields c (stores (afterOf (healthCommand op d s) s)) := by
  unfold healthCommand
  split <;> simp [h]

@[simp] theorem yields_bootCommand (op d) : Yields c (stores (afterOf (bootCommand op d s) s)) := by
  unfold bootCommand
  split <;> simp [h]

@[simp] theorem yields_runCommand (op d) : Yields c (stores (afterOf (runCommand op d s) s)) := by
  unfold runCommand
  (repeat' split) <;> simp [h]

theorem yields_afterOf {o : Host.Outcome State Fault Refusal} {t} (ht : Yields c (stores (afterOf o t))) :
    Yields c (stores (afterOf o s)) := by
  cases o with
  | next => exact ht
  | _ => exact h

@[simp] theorem yields_execSubmissionFetch (k entry hostData) :
    Yields c (stores (afterOf (execSubmissionFetch k entry hostData s) s)) := by
  unfold execSubmissionFetch
  extract_lets v s₁
  have h₁ : Yields c (stores s₁) := by simp [s₁, h]
  split
  · exact h
  · split
    · simp [h]
    · split
      · simp [h]
      · exact yields_afterOf h (yields_runCommand (by simpa using h₁) ..)

end

/-! ### Sys2Proof/Machine/MoveCmds.lean -/

section

variable {c : Stores} {s : State} (h : Yields c (stores s))

include h

@[simp] theorem yields_runParked (d) : Yields c (stores (runParked d s)) := by
  unfold runParked
  split <;> simp [h]

@[simp] theorem yields_runWaiter (x) : Yields c (stores (runWaiter s x)) := by
  unfold runWaiter
  split <;> simp [h]

@[simp] theorem yields_releaseWaiters : Yields c (stores (releaseWaiters s)) := by
  simp [releaseWaiters, h]

@[simp] theorem yields_finishMove (m) : Yields c (stores (finishMove s m)) := by
  unfold finishMove
  extract_lets w keep s₁ _ s₂
  have h₂ : Yields c (stores s₂) := yields_physCopy h ..
  exact yields_releaseWaiters (yields_dropFrame h₂ ..)

@[simp] theorem yields_execPageMoveDone (page) : Yields c (stores (afterOf (execPageMoveDone page s) s)) := by
  unfold execPageMoveDone
  split <;> simp [h]

end

/-! ### Sys2Proof/Machine/PackageCmds.lean -/

section

variable {s : State}

@[simp] theorem stores_execSeamFlitCrcError (n dir flit buffer) :
    stores (afterOf (execSeamFlitCrcError n dir flit buffer s) s) = stores s := by
  simp [execSeamFlitCrcError]

end

section

variable {c : Stores} {s : State} (h : Yields c (stores s))

include h

@[simp] theorem yields_drainEvents : Yields c (stores (drainEvents s)) := by
  unfold drainEvents
  split
  · exact h
  · refine yields_foldl h (fun u d => ?_) _
    exact yields_foldl (.queue d [] (by simp) .refl) (fun _ _ => yields_recordEvent .refl _) _

@[simp] theorem yields_seamFailure (n) : Yields c (stores (seamFailure s n)) := by
  unfold seamFailure
  extract_lets _ s₁ hs s₂ s₃ s₄ s₅
  have h₁ : Yields c (stores s₁) := h
  have h₂ : Yields c (stores s₂) := yields_foldl h₁ (fun _ _ => yields_faultSlot .refl ..) _
  have h₃ : Yields c (stores s₃) := yields_foldl h₂ (fun _ _ => yields_faultJob .refl ..) _
  have h₄ : Yields c (stores s₄) := yields_raise h₃ _
  have h₅ : Yields c (stores s₅) := yields_noteDie (yields_noteDie h₄ ..) ..
  exact yields_deviceReset (yields_drainEvents h₅) _

@[simp] theorem yields_execSeamLaneRepair (n m lane) :
    Yields c (stores (afterOf (execSeamLaneRepair n m lane s) s)) := by
  simp [execSeamLaneRepair, h]

end

end Sys2Proof.Machine
end

section
/-! PROOFS. What a step makes of the stores (R122, R160, R395, R396): the dispatch of a command, and a step. -/

namespace Sys2Proof.Machine

open Sys2Proof

/-! ### Sys2Proof/Machine/Dispatch.lean -/

section

variable {c : Stores} {s : State} (h : Yields c (stores s))

include h

/-- Every row goes through the writes of `Yields`: each instruction's meaning has its lemma above. -/
theorem yields_exec (i) : Yields c (stores (afterOf (exec i s) s)) := by
  cases i with
  | _ => simp [exec, h]

end

/-! ### Sys2Proof/Machine/Idle.lean -/

section

variable {s : State}

@[simp] theorem stores_idle : stores (idle s) = stores s := by
  unfold idle
  split <;> rfl

end

/-! ### Sys2Proof/Machine/Step.lean -/

/-- What a step does to memory and to the error paths, whatever the command (R122, R160, R395, R396). -/
theorem yields_step {s t : State} (ht : step s = .next t) : Yields (stores s) (stores t) := by
  unfold step at ht
  split at ht
  · obtain rfl := Host.Outcome.next.inj ht
    rw [stores_idle]
    exact .refl
  · next i rest _ =>
    have hexec := yields_exec (c := stores s) (s := { s with pending := rest }) .refl i
    rwa [ht, afterOf_next] at hexec

end Sys2Proof.Machine
end

section
/-! PROOFS. Memory keeps its canonical form (R122, R160, R212; notes/assumptions/2.md). -/

namespace Sys2Proof

open Machine

/-- Bytes written and bytes zeroed leave memory canonical; the writes of the error paths do not touch it. -/
theorem Machine.Yields.memory_wf {c x : Stores} (h : Yields c x) (hc : Memory.wf c.mem = true) :
    Memory.wf x.mem = true := by
  induction h with
  | refl => exact hc
  | byte k b _ ih => exact wrByte_wf k b ih
  | zero f _ ih => exact filter_wf f ih
  | queue _ _ _ _ ih | noQueues _ ih | log _ _ _ ih | pldm _ _ _ ih => exact ih

/-- Settles O59: `yields_step` shows that a step reaches memory by writes of bytes and by zeroing alone, and each keeps
the form. -/
theorem memoryStaysCanonical : Obligations.MemoryStaysCanonical := by
  unfold Obligations.MemoryStaysCanonical
  intro s t hwf hstep
  exact (yields_step hstep).memory_wf hwf

end Sys2Proof
end

section
/-! PROOFS. The course of a disagreement (R143, R147, R149–R154, R172, R176): staging with each buffer a chunk can come
from, the disputes that end without a referee, the verdict on a referee's pass, and the locating replay. -/

namespace Sys2Proof.Machine

variable {s : State} {u r : Nat} {d : Dispute}

/-- The dispute found for a unit is that unit's. -/
theorem suspect_of_disputeOf (h : disputeOf s u = some d) : d.suspect = u := by
  simpa using List.find?_some h

/-! ### Staging (R147, R150, R176) -/

section Staging

variable (hd : disputeOf s u = some d) (hst : d.st = .staging)

include hd hst

theorem exec_refereeStaging_of_alone (halone : suspectAlone s d = true) (hmand : d.mandatory = false) :
    exec (.refereeStaging u r) s = .next (failDispute (capture s d 0) d .checkFailed) := by
  change execRefereeStaging u r s = _
  simp [execRefereeStaging, hd, hst, halone, hmand]

theorem exec_refereeTimeout (hmand : d.mandatory = false) (hend : suspectAlone s d = true ∨ refereeLate s d = true) :
    exec (.refereeTimeout u) s = .next (failDispute (capture s d 0) d .checkFailed) := by
  change execRefereeTimeout u s = _
  simp [execRefereeTimeout, hd, hst, hmand, hend]

variable (halone : suspectAlone s d = false) (hready : refereeReady s d r = true)

include halone hready

theorem exec_refereeStaging_of_asleep (hawake : engineAwake s (r % 16) = false) :
    exec (.refereeStaging u r) s = .next (wakeEngine s (r % 16)) := by
  change execRefereeStaging u r s = _
  simp [execRefereeStaging, hd, hst, halone, hready, hawake]

variable (hawake : engineAwake s (r % 16) = true)

include hawake

theorem exec_refereeStaging_of_element (helem : d.element = true) :
    exec (.refereeStaging u r) s = .next (modDispute (countReferee s r (refereeBeats d)) u
      fun d => { d with st := .referee, refs := d.refs ++ [r], noneSince := none }) := by
  change execRefereeStaging u r s = _
  simp [execRefereeStaging, hd, hst, halone, hready, hawake, helem]

variable (helem : d.element = false)

include helem

theorem exec_refereeStaging_of_buffer {b : Nat} (hbuf : d.buffer = some b) :
    exec (.refereeStaging u r) s =
      .next (if eccHit s (stagingKey b) (2 ^ 20) then stagingBad s d b else stageChunk s d b r) := by
  change execRefereeStaging u r s = _
  simp [execRefereeStaging, hd, hst, halone, hready, hawake, helem, hbuf]

variable (hbuf : d.buffer = none)

include hbuf

theorem exec_refereeStaging_of_no_buffer (hfree : freeBuffer s = none) : exec (.refereeStaging u r) s = .next s := by
  change execRefereeStaging u r s = _
  simp [execRefereeStaging, hd, hst, halone, hready, hawake, helem, hbuf, hfree]

variable {b : Nat} (hfree : freeBuffer s = some b)

include hfree

theorem exec_refereeStaging_of_free_buffer (hreads : d.images ≠ [] ∨ chunkEcc s d = false) :
    exec (.refereeStaging u r) s = .next (if eccHit (fillBuffer s d b) (stagingKey b) (2 ^ 20)
      then stagingBad (fillBuffer s d b) d b else stageChunk (fillBuffer s d b) d b r) := by
  have hfills : (d.images.isEmpty && chunkEcc s d) = false := by
    simpa [imp_iff_not_or] using hreads
  change execRefereeStaging u r s = _
  simp [execRefereeStaging, hd, hst, halone, hready, hawake, helem, hbuf, hfree, hfills]

theorem exec_refereeStaging_of_chunkEcc (himages : d.images = []) (hecc : chunkEcc s d = true) :
    exec (.refereeStaging u r) s = .next (pocketEcc s (u % 16) d.slot) := by
  change execRefereeStaging u r s = _
  simp [execRefereeStaging, hd, hst, halone, hready, hawake, helem, hbuf, hfree, himages, hecc]

end Staging

/-! ### The verdict (R150, R154, R176) -/

section Verdict

variable {obs : RefereeObs} (hd : disputeOf s u = some d) (hst : d.st = .referee) (hr : d.refs.getLast? = some r)

include hd hst hr

theorem exec_refereePassDone_of_scratchBad (helem : d.element = false)
    (hecc : eccHit s (scratchKey s (r % 16)) (2 ^ 20) = true) :
    exec (.refereePassDone u obs) s = .next (scratchBad s d r) := by
  change execRefereePassDone u obs s = _
  simp only [execRefereePassDone, hd, hr, Option.getD_some, helem, hecc]
  simp [hst]

variable (hreads : (!d.element && eccHit s (scratchKey s (r % 16)) (2 ^ 20)) = false)

include hreads

theorem exec_refereePassDone_of_own_disagrees (hown : (refereed s d r obs).own = false) :
    exec (.refereePassDone u obs) s = .next (refereeFails s d r) := by
  change execRefereePassDone u obs s = _
  simp only [execRefereePassDone, hd, hr, Option.getD_some, hreads]
  simp [hst, hown]

variable (hown : (refereed s d r obs).own = true)

include hown

theorem exec_refereePassDone_of_mandatory (hsame : (refereed s d r obs).same = true) (hmand : d.mandatory = true) :
    exec (.refereePassDone u obs) s = .next (nextChunk s d) := by
  change execRefereePassDone u obs s = _
  simp only [execRefereePassDone, hd, hr, Option.getD_some, hreads]
  simp [hst, hown, hsame, hmand]

theorem exec_refereePassDone_of_same (hsame : (refereed s d r obs).same = true) (hmand : d.mandatory = false) :
    exec (.refereePassDone u obs) s = .next (modDispute
      (capture (if d.element then (refereed s d r obs).placed else s) d 2) u
        fun d => { d with kind := 2, st := .replay }) := by
  change execRefereePassDone u obs s = _
  simp only [execRefereePassDone, hd, hr, Option.getD_some, hreads]
  simp [hst, hown, hsame, hmand]

theorem exec_refereePassDone_of_fits (hsame : (refereed s d r obs).same = false)
    (hfits : (refereed s d r obs).fits = true) :
    exec (.refereePassDone u obs) s = .next (modDispute (capture (refereed s d r obs).placed d 1) u
      fun d => { d with kind := 1, st := .replay }) := by
  change execRefereePassDone u obs s = _
  simp only [execRefereePassDone, hd, hr, Option.getD_some, hreads]
  simp [hst, hown, hsame, hfits]

theorem exec_refereePassDone_of_undecided (hsame : (refereed s d r obs).same = false)
    (hfits : (refereed s d r obs).fits = false) :
    exec (.refereePassDone u obs) s = .next (withhold (capture s d 3) d) := by
  change execRefereePassDone u obs s = _
  simp only [execRefereePassDone, hd, hr, Option.getD_some, hreads]
  simp [hst, hown, hsame, hfits]

end Verdict

/-- A referee whose own lining disagrees is struck, and the chunk is staged for another while it has had one only. -/
theorem refereeFails_of_first (h : d.refs.length < 2) :
    refereeFails s d r = noteReferees (modDispute (strike (countDisagree s r) r 4 0xFFFF d.job d.sleeve false)
      d.suspect fun d => { d with st := .staging }) :=
  if_pos h

theorem refereeFails_of_second (h : 2 ≤ d.refs.length) :
    refereeFails s d r =
      withhold (capture (strike (countDisagree s r) r 4 0xFFFF d.job d.sleeve false) d 3) d :=
  if_neg (Nat.not_lt.mpr h)

/-! ### The locating replay (R143, R150, R154) -/

theorem exec_locatingReplayDone {faults : List (Nat × Nat × Int)} (hd : disputeOf s u = some d)
    (hst : d.st = .replay) :
    exec (.locatingReplayDone u faults) s = .next (strike (nextChunk s d) u d.kind
      ((replayLocates s d faults).getD d.location) d.job d.sleeve (replayLocates s d faults).isSome) := by
  change execLocatingReplayDone u faults s = _
  simp [execLocatingReplayDone, hd, hst]

end Sys2Proof.Machine

namespace Sys2Proof

open Machine

/-- Settles O15: staging goes by what the dispute's chunk can be taken from, the verdict by the three findings on the
referee's pass. -/
theorem refereeDecides : Obligations.RefereeDecides := by
  unfold Obligations.RefereeDecides
  refine ⟨?staging, ?alone, ?timeout, ?verdict, ?scratch, ?replay⟩
  case staging =>
    intro u r d s hd hst halone hready
    refine ⟨exec_refereeStaging_of_asleep hd hst halone hready,
      exec_refereeStaging_of_element hd hst halone hready, fun hawake helem => ?_⟩
    exact ⟨fun b hbuf => exec_refereeStaging_of_buffer hd hst halone hready hawake helem hbuf,
      fun b hbuf hfree hreads => exec_refereeStaging_of_free_buffer hd hst halone hready hawake helem hbuf hfree hreads,
      fun b hbuf hfree himages hecc =>
        exec_refereeStaging_of_chunkEcc hd hst halone hready hawake helem hbuf hfree himages hecc,
      exec_refereeStaging_of_no_buffer hd hst halone hready hawake helem⟩
  case alone => exact fun u r d s hd hst halone hmand => exec_refereeStaging_of_alone hd hst halone hmand
  case timeout =>
    intro u n d s hd hst hmand hend
    refine exec_refereeTimeout hd hst hmand (hend.imp_right ?_)
    rintro ⟨hnone, hsince, hlong⟩
    simp [refereeLate, hnone, hsince, hlong]
  case verdict =>
    intro u r d obs s hd hst hr hreads
    have hscratch : (!d.element && eccHit s (scratchKey s (r % 16)) (2 ^ 20)) = false := by
      simpa [imp_iff_not_or] using hreads
    refine ⟨fun hown hfew => ?_, fun hown hmany => ?_, exec_refereePassDone_of_mandatory hd hst hr hscratch,
      exec_refereePassDone_of_same hd hst hr hscratch, exec_refereePassDone_of_fits hd hst hr hscratch,
      exec_refereePassDone_of_undecided hd hst hr hscratch⟩
    · rw [exec_refereePassDone_of_own_disagrees hd hst hr hscratch hown, refereeFails_of_first hfew,
        suspect_of_disputeOf hd]
    · rw [exec_refereePassDone_of_own_disagrees hd hst hr hscratch hown, refereeFails_of_second hmany]
  case scratch =>
    exact fun u r d obs s hd hst hr helem hecc => exec_refereePassDone_of_scratchBad hd hst hr helem hecc
  case replay => exact fun u faults d s hd hst => exec_locatingReplayDone hd hst

end Sys2Proof
end

section
/-! PROOFS. Fittings and clearance (R153–R155, R166, R169, R170, R408, R413): what each row does with the run of a unit,
what a result leaves of the unit and the logs, and what the end of a clearance leaves of the fence. -/

namespace Sys2Proof.Machine

variable {s : State} {u : Nat}

/-! ### Health bookkeeping leaves units and the fence list alone -/

@[simp] theorem setRec_lin (s : State) (r : HealthRec) : (setRec s r).lin = s.lin := by
  unfold setRec
  dsimp only
  split <;> rfl

@[simp] theorem unitSt_setRec (s : State) (r : HealthRec) (x : Nat) : unitSt (setRec s r) x = unitSt s x := by
  simp [unitSt]

@[simp] theorem unitSt_noteReferees (s : State) (x : Nat) : unitSt (noteReferees s) x = unitSt s x := rfl

@[simp] theorem noteReferees_hlt (s : State) : (noteReferees s).hlt = s.hlt := rfl

@[simp] theorem raise_hr (s : State) (e : ErrEvent) : (raise s e).hlt.hr = s.hlt.hr := by
  simp only [raise]
  split <;> split <;> rfl

@[simp] theorem refreshHealth_lin (s : State) : (refreshHealth s).lin = s.lin := by
  unfold refreshHealth
  dsimp only
  split
  · rfl
  · rw [raise_lin]

@[simp] theorem unitSt_refreshHealth (s : State) (x : Nat) : unitSt (refreshHealth s) x = unitSt s x := by
  simp [unitSt]

@[simp] theorem refreshHealth_hr (s : State) : (refreshHealth s).hlt.hr = s.hlt.hr := by
  unfold refreshHealth
  dsimp only
  split
  · rfl
  · rw [raise_hr]

/-! ### Strikes (R153, R154) -/

theorem exec_strikeCountConfirm (hu : u < 124)
    (hfour : 4 ≤ ((unitSt s u).unconfirmed.filter fun t => since s t < 3600 * ticksPerS).length) :
    exec (.strikeCountConfirm u) s = .next (
      let a := modUnit s u fun x => { x with unconfirmed := [] }
      selfFence { a with lin := { a.lin with strikes := confirmLast u s.lin.strikes } } u .confirmed 1) := by
  change execStrikeCountConfirm u s = _
  refine congrArg Host.Outcome.next (if_neg ?_)
  simp [Nat.not_le.mpr hu, Nat.not_lt.mpr hfour]

/-! ### The start of a fitting (R116, R166, R169) -/

section Start

variable {f beats : Nat} {x : FitRun} {c : FitCur} (hmay : mayFit s u = true) (hidle : unitIdle s u = true)
  (hfit : (unitSt s u).fit = some x) (hcur : x.current = none) (hf : f ∈ x.todo)
  (hc : (fittingsOf s u)[f]? = some c)
  (hleased : u < 32 → (engine s (u % 16)).leased = true → fitBeats u c ≤ beats)
  (hfree : u < 32 → (engine s (u % 16)).leased = false → beforeLease s (u % 16) (fitBeats u c) = true)

include hleased hfree in
/-- The fitting of an engine ends before the next release tick, or before the lease. -/
theorem fitting_not_late : (decide (u < 32) && if (engine s (u % 16)).leased then decide (fitBeats u c > beats)
    else !beforeLease s (u % 16) (fitBeats u c)) = false := by
  by_cases hu : u < 32
  · cases h : (engine s (u % 16)).leased with
    | true => simp [hleased hu h]
    | false => simp [hfree hu h]
  · simp [hu]

include hmay hidle hfit hcur hf hc hleased hfree

theorem exec_fittingStart_of_awake (hawake : u < 32 → engineAwake s (u % 16) = true) :
    exec (.fittingStart u f beats) s = .next (placeOperands (setUnit s u { unitSt s u with fit := some { x with
      todo := x.todo.filter (· != f), current := some c } }) u c) := by
  have hawake : (decide (u < 32) && !engineAwake s (u % 16)) = false := by simpa using hawake
  change execFittingStart u f beats s = _
  simp only [execFittingStart, hfit, Option.getD_some, hc, fitting_not_late hleased hfree, hawake]
  simp [hmay, hidle, hcur, hf]

theorem exec_fittingStart_of_asleep (hu : u < 32) (hawake : engineAwake s (u % 16) = false) :
    exec (.fittingStart u f beats) s = .next (wakeEngine s (u % 16)) := by
  change execFittingStart u f beats s = _
  simp only [execFittingStart, hfit, Option.getD_some, hc, fitting_not_late hleased hfree]
  simp [hmay, hidle, hcur, hf, hu, hawake]

end Start

theorem exec_fittingPeriodEnd_of_no_run (hu : u < 96) (hmay : mayFit s u = true) (hfit : (unitSt s u).fit = none)
    (hlast : (unitSt s u).lastRun = none) :
    exec (.fittingPeriodEnd u) s =
      .next (setUnit s u { unitSt s u with fitDue := true, fit := some (newRun s u true) }) := by
  change execFittingPeriodEnd u s = _
  simp [execFittingPeriodEnd, Nat.not_le.mpr hu, hmay, hfit, hlast]

/-! ### The end of a fitting (R153, R166, R170, R176) -/

section Done

variable {run rerun : FitObs} {x : FitRun} {c : FitCur} (hfit : (unitSt s u).fit = some x) (hcur : x.current = some c)
  (hreads : 32 ≤ u ∨ eccHit s (scratchKey s (u % 16)) (2 ^ 20) = false)

include hreads in
theorem fitting_scratch_reads : (decide (u < 32) && eccHit s (scratchKey s (u % 16)) (2 ^ 20)) = false := by
  simpa [imp_iff_not_or] using hreads

include hfit hcur hreads

theorem exec_fittingDone_of_match (hmatch : fitMatches (fitRun s u c run) u c run = true) :
    exec (.fittingDone u run rerun) s = .next (fitResult (fitRun s u c run) u x c 0) := by
  change execFittingDone u run rerun s = _
  simp only [execFittingDone, hfit, hcur, fitting_scratch_reads hreads, hmatch]
  rfl

theorem exec_fittingDone_of_mismatch (hmatch : fitMatches (fitRun s u c run) u c run = false) :
    exec (.fittingDone u run rerun) s = .next (
      let b := fitRun (placeOperands (fitRun s u c run) u c) u c rerun
      fitResult b u x c (if fitMatches b u c rerun then 1 else 2)) := by
  change execFittingDone u run rerun s = _
  simp only [execFittingDone, hfit, hcur, fitting_scratch_reads hreads, hmatch]
  rfl

end Done

/-- Only the log of results changes. (Stated with the log open, so that no comparison of states computes its length.) -/
theorem logFitting_eq (s : State) (r : FitResult) :
    ∃ l, logFitting s r = { s with lin := { s.lin with fitLog := l } } := ⟨_, rfl⟩

@[simp] theorem unitSt_logFitting (s : State) (r : FitResult) (x : Nat) :
    unitSt (logFitting s r) x = unitSt s x := by
  obtain ⟨l, hl⟩ := logFitting_eq s r
  rw [hl]
  rfl

@[simp] theorem logFitting_strikes (s : State) (r : FitResult) : (logFitting s r).lin.strikes = s.lin.strikes := by
  obtain ⟨l, hl⟩ := logFitting_eq s r
  rw [hl]

@[simp] theorem modUnit_strikes (s : State) (u : Nat) (f : UnitSt → UnitSt) :
    (modUnit s u f).lin.strikes = s.lin.strikes := rfl

@[simp] theorem modUnit_fitLog (s : State) (u : Nat) (f : UnitSt → UnitSt) :
    (modUnit s u f).lin.fitLog = s.lin.fitLog := rfl

section Result

variable {x : FitRun} {c : FitCur} (hmore : x.todo ≠ [])

include hmore

/-- While fittings of the run are left, a match is logged and the run goes on. -/
theorem fitResult_of_match :
    fitResult s u x c 0 = modUnit (logFitting s ⟨c.set, c.fitting, u, 0, now s⟩) u
      fun y => { y with fit := some { x with current := none } } := by
  simp [fitResult, hmore, b2n]

/-- A mismatch is logged too and counted in the run; it fails a clearance and strikes the unit. -/
theorem fitResult_of_mismatch {outcome : Nat} (hout : outcome ≠ 0) :
    fitResult s u x c outcome =
      let a := modUnit (logFitting s ⟨c.set, c.fitting, u, outcome, now s⟩) u
        fun y => { y with fit := some { x with current := none, failures := x.failures + 1 } }
      strike (if (unitSt s u).clearing then confirmFence a u else a) u 5 c.fitting 0 0 (outcome == 2) := by
  have hleft : x.todo.isEmpty = false := by simpa using hmore
  have hfails : b2n (outcome != 0) = 1 := by simp [b2n, hout]
  simp only [fitResult, hleft, hfails, if_neg hout, unitSt_modUnit, unitSt_logFitting]
  rfl

end Result

/-! ### Clearance (R155, R413) -/

theorem exec_fenceClearanceDone_of_clean (hu : u < 124) (hclear : (unitSt s u).clearing = true)
    (htime : since s (unitSt s u).clearSince ≤ 600 * ticksPerS) (hruns : 2 ≤ (unitSt s u).clearRuns) :
    exec (.fenceClearanceDone u) s = .next (liftFence s u) := by
  change execFenceClearanceDone u s = _
  simp [execFenceClearanceDone, Nat.not_le.mpr hu, hclear, Nat.not_lt.mpr htime, hruns]

theorem exec_fenceClearanceDone_of_late (hu : u < 124) (hclear : (unitSt s u).clearing = true)
    (htime : 600 * ticksPerS < since s (unitSt s u).clearSince) :
    exec (.fenceClearanceDone u) s = .next (confirmFence s u) := by
  change execFenceClearanceDone u s = _
  simp [execFenceClearanceDone, Nat.not_le.mpr hu, hclear, htime]

theorem unitSt_liftFence (s : State) (u : Nat) :
    unitSt (liftFence s u) u =
      { unitSt s u with fence := .none, hold := 0, clearing := false, clearRuns := 0, fit := none } := by
  simp [liftFence]

theorem not_mem_fenceList_liftFence (s : State) (u : Nat) : u ∉ (liftFence s u).hlt.hr.fenceList := by
  simp [liftFence]

end Sys2Proof.Machine

namespace Sys2Proof

open Machine

/-- Settles O16: the guards of each row let the unit's run start, go on or end, and what the bookkeeping of the health
record adds leaves the unit as the row has put it. -/
theorem fittingsAndClearance : Obligations.FittingsAndClearance := by
  unfold Obligations.FittingsAndClearance
  refine ⟨?confirm, ?start, ?wake, ?period, ?done, ?clean, ?mismatch, ?lifted, ?late⟩
  case confirm => exact fun u s hu hfour => exec_strikeCountConfirm hu hfour
  case start =>
    exact fun u f beats x c s hmay hidle hfit hcur hf hc hleased hfree hawake =>
      exec_fittingStart_of_awake hmay hidle hfit hcur hf hc hleased hfree hawake
  case wake =>
    exact fun u f beats x c s hmay hidle hfit hcur hf hc hu hleased hfree hawake =>
      exec_fittingStart_of_asleep hmay hidle hfit hcur hf hc (fun _ => hleased) (fun _ => hfree) hu hawake
  case period =>
    intro u s hu hmay hfit hlast
    refine ⟨_, exec_fittingPeriodEnd_of_no_run hu hmay hfit hlast, ?_, ?_, fun v hv => ?_, rfl⟩
    · simp
    · simp
    · simp [hv]
  case done =>
    exact fun u run rerun x c s hfit hcur hreads => ⟨exec_fittingDone_of_match hfit hcur hreads,
      exec_fittingDone_of_mismatch hfit hcur hreads⟩
  case clean =>
    intro u x c s hmore
    dsimp only
    rw [fitResult_of_match hmore]
    exact ⟨by simp, by simp, by simp [logFitting], by simp⟩
  case mismatch =>
    intro u outcome x c s hmore hout
    exact fitResult_of_mismatch hmore (by omega)
  case lifted =>
    intro u s hu hclear htime hruns
    refine ⟨_, exec_fenceClearanceDone_of_clean hu hclear htime hruns, ?_⟩
    dsimp only
    rw [unitSt_liftFence]
    exact ⟨rfl, rfl, rfl, rfl, not_mem_fenceList_liftFence s u⟩
  case late => exact fun u s hu hclear htime => exec_fenceClearanceDone_of_late hu hclear htime

end Sys2Proof
end

section
/-! PROOFS. The commands of the lining (R151, R165, R167–R169, R172, R174, R176, R369, R372): the checks of each pass,
so it is answered with what it does to a set, a run, the candidates or the logs. -/

namespace Sys2Proof.Machine

variable {s : State} {c : Cmd}

/-! ### Fitting sets (R167, R168) -/

theorem exec_fittingLoad {set : List Byte} (h : Served 0x300 2 isMgmt c s) (hnvm : s.pwr.inhibit = false)
    (hlen : argN c 1 ≤ 4 * 2 ^ 20) (hread : readSource s c (partyOf c.src) (arg c 0) 0 (argN c 1) = .ok set) :
    exec (.fittingLoad c) s = .next (
      let a := receiveSet s set
      if fitSetStatus a set = .ok then answered 0x300 2 c (activateSet a set) []
      else complete a c.src 0x300 (arg c 2) (fitSetStatus a set) []) := by
  change execFittingLoad c s = _
  simp only [execFittingLoad, serve_served h]
  have hchecks : firstFail [(s.pwr.inhibit, Status.busy), (decide (argN c 1 > 4 * 2 ^ 20), .noSpace)] = none := by
    rw [decide_eq_false (Nat.not_lt.mpr hlen), hnvm]
    rfl
  rw [checked_pass hchecks, hread]
  dsimp only
  cases fitSetStatus (receiveSet s set) set <;> rfl

/-! ### Units (R169, R174, R466) -/

theorem exec_fittingStatus_of_unit (h : Served 0x301 1 isMgmt c s) (hunit : argN c 0 ≤ 111) :
    exec (.fittingStatus c) s = .next (answered 0x301 1 c s
      ([w64 (setId s), w64 s.nvm.fittingFloor, 1] ++ fitStatusWords s (argN c 0))) := by
  have hone : argN c 0 ≠ 0xFFFF := by omega
  refine congrArg Host.Outcome.next (serve_ok h ?_)
  simp only [hone, if_false]
  rw [checked_pass (by simp [Nat.not_lt.mpr hunit]), List.flatMap_singleton]
  rfl

theorem exec_fittingStatus_of_all (h : Served 0x301 1 isMgmt c s) (hall : argN c 0 = 0xFFFF) :
    exec (.fittingStatus c) s = .next (answered 0x301 1 c s
      ([w64 (setId s), w64 s.nvm.fittingFloor, 112] ++ (List.range 112).flatMap (fitStatusWords s))) := by
  refine congrArg Host.Outcome.next (serve_ok h ?_)
  simp only [hall, if_true]
  rw [checked_pass (by simp), List.length_range]
  rfl

/-- A unit that no fence stops gets an urgent run, and the period is the one given. -/
theorem exec_fittingRun_of_unit (h : Served 0x302 2 isMgmt c s) (hunit : argN c 0 ≤ 111) (hlow : 60 ≤ argN c 1)
    (hhigh : argN c 1 ≤ 600) (hfence : isFenced s (argN c 0) = false) :
    exec (.fittingRun c) s = .next (
      let a := { s with lin := { s.lin with period := argN c 1 } }
      answered 0x302 2 c (modUnit a (argN c 0) fun x => { x with
        fitDue := true, fit := some { newRun a (argN c 0) true with current := x.fit.bind (·.current) } }) []) := by
  have hone : argN c 0 ≠ 0xFFFF := by omega
  have hset : argN c 1 ≠ 0 := by omega
  refine congrArg Host.Outcome.next (serve_ok h ?_)
  simp only [hone, hset, if_false]
  rw [checked_pass (by simp [Nat.not_lt.mpr hunit, Nat.not_lt.mpr hlow, Nat.not_lt.mpr hhigh])]
  have hruns : ([argN c 0].filter fun u => !isFenced { s with lin := { s.lin with period := argN c 1 } } u) =
      [argN c 0] := by
    rw [List.filter_cons_of_pos]
    · rfl
    · exact congrArg Bool.not hfence
  rw [hruns]
  rfl

/-! ### Candidates (R172, R174, R176) -/

section Candidates

variable {k : Candidate}

theorem exec_candidateFree (h : Served 0x304 1 isMgmt c s) (hn : argN c 0 ≤ 3)
    (hk : (tget none s.lin.candidates (argN c 0)).isSome = true) :
    exec (.candidateFree c) s = .next (answered 0x304 1 c
      { s with lin := { s.lin with candidates := tset none s.lin.candidates (argN c 0) none } } []) := by
  refine congrArg Host.Outcome.next (serve_ok h (checked_pass ?_))
  obtain ⟨k, hk⟩ := Option.isSome_iff_exists.1 hk
  simp [Nat.not_lt.mpr hn, hk]

variable (h : Served 0x303 3 isMgmt c s) (hn : argN c 0 ≤ 3) (hk : tget none s.lin.candidates (argN c 0) = some k)
  (hend : argN c 1 + argN c 2 ≤ (candidateBytes k).length)

include h hn hk hend

theorem exec_candidateRead_of_unreadable (hbad : candidatesBad s = true) :
    exec (.candidateRead c) s = .next (
      let free := takeFreeBytes (reportUnreadable s 3488) 4 (argN c 2)
      answered 0x303 3 c free.2 (wordsOf (cdiv (argN c 2) 8) free.1)) := by
  refine congrArg Host.Outcome.next (serve_ok h ?_)
  simp only [Nat.not_lt.mpr hn, if_false, hk, hbad, if_true]
  exact checked_pass (by simp [Nat.not_lt.mpr hend])

theorem exec_candidateRead_of_readable (hgood : candidatesBad s = false) :
    exec (.candidateRead c) s = .next (answered 0x303 3 c
      { s with lin := { s.lin with candidates := tset none s.lin.candidates (argN c 0) (some { k with
        fetched := k.fetched || argN c 1 + argN c 2 == (candidateBytes k).length }) } }
      (wordsOf (cdiv (argN c 2) 8) (((candidateBytes k).drop (argN c 1)).take (argN c 2)))) := by
  refine congrArg Host.Outcome.next (serve_ok h ?_)
  simp only [Nat.not_lt.mpr hn, if_false, hk, hgood]
  exact checked_pass (by simp [Nat.not_lt.mpr hend])

end Candidates

end Sys2Proof.Machine

namespace Sys2Proof

open Machine

/-- Settles O18: each command's checks pass, so it is answered with its effect, and a queue or log that cannot be read
gives free values. -/
theorem liningCommandsComplete : Obligations.LiningCommandsComplete := by
  unfold Obligations.LiningCommandsComplete
  refine ⟨?load, ?unit, ?all, ?run, ?read, ?free, ?log⟩
  case load => exact fun c set s h hnvm hlen hread => exec_fittingLoad h hnvm hlen hread
  case unit => exact fun c s h hunit => exec_fittingStatus_of_unit h hunit
  case all => exact fun c s h hall => exec_fittingStatus_of_all h hall
  case run =>
    exact fun c s h hunit hlow hhigh hfence _ => exec_fittingRun_of_unit h hunit hlow hhigh hfence
  case read =>
    exact fun c k s h hn hk hend => ⟨exec_candidateRead_of_unreadable h hn hk hend,
      exec_candidateRead_of_readable h hn hk hend⟩
  case free => exact fun c s h hn hk => exec_candidateFree h hn hk
  case log =>
    intro c s h hlow hhigh
    have hchecks : firstFail [(decide (argN c 1 = 0) || decide (argN c 1 > 64), Status.badField)] = none := by
      have hsome : argN c 1 ≠ 0 := by omega
      simp [hsome, Nat.not_lt.mpr hhigh]
    refine ⟨fun hgood => congrArg Host.Outcome.next (serve_ok h ?_),
      fun hbad => congrArg Host.Outcome.next (serve_ok h ?_)⟩
    · simp only [checked_pass hchecks, hgood]
      rfl
    · simp only [checked_pass hchecks, hbad]
      rfl

end Sys2Proof
end

section
/-! PROOFS. The host's attachment (R160, R207, R213, R360, R363, R365–R367, R386–R388, R396): accesses and link of
CXL, what the sideband answers with and without Tacor, and the console. -/

namespace Sys2Proof.Machine

variable {s : State}

/-! ### CXL.mem (R36, R213, R365, R366) -/

section Access

variable {addr : Nat} (hup : s.mgt.cxlUp = true) (hboot : s.boot.phase = .booted)
  (htracker : trackerFree s 6 false = true)

include hup hboot htracker

theorem exec_cxlMemRead {len : Nat} (hin : inWindow addr len = true) :
    exec (.cxlMemRead addr len) s = .next (match cxlCheck s .rd addr len with
      | .serve => cxlReadNow s addr len
      | .wait => { s with pkg := { s.pkg with waiters := s.pkg.waiters ++ [(addr / 65536, .cxlRead addr len)] } }
      | .refused st k => postEvent (emit s (.cxlData addr (List.replicate len 0) false)) 2 st k [w64 addr]) := by
  change execCxlMemRead addr len s = _
  simp only [execCxlMemRead, hup, hboot, hin, htracker]
  cases cxlCheck s .rd addr len <;> rfl

theorem exec_cxlMemWrite {d : List Byte} (hin : inWindow addr d.length = true) :
    exec (.cxlMemWrite addr d) s = .next (match cxlCheck s .wr addr d.length with
      | .serve => cxlWriteNow s addr d
      | .wait => { s with pkg := { s.pkg with waiters := s.pkg.waiters ++ [(addr / 65536, .cxlWrite addr d)] } }
      | .refused st k => postEvent s 2 st k [w64 addr]) := by
  change execCxlMemWrite addr d s = _
  simp only [execCxlMemWrite, hup, hboot, hin, htracker]
  cases cxlCheck s .wr addr d.length <;> rfl

end Access

theorem exec_cxlMemRead_of_no_tracker (h : trackerFree s 6 false = false) (addr len : Nat) :
    exec (.cxlMemRead addr len) s = .next s := by
  change execCxlMemRead addr len s = _
  simp [execCxlMemRead, h]

theorem exec_cxlMemWrite_of_no_tracker (h : trackerFree s 6 false = false) (addr : Nat) (d : List Byte) :
    exec (.cxlMemWrite addr d) s = .next s := by
  change execCxlMemWrite addr d s = _
  simp [execCxlMemWrite, h]

/-- A page whose entry reads well and is not VALID lets no access through. -/
theorem cxlCheck_of_not_valid {k : Kind} {addr len : Nat} (hvalid : ownValid (ownEntry s (addr / 65536)) = false)
    (hecc : s.pkg.ownerEcc.contains (addr / 65536) = false) (hloc : ownLoc (ownEntry s (addr / 65536)) ≠ 3)
    (hfield : fld (ownEntry s (addr / 65536)) 28 24 = 0) :
    cxlCheck s k addr len = .refused (statusCode .denied) (ownOwner (ownEntry s (addr / 65536))) := by
  unfold cxlCheck
  simp only [hvalid, hecc, beq_eq_false_iff_ne.mpr hloc, hfield]
  rfl

/-! ### The link (R207, R360, R363, R367) -/

theorem exec_cxlLinkDown_of_up (hup : s.mgt.cxlUp = true) : exec (.cxlLinkDown .linkDown) s = .next (linkDown s) := by
  change execCxlLinkDown .linkDown s = _
  simp [execCxlLinkDown, hup]

theorem exec_cxlLinkUp_x16 (hup : Up s) (hheld : s.mgt.cxlHeld = false) :
    exec (.cxlLinkUp 16 128) s = .next { s with
      pins := { s.pins with perstN := true }
      mgt := { s.mgt with cxlUp := true, width := 4, rate := 7 } } := by
  change execCxlLinkUp 16 128 s = _
  simp [execCxlLinkUp, hup, hheld]

theorem exec_pasidEnableChange (hup : s.mgt.cxlUp = true) (b : Bool) :
    exec (.pasidEnableChange b) s = .next { s with mgt := { s.mgt with pasidOn := b } } := by
  change execPasidEnableChange b s = _
  simp [execPasidEnableChange, hup]

theorem exec_evtLostRead (hup : s.mgt.cxlUp = true) :
    exec .evtLostRead s = .next (
      let a := emit s (.readValue 0x4001C (ctrReg s.mgt.evtLost))
      { a with mgt := { s.mgt with evtLost := { s.mgt.evtLost with count := 0 } } }) := by
  change execEvtLostRead s = _
  simp [execEvtLostRead, hup]

/-! ### Sideband (R386, R387, R396) -/

theorem exec_sidebandUpload {c : Cmd} (h : Served 0x006 (3 + cdiv (argN c 2 % 8192) 8) (· == .bmc) c s)
    (harea : argN c 0 ≤ 1) (hlen : argN c 2 ≤ 4032) (hend : argN c 1 + argN c 2 ≤ areaSize (argN c 0)) :
    exec (.sidebandUpload c) s = .next (answered 0x006 (3 + cdiv (argN c 2 % 8192) 8) c (physWrite s
      (areaBase (argN c 0) + argN c 1) ((bytesOf (c.args.drop 3)).take (argN c 2))) []) := by
  refine congrArg Host.Outcome.next (serve_ok h (checked_pass ?_))
  simp [Nat.not_lt.mpr harea, Nat.not_lt.mpr hlen, Nat.not_lt.mpr hend]

theorem exec_entdaa (hup : Up s) (a : Nat) :
    exec (.entdaa a) s = .next { s with mgt := { s.mgt with i3c := some a } } := by
  change execEntdaa a s = _
  simp [execEntdaa, hup]

theorem exec_setEndpointId (hside : sidebandUp s = true) (a : Nat) :
    exec (.setEndpointId a) s = .next { s with mgt := { s.mgt with eid := some a } } := by
  change execSetEndpointId a s = _
  simp [execSetEndpointId, hside]

section Pldm

variable (hside : sidebandUp s = true)

include hside

/-- While Tacor does not run a PLDM request gets ERROR_NOT_READY. -/
theorem pldmServe_of_not_ready (htacor : s.mgt.tacor ≠ 1) (tag : Nat) (k : State → State) :
    pldmServe s tag k = emit s (.pldm tag [4]) := by
  simp [pldmServe, hside, htacor]

theorem pldmServe_of_running (htacor : s.mgt.tacor = 1) (tag : Nat) (k : State → State) :
    pldmServe s tag k = k s := by
  simp [pldmServe, hside, htacor]

end Pldm

/-- With no record queued a poll that acknowledges none gets the completion code alone. -/
theorem exec_poll_of_empty (hside : sidebandUp s = true) (htacor : s.mgt.tacor = 1) (hempty : s.hlt.pldm = [])
    (tag : Nat) : exec (.pollForPlatformEventMessage tag none) s = .next (emit s (.pldm tag [0])) := by
  change Host.Outcome.next (pldmServe s tag _) = _
  rw [pldmServe_of_running hside htacor]
  simp only [hempty]

/-! ### The console (R388) -/

theorem uartServe_of_running (hup : Up s) (htacor : s.mgt.tacor = 1) (k : State → State) : uartServe s k = k s := by
  simp [uartServe, hup, htacor]

/-- UART_ERRORS sends a line for each record and changes nothing else. -/
theorem uartErrorLines (l : List ErrRec) (s : State) :
    let t := l.foldr (fun r s => emit s (.uart "error" r.number)) s
    t.out.length = s.out.length + l.length ∧ t.hlt = s.hlt ∧ t.pkg = s.pkg := by
  induction l with
  | nil => exact ⟨rfl, rfl, rfl⟩
  | cons r l ih =>
    obtain ⟨hout, hhlt, hpkg⟩ := ih
    exact ⟨congrArg (· + 1) hout, hhlt, hpkg⟩

end Sys2Proof.Machine

namespace Sys2Proof

open Machine

/-- Settles O52: an access does what the check of its page answers; the sideband and the console serve by whether Tacor
runs, and what they serve is one answer or one field. -/
theorem hostAttachmentRuns : Obligations.HostAttachmentRuns := by
  unfold Obligations.HostAttachmentRuns
  refine ⟨?read, ?write, ?tracker, ?denied, ?down, ?up, ?pasid, ?lost, ?upload, ?entdaa, ?eid, ?notReady, ?pldm, ?other,
    ?uart⟩
  case read => exact fun addr len s hup hboot hin htracker => exec_cxlMemRead hup hboot htracker hin
  case write => exact fun addr d s hup hboot hin htracker => exec_cxlMemWrite hup hboot htracker hin
  case tracker =>
    exact fun addr len d s h => ⟨exec_cxlMemRead_of_no_tracker h addr len, exec_cxlMemWrite_of_no_tracker h addr d⟩
  case denied =>
    intro addr len k s hvalid hecc hloc hfield hk
    rw [hk]
    exact cxlCheck_of_not_valid hvalid hecc hloc hfield
  case down => exact fun s hup => ⟨exec_cxlLinkDown_of_up hup, rfl, rfl, rfl, rfl, rfl, rfl⟩
  case up => exact fun s hup hheld => ⟨_, exec_cxlLinkUp_x16 hup hheld, rfl, rfl, rfl, rfl⟩
  case pasid => exact fun b s hup => exec_pasidEnableChange hup b
  case lost => exact fun s hup => ⟨_, exec_evtLostRead hup, rfl, rfl, rfl⟩
  case upload => exact fun c s h harea hlen hend => exec_sidebandUpload h harea hlen hend
  case entdaa => exact fun a s hup => exec_entdaa hup a
  case eid => exact fun a s hside => exec_setEndpointId hside a
  case notReady =>
    exact fun tag n s hside htacor => ⟨congrArg Host.Outcome.next (pldmServe_of_not_ready hside htacor ..),
      congrArg Host.Outcome.next (pldmServe_of_not_ready hside htacor ..),
      congrArg Host.Outcome.next (pldmServe_of_not_ready hside htacor ..)⟩
  case pldm =>
    intro tag n s hside htacor
    refine ⟨congrArg Host.Outcome.next (pldmServe_of_running hside htacor ..), ?_,
      congrArg Host.Outcome.next (pldmServe_of_running hside htacor ..),
      congrArg Host.Outcome.next (pldmServe_of_running hside htacor ..),
      fun hempty => exec_poll_of_empty hside htacor hempty tag⟩
    refine congrArg Host.Outcome.next ((pldmServe_of_running hside htacor ..).trans ?_)
    cases pldmSensor s n <;> rfl
  case other => exact fun l s => rfl
  case uart =>
    intro s hup htacor
    refine ⟨congrArg Host.Outcome.next (uartServe_of_running hup htacor _),
      congrArg Host.Outcome.next (uartServe_of_running hup htacor _),
      _, congrArg Host.Outcome.next (uartServe_of_running hup htacor _), ?_⟩
    exact uartErrorLines s.hlt.log _

end Sys2Proof
end

section
/-! PROOFS. Leases and the radio's status (R194, R195, R253–R258, R262–R264): the checks of a plan decide its command,
and what the lease of a period's engines leaves alone. -/

namespace Sys2Proof.Machine

variable {s : State} {c : Cmd}

/-! ### LEASE_PLAN (R255) -/

section Plan

variable {r : List W64} (hserved : Served 0x205 (if argSpace c.src ≥ 32 then 32 else 1) isMgmtRadio c s)
  (hrecord : planRecord s (partyOf c.src) c = .ok r)

include hserved hrecord

theorem exec_leasePlan_of_pass (hchecks : firstFail (planChecks s r) = none) :
    exec (.leasePlan c) s = .next (answered 0x205 (if argSpace c.src ≥ 32 then 32 else 1) c { s with rad := { s.rad with
      plans := s.rad.plans.filter (·.period != lpPeriod r) ++
        [{ period := lpPeriod r, record := r, fixed := diff32 (lpPeriod r) (frameNow s) ≤ 2 }]
      planRepeat := false } } []) := by
  refine congrArg Host.Outcome.next (serve_ok hserved ?_)
  simp only [hrecord]
  exact checked_pass hchecks

theorem exec_leasePlan_of_fail {st : Status} (hchecks : firstFail (planChecks s r) = some st) :
    exec (.leasePlan c) s = .next (finish s c.src 0x205 st []) := by
  refine congrArg Host.Outcome.next (serve_fail hserved ?_)
  simp only [hrecord]
  exact checked_fail hchecks

end Plan

/-! ### LEASE_CEILING_SET and RADIO_STATUS (R195, R253, R264) -/

theorem exec_leaseCeilingSet (hserved : Served 0x206 1 isMgmt c s) (hmask : argN c 0 < 65536)
    (hcount : maskCount (argN c 0) ≤ 12) :
    exec (.leaseCeilingSet c) s = .next (answered 0x206 1 c (retestCadence { s with rad := { s.rad with
      mask := maskAt s (frameNow s)
      maskNext := some (firstFreePeriod s s.rad.plans.length (frameNow s + 1), argN c 0) } }) []) := by
  refine congrArg Host.Outcome.next (serve_ok hserved (checked_pass ?_))
  simp [Nat.not_le.mpr hmask, Nat.not_lt.mpr hcount]

theorem exec_radioStatus (hserved : Served 0x207 1 isMgmtRadio c s) (hdie : argN c 0 ≤ 1) :
    let d := argN c 0
    let cs := s.rad.cells.filter fun e => e.2.st != .absent && cDie e.2.record == d
    exec (.radioStatus c) s = .next (answered 0x207 1 c s ([(eqpStatus s d).setWidth 64,
      (eqpCapacity s d).setWidth 64, w64 cs.length] ++ cs.map (fun e => pack 64 [(20, cPoints e.2.record),
        (16, cPort e.2.record), (12, cType e.2.record), (8, cellCode e.2.st), (0, e.1)]) ++
      [w64 (plansHeld s).length] ++ (plansHeld s).flatMap fun p => (List.range 32).map (wd p.record))) := by
  refine congrArg Host.Outcome.next (serve_ok hserved (checked_pass ?_))
  simp [Nat.not_lt.mpr hdie]

/-! ### The lease of a period's engines (R120, R256, R257) -/

theorem throttleFrame_riseIfHeld (s : State) (n : Nat) : ThrottleFrame s (riseIfHeld s n) := by
  unfold riseIfHeld
  split
  · exact throttleFrame_modDomain ..
  · exact .refl s

/-- An engine is leased: its domains take their levels and rise, and slot 4 holds the lease context. -/
theorem throttleFrame_leaseOne (s : State) (e : Nat) (x : Slot) :
    ThrottleFrame s (setSlot ((engineDomains e).foldl riseIfHeld ((engineDomains e).foldl takeThrottle
      (wakeEngine (modEngine s e fun x => { x with leased := true }) e))) e 4 x) :=
  have hwake := (throttleFrame_modEngine s e fun x => { x with leased := true }).trans (throttleFrame_wakeEngine _ e)
  have htake := hwake.trans (.foldl throttleFrame_takeThrottle (engineDomains e) _)
  have hrise := htake.trans (.foldl throttleFrame_riseIfHeld (engineDomains e) _)
  hrise.trans (throttleFrame_modEngine ..)

/-- A lease ends on an engine: slot 4 is released, and its domains take their levels. -/
theorem throttleFrame_returnOne (s : State) (e : Nat) :
    ThrottleFrame s ((engineDomains e).foldl takeThrottle
      (releaseSlot (modEngine s e fun x => { x with leased := false }) (e, 4))) :=
  have hfree := (throttleFrame_modEngine s e fun x => { x with leased := false }).trans
    (throttleFrame_modEngine _ e fun x => { x with slots := tset {} x.slots 4 {}, active := none, standby := none })
  hfree.trans (.foldl throttleFrame_takeThrottle (engineDomains e) _)

/-- A lease is throttling as far as radio, jobs and memory see it; then the referees' waits are noted. -/
theorem setLease_cases (s : State) (es : List Nat) : ∃ t, ThrottleFrame s t ∧ setLease s es = noteReferees t := by
  refine ⟨_, ThrottleFrame.foldl (fun s e => ?_) (List.range 16) s, rfl⟩
  split
  · exact throttleFrame_leaseOne ..
  · split
    · exact throttleFrame_returnOne ..
    · exact .refl s

@[simp] theorem setLease_rad (s : State) (es : List Nat) : (setLease s es).rad = s.rad := by
  obtain ⟨t, ht, hset⟩ := setLease_cases s es
  rw [hset, ht]
  rfl

@[simp] theorem setLease_jobs (s : State) (es : List Nat) : (setLease s es).jobs = s.jobs := by
  obtain ⟨t, ht, hset⟩ := setLease_cases s es
  rw [hset]
  exact ht.jobs

@[simp] theorem setLease_pkg (s : State) (es : List Nat) : (setLease s es).pkg = s.pkg := by
  obtain ⟨t, ht, hset⟩ := setLease_cases s es
  rw [hset]
  exact ht.pkg

/-- FALLBACK owed is a mark on dies alone. -/
theorem oweFallback_eq (s : State) (cells : List Nat) :
    oweFallback s cells = { s with rad := { s.rad with dies := (oweFallback s cells).rad.dies } } :=
  List.foldlRecOn (motive := fun t : State => t = { s with rad := { s.rad with dies := t.rad.dies } }) _ _ rfl
    fun t ht d _ => by
      rw [ht]
      rfl

theorem startPeriod_frame (s : State) (p : Nat) :
    (startPeriod s p).rad.current = periodPlan s p ∧ (startPeriod s p).rad.cells = s.rad.cells ∧
      (startPeriod s p).jobs = s.jobs ∧ (startPeriod s p).pkg = s.pkg := by
  unfold startPeriod
  dsimp only
  rw [oweFallback_eq]
  split
  · exact ⟨rfl, rfl, rfl, rfl⟩
  · simp

/-! ### The end of a lease (R258) -/

theorem exec_leasePeriodStart (p : Nat) (s : State) : exec (.leasePeriodStart p) s = .next (
    if !s.rad.leaseEnds then startPeriod s p
    else if s.mgt.tacor == 1 then endLease s
    else { s with rad := { s.rad with plans := [], previous := s.rad.current, current := none, leaseEnds := false } }) :=
  rfl

theorem exec_leaseEndNoTacor_of_due (hrepeat : s.rad.planRepeat = true) (htacor : s.mgt.tacor = 2)
    (hdue : 2 * ticksPerS ≤ since s s.rad.repeatSince) :
    exec .leaseEndNoTacor s = .next { s with rad := { s.rad with leaseEnds := true } } := by
  change execLeaseEndNoTacor s = _
  simp [execLeaseEndNoTacor, hrepeat, htacor, hdue]

end Sys2Proof.Machine

namespace Sys2Proof

open Machine

/-- Settles O31: the checks of each command decide it, and leasing a period's engines leaves radio, jobs and memory
alone. -/
theorem leasesRun : Obligations.LeasesRun := by
  unfold Obligations.LeasesRun
  refine ⟨?plan, ?refused, ?ceiling, ?status, ?start, ?ends, ?endsAlone, ?period, ?check, ?noTacor⟩
  case plan => exact fun c r s hserved hrecord hchecks => exec_leasePlan_of_pass hserved hrecord hchecks
  case refused => exact fun c r st s hserved hrecord hchecks => exec_leasePlan_of_fail hserved hrecord hchecks
  case ceiling => exact fun c s hserved hmask hcount => exec_leaseCeilingSet hserved hmask hcount
  case status => exact fun c s hserved hdie => exec_radioStatus hserved hdie
  case start =>
    intro p s hgoes
    rw [exec_leasePeriodStart, hgoes]
    rfl
  case ends =>
    intro p s hends htacor
    rw [exec_leasePeriodStart, hends, htacor]
    rfl
  case endsAlone =>
    intro p s hends htacor
    refine ⟨_, exec_leasePeriodStart p s, ?_⟩
    simp [hends, htacor]
  case period => exact fun p s => startPeriod_frame s p
  case check => exact fun p s => ⟨_, rfl, rfl, rfl, rfl, rfl⟩
  case noTacor =>
    exact fun s hrepeat htacor hdue => ⟨_, exec_leaseEndNoTacor_of_due hrepeat htacor hdue, rfl, rfl, rfl⟩

end Sys2Proof
end

section
/-! PROOFS. Host cores and the doorbell interrupt controller (R379–R385, R389): loading, stopping and reading a context,
and a source's course from its doorbell over its delivery to its end of interrupt. -/

namespace Sys2Proof.Machine

variable {s : State} {c : Cmd}

/-! ### Host cores (R384, R385, R389) -/

theorem exec_hcLoad_of_pass {h : Nat} (hserved : Served 0x001 (if argN c 1 = 0 then 6 else 5) isMgrRadio c s)
    (hchecks : firstFail (hcLoadChecks s c (partyOf c.src)) = none) (hfree : freeHandle s = some h) :
    exec (.hcLoad c) s = .next (answered 0x001 (if argN c 1 = 0 then 6 else 5) c (loadCore s c h)
      [w64 h, w64 (job s h).gen]) := by
  refine congrArg Host.Outcome.next (serve_ok hserved ?_)
  rw [checked_pass hchecks, hfree]
  rfl

theorem exec_hcLoad_of_fail {st : Status} (hserved : Served 0x001 (if argN c 1 = 0 then 6 else 5) isMgrRadio c s)
    (hchecks : firstFail (hcLoadChecks s c (partyOf c.src)) = some st) :
    exec (.hcLoad c) s = .next (finish s c.src 0x001 st []) :=
  congrArg Host.Outcome.next (serve_fail hserved (checked_fail hchecks))

theorem hostCore_loadCore (s : State) (c : Cmd) (h : Nat) : hostCore (loadCore s c h) (argN c 0) =
    ⟨true, argN c 1, h, (job s h).gen, argN c 2, argN c 3, argN c 4, 0, 0⟩ := by
  simp [loadCore]

theorem job_loadCore (s : State) (c : Cmd) (h g : Nat) : job (loadCore s c h) g =
    if g = h then { st := .running, gen := (job s h).gen, owner := argN c 1, held := true, core := some (argN c 0) }
    else job s g := by
  simp [loadCore]

section LoadedCore

variable (hcore : argN c 0 ≤ 15) (hloaded : (hostCore s (argN c 0)).loaded = true)

include hcore hloaded

theorem exec_hcStop_of_loaded (hserved : Served 0x002 1 isMgrRadio c s)
    (hradio : partyOf c.src = .radio → (hostCore s (argN c 0)).sleeve = 0)
    (hlive : (job s (hostCore s (argN c 0)).handle).st ≠ .draining) :
    exec (.hcStop c) s = .next (resetUnit (beginTeardown (journal s c.src 0x002) (hostCore s (argN c 0)).handle 0 2
      (some c.src)) (96 + argN c 0)) := by
  have hright : (partyOf c.src == .radio && (hostCore s (argN c 0)).sleeve != 0) = false := by
    simpa using hradio
  refine congrArg Host.Outcome.next (serve_defer (f := fun s => resetUnit (beginTeardown s
    (hostCore _ (argN c 0)).handle 0 2 (some c.src)) (96 + argN c 0)) hserved (checked_pass ?_))
  simp [hright, Nat.not_lt.mpr hcore, hloaded, hlive]

theorem exec_hcStatus_of_loaded (hserved : Served 0x003 1 isMgmtRadio c s) :
    let x := hostCore s (argN c 0)
    exec (.hcStatus c) s =
      .next (answered 0x003 1 c s [w64 x.sleeve, w64 x.handle, w64 x.gen, x.retired, x.beats]) := by
  refine congrArg Host.Outcome.next (serve_ok hserved (checked_pass ?_))
  simp [Nat.not_lt.mpr hcore, hloaded]

end LoadedCore

theorem exec_hcExitCall_of_loaded {k : Nat} (hloaded : (hostCore s k).loaded = true) (st : BitVec 16) :
    exec (.hcExitCall k st) s = .next (beginTeardown s (hostCore s k).handle st.toNat 1) := by
  change execHcExitCall k st s = _
  simp [execHcExitCall, hloaded]

/-! ### Routes and status of the controller (R380, R389) -/

/-- A route that the manager names for a source of its own passes: it is taken at once while the source is idle. -/
theorem exec_dicRouteSet_of_pass (hserved : Served 0x004 2 isMgrRadio c s) (hlast : argN c 0 ≤ 4095)
    (hfirst : 256 ≤ argN c 0) (hword : fld (arg c 1) 63 32 = 0) (hlow : fld (arg c 1) 15 0 = 0)
    (htarget : fld (arg c 1) 24 20 ≤ 19) (hmanager : partyOf c.src = .manager) :
    exec (.dicRouteSet c) s = .next (answered 0x004 2 c
      (if (dicSrc s (argN c 0)).pending || (dicSrc s (argN c 0)).active then { s with mgt := { s.mgt with
          routeNext := tset none s.mgt.routeNext (argN c 0) (some (BitVec.ofNat 32 (arg c 1).toNat)) } }
        else { s with mgt := { s.mgt with
          routes := tset 0 s.mgt.routes (argN c 0) (BitVec.ofNat 32 (arg c 1).toNat) } }) []) := by
  have hown : ¬ argN c 0 < 128 ∧ ¬ argN c 0 < 256 := by omega
  refine congrArg Host.Outcome.next (serve_ok hserved ?_)
  rw [checked_pass (by simp [Nat.not_lt.mpr hlast, hword, hlow, Nat.not_lt.mpr htarget, hmanager, hown])]
  cases (dicSrc s (argN c 0)).pending || (dicSrc s (argN c 0)).active <;> rfl

theorem exec_dicStatus (hserved : Served 0x005 1 isMgmtRadio c s) (htarget : argN c 0 ≤ 19) :
    exec (.dicStatus c) s = .next (answered 0x005 1 c s ([w64 (dicCoreReg (dicCore s (argN c 0)))] ++
      pack32 ((List.range 16).map (dicStackReg (dicCore s (argN c 0)))) ++ [w64 (dicCounts s)])) := by
  refine congrArg Host.Outcome.next (serve_ok hserved (checked_pass ?_))
  simp [Nat.not_lt.mpr htarget]

/-! ### Doorbells (R379, R381) -/

/-- A doorbell's value that is a source number rings that source, if its route is valid. -/
theorem exec_dicDoorbell_of_route {n : Nat} (hup : Up s) (hn : n < 4096) (hvalid : bitOf (dicRoute s n) 31 = true)
    (sl : Nat) : exec (.dicDoorbell sl (BitVec.ofNat 32 n)) s = .next (
      if fld (dicRoute s n) 30 25 != sl then dicDrop s true
      else if !(dicSrc s n).pending && !(dicSrc s n).active then setDicSrc s n { dicSrc s n with pending := true }
      else setDicSrc s n { dicSrc s n with
        count := Nat.min 255 ((dicSrc s n).count + 1)
        sat := (dicSrc s n).sat || (dicSrc s n).count == 255
        rearm := (dicSrc s n).rearm || (dicSrc s n).active }) := by
  have hword : (BitVec.ofNat 32 n).toNat = n := by
    rw [BitVec.toNat_ofNat]
    omega
  have hzero : n / 4096 = 0 := by omega
  have hmod : n % 4096 = n := by omega
  change execDicDoorbell sl (BitVec.ofNat 32 n) s = _
  simp [execDicDoorbell, dicMessage, hup, hword, hzero, hmod, hvalid]

/-! ### Delivery and end of interrupt (R381, R382, R383) -/

@[simp] theorem dicCore_setDicSrc (s : State) (n t : Nat) (v : DicSrc) : dicCore (setDicSrc s n v) t = dicCore s t := rfl
@[simp] theorem dicSrc_setDicCore (s : State) (t n : Nat) (v : DicCore) : dicSrc (setDicCore s t v) n = dicSrc s n := rfl

/-- The first source of a target that takes deliveries, ahead of what stands on the target's stack, is delivered. -/
theorem exec_dicDelivery_of_next {t n prio : Nat} (htarget : t ≤ 19) (hnext : dicNext s t = some (n, prio))
    (henable : (dicCore s t).enable = true) (hrun : (dicCore s t).frozen = false) (hup : dicTargetUp s t = true)
    (htop : ∀ e ∈ (dicCore s t).stack.head?, prio < e.2) :
    exec (.dicDelivery t) s = .next (emit
      (setDicSrc (setDicCore s t { dicCore s t with stack := (n, prio) :: (dicCore s t).stack }) n
        { dicSrc s n with pending := false, active := true }) (.dicInterrupt t n)) := by
  change execDicDelivery t s = _
  simp only [execDicDelivery, hnext, henable, hrun, hup, Nat.not_lt.mpr htarget, decide_false, Bool.not_true,
    Bool.or_self, Bool.false_or]
  cases htop' : (dicCore s t).stack.head? with
  | none => rfl
  | some top =>
    simp only [Nat.not_le.mpr (htop top htop'), decide_false]
    rfl

theorem applyRoute_of_none {n : Nat} (hroute : tget none s.mgt.routeNext n = none) : applyRoute s n = s := by
  simp only [applyRoute, hroute]

/-- An end of interrupt for the source on top of the stack pops it; the source is PENDING again where it was rung
meanwhile. -/
theorem exec_dicEoi_of_top {t n prio : Nat} {rest : List (Nat × Nat)} (htarget : t ≤ 19) (hn : n < 4096)
    (hstack : (dicCore s t).stack = (n, prio) :: rest) (hrun : (dicCore s t).frozen = false)
    (hroute : tget none s.mgt.routeNext n = none) :
    exec (.dicEoi t (BitVec.ofNat 32 n)) s = .next
      (setDicSrc (setDicCore s t { dicCore s t with stack := rest }) n
        { dicSrc s n with active := false, pending := (dicSrc s n).rearm, rearm := false }) := by
  have hword : fld (BitVec.ofNat 32 n) 11 0 = n := by
    simp only [fld, BitVec.toNat_ofNat]
    omega
  change execDicEoi t (BitVec.ofNat 32 n) s = _
  simp only [execDicEoi, hword, hstack, hrun, Nat.not_lt.mpr htarget, if_false]
  exact congrArg Host.Outcome.next (applyRoute_of_none hroute)

theorem exec_dicSrcRead {n : Nat} (hup : Up s) (hn : n ≤ 4095) : exec (.dicSrcRead n) s = .next
    (setDicSrc (emit s (.readValue (dicSrcAddr n) (dicSrcReg (dicSrc s n)))) n { dicSrc s n with count := 0 }) := by
  change execDicSrcRead n s = _
  simp [execDicSrcRead, hup, Nat.not_lt.mpr hn]

end Sys2Proof.Machine

namespace Sys2Proof

open Machine

/-- Settles O51: the checks of each command pass, so it is answered with its effect; a doorbell, a delivery and an end of
interrupt each write the one source, and the last two the target's stack. -/
theorem hostCoresAndInterruptsRun : Obligations.HostCoresAndInterruptsRun := by
  unfold Obligations.HostCoresAndInterruptsRun
  refine ⟨?load, ?loaded, ?stop, ?status, ?exit, ?route, ?dic, ?rung, ?denied, ?delivery, ?eoi, ?read⟩
  case load =>
    exact fun c s hserved => ⟨fun h hchecks hfree => exec_hcLoad_of_pass hserved hchecks hfree,
      fun st hchecks => exec_hcLoad_of_fail hserved hchecks⟩
  case loaded =>
    intro c h s
    refine ⟨hostCore_loadCore s c h, ?_, ?_, fun g hg => ?_, rfl⟩
    · rw [job_loadCore, if_pos rfl]
    · rw [job_loadCore, if_pos rfl]
    · rw [job_loadCore, if_neg hg]
  case stop =>
    exact fun c s hserved hcore hloaded hradio hlive => exec_hcStop_of_loaded hcore hloaded hserved hradio hlive
  case status => exact fun c s hserved hcore hloaded => exec_hcStatus_of_loaded hcore hloaded hserved
  case exit => exact fun k st s hloaded => exec_hcExitCall_of_loaded hloaded st
  case route =>
    intro c s hserved hlast hfirst hword hlow htarget hmanager
    rw [exec_dicRouteSet_of_pass hserved hlast hfirst hword hlow htarget hmanager]
    exact ⟨fun hpending hactive => by simp [hpending, hactive], fun hbusy => by rw [if_pos (by simpa using hbusy)]⟩
  case dic => exact fun c s hserved htarget => exec_dicStatus hserved htarget
  case rung =>
    intro sl n s hup hn hvalid hsleeve hpending hactive
    refine ⟨_, exec_dicDoorbell_of_route hup hn hvalid sl, ?_⟩
    simp +contextual [hsleeve, hpending, hactive]
  case denied =>
    intro sl n s hup hn hvalid hsleeve
    rw [exec_dicDoorbell_of_route hup hn hvalid sl, if_pos (by simpa using hsleeve)]
  case delivery =>
    intro t n prio s htarget hnext henable hrun hup htop
    refine ⟨_, exec_dicDelivery_of_next htarget hnext henable hrun hup htop, ?_, ?_, fun m hm => ?_, rfl, rfl⟩
    · simp
    · simp
    · simp [hm]
  case eoi =>
    intro t n prio rest s htarget hn hstack hrun hroute
    refine ⟨_, exec_dicEoi_of_top htarget hn hstack hrun hroute, ?_⟩
    simp
  case read => exact fun n s hup hn => exec_dicSrcRead hup hn

end Sys2Proof
end

section
/-! PROOFS. The job commands (R192, R193, R199, R202, R369, R372): what a command that names a job may do is decided by
the job alone, and each is answered with its effect. -/

namespace Sys2Proof.Machine

variable {s : State} {c : Cmd}

/-- A command that names a job which its issuer may name passes on to its own checks. -/
theorem firstFail_handleChecks {h : Nat} (hname : NamesJob s c h) (rest : List (Bool × Status)) :
    firstFail (handleChecks s (partyOf c.src) h rest) = firstFail rest := by
  obtain ⟨hh, hst, hown⟩ := hname
  simp [handleChecks, Nat.not_lt.mpr hh, hst, hown]

/-! ### JOB_STATUS (R202) -/

/-- The bring-in estimate of a job that waits is a free value; of another it is 0 (R187). -/
theorem exec_jobStatus_of_held (hserved : Served 0x181 1 isSleeveUser c s) (hname : NamesJob s c (argN c 0))
    (hheld : (job s (argN c 0)).held = true) (hlive : (job s (argN c 0)).ended = false) :
    let j := job s (argN c 0)
    let est := if j.st == .waiting then takeFree s 1 else (0, s)
    exec (.jobStatus c) s = .next (answered 0x181 1 c est.2 ([w64 (jobCode j.st), w64 (jobGen j), 0,
      (j.lastBoundary.map w64).getD 0xFFFFFFFFFFFFFFFF, est.1] ++ counterWords j.ctr)) := by
  obtain ⟨hh, hst, hown⟩ := hname
  refine congrArg Host.Outcome.next (serve_ok hserved ?_)
  rw [checked_pass (by simp [Nat.not_lt.mpr hh, hown, hheld])]
  have hzero : (if (job s (argN c 0)).st == .free || (job s (argN c 0)).ended then (job s (argN c 0)).status
      else 0) = 0 := by
    simp [hst, hlive]
  simp only [hzero]
  rfl

/-! ### The sequence pool (R192, R193) -/

theorem exec_seqJoin {bs : List Byte} (hserved : Served 0x183 5 isSleeveUser c s) (hname : NamesJob s c (argN c 0))
    (hpool : (job s (argN c 0)).tokenBytes ≠ 0)
    (hfresh : ∀ n, (job s (argN c 0)).pool.highest = some n → n < argN c 1)
    (hqueue : ∀ a ∈ (job s (argN c 0)).pool.joins, a.number ≠ argN c 1) (hnum : argN c 1 < 2 ^ 32)
    (htokens : argN c 3 ≤ 2 ^ 20) (hdrain : (job s (argN c 0)).st ≠ .draining) (hend : (job s (argN c 0)).st ≠ .ending)
    (hstep : argN c 4 = 0 ∨ (job s (argN c 0)).lastBoundary = none)
    (hroom : (job s (argN c 0)).pool.seqs.length + (job s (argN c 0)).pool.joins.length < 4096)
    (hread : readArg s (partyOf c.src) c.hostData (arg c 2) 1 = .ok bs) :
    exec (.seqJoin c) s = .next (answered 0x183 5 c (modJob s (argN c 0) fun j => { j with pool := { j.pool with
      joins := j.pool.joins ++
        [{ number := argN c 1, prompt := argN c 2, tokens := argN c 3, step := argN c 4 }] } }) []) := by
  have hseen : (job s (argN c 0)).pool.highest.any (fun m => decide (argN c 1 ≤ m)) = false := by
    cases hhigh : (job s (argN c 0)).pool.highest with
    | none => rfl
    | some m => simpa using hfresh m hhigh
  have hqueued : (job s (argN c 0)).pool.joins.any (fun a => a.number == argN c 1) = false := by
    simpa using hqueue
  refine congrArg Host.Outcome.next (serve_ok hserved ?_)
  rw [checked_pass, hread]
  rw [firstFail_handleChecks hname, firstFail_cons, hseen, hqueued, decide_eq_false (Nat.not_le.mpr hnum),
    decide_eq_false (Nat.not_lt.mpr htokens)]
  rcases hstep with hany | hfirst
  · simp [hpool, hdrain, hend, Nat.not_le.mpr hroom, hany]
  · simp [hpool, hdrain, hend, Nat.not_le.mpr hroom, hfirst]

theorem exec_seqLeave {q : Seq} (hserved : Served 0x184 3 isSleeveUser c s) (hname : NamesJob s c (argN c 0))
    (hq : q ∈ (job s (argN c 0)).pool.seqs) (hnum : q.number = argN c 1)
    (hfirst : (job s (argN c 0)).lastBoundary = none) :
    exec (.seqLeave c) s = .next (answered 0x184 3 c (modJob s (argN c 0) fun j => { j with pool := { j.pool with
      leaves := j.pool.leaves ++ [(argN c 1, argN c 2)] } }) []) := by
  have hruns : (job s (argN c 0)).pool.seqs.any (fun x => x.number == argN c 1) = true :=
    List.any_eq_true.mpr ⟨q, hq, by simp [hnum]⟩
  refine congrArg Host.Outcome.next (serve_ok hserved (checked_pass ?_))
  rw [firstFail_handleChecks hname]
  simp [hruns, hfirst]

/-! ### Snapshots (R199, R202) -/

/-- The word that SNAPSHOT_BEGIN names its target with: a peer that shares a sink with this device, or pages of the
job's sleeve in LPDDR6 that have room for the image (R199). -/
def SnapTargetStands (s : State) (h : Nat) (t : W64) : Prop :=
  if bitOf t 63 then (snapSink s (job s h).owner (fld t 57 48)).isSome = true
  else (let len := snapBytes s h (jobPages s h)
    inWindow (fld t 47 0) len = true ∧ ∀ q ∈ pagesOf (fld t 47 0) len,
      ownValid (ownEntry s q) = true ∧ ownOwner (ownEntry s q) = (job s h).owner ∧
      ownLoc (ownEntry s q) = 2 ∧ ownShared (ownEntry s q) = true)

theorem snapTarget_not_denied {h : Nat} {t : W64} (htarget : SnapTargetStands s h t) :
    (if bitOf t 63 then (snapSink s (job s h).owner (fld t 57 48)).isNone
      else !((pagesOf (fld t 47 0) (snapBytes s h (jobPages s h))).all fun q =>
          let w := ownEntry s q
          ownValid w && ownOwner w == (job s h).owner && ownLoc w == 2 && ownShared w) ||
        !inWindow (fld t 47 0) (snapBytes s h (jobPages s h))) = false := by
  unfold SnapTargetStands at htarget
  split at htarget
  · next hpeer => simpa [hpeer] using htarget
  · next hpeer =>
    obtain ⟨hin, hpages⟩ := htarget
    simpa [hpeer, hin, and_assoc] using hpages

theorem exec_snapshotBegin (hserved : Served 0x185 2 isSleeveUser c s) (hname : NamesJob s c (argN c 0))
    (hdrain : (job s (argN c 0)).st ≠ .draining) (hend : (job s (argN c 0)).st ≠ .ending)
    (hcore : (job s (argN c 0)).core = none) (hsnap : (job s (argN c 0)).snap = none) (hfew : snapshots s < 2)
    (hsize : (jobPages s (argN c 0)).length ≤ 4194304) (htarget : SnapTargetStands s (argN c 0) (arg c 1)) :
    let a := modJob s (argN c 0) fun j => { j with snap := some {
      target := fld (arg c 1) 47 0, peer := if bitOf (arg c 1) 63 then some (fld (arg c 1) 57 48) else none,
      taken := none, total := (jobPages s (argN c 0)).length, copied := 0 } }
    exec (.snapshotBegin c) s = .next (answered 0x185 2 c
      (if atBoundaryHold (job s (argN c 0)) then takeSnapshot a (argN c 0) else a) []) := by
  intro a
  have hhold : atBoundaryHold (job a (argN c 0)) = atBoundaryHold (job s (argN c 0)) := by
    simp [a, atBoundaryHold]
  refine congrArg Host.Outcome.next (serve_ok hserved ?_)
  rw [checked_pass, ← hhold]
  rw [firstFail_handleChecks hname]
  simp only [firstFail_cons, snapTarget_not_denied htarget]
  simp [hdrain, hend, hcore, hsnap, Nat.not_le.mpr hfew, Nat.not_lt.mpr hsize]

section SnapshotStatus

variable {n : Snap} (hserved : Served 0x186 1 isSleeveUser c s) (hname : NamesJob s c (argN c 0))
  (hsnap : (job s (argN c 0)).snap = some n)

include hserved hname hsnap

theorem exec_snapshotStatus_of_armed (htaken : n.taken = none) :
    exec (.snapshotStatus c) s = .next (answered 0x186 1 c s [0, w64 n.total]) := by
  refine congrArg Host.Outcome.next (serve_ok hserved ?_)
  rw [checked_pass (by simp [firstFail_handleChecks hname, hsnap])]
  simp [hsnap, htaken]

theorem exec_snapshotStatus_of_draining (htaken : n.taken.isSome = true) :
    exec (.snapshotStatus c) s = .next (answered 0x186 1 c (takeFree s 2).2
      [w64 ((takeFree s 2).1.toNat % (n.total + 1)),
       w64 (n.total - (takeFree s 2).1.toNat % (n.total + 1))]) := by
  have hnone : n.taken.isNone = false := by
    rw [← Option.not_isSome, htaken]
    rfl
  refine congrArg Host.Outcome.next (serve_ok hserved ?_)
  rw [checked_pass (by simp [firstFail_handleChecks hname, hsnap])]
  simp only [hsnap, hnone]
  rfl

end SnapshotStatus

end Sys2Proof.Machine

namespace Sys2Proof

open Machine

/-- Settles O22: a command that names a job of its issuer goes on to its own checks, which pass, and is answered with its
effect. -/
theorem jobCommandsComplete : Obligations.JobCommandsComplete := by
  unfold Obligations.JobCommandsComplete
  refine ⟨?status, ?waiting, ?join, ?leave, ?snapshot, ?armed, ?draining⟩
  case status =>
    intro c s hserved hname hheld hst hlive
    have hexec := exec_jobStatus_of_held hserved hname hheld hlive
    simpa [hst] using hexec
  case waiting =>
    intro c s hserved hname hheld hst hlive
    have hexec := exec_jobStatus_of_held hserved hname hheld hlive
    simpa [hst, jobCode, w64] using hexec
  case join =>
    exact fun c bs s hserved hname hpool hfresh hqueue hnum htokens hdrain hend hstep hroom hread =>
      exec_seqJoin hserved hname hpool hfresh hqueue hnum htokens hdrain hend hstep hroom hread
  case leave => exact fun c q s hserved hname hq hnum hfirst => exec_seqLeave hserved hname hq hnum hfirst
  case snapshot =>
    exact fun c s hserved hname hdrain hend hcore hsnap hfew hsize htarget =>
      exec_snapshotBegin hserved hname hdrain hend hcore hsnap hfew hsize htarget
  case armed => exact fun c n s hserved hname hsnap htaken => exec_snapshotStatus_of_armed hserved hname hsnap htaken
  case draining =>
    exact fun c n s hserved hname hsnap htaken => exec_snapshotStatus_of_draining hserved hname hsnap htaken

end Sys2Proof
end

section
/-! PROOFS. Teardown (R189, R197, R198, R202, R221): what the records, the completions and the abandoned work of a
teardown leave of jobs and sleeves, and how cancel, drain and timeout go. -/

namespace Sys2Proof.Machine

variable {s t u : State} {h : Nat}

/-! ### What posting and completing leave alone -/

/-- The sleeves of t stand as in s, with the submissions that wait on each. -/
def SameSleeves (s t : State) : Prop :=
  ∀ k, (sleeve t k).st = (sleeve s k).st ∧ (sleeve t k).submits = (sleeve s k).submits

/-- t has the jobs of s, and its sleeves stand as in s. -/
def QueueFrame (s t : State) : Prop := t.jobs = s.jobs ∧ SameSleeves s t

namespace QueueFrame

theorem refl (s : State) : QueueFrame s s := ⟨rfl, fun _ => ⟨rfl, rfl⟩⟩

theorem trans (hst : QueueFrame s t) (htu : QueueFrame t u) : QueueFrame s u :=
  ⟨htu.1.trans hst.1, fun k => ⟨(htu.2 k).1.trans (hst.2 k).1, (htu.2 k).2.trans (hst.2 k).2⟩⟩

theorem foldl {β : Type} {f : State → β → State} (hf : ∀ s b, QueueFrame s (f s b)) (l : List β) (s : State) :
    QueueFrame s (l.foldl f s) :=
  List.foldlRecOn (motive := QueueFrame s) l f (refl s) fun _ h b _ => h.trans (hf _ b)

theorem job (h : QueueFrame s t) (g : Nat) : job t g = job s g := by
  simp only [Machine.job, h.1]

end QueueFrame

theorem SameJobs.queueFrame (h : SameJobs s t) : QueueFrame s t :=
  ⟨h.1, fun k => by simp only [sleeve, h.2, and_self]⟩

/-- A write of a sleeve that keeps its state and its waiting submissions. -/
theorem queueFrame_modSleeve (s : State) (k : Nat) {f : Sleeve → Sleeve} (hst : ∀ v, (f v).st = v.st)
    (hsub : ∀ v, (f v).submits = v.submits) : QueueFrame s (modSleeve s k f) := by
  refine ⟨rfl, fun x => ?_⟩
  rw [sleeve_modSleeve]
  split
  · exact ⟨hst _, hsub _⟩
  · exact ⟨rfl, rfl⟩

theorem queueFrame_emit (s : State) (o : Out) : QueueFrame s (emit s o) := .refl s

theorem queueFrame_msix (s : State) (v : Nat) : QueueFrame s (msix s v) := by
  unfold msix
  split <;> exact .refl s

theorem queueFrame_postEvent (s : State) (kind status sl : Nat) (detail : List W64) :
    QueueFrame s (postEvent s kind status sl detail) := by
  unfold postEvent
  dsimp only
  split
  · exact .refl s
  · exact queueFrame_msix ..

theorem queueFrame_queueFault (s : State) (k : Nat) : QueueFrame s (queueFault s k) :=
  (queueFrame_modSleeve s k (f := fun v => { v with queueFault := true }) (fun _ => rfl) fun _ => rfl).trans
    (queueFrame_postEvent ..)

theorem queueFrame_setBitmapWord (s : State) (v : Sleeve) (i : Nat) (w : W64) :
    QueueFrame s (setBitmapWord s v i w) := by
  unfold setBitmapWord
  split
  · exact (sameJobs_windowWrite ..).queueFrame
  · exact .refl s

theorem queueFrame_markHostDirty (s : State) (k addr len : Nat) : QueueFrame s (markHostDirty s k addr len) := by
  unfold markHostDirty
  dsimp only
  split
  · exact .refl s
  · exact .foldl (fun _ _ => queueFrame_setBitmapWord ..) _ s

theorem queueFrame_hostWrite (s : State) (k addr : Nat) (bytes : List Byte) :
    QueueFrame s (hostWrite s k addr bytes) :=
  (queueFrame_markHostDirty s k addr bytes.length).trans
    (queueFrame_modSleeve (emit _ (.hostWrite k (pasidOf s k) addr bytes)) k (fun _ => rfl) fun _ => rfl)

/-- An entry of one of a sleeve's queues: written, the queue moved on, and the interrupt sent where it is not masked. -/
theorem queueFrame_postEntry (s : State) (o : Out) (k addr : Nat) (bytes : List Byte) {f : Sleeve → Sleeve}
    (hst : ∀ v, (f v).st = v.st) (hsub : ∀ v, (f v).submits = v.submits) (masked : Bool) (v : Nat) :
    QueueFrame s (if masked then modSleeve (hostWrite (emit s o) k addr bytes) k f
      else msix (modSleeve (hostWrite (emit s o) k addr bytes) k f) v) := by
  have hentry := (queueFrame_hostWrite (emit s o) k addr bytes).trans (queueFrame_modSleeve _ k hst hsub)
  split
  · exact hentry
  · exact hentry.trans (queueFrame_msix ..)

theorem queueFrame_postFault (s : State) (k : Nat) (record : List W64) : QueueFrame s (postFault s k record) := by
  unfold postFault
  dsimp only
  split
  · exact .refl s
  · split
    · exact queueFrame_modSleeve s k (fun _ => rfl) fun _ => rfl
    · split
      · exact queueFrame_queueFault s k
      · apply queueFrame_postEntry <;> exact fun _ => rfl

theorem queueFrame_postCq (s : State) (k tag status : Nat) (result : List W64) :
    QueueFrame s (postCq s k tag status result) := by
  unfold postCq
  dsimp only
  split
  · exact .refl s
  · split
    · exact queueFrame_modSleeve s k (fun _ => rfl) fun _ => rfl
    · split
      · exact queueFrame_queueFault s k
      · apply queueFrame_postEntry <;> exact fun _ => rfl

theorem queueFrame_dicMessage (s : State) (sl value : Nat) : QueueFrame s (dicMessage s sl value) := by
  unfold dicMessage dicDrop
  dsimp only
  split_ifs <;> exact .refl s

theorem queueFrame_finish (s : State) (src : Src) (op : Nat) (st : Status) (res : List W64) :
    QueueFrame s (finish s src op st res) := by
  unfold finish
  cases src with
  | mailbox w i =>
    dsimp only
    split
    · exact queueFrame_msix ..
    · split
      · exact queueFrame_dicMessage ..
      · split
        · exact .refl s
        · exact queueFrame_msix ..
  | subq k tag => exact queueFrame_postCq { s with mgt := _ } k tag (statusCode st) res
  | sideband tag => exact .refl s
  | fabric p d tag => exact .refl s

/-- A completion without a result needs no room for one. -/
theorem finishLater_nil (s : State) (src : Src) (st : Status) : finishLater s src st [] =
    finish s src (((s.mgt.accepted.find? (·.src == src)).map (·.opcode)).getD 0) st [] := by
  simp [finishLater, complete]

theorem queueFrame_finishLater (s : State) (src : Src) (st : Status) : QueueFrame s (finishLater s src st []) := by
  rw [finishLater_nil]
  exact queueFrame_finish ..

/-! ### Records of a job (R190, R191, R200, R204) -/

/-- t has the generations of the jobs of s, and its sleeves stand as in s. -/
def RecordFrame (s t : State) : Prop := (∀ g, (job t g).gen = (job s g).gen) ∧ SameSleeves s t

namespace RecordFrame

theorem refl (s : State) : RecordFrame s s := ⟨fun _ => rfl, fun _ => ⟨rfl, rfl⟩⟩

theorem trans (hst : RecordFrame s t) (htu : RecordFrame t u) : RecordFrame s u :=
  ⟨fun g => (htu.1 g).trans (hst.1 g), fun k => ⟨(htu.2 k).1.trans (hst.2 k).1, (htu.2 k).2.trans (hst.2 k).2⟩⟩

end RecordFrame

theorem QueueFrame.recordFrame (h : QueueFrame s t) : RecordFrame s t := ⟨fun g => by rw [h.job g], h.2⟩

theorem recordFrame_modJob (s : State) (h : Nat) {f : Job → Job} (hgen : ∀ j, (f j).gen = j.gen) :
    RecordFrame s (modJob s h f) := by
  refine ⟨fun g => ?_, fun k => ⟨rfl, rfl⟩⟩
  rw [job_modJob]
  split
  · exact hgen _
  · rfl

theorem queueFrame_park (s : State) (addr len : Nat) (w : Waiter) : QueueFrame s (park s addr len w) := by
  unfold park
  dsimp only
  split <;> exact .refl s

theorem sameJobs_devWrite {i : Issuer} {k : Kind} {a : Nat} {bs : List Byte} (h : devWrite s i k a bs = .ok t) :
    SameJobs s t := by
  unfold devWrite at h
  split at h
  · cases h
  · split at h
    · cases h
    · cases h
      exact sameJobs_windowWrite ..

theorem recordFrame_postRecord {record : List W64} (hpost : postRecord s h record = .ok (some t)) :
    RecordFrame s t := by
  unfold postRecord at hpost
  dsimp only at hpost
  split at hpost
  · cases hpost
  · split at hpost
    · cases hpost
    · split at hpost
      · cases hpost
      · next hwrite =>
        cases hpost
        exact (sameJobs_devWrite hwrite).queueFrame.recordFrame.trans (recordFrame_modJob _ h fun _ => rfl)

theorem queueFrame_postInstead (s : State) (k : Nat) (record : List W64) (b : Bar) :
    QueueFrame s (postInstead s k record b) := by
  unfold postInstead
  split
  · exact queueFrame_postFault { s with pkg := _ } k record
  · exact queueFrame_postFault s k record

/-- A job's last record moves its ring on, waits for its entry's page, or goes to its sleeve's fault queue. -/
theorem recordFrame_postLast (s : State) (h : Nat) (record : List W64) : RecordFrame s (postLast s h record) := by
  unfold postLast
  dsimp only
  split
  · next hpost => exact recordFrame_postRecord hpost
  · exact (queueFrame_postFault _ _ _).recordFrame
  · exact (recordFrame_modJob s h (f := nextRecord) fun _ => rfl).trans (queueFrame_park ..).recordFrame
  · exact (queueFrame_postInstead ..).recordFrame

theorem recordFrame_abandonSnap (s : State) (h status : Nat) : RecordFrame s (abandonSnap s h status) := by
  unfold abandonSnap
  dsimp only
  split
  · exact .refl s
  · refine .trans ?_ (recordFrame_postLast ..)
    exact recordFrame_modJob s h fun _ => rfl

theorem abandonSnap_of_none (hsnap : (job s h).snap = none) (status : Nat) : abandonSnap s h status = s := by
  simp only [abandonSnap, hsnap]

/-! ### The beginning of a teardown (R198 steps 1 to 3) -/

theorem queueFrame_capture (s : State) (d : Dispute) (verdict : Nat) : QueueFrame s (capture s d verdict) := by
  have hreport : QueueFrame s (if candidatesBad s then reportUnreadable s 3488 else s) := by
    split
    · exact SameJobs.queueFrame ⟨raise_jobs .., raise_slv ..⟩
    · exact .refl s
  unfold capture
  dsimp only
  split
  · exact hreport
  · exact hreport

theorem queueFrame_zeroReferee (s : State) (d : Dispute) : QueueFrame s (zeroReferee s d) := by
  have hbuffer : QueueFrame s (d.buffer.elim s fun b => physZero s (stagingKey b) (2 ^ 20)) := by
    cases d.buffer <;> exact .refl s
  exact hbuffer.trans (.foldl (f := fun s r => physZero s (scratchKey s (r % 16)) (2 ^ 20)) (fun s _ => .refl s) d.refs _)

theorem queueFrame_abandonDispute (s : State) (d : Dispute) : QueueFrame s (abandonDispute s d) := by
  have hcapture : QueueFrame s (if d.mandatory || d.st == .replay then s else capture s d 0) := by
    split
    · exact .refl s
    · exact queueFrame_capture ..
  unfold abandonDispute
  dsimp only
  split <;> exact hcapture.trans (queueFrame_zeroReferee ..)

theorem queueFrame_abandonDisputes (s : State) (h : Nat) : QueueFrame s (abandonDisputes s h) :=
  .foldl queueFrame_abandonDispute (s.lin.disputes.filter fun d => d.job == h && !d.radio) s

theorem queueFrame_stopSlots (s : State) (cs : List (Nat × Nat)) : QueueFrame s (cs.foldl stopSlot s) :=
  .foldl (f := stopSlot) (fun s _ => .refl s) cs s

theorem queueFrame_fabricJobFault (s : State) (h status : Nat) : QueueFrame s (fabricJobFault s h status) := by
  unfold fabricJobFault
  split
  · exact .refl s
  · dsimp only
    split <;> exact .refl s

/-- What a teardown stops before its job drains: a snapshot, the job's referees and its contexts (R151, R198, R200). -/
def stopWork (s : State) (h : Nat) : State :=
  let s := abandonSnap s h (if (job s h).snap.any (·.lost) then statusCode .targetLost else statusCode .notQuiesced)
  let s := abandonDisputes s h
  (jobSlots s h).foldl stopSlot s

theorem recordFrame_stopWork (s : State) (h : Nat) : RecordFrame s (stopWork s h) :=
  (recordFrame_abandonSnap s h _).trans ((queueFrame_abandonDisputes _ h).trans (queueFrame_stopSlots _ _)).recordFrame

theorem beginTeardown_of_live (hfree : (job s h).st ≠ .free) (hdrain : (job s h).st ≠ .draining) (status kind : Nat)
    (waiter : Option Src) : beginTeardown s h status kind waiter =
      fabricJobFault (modJob (stopWork s h) h fun j => { j with
        st := .draining, gen := (j.gen + 1) % 256, torn := true, holds := [], cadence := none, status := status
        tear := some { status := status, kind := kind, startRaw := now (stopWork s h), waiter := waiter } }) h status := by
  have hlive : ((job s h).st == .free || (job s h).st == .draining) = false := by simp [hfree, hdrain]
  simp only [beginTeardown, hlive]
  rfl

/-- A teardown that begins makes the job DRAINING under its next generation, with no cause to be held left. -/
theorem beginTeardown_effect (hfree : (job s h).st ≠ .free) (hdrain : (job s h).st ≠ .draining) (status kind : Nat)
    (waiter : Option Src) :
    let t := beginTeardown s h status kind waiter
    (job t h).st = .draining ∧ (job t h).gen = ((job s h).gen + 1) % 256 ∧ (job t h).holds = [] ∧
      ∀ g ≠ h, (job t g).gen = (job s g).gen := by
  obtain ⟨hgen, -⟩ := recordFrame_stopWork s h
  have hjob := fun x => (queueFrame_fabricJobFault x h status).job
  dsimp only
  simp only [beginTeardown_of_live hfree hdrain, hjob, job_modJob, if_pos, hgen, true_and]
  exact fun g hg => by rw [if_neg hg, hgen]

/-! ### JOB_CANCEL (R198, R202) -/

section Cancel

variable {c : Cmd} (hserved : Served 0x182 2 isSleeveUser c s) (hname : NamesJob s c (argN c 0))
  (hdrain : (job s (argN c 0)).st ≠ .draining) (hend : (job s (argN c 0)).st ≠ .ending)

include hserved hname hdrain hend

theorem exec_jobCancel_of_gen (hgen : (job s (argN c 0)).gen = argN c 1) :
    exec (.jobCancel c) s = .next (beginTeardown (journal s c.src 0x182) (argN c 0) 0 2 (some c.src)) := by
  refine congrArg Host.Outcome.next (serve_defer (f := fun s =>
    beginTeardown s (argN c 0) 0 2 (some c.src)) hserved (checked_pass ?_))
  rw [firstFail_handleChecks hname]
  simp [hdrain, hend, hgen]

theorem exec_jobCancel_of_stale (hgen : (job s (argN c 0)).gen ≠ argN c 1) :
    exec (.jobCancel c) s = .next (finish s c.src 0x182 .staleGeneration []) := by
  refine congrArg Host.Outcome.next (serve_fail hserved (checked_fail ?_))
  rw [firstFail_handleChecks hname]
  simp [hdrain, hend, hgen]

end Cancel

/-! ### TEARDOWN_DRAIN_DONE (R198 steps 5 to 7) -/

theorem exec_teardownDrainDone_of_drained (hst : (job s h).st = .draining ∨ (job s h).st = .ending)
    (hdone : jobDrained s h = true) :
    exec (.teardownDrainDone h) s = .next (retrySubmits (finishTeardown s h) (job s h).owner) := by
  have hlive : ((job s h).st == .draining || (job s h).st == .ending) = true := by simpa using hst
  change execTeardownDrainDone h s = _
  simp [execTeardownDrainDone, hlive, hdone]

theorem queueFrame_taskBoundary (s : State) (n : Nat) : QueueFrame s (taskBoundary s n) := by
  unfold taskBoundary
  split
  · have htake := throttleFrame_takeThrottle s n
    exact (SameJobs.queueFrame ⟨htake.jobs, htake.slv⟩ : QueueFrame s (takeThrottle s n))
  · exact .refl s

theorem queueFrame_dropFrame (s : State) (loc frame : Nat) : QueueFrame s (dropFrame s loc frame) := by
  unfold dropFrame
  dsimp only
  split <;> exact .refl s

theorem queueFrame_dropPage (s : State) (k page : Nat) : QueueFrame s (dropPage s k page) := by
  have hframe : QueueFrame s (if (pageHome s page).1 == 0 then s else
      dropFrame s (pageHome s page).1 (pageHome s page).2) := by
    split
    · exact .refl s
    · exact queueFrame_dropFrame ..
  exact hframe.trans (queueFrame_modSleeve _ k (fun _ => rfl) fun _ => rfl)

theorem queueFrame_dropPages (s : State) (k : Nat) (ps : List Nat) : QueueFrame s (dropPages s k ps) :=
  .foldl (fun s p => queueFrame_dropPage s k p) ps s

theorem queueFrame_fabricJobFree (s : State) (h : Nat) : QueueFrame s (fabricJobFree s h) := .refl s

/-- A sleeve that is neither RESETTING nor REMOVING has nothing to settle. -/
theorem settleSleeve_of_active {k : Nat} (hst : (sleeve s k).st = .active) : settleSleeve s k = s := by
  unfold settleSleeve
  rw [hst]
  split <;> rfl

/-- Step 6 of a teardown: the job's partitions, slots and pages are given back, and what a host core kept of it. -/
def giveBack (s : State) (h : Nat) : State :=
  let j := job s h
  let cs := jobSlots s h
  let s := cs.foldl releaseSlot (cs.foldl zeroPartition s)
  let s := dropPages s j.owner (((sleeve s j.owner).pages.filter (·.job == some h)).map (·.page) ++ j.stranded)
  match j.core with
  | some k => taskBoundary (setHostCore s k {}) (unitDomain (96 + k))
  | none => s

theorem queueFrame_giveBack (s : State) (h : Nat) : QueueFrame s (giveBack s h) := by
  have hzero : QueueFrame s ((jobSlots s h).foldl zeroPartition s) :=
    .foldl (f := zeroPartition) (fun s _ => .refl s) _ s
  have hfree := hzero.trans (.foldl (f := releaseSlot) (fun s _ => .refl s) (jobSlots s h) _)
  unfold giveBack
  dsimp only
  split
  · next k _ =>
    exact (hfree.trans (queueFrame_dropPages ..)).trans (queueFrame_taskBoundary (setHostCore _ k {}) _)
  · exact hfree.trans (queueFrame_dropPages ..)

/-- The job at the end of its teardown (R198 step 7): its handle is FREE. -/
def Job.freed (j : Job) (status : Nat) : Job :=
  { j with
    st := .free, tear := none, ctxs := [], core := none, pool := {}, snap := none, saved := []
    status := status, savePages := [], unposted := [], boundary := none, stranded := [] }

/-- A job ended counts for its sleeve (R226). -/
def countEnded (s : State) (k : Nat) : State :=
  modSleeve s k fun v => { v with acct := { v.acct with
    jobsEnded := Nat.min 0xFFFFFFFF (v.acct.jobsEnded + 1)
    sat := v.acct.sat || v.acct.jobsEnded == 0xFFFFFFFF } }

theorem queueFrame_countEnded (s : State) (k : Nat) : QueueFrame s (countEnded s k) :=
  queueFrame_modSleeve s k (fun _ => rfl) fun _ => rfl

/-- The last record of a job whose pages are given back, unless it has been posted before (R191, R204). -/
def postEnd (s : State) (h : Nat) (j : Job) (record : List W64) : State :=
  if j.ended then s else if j.core.isSome then postFault s j.owner record else postLast s h record

/-- The command that a teardown answers is completed (R198, R202). -/
def answerTeardown (s : State) (d : Teardown) : State :=
  match d.waiter with
  | some src => finishLater s src .ok []
  | none => s

/-- A teardown without a snapshot to abandon, whose record's ring can be trusted (R198 steps 6 and 7). -/
theorem finishTeardown_of_tear {d : Teardown} (htear : (job s h).tear = some d) (hsnap : (job s h).snap = none)
    (hring : ringBad s (job s h).owner (complAddr (job s h) (job s h).complTail) = false) :
    ∃ record, finishTeardown s h = settleSleeve (fabricJobFree (answerTeardown (countEnded (modJob
      (postEnd (giveBack s h) h (job s h) record) h fun j => j.freed d.status) (job s h).owner) d) h)
        (job s h).owner := by
  have hbad : (!(job s h).ended && (job s h).core.isNone &&
      ringBad s (job s h).owner (complAddr (job s h) (job s h).complTail)) = false := by
    rw [hring, Bool.and_false]
  unfold finishTeardown
  simp only [abandonSnap_of_none hsnap, htear, hbad]
  exact ⟨_, rfl⟩

theorem recordFrame_postEnd (s : State) (h : Nat) (j : Job) (record : List W64) :
    RecordFrame s (postEnd s h j record) := by
  unfold postEnd
  split
  · exact .refl s
  · split
    · exact (queueFrame_postFault ..).recordFrame
    · exact recordFrame_postLast ..

theorem queueFrame_answerTeardown (s : State) (d : Teardown) : QueueFrame s (answerTeardown s d) := by
  unfold answerTeardown
  split
  · exact queueFrame_finishLater ..
  · exact .refl s

/-- The handle is FREE with the teardown's status; the sleeve stands as before. -/
theorem finishTeardown_effect {d : Teardown} (htear : (job s h).tear = some d) (hsnap : (job s h).snap = none)
    (hring : ringBad s (job s h).owner (complAddr (job s h) (job s h).complTail) = false)
    (hactive : (sleeve s (job s h).owner).st = .active) :
    (∃ j : Job, job (finishTeardown s h) h = j.freed d.status) ∧ SameSleeves s (finishTeardown s h) := by
  obtain ⟨record, hend⟩ := finishTeardown_of_tear htear hsnap hring
  obtain ⟨-, hposted⟩ := (queueFrame_giveBack s h).recordFrame.trans (recordFrame_postEnd _ h (job s h) record)
  have hdone := (queueFrame_countEnded (modJob (postEnd (giveBack s h) h (job s h) record) h fun j =>
    j.freed d.status) (job s h).owner).trans ((queueFrame_answerTeardown _ d).trans (queueFrame_fabricJobFree _ h))
  have hsleeves : SameSleeves s _ := fun k => ⟨(hdone.2 k).1.trans (hposted k).1, (hdone.2 k).2.trans (hposted k).2⟩
  rw [hend, settleSleeve_of_active ((hsleeves _).1.trans hactive)]
  refine ⟨⟨job (postEnd (giveBack s h) h (job s h) record) h, (hdone.job h).trans ?_⟩, hsleeves⟩
  rw [job_modJob, if_pos rfl]

/-- With no submission that waits for pages nothing is tried again. -/
theorem job_retrySubmits_of_none {k : Nat} (hnone : (sleeve s k).submits = []) (g : Nat) :
    job (retrySubmits s k) g = job s g := by
  simp only [retrySubmits, hnone, List.foldl_nil, job_modSleeve_frame]

/-! ### TEARDOWN_TIMEOUT (R198, R221) -/

theorem exec_teardownTimeout_of_due {d : Teardown} (htear : (job s h).tear = some d)
    (hdrain : (job s h).st = .draining) (hopen : d.abandoned = false)
    (hdue : s.fab.linkMs * ticksPerMs ≤ since s d.startRaw) (hactive : (sleeve s (job s h).owner).st = .active) :
    let j := job s h
    let record := recWords s j h (jobGen j) 2 (statusCode .timeout) j.step j.faultAddr j.faultUnit 0 []
    let a := if j.core.isSome then postFault s j.owner record else postLast s h record
    exec (.teardownTimeout h) s = .next (sleeveResetOp (modJob a h fun j => { j with
      status := statusCode .timeout, ended := true,
      tear := some { d with status := statusCode .timeout, kind := 2, abandoned := true } }) j.owner .timeout none) := by
  intro j record a
  have hposted : RecordFrame s a := by
    dsimp only [a]
    split
    · exact (queueFrame_postFault ..).recordFrame
    · exact recordFrame_postLast ..
  have hst : (sleeve a j.owner).st = .active := (hposted.2 j.owner).1.trans hactive
  have hgoes : ((job s h).st != .draining || d.abandoned ||
      decide (since s d.startRaw < s.fab.linkMs * ticksPerMs)) = false := by
    simp [hdrain, hopen, Nat.not_lt.mpr hdue]
  change execTeardownTimeout h s = _
  dsimp only [a, record, j] at hst
  simp only [execTeardownTimeout, htear, hgoes, Bool.false_eq_true, if_false, sleeve_modJob_frame, hst]
  rfl

end Sys2Proof.Machine

namespace Sys2Proof

open Machine

/-- Settles O21: a record, a completion or abandoned work leaves the generations of the jobs and the states of the
sleeves alone, so a teardown goes through from its first step to its last. -/
theorem teardownRuns : Obligations.TeardownRuns := by
  unfold Obligations.TeardownRuns
  refine ⟨?cancel, ?stale, ?drained, ?freed, ?timeout⟩
  case cancel =>
    intro c s hserved hname hdrain hend hgen
    have hexec := exec_jobCancel_of_gen hserved hname hdrain hend hgen
    obtain ⟨hst, hnext, hholds, hothers⟩ :=
      beginTeardown_effect (s := journal s c.src 0x182) hname.2.1 hdrain 0 2 (some c.src)
    refine ⟨hexec, _, hexec, hst, ?_, hholds, hothers⟩
    rw [hnext, ← hgen]
    rfl
  case stale => exact fun c s hserved hname hdrain hend hgen => exec_jobCancel_of_stale hserved hname hdrain hend hgen
  case drained => exact fun h s hst hdone => exec_teardownDrainDone_of_drained hst hdone
  case freed =>
    intro h d s hst hdone htear hactive hwaiting hsnap hring
    obtain ⟨⟨j, hjob⟩, hsleeves⟩ := finishTeardown_effect htear hsnap hring hactive
    refine ⟨_, exec_teardownDrainDone_of_drained hst hdone, ?_⟩
    beta_reduce
    rw [job_retrySubmits_of_none ((hsleeves _).2.trans hwaiting), hjob]
    exact ⟨rfl, rfl, rfl, rfl⟩
  case timeout =>
    exact fun h d s htear hdrain hopen hdue hactive => exec_teardownTimeout_of_due htear hdrain hopen hdue hactive

end Sys2Proof
end

section
/-! PROOFS. How a job starts (R183–R187, R198–R201, R344): submission, lowering, placement, and the job of a complete
snapshot. -/

namespace Sys2Proof.Machine

variable {s : State} {c : Cmd} {h : Nat}

/-! ### JOB_SUBMIT (R183, R198) -/

theorem exec_jobSubmit (hserved : Served 0x180 8 isSleeveUser c s) :
    let p := partyOf c.src
    let b := c.args.take 8
    let k := (submitter s p b).getD 0
    exec (.jobSubmit c) s = .next (match submit s p b with
      | .ok (t, n) => answered 0x180 8 c t [w64 n, w64 (job t n).gen]
      | .error (st, lacking) => if lacking = true ∧ drainsPages s k = true
          then modSleeve (journal s c.src 0x180) k fun v => { v with submits := v.submits ++ [(c.src, b)] }
          else finish s c.src 0x180 st []) := by
  change execJobSubmit c s = _
  simp only [execJobSubmit, serve_served hserved]
  cases submit s (partyOf c.src) (c.args.take 8) with
  | ok r => rfl
  | error e =>
    obtain ⟨st, lacking⟩ := e
    dsimp only
    by_cases hwait : lacking = true ∧ drainsPages s ((submitter s (partyOf c.src) (c.args.take 8)).getD 0) = true
    · rw [if_pos hwait, if_pos (Bool.and_eq_true _ _ ▸ hwait)]
    · rw [if_neg hwait, if_neg (Bool.and_eq_true _ _ ▸ hwait)]

/-! ### LOWERING_DONE (R184, R187) -/

/-- A state tensor of a restored job is written where lowering has placed it. -/
def putTensor (ts : List (Nat × Nat)) (s : State) (x : Nat × List Byte) : State :=
  match ts.find? (·.1 == x.1) with
  | some t => windowWrite s t.2 x.2
  | none => s

theorem sameJobs_putTensor (ts : List (Nat × Nat)) (s : State) (x : Nat × List Byte) :
    SameJobs s (putTensor ts s x) := by
  unfold putTensor
  split
  · exact sameJobs_windowWrite ..
  · exact ⟨rfl, rfl⟩

theorem putCarried_eq (s : State) (h : Nat) : putCarried s h =
    modJob ((job s h).carried.foldl (putTensor (job s h).lowered.tensors) s) h fun j => { j with carried := [] } := rfl

theorem owner_putCarried (s : State) (h : Nat) : (job (putCarried s h) h).owner = (job s h).owner := by
  obtain ⟨hjobs, -⟩ := SameJobs.foldl (sameJobs_putTensor (job s h).lowered.tensors) (job s h).carried s
  rw [putCarried_eq, job_modJob, if_pos rfl, job, hjobs, ← job]

theorem putCarried_slv (s : State) (h : Nat) : (putCarried s h).slv = s.slv :=
  (SameJobs.foldl (sameJobs_putTensor (job s h).lowered.tensors) (job s h).carried s).2

section Lowering

variable {o : LowerObs} (hst : (job s h).st = .lowering)

include hst

theorem exec_loweringDone_of_failed (o : LowerObs) :
    exec (.loweringDone h false o) s = .next (beginTeardown s h (statusCode .badField) 1) := by
  change execLoweringDone h false o s = _
  simp [execLoweringDone, hst]

theorem exec_loweringDone_of_bad (hbad : loweringOk s h o = false) : exec (.loweringDone h true o) s = .next s := by
  change execLoweringDone h true o s = _
  simp [execLoweringDone, hst, hbad]

/-- What lowering reports stands: the job waits, and while its sleeve is ACTIVE its weights are brought in. -/
theorem exec_loweringDone_of_ok (hok : loweringOk s h o = true) : exec (.loweringDone h true o) s = .next (
    let t := putCarried (modJob s h fun j => { j with st := .waiting, lowered := o }) h
    if (sleeve s (job s h).owner).st == .active then bringWeights t h else t) := by
  have hsleeve : ∀ t, t = putCarried (modJob s h fun j => { j with st := .waiting, lowered := o }) h →
      sleeve t (job t h).owner = sleeve s (job s h).owner := by
    rintro t rfl
    rw [owner_putCarried, job_modJob, if_pos rfl, sleeve, putCarried_slv, modJob_slv, ← sleeve]
  change execLoweringDone h true o s = _
  simp only [execLoweringDone, hst, hok, hsleeve _ rfl]
  rfl

end Lowering

/-! ### JOB_PLACED (R185, R187, R344) -/

theorem exec_jobPlaced_of_stand {ps : List Place} (hstand : placesStand s h ps = true) (hgood : savedBad s h = false) :
    exec (.jobPlaced h ps) s = .next (
      let t := placeAll s h ps
      let u := if startsAtBarrier (job s h) then arriveBarrier t h 1 0 0 0 else t
      if (job u h).st == .running then continueBoundary u h else u) := by
  change execJobPlaced h ps s = _
  simp only [execJobPlaced, hstand, hgood]
  rfl

theorem exec_jobPlaced_of_unreadable {ps : List Place} (hstand : placesStand s h ps = true)
    (hbad : savedBad s h = true) : exec (.jobPlaced h ps) s = .next (faultJob s h .checkFailed) := by
  change execJobPlaced h ps s = _
  simp [execJobPlaced, hstand, hbad]

theorem exec_jobPlaced_of_not_stand {ps : List Place} (hstand : placesStand s h ps = false)
    (hst : (job s h).st = .waiting) (hsleeve : (sleeve s (job s h).owner).st = .active) :
    exec (.jobPlaced h ps) s = .next (bringWeights s h) := by
  change execJobPlaced h ps s = _
  simp [execJobPlaced, hstand, hst, hsleeve]

theorem st_placeAll (s : State) (h : Nat) (ps : List Place) : (job (placeAll s h ps) h).st = .running := by
  simp [placeAll]

/-! ### SNAPSHOT_RESTORE (R201) -/

section Restore

variable {m : SnapImage} (hserved : Served 0x187 9 isSleeveUser c s) (hread : readSnap s (partyOf c.src) c = .ok m)

include hserved hread

theorem exec_snapshotRestore_of_bad (hbad : m.bad = true) : exec (.snapshotRestore c) s = .next
    (complete (argRead s (partyOf c.src) (arg c 0) m.all.length) c.src 0x187 (arg c 9) .checkFailed []) := by
  change execSnapshotRestore c s = _
  simp only [execSnapshotRestore, serve_served hserved, hread, hbad, if_true]
  rfl

theorem exec_snapshotRestore_of_good (hgood : m.bad = false) :
    let a := argRead s (partyOf c.src) (arg c 0) m.all.length
    exec (.snapshotRestore c) s = .next (match submit a (partyOf c.src) ((c.args.drop 1).take 8) with
      | .error (st, _) => complete a c.src 0x187 (arg c 9) st []
      | .ok (t, n) => if hdrChips (job t n).header ≠ m.chips then complete a c.src 0x187 (arg c 9) .badField []
        else match restoreInto t n m with
          | none => complete a c.src 0x187 (arg c 9) .badField []
          | some u => answered 0x187 9 c u [w64 n, w64 (job u n).gen]) := by
  change execSnapshotRestore c s = _
  simp only [execSnapshotRestore, serve_served hserved, hread, hgood, Bool.false_eq_true, if_false]
  generalize argRead s (partyOf c.src) (arg c 0) m.all.length = a
  cases submit a (partyOf c.src) ((c.args.drop 1).take 8) with
  | error e => rfl
  | ok r =>
    obtain ⟨t, n⟩ := r
    by_cases hchips : hdrChips (job t n).header = m.chips
    · simp only [hchips, bne_self_eq_false, Bool.false_eq_true, ne_eq, not_true, if_false]
      cases restoreInto t n m <;> rfl
    · simp [hchips, Answer.keeping]

end Restore

end Sys2Proof.Machine

namespace Sys2Proof

open Machine

/-- Settles O19: each row does what its checks and the state of the job and its sleeve decide. -/
theorem jobsStart : Obligations.JobsStart := by
  unfold Obligations.JobsStart
  refine ⟨?submit, ?lowering, ?placed, ?unreadable, ?retry, ?restore⟩
  case submit => exact fun c s hserved => exec_jobSubmit hserved
  case lowering =>
    intro h o s hst
    refine ⟨fun hok hactive => ?_, fun hok haway => ?_, exec_loweringDone_of_bad hst, exec_loweringDone_of_failed hst o⟩
    · rw [exec_loweringDone_of_ok hst hok, hactive]
      rfl
    · rw [exec_loweringDone_of_ok hst hok, beq_eq_false_iff_ne.mpr haway]
      rfl
  case placed =>
    intro h ps s hstand hgood t u
    have hrun : (job t h).st = .running := st_placeAll s h ps
    refine ⟨hrun, fun hplain => ?_, fun hbarrier => ?_⟩
    · rw [exec_jobPlaced_of_stand hstand hgood, hplain]
      simp [t, st_placeAll]
    · rw [exec_jobPlaced_of_stand hstand hgood, hbarrier]
      simp [t, u]
  case unreadable => exact fun h ps s hstand hbad => exec_jobPlaced_of_unreadable hstand hbad
  case retry => exact fun h ps s hstand hst hsleeve => exec_jobPlaced_of_not_stand hstand hst hsleeve
  case restore =>
    exact fun c m s hserved hread =>
      ⟨exec_snapshotRestore_of_bad hserved hread, exec_snapshotRestore_of_good hserved hread⟩

end Sys2Proof
end

section
/-! PROOFS. The life of a sleeve (R205, R208–R210, R219–R222): a command that names a sleeve passes on to its own checks,
and its effect is on that sleeve alone. -/

namespace Sys2Proof.Machine

variable {s : State} {c : Cmd} {k : Nat}

/-- A command that names a sleeve which exists passes on to its own checks. -/
theorem firstFail_nameChecks (hname : NamesSleeve s k) (rest : List (Bool × Status)) :
    firstFail (nameChecks s k rest) = firstFail rest := by
  obtain ⟨hzero, hle, hst⟩ := hname
  simp [nameChecks, hzero, Nat.not_lt.mpr hle, hst]

/-! ### SLEEVE_CREATE, SLEEVE_SET, SLEEVE_HOST_RANGE (R208–R210) -/

theorem exec_sleeveCreate_of_pass (hserved : Served 0x100 8 isMgmt c s)
    (hchecks : firstFail (createChecks s (c.args.take 8)) = none) :
    exec (.sleeveCreate c) s = .next (answered 0x100 8 c (setSleeve s (fld (wd (c.args.take 8) 0) 63 58)
      { st := .quiesced, record := c.args.take 8 }) []) :=
  congrArg Host.Outcome.next (serve_ok hserved (checked_pass hchecks))

theorem exec_sleeveCreate_of_fail {st : Status} (hserved : Served 0x100 8 isMgmt c s)
    (hchecks : firstFail (createChecks s (c.args.take 8)) = some st) :
    exec (.sleeveCreate c) s = .next (finish s c.src 0x100 st []) :=
  congrArg Host.Outcome.next (serve_fail hserved (checked_fail hchecks))

theorem exec_sleeveSet {r : List W64} (hserved : Served 0x101 8 isMgmt c s) (hrecord : r = c.args.take 8)
    (hsleeve : k = fld (wd r 0) 63 58) (hname : NamesSleeve s k) (hgood : recordBad s r = false)
    (hpasid : fld (wd r 0) 39 20 = fld (wd (sleeve s k).record 0) 39 20)
    (hqueues : (r.drop 2).take 4 = ((sleeve s k).record.drop 2).take 4)
    (hheld0 : heldPages (sleeve s k) 0 ≤ fld (wd r 1) 63 40) (hheld1 : heldPages (sleeve s k) 1 ≤ fld (wd r 1) 39 16)
    (hquotas : quotasExceed s k r = false) :
    exec (.sleeveSet c) s = .next (answered 0x101 8 c (setSleeve s k { sleeve s k with record := r }) []) := by
  obtain ⟨hzero, -, hst⟩ := hname
  subst hsleeve hrecord
  refine congrArg Host.Outcome.next (serve_ok hserved (checked_pass ?_))
  simp [hzero, hst, hgood, hpasid, hqueues, Nat.not_lt.mpr hheld0, Nat.not_lt.mpr hheld1, hquotas]

theorem exec_sleeveHostRange (hserved : Served 0x102 4 isMgmt c s) (hname : NamesSleeve s (argN c 0))
    (hindex : argN c 1 ≤ 7) (hbase : argN c 2 % 4096 = 0) (hlen : argN c 3 % 4096 = 0)
    (hend : argN c 2 + argN c 3 ≤ 2 ^ 64) (htotal : rangesTotal (sleeve s (argN c 0)) (argN c 1) (argN c 3) ≤ 2 ^ 38)
    (hst : (sleeve s (argN c 0)).st = .quiesced) :
    exec (.sleeveHostRange c) s = .next (answered 0x102 4 c (modSleeve s (argN c 0) fun v => { v with
      ranges := tset (0, 0) v.ranges (argN c 1) (argN c 2, argN c 3) }) []) := by
  refine congrArg Host.Outcome.next (serve_ok hserved (checked_pass ?_))
  rw [firstFail_nameChecks hname]
  simp only [firstFail_cons, hbase, hlen, hst, decide_eq_false (Nat.not_lt.mpr hindex),
    decide_eq_false (Nat.not_lt.mpr hend), decide_eq_false (Nat.not_lt.mpr htotal)]
  rfl

/-! ### SLEEVE_QUIESCE and its end (R219) -/

section Quiesce

variable (hserved : Served 0x103 2 isMgmt c s) (hname : NamesSleeve s (argN c 0)) (hlimit : argN c 1 ≤ 1000)

include hserved hname hlimit

theorem exec_sleeveQuiesce_of_quiesced (hst : (sleeve s (argN c 0)).st = .quiesced) :
    exec (.sleeveQuiesce c) s = .next (answered 0x103 2 c s []) := by
  refine congrArg Host.Outcome.next (serve_ok hserved ?_)
  rw [checked_pass (by simp [firstFail_nameChecks hname, Nat.not_lt.mpr hlimit, hst])]
  simp [hst]

theorem exec_sleeveQuiesce_of_open
    (hst : (sleeve s (argN c 0)).st = .active ∨ (sleeve s (argN c 0)).st = .quiescing) :
    exec (.sleeveQuiesce c) s = .next (holdStanding (modSleeve (journal s c.src 0x103) (argN c 0) fun v => { v with
      st := .quiescing, quiescers := v.quiescers ++ [(c.src, now s + usTicks (1000 * if argN c 1 = 0 then 100 else argN c 1))] })
      (argN c 0)) := by
  have hpass : firstFail (nameChecks s (argN c 0) [(decide (argN c 1 > 1000), .badField),
      ((sleeve s (argN c 0)).st == .resetting || (sleeve s (argN c 0)).st == .removing, .busy)]) = none := by
    rcases hst with hst | hst <;> simp [firstFail_nameChecks hname, Nat.not_lt.mpr hlimit, hst]
  have hopen : ((sleeve s (argN c 0)).st == .quiesced) = false := by
    rcases hst with hst | hst <;> simp [hst]
  change execSleeveQuiesce c s = _
  simp only [execSleeveQuiesce, serve_served hserved, checked_pass hpass, hopen]
  rfl

end Quiesce

theorem exec_quiesceComplete_of_done (hst : (sleeve s k).st = .quiescing) (hdone : quiesceDone s k = true) :
    exec (.quiesceComplete k) s = .next (endQuiesce
      (modSleeve (emit s (.orderingRead k (pasidOf s k))) k fun v => { v with st := .quiesced }) k .ok) := by
  change execQuiesceComplete k s = _
  simp [execQuiesceComplete, hst, hdone]

theorem exec_quiesceTimeout_of_quiescing (hst : (sleeve s k).st = .quiescing) :
    exec (.quiesceTimeout k) s = .next (expireQuiesce s k) := by
  change execQuiesceTimeout k s = _
  simp [execQuiesceTimeout, hst]

/-- Before any limit has passed every SLEEVE_QUIESCE waits on. -/
theorem expireQuiesce_of_early (hearly : ∀ w ∈ (sleeve s k).quiescers, now s < w.2) :
    expireQuiesce s k = modSleeve s k fun v => { v with quiescers := v.quiescers.filter fun w => now s < w.2 } := by
  have hdue : ((sleeve s k).quiescers.filter fun w => decide (w.2 ≤ now s)) = [] :=
    List.filter_eq_nil_iff.2 fun w hw => by simpa using hearly w hw
  simp only [expireQuiesce, hdue, List.foldl_nil]

/-- The only one that waits is answered once its limit has passed. -/
theorem expireQuiesce_of_single {w : Src × Nat} (hwait : (sleeve s k).quiescers = [w]) (hdue : w.2 ≤ now s) :
    expireQuiesce s k = finishLater (modSleeve s k fun v => { v with quiescers := [] }) w.1 .timeout [] := by
  simp [expireQuiesce, modSleeve, hwait, hdue, Nat.not_lt.mpr hdue]

/-! ### SLEEVE_RESUME, SLEEVE_RESET, SLEEVE_REMOVE (R220–R222) -/

theorem exec_sleeveResume (hserved : Served 0x104 1 isMgmt c s) (hname : NamesSleeve s (argN c 0))
    (hcovered : queuesCovered (sleeve s (argN c 0)) = true) (hreset : (sleeve s (argN c 0)).st ≠ .resetting)
    (hremove : (sleeve s (argN c 0)).st ≠ .removing) :
    exec (.sleeveResume c) s = .next (answered 0x104 1 c (releaseSleeve (modSleeve (endQuiesce s (argN c 0) .busy)
      (argN c 0) fun v => { v with st := .active, queueFault := false }) (argN c 0) .quiesce) []) := by
  refine congrArg Host.Outcome.next (serve_ok hserved (checked_pass ?_))
  rw [firstFail_nameChecks hname]
  simp [hcovered, hreset, hremove]

/-- A sleeve that is QUIESCED, or whose issuer forces it, may be reset and removed (R222). -/
theorem firstFail_forceChecks {force : Nat} (hname : NamesSleeve s k) (hforce : force ≤ 1)
    (hready : (sleeve s k).st = .quiesced ∨ force = 1) : firstFail (forceChecks s k force) = none := by
  rw [forceChecks, firstFail_nameChecks hname]
  rcases hready with hst | hforced
  · simp [Nat.not_lt.mpr hforce, hst]
  · simp [hforced]

theorem exec_sleeveReset (hserved : Served 0x105 2 isMgmt c s) (hname : NamesSleeve s (argN c 0))
    (hforce : argN c 1 ≤ 1) (hready : (sleeve s (argN c 0)).st = .quiesced ∨ argN c 1 = 1) :
    exec (.sleeveReset c) s = .next (sleeveResetOp (journal s c.src 0x105) (argN c 0) .ok (some c.src)) :=
  congrArg Host.Outcome.next (serve_defer (f := fun s => sleeveResetOp s (argN c 0) .ok (some c.src)) hserved
    (checked_pass (firstFail_forceChecks hname hforce hready)))

/-- A removal begins: what waits on the sleeve gives way, and its jobs are torn down (R221, R222). -/
def beginRemove (s : State) (k : Nat) (src : Src) : State :=
  let a := modSleeve (giveWay s k) k fun v => { v with st := .removing, removing := some src }
  settleSleeve ((liveJobs a k).foldl (fun s h => beginTeardown s h 0 2) a) k

theorem exec_sleeveRemove (hserved : Served 0x106 2 isMgmt c s) (hname : NamesSleeve s (argN c 0))
    (hforce : argN c 1 ≤ 1) (hready : (sleeve s (argN c 0)).st = .quiesced ∨ argN c 1 = 1) :
    exec (.sleeveRemove c) s = .next (beginRemove (journal s c.src 0x106) (argN c 0) c.src) :=
  congrArg Host.Outcome.next (serve_defer (f := fun s => beginRemove s (argN c 0) c.src) hserved
    (checked_pass (firstFail_forceChecks hname hforce hready)))

end Sys2Proof.Machine

namespace Sys2Proof

open Machine

/-- Settles O23: the checks of each command pass, so it has its effect on the sleeve that it names, and a limit that
passes ends only the waits that it belongs to. -/
theorem sleeveStates : Obligations.SleeveStates := by
  unfold Obligations.SleeveStates
  refine ⟨?create, ?refused, ?set, ?range, ?quiesced, ?quiesce, ?complete, ?timeout, ?early, ?due, ?resume, ?reset,
    ?remove⟩
  case create => exact fun c s hserved hchecks => exec_sleeveCreate_of_pass hserved hchecks
  case refused => exact fun c st s hserved hchecks => exec_sleeveCreate_of_fail hserved hchecks
  case set =>
    exact fun c k r s hserved hrecord hsleeve hname hgood hpasid hqueues hheld0 hheld1 hquotas =>
      exec_sleeveSet hserved hrecord hsleeve hname hgood hpasid hqueues hheld0 hheld1 hquotas
  case range =>
    exact fun c s hserved hname hindex hbase hlen hend htotal hst =>
      exec_sleeveHostRange hserved hname hindex hbase hlen hend htotal hst
  case quiesced => exact fun c s hserved hname hlimit hst => exec_sleeveQuiesce_of_quiesced hserved hname hlimit hst
  case quiesce => exact fun c s hserved hname hlimit hst => exec_sleeveQuiesce_of_open hserved hname hlimit hst
  case complete => exact fun k s hst hdone => exec_quiesceComplete_of_done hst hdone
  case timeout => exact fun k s hst => exec_quiesceTimeout_of_quiescing hst
  case early =>
    intro k s hst hearly
    have hall : ((sleeve s k).quiescers.filter fun w => decide (now s < w.2)) = (sleeve s k).quiescers :=
      List.filter_eq_self.2 fun w hw => decide_eq_true (hearly w hw)
    refine ⟨_, exec_quiesceTimeout_of_quiescing hst, ?_⟩
    rw [expireQuiesce_of_early hearly]
    simp [hst, hall]
  case due =>
    intro k w s hst hwait hdue
    rw [exec_quiesceTimeout_of_quiescing hst, expireQuiesce_of_single hwait hdue]
  case resume =>
    exact fun c s hserved hname hcovered hreset hremove => exec_sleeveResume hserved hname hcovered hreset hremove
  case reset => exact fun c s hserved hname hforce hready => exec_sleeveReset hserved hname hforce hready
  case remove => exact fun c s hserved hname hforce hready => exec_sleeveRemove hserved hname hforce hready

end Sys2Proof
end

section
/-! PROOFS. The doorbell page and the submission queues (R206, R215–R218, R371, R375): a doorbell changes one field of its
own sleeve, and an entry fetched is run as the command that its opcode names. -/

namespace Sys2Proof.Machine

variable {s : State} {k : Nat}

/-! ### Doorbells (R215, R218) -/

theorem cxlUp_of_doorbellUp (hup : doorbellUp s k = true) : s.mgt.cxlUp = true := by
  obtain ⟨⟨⟨hlink, -⟩, -⟩, -⟩ := by simpa only [doorbellUp, Bool.and_eq_true] using hup
  exact hlink

section Doorbells

variable (hup : doorbellUp s k = true)

include hup

theorem doorbellWrite_of_lt {v : W32} {hi lo : Nat} {f : Sleeve → Nat → Sleeve}
    (hindex : fld v 15 0 < qEntries (sleeve s k) hi lo) :
    doorbellWrite s k v hi lo f = modSleeve s k fun x => f x (fld v 15 0) := by
  simp [doorbellWrite, hup, Nat.not_le.mpr hindex]

theorem doorbellWrite_of_le {v : W32} {hi lo : Nat} {f : Sleeve → Nat → Sleeve}
    (hindex : qEntries (sleeve s k) hi lo ≤ fld v 15 0) :
    doorbellWrite s k v hi lo f = modSleeve s k fun x => { x with dbError := true } := by
  simp [doorbellWrite, hup, hindex]

theorem exec_cqHeadWrite_of_lt {v : W32} (hindex : fld v 15 0 < qEntries (sleeve s k) 47 32) :
    exec (.cqHeadWrite k v) s = .next (flushCq (modSleeve s k fun x => { x with cqHead := fld v 15 0 }) k) := by
  change execCqHeadWrite k v s = _
  rw [execCqHeadWrite, doorbellWrite_of_lt hup hindex]

theorem exec_doorbellStateRead_of_up : exec (.doorbellStateRead k) s = .next (modSleeve
    (emit s (.readValue (doorbellAddr k + 0xC) (doorbellState (sleeve s k)))) k fun v => { v with dbError := false }) := by
  change execDoorbellStateRead k s = _
  simp [execDoorbellStateRead, hup, cxlUp_of_doorbellUp hup]

theorem exec_fqLostRead_of_up : exec (.fqLostRead k) s = .next (modSleeve
    (emit s (.readValue (doorbellAddr k + 0x10) (sleeve s k).fqLost.count)) k
      fun v => { v with fqLost := { v.fqLost with count := 0 } }) := by
  change execFqLostRead k s = _
  simp [execFqLostRead, hup, cxlUp_of_doorbellUp hup]

end Doorbells

/-- A write of one sleeve leaves the others alone. -/
theorem sleeve_modSleeve_other (s : State) {j k : Nat} (hne : j ≠ k) (f : Sleeve → Sleeve) :
    sleeve (modSleeve s k f) j = sleeve s j := by
  rw [sleeve_modSleeve, if_neg hne]

theorem sleeve_modSleeve_same (s : State) (k : Nat) (f : Sleeve → Sleeve) :
    sleeve (modSleeve s k f) k = f (sleeve s k) := by
  rw [sleeve_modSleeve, if_pos rfl]

/-- With no completion that waits for room, room lets nothing out. -/
theorem flushCq_of_empty (hempty : (sleeve s k).backlog = []) :
    flushCq s k = modSleeve s k fun v => { v with backlog := [] } := by
  simp only [flushCq, hempty, List.foldl_nil]

/-! ### SUBMISSION_FETCH (R216, R218, R371, R375) -/

/-- Every command that an opcode names runs to its end, a reserved one among them (R375). -/
theorem runCommand_next (op : Nat) (c : Cmd) (s : State) : ∃ t, runCommand op c s = .next t := by
  unfold runCommand
  split_ifs
  · unfold mgmtCommand
    split <;> exact ⟨_, rfl⟩
  · unfold sleeveCommand
    split <;> exact ⟨_, rfl⟩
  · unfold jobCommand
    split <;> exact ⟨_, rfl⟩
  · unfold radioCommand
    split <;> exact ⟨_, rfl⟩
  · unfold powerCommand
    split <;> exact ⟨_, rfl⟩
  · unfold liningCommand
    split <;> exact ⟨_, rfl⟩
  · unfold fronthaulCommand
    split <;> exact ⟨_, rfl⟩
  · unfold fabricCommand
    split <;> exact ⟨_, rfl⟩
  · unfold healthCommand
    split <;> exact ⟨_, rfl⟩
  · unfold bootCommand
    split <;> exact ⟨_, rfl⟩
  · exact ⟨_, rfl⟩

section Fetch

variable {e : List W64} {data : List Byte} (hfetch : fetches s k = true)

include hfetch

theorem exec_submissionFetch_of_none : exec (.submissionFetch k none data) s = .next (queueFault s k) := by
  change execSubmissionFetch k none data s = _
  simp [execSubmissionFetch, hfetch]

/-- An entry that the host answers from within the sleeve's ranges is accepted and run. -/
theorem exec_submissionFetch_of_some (hreach : hostReachable s = true)
    (hrange : inHostRange (sleeve s k) ((wd (sleeve s k).record 2).toNat + 128 * (sleeve s k).sqHead) 128 = true) :
    let a := hostRead (modSleeve s k fun v => { v with sqHead := (v.sqHead + 1) % qEntries v 63 48 }) k
      ((wd (sleeve s k).record 2).toNat + 128 * (sleeve s k).sqHead) 128
    let src := Src.subq k (fld (wd e 0) 31 0)
    exec (.submissionFetch k (some e) data) s = runCommand (fld (wd e 0) 63 48)
      { src := src, args := (List.range 15).map fun i => wd e (i + 1), hostData := data }
      { a with mgt := { a.mgt with accepted := a.mgt.accepted ++
        [{ src := src, opcode := fld (wd e 0) 63 48, raw := now s }] } } := by
  change execSubmissionFetch k (some e) data s = _
  simp only [execSubmissionFetch, hfetch, hreach, hrange]
  rfl

end Fetch

end Sys2Proof.Machine

namespace Sys2Proof

open Machine

/-- Settles O26: each doorbell is one write of its sleeve, and a fetch is the command that its entry names, or a
QUEUE_FAULT. -/
theorem doorbellsAndFetches : Obligations.DoorbellsAndFetches := by
  unfold Obligations.DoorbellsAndFetches
  refine ⟨?tail, ?beyond, ?head, ?flush, ?faultHead, ?state, ?lost, ?fetch, ?ends, ?aborted⟩
  case tail =>
    intro k v s hup hindex
    refine ⟨_, rfl, ?_⟩
    rw [doorbellWrite_of_lt hup hindex]
    exact ⟨sleeve_modSleeve_same .., fun j hj => sleeve_modSleeve_other s hj _, rfl, rfl⟩
  case beyond =>
    intro k v s hup hindex
    refine ⟨_, rfl, ?_⟩
    rw [doorbellWrite_of_le hup hindex]
    exact ⟨sleeve_modSleeve_same .., fun j hj => sleeve_modSleeve_other s hj _⟩
  case head =>
    intro k v s hup hindex hempty
    refine ⟨_, exec_cqHeadWrite_of_lt hup hindex, ?_⟩
    rw [flushCq_of_empty (by rw [sleeve_modSleeve_same, hempty])]
    refine ⟨?_, fun j hj => ?_, rfl⟩
    · rw [sleeve_modSleeve_same, sleeve_modSleeve_same, ← hempty]
    · rw [sleeve_modSleeve_other _ hj, sleeve_modSleeve_other s hj]
  case flush => exact fun k v s hup hindex => exec_cqHeadWrite_of_lt hup hindex
  case faultHead =>
    intro k v s hup hindex
    refine ⟨_, rfl, ?_⟩
    rw [doorbellWrite_of_lt hup hindex]
    exact ⟨sleeve_modSleeve_same .., fun j hj => sleeve_modSleeve_other s hj _, rfl⟩
  case state =>
    exact fun k s hup => ⟨_, exec_doorbellStateRead_of_up hup, rfl, sleeve_modSleeve_same ..,
      fun j hj => sleeve_modSleeve_other _ hj _⟩
  case lost =>
    exact fun k s hup => ⟨_, exec_fqLostRead_of_up hup, rfl, sleeve_modSleeve_same ..,
      fun j hj => sleeve_modSleeve_other _ hj _⟩
  case fetch => exact fun k e data s hfetch hreach hrange => exec_submissionFetch_of_some hfetch hreach hrange
  case ends =>
    intro k e data s hfetch hreach hrange
    rw [exec_submissionFetch_of_some hfetch hreach hrange]
    exact runCommand_next ..
  case aborted => exact fun k data s hfetch => exec_submissionFetch_of_none hfetch

end Sys2Proof
end

section
/-! PROOFS. What a sleeve holds (R205, R211, R212, R223–R227): its pages, its dirty bitmap, its exported record and its
accounting. A bit of the bitmap that a host write sets reads back as set. -/

namespace Sys2Proof.Machine

variable {s : State} {c : Cmd}

/-! ### Bytes within a page, written and read back (R8, R29, R160) -/

/-- A range within one page is one part. -/
theorem pageParts_of_within {a n : Nat} (hn : 0 < n) (hin : a % 65536 + n ≤ 65536) : pageParts a n = [(a, 0, n)] := by
  have hlast : (a + n - 1) / 65536 = a / 65536 := by omega
  have hfirst : Nat.max a (a / 65536 * 65536) = a := Nat.max_eq_left (by omega)
  have hend : Nat.min (a + n) ((a / 65536 + 1) * 65536) = a + n := Nat.min_eq_left (by omega)
  simp [pageParts, pagesOf, Nat.ne_of_gt hn, hlast, hfirst, hend]

@[simp] theorem markDirty_eccBad (s : State) (a n : Nat) : (markDirty s a n).pkg.eccBad = s.pkg.eccBad :=
  List.foldlRecOn (motive := fun t : State => t.pkg.eccBad = s.pkg.eccBad) _ _ rfl fun _ ht _ _ => ht

/-- Where no word is uncorrectable, what is written within a page reads back. -/
theorem windowRead_windowWrite_within {a : Nat} {bs : List Byte} (hecc : s.pkg.eccBad = []) (hbs : 0 < bs.length)
    (hin : a % 65536 + bs.length ≤ 65536) : windowRead (windowWrite s a bs) a bs.length = bs := by
  have hkey : ∀ (t : State) (key : Nat), windowKey (physWrite t key bs) a = windowKey t a := fun _ _ => rfl
  have hread : ∀ t : State, windowRead t a bs.length = physRead t (windowKey t a) bs.length := fun t => by
    simp [windowRead, pageParts_of_within hbs hin]
  have hdirty : (markDirty (backInvalidate s a bs.length) a bs.length).pkg.eccBad = [] := by
    rw [markDirty_eccBad]
    exact hecc
  rw [hread]
  simp only [windowWrite, pageParts_of_within hbs hin, List.foldl_cons, List.foldl_nil, List.drop_zero,
    List.take_length, hkey]
  exact physRead_physWrite_same hdirty _ bs

theorem leW64_leBytes (w : W64) : leW64 (leBytes 8 w.toNat) = w := by
  rw [leW64, List.take_of_length_le (by rw [length_leBytes]), leNat_leBytes, Nat.mod_eq_of_lt (show w.toNat < 256 ^ 8 from w.isLt),
    BitVec.ofNat_toNat, BitVec.setWidth_eq]

/-! ### The dirty bitmap (R223) -/

/-- A word of the bitmap that was written reads as written. -/
theorem bitmapWord_setBitmapWord {v : Sleeve} {i : Nat} (hecc : s.pkg.eccBad = [])
    (hpage : i / 8192 < v.bitmapPages.length) (w : W64) : bitmapWord (setBitmapWord s v i w) v i = w := by
  have haddr : bitmapAddr v i = some (v.bitmapPages[i / 8192] * 65536 + i % 8192 * 8) := by
    simp [bitmapAddr, hpage]
  have hread := windowRead_windowWrite_within (a := v.bitmapPages[i / 8192] * 65536 + i % 8192 * 8)
    (bs := leBytes 8 w.toNat) hecc (by simp [length_leBytes]) (by rw [length_leBytes]; omega)
  rw [length_leBytes] at hread
  simp only [bitmapWord, setBitmapWord, haddr, hread, leW64_leBytes]

/-- A host write within a 4 KiB page sets one bit. -/
theorem markHostDirty_of_page {k addr len : Nat} (hon : (sleeve s k).dirtyOn = true) (hlen : len ≠ 0)
    (hin : (rangeOffset (sleeve s k) addr + len - 1) / 4096 = rangeOffset (sleeve s k) addr / 4096) :
    let p := rangeOffset (sleeve s k) addr / 4096
    markHostDirty s k addr len = setBitmapWord s (sleeve s k) (p / 64)
      (bitmapWord s (sleeve s k) (p / 64) ||| (1 <<< (p % 64))) := by
  simp [markHostDirty, hon, hlen, hin]

theorem bitOf_or_shift (w : W64) {n : Nat} (hn : n < 64) : bitOf (w ||| ((1 : W64) <<< n)) n = true := by
  simp [bitOf, hn]

theorem bitOf_bitmapWord_hostWrite {k addr : Nat} {bytes : List Byte} (hecc : s.pkg.eccBad = [])
    (hon : (sleeve s k).dirtyOn = true) (hbytes : bytes ≠ [])
    (hin : (rangeOffset (sleeve s k) addr + bytes.length - 1) / 4096 = rangeOffset (sleeve s k) addr / 4096)
    (hpage : rangeOffset (sleeve s k) addr / 262144 / 8192 < (sleeve s k).bitmapPages.length) :
    bitOf (bitmapWord (hostWrite s k addr bytes) (sleeve s k) (rangeOffset (sleeve s k) addr / 262144))
      (rangeOffset (sleeve s k) addr / 4096 % 64) = true := by
  have hword : rangeOffset (sleeve s k) addr / 4096 / 64 = rangeOffset (sleeve s k) addr / 262144 :=
    Nat.div_div_eq_div_mul ..
  change bitOf (bitmapWord (markHostDirty s k addr bytes.length) _ _) _ = true
  rw [markHostDirty_of_page hon (by simpa using hbytes) hin, hword, bitmapWord_setBitmapWord hecc hpage]
  exact bitOf_or_shift _ (Nat.mod_lt _ (by decide))

/-! ### Status and accounting (R226, R227) -/

theorem exec_sleeveStatus (hserved : Served 0x107 1 isSleeveUser c s) (hname : NamesSleeve s (argN c 0))
    (hown : ownOnly (partyOf c.src) (argN c 0) = false) :
    let k := argN c 0
    let v := sleeve s k
    exec (.sleeveStatus c) s = .next (answered 0x107 1 c s ([w64 (sleeveCode v.st)] ++
      (List.range 8).map (fun i => wd v.record i) ++ [w64 (heldPages v 0), w64 (heldPages v 1),
       w64 ((s.jobs.filter fun e => e.2.owner == k).map fun e => (jobSlots s e.1).length).sum,
       w64 (s.jobs.filter fun e => e.2.owner == k && e.2.st != .free).length])) :=
  congrArg Host.Outcome.next (serve_ok hserved (checked_pass (by simp [hown, firstFail_nameChecks hname])))

theorem exec_sleeveAccountRead_of_sleeve (hserved : Served 0x10F 1 (fun p => isSleeveUser p || isRadio p) c s)
    (hname : NamesSleeve s (argN c 0)) (hown : ownOnly (partyOf c.src) (argN c 0) = false)
    (hradio : isRadio (partyOf c.src) = false) :
    exec (.sleeveAccountRead c) s = .next (answered 0x10F 1 c s (accountWords s (argN c 0))) := by
  refine congrArg Host.Outcome.next (serve_ok hserved ?_)
  rw [if_neg (by simpa using hname.1), checked_pass (by simp [hown, hradio, firstFail_nameChecks hname])]

theorem exec_sleeveAccountRead_of_radioSleeve (hserved : Served 0x10F 1 (fun p => isSleeveUser p || isRadio p) c s)
    (hzero : argN c 0 = 0) (hmgmt : isMgmt (partyOf c.src) = true) :
    exec (.sleeveAccountRead c) s = .next (answered 0x10F 1 c s ([w64 (radioAccount s).length] ++
      (radioAccount s).flatMap (fun c => [w64 c.1, c.2]) ++ [s.tim.raw])) := by
  refine congrArg Host.Outcome.next (serve_ok hserved ?_)
  rw [if_pos (by simpa using hzero), checked_pass]
  cases hparty : partyOf c.src with
  | tenant k => simp [hparty, isMgmt] at hmgmt
  | _ => rfl

/-! ### PAGES_ALLOC and PAGES_FREE (R211, R212) -/

theorem exec_pagesAlloc {ps : List Nat} {t u : State} (hserved : Served 0x108 5 isSleeveUser c s)
    (hname : NamesSleeve s (argN c 0)) (hown : ownOnly (partyOf c.src) (argN c 0) = false) (hkind : argN c 2 ≤ 1)
    (hperms : argN c 3 ≤ 15)
    (hquota : heldPages (sleeve s (argN c 0)) (argN c 2) + argN c 1 ≤ quota (sleeve s (argN c 0)) (argN c 2))
    (hlist : checkArg s (partyOf c.src) .wr (arg c 4) (8 * argN c 1) = none)
    (htake : takePages s (argN c 0) none (argN c 2) (argN c 3) (argN c 1) = some (t, ps))
    (hwrite : writeArg t (partyOf c.src) (arg c 4) (ps.flatMap (leBytes 8)) = .ok u) :
    exec (.pagesAlloc c) s = .next (answered 0x108 5 c u []) := by
  refine congrArg Host.Outcome.next (serve_ok hserved ?_)
  rw [checked_pass]
  · simp only [hlist, htake, hwrite]
  · rw [firstFail_cons, hown, firstFail_nameChecks hname]
    simp [Nat.not_lt.mpr hkind, Nat.not_lt.mpr hperms, Nat.not_lt.mpr hquota]

/-- The count of a read leaves what a page is used for (R211, R226). -/
theorem pageInUse_argRead (s : State) (p : Party) (a : W64) (len k q : Nat) :
    pageInUse (argRead s p a len) k q = pageInUse s k q := by
  unfold argRead
  split
  · split <;> rfl
  · rfl

theorem isSleevePage_argRead (s : State) (p : Party) (a : W64) (len k q : Nat) :
    isSleevePage (sleeve (argRead s p a len) k) q = isSleevePage (sleeve s k) q := by
  unfold argRead
  split
  · split
    · rw [hostRead, countHost, sleeve_modSleeve]
      split <;> rfl
    · rfl
  · rfl

theorem exec_pagesFree {bs : List Byte} (hserved : Served 0x109 3 isSleeveUser c s) (hname : NamesSleeve s (argN c 0))
    (hown : ownOnly (partyOf c.src) (argN c 0) = false)
    (hread : readArg s (partyOf c.src) c.hostData (arg c 2) (8 * argN c 1) = .ok bs)
    (hpages : ∀ q ∈ (wordsOf (argN c 1) bs).map BitVec.toNat,
      pageInUse s (argN c 0) q = false ∧ isSleevePage (sleeve s (argN c 0)) q = true) :
    exec (.pagesFree c) s = .next (answered 0x109 3 c
      (dropPages (argRead s (partyOf c.src) (arg c 2) (8 * argN c 1)) (argN c 0)
        ((wordsOf (argN c 1) bs).map BitVec.toNat)) []) := by
  refine congrArg Host.Outcome.next (serve_ok hserved ?_)
  rw [checked_pass (by simp [hown, firstFail_nameChecks hname]), hread]
  dsimp only
  generalize (wordsOf (argN c 1) bs).map BitVec.toNat = ps at hpages
  have hunused : ps.any (pageInUse (argRead s (partyOf c.src) (arg c 2) (8 * argN c 1)) (argN c 0)) = false :=
    List.any_eq_false.2 fun q hq => by simp [pageInUse_argRead, hpages q hq]
  have hsleeve : (ps.any fun q => !isSleevePage (sleeve (argRead s (partyOf c.src) (arg c 2) (8 * argN c 1))
      (argN c 0)) q) = false :=
    List.any_eq_false.2 fun q hq => by simp [isSleevePage_argRead, hpages q hq]
  rw [checked_pass (by simp only [firstFail_cons, hunused, hsleeve]; rfl)]
  rfl

/-! ### Dirty logging (R223–R225, R227) -/

theorem exec_sleeveDirtyStart {ps : List Nat} {t : State} (hserved : Served 0x10A 1 isMgmt c s)
    (hname : NamesSleeve s (argN c 0))
    (htake : takePages s (argN c 0) none 1 8 (bitmapNeed (sleeve s (argN c 0))) = some (t, ps)) :
    exec (.sleeveDirtyStart c) s = .next (answered 0x10A 1 c (dirtyStart t (argN c 0) ps) []) := by
  refine congrArg Host.Outcome.next (serve_ok hserved ?_)
  rw [checked_pass (by simp [firstFail_nameChecks hname]), htake]

theorem exec_sleeveDirtyRead {u : State} (hserved : Served 0x10B 5 isMgmt c s) (hname : NamesSleeve s (argN c 0))
    (hon : (sleeve s (argN c 0)).dirtyOn = true) (hcount : argN c 2 ≤ 512)
    (hwords : argN c 1 + argN c 2 ≤ bitmapWords (sleeve s (argN c 0)))
    (hgood : bitmapBad s (sleeve s (argN c 0)) (argN c 1) (argN c 2) = false)
    (hwrite : writeArg (clearDirty (clearBitmap s (argN c 0) (argN c 1) (argN c 2)) (dirtyPages s (argN c 0) (argN c 4)))
      (partyOf c.src) (arg c 3) ((dirtyPages s (argN c 0) (argN c 4)).flatMap (leBytes 8)) = .ok u) :
    exec (.sleeveDirtyRead c) s = .next (answered 0x10B 5 c (emit u (.orderingRead (argN c 0) (pasidOf u (argN c 0))))
      ((List.range (argN c 2)).map (fun i => bitmapWord s (sleeve s (argN c 0)) (argN c 1 + i)) ++
        [w64 (dirtyPages s (argN c 0) (argN c 4)).length])) := by
  refine congrArg Host.Outcome.next (serve_ok hserved ?_)
  rw [checked_pass]
  · simp only [hwrite]
  · rw [firstFail_nameChecks hname]
    simp [hon, Nat.not_lt.mpr hcount, Nat.not_lt.mpr hwords, hgood]

theorem exec_sleeveDirtyStop (hserved : Served 0x10C 1 isMgmt c s) (hname : NamesSleeve s (argN c 0)) :
    exec (.sleeveDirtyStop c) s = .next (answered 0x10C 1 c (modSleeve
      (dropPages s (argN c 0) (sleeve s (argN c 0)).bitmapPages) (argN c 0) fun v => { v with
        dirtyOn := false, bitmapPages := [] }) []) :=
  congrArg Host.Outcome.next (serve_ok hserved (checked_pass (firstFail_nameChecks hname [])))

/-! ### SLEEVE_EXPORT and SLEEVE_IMPORT (R225) -/

theorem exec_sleeveExport {u : State} (hserved : Served 0x10D 2 isMgmt c s) (hname : NamesSleeve s (argN c 0))
    (hst : (sleeve s (argN c 0)).st = .quiesced)
    (hwrite : writeArg s (partyOf c.src) (arg c 1) (exportBytes (sleeve s (argN c 0))) = .ok u) :
    exec (.sleeveExport c) s = .next (answered 0x10D 2 c u []) := by
  refine congrArg Host.Outcome.next (serve_ok hserved ?_)
  rw [checked_pass (by simp [firstFail_nameChecks hname, hst]), hwrite]

/-- Checks appended to checks that all pass decide alone. -/
theorem firstFail_append_of_pass {cs : List (Bool × Status)} (hpass : firstFail cs = none)
    (rest : List (Bool × Status)) : firstFail (cs ++ rest) = firstFail rest := by
  induction cs with
  | nil => rfl
  | cons x r ih =>
    obtain ⟨bad, st⟩ := x
    cases bad with
    | true => simp at hpass
    | false => exact ih (by simpa using hpass)

/-- The host ranges of an exported record: eight, behind the sleeve record (R225). -/
def exportRanges (bs : List Byte) : Tbl (Nat × Nat) :=
  (List.range 8).foldl (fun t i =>
    tset (0, 0) t i ((wd (wordsOf 2 (bs.drop (64 + 16 * i))) 0).toNat,
      (wd (wordsOf 2 (bs.drop (64 + 16 * i))) 1).toNat)) []

theorem exec_sleeveImport {b0 bs : List Byte} {u : State} (hserved : Served 0x10E 1 isMgmt c s)
    (hhead : readArg s (partyOf c.src) c.hostData (arg c 0) 4096 = .ok b0)
    (hread : readArg s (partyOf c.src) c.hostData (arg c 0)
      (cdiv (200 + 4 * leNat ((b0.drop 192).take 8)) 4096 * 4096) = .ok bs)
    (hchecks : firstFail (createChecks s (wordsOf 8 bs)) = none) (hranges : rangesBad (exportRanges bs) = false)
    (hpages : importPages (setSleeve s (fld (wd (wordsOf 8 bs) 0) 63 58)
        { st := .quiesced, record := wordsOf 8 bs, ranges := exportRanges bs })
      (fld (wd (wordsOf 8 bs) 0) 63 58) (exportPages bs) = some u) :
    exec (.sleeveImport c) s = .next (answered 0x10E 1 c u []) := by
  have hpass : firstFail (createChecks s (wordsOf 8 bs) ++ [(rangesBad (exportRanges bs), .badField)]) = none := by
    rw [firstFail_append_of_pass hchecks]
    simp [hranges]
  refine congrArg Host.Outcome.next (serve_ok hserved ?_)
  simp only [hhead, hread]
  refine (checked_pass hpass).trans ?_
  rw [exportRanges] at hpages
  rw [hpages]

end Sys2Proof.Machine

namespace Sys2Proof

open Machine

/-- Settles O24: the checks of each command pass, so it is answered with its effect, and a word of the dirty bitmap
reads back as a host write has left it. -/
theorem sleeveHoldings : Obligations.SleeveHoldings := by
  unfold Obligations.SleeveHoldings
  refine ⟨?status, ?alloc, ?free, ?start, ?read, ?bit, ?stop, ?exported, ?imported, ?account, ?radio⟩
  case status => exact fun c s hserved hname hown => exec_sleeveStatus hserved hname hown
  case alloc =>
    exact fun c ps s t u hserved hname hown hkind hperms hquota hlist htake hwrite =>
      exec_pagesAlloc hserved hname hown hkind hperms hquota hlist htake hwrite
  case free => exact fun c bs s hserved hname hown hread hpages => exec_pagesFree hserved hname hown hread hpages
  case start => exact fun c ps s t hserved hname htake => exec_sleeveDirtyStart hserved hname htake
  case read =>
    exact fun c s u hserved hname hon hcount hwords hgood hwrite =>
      exec_sleeveDirtyRead hserved hname hon hcount hwords hgood hwrite
  case bit =>
    exact fun k addr bytes s _ hecc hon hbytes hin hpage => bitOf_bitmapWord_hostWrite hecc hon hbytes hin hpage
  case stop => exact fun c s hserved hname => exec_sleeveDirtyStop hserved hname
  case exported => exact fun c s u hserved hname hst hwrite => exec_sleeveExport hserved hname hst hwrite
  case imported =>
    exact fun c b0 bs s u hserved hhead hread hchecks hranges hpages =>
      exec_sleeveImport hserved hhead hread hchecks hranges hpages
  case account =>
    exact fun c s hserved hname hown hradio => exec_sleeveAccountRead_of_sleeve hserved hname hown hradio
  case radio => exact fun c s hserved hzero hmgmt => exec_sleeveAccountRead_of_radioSleeve hserved hzero hmgmt

end Sys2Proof
end

section
/-! PROOFS. A command whose turn in its queue has not come (R216, R371, R373) waits untouched, whatever the gate would
answer it. -/

namespace Sys2Proof.Machine

/-- Two SLEEVE_CREATE of the manager, accepted from slots 0 and 1 in that order; neither has been taken up. -/
def twoCreatesAccepted : State :=
  { boot := { phase := .booted }
    mgt := { tacor := 1, accepted := [{ src := .mailbox 0 0, opcode := 0x100, raw := 0 },
                                      { src := .mailbox 0 1, opcode := 0x100, raw := 1 }] } }

/-- The second of them, with an argument list that is too short. -/
def shortCreate : Cmd := { src := .mailbox 0 1, args := [] }

/-- The gate would stop it (R372). -/
theorem gate_shortCreate : gate 0x100 8 isMgmt shortCreate twoCreatesAccepted = some .badField := by decide

/-- The command accepted before it comes first (R373). -/
theorem behind_shortCreate : behind twoCreatesAccepted shortCreate.src 0x100 = true := by decide

theorem exec_shortCreate :
    exec (.sleeveCreate shortCreate) twoCreatesAccepted = .next twoCreatesAccepted :=
  congrArg Host.Outcome.next (serve_behind (by decide) rfl rfl behind_shortCreate)

/-- A command that has ended has left the list of the accepted ones. -/
theorem accepted_finish_mailbox (s : State) (w i op : Nat) (st : Status) (res : List W64) :
    (finish s (.mailbox w i) op st res).mgt.accepted = s.mgt.accepted.filter (·.src != .mailbox w i) := by
  simp only [finish, dicMessage, dicDrop, msix]
  split_ifs <;> rfl

end Sys2Proof.Machine

namespace Sys2Proof

open Machine

/-- Refutes O49, in the last part of its first clause, which leaves out that the command's turn has come: a SLEEVE_CREATE
that the gate stops, behind another of the same queue and class that has not been taken up, stays accepted (R216, R371,
R373). -/
theorem not_tacorCommandsAreGated : ¬ Obligations.TacorCommandsAreGated := by
  unfold Obligations.TacorCommandsAreGated
  rintro ⟨hrows, -⟩
  obtain ⟨-, -, -, -, hgated⟩ := hrows (.sleeveCreate shortCreate) 0x100 8 isMgmt shortCreate twoCreatesAccepted rfl
  have hexec := exec_shortCreate.symm.trans (hgated .badField (by decide) rfl rfl gate_shortCreate)
  injection hexec with hsame
  have haccepted := congrArg (·.mgt.accepted) hsame
  beta_reduce at haccepted
  rw [show shortCreate.src = .mailbox 0 1 from rfl, accepted_finish_mailbox] at haccepted
  exact absurd haccepted (by decide)

end Sys2Proof
end

section
/-! PROOFS. Cells and their moves (R231–R233, R249, R259, R260, R337): the checks of a cell's command decide it, its frame
starts or stops it, and the end of a carry leaves every other cell alone. -/

namespace Sys2Proof.Machine

variable {s : State} {cmd : Cmd} {c : Nat}

theorem cell_modCell_same (s : State) (c : Nat) (f : Cell → Cell) : cell (modCell s c f) c = f (cell s c) := by
  rw [cell_modCell, if_pos rfl]

theorem cell_modCell_other (s : State) {c x : Nat} (hx : x ≠ c) (f : Cell → Cell) : cell (modCell s c f) x = cell s x := by
  rw [cell_modCell, if_neg hx]

/-! ### Commands (R231–R233, R249, R259) -/

theorem exec_cellConfig_of_bad (hserved : Served 0x200 8 isMgmtRadio cmd s) (hbad : cellBad (recordArgs cmd) = true) :
    exec (.cellConfig cmd) s = .next (finish s cmd.src 0x200 .badField []) := by
  refine congrArg Host.Outcome.next (serve_fail hserved (checked_fail ?_))
  rw [firstFail_cons, if_pos hbad]

theorem exec_cellConfig_of_good (hserved : Served 0x200 8 isMgmtRadio cmd s) (hgood : cellBad (recordArgs cmd) = false)
    (hst : (cell s (cCell (recordArgs cmd))).st = .absent ∨ (cell s (cCell (recordArgs cmd))).st = .configured ∧
      cDie (cell s (cCell (recordArgs cmd))).record = cDie (recordArgs cmd))
    (hfits : harqFits s (recordArgs cmd) = true)
    (hadmits : (cell s (cCell (recordArgs cmd))).start = none ∨ cellAdmits s (recordArgs cmd) = true) :
    exec (.cellConfig cmd) s = .next (answered 0x200 8 cmd (modCell s (cCell (recordArgs cmd)) fun x => { x with
      st := .configured, record := recordArgs cmd, ever := true }) []) := by
  refine congrArg Host.Outcome.next (serve_ok hserved (checked_pass ?_))
  have hroom : ((cell s (cCell (recordArgs cmd))).start.isSome && !cellAdmits s (recordArgs cmd)) = false := by
    rcases hadmits with h | h <;> simp [h]
  rcases hst with hst | ⟨hst, hdie⟩
  · simp [hgood, hst, hfits, hroom]
  · simp [hgood, hst, hdie, hfits, hroom]

theorem exec_cellStart_of_good (hserved : Served 0x201 2 isMgmtRadio cmd s) (hcells : noCells s = false)
    (hlocked : timeLocked s = true) (hcell : argN cmd 0 ≤ 255) (hst : (cell s (argN cmd 0)).st = .configured)
    (hstart : (cell s (argN cmd 0)).start = none) (hframe : frameOk s (argN cmd 1) = true)
    (hadmits : cellAdmits s (cell s (argN cmd 0)).record = true) :
    exec (.cellStart cmd) s = .next (answered 0x201 2 cmd
      (modCell s (argN cmd 0) fun x => { x with start := some (argN cmd 1) }) []) := by
  refine congrArg Host.Outcome.next (serve_ok hserved (checked_pass ?_))
  simp [hcells, hlocked, Nat.not_lt.mpr hcell, hst, hstart, hframe, hadmits]

theorem exec_cellStop_of_good (hserved : Served 0x202 2 isMgmtRadio cmd s) (hcell : argN cmd 0 ≤ 255)
    (hst : (cell s (argN cmd 0)).st = .running) (hframe : frameOk s (argN cmd 1) = true) :
    exec (.cellStop cmd) s = .next (answered 0x202 2 cmd
      (modCell s (argN cmd 0) fun x => { x with st := .stopping, stop := some (argN cmd 1) }) []) := by
  refine congrArg Host.Outcome.next (serve_ok hserved (checked_pass ?_))
  simp [Nat.not_lt.mpr hcell, hst, hframe]

theorem exec_cellMoveOut_of_good (hserved : Served 0x203 3 isMgmtRadio cmd s) (hcell : argN cmd 0 ≤ 255)
    (hframe : frameNow s + 3 ≤ argN cmd 1) (haddr : argN cmd 2 < 2 ^ 58) (hst : (cell s (argN cmd 0)).st = .running) :
    exec (.cellMoveOut cmd) s = .next (answered 0x203 3 cmd (modCell s (argN cmd 0) fun x => { x with
      st := .movingOut, moveOut := some (argN cmd 1), moveTo := argN cmd 2, carry := 0 }) []) := by
  refine congrArg Host.Outcome.next (serve_ok hserved (checked_pass ?_))
  have haddr : argN cmd 2 < 288230376151711744 := haddr
  simp [Nat.not_lt.mpr hcell, Nat.not_lt.mpr hframe, haddr, hst]

theorem exec_cellMoveIn_of_good (hserved : Served 0x204 9 isMgmtRadio cmd s) (hcells : noCells s = false)
    (hlocked : timeLocked s = true) (hgood : cellBad (recordArgs cmd) = false) (hframe : frameNow s + 5 ≤ argN cmd 8)
    (hst : (cell s (cCell (recordArgs cmd))).st = .absent) (hadmits : cellAdmits s (recordArgs cmd) = true)
    (hfits : harqFits s (recordArgs cmd) = true) :
    exec (.cellMoveIn cmd) s = .next (answered 0x204 9 cmd (modCell s (cCell (recordArgs cmd)) fun x => { x with
      st := .configured, record := recordArgs cmd, ever := true, start := some (argN cmd 8), job0 := some (argN cmd 8)
      harq := [] }) []) := by
  refine congrArg Host.Outcome.next (serve_ok hserved (checked_pass ?_))
  simp [hcells, hlocked, hgood, Nat.not_lt.mpr hframe, hst, hadmits, hfits]

/-! ### Frames (R232, R319) -/

theorem cellFrame_of_start {f g : Nat} (hst : (cell s c).st = .configured) (hstart : (cell s c).start = some g)
    (hdue : g ≤ f) (hlocked : timeLocked s = true) :
    cellFrame s f c = modCell s c fun x => { x with st := .running, start := none } := by
  simp [cellFrame, hst, hstart, hdue, hlocked]

theorem cellFrame_of_stop {f g : Nat} (hst : (cell s c).st = .stopping) (hstop : (cell s c).stop = some g)
    (hdue : g ≤ f) : cellFrame s f c = stopCell s c := by
  simp [cellFrame, hst, hstop, hdue]

/-! ### The HARQ carry of a move (R259, R260, R337) -/

/-- A move that names no address carries nothing, so the cell leaves as soon as its last slot job is reported. -/
theorem exec_harqCarrySend_of_no_address {f : Nat} (hst : (cell s c).st = .movingOut) (hcarry : (cell s c).carry = 0)
    (hout : (cell s c).moveOut = some f) (hdue : f ≤ frameNow s) (haddr : (cell s c).moveTo = 0)
    (hidle : ((radDie s (cDie (cell s c).record)).jobs.any fun j => j.cell == c) = false) :
    exec (.harqCarrySend c) s = .next (endCarry s c) := by
  refine congrArg Host.Outcome.next ((if_neg ?_).trans (if_pos ?_))
  · simp only [hst, hcarry, hout, hidle]
    simp [hdue]
  · simp [haddr]

theorem exec_harqCarryLanded_of_ok {f addr : Nat} {bs : List Byte} (hopen : (cell s c).job0 = some f)
    (hread : carriedBytes s c addr = .ok bs) :
    exec (.harqCarryLanded c true addr) s = .next (modCell s c fun x => { x with
      job0 := none
      harq := (cell s c).harq ++ (harqEntries (slotNow s) bs.length bs).filter fun e =>
        !((cell s c).harq.any fun h => h.rnti == e.rnti && h.harqId == e.harqId) }) := by
  change execHarqCarryLanded c true addr s = _
  simp only [execHarqCarryLanded, hopen, hread]
  rfl

theorem exec_harqCarryLanded_of_bar {f addr : Nat} {b : Bar} (hopen : (cell s c).job0 = some f)
    (hread : carriedBytes s c addr = .error b) (hbar : b ≠ .wait) :
    exec (.harqCarryLanded c true addr) s = .next (modCell s c fun x => { x with job0 := none }) := by
  change execHarqCarryLanded c true addr s = _
  cases b
  case wait => exact absurd rfl hbar
  all_goals
    simp only [execHarqCarryLanded, hopen, hread]
    rfl

theorem exec_harqCarryLanded_of_bad_crc (s : State) (c addr : Nat) : exec (.harqCarryLanded c false addr) s = .next s :=
  congrArg Host.Outcome.next (if_pos (by simp))

end Sys2Proof.Machine

namespace Sys2Proof

open Machine

/-- Settles O30: the checks of each command pass, or fail, as the record and the cell's state say, and a frame or the end
of a carry changes the one cell. -/
theorem cellsMove : Obligations.CellsMove := by
  unfold Obligations.CellsMove
  refine ⟨?config, ?bad, ?start, ?stop, ?moveOut, ?moveIn, ?boundary, ?starts, ?stops, ?send, ?landed, ?barred, ?crc,
    ?close⟩
  case config =>
    exact fun c s hserved hgood hst hfits hadmits => exec_cellConfig_of_good hserved hgood hst hfits hadmits
  case bad => exact fun c s hserved hbad => exec_cellConfig_of_bad hserved hbad
  case start =>
    exact fun c s hserved hcells hlocked hcell hst hstart hframe hadmits =>
      exec_cellStart_of_good hserved hcells hlocked hcell hst hstart hframe hadmits
  case stop => exact fun c s hserved hcell hst hframe => exec_cellStop_of_good hserved hcell hst hframe
  case moveOut =>
    exact fun c s hserved hcell hframe haddr hst => exec_cellMoveOut_of_good hserved hcell hframe haddr hst
  case moveIn =>
    exact fun c s hserved hcells hlocked hgood hframe hst hadmits hfits =>
      exec_cellMoveIn_of_good hserved hcells hlocked hgood hframe hst hadmits hfits
  case boundary => exact fun f s => rfl
  case starts =>
    intro f g c s hst hstart hdue hlocked
    rw [cellFrame_of_start hst hstart hdue hlocked, cell_modCell_same]
  case stops =>
    intro f g c s hst hstop hdue
    rw [cellFrame_of_stop hst hstop hdue, stopCell, cell_modCell_same]
  case send =>
    exact fun c f s hst hcarry hout hdue haddr hidle =>
      exec_harqCarrySend_of_no_address hst hcarry hout hdue haddr hidle
  case landed =>
    intro c f addr bs s hopen hempty hread
    refine ⟨_, exec_harqCarryLanded_of_ok hopen hread, ?_⟩
    beta_reduce
    rw [cell_modCell_same, hempty]
    exact ⟨rfl, by simp, rfl, fun x hx => cell_modCell_other s hx _⟩
  case barred =>
    intro c f addr b s hopen hread hbar
    exact ⟨_, exec_harqCarryLanded_of_bar hopen hread hbar, cell_modCell_same .., fun x hx => cell_modCell_other s hx _⟩
  case crc => exact fun c addr s => exec_harqCarryLanded_of_bad_crc s c addr
  case close => exact fun c s => ⟨_, rfl, cell_modCell_same .., fun x hx => cell_modCell_other s hx _⟩

end Sys2Proof
end

section
/-! PROOFS. Acknowledgements of the fabric (R336, R342, R347, R349, R350): what an arrived ACK or NACK does with what is
outstanding toward its sender, and when a wait that has lasted too long ends. -/

namespace Sys2Proof.Machine

variable {s : State} {port typ d : Nat} {p : Packet}

/-- A packet that passes the checks that every packet meets gets what its row does with it (R335, R346). -/
theorem arrive_of_arrives (harrives : PacketArrives s port typ p) (hfirst : 0 < typ) (hlast : typ ≤ 11)
    (body : State → State) : arrive typ port p s body = body (counted s port p) := by
  obtain ⟨hup, hport, hlink, hconfigured, hcrc, htype, hlen, hpayload, hdst⟩ := harrives
  have hphase : (s.boot.phase == .held) = false := beq_eq_false_iff_ne.mpr hup
  have hpayload : (hLen p != p.payload.length) = false := by simpa using hpayload
  simp only [arrive, hphase, hlink, hconfigured, hcrc, htype, hdst, hpayload, Nat.not_lt.mpr hport,
    Nat.not_lt.mpr hlen, Nat.not_lt.mpr hlast, hfirst.ne']
  simp [counted]

/-! ### ACK and NACK (R347) -/

theorem exec_ack_of_arrives (harrives : PacketArrives s port 6 p) :
    exec (.ack port p) s = .next (
      let x := pairOf s (hSrc p)
      let covered (t : Track) : Bool := decide (0 ≤ diff32 (hSeq p) t.seq)
      settleAll (flushAll (routeChange ((x.tracks.filter covered).foldl (fun s t => acked s (hSrc p) t)
        (setPair (counted s port p) (hSrc p) { x with tracks := x.tracks.filter fun t => !covered t })) (hSrc p)))) :=
  congrArg Host.Outcome.next (arrive_of_arrives harrives (by decide) (by decide) _)

theorem exec_nack_of_zero (harrives : PacketArrives s port 7 p) (hstatus : hAddr p / 4294967296 = 0) :
    exec (.nack port p) s = .next (resend (counted s port p) (hSrc p)
      ((pairOf s (hSrc p)).tracks.filter fun t => decide (0 ≤ diff32 t.seq (hSeq p)))) :=
  congrArg Host.Outcome.next ((arrive_of_arrives harrives (by decide) (by decide) _).trans (if_pos hstatus))

/-- A packet of a job that is refused is sent once more at its first CHECK_FAILED, and faults the job otherwise. -/
theorem exec_nack_of_track {t : Track} (harrives : PacketArrives s port 7 p)
    (hfind : (pairOf s (hSrc p)).tracks.find? (fun t => t.seq == hSeq p) = some t) (hcell : t.cell = none)
    (hjob : t.job ≠ 0) (hstatus : hAddr p / 4294967296 ≠ 0) :
    exec (.nack port p) s = .next (
      if hAddr p / 4294967296 = statusCode .checkFailed && !t.failed then
        resend (setPair (counted s port p) (hSrc p) { pairOf s (hSrc p) with
          tracks := (pairOf s (hSrc p)).tracks.map fun u => if u.seq == t.seq then { u with failed := true } else u })
            (hSrc p) [t]
      else faultJob (counted s port p) t.job (if hAddr p / 4294967296 = statusCode .checkFailed then .checkFailed
        else if hAddr p / 4294967296 = statusCode .badField then .badField else .denied)) := by
  refine congrArg Host.Outcome.next ((arrive_of_arrives harrives (by decide) (by decide) _).trans ((if_neg hstatus).trans ?_))
  dsimp only
  rw [show pairOf (counted s port p) = pairOf s from rfl, hfind]
  simp only [hcell, if_neg hjob]
  rfl

/-! ### Packets sent again (R336, R347) -/

theorem resend_single {t : Track} (hhome : homePort s d = some port) (hlink : (vfPort s port).up = true) :
    resend s d [t] = vfCount (emitPacket s port t.packet) port 8 := by
  simp only [resend, hhome, hlink]
  rfl

theorem exec_ackTimeout_of_due {o : Track} {r : List Track} (htracks : (pairOf s d).tracks = o :: r)
    (hresent : o.resent < 2) (hdue : (o.resent + 1) * usTicks 100 ≤ since s o.first) :
    exec (.ackTimeout d) s = .next (resend (setPair s d { pairOf s d with
      tracks := { o with resent := o.resent + 1 } :: r }) d (o :: r)) := by
  change execAckTimeout d s = _
  simp [execAckTimeout, htracks, Nat.not_le.mpr hresent, Nat.not_lt.mpr hdue]

theorem exec_ackTimeout_of_early {o : Track} {r : List Track} (htracks : (pairOf s d).tracks = o :: r)
    (hearly : 2 ≤ o.resent ∨ since s o.first < (o.resent + 1) * usTicks 100) : exec (.ackTimeout d) s = .next s := by
  change execAckTimeout d s = _
  rcases hearly with hearly | hearly <;> simp [execAckTimeout, htracks, hearly]

theorem exec_ackTimeout_of_empty (htracks : (pairOf s d).tracks = []) : exec (.ackTimeout d) s = .next s := by
  change execAckTimeout d s = _
  simp only [execAckTimeout, htracks]

/-! ### What is given up (R344, R349, R350) -/

theorem exec_linkTimeout_of_late (hlate : ∃ t ∈ (pairOf s d).tracks, s.fab.linkMs * ticksPerMs ≤ since s t.first) :
    exec (.linkTimeout d) s = .next (
      let late (t : Track) : Bool := (pairOf s d).tracks.contains t &&
        decide (s.fab.linkMs * ticksPerMs ≤ since s t.first)
      flushAll (routeChange (loseJobs (dropTracks s d late).1 (dropTracks s d late).2) d)) := by
  obtain ⟨t, hmem, hold⟩ := hlate
  refine congrArg Host.Outcome.next (if_neg ?_)
  simpa using ⟨t, hmem, hold⟩

theorem exec_linkTimeout_of_early (hearly : ∀ t ∈ (pairOf s d).tracks, since s t.first < s.fab.linkMs * ticksPerMs) :
    exec (.linkTimeout d) s = .next s := by
  refine congrArg Host.Outcome.next (if_pos ?_)
  simpa using hearly

theorem exec_barrierTimeout_of_due {h : Nat} {m : ChipMap} (hmap : mapOfJob s h = some m) (hwaits : m.waits ≠ 0)
    (hreleased : m.released = false) (hdue : s.fab.barrierMs * ticksPerMs ≤ since s m.arrivedAt) :
    exec (.barrierTimeout h) s = .next (faultJob s h (if m.lost then .targetLost else .timeout)) := by
  change execBarrierTimeout h s = _
  simp [execBarrierTimeout, hmap, hwaits, hreleased, Nat.not_lt.mpr hdue]

section SlowChip

variable {n c : Nat} {m : ChipMap} (hmap : mapOf s n = some m)

include hmap

theorem exec_slowChipReceived_of_no_job
    (hjob : mapJob (raise s { code := 0x032, severity := 0, d0 := n, d1 := c }) m = none) :
    exec (.slowChipReceived n c) s = .next (raise s { code := 0x032, severity := 0, d0 := n, d1 := c }) := by
  change execSlowChipReceived n c s = _
  simp only [execSlowChipReceived, hmap, hjob]

/-- The engines that the job runs on become suspects. -/
theorem exec_slowChipReceived_of_job {h : Nat}
    (hjob : mapJob (raise s { code := 0x032, severity := 0, d0 := n, d1 := c }) m = some h) :
    exec (.slowChipReceived n c) s = .next (
      let a := raise s { code := 0x032, severity := 0, d0 := n, d1 := c }
      ((jobSlots a h).map (·.1)).eraseDups.foldl markSuspect a) := by
  change execSlowChipReceived n c s = _
  simp only [execSlowChipReceived, hmap, hjob]

end SlowChip

end Sys2Proof.Machine

namespace Sys2Proof

open Machine

/-- Settles O47: a packet that passes the checks of R346 reaches its row, which goes by what is outstanding, and each
timeout goes by how long the oldest wait has lasted. -/
theorem acknowledgementsRun : Obligations.AcknowledgementsRun := by
  unfold Obligations.AcknowledgementsRun
  refine ⟨?ack, ?nackZero, ?nack, ?timeout, ?nothing, ?resend, ?link, ?barrier, ?slow⟩
  case ack => exact fun port p s harrives => exec_ack_of_arrives harrives
  case nackZero => exact fun port p s harrives hstatus => exec_nack_of_zero harrives hstatus
  case nack =>
    intro port p t s harrives hfind hcell hjob
    have hnack := exec_nack_of_track harrives hfind hcell hjob
    refine ⟨fun hst => ?_, fun hst hfailed => ?_, fun hst hfailed => ?_⟩ <;> rw [hst] at hnack
    · exact hnack (by decide)
    · rw [hnack (by decide), hfailed]
      rfl
    · rw [hnack (by decide), hfailed]
      rfl
  case timeout =>
    exact fun d o r s htracks => ⟨exec_ackTimeout_of_due htracks, exec_ackTimeout_of_early htracks⟩
  case nothing => exact fun d s htracks => exec_ackTimeout_of_empty htracks
  case resend =>
    intro d port t s hhome hlink
    rw [resend_single hhome hlink]
    exact ⟨rfl, rfl, rfl⟩
  case link => exact fun d s => ⟨exec_linkTimeout_of_late, exec_linkTimeout_of_early⟩
  case barrier =>
    exact fun h m s hmap hwaits hreleased hdue => exec_barrierTimeout_of_due hmap hwaits hreleased hdue
  case slow =>
    exact fun n c m s hmap => ⟨exec_slowChipReceived_of_no_job hmap, fun h => exec_slowChipReceived_of_job hmap⟩

end Sys2Proof
end

section
/-! PROOFS. Tasks of the signal cores (R46, R270, R283, R287, R291–R294): what a boundary and a strike leave of the cores,
how a task begins and ends, alone and in paired operation, and what the queue instructions and the stall do. -/

namespace Sys2Proof.Machine

variable {s t : State} {k p j : Nat}

/-! ### Boundaries and strikes leave the radio alone (R46, R66, R153, R154) -/

theorem sigCore_of_rad_eq (hrad : t.rad = s.rad) (j : Nat) : sigCore t j = sigCore s j := by
  simp only [sigCore, hrad]

@[simp] theorem taskBoundary_rad (s : State) (n : Nat) : (taskBoundary s n).rad = s.rad := by
  unfold taskBoundary
  split
  · change (takeThrottle s n).rad = s.rad
    rw [throttleFrame_takeThrottle s n]
  · rfl

@[simp] theorem refreshHealth_rad (s : State) : (refreshHealth s).rad = s.rad := by
  unfold refreshHealth
  dsimp only
  split
  · rfl
  · rw [raise_rad]

@[simp] theorem setRec_rad (s : State) (r : HealthRec) : (setRec s r).rad = s.rad := by
  unfold setRec
  dsimp only
  split <;> rfl

section Unit

variable {u : Nat} (hfirst : 32 ≤ u) (hlast : u < 96)

include hfirst hlast

/-- A signal core that leaves service keeps its task until the planner takes that up (R252). -/
theorem takeOut_of_core (s : State) : takeOut s u = s := by
  rw [takeOut, if_neg (Nat.not_lt.mpr hfirst), if_pos hlast]

theorem fenceUnit_rad (s : State) (f : Fence) (cause : Nat) : (fenceUnit s u f cause).rad = s.rad := by
  unfold fenceUnit
  dsimp only
  rw [takeOut_of_core hfirst hlast, refreshHealth_rad]
  change (raise _ _).rad = s.rad
  rw [raise_rad]
  split
  · rw [setRec_rad, modUnit_rad]
  · rw [modUnit_rad]

theorem holdUnit_rad (s : State) : (holdUnit s u).rad = s.rad := by
  unfold holdUnit
  dsimp only
  rw [if_neg (Nat.not_lt.mpr hfirst), if_pos hlast, refreshHealth_rad]
  change (raise _ _).rad = s.rad
  rw [raise_rad, modUnit_rad]

theorem selfFence_rad (s : State) (f : Fence) (cause : Nat) : (selfFence s u f cause).rad = s.rad := by
  unfold selfFence
  dsimp only
  split
  · rfl
  · split
    · rw [fenceUnit_rad hfirst hlast]
    · exact holdUnit_rad hfirst hlast s

/-- A strike against a signal core changes its record and may fence it; its task goes on. -/
theorem strike_rad (s : State) (kind location jobH sl : Nat) (confirmed : Bool) :
    (strike s u kind location jobH sl confirmed).rad = s.rad := by
  unfold strike
  dsimp only
  rw [refreshHealth_rad]
  cases confirmed
  · simp only [Bool.false_eq_true, if_false, raise_rad]
    split
    · rw [reportUnreadable, raise_rad, setUnit_rad]
    · rw [setUnit_rad]
  · simp only [if_true, selfFence_rad hfirst hlast, raise_rad]
    split
    · rw [reportUnreadable, raise_rad, setUnit_rad]
    · rw [setUnit_rad]

end Unit

/-! ### Aborts (R291–R294) -/

theorem abortOne_task (rerun : Bool) (s : State) (k j : Nat) :
    (sigCore (abortOne rerun s k) j).task = if j = k then none else (sigCore s j).task := by
  unfold abortOne
  split
  case h_1 hnone =>
    split
    case isTrue h => rw [h, hnone]
    case isFalse => rfl
  case h_2 t _ =>
    dsimp only
    rw [sigCore_modSigCore]
    split
    · rfl
    · split
      · rfl
      · split <;> rfl

theorem foldl_abortOne_task {l : List Nat} (rerun : Bool) (s : State)
    (hj : j ∈ l ∨ (sigCore s j).task = none) : (sigCore (l.foldl (abortOne rerun) s) j).task = none := by
  induction l generalizing s with
  | nil => simpa using hj
  | cons k r ih =>
    refine ih _ ?_
    rw [abortOne_task]
    by_cases hk : j = k
    · exact .inr (if_pos hk)
    · rw [if_neg hk]
      simpa [hk] using hj

/-- An abort ends the task on its core and, in paired operation, on the partner. -/
theorem abortTask_task (s : State) (k : Nat) (rerun : Bool) : (sigCore (abortTask s k rerun) k).task = none :=
  foldl_abortOne_task rerun s (.inl (by simp))

theorem abortTask_task_partner (hpair : (sigCore s k).partner = some p) (rerun : Bool) :
    (sigCore (abortTask s k rerun) p).task = none :=
  foldl_abortOne_task rerun s (.inl (by simp [hpair]))

/-- A confirmed mismatch of a pair strikes its core and ends the task on both. -/
theorem abortTask_strike_task (hk : k < 64) (hpair : (sigCore s k).partner = some p) :
    let t := abortTask (strike s (32 + k) 3 0xFFFF 0 0 true) k true
    (sigCore t k).task = none ∧ (sigCore t p).task = none := by
  refine ⟨abortTask_task .., abortTask_task_partner ?_ true⟩
  rw [sigCore_of_rad_eq (strike_rad (by omega) (by omega) ..), hpair]

theorem countMismatch_partner (s : State) (k j : Nat) : (sigCore (countMismatch s k) j).partner = (sigCore s j).partner := by
  rw [countMismatch, sigCore_modSigCore]
  split
  · split <;> rfl
  · rfl

theorem laneInstr_runs (k vd va vb : Nat) (fp : Bool) (w : Option W32) (chk : CoreCheck) (s : State)
    (f : W32 → W32 → W32) : ∃ body, laneInstr k vd va vb fp w chk s f = coreRuns k false w chk s body := by
  unfold laneInstr regInstr
  exact ⟨_, rfl⟩

/-- Every instruction of the signal cores, whatever the outcome of its checks, runs through `coreRuns`. -/
theorem exec_setCheck_of_coreInstr {i : Instr} {compat : Bool} {w : Option W32}
    (hi : coreInstr i = some (k, compat, w)) (chk : CoreCheck) (s : State) :
    ∃ body, exec (setCheck chk i) s = .next (coreRuns k compat w chk s body) := by
  unfold coreInstr at hi
  split at hi <;> cases hi
  case h_14 | h_15 | h_16 | h_17 | h_18 | h_19 | h_20 =>
    exact (laneInstr_runs ..).imp fun _ => congrArg Host.Outcome.next
  all_goals exact ⟨_, rfl⟩

/-! ### The start of a task (R249, R250, R270, R291, R294) -/

/-- The task that TASK_START brings to a core: its slot job, where there is one, names the cell and slot in S2 and S3. -/
def taskOf (s : State) (k entry : Nat) (mode : Bool) (s1 s2 s3 s4 : W32) (seqs slotJob : Nat) (work : TaskWork) : Task :=
  let j := (radDie s (coreDie k)).jobs.find? (·.id == slotJob)
  { entry := entry, mode := mode, s1 := s1, s2 := (j.map fun j => BitVec.ofNat 32 j.cell).getD s2
    s3 := (j.map fun j => BitVec.ofNat 32 (sfnOf s j.frame * 32 + j.slot)).getD s3, s4 := s4, seqs := seqs
    job := slotJob, allocs := work.allocs ++ (work.harq.map (·.alloc)).toList, slot := slotNow s }

/-- A task begun on its core and, in paired operation, on the partner. -/
def tasksBegun (s : State) (k : Nat) (t : Task) (partner : Option Nat) : State :=
  partner.elim (beginTask s k t t.s2 t.s3 partner none) fun p =>
    beginTask (beginTask s k t t.s2 t.s3 partner none) p t t.s2 t.s3 none (some k)

/-- The partner that a core needs for its next task: none unless it works in a pair. -/
def neededPartner (s : State) (k : Nat) : Option Nat :=
  if (unitSt s (32 + k)).hold != 0 then partnerFor s k else none

theorem neededPartner_of_alone (hhold : (unitSt s (32 + k)).hold = 0) : neededPartner s k = none := by
  simp [neededPartner, hhold]

theorem neededPartner_of_held (hhold : (unitSt s (32 + k)).hold ≠ 0) : neededPartner s k = partnerFor s k := by
  simp [neededPartner, hhold]

theorem rerunOf_tasksBegun (s : State) (k : Nat) (t u : Task) (partner : Option Nat) :
    rerunOf (tasksBegun s k t partner) k u = rerunOf s k u := by
  cases partner <;> rfl

section TaskStart

variable {entry seqs slotJob : Nat} {mode : Bool} {s1 s2 s3 s4 : W32} {work : TaskWork} (hk : k < 64)
  (hentry : entry < 8192) (hready : coreReady s k = true)
  (hpartner : (unitSt s (32 + k)).hold = 0 ∨ partnerFor s k ≠ none)

include hk hentry hready hpartner

theorem exec_taskStart_of_ready : exec (.taskStart k entry mode s1 s2 s3 s4 seqs slotJob work) s = .next (
    let t := taskOf s k entry mode s1 s2 s3 s4 seqs slotJob work
    let a := tasksBegun s k t (neededPartner s k)
    match rerunOf a k t, (radDie s (coreDie k)).jobs.find? (·.id == slotJob), work.harq with
    | some r, _, _ => modRadDie a (coreDie k) fun x => { x with reruns := x.reruns.erase r }
    | none, some j, some h => if j.dir = 2 then harqCombine a (coreDie k) j h else a
    | _, _, _ => a) := by
  refine congrArg Host.Outcome.next ((if_neg ?_).trans rfl)
  rcases hpartner with h | h <;> simp [Nat.not_le.mpr hk, Nat.not_le.mpr hentry, hready, h]

/-- A rerun begins like any task, and its HARQ combining is done already. -/
theorem exec_taskStart_of_rerun {r : Nat × Task}
    (hrerun : rerunOf s k (taskOf s k entry mode s1 s2 s3 s4 seqs slotJob work) = some r) :
    exec (.taskStart k entry mode s1 s2 s3 s4 seqs slotJob work) s = .next (
      modRadDie (tasksBegun s k (taskOf s k entry mode s1 s2 s3 s4 seqs slotJob work) (neededPartner s k)) (coreDie k)
        fun x => { x with reruns := x.reruns.erase r }) := by
  rw [exec_taskStart_of_ready hk hentry hready hpartner]
  dsimp only
  rw [rerunOf_tasksBegun, hrerun]

theorem exec_taskStart_of_no_rerun (hharq : work.harq = none)
    (hrerun : rerunOf s k (taskOf s k entry mode s1 s2 s3 s4 seqs slotJob work) = none) :
    exec (.taskStart k entry mode s1 s2 s3 s4 seqs slotJob work) s = .next (
      tasksBegun s k (taskOf s k entry mode s1 s2 s3 s4 seqs slotJob work) (neededPartner s k)) := by
  rw [exec_taskStart_of_ready hk hentry hready hpartner]
  dsimp only
  rw [rerunOf_tasksBegun, hrerun, hharq]
  cases (radDie s (coreDie k)).jobs.find? (·.id == slotJob) <;> rfl

/-- A task without HARQ combining begins on its cores, whether or not it is a rerun. -/
theorem exec_taskStart_cores (hharq : work.harq = none) :
    Completes (.taskStart k entry mode s1 s2 s3 s4 seqs slotJob work) s fun t => t.rad.cores =
      (tasksBegun s k (taskOf s k entry mode s1 s2 s3 s4 seqs slotJob work) (neededPartner s k)).rad.cores := by
  cases hrerun : rerunOf s k (taskOf s k entry mode s1 s2 s3 s4 seqs slotJob work) with
  | none => exact ⟨_, exec_taskStart_of_no_rerun hk hentry hready hpartner hharq hrerun, rfl⟩
  | some r => exact ⟨_, exec_taskStart_of_rerun hk hentry hready hpartner hrerun, rfl⟩

end TaskStart

/-- The registers and the task that a core begins with. -/
theorem sigCore_beginTask (s : State) (k : Nat) (t : Task) (s2 s3 : W32) (partner copyOf : Option Nat) (j : Nat) :
    sigCore (beginTask s k t s2 s3 partner copyOf) j = if j = k then
      setS (setS (setS (setS { sigCore s k with
        v := [], acc := [], sreg := [], p := [], lc := [], loops := [], accSat := false, extSat := false, cmp := false
        mode := t.mode, pc := t.entry, waiting := none, task := some t, timerAt := now s, partner := partner
        copyOf := copyOf, outbox := [], tended := false } 1 t.s1) 2 s2) 3 s3) 4 t.s4
      else sigCore s j := by
  rw [beginTask, sigCore_modSigCore]
  split
  case isTrue h => rw [h]
  case isFalse => rfl

theorem sReg_setS (x : SigCore) {i : Nat} (hi : i ≠ 0) (v : W32) (j : Nat) :
    sReg (setS x i v) j = if j = i then v else sReg x j := by
  rw [setS, if_neg hi]
  by_cases hj : j = 0
  · rw [sReg, sReg, if_pos hj, if_pos hj, if_neg (hj ▸ hi.symm)]
  · simp only [sReg, if_neg hj]
    exact tget_tset ..

/-- A partner is another core of the die (R294). -/
theorem of_partnerFor (hpartner : partnerFor s k = some p) : p ≠ k ∧ coreDie p = coreDie k := by
  have hmem := List.mem_of_find?_eq_some hpartner
  have hfound := List.find?_some hpartner
  simp only [Bool.and_eq_true, bne_iff_ne] at hfound
  obtain ⟨⟨hother, -⟩, -⟩ := hfound
  refine ⟨hother, ?_⟩
  simp only [List.mem_map, List.mem_range] at hmem
  obtain ⟨i, hi, rfl⟩ := hmem
  simp only [coreDie]
  omega

/-! ### The end of a task (R46, R235, R270, R294) -/

@[simp] theorem taskOver_task (s : State) (k j : Nat) :
    (sigCore (taskOver s k) j).task = if j = k then none else (sigCore s j).task := by
  rw [taskOver, sigCore_of_rad_eq (taskBoundary_rad ..), sigCore_modSigCore]
  split <;> rfl

theorem taskEnds_rad (s : State) (k : Nat) : (taskEnds s k).rad = (modSigCore s k fun x => { x with
    task := none, tasks := x.tasks + 1, loops := [], partner := none, copyOf := none, tended := false }).rad :=
  taskBoundary_rad ..

theorem partner_of_not_isPaired (halone : isPaired (sigCore s k) = false) :
    (sigCore s k).partner = none ∧ (sigCore s k).copyOf = none := by
  simpa [isPaired] using halone

/-- A task that is not late and not the last of its slot job ends on its cores, and no more. -/
theorem endTask_of_no_report (s : State) (k : Nat) : endTask s k false none = (k :: (sigCore s k).partner.toList).foldl
    taskOver (noteActive s { domain := unitDomain (32 + k), radio := true, beats := 1 }) := by
  unfold endTask
  dsimp only
  generalize List.find? _ _ = o
  cases o <;> rfl

theorem endTask_of_alone (hpartner : (sigCore s k).partner = none) : endTask s k false none = taskEnds s k := by
  rw [endTask_of_no_report, hpartner]
  rfl

theorem endTask_task_of_pair (hpartner : (sigCore s k).partner = some p) :
    (sigCore (endTask s k false none) k).task = none ∧ (sigCore (endTask s k false none) p).task = none := by
  simp [endTask_of_no_report, hpartner]

/-- The last task of a slot job writes its report. -/
theorem endTask_of_last {d : SlotDone} {i : SlotJob} (hpartner : (sigCore s k).partner = none)
    (htask : (sigCore s k).task.map (·.job) = some i.id)
    (hjob : (radDie s (coreDie k)).jobs.find? (·.id == i.id) = some i) :
    endTask s k false (some d) = completeSlot (taskEnds s k) (coreDie k) i d := by
  have hcores : (sigCore (noteActive s { domain := unitDomain (32 + k), radio := true, beats := 1 }) k).partner = none :=
    hpartner
  have hdies : radDie (taskEnds s k) (coreDie k) = radDie s (coreDie k) := by
    simp only [radDie, taskEnds_rad]
    rfl
  simp only [endTask, Bool.false_eq_true, if_false, hcores, htask]
  change (match (radDie (taskEnds s k) (coreDie k)).jobs.find? (·.id == i.id), some d with
    | some j, some r => completeSlot (taskEnds s k) (coreDie k) j r
    | _, _ => taskEnds s k) = _
  rw [hdies, hjob]

section Tend

variable (hat : CoreAt s k true (some 0xFC000000))

include hat

/-- A core that works alone ends its task. -/
theorem exec_tend_of_alone (halone : isPaired (sigCore s k) = false) (done : Option SlotDone) :
    exec (.tend k false done .ok) s = .next (modSigCore (endTask s k false done) k fun x =>
      retired x 1 (now (endTask s k false done))) := by
  obtain ⟨hpartner, hcopy⟩ := partner_of_not_isPaired halone
  refine congrArg Host.Outcome.next ((coreRuns_at hat).trans ?_)
  simp only [hpartner, hcopy]
  rfl

theorem exec_tend_of_copy {m : Nat} (hcopy : (sigCore s k).copyOf = some m) (done : Option SlotDone) :
    exec (.tend k false done .ok) s = .next (modSigCore (modSigCore s k fun x => { x with tended := true }) k fun x =>
      retired x 1 (now s)) := by
  refine congrArg Host.Outcome.next ((coreRuns_at hat).trans ?_)
  simp only [hcopy]
  rfl

section Main

variable (hcopy : (sigCore s k).copyOf = none) (hpartner : (sigCore s k).partner = some p)

include hcopy hpartner

theorem exec_tend_of_waiting (hwaits : (sigCore s p).tended = false) (done : Option SlotDone) :
    exec (.tend k false done .ok) s = .next s := by
  refine congrArg Host.Outcome.next ((coreRuns_at hat).trans ?_)
  simp only [hcopy, hpartner, hwaits]
  rfl

/-- Once the copy has come to its end, the task ends on both cores, unless one of them has written or pushed what the other
has not: then both are aborted. -/
theorem exec_tend_of_both (htended : (sigCore s p).tended = true) (done : Option SlotDone) :
    exec (.tend k false done .ok) s = .next (
      if (sigCore s k).outbox.isEmpty && (sigCore s p).outbox.isEmpty then
        modSigCore (endTask s k false done) k fun x => retired x 1 (now (endTask s k false done))
      else abortTask (strike s (32 + k) 3 0xFFFF 0 0 true) k true) := by
  refine congrArg Host.Outcome.next ((coreRuns_at hat).trans ?_)
  simp only [hcopy, hpartner, htended]
  cases (sigCore s k).outbox.isEmpty && (sigCore s p).outbox.isEmpty <;> rfl

end Main

end Tend

/-! ### Queues and waits (R283, R287, R294) -/

theorem sigCore_modRadDie (s : State) (d : Nat) (f : RadDie → RadDie) (j : Nat) :
    sigCore (modRadDie s d f) j = sigCore s j := rfl

theorem sigCore_unitTimer (s : State) (die q j : Nat) : sigCore (unitTimer s die q) j = sigCore s j := by
  unfold unitTimer
  split <;> rfl

/-- A descriptor joins the end of its queue. -/
theorem coreQueue_pushDesc (s : State) (k q : Nat) (d : List W64) :
    coreQueue (pushDesc s k q d) k q = coreQueue s k q ++ [d] := by
  have hqueues : (sigCore (pushDesc s k q d) k).queues = tmod [] (sigCore s k).queues q fun l => l ++ [d] := by
    unfold pushDesc
    dsimp only
    cases placeOf s k q d false <;> simp only [Option.elim, sigCore_modRadDie, sigCore_modSigCore, if_true] <;>
      split <;> simp only [sigCore_unitTimer]
  rw [coreQueue, hqueues, tget_tmod_same]
  rfl

/-- What a core that works alone releases leaves it at once. -/
theorem releaseFrom_of_alone (htask : (sigCore s k).task.isSome = true) (halone : isPaired (sigCore s k) = false)
    (r : Release) : releaseFrom s k r = releaseOne s k r := by
  have hrunning : (sigCore s k).task.isNone = false := by simpa using htask
  simp [releaseFrom, hrunning, halone]

theorem exec_qpush_at {vs sd q : Nat} (hat : CoreAt s k true (coreInstr (.qpush k vs sd q .ok)).get!.2.2) :
    exec (.qpush k vs sd q .ok) s = .next (
      let d := wordsOf 4 (vBytes (vReg (sigCore s k) vs))
      if pushRefused s k q d then coreStep s k 1 fun x => setS x sd 2
      else if 16 ≤ queueTaken s k q then
        modSigCore (modSigCore s k fun x => setS x sd 1) k fun x => advancePc { x with beats := x.beats + 1 }
      else let t := releaseFrom s k (.desc q d)
        if (sigCore t k).task = none then t else coreStep t k 1 fun x => setS x sd 0) := by
  refine congrArg Host.Outcome.next ((coreRuns_at hat).trans ?_)
  dsimp only
  split
  · rfl
  · split
    · rfl
    · unfold Retire.released
      cases htask : (sigCore (releaseFrom s k (.desc q (wordsOf 4 (vBytes (vReg (sigCore s k) vs))))) k).task <;> rfl

theorem exec_qpop_at {sd q : Nat} (hq : q ≤ 10) (hat : CoreAt s k true (coreInstr (.qpop k sd q .ok)).get!.2.2) :
    exec (.qpop k sd q .ok) s = .next (coreStep s k 1 fun x =>
      setS x sd (BitVec.ofNat 32 (16 - queueTaken s k q))) := by
  refine congrArg Host.Outcome.next ((coreRuns_at hat).trans ?_)
  simp only [Nat.not_lt.mpr hq, if_false]
  rfl

theorem exec_waitc_at {sv : Nat} {bs : List Byte} (hat : CoreAt s k true (coreInstr (.waitc k p sv .ok)).get!.2.2)
    (hread : coreRead s k (pReg (sigCore s k) p) 8 = .ok bs) :
    exec (.waitc k p sv .ok) s = .next (if (sReg (sigCore s k) sv).toNat ≤ leNat bs then
        modSigCore s k fun x => advancePc (retired x 1 (now s))
      else modSigCore s k fun x => { x with waiting := some p }) := by
  refine congrArg Host.Outcome.next ((coreRuns_at hat).trans ?_)
  simp only [hread]
  split
  · rfl
  · rfl

/-! ### Compatibility mode and illegal words (R275, R276, R293) -/

section Compat

variable {w : W32} (hat : CoreAt s k true (some w)) (hmode : (sigCore s k).mode = true)
  (hcompat : compatNative (opOf w) = false)

include hat hmode hcompat

theorem exec_fl5Instruction_at (peripheral : Bool) : exec (.fl5Instruction k w peripheral .ok) s = .next (settle s k (
    if peripheral then .fault
    else if (sigCore (fl5Effect s k) k).task.isNone then .aborted (fl5Effect s k)
    else .jump (fl5Effect s k) 1 (sigCore (fl5Effect s k) k).pc)) := by
  refine congrArg Host.Outcome.next ((if_neg ?_).trans (coreRuns_at hat))
  simp [hmode, hcompat]

theorem exec_fl5Instruction_of_core : exec (.fl5Instruction k w false .ok) s = .next (
    if (sigCore (fl5Effect s k) k).task = none then fl5Effect s k
    else modSigCore (fl5Effect s k) k fun x => { retired x 1 (now (fl5Effect s k)) with
      pc := (sigCore (fl5Effect s k) k).pc % 8192 }) := by
  rw [exec_fl5Instruction_at hat hmode hcompat]
  cases htask : (sigCore (fl5Effect s k) k).task <;> rfl

end Compat

theorem exec_illegalInstruction_at {w : W32} (hat : CoreAt s k true (some w))
    (hillegal : illegalWord (sigCore s k).mode w = true) :
    exec (.illegalInstruction k w) s = .next (firmwareFault s k) :=
  congrArg Host.Outcome.next ((if_pos hillegal).trans (coreRuns_at hat))

/-! ### The stall and the instruction store (R273, R292) -/

theorem exec_scStall_of_due (hk : k < 64) (hbusy : coreIdle s k = false)
    (hdue : ticksPerSlot ≤ since s (sigCore s k).timerAt) :
    exec (.scStall k) s = .next ((waitTargets s k).foldl markSuspect (markSuspect (countReset (resetUnit (modSigCore
      (hangRecord (countHang s (32 + k)) 3 (32 + k) (4 + coreDie k) 0xFF
        (32 + k + 256 * (waitTargets s k).headD 0xFF)) k fun x => { x with stall := true }) (32 + k)) (32 + k) 5)
          (32 + k))) := by
  refine congrArg Host.Outcome.next (if_neg ?_)
  simp [Nat.not_le.mpr hk, hbusy, Nat.not_lt.mpr hdue]

theorem exec_instructionStoreWrite_of_range {i : Nat} (hk : k < 64) (hi : i < 8192) (w : W32) :
    exec (.instructionStoreWrite k i w) s = .next (
      if !coreIdle s k then modSigCore s k fun x => { x with iwriteRefused := true }
      else modSigCore s k fun x => { x with
        store := tset 0 x.store i w, image := tset 0 x.image i w, storeBad := false }) := by
  refine congrArg Host.Outcome.next (if_neg ?_)
  simp [Nat.not_le.mpr hk, Nat.not_le.mpr hi]

end Sys2Proof.Machine

namespace Sys2Proof

open Machine

/-- Settles O36: a core that has come to an instruction does what the instruction comes to, a boundary or a strike leaves the
tasks of the cores alone, and an abort ends those of a pair. -/
theorem tasksRun : Obligations.TasksRun := by
  unfold Obligations.TasksRun
  refine ⟨?start, ?pair, ?rerun, ?mismatch, ?ends, ?last, ?main, ?copy, ?push, ?pop, ?wait, ?fl5, ?illegal, ?stall, ?idle,
    ?refused⟩
  case start =>
    intro k entry seqs mode s1 s2 s3 s4 s hk hentry hready hhold hreruns
    have hrerun : rerunOf s k (taskOf s k entry mode s1 s2 s3 s4 seqs 0 {}) = none := by simp [rerunOf, hreruns]
    refine ⟨_, exec_taskStart_of_no_rerun hk hentry hready (.inl hhold) rfl hrerun, ?_⟩
    rw [neededPartner_of_alone hhold]
    simp only [tasksBegun, Option.elim, sigCore_beginTask, if_true]
    refine ⟨rfl, rfl, ?_, ?_, rfl, rfl, rfl, rfl, rfl, rfl, rfl, rfl, fun j hj => if_neg hj, rfl, rfl⟩
    · simp [sReg_setS, taskOf]
    · simp [sReg_setS, taskOf]
  case pair =>
    intro k p entry seqs mode s1 s2 s3 s4 s hk hentry hready hhold hpartner
    obtain ⟨hother, hdie⟩ := of_partnerFor hpartner
    obtain ⟨t, hexec, hcores⟩ := exec_taskStart_cores (s1 := s1) (s2 := s2) (s3 := s3) (s4 := s4) (mode := mode)
      (seqs := seqs) (slotJob := 0) (work := {}) hk hentry hready (.inr (by simp [hpartner])) rfl
    rw [neededPartner_of_held hhold, hpartner] at hcores
    have hcore (j : Nat) : sigCore t j = sigCore (tasksBegun s k
        (taskOf s k entry mode s1 s2 s3 s4 seqs 0 {}) (some p)) j := by simp only [sigCore, hcores]
    refine ⟨t, hexec, hother, hdie, ?_⟩
    simp only [hcore, tasksBegun, Option.elim, sigCore_beginTask, if_true, if_neg hother.symm]
    exact ⟨rfl, rfl, rfl, rfl, rfl⟩
  case rerun =>
    intro k entry seqs slotJob mode s1 s2 s3 s4 work r s hk hentry hready hhold hreruns hcore hrentry hrmode hrs1 hrjob
    have hrerun : rerunOf s k (taskOf s k entry mode s1 s2 s3 s4 seqs slotJob work) = some r := by
      simp [rerunOf, hreruns, taskOf, hcore, hrentry, hrmode, hrs1, hrjob]
    refine ⟨_, exec_taskStart_of_rerun hk hentry hready (.inl hhold) hrerun, ?_⟩
    rw [neededPartner_of_alone hhold]
    simp only [tasksBegun, Option.elim, radDie_modRadDie, if_true, sigCore_modRadDie, sigCore_beginTask]
    refine ⟨?_, rfl, rfl⟩
    change (radDie s (coreDie k)).reruns.erase r = []
    rw [hreruns, List.erase_cons_head]
  case mismatch =>
    intro i k p compat w s hi hat hpartner
    obtain ⟨body, hexec⟩ := exec_setCheck_of_coreInstr hi .replayFails s
    refine ⟨_, hexec.trans (congrArg Host.Outcome.next (coreRuns_at hat)), abortTask_strike_task hat.1 ?_⟩
    rw [countMismatch_partner, hpartner]
  case ends =>
    intro k s hat halone
    have hends := endTask_of_alone (partner_of_not_isPaired halone).1
    rw [exec_tend_of_alone hat halone, hends, sigCore_of_rad_eq (taskEnds_rad s k), sigCore_modSigCore, if_pos rfl]
    exact ⟨rfl, rfl, rfl⟩
  case last =>
    intro k d j s hat halone htask hjob
    dsimp only
    rw [exec_tend_of_alone hat halone, endTask_of_last (partner_of_not_isPaired halone).1 htask hjob]
  case main =>
    intro k p s hat hcopy hpartner hother
    refine ⟨fun hwaits => exec_tend_of_waiting hat hcopy hpartner hwaits none, fun htended => ⟨_,
      exec_tend_of_both hat hcopy hpartner htended none, ?_⟩⟩
    split
    · obtain ⟨hmain, hcopied⟩ := endTask_task_of_pair hpartner
      rw [sigCore_modSigCore, sigCore_modSigCore, if_pos rfl, if_neg hother]
      exact ⟨hmain, hcopied⟩
    · exact abortTask_strike_task hat.1 hpartner
  case copy =>
    intro k m s hat hcopy
    refine ⟨_, exec_tend_of_copy hat hcopy none, ?_⟩
    simp only [sigCore_modSigCore, if_true]
    exact ⟨rfl, rfl, fun j hj => by rw [if_neg hj, if_neg hj]⟩
  case push =>
    intro k vs sd q s hat
    refine ⟨exec_qpush_at hat, fun halone => ?_⟩
    obtain ⟨-, htask, -⟩ := hat
    rw [releaseFrom_of_alone htask halone]
    exact ⟨rfl, coreQueue_pushDesc ..⟩
  case pop => exact fun k sd q s hq hat => exec_qpop_at hq hat
  case wait => exact fun k p sv bs s hat hread => exec_waitc_at hat hread
  case fl5 =>
    exact fun k w s hat hmode hcompat =>
      ⟨exec_fl5Instruction_at hat hmode hcompat true, exec_fl5Instruction_of_core hat hmode hcompat⟩
  case illegal => exact fun k w s hat hillegal => exec_illegalInstruction_at hat hillegal
  case stall => exact fun k s hk hbusy hdue => exec_scStall_of_due hk hbusy hdue
  case idle =>
    intro k i w s hk hi hidle
    refine ⟨_, exec_instructionStoreWrite_of_range hk hi w, ?_⟩
    simp only [hidle, Bool.not_true, Bool.false_eq_true, if_false, sigCore_modSigCore, if_true, true_and]
    exact ⟨fun j hj => if_neg hj, rfl⟩
  case refused =>
    intro k i w s hk hi hbusy
    refine ⟨_, exec_instructionStoreWrite_of_range hk hi w, ?_⟩
    simp only [hbusy, Bool.not_false, if_true, sigCore_modSigCore, true_and]
    exact ⟨fun j hj => if_neg hj, rfl⟩

end Sys2Proof
end

section
/-! PROOFS. The course of an instruction of the signal cores (R276, R290–R293): every one runs through its checks with one
body, and a word whose operands break a constraint comes to a fault. -/

namespace Sys2Proof.Machine

variable {s : State} {k : Nat}

/-! ### One body behind every outcome of the checks (R291, R293) -/

theorem exists_setCheck_eq_self {i : Instr} {r : Nat × Bool × Option W32} (hi : coreInstr i = some r) :
    ∃ chk, setCheck chk i = i := by
  unfold coreInstr at hi
  split at hi
  case h_36 => cases hi
  all_goals exact ⟨_, rfl⟩

/-- Neither the outcome of the checks nor the state decides what an instruction does once it runs. -/
theorem exists_body_of_coreInstr {i : Instr} {compat : Bool} {w : Option W32} (hi : coreInstr i = some (k, compat, w)) :
    ∃ body, ∀ chk s, exec (setCheck chk i) s = .next (coreRuns k compat w chk s body) := by
  unfold coreInstr at hi
  split at hi <;> cases hi
  all_goals exact ⟨_, fun _ _ => rfl⟩

/-- A body that comes to a fault leaves a radio firmware fault (R293). -/
theorem coreRuns_of_fault {compat : Bool} {w : Option W32} {body : State → Retire} (hat : CoreAt s k compat w)
    (hfault : body s = .fault) : coreRuns k compat w .ok s body = firmwareFault s k := by
  rw [coreRuns_at hat]
  dsimp only
  rw [hfault, settle]

/-! ### A body that changes registers and retires (R292, R295) -/

theorem settle_next_modSigCore (s₀ s : State) (k b : Nat) (f : SigCore → SigCore) :
    settle s₀ k (.next (modSigCore s k f) b) = coreStep s k b f := rfl

theorem coreRuns_of_next {compat : Bool} {w : Option W32} {body : State → Retire} {b : Nat} {f : SigCore → SigCore}
    (hat : CoreAt s k compat w) (hnext : body s = .next (modSigCore s k f) b) :
    coreRuns k compat w .ok s body = coreStep s k b f := by
  rw [coreRuns_at hat]
  dsimp only
  rw [hnext, settle_next_modSigCore]

end Sys2Proof.Machine

namespace Sys2Proof

open Machine

/-- Settles O33: every instruction has one body behind its checks, which a core that has not come to it does not reach, and
the body of a word that breaks a constraint is a fault. -/
theorem coreInstructionsAreChecked : Obligations.CoreInstructionsAreChecked := by
  unfold Obligations.CoreInstructionsAreChecked
  refine ⟨?elsewhere, ?checks, ?pair, ?shift, ?code⟩
  case elsewhere =>
    intro c k compat w s hc hnot
    obtain ⟨chk, hself⟩ := exists_setCheck_eq_self hc
    obtain ⟨body, hexec⟩ := exists_body_of_coreInstr hc
    rw [← hself, hexec, coreRuns_not hnot]
  case checks =>
    intro c k compat w s hc hat
    obtain ⟨body, hexec⟩ := exists_body_of_coreInstr hc
    simp only [hexec, coreRuns_at hat, coreRuns_at (coreAt_countCorrected hat), and_self]
  case pair =>
    intro k r a b n x y imm s hodd
    refine ⟨fun hat => congrArg Host.Outcome.next (coreRuns_of_fault hat (if_pos hodd)),
      fun hat => congrArg Host.Outcome.next (coreRuns_of_fault hat (if_pos ?_)),
      fun hat => congrArg Host.Outcome.next (coreRuns_of_fault hat (if_pos ?_)),
      fun hat => congrArg Host.Outcome.next (coreRuns_of_fault hat (if_pos hodd))⟩
    · simp [hodd]
    · simp [hodd]
  case shift =>
    intro k a b sh clr fp s hbad hat
    refine congrArg Host.Outcome.next (coreRuns_of_fault hat (if_pos ?_))
    simpa using hbad
  case code =>
    exact fun k a b c n s hcode => ⟨fun hat => congrArg Host.Outcome.next (coreRuns_of_fault hat (if_pos hcode)),
      fun hat => congrArg Host.Outcome.next (coreRuns_of_fault hat (if_pos hcode)),
      fun hat => congrArg Host.Outcome.next (coreRuns_of_fault hat (if_pos hcode))⟩

end Sys2Proof
end

section
/-! PROOFS. Multiply-accumulate in int16 mode (R277, R281): the lanes of an accumulator, its saturating sums, and what VMAC
and TAPMOV add to it. -/

namespace Sys2Proof.Machine

variable {k : Nat} {s : State}

/-! ### Lanes of an accumulator (R269) -/

/-- A number made of w-bit places holds at its place i the value given for it. -/
theorem wide_places_at {w : Nat} (f : Nat → BitVec w) (n j i : Nat) (h : i < n) :
    ((List.range' j n).foldr (fun i a => a * 2 ^ w + (f i).toNat) 0) / 2 ^ (w * i) % 2 ^ w = (f (j + i)).toNat := by
  induction n generalizing j i with
  | zero => omega
  | succ n ih =>
    rw [List.range'_succ, List.foldr_cons]
    cases i with
    | zero => rw [Nat.mul_zero, Nat.pow_zero, Nat.div_one, Nat.mul_add_mod', Nat.mod_eq_of_lt (f j).isLt, Nat.add_zero]
    | succ i =>
      rw [Nat.mul_succ, Nat.add_comm (w * i), Nat.pow_add, ← Nat.div_div_eq_div_mul, Nat.mul_comm _ (2 ^ w),
        Nat.mul_add_div (Nat.two_pow_pos w), Nat.div_eq_of_lt (f j).isLt, Nat.add_zero, ih (j + 1) i (by omega)]
      congr 2
      omega

theorem accLane_ofAccLanes (f : Nat → BitVec 80) {i : Nat} (hi : i < 16) : accLane (ofAccLanes f) i = f i := by
  apply BitVec.eq_of_toNat_eq
  have hplace := wide_places_at f 16 0 i hi
  rw [Nat.zero_add] at hplace
  rw [← hplace, accLane, ofAccLanes, BitVec.extractLsb'_toNat, BitVec.toNat_ofNat, Nat.shiftRight_eq_div_pow,
    List.range_eq_range', show (1280 : Nat) = 80 * i + (1280 - 80 * i) by omega, Nat.pow_add,
    Nat.mod_mul_right_div_self, Nat.mod_mod_of_dvd]
  exact Nat.pow_dvd_pow 2 (by omega)

/-! ### Saturating sums (R277) -/

/-- A sum of two parts lies outside the 40-bit accumulator. -/
def OutsideAcc (v : Int) : Prop := v < -(2 ^ 39) ∨ 2 ^ 39 - 1 < v

/-- The nearest value that a 40-bit accumulator part holds. -/
def nearestAcc (v : Int) : Int := max (-(2 ^ 39)) (min (2 ^ 39 - 1) v)

theorem satTo_40_fst (v : Int) : (satTo 40 v).1 = nearestAcc v := by
  unfold satTo nearestAcc
  dsimp only
  split
  · dsimp only; omega
  · split
    · dsimp only; omega
    · dsimp only; omega

theorem satTo_40_snd (v : Int) : (satTo 40 v).2 = true ↔ OutsideAcc v := by
  unfold satTo OutsideAcc
  dsimp only
  split
  · simp only [true_iff]; omega
  · split
    · simp only [true_iff]; omega
    · simp only [Bool.false_eq_true, false_iff]; omega

theorem toInt_ofInt_nearestAcc (v : Int) : (BitVec.ofInt 40 (nearestAcc v)).toInt = nearestAcc v := by
  refine BitVec.toInt_ofInt_eq_self (by decide) ?_ ?_ <;> unfold nearestAcc <;> omega

theorem accI_append (re im : Int) :
    accI (BitVec.ofInt 40 im ++ BitVec.ofInt 40 re : BitVec 80) =
      ((BitVec.ofInt 40 re).toInt, (BitVec.ofInt 40 im).toInt) := by
  rw [accI, BitVec.extractLsb'_append_eq_right, BitVec.extractLsb'_append_eq_left]

theorem accI_macI (w : BitVec 80) (p : Int × Int) :
    accI (macI w p).1 = (nearestAcc ((accI w).1 + p.1), nearestAcc ((accI w).2 + p.2)) := by
  unfold macI
  dsimp only
  rw [accI_append, satTo_40_fst, satTo_40_fst, toInt_ofInt_nearestAcc, toInt_ofInt_nearestAcc]

theorem macI_saturates (w : BitVec 80) (p : Int × Int) :
    (macI w p).2 = true ↔ OutsideAcc ((accI w).1 + p.1) ∨ OutsideAcc ((accI w).2 + p.2) := by
  unfold macI
  dsimp only
  rw [Bool.or_eq_true, satTo_40_snd, satTo_40_snd]

/-! ### Products added to an accumulator (R277, R281) -/

/-- The real part of a × b, with b.im negated by CONJ, negated by NEG. -/
def productRe (a b : W32) (conj neg : Bool) : Int :=
  (if neg then -1 else 1) * (reI a * reI b - imI a * (if conj then -(imI b) else imI b))

/-- The imaginary part of a × b, with b.im negated by CONJ, negated by NEG. -/
def productIm (a b : W32) (conj neg : Bool) : Int :=
  (if neg then -1 else 1) * (reI a * (if conj then -(imI b) else imI b) + imI a * reI b)

theorem cmulI_eq (a b : W32) (conj neg : Bool) :
    cmulI a b conj neg = (productRe a b conj neg, productIm a b conj neg) := by
  cases neg <;> simp [cmulI, productRe, productIm]

/-- y is x with the products of the lanes a and b added to an accumulator, each part saturated. -/
def ProductsAdded (x y : SigCore) (acc : Nat) (conj neg : Bool) (a b : Nat → W32) : Prop :=
  (∀ i < 16,
    (accI (accLane (accReg y acc) i)).1 =
      nearestAcc ((accI (accLane (accReg x acc) i)).1 + productRe (a i) (b i) conj neg) ∧
    (accI (accLane (accReg y acc) i)).2 =
      nearestAcc ((accI (accLane (accReg x acc) i)).2 + productIm (a i) (b i) conj neg)) ∧
  (y.accSat = true ↔ x.accSat = true ∨ ∃ i < 16,
    OutsideAcc ((accI (accLane (accReg x acc) i)).1 + productRe (a i) (b i) conj neg) ∨
    OutsideAcc ((accI (accLane (accReg x acc) i)).2 + productIm (a i) (b i) conj neg)) ∧
  (∀ j ≠ acc, accReg y j = accReg x j)

theorem ProductsAdded.of_acc_eq {x y z : SigCore} {acc : Nat} {conj neg : Bool} {a b : Nat → W32}
    (h : ProductsAdded x y acc conj neg a b) (hacc : z.acc = y.acc) (hsat : z.accSat = y.accSat) :
    ProductsAdded x z acc conj neg a b := by
  unfold ProductsAdded accReg at h ⊢
  rw [hacc, hsat]
  exact h

/-- The retirement of an instruction leaves the accumulators and their flag. -/
theorem ProductsAdded.retire {x y : SigCore} {acc : Nat} {conj neg : Bool} {a b : Nat → W32}
    (h : ProductsAdded x y acc conj neg a b) (beats t : Nat) :
    ProductsAdded x (advancePc (retired y beats t)) acc conj neg a b :=
  h.of_acc_eq rfl rfl

theorem ProductsAdded.setV {x y : SigCore} {acc : Nat} {conj neg : Bool} {a b : Nat → W32}
    (h : ProductsAdded x y acc conj neg a b) (i : Nat) (v : V512) :
    ProductsAdded x (setV y i v) acc conj neg a b :=
  h.of_acc_eq rfl rfl

theorem retire_v (x : SigCore) (b t : Nat) : (advancePc (retired x b t)).v = x.v := rfl

theorem setAcc_v (x : SigCore) (i : Nat) (a : BitVec 1280) : (setAcc x i a).v = x.v := rfl

theorem accReg_setAcc_with (x : SigCore) (i : Nat) (a : BitVec 1280) (sat : Bool) (j : Nat) :
    accReg { setAcc x i a with accSat := sat } j = if j = i then a else accReg x j :=
  tget_tset ..

section MacAll

variable (x : SigCore) (acc : Nat) (conj neg : Bool) (a b : Nat → W32)

theorem macAll_int : macAll x acc false conj neg a b =
    { setAcc x acc (ofAccLanes fun i => (macI (accLane (accReg x acc) i) (cmulI (a i) (b i) conj neg)).1) with
      accSat := x.accSat || (List.range 16).any fun i =>
        (macI (accLane (accReg x acc) i) (cmulI (a i) (b i) conj neg)).2 } := by
  rw [macAll, if_neg Bool.false_ne_true]

theorem macAll_int_v : (macAll x acc false conj neg a b).v = x.v := by
  rw [macAll_int]
  dsimp only
  rw [setAcc_v]

theorem productsAdded_macAll : ProductsAdded x (macAll x acc false conj neg a b) acc conj neg a b := by
  rw [macAll_int]
  refine ⟨fun i hi => ?lanes, ?flag, fun j hj => (accReg_setAcc_with ..).trans (if_neg hj)⟩
  case lanes =>
    rw [accReg_setAcc_with, if_pos rfl, accLane_ofAccLanes _ hi, accI_macI, cmulI_eq]
    simp only [and_self]
  case flag => simp only [Bool.or_eq_true, List.any_eq_true, List.mem_range, macI_saturates, cmulI_eq]

end MacAll

/-! ### VMAC and TAPMOV (R277, R281) -/

theorem exec_vmac_at {acc va vb : Nat} {conj neg fp : Bool}
    (hat : CoreAt s k false (coreInstr (.vmac k acc va vb conj neg fp .ok)).get!.2.2) :
    exec (.vmac k acc va vb conj neg fp .ok) s = .next (coreStep s k (formBeats fp) fun x =>
      macAll x acc fp conj neg (lane (vReg x va)) (lane (vReg x vb))) :=
  congrArg Host.Outcome.next (coreRuns_of_next hat rfl)

/-- The products are of the values held before the shift of the delay line. -/
theorem exec_tapmov_at {acc vw vc tap : Nat} {conj fp : Bool} (heven : vw % 2 = 0)
    (hat : CoreAt s k false (coreInstr (.tapmov k acc vw vc tap conj fp .ok)).get!.2.2) :
    exec (.tapmov k acc vw vc tap conj fp .ok) s = .next (coreStep s k (formBeats fp) fun x =>
      setV (setV (macAll x acc fp conj false (fun _ => lane (vReg x vc) tap) (lane (vReg x vw)))
        vw (ofLanes fun i => if i = 0 then lane (vReg x (vw + 1)) 15 else lane (vReg x vw) (i - 1)))
        (vw + 1) (ofLanes fun i => if i = 0 then 0 else lane (vReg x (vw + 1)) (i - 1))) := by
  have hpair : ¬ vw % 2 = 1 := by omega
  exact congrArg Host.Outcome.next (coreRuns_of_next hat (if_neg hpair))

end Sys2Proof.Machine

namespace Sys2Proof

open Machine

/-- Settles O44: the products go to the accumulator and its flag, which the shift of the delay line and the retirement of
the instruction leave as they are. -/
theorem int16ProductsAccumulate : Obligations.Int16ProductsAccumulate := by
  unfold Obligations.Int16ProductsAccumulate
  intro re im clamp out adds
  have hadds {x y acc conj neg a b} (h : ProductsAdded x y acc conj neg a b) : adds x y acc conj neg a b := h
  refine ⟨?vmac, ?tapmov⟩
  case vmac =>
    intro k acc va vb conj neg s hat
    refine ⟨_, exec_vmac_at hat, ?_⟩
    simp only [sigCore_coreStep, if_true]
    exact ⟨hadds ((productsAdded_macAll ..).retire ..), (retire_v ..).trans (macAll_int_v ..)⟩
  case tapmov =>
    intro k acc vw vc tap conj s heven hat
    refine ⟨_, exec_tapmov_at heven hat, ?_⟩
    simp only [sigCore_coreStep, if_true]
    exact hadds ((((productsAdded_macAll ..).setV ..).setV ..).retire ..)

end Sys2Proof
end

section
/-! PROOFS. Vector instructions of the signal cores (R269, R278, R279, R282): the lanes that each one writes. -/

namespace Sys2Proof.Machine

variable {s : State} {k : Nat} {w : Option W32}

/-! ### Instructions that change registers only (R269, R295) -/

theorem regInstr_at (hat : CoreAt s k false w) (b : Nat) (f : SigCore → SigCore) :
    regInstr k b w .ok s f = coreStep s k b f :=
  coreRuns_of_next hat rfl

theorem laneInstr_at (hat : CoreAt s k false w) (vd va vb : Nat) (fp : Bool) (f : W32 → W32 → W32) :
    laneInstr k vd va vb fp w .ok s f = coreStep s k (formBeats fp) fun x =>
      setV x vd (ofLanes fun i => f (lane (vReg x va) i) (lane (vReg x vb) i)) :=
  regInstr_at hat ..

theorem vReg_setV (x : SigCore) (i j : Nat) (v : V512) : vReg (setV x i v) j = if j = i then v else vReg x j :=
  tget_tset ..

theorem fld_low_nibble (v : W32) : fld v 3 0 = v.toNat % 16 := rfl

/-! ### Single instructions (R278, R279, R282) -/

theorem exec_vpow_at {vd va : Nat} (hat : CoreAt s k false (encodeFields 0x05 [(21, 5, vd), (16, 5, va)])) :
    exec (.vpow k vd va .ok) s = .next (coreStep s k 1 fun x => setV x vd (ofLanes fun i =>
      BitVec.ofInt 32 (reI (lane (vReg x va) i) ^ 2 + imI (lane (vReg x va) i) ^ 2))) := by
  simp only [sq]
  exact congrArg Host.Outcome.next (laneInstr_at hat ..)

theorem exec_vperm_at {vd va vi : Nat}
    (hat : CoreAt s k false (encodeFields 0x09 [(21, 5, vd), (16, 5, va), (11, 5, vi)])) :
    exec (.vperm k vd va vi .ok) s = .next (coreStep s k 1 fun x => setV x vd (ofLanes fun i =>
      lane (vReg x va) ((lane (vReg x vi) i).toNat % 16))) := by
  simp only [← fld_low_nibble]
  exact congrArg Host.Outcome.next (regInstr_at hat ..)

section Scramble

variable {vd va vs : Nat}

theorem exec_vscr_complex_at (hat : CoreAt s k false (coreInstr (.vscr k vd va vs true .ok)).get!.2.2) :
    exec (.vscr k vd va vs true .ok) s = .next (coreStep s k 1 fun x => setV x vd (vReg x va ^^^ vReg x vs)) :=
  congrArg Host.Outcome.next (coreRuns_of_next hat rfl)

/-- Without an LLR of −128 every sign has its inverse. -/
theorem exec_vscr_llr_at (hat : CoreAt s k false (coreInstr (.vscr k vd va vs false .ok)).get!.2.2)
    (hllr : ∀ j < 64, vByte (vReg (sigCore s k) va) j ≠ 0x80) :
    exec (.vscr k vd va vs false .ok) s = .next (coreStep s k 1 fun x => setV x vd (ofBytes ((List.range 64).map
      fun j => if bitOf (vReg x vs) j then -(vByte (vReg x va) j) else vByte (vReg x va) j))) := by
  have hnone : ((List.range 64).any fun j =>
      bitOf (vReg (sigCore s k) vs) j && vByte (vReg (sigCore s k) va) j == 0x80) = false := by
    simpa using fun j hj _ => hllr j hj
  refine congrArg Host.Outcome.next (coreRuns_of_next hat ?_)
  simp only [hnone, Bool.false_eq_true, if_false, modSigCore]
  refine congrArg (fun bs => Retire.next (setSigCore s k (setV (sigCore s k) vd (ofBytes bs))) 1)
    (List.map_congr_left fun j hj => ?_)
  rw [beq_eq_false_iff_ne.mpr (hllr j (List.mem_range.mp hj))]
  cases bitOf (vReg (sigCore s k) vs) j <;> rfl

end Scramble

theorem exec_vext_at {vd acc sh : Nat} {clr fp : Bool} (hshift : sh ≤ 39) (hfp : fp = true → sh = 0)
    (hat : CoreAt s k false (coreInstr (.vext k vd acc sh clr fp .ok)).get!.2.2) :
    exec (.vext k vd acc sh clr fp .ok) s = .next (coreStep s k (formBeats fp) fun x =>
      let r (i : Nat) := extractLane (accLane (accReg x acc) i) sh fp
      let y := { setV x vd (ofLanes fun i => (r i).1) with
        extSat := x.extSat || (List.range 16).any fun i => (r i).2 }
      if clr then setAcc y acc 0 else y) := by
  have hlegal : ¬ (decide (sh > 39) || (fp && sh != 0)) = true := by
    simp only [Bool.or_eq_true, decide_eq_true_eq, Bool.and_eq_true, bne_iff_ne]
    rintro (hlarge | ⟨hset, hother⟩)
    · omega
    · exact hother (hfp hset)
  exact congrArg Host.Outcome.next (coreRuns_of_next hat (if_neg hlegal))

/-- The registers, flags and counters of one core change, and nothing else. -/
theorem coreStep_frame (s : State) (k b : Nat) (f : SigCore → SigCore) :
    (∀ j ≠ k, sigCore (coreStep s k b f) j = sigCore s j) ∧ (coreStep s k b f).pkg = s.pkg ∧
    (coreStep s k b f).jobs = s.jobs ∧ (coreStep s k b f).rad.dies = s.rad.dies ∧
    (coreStep s k b f).rad.cells = s.rad.cells ∧ (coreStep s k b f).lin = s.lin :=
  ⟨fun _ hj => (sigCore_coreStep ..).trans (if_neg hj), rfl, rfl, rfl, rfl, rfl⟩

end Sys2Proof.Machine

namespace Sys2Proof

open Machine

/-- Settles O34: a core that has come to a vector instruction retires with the change of registers that its body gives. -/
theorem vectorInstructionsRun : Obligations.VectorInstructionsRun := by
  unfold Obligations.VectorInstructionsRun
  refine ⟨?add, ?sub, ?mul, ?conj, ?pow, ?max, ?min, ?sel, ?perm, ?scr, ?sat8, ?llradd, ?mac, ?tapmov, ?ext, ?lane, ?write,
    ?frame⟩
  case add => exact fun k vd va vb fp s hat => congrArg Host.Outcome.next (laneInstr_at hat ..)
  case sub => exact fun k vd va vb fp s hat => congrArg Host.Outcome.next (laneInstr_at hat ..)
  case mul => exact fun k vd va vb fp s hat => congrArg Host.Outcome.next (laneInstr_at hat ..)
  case conj => exact fun k vd va fp s hat => congrArg Host.Outcome.next (laneInstr_at hat ..)
  case pow => exact fun k vd va s hat => exec_vpow_at hat
  case max =>
    exact fun k vd va vb s => ⟨fun hat => congrArg Host.Outcome.next (laneInstr_at hat ..),
      fun hat => congrArg Host.Outcome.next (laneInstr_at hat ..)⟩
  case min =>
    exact fun k vd va vb s => ⟨fun hat => congrArg Host.Outcome.next (laneInstr_at hat ..),
      fun hat => congrArg Host.Outcome.next (laneInstr_at hat ..)⟩
  case sel => exact fun k vd va vb sm s hat => congrArg Host.Outcome.next (regInstr_at hat ..)
  case perm => exact fun k vd va vi s hat => exec_vperm_at hat
  case scr => exact fun k vd va vs s => ⟨exec_vscr_complex_at, exec_vscr_llr_at⟩
  case sat8 => exact fun k vd va vb sh s hat => congrArg Host.Outcome.next (regInstr_at hat ..)
  case llradd => exact fun k vd va vb s hat => congrArg Host.Outcome.next (regInstr_at hat ..)
  case mac => exact fun k acc va vb conj neg fp s hat => exec_vmac_at hat
  case tapmov => exact fun k acc vw vc tap conj fp s heven hat => exec_tapmov_at heven hat
  case ext => exact fun k vd acc sh clr fp s hshift hfp hat => exec_vext_at hshift hfp hat
  case lane => exact lane_ofLanes
  case write => exact vReg_setV
  case frame => exact coreStep_frame

end Sys2Proof
end

section
/-! PROOFS. Scalars, control, coding helpers and local memory of the signal cores (R269, R271, R272, R280, R282, R291,
R293–R295). -/

namespace Sys2Proof.Machine

variable {s s' t : State} {k : Nat}

/-! ### Scalar registers (R269) -/

/-- S0 reads 0 and ignores writes. -/
theorem sReg_zero (x : SigCore) (v : W32) : sReg x 0 = 0 ∧ setS x 0 v = x := ⟨rfl, rfl⟩

/-! ### Scalars and control (R282) -/

/-- A replay that passes counts, strikes the core, and the instruction retires (R291). -/
theorem regInstr_of_replay {w : Option W32} (hat : CoreAt s k false w) (b : Nat) (f : SigCore → SigCore) :
    regInstr k b w .replayPasses s f =
      coreStep (strike (countMismatch s k) (32 + k) 3 0xFFFF 0 0 false) k b f :=
  (coreRuns_at hat).trans (settle_next_modSigCore ..)

theorem exec_smovp_at {sr p : Nat} {dir : Bool} (hat : CoreAt s k false (coreInstr (.smovp k sr p dir .ok)).get!.2.2) :
    exec (.smovp k sr p dir .ok) s = .next (coreStep s k 1 fun x =>
      if dir then setS x sr (BitVec.ofNat 32 (pReg x p)) else setP x p ((sReg x sr).toNat % 524288 : Nat)) :=
  congrArg Host.Outcome.next (regInstr_at hat ..)

theorem exec_scmp_at {cond sa sb : Nat} (hcond : cond ≤ 5)
    (hat : CoreAt s k false (coreInstr (.scmp k cond sa sb .ok)).get!.2.2) :
    exec (.scmp k cond sa sb .ok) s =
      .next (coreStep s k 1 fun x => { x with cmp := scalarCond cond (sReg x sa) (sReg x sb) }) :=
  congrArg Host.Outcome.next (coreRuns_of_next hat (if_neg (Nat.not_lt.mpr hcond)))

theorem exec_br_at {target : Nat} {cond neg : Bool}
    (hat : CoreAt s k false (coreInstr (.br k cond neg target .ok)).get!.2.2) :
    exec (.br k cond neg target .ok) s = .next (
      if cond = false ∨ (sigCore s k).cmp ≠ neg then
        modSigCore s k fun x => { retired x 2 (now s) with pc := target % 8192 }
      else modSigCore s k fun x => advancePc (retired x 1 (now s))) := by
  refine congrArg Host.Outcome.next ((coreRuns_at hat).trans ?_)
  have htest : (!cond || (sigCore s k).cmp != neg) = true ↔ cond = false ∨ (sigCore s k).cmp ≠ neg := by simp
  simp only [htest]
  split
  · rfl
  · rfl

theorem exec_loop_at {sn stop : Nat} {lc : Bool} (hat : CoreAt s k false (coreInstr (.loop k lc sn stop .ok)).get!.2.2) :
    Completes (.loop k lc sn stop .ok) s fun t =>
      (sigCore t k).pc = (if (sReg (sigCore s k) sn).toNat % 65536 = 0 then stop + 1 else (sigCore s k).pc + 1) % 8192 ∧
      (sigCore t k).lc = tset 0 (sigCore s k).lc (b2n lc) ((sReg (sigCore s k) sn).setWidth 16) ∧
      (sigCore t k).progress = (sigCore s k).progress + 1 ∧ (sigCore t k).sreg = (sigCore s k).sreg ∧
      (sigCore t k).v = (sigCore s k).v ∧ t.pkg = s.pkg := by
  have hzero : (sReg (sigCore s k) sn).setWidth 16 = 0 ↔ (sReg (sigCore s k) sn).toNat % 65536 = 0 := by
    rw [← BitVec.toNat_inj, BitVec.toNat_setWidth]
    rfl
  refine ⟨_, congrArg Host.Outcome.next (coreRuns_at hat), ?_⟩
  dsimp only
  simp only [hzero]
  split
  · simp only [settle, retired, sigCore_modSigCore, modSigCore_pkg, if_true, and_self]
  · simp only [settle, retired, sigCore_modSigCore, modSigCore_pkg, if_true, and_self]

/-! ### What retiring keeps (R295)

Both equations stand with `(rfl)`, so that `simp` cites them: by unfolding, the kernel would compare the cores or the states,
whose vectors it would evaluate. -/

theorem vReg_retire (x : SigCore) (b t j : Nat) : vReg (advancePc (retired x b t)) j = vReg x j := (rfl)

theorem coreStep_pkg (s : State) (k b : Nat) (f : SigCore → SigCore) : (coreStep s k b f).pkg = s.pkg := (rfl)

/-! ### Coding helpers (R282) -/

theorem exec_vcrc_at {sc va poly len : Nat} (hpoly : poly ≤ 5)
    (hat : CoreAt s k false (coreInstr (.vcrc k sc va poly len .ok)).get!.2.2) :
    exec (.vcrc k sc va poly len .ok) s = .next (coreStep s k 1 fun x => setS x sc (BitVec.ofNat 32
      (crcRun (crcPoly poly).1 (crcPoly poly).2 ((sReg x sc).toNat % 2 ^ (crcPoly poly).1)
        ((vBytes (vReg x va)).take len)))) :=
  congrArg Host.Outcome.next (coreRuns_of_next hat (if_neg (Nat.not_lt.mpr hpoly)))

theorem exec_vgold_at {vd vg : Nat} (heven : vg % 2 = 0) (hfirst : vd ≠ vg) (hsecond : vd ≠ vg + 1)
    (hat : CoreAt s k false (coreInstr (.vgold k vd vg .ok)).get!.2.2) :
    exec (.vgold k vd vg .ok) s = .next (
      let r := goldVector ((vReg (sigCore s k) vg).toNat % 2 ^ 31, (vReg (sigCore s k) (vg + 1)).toNat % 2 ^ 31)
      coreStep (modSigCore s k fun x =>
          setV (setV x vg (putState (vReg x vg) r.2.1)) (vg + 1) (putState (vReg x (vg + 1)) r.2.2)) k 1 fun x =>
        setV x vd (BitVec.ofNat 512 r.1)) := by
  have hpair : ¬ vg % 2 = 1 := by omega
  have hstate : ¬ (decide (vd = vg) || decide (vd = vg + 1)) = true := by simp [hfirst, hsecond]
  refine congrArg Host.Outcome.next ((coreRuns_at hat).trans ?_)
  dsimp only
  rw [if_neg hpair, if_neg hstate, settle_next_modSigCore]

@[simp] theorem takeFreeNat_pkg (s : State) (site n : Nat) : (takeFreeNat s site n).2.pkg = s.pkg := by
  induction n with
  | zero => rfl
  | succ n ih => exact ih

@[simp] theorem takeFreeNat_rad (s : State) (site n : Nat) : (takeFreeNat s site n).2.rad = s.rad := by
  induction n with
  | zero => rfl
  | succ n ih => exact ih

theorem reI_cpx {re : Int} (hre : inQ15 re = true) (im : Int) : reI (cpx re im) = re := by
  simp only [inQ15, Bool.and_eq_true, decide_eq_true_eq] at hre
  rw [reI, cpx, BitVec.extractLsb'_append_eq_right]
  exact BitVec.toInt_ofInt_eq_self (by decide) (by omega) (by omega)

/-- Lane i of VQAM: the parts of its point that fit Q15, the others free. -/
def qamLane (qm bits : Nat) (free : V512) (i : Nat) : W32 :=
  let p := ((List.range 16).map fun i => qamPoint qm i bits).getD i (0, 0)
  cpx (if inQ15 p.1 then p.1 else reI (lane free i)) (if inQ15 p.2 then p.2 else imI (lane free i))

theorem reI_qamLane {qm bits i : Nat} (hi : i < 16) (hfits : inQ15 (qamPoint qm i bits).1 = true) (free : V512) :
    reI (qamLane qm bits free i) = (qamPoint qm i bits).1 := by
  have hpoint : ((List.range 16).map fun i => qamPoint qm i bits).getD i (0, 0) = qamPoint qm i bits := by
    simp [List.getD_eq_getElem?_getD, List.getElem?_range hi]
  simp only [qamLane, hpoint, hfits, if_true]
  exact reI_cpx hfits _

/-- The free vector of VQAM, which is drawn when a part of a point does not fit Q15. -/
def qamFree (s : State) (qm bits : Nat) : V512 × State :=
  if ((List.range 16).map fun i => qamPoint qm i bits).all fun p => inQ15 p.1 && inQ15 p.2 then (0, s)
  else takeFreeV s 44

theorem qamFree_pkg (s : State) (qm bits : Nat) : (qamFree s qm bits).2.pkg = s.pkg := by
  unfold qamFree
  split
  · rfl
  · exact takeFreeNat_pkg s 44 8

theorem qamFree_rad (s : State) (qm bits : Nat) : (qamFree s qm bits).2.rad = s.rad := by
  unfold qamFree
  split
  · rfl
  · exact takeFreeNat_rad s 44 8

theorem exec_vqam_at {vd va qm : Nat} (hqm : qm ≤ 5)
    (hat : CoreAt s k false (coreInstr (.vqam k vd va qm .ok)).get!.2.2) :
    exec (.vqam k vd va qm .ok) s = .next (
      let r := qamFree s qm (vReg (sigCore s k) va).toNat
      coreStep r.2 k 1 fun x => setV x vd (ofLanes (qamLane qm (vReg (sigCore s k) va).toNat r.1))) := by
  refine congrArg Host.Outcome.next ((coreRuns_at hat).trans ?_)
  dsimp only
  rw [if_neg (Nat.not_lt.mpr hqm)]
  exact settle_next_modSigCore ..

/-! ### Lines of local memory (R271, R272, R294) -/

theorem memRange_of_outside {a : Int} {n : Nat} (hout : ¬ (0 ≤ a ∧ a + n ≤ 524288)) : memRange a n = none := by
  refine if_pos ?_
  simp only [Bool.or_eq_true, decide_eq_true_eq]
  omega

theorem memRange_of_line {a : Int} (hlow : 0 ≤ a) (hhigh : a + 64 ≤ 524288) (haligned : a % 64 = 0) :
    memRange a 64 = some a.toNat := by
  refine if_neg ?_
  simp only [Bool.or_eq_true, decide_eq_true_eq]
  omega

theorem coreRead_of_outside {a : Int} {n : Nat} (hout : ¬ (0 ≤ a ∧ a + n ≤ 524288)) :
    coreRead s k a n = .error .fault := by
  rw [coreRead, memRange_of_outside hout]

theorem coreWrite_of_outside {a : Int} {bs : List Byte} (hout : ¬ (0 ≤ a ∧ a + bs.length ≤ 524288)) :
    coreWrite s k a bs = .error .fault := by
  rw [coreWrite, memRange_of_outside hout]

theorem pairCore_of_alone (halone : isPaired (sigCore s k) = false) : pairCore s k = k := by
  rw [pairCore, (partner_of_not_isPaired halone).2, Option.getD_none]

section Line

variable {a : Int} (halone : isPaired (sigCore s k) = false) (hlow : 0 ≤ a) (hhigh : a + 64 ≤ 524288)
  (haligned : a % 64 = 0)

include halone hlow hhigh haligned

theorem coreRead_of_alone (hout : (sigCore s k).outbox = []) (hecc : eccHit s (localKey k a.toNat) 64 = false) :
    coreRead s k a 64 = .ok (physRead s (localKey k a.toNat) 64) := by
  simp only [coreRead, memRange_of_line hlow hhigh haligned, pairCore_of_alone halone, hecc, hout, overlaid,
    List.foldl_nil, Bool.false_eq_true, if_false]

theorem coreWrite_of_alone {bs : List Byte} (hlen : bs.length = 64) (htask : (sigCore s k).task.isSome = true)
    (hecc : s.pkg.eccBad = []) : coreWrite s k a bs = .ok (physWrite s (localKey k a.toNat) bs) := by
  have hwhole (key n : Nat) : eccPartial s key n = [] := by simp [eccPartial, eccTouched, hecc]
  simp only [coreWrite, hlen, memRange_of_line hlow hhigh haligned, hwhole, List.isEmpty_nil,
    Bool.not_true, Bool.false_eq_true, if_false, releaseFrom_of_alone htask halone, releaseOne]

end Line

theorem length_vBytes (v : V512) : (vBytes v).length = 64 := length_leBytes ..

section Access

variable {p r : Nat} {inc : Bool} {imm : BitVec 16} {a : Int}

/-! ### Loads (R280, R282) -/

theorem exec_vld_of_bad_line (hat : CoreAt s k false (encMem 0x20 r p inc imm))
    (haddr : coreAddr (sigCore s k) p 64 imm.toInt = a) (hbad : ¬ (0 ≤ a ∧ a + 64 ≤ 524288 ∧ a % 64 = 0)) :
    exec (.vld k r p inc imm .ok) s = .next (firmwareFault s k) := by
  refine congrArg Host.Outcome.next (coreRuns_of_fault hat ?_)
  dsimp only
  rw [haddr]
  split
  case isTrue => rfl
  case isFalse hline =>
    have haligned : a % 64 = 0 := by simpa [lineAddr] using hline
    rw [coreRead_of_outside fun h => hbad ⟨h.1, h.2, haligned⟩]
    rfl

theorem exec_vld_of_read {bs : List Byte} (hat : CoreAt s k false (encMem 0x20 r p inc imm))
    (haddr : coreAddr (sigCore s k) p 64 imm.toInt = a) (haligned : a % 64 = 0) (hread : coreRead s k a 64 = .ok bs) :
    exec (.vld k r p inc imm .ok) s = .next (coreStep s k 1 fun x => postInc inc p a (setV x r (ofBytes bs))) := by
  refine congrArg Host.Outcome.next (coreRuns_of_next hat ?_)
  simp only [haddr, lineAddr, haligned, hread, beq_self_eq_true, Bool.not_true, Bool.false_eq_true, if_false]

theorem exec_vlds_of_read {bs : List Byte} (hat : CoreAt s k false (encMem 0x22 r p inc imm))
    (haddr : coreAddr (sigCore s k) p 4 imm.toInt = a) (hread : coreRead s k a 4 = .ok bs) :
    exec (.vlds k r p inc imm .ok) s = .next (coreStep s k 1 fun x =>
      postInc inc p a (setS x r (BitVec.ofNat 32 (leNat bs)))) := by
  refine congrArg Host.Outcome.next (coreRuns_of_next hat ?_)
  simp only [haddr, hread]

/-! ### Stores (R280, R282, R291, R294) -/

/-- Lines that have left the core end the instruction, unless their comparison aborted its task. -/
theorem settle_released (s₀ t : State) (k b : Nat) (f : SigCore → SigCore) :
    settle s₀ k (.released t k b f) = if (sigCore t k).task = none then t else coreStep t k b f := by
  unfold Retire.released
  cases htask : (sigCore t k).task with
  | none => rfl
  | some task => rfl

theorem exec_vst_of_bad_line (hat : CoreAt s k false (encMem 0x21 r p inc imm))
    (haddr : coreAddr (sigCore s k) p 64 imm.toInt = a) (hbad : ¬ (0 ≤ a ∧ a + 64 ≤ 524288 ∧ a % 64 = 0)) :
    exec (.vst k r p inc imm .ok) s = .next (firmwareFault s k) := by
  refine congrArg Host.Outcome.next (coreRuns_of_fault hat ?_)
  dsimp only
  rw [haddr]
  split
  case isTrue => rfl
  case isFalse hline =>
    have haligned : a % 64 = 0 := by simpa [lineAddr] using hline
    rw [coreWrite_of_outside]
    · rfl
    · rw [length_vBytes]
      exact fun h => hbad ⟨h.1, h.2, haligned⟩

theorem exec_vst_of_write (hat : CoreAt s k false (encMem 0x21 r p inc imm))
    (haddr : coreAddr (sigCore s k) p 64 imm.toInt = a) (haligned : a % 64 = 0)
    (hwrite : coreWrite s k a (vBytes (vReg (sigCore s k) r)) = .ok t) :
    exec (.vst k r p inc imm .ok) s =
      .next (if (sigCore t k).task = none then t else coreStep t k 1 (postInc inc p a)) := by
  refine congrArg Host.Outcome.next ((coreRuns_at hat).trans ?_)
  simp only [haddr, lineAddr, haligned, hwrite, beq_self_eq_true, Bool.not_true, Bool.false_eq_true, if_false,
    settle_released]

theorem exec_vsts_of_write (hat : CoreAt s k false (encMem 0x23 r p inc imm))
    (haddr : coreAddr (sigCore s k) p 4 imm.toInt = a)
    (hwrite : coreWrite s k a (leBytes 4 (sReg (sigCore s k) r).toNat) = .ok t) :
    exec (.vsts k r p inc imm .ok) s =
      .next (if (sigCore t k).task = none then t else coreStep t k 1 (postInc inc p a)) := by
  refine congrArg Host.Outcome.next ((coreRuns_at hat).trans ?_)
  simp only [haddr, hwrite, settle_released]

end Access

/-! ### Two lines at once (R282) -/

section Pair

variable {r pa pb : Nat} {imm : BitVec 14} {a b : Int} (heven : r % 2 = 0)
  (haddrA : coreAddr (sigCore s k) pa 64 imm.toInt = a) (haddrB : coreAddr (sigCore s k) pb 64 imm.toInt = b)
  (halignedA : a % 64 = 0) (halignedB : b % 64 = 0)

include heven halignedA halignedB

/-- The operands of VLD2 and VST2 break no constraint. -/
theorem pair_legal : ¬ (decide (r % 2 = 1) || !lineAddr a || !lineAddr b) = true := by
  simp [heven, lineAddr, halignedA, halignedB]

include haddrA haddrB

theorem exec_vld2_of_read {x y : List Byte} (hat : CoreAt s k false (encMem2 0x24 r pa pb false imm))
    (hreadA : coreRead s k a 64 = .ok x) (hreadB : coreRead s k b 64 = .ok y) :
    exec (.vld2 k r pa pb false imm .ok) s = .next (coreStep s k 1 fun c =>
      setV (setV c r (ofBytes x)) (r + 1) (ofBytes y)) := by
  refine congrArg Host.Outcome.next (coreRuns_of_next hat ?_)
  dsimp only
  rw [haddrA, haddrB, if_neg (pair_legal heven halignedA halignedB), hreadA, hreadB]
  rfl

/-- Both lines are written before the pointers move. -/
theorem exec_vst2_of_write (hat : CoreAt s k false (encMem2 0x25 r pa pb true imm)) (hpointers : pa ≠ pb)
    (hlines : a ≠ b)
    (hwriteA : coreWrite s k a (vBytes (vReg (sigCore s k) r)) = .ok s')
    (hwriteB : coreWrite s' k b (vBytes (vReg (sigCore s k) (r + 1))) = .ok t) :
    exec (.vst2 k r pa pb true imm .ok) s = .next (if (sigCore t k).task = none then t
      else coreStep (modSigCore t k fun c => setP (setP c pa a) pb b) k 1 id) := by
  have hsecond : (if a = b then takeFreeV s 41 else (vReg (sigCore s k) (r + 1), s)) =
      (vReg (sigCore s k) (r + 1), s) := if_neg hlines
  refine congrArg Host.Outcome.next ((coreRuns_at hat).trans ?_)
  dsimp only
  rw [haddrA, haddrB, if_neg (pair_legal heven halignedA halignedB)]
  simp only [hsecond, hwriteA, hwriteB, settle_released, postInc2, if_neg hpointers, Bool.not_true, Bool.false_eq_true,
    if_false, Option.isNone_iff_eq_none]
  split
  case isTrue => rfl
  case isFalse hruns =>
    refine if_neg ?_
    rw [sigCore_modSigCore, if_pos rfl]
    exact hruns

end Pair

end Sys2Proof.Machine

namespace Sys2Proof

open Machine

/-- Settles O35: a core that has come to the instruction retires with the change that its body gives, once the access it
makes has passed or failed. -/
theorem scalarAndMemoryInstructionsRun : Obligations.ScalarAndMemoryInstructionsRun := by
  unfold Obligations.ScalarAndMemoryInstructionsRun
  refine ⟨?add, ?sub, ?imm, ?move, ?compare, ?branch, ?loop, ?crc, ?gold, ?qam, ?load, ?store, ?loadWord, ?storeWord,
    ?load2, ?store2, sReg_zero⟩
  case add =>
    exact fun k sd sa sb s hat => ⟨congrArg Host.Outcome.next (regInstr_at hat ..),
      congrArg Host.Outcome.next (regInstr_of_replay hat ..)⟩
  case sub => exact fun k sd sa sb s hat => congrArg Host.Outcome.next (regInstr_at hat ..)
  case imm => exact fun k sd imm s hat => congrArg Host.Outcome.next (regInstr_at hat ..)
  case move => exact fun k sr p s => ⟨exec_smovp_at, exec_smovp_at⟩
  case compare => exact fun k cond sa sb s hcond hat => exec_scmp_at hcond hat
  case branch => exact fun k target cond neg s hat => exec_br_at hat
  case loop =>
    intro k sn stop lc s hat
    obtain ⟨t, hexec, hpc, hlc, hrest⟩ := exec_loop_at hat
    exact ⟨t, hexec, hpc, by rw [hlc, tget_tset_same], hrest⟩
  case crc => exact fun k sc va poly len s hpoly hat => exec_vcrc_at hpoly hat
  case gold =>
    intro k vd vg s heven hfirst hsecond hat
    refine ⟨_, exec_vgold_at heven hfirst hsecond hat, ?_⟩
    simp only [sigCore_coreStep, sigCore_modSigCore, vReg_retire, vReg_setV, if_true, if_neg hfirst.symm,
      if_neg hsecond.symm, Nat.left_eq_add, Nat.succ_ne_self, if_false, true_and]
    exact (coreStep_pkg ..).trans (modSigCore_pkg ..)
  case qam =>
    intro k vd va qm s hqm hat
    refine ⟨_, exec_vqam_at hqm hat, ?_⟩
    simp only [sigCore_coreStep, vReg_retire, vReg_setV, if_true, sigCore_of_rad_eq (qamFree_rad ..)]
    refine ⟨fun i hi hfits => ?_, fun j hj => if_neg hj, (coreStep_pkg ..).trans (qamFree_pkg ..)⟩
    rw [lane_ofLanes _ i hi, reI_qamLane hi hfits]
  case load =>
    exact fun k vd p inc imm s hat => ⟨exec_vld_of_bad_line hat rfl, fun bs => exec_vld_of_read hat rfl,
      fun halone hout hlow hhigh haligned hecc => coreRead_of_alone halone hlow hhigh haligned hout hecc⟩
  case store =>
    intro k vs p inc imm s hat
    refine ⟨exec_vst_of_bad_line hat rfl, fun t => exec_vst_of_write hat rfl, fun halone hlow hhigh haligned hecc => ?_⟩
    have ⟨_, htask, _⟩ := hat
    have hrunning : (sigCore s k).task ≠ none := Option.isSome_iff_ne_none.mp htask
    rw [exec_vst_of_write hat rfl haligned (coreWrite_of_alone halone hlow hhigh haligned (length_vBytes _) htask hecc),
      sigCore_physWrite_frame, if_neg hrunning]
    rfl
  case loadWord => exact fun k sd p inc imm bs s hat hread => exec_vlds_of_read hat rfl hread
  case storeWord => exact fun k ss p inc imm s t hat hwrite => exec_vsts_of_write hat rfl hwrite
  case load2 =>
    exact fun k vd pa pb imm x y s heven hat halignedA halignedB hreadA hreadB =>
      exec_vld2_of_read heven rfl rfl halignedA halignedB hat hreadA hreadB
  case store2 =>
    exact fun k vs pa pb imm s s' t heven hat hpointers halignedA halignedB hlines hwriteA hwriteB =>
      exec_vst2_of_write heven rfl rfl halignedA halignedB hat hpointers hlines hwriteA hwriteB

end Sys2Proof
end

section
/-! PROOFS. Ethernet frames that a fronthaul port receives (R302, R304–R308, R325): the first rule that holds decides a
frame, the buckets of a meter give its colour, and a counted event changes one counter of one port. -/

namespace Sys2Proof.Machine

variable {s : State} {p n : Nat} {f : List Byte} {fcsOk eccOk : Bool}

/-! ### The rules in their order (R302, R304) -/

theorem exec_frameReceived_of_down (hup : Up s) (hp : p ≤ 3) (hretrain : (fhPort s p).retraining = false)
    (hdown : (fhPort s p).up = false) : exec (.frameReceived p f fcsOk eccOk n) s = .next (fhCount s p 1) := by
  refine congrArg Host.Outcome.next ((if_neg ?_).trans (if_pos ?_))
  · simp [hup, Nat.not_lt.mpr hp, hretrain]
  · simp [hdown]

theorem exec_frameReceived_of_up (hup : Up s) (hp : p ≤ 3) (hretrain : (fhPort s p).retraining = false)
    (hlink : (fhPort s p).up = true) :
    exec (.frameReceived p f fcsOk eccOk n) s = .next (
      let r := modFhPort s p fun x => { x with rxBytes := x.rxBytes + w64 f.length }
      let body := f.take (f.length - 4)
      let e := parseEth body
      if !fcsOk || !eccOk then fhCount r p 0
      else if f.length < 64 || 9216 < f.length || isPause e then fhCount r p 1
      else if isTiming e then deliver r p 512 0 body (networkTime s)
      else if e.etype = 0xAEFE then radioIngress r p e body
      else ((fhPort s p).flows.find? fun g => flowMatches g.2.words e).elim (fhCount r p 1) fun g =>
        flowFrame r p g.1 body f.length n) := by
  refine congrArg Host.Outcome.next ((if_neg ?_).trans ((if_neg ?_).trans ?_))
  · simp [hup, Nat.not_lt.mpr hp, hretrain]
  · simp [hlink]
  · dsimp only
    cases (fhPort s p).flows.find? fun g => flowMatches g.2.words (parseEth (f.take (f.length - 4))) <;> rfl

theorem isPause_of_ecpri {e : EthFrame} (h : e.etype = 0xAEFE) : isPause e = false := by
  simp [isPause, h]

theorem flowFrame_of_blocked {len : Nat}
    (h : (sleeve s (fSleeve (tget {} (fhPort s p).flows n).words)).st ≠ .active ∨
      (tget {} (fhPort s p).flows n).stopped = true) (buffered : Nat) :
    flowFrame s p n f len buffered = fhCount s p 4 :=
  if_pos (by simpa using h)

/-! ### The meter (R307) -/

/-- MODE 0: the peak bucket decides red and the committed one yellow; yellow takes from the peak bucket, green from
both. -/
theorem meterColour_peak (c e n : Nat) :
    (meterColour 0 c e n).1 = (if e < n * 1250 then 2 else if c < n * 1250 then 1 else 0) ∧
    (meterColour 0 c e n).2.1 + (if (meterColour 0 c e n).1 = 0 then n * 1250 else 0) = c ∧
    (meterColour 0 c e n).2.2 + (if (meterColour 0 c e n).1 ≤ 1 then n * 1250 else 0) = e := by
  by_cases hred : e < n * 1250
  · simp [meterColour, hred]
  · have hpeak := Nat.sub_add_cancel (Nat.not_lt.mp hred)
    by_cases hyellow : c < n * 1250
    · simp [meterColour, hred, hyellow, hpeak]
    · simp [meterColour, hred, hyellow, hpeak, Nat.sub_add_cancel (Nat.not_lt.mp hyellow)]

/-- MODE 1: green takes from the committed bucket, yellow from the excess one. -/
theorem meterColour_excess (c e n : Nat) :
    (meterColour 1 c e n).1 = (if n * 1250 ≤ c then 0 else if n * 1250 ≤ e then 1 else 2) ∧
    (meterColour 1 c e n).2.1 + (if (meterColour 1 c e n).1 = 0 then n * 1250 else 0) = c ∧
    (meterColour 1 c e n).2.2 + (if (meterColour 1 c e n).1 = 1 then n * 1250 else 0) = e := by
  by_cases hgreen : n * 1250 ≤ c
  · simp [meterColour, hgreen, Nat.sub_add_cancel hgreen]
  · by_cases hyellow : n * 1250 ≤ e
    · simp [meterColour, hgreen, hyellow, Nat.sub_add_cancel hyellow]
    · simp [meterColour, hgreen, hyellow]

/-- A refilled bucket never overflows, and never gains more than its rate gives. -/
theorem refill_bounds (level t rate burst : Nat) :
    refill level t rate burst ≤ burst * 1250 ∧ (level ≤ burst * 1250 → level ≤ refill level t rate burst) ∧
      refill level t rate burst ≤ level + t * rate :=
  ⟨Nat.min_le_left .., fun hfits => Nat.le_min.mpr ⟨hfits, Nat.le_add_right ..⟩, Nat.min_le_right ..⟩

/-! ### A port and its neighbours (R325) -/

theorem fhPort_modFhPort_same (s : State) (p : Nat) (g : FhPort → FhPort) :
    fhPort (modFhPort s p g) p = g (fhPort s p) := by
  rw [fhPort_modFhPort, if_pos rfl]

theorem fhPort_modFhPort_other (s : State) {p q : Nat} (hq : q ≠ p) (g : FhPort → FhPort) :
    fhPort (modFhPort s p g) q = fhPort s q := by
  rw [fhPort_modFhPort, if_neg hq]

end Sys2Proof.Machine

namespace Sys2Proof

open Machine

/-- Settles O39: on a port that is up the checks of R304 fall through to the first one that holds, and each mode of the
meter has three cases. -/
theorem framesAreClassified : Obligations.FramesAreClassified := by
  unfold Obligations.FramesAreClassified
  refine ⟨?down, ?rules, ?blocked, ?colours, refill_bounds, ?count⟩
  case down => exact fun p n f a b s hup hp hdown hretrain => exec_frameReceived_of_down hup hp hretrain hdown
  case rules =>
    intro p n f a b s hup hp hlink hretrain
    dsimp only
    rw [exec_frameReceived_of_up hup hp hretrain hlink]
    refine ⟨fun hbad => ?fcs, fun ha hb => ⟨fun hlength => ?length, fun hlow hhigh => ⟨fun hpause => ?pause,
      fun hpause htiming => ?timing, fun htiming hecpri => ?ecpri, fun hpause htiming hetype => ⟨fun e hfind => ?flow,
        fun hfind => ?unmatched⟩⟩⟩⟩
    case fcs => rcases hbad with rfl | rfl <;> simp
    case length => rcases hlength with hlength | hlength <;> simp [ha, hb, hlength]
    case pause => simp [ha, hb, hpause]
    case timing => simp [ha, hb, Nat.not_lt.mpr hlow, Nat.not_lt.mpr hhigh, hpause, htiming]
    case ecpri =>
      simp [ha, hb, Nat.not_lt.mpr hlow, Nat.not_lt.mpr hhigh, isPause_of_ecpri hecpri, htiming, hecpri]
    case flow | unmatched => simp [ha, hb, Nat.not_lt.mpr hlow, Nat.not_lt.mpr hhigh, hpause, htiming, hetype, hfind]
  case blocked => exact fun p i len n f s hblocked => flowFrame_of_blocked hblocked n
  case colours =>
    intro c e n
    obtain ⟨hpeak, hpeakC, hpeakE⟩ := meterColour_peak c e n
    obtain ⟨hexcess, hexcessC, hexcessE⟩ := meterColour_excess c e n
    exact ⟨hpeak, hexcess, hpeakC, hpeakE, hexcessC, hexcessE⟩
  case count =>
    exact fun s p i => ⟨rfl, rfl, fun q hq => fhPort_modFhPort_other s hq _, fhPort_modFhPort_same s p _⟩

end Sys2Proof
end

section
/-! PROOFS. Egress of the fronthaul (R309–R315, R326, R328): what the wire is given to, what a transmit ring gives, the
gate entry in force, and the commands that set flows, rings and gate lists. -/

namespace Sys2Proof.Machine

variable {s a b t : State} {p q r n : Nat} {f : EgFrame} {c : Cmd}

/-! ### The wire (R309, R313, R315) -/

section Wire

variable (hp : p ≤ 3) (hlink : (fhPort s p).up = true)

include hp hlink

theorem exec_egressFrameStart_of_top {rest : List (Nat × EgFrame)}
    (htop : [0, 1, 2].foldl (queueHead p) (s, []) = (a, (q, f) :: rest)) :
    exec (.egressFrameStart p) s = .next (startFrame a p q f) := by
  refine congrArg Host.Outcome.next ((if_neg ?_).trans ?_)
  · simp [Nat.not_lt.mpr hp, hlink]
  · rw [htop]

theorem exec_egressFrameStart_of_group {g : List (Nat × EgFrame)}
    (htop : [0, 1, 2].foldl (queueHead p) (s, []) = (a, []))
    (hgroup : [3, 4, 5, 6, 7].foldl (queueHead p) (a, []) = (b, g)) (hready : g ≠ [])
    (hturn : drrTurn p g 1024 b = (t, some (q, f))) :
    exec (.egressFrameStart p) s = .next (startFrame t p q f) := by
  refine congrArg Host.Outcome.next ((if_neg ?_).trans ?_)
  · simp [Nat.not_lt.mpr hp, hlink]
  · simp only [htop, hgroup, hturn, List.isEmpty_iff, hready, if_false]

end Wire

theorem queueHead_of_start {rest : List EgFrame} (hhead : tget [] (fhPort s p).queues q = f :: rest)
    (hfate : headFate s (fhPort s p) q f = .start) (l : List (Nat × EgFrame)) :
    queueHead p (s, l) q = (s, l ++ [(q, f)]) := by
  simp only [queueHead, headFrame, hhead, hfate]

/-- A frame of the radio's own, without ONE_STEP, is sent as it is. -/
theorem startFrame_of_no_entry (hentry : f.entry = none) (hstep : f.oneStep = false) :
    startFrame s p q f = emit (modFhPort (popHead s p q) p fun x => { x with
        txBytes := x.txBytes + w64 (frameLen f)
        deficits := if (tget [] x.queues q).isEmpty then tdel x.deficits q else x.deficits })
      (.frame p (f.bytes ++ leBytes 4 (fcs32 f.bytes))) := by
  simp only [startFrame, hentry, hstep, Bool.false_eq_true, if_false]

/-! ### Transmit rings (R313, R328) -/

theorem exec_txRingPoll (hup : Up s) (hp : p ≤ 3) (hr : r ≤ 15) :
    exec (.txRingPoll p r) s = .next (pollRing p r (tget {} (fhPort s p).tx r).ring.entries s) := by
  refine congrArg Host.Outcome.next (if_neg ?_)
  simp [hup, Nat.not_lt.mpr hp, Nat.not_lt.mpr hr]

/-- A ring that is stopped or not assigned gives nothing. -/
theorem pollRing_of_idle (hidle : (tget {} (fhPort s p).tx r).ring.stopped = true ∨
    (tget {} (fhPort s p).tx r).ring.entries = 0) (n : Nat) : pollRing p r n s = s := by
  cases n with
  | zero => rfl
  | succ n => exact if_pos (by rcases hidle with hidle | hidle <;> simp [hidle])

section Entry

variable {addr : Nat} {bs : List Byte} (haddr : addr = (tget {} (fhPort s p).tx r).ring.addr +
    32 * (tget {} (fhPort s p).tx r).ring.pos)
  (hentries : (tget {} (fhPort s p).tx r).ring.entries ≠ 0) (hruns : (tget {} (fhPort s p).tx r).ring.stopped = false)
  (hnew : ((tget [] (fhPort s p).queues (tget {} (fhPort s p).tx r).queue).any fun f =>
    f.entry == some (r, addr)) = false)
  (hread : devRead s (ringIssuer (tget {} (fhPort s p).tx r).sleeve) addr 32 = .ok bs)

include haddr hentries hruns hnew hread

theorem pollRing_of_not_ready (hready : bitOf (leW64 bs) 0 = false) (n : Nat) : pollRing p r (n + 1) s = s := by
  subst haddr
  simp only [pollRing, hentries, hruns, hnew, hread, hready, decide_false, Bool.or_self, Bool.false_eq_true,
    Bool.not_false, if_false, if_true]

theorem pollRing_of_frame (hready : bitOf (leW64 bs) 0 = true) (htake : takeEntry s p r addr bs = .frame f) (n : Nat) :
    pollRing p r (n + 1) s = pollRing p r n (modFhPort (modFhPort s p fun x => { x with
        tx := tmod {} x.tx r fun t => { t with
          ring := { t.ring with pos := (t.ring.pos + 1) % Nat.max 1 t.ring.entries } } }) p fun x => { x with
      queues := tmod [] x.queues (tget {} (fhPort s p).tx r).queue fun l => l ++ [f] }) := by
  subst haddr
  simp only [pollRing, hentries, hruns, hnew, hread, hready, htake, decide_false, Bool.or_self, Bool.false_eq_true,
    Bool.not_true, if_false]

end Entry

/-! ### Gates (R310, R311) -/

theorem exec_gateEntryChange (hup : Up s) (hp : p ≤ 3) : exec (.gateEntryChange p) s = .next (gateNow s p) := by
  refine congrArg Host.Outcome.next (if_neg ?_)
  simp [hup, Nat.not_lt.mpr hp]

theorem exec_gateListSwitch_of_pending {g : GateList} (hup : Up s) (hp : p ≤ 3)
    (hpending : (fhPort s p).pending = some g) :
    exec (.gateListSwitch p) s = .next (if networkNs s < g.base then s
      else gateNow (modFhPort s p fun x => { x with gates := g, pending := none }) p) := by
  refine congrArg Host.Outcome.next ((if_neg ?_).trans ?_)
  · simp [hup, Nat.not_lt.mpr hp]
  · simp only [switchGates, hpending]

theorem switchGates_of_none (hpending : (fhPort s p).pending = none) : switchGates s p = s := by
  simp only [switchGates, hpending]

/-! ### Commands (R306, R310, R313, R326) -/

section FlowSet

variable (hserved : Served 0x381 10 isMgmt c s) (hp : argN c 0 ≤ 3) (hn : argN c 1 ≤ 511)
  (hgood : flowBad ((List.range 8).map fun i => arg c (2 + i)) = false)

include hserved hp hn hgood

theorem exec_fhFlowSet_of_invalid (hvalid : fValid ((List.range 8).map fun i => arg c (2 + i)) = false) :
    exec (.fhFlowSet c) s = .next (answered 0x381 10 c (putFlow s (argN c 0) (argN c 1) []) []) := by
  refine congrArg Host.Outcome.next (serve_ok hserved ((checked_pass ?_).trans (if_pos ?_)))
  · simp [Nat.not_lt.mpr hp, Nat.not_lt.mpr hn, hgood]
  · simp [hvalid]

theorem exec_fhFlowSet_of_valid {w : List W64} (hw : w = (List.range 8).map fun i => arg c (2 + i))
    (hvalid : fValid w = true) (htenant : fSleeve w ≠ 0) (hsleeve : (sleeve s (fSleeve w)).st ≠ .absent)
    (hrange : checkRange s (ringIssuer (fSleeve w)) .wr (fld (wd w 4) 47 0) (32 * (fld (wd w 4) 63 52 + 1)) = none) :
    exec (.fhFlowSet c) s = .next (answered 0x381 10 c (putFlow s (argN c 0) (argN c 1) w) []) := by
  subst hw
  refine congrArg Host.Outcome.next
    (serve_ok hserved ((checked_pass ?_).trans ((if_neg ?_).trans (checked_pass ?_))))
  · simp [Nat.not_lt.mpr hp, Nat.not_lt.mpr hn, hgood]
  · simp [hvalid]
  · simp only [firstFail_cons, firstFail_nil, hrange, beq_eq_false_iff_ne.mpr htenant, beq_eq_false_iff_ne.mpr hsleeve,
      Option.isSome_none, Bool.false_eq_true, if_false]

end FlowSet

theorem exec_fhEgressSet
    (hserved : Served 0x382 7 (fun p => isMgmtRadio p && (isMgmt p || argN c 1 == 0)) c s)
    (hgood : egressBad (argN c) = false)
    (hrange : checkRange s (ringIssuer (argN c 2)) .rd (argN c 5) (32 * argN c 6) = none) :
    exec (.fhEgressSet c) s = .next (answered 0x382 7 c (assignRing s (argN c 0) (argN c 1)
      { sleeve := argN c 2, queue := argN c 3, vlan := argN c 4
        ring := { addr := argN c 5, entries := argN c 6 } }) []) := by
  refine congrArg Host.Outcome.next (serve_ok hserved (checked_pass ?_))
  simp [hgood, hrange]

theorem exec_fhGateList {ws : List W64}
    (hserved : Served 0x383 (if c.args.length > 2 then 1 + gateWords (c.args.drop 1) else 2) isMgmt c s)
    (hp : argN c 0 ≤ 3) (harg : gateArg s (partyOf c.src) c = .ok ws)
    (hopen : ((gateEntries ws).any fun e => e.1 % 8 != 7) = false) (hgood : gateListBad ws = false)
    (hpending : (fhPort s (argN c 0)).pending = none) :
    exec (.fhGateList c) s = .next (answered 0x383 (if c.args.length > 2 then 1 + gateWords (c.args.drop 1) else 2) c
      (modFhPort s (argN c 0) fun x => { x with pending := some {
        base := cycleStart s (fld (wd ws 0) 63 32) (fld (wd ws 0) 31 0), cycle := fld (wd ws 0) 31 0
        entries := gateEntries ws } }) []) := by
  refine congrArg Host.Outcome.next (serve_ok hserved ((checked_pass ?_).trans ?_))
  · simp [Nat.not_lt.mpr hp]
  · rw [harg]
    refine (checked_pass ?_).trans ?_
    · simp only [firstFail_cons, firstFail_nil, hopen, hgood, Bool.false_eq_true, if_false]
    · rw [switchGates_of_none hpending]

end Sys2Proof.Machine

namespace Sys2Proof

open Machine

/-- Settles O40: the wire goes to the first head that may start, a poll ends at an entry that is not READY, and the checks
of each command pass. -/
theorem egressAndGatesRun : Obligations.EgressAndGatesRun := by
  unfold Obligations.EgressAndGatesRun
  refine ⟨?top, ?group, ?head, ?frame, ?poll, ?entry, ?gate, ?switch, ?flow, ?ring, ?list⟩
  case top => exact fun p q f rest s a hp hlink htop => exec_egressFrameStart_of_top hp hlink htop
  case group =>
    exact fun p q f g s a b c hp hlink htop hgroup hready hturn =>
      exec_egressFrameStart_of_group hp hlink htop hgroup hready hturn
  case head => exact fun p q f rest l s hhead hfate => queueHead_of_start hhead hfate l
  case frame =>
    intro p q f s hentry hstep
    rw [startFrame_of_no_entry hentry hstep, fhPort_emit_frame, fhPort_modFhPort_same, popHead, fhPort_modFhPort_same]
    exact ⟨rfl, tget_tmod_same .., rfl, rfl⟩
  case poll =>
    exact fun p r s hup hp hr => ⟨_, exec_txRingPoll hup hp hr, rfl, fun hidle => pollRing_of_idle hidle _⟩
  case entry =>
    exact fun p r n addr f bs s haddr hentries hruns hnew hread =>
      ⟨fun hready => pollRing_of_not_ready haddr hentries hruns hnew hread hready n,
        fun hready htake => pollRing_of_frame haddr hentries hruns hnew hread hready htake 0⟩
  case gate =>
    exact fun p s hup hp => ⟨_, exec_gateEntryChange hup hp, fhPort_modFhPort_same s p _,
      fun q hq => fhPort_modFhPort_other s hq _, rfl⟩
  case switch =>
    intro p g s hup hp hpending
    rw [Completes, exec_gateListSwitch_of_pending hup hp hpending]
    refine ⟨fun hearly => by rw [if_pos hearly], fun hdue => ⟨_, by rw [if_neg (Nat.not_lt.mpr hdue)], ?_⟩⟩
    rw [gateNow, fhPort_modFhPort_same, fhPort_modFhPort_same]
    exact ⟨rfl, rfl, rfl, rfl⟩
  case flow =>
    exact fun c s hserved hp hn hgood => ⟨fun hvalid => exec_fhFlowSet_of_invalid hserved hp hn hgood hvalid,
      fun hvalid htenant hsleeve hrange =>
        exec_fhFlowSet_of_valid hserved hp hn hgood rfl hvalid htenant hsleeve hrange⟩
  case ring => exact fun c s hserved hgood hrange => exec_fhEgressSet hserved hgood hrange
  case list =>
    exact fun c ws s hserved hp harg hopen hgood hpending => exec_fhGateList hserved hp harg hopen hgood hpending

end Sys2Proof
end

section
/-! PROOFS. Lanes and links of the fronthaul and Voravatra ports (R300–R303, R322, R325, R326, R333): eye samples, a lane
that is dropped, links that come up or stay down, and the commands that set, restore and read a port. -/

namespace Sys2Proof.Machine

variable {s : State} {p lane : Nat} {c : Cmd}

/-! ### Eye samples (R300, R333) -/

theorem exec_laneEyeSample_of_fronthaul (hp : p ≤ 3) (hlink : (fhPort s p).up = true) (eyes : List Nat) :
    exec (.laneEyeSample .fronthaul p eyes) s = .next (modFhPort s p fun x => { x with
      eye := eyeFigures eyes, low := lowCounts x.low x.lanes x.eyeMin eyes }) := by
  refine congrArg Host.Outcome.next (if_neg ?_)
  simp [Nat.not_lt.mpr hp, hlink]

theorem exec_laneEyeSample_of_voravatra (hp : p ≤ 15) (hlink : (vfPort s p).up = true) (eyes : List Nat) :
    exec (.laneEyeSample .voravatra p eyes) s = .next (modVfPort s p fun x => { x with
      eye := eyeFigures eyes, low := lowCounts x.low x.lanes s.fab.eyeMin eyes }) := by
  refine congrArg Host.Outcome.next (if_neg ?_)
  simp [Nat.not_lt.mpr hp, hlink]

/-! ### A lane that is dropped (R300, R301, R322) -/

theorem postEvent_tim (s : State) (kind status sl : Nat) (detail : List W64) :
    (postEvent s kind status sl detail).tim = s.tim := by
  unfold postEvent
  dsimp only
  split
  · rfl
  · rw [msix_tim, emit_tim]

theorem portEvent_tim (s : State) (family die port event : Nat) : (portEvent s family die port event).tim = s.tim := by
  rw [portEvent, postEvent_tim, raise_tim]

/-- A lane that does not feed SYNCE_CLK_OUT, dropped after ten low samples. -/
theorem exec_laneDrop_of_low (hp : p ≤ 3) (hlane : lane ≤ 3) (hlink : (fhPort s p).up = true)
    (hlow : 10 ≤ tget 0 (fhPort s p).low lane) (hsynce : ¬ (s.tim.syncePort = p ∧ s.tim.synceLane = lane)) :
    exec (.laneDrop p lane) s = .next (
      let a := portEvent (fhCount s p 9) 1 (fhDie p) p 1
      if (fhPort s p).degraded || !(fhPort s p).degradeEn then fhPortDown a p
      else modFhPort a p fun x => { x with
        up := false, retraining := true, dropped := lane, lanes := 0, low := [] }) := by
  have hkeeps : (portEvent (fhCount s p 9) 1 (fhDie p) p 1).tim = s.tim := portEvent_tim ..
  have hother : ¬ (s.tim.syncePort == p && s.tim.synceLane == lane) = true := by simpa using hsynce
  refine congrArg Host.Outcome.next ((if_neg ?_).trans ?_)
  · simp [Nat.not_lt.mpr hp, Nat.not_lt.mpr hlane, hlink, Nat.not_lt.mpr hlow]
  · dsimp only
    rw [hkeeps, if_neg hother]

/-! ### Links (R301–R303) -/

section Retrain

variable (hretrain : (fhPort s p).retraining = true) (hfour : (fhPort s p).restoring = false)

include hretrain hfour

theorem exec_threeLaneLinkUp_of_retraining : exec (.threeLaneLinkUp p) s = .next (modFhPort s p fun x => { x with
    up := true, retraining := false, degraded := true, lanes := 15 - 2 ^ x.dropped, low := [] }) :=
  congrArg Host.Outcome.next (if_neg (by simp [hretrain, hfour]))

theorem exec_threeLaneTimeout_of_retraining : exec (.threeLaneTimeout p) s = .next (fhPortDown s p) :=
  congrArg Host.Outcome.next (if_neg (by simp [hretrain, hfour]))

end Retrain

theorem exec_fhLinkRetry_of_down (hboot : s.boot.phase = .booted) (hp : p ≤ 3) (hdown : (fhPort s p).up = false)
    (hretrain : (fhPort s p).retraining = false) (hrestore : (fhPort s p).restoring = false)
    (hdie : s.hlt.hr.dies.contains (fhDie p) = false) (found : Bool) :
    exec (.fhLinkRetry p found) s = .next (if found then fhLinkUp s p else s) := by
  refine congrArg Host.Outcome.next ((if_neg ?_).trans ?_)
  · simp [hrestore]
  · cases found with
    | false => exact if_pos (by simp)
    | true => exact if_neg (by simp only [hboot, hdown, hretrain, hdie, Nat.not_lt.mpr hp]; decide)

theorem exec_fhLinkRetry_of_restoring (hp : p ≤ 3) (hrestore : (fhPort s p).restoring = true) (found : Bool) :
    exec (.fhLinkRetry p found) s = .next (if found then fhLinkUp s p else fhPortDown s p) :=
  congrArg Host.Outcome.next (if_pos (by simp [hp, hrestore]))

theorem startRestore_of_up (hlink : (fhPort s p).up = true) (hdie : s.hlt.hr.dies.contains (fhDie p) = false) :
    startRestore s p = modFhPort s p fun x => { x with
      up := false, degraded := false, dropped := 0, lanes := 0, low := [], retraining := true, restoring := true } := by
  simp only [startRestore, hlink, hdie, Bool.not_true, Bool.false_and, Bool.false_eq_true, if_false]

/-! ### Commands (R303, R325, R326) -/

theorem exec_fhPortConfig_of_good (hserved : Served 0x380 26 isMgmt c s) (hgood : portConfigBad (argN c) = false)
    (htiming : ringDenied s (argN c 22) (argN c 23) = false) (hcontrol : ringDenied s (argN c 24) (argN c 25) = false) :
    exec (.fhPortConfig c) s = .next (answered 0x380 26 c (modFhPort (meterNow s (argN c 0)) (argN c 0) fun x =>
      { x with mac := argN c 1, degradeEn := argN c 2 == 1, eyeMin := argN c 3, tenantRate := argN c 4
               vlan := argN c 5, pcp := argN c 6, group := configGroup (argN c)
               timingRx := { addr := argN c 22, entries := argN c 23 }
               controlRx := { addr := argN c 24, entries := argN c 25 } }) []) := by
  refine congrArg Host.Outcome.next (serve_ok hserved (checked_pass ?_))
  simp [hgood, htiming, hcontrol]

theorem exec_fhPortConfig_of_bad (hserved : Served 0x380 26 isMgmt c s) (hbad : portConfigBad (argN c) = true) :
    exec (.fhPortConfig c) s = .next (finish s c.src 0x380 .badField []) := by
  refine congrArg Host.Outcome.next (serve_fail hserved (checked_fail ?_))
  simp [hbad]

section Restore

variable (hserved : Served 0x384 2 isMgmt c s) (hp : argN c 0 ≤ 3)

include hserved hp

theorem exec_fhPortRestore_of_no_cells (hforce : argN c 1 ≤ 1) (hcells : portCells s (argN c 0) = []) :
    exec (.fhPortRestore c) s = .next (answered 0x384 2 c (startRestore
      (if argN c 1 = 1 then stopCells s fun x => cFhPort x.record == argN c 0 else s) (argN c 0)) []) := by
  refine congrArg Host.Outcome.next (serve_ok hserved ((checked_pass ?_).trans ?_))
  · simp [Nat.not_lt.mpr hp, Nat.not_lt.mpr hforce, hcells]
  · simp [hcells]

theorem exec_fhPortRestore_of_force (hforce : argN c 1 = 1) (hcells : portCells s (argN c 0) ≠ []) :
    exec (.fhPortRestore c) s = .next (
      let a := stopCells s fun x => cFhPort x.record == argN c 0
      answered 0x384 2 c (startRestore (capacityLost a (argN c 0 / 2)
        (pointsMax s (argN c 0 / 2)) (pointsMax a (argN c 0 / 2))) (argN c 0)) []) := by
  refine congrArg Host.Outcome.next (serve_ok hserved ((checked_pass ?_).trans ?_))
  · simp [Nat.not_lt.mpr hp, hforce]
  · simp [hforce, hcells]

theorem exec_fhPortRestore_of_counted (hgentle : argN c 1 = 0)
    (hcells : ((portCells s (argN c 0)).any fun x => countedCell (cell s x)) = true) :
    exec (.fhPortRestore c) s = .next (finish s c.src 0x384 .notQuiesced []) := by
  refine congrArg Host.Outcome.next (serve_fail hserved (checked_fail ?_))
  simp only [firstFail_cons, hcells, hgentle, Nat.not_lt.mpr hp]
  decide

end Restore

theorem exec_fhPortStatus (hserved : Served 0x385 1 isMgmtRadio c s) (hp : argN c 0 ≤ 3) :
    exec (.fhPortStatus c) s = .next (answered 0x385 1 c s ([w64 (fhStatusReg s (argN c 0)),
      w64 (fhConfigReg (fhPort s (argN c 0))), w64 (laneEyeReg (fhPort s (argN c 0)).eye),
      (fhPort s (argN c 0)).rxBytes, (fhPort s (argN c 0)).txBytes] ++
        (List.range 12).map fun i => w64 (eventReg (tget {} (fhPort s (argN c 0)).ctrs i)))) := by
  refine congrArg Host.Outcome.next (serve_ok hserved (checked_pass ?_))
  simp [Nat.not_lt.mpr hp]

end Sys2Proof.Machine

namespace Sys2Proof

open Machine

/-- Settles O38: the port's link and lanes decide each row, a port event leaves the timebase as it is, and the checks of
each command pass or fail as its arguments say. -/
theorem fronthaulPortsRun : Obligations.FronthaulPortsRun := by
  unfold Obligations.FronthaulPortsRun
  refine ⟨?eye, ?fabricEye, ?drop, ?three, ?retry, ?restored, ?config, ?badConfig, ?restore, ?force, ?starts, ?refused,
    ?status⟩
  case eye =>
    exact fun p eyes s hp hlink => ⟨_, exec_laneEyeSample_of_fronthaul hp hlink eyes, fhPort_modFhPort_same s p _,
      fun q hq => fhPort_modFhPort_other s hq _, rfl, rfl⟩
  case fabricEye =>
    refine fun p eyes s hp hlink => ⟨_, exec_laneEyeSample_of_voravatra hp hlink eyes, ?_, fun q hq => ?_, rfl, rfl⟩
    · rw [vfPort_modVfPort, if_pos rfl]
    · rw [vfPort_modVfPort, if_neg hq]
  case drop => exact fun p lane s hp hlane hlink hlow hsynce => exec_laneDrop_of_low hp hlane hlink hlow hsynce
  case three =>
    exact fun p s hretrain hfour => ⟨exec_threeLaneLinkUp_of_retraining hretrain hfour,
      exec_threeLaneTimeout_of_retraining hretrain hfour⟩
  case retry =>
    intro p s hboot hp hdown hretrain hrestore hdie
    have hlink : fhPort (fhLinkUp s p) p = { fhPort s p with
        up := true, degraded := false, dropped := 0, lanes := 15, low := [], retraining := false
        restoring := false } :=
      fhPort_modFhPort_same ..
    simp only [exec_fhLinkRetry_of_down hboot hp hdown hretrain hrestore hdie, hlink, Bool.false_eq_true, if_true,
      if_false, and_self]
  case restored =>
    intro p s hp hrestore
    simp only [exec_fhLinkRetry_of_restoring hp hrestore, Bool.false_eq_true, if_true, if_false, and_self]
  case config =>
    exact fun c s hserved hgood htiming hcontrol => exec_fhPortConfig_of_good hserved hgood htiming hcontrol
  case badConfig => exact fun c s hserved hbad => exec_fhPortConfig_of_bad hserved hbad
  case restore =>
    exact fun c s hserved hp hforce hcells => exec_fhPortRestore_of_no_cells hserved hp hforce hcells
  case force => exact fun c s hserved hp hforce hcells => exec_fhPortRestore_of_force hserved hp hforce hcells
  case starts =>
    intro p s hlink hdie
    rw [startRestore_of_up hlink hdie, fhPort_modFhPort_same]
    exact ⟨rfl, rfl, rfl, rfl, fun q hq => fhPort_modFhPort_other s hq _⟩
  case refused => exact fun c s hserved hp hgentle hcells => exec_fhPortRestore_of_counted hserved hp hgentle hcells
  case status => exact fun c s hserved hp => exec_fhPortStatus hserved hp

end Sys2Proof
end

section
/-! PROOFS. The timebase commands and the apply tick (R316, R317, R321–R324, R326, R466), and the compare units (R321):
a unit's message leaves the timebase as it is, so that firing changes one unit. -/

namespace Sys2Proof.Machine

variable {s s' : State} {c : Cmd} {n : Nat}

/-! ### Commands (R316, R317, R323, R326, R466) -/

/-- A command that is refused after some effect ends on the state with that effect. -/
theorem serve_failIn {op argc : Nat} {allow : Party → Bool} {body : Party → State → Answer} {st : Status}
    (hserved : Served op argc allow c s) (hbody : body (partyOf c.src) s = .failIn s' st []) :
    serve op argc allow c s body = finish s' c.src op st [] := by
  rw [serve_served hserved, hbody]
  exact if_pos (Nat.zero_le _)

theorem exec_timeConfig_of_good (hserved : Served 0x386 8 isMgmt c s) (hgood : timeConfigBad (argN c) = false) :
    exec (.timeConfig c) s = .next (answered 0x386 8 c (
      let a := modTim s fun t => { t with jumpNs := argN c 0, lockBound := argN c 1, holdoverS := argN c 2
                                          sfnOffset := argN c 3, ppsWidth := argN c 4, syncePort := argN c 5
                                          synceLane := argN c 6, synceDiv := argN c 7 }
      modTim a fun t => { t with squelch := synceLost a }) []) :=
  congrArg Host.Outcome.next (serve_ok hserved (checked_pass (by simp [hgood])))

theorem exec_timeRate_of_range (hserved : Served 0x387 1 isMgmtRadio c s) (hlow : 0x664C2F837 ≤ argN c 0)
    (hhigh : argN c 0 ≤ 0x66809D495) :
    exec (.timeRate c) s = .next (answered 0x387 1 c (schedule s (some (argN c 0)) 0 false) []) := by
  refine congrArg Host.Outcome.next (serve_ok hserved (checked_pass ?_))
  simp [Nat.not_lt.mpr hlow, Nat.not_lt.mpr hhigh]

section Step

variable (hserved : Served 0x388 2 isMgmtRadio c s)

include hserved

theorem exec_timeStep_of_allowed (hforce : argN c 1 ≤ 1)
    (hallowed : (arg c 0).toInt.natAbs ≤ s.tim.jumpNs ∨ argN c 1 = 1) :
    exec (.timeStep c) s = .next (answered 0x388 2 c
      (schedule s none (arg c 0).toInt (decide (s.tim.jumpNs < (arg c 0).toInt.natAbs))) []) := by
  refine congrArg Host.Outcome.next (serve_ok hserved ((checked_pass ?_).trans (if_neg ?_)))
  · simp [Nat.not_lt.mpr hforce]
  · rcases hallowed with hsmall | hforced
    · simp [Nat.not_lt.mpr hsmall]
    · simp [hforced]

theorem exec_timeStep_of_large (hlarge : s.tim.jumpNs < (arg c 0).toInt.natAbs) (hgentle : argN c 1 = 0) :
    exec (.timeStep c) s = .next (finish (modTim s fun t => { t with
      stepFlag := true, stepRefused := Nat.min 0x7FFF (t.stepRefused + 1)
      countsSat := t.countsSat || t.stepRefused == 0x7FFF }) c.src 0x388 .stepRefused []) := by
  refine congrArg Host.Outcome.next (serve_failIn hserved ((checked_pass ?_).trans (if_pos ?_)))
  · simp [hgentle]
  · simp [hlarge, hgentle]

end Step

section Lock

variable (hserved : Served 0x389 2 isMgmtRadio c s)

include hserved

/-- A lock that is not withdrawn: FREE stays, a bound beyond LOCK_BOUND ends a lock that stands, any other locks. -/
theorem exec_timeLock_of_bound (hbound : argN c 0 ≤ 2047) (hstays : argN c 1 = 0) :
    exec (.timeLock c) s = .next (
      let a := modTim s fun t => { t with bound := argN c 0, lastLock := now s }
      answered 0x389 2 c (
        if s.tim.state = 0 then a
        else if s.tim.lockBound < argN c 0 then (if timeLocked s then lockStops a 2 else a)
        else stampEntry (modTim a fun t => { t with state := 2 })) []) := by
  have hgone : (argN c 1 == 1) = false := by simp [hstays]
  refine congrArg Host.Outcome.next (serve_ok hserved ((checked_pass ?_).trans ?_))
  · simp [hstays, Nat.not_lt.mpr hbound]
  · simp only [hgone, Bool.false_eq_true, if_false, Bool.false_or, decide_eq_true_eq, apply_ite (Answer.ok · [])]
    rfl

theorem exec_timeLock_of_withdrawn (hbound : argN c 0 = 0) (hgone : argN c 1 = 1) (hlocked : timeLocked s = true) :
    exec (.timeLock c) s = .next (answered 0x389 2 c (lockStops s 1) []) := by
  have hwithdrawn : (argN c 1 == 1) = true := by simp [hgone]
  have hstate : s.tim.state ≠ 0 := by
    intro hfree
    simp [timeLocked, hfree] at hlocked
  refine congrArg Host.Outcome.next (serve_ok hserved ((checked_pass ?_).trans ?_))
  · simp [hgone, hbound]
  · simp only [hwithdrawn, hlocked, hstate, Bool.true_or, if_true, if_false]

end Lock

theorem exec_timeRead (hserved : Served 0x38A 0 isMgmtRadio c s) :
    exec (.timeRead c) s = .next (answered 0x38A 0 c s [w64 (networkNs s),
      w64 (networkTime s / 65536 % 65536 * 65536), s.tim.raw, w64 s.tim.state]) :=
  congrArg Host.Outcome.next (serve_ok hserved rfl)

/-! ### Compare units (R318, R321, R324) -/

theorem cmpUnit_setCmp (s : State) (n m : Nat) (v : Cmp) :
    cmpUnit (setCmp s n v) m = if m = n then v else cmpUnit s m := tget_tset ..

theorem dicMessage_tim (s : State) (sl value : Nat) : (dicMessage s sl value).tim = s.tim := by
  unfold dicMessage dicDrop
  dsimp only
  split_ifs <;> rfl

theorem cmpUnit_dicMessage (s : State) (sl value n : Nat) : cmpUnit (dicMessage s sl value) n = cmpUnit s n := by
  rw [cmpUnit, dicMessage_tim, ← cmpUnit]

theorem exec_compareArm_of_unit (hup : Up s) (hn : n ≤ 15) (v : W64) :
    exec (.compareArm n v) s = .next (writeCmp s n v) :=
  congrArg Host.Outcome.next (if_neg (by simp [timeOff, hup, Nat.not_lt.mpr hn]))

theorem exec_compareFire_of_unit (hup : Up s) (hn : n ≤ 15) : exec (.compareFire n) s = .next (fireCmp s n) :=
  congrArg Host.Outcome.next (if_neg (by simp [timeOff, hup, Nat.not_lt.mpr hn]))

theorem exec_compareArm_of_no_unit (hn : 15 < n) (v : W64) : exec (.compareArm n v) s = .next s :=
  congrArg Host.Outcome.next (if_pos (by simp [hn]))

theorem exec_compareFire_of_no_unit (hn : 15 < n) : exec (.compareFire n) s = .next s :=
  congrArg Host.Outcome.next (if_pos (by simp [hn]))

theorem fireCmp_of_due (harmed : (cmpUnit s n).armed = true) (hdue : due32 (now32 s) (cmpUnit s n).target = true) :
    fireCmp s n = dicMessage (setCmp s n { cmpUnit s n with armed := false, fired := true }) 0 (cmpUnit s n).source :=
  if_pos (by simp [harmed, hdue])

theorem fireCmp_of_not_due
    (hidle : (cmpUnit s n).armed = false ∨ due32 (now32 s) (cmpUnit s n).target = false) : fireCmp s n = s :=
  if_neg (by rcases hidle with hidle | hidle <;> simp [hidle])

end Sys2Proof.Machine

namespace Sys2Proof

open Machine

/-- Settles O41: the checks of each command pass, a change sets the base that its tick gives, and arming writes one
compare unit. -/
theorem timebaseCommandsRun : Obligations.TimebaseCommandsRun := by
  unfold Obligations.TimebaseCommandsRun
  refine ⟨?config, ?rate, ?step, ?lock, ?withdrawn, ?read, fun s => rfl, ?apply, ?arm⟩
  case config => exact fun c s hserved hgood => exec_timeConfig_of_good hserved hgood
  case rate => exact fun c s hserved hlow hhigh => exec_timeRate_of_range hserved hlow hhigh
  case step =>
    exact fun c s hserved hforce => ⟨fun hallowed => exec_timeStep_of_allowed hserved hforce hallowed,
      fun hlarge hgentle => exec_timeStep_of_large hserved hlarge hgentle⟩
  case lock => exact fun c s hserved hbound hstays => exec_timeLock_of_bound hserved hbound hstays
  case withdrawn =>
    exact fun c s hserved hbound hgone hlocked => exec_timeLock_of_withdrawn hserved hbound hgone hlocked
  case read => exact fun c s hserved => exec_timeRead hserved
  case apply => exact fun t a => ⟨rfl, rfl, rfl, rfl, rfl⟩
  case arm =>
    intro n v s hup hn
    refine ⟨_, exec_compareArm_of_unit hup hn v, ?_⟩
    simp only [writeCmp, cmpUnit_setCmp, if_true, true_and]
    exact ⟨fun m hm => if_neg hm, rfl, rfl⟩

/-- Settles O42: an armed unit that is due fires, any other does nothing, and the message leaves every unit as it is. -/
theorem compareUnitsFire : Obligations.CompareUnitsFire := by
  unfold Obligations.CompareUnitsFire
  refine ⟨?fires, ?idle, fun n v s hn => ⟨exec_compareFire_of_no_unit hn, exec_compareArm_of_no_unit hn v⟩, ?others⟩
  case fires =>
    intro n s hup hn harmed hdue
    rw [exec_compareFire_of_unit hup hn, fireCmp_of_due harmed hdue]
  case idle =>
    intro n s hup hn hidle
    rw [exec_compareFire_of_unit hup hn, fireCmp_of_not_due hidle]
  case others =>
    intro n k x s
    simp only [cmpUnit_dicMessage, cmpUnit_setCmp, if_true, and_true]
    exact fun m hm => if_neg hm

end Sys2Proof
end

section
/-! PROOFS. Clock events (R316, R320, R322–R324, R327, R379, R394): latched reads, edges and pulses, holdover and the loss
of lock, the lane behind SYNCE_CLK_OUT, and the radio dies' copies of RAW. -/

namespace Sys2Proof.Machine

variable {s : State} {d p lane : Nat}

/-! ### Latched reads and edges (R322, R324, R379) -/

theorem exec_tbsNtNsRead (hup : Up s) : exec .tbsNtNsRead s = .next (emit (modTim s fun t => { t with
    ntFrac := networkTime s / 65536 % 65536, ntRaw := t.raw }) (.readValue 0x7010 (networkNs s))) :=
  congrArg Host.Outcome.next (if_neg (by simp [timeOff, hup]))

/-- The dies that carry a copy of RAW are the radio dies. -/
theorem radioDie_checked (hup : Up s) (hd : d = 4 ∨ d = 5) : ¬ (timeOff s || (d != 4 && d != 5)) = true := by
  rcases hd with rfl | rfl <;> simp [timeOff, hup]

theorem exec_fhNtNsRead_of_radioDie (hup : Up s) (hd : d = 4 ∨ d = 5) :
    exec (.fhNtNsRead d) s = .next (emit (modTim s fun t => { t with
      fhFrac := tset 0 t.fhFrac d (dieTime s d / 65536 % 65536) }) (.readValue 0x210000 (dieTime s d / 4294967296))) :=
  congrArg Host.Outcome.next (if_neg (radioDie_checked hup hd))

theorem exec_ppsInEdge_of_first (hup : Up s) (hseen : s.tim.ppsSeen = none) :
    exec .ppsInEdge s = .next (dicMessage (modTim s fun t => { t with
      ppsSeen := some (now s), ppsNs := w64 (networkNs s), ppsRaw := t.raw }) 0 128) :=
  congrArg Host.Outcome.next ((if_neg (by simp [timeOff, hup])).trans (if_neg (by simp [hseen])))

theorem exec_ppsInEdge_of_early {u : Nat} (hup : Up s) (hseen : s.tim.ppsSeen = some u)
    (hearly : since s u < 500 * ticksPerMs) :
    exec .ppsInEdge s = .next (modTim s fun t => { t with ppsIgnored := t.ppsIgnored + 1 }) :=
  congrArg Host.Outcome.next ((if_neg (by simp [timeOff, hup])).trans (if_pos (by simp [hseen, hearly])))

/-! ### The pulse (R322) -/

/-- PPS_OUT takes a level: nothing but the ball changes, and an edge is seen from outside. -/
theorem setPps_eq (s : State) (level : Bool) : setPps s level = { s with
    pins := { s.pins with ppsOut := level }
    out := if s.pins.ppsOut = level then s.out else .ball "PPS_OUT" level :: s.out } := by
  unfold setPps
  by_cases hsame : s.pins.ppsOut = level
  · simp [← hsame]
  · simp [hsame, emit]

theorem exec_ppsOutPulse_of_due {level : Bool} (hup : Up s) (hdue : level = ppsDue s) :
    exec (.ppsOutPulse level) s = .next (setPps s level) :=
  congrArg Host.Outcome.next (if_neg (by simp [timeOff, hup, hdue]))

theorem exec_ppsOutPulse_of_not_due {level : Bool} (hdue : level ≠ ppsDue s) : exec (.ppsOutPulse level) s = .next s :=
  congrArg Host.Outcome.next (if_pos (by simp [hdue]))

theorem ppsDue_of_not_locked (hlocked : timeLocked s = false) : ppsDue s = false := by
  simp [ppsDue, hlocked]

/-! ### Holdover and the loss of lock (R323, R394) -/

theorem exec_holdoverEnter_of_due (hlocked : s.tim.state = 2) (hdue : ticksPerS ≤ since s s.tim.lastLock) :
    exec .holdoverEnter s = .next (modTim s fun t => { t with state := 3, holdSince := now s }) :=
  congrArg Host.Outcome.next (if_neg (by simp [hlocked, Nat.not_lt.mpr hdue]))

theorem exec_holdoverEnter_of_not_due (hearly : s.tim.state ≠ 2 ∨ since s s.tim.lastLock < ticksPerS) :
    exec .holdoverEnter s = .next s :=
  congrArg Host.Outcome.next (if_pos (by rcases hearly with hearly | hearly <;> simp [hearly]))

theorem exec_holdoverExpire_of_due (hheld : s.tim.state = 3)
    (hdue : s.tim.holdoverS * ticksPerS ≤ since s s.tim.holdSince) :
    exec .holdoverExpire s = .next (lockStops s 3) :=
  congrArg Host.Outcome.next (if_neg (by simp [hheld, Nat.not_lt.mpr hdue]))

theorem lockLost_tim (s : State) (cause : Nat) : (lockLost s cause).tim = { s.tim with
    state := 1, lockLosses := Nat.min 0xFFFF (s.tim.lockLosses + 1)
    countsSat := s.tim.countsSat || s.tim.lockLosses == 0xFFFF } := by
  simp only [lockLost, setPps_eq, raise_tim]
  rfl

theorem lockLost_rad (s : State) (cause : Nat) : (lockLost s cause).rad = s.rad := by
  simp only [lockLost, setPps_eq, raise_rad, modTim_rad]

theorem lockLost_ppsOut (s : State) (cause : Nat) : (lockLost s cause).pins.ppsOut = false := by
  simp only [lockLost, setPps_eq]

theorem airCells_lockLost (s : State) (cause : Nat) : airCells (lockLost s cause) = airCells s := by
  rw [airCells, lockLost_rad, ← airCells]

/-! ### The lane behind SYNCE_CLK_OUT (R322) -/

section Synce

variable (hup : Up s) (hp : p ≤ 3) (hlane : lane ≤ 3)

include hup hp hlane

theorem exec_lossOfSignal_of_lane : exec (.lossOfSignal p lane) s = .next (modTim s fun t => { t with
    noSignal := if t.noSignal.contains (p, lane) then t.noSignal else t.noSignal ++ [(p, lane)]
    squelch := t.squelch || (t.syncePort == p && t.synceLane == lane) }) :=
  congrArg Host.Outcome.next (if_neg (by simp [timeOff, hup, Nat.not_lt.mpr hp, Nat.not_lt.mpr hlane]))

theorem exec_laneSignalRestored_of_selected (hport : s.tim.syncePort = p) (hsynce : s.tim.synceLane = lane) :
    exec (.laneSignalRestored p lane) s = .next (
      let a := modTim s fun t => { t with noSignal := t.noSignal.filter (· != (p, lane)) }
      modTim a fun t => { t with squelch := synceLost a }) :=
  congrArg Host.Outcome.next ((if_neg (by simp [timeOff, hup, Nat.not_lt.mpr hp, Nat.not_lt.mpr hlane])).trans
    (if_pos (by simp [modTim, hport, hsynce])))

end Synce

theorem contains_noted (l : List (Nat × Nat)) (e : Nat × Nat) :
    (if l.contains e then l else l ++ [e]).contains e = true := by
  split
  case isTrue h => exact h
  case isFalse => simp

theorem contains_lifted (l : List (Nat × Nat)) (e : Nat × Nat) : (l.filter (· != e)).contains e = false := by
  simp

/-- Each of the four lanes of a port that runs on all of them is in use. -/
theorem synceLost_of_four_lanes (hsignal : s.tim.noSignal.contains (s.tim.syncePort, s.tim.synceLane) = false)
    (hlink : (fhPort s s.tim.syncePort).up = true) (hlanes : (fhPort s s.tim.syncePort).lanes = 15)
    (hlane : s.tim.synceLane ≤ 3) : synceLost s = false := by
  have hused : 15 / 2 ^ s.tim.synceLane % 2 = 1 := by
    interval_cases s.tim.synceLane <;> rfl
  simp only [synceLost, hsignal, hlink, hlanes, hused]
  rfl

/-! ### Copies of RAW (R327) -/

theorem exec_rawCopyCheck_of_near {x : Int} (hup : Up s) (hd : d = 4 ∨ d = 5) (hnear : x.natAbs < 2) :
    exec (.rawCopyCheck d x) s = .next (modTim s fun t => { t with copyOff := tset 0 t.copyOff d x }) :=
  congrArg Host.Outcome.next ((if_neg (radioDie_checked hup hd)).trans (if_pos hnear))

/-- The first copy of a die that is further off than a tick is recorded, and takes the value of RAW. -/
theorem exec_rawCopyCheck_of_first_fault {x : Int} (hup : Up s) (hd : d = 4 ∨ d = 5) (hfar : 2 ≤ x.natAbs)
    (hfirst : tget none s.tim.copyBad d = none) :
    exec (.rawCopyCheck d x) s = .next (raise (modTim s fun t => { t with
        copyFault := true, copyOff := tset 0 t.copyOff d 0, copyBad := tset none t.copyBad d (some (now s)) })
      { code := 0x031, severity := 1, die := d, d0 := 2, d1 := (BitVec.ofInt 64 x).toNat }) :=
  congrArg Host.Outcome.next ((if_neg (radioDie_checked hup hd)).trans
    ((if_neg (Nat.not_lt.mpr hfar)).trans (if_neg (by simp [hfirst]))))

end Sys2Proof.Machine

namespace Sys2Proof

open Machine

/-- Settles O43: the time, the level due or the state of the lock decides each event, and a loss of lock leaves the
radio as it is until the cells that are to stop are noted. -/
theorem clockEventsRun : Obligations.ClockEventsRun := by
  unfold Obligations.ClockEventsRun
  refine ⟨fun s => exec_tbsNtNsRead, fun d s => exec_fhNtNsRead_of_radioDie, fun s => exec_ppsInEdge_of_first,
    fun u s => exec_ppsInEdge_of_early, ?pulse, fun level s => exec_ppsOutPulse_of_not_due,
    fun s => ppsDue_of_not_locked, fun s => exec_holdoverEnter_of_due, fun s => exec_holdoverEnter_of_not_due,
    fun s => exec_holdoverExpire_of_due, ?stops, ?loss, ?restored, fun d x s => exec_rawCopyCheck_of_near,
    fun d x s => exec_rawCopyCheck_of_first_fault⟩
  case pulse =>
    intro level s hup hdue
    refine ⟨_, exec_ppsOutPulse_of_due hup hdue, ?_⟩
    rw [setPps_eq]
    exact ⟨rfl, rfl, rfl, rfl, rfl⟩
  case stops =>
    intro c s
    simp only [lockStops, lockLost_tim, lockLost_ppsOut, airCells_lockLost, and_self]
  case loss =>
    intro p lane s hup hp hlane hport hsynce
    exact ⟨_, exec_lossOfSignal_of_lane hup hp hlane, by simp [modTim, hport, hsynce], contains_noted .., rfl, rfl⟩
  case restored =>
    intro p lane s hup hp hlane hport hsynce hlink hlanes
    refine ⟨_, exec_laneSignalRestored_of_selected hup hp hlane hport hsynce, ?_, contains_lifted .., rfl, rfl⟩
    subst hport hsynce
    exact synceLost_of_four_lanes (contains_lifted ..) hlink hlanes hlane

end Sys2Proof
end

section
/-! PROOFS. The start of fabric descriptors (R336, R338–R345, R347, R350): what a descriptor that its job's ring lets
start does, what becomes of one that breaks its layout, and where a packet goes. -/

namespace Sys2Proof.Machine

variable {s : State} {h : Nat} {m : ChipMap} {d : List W64} {bs : List Byte}

/-! ### What every row does first (R340, R344, R345) -/

/-- A descriptor that starts is carried out under a fresh run number. -/
theorem fabStart_of_starts {kind : Nat} (hstarts : FabricStarts s h m kind d) {opc : Option Nat}
    (hopc : (opc.all (· == fdOpc d)) = true) (c : Instr) (body : ChipMap → Nat → State → State) :
    fabStart s h kind opc c d body = body m (s.fab.nextId + 1) (freshRun s) := by
  obtain ⟨hmap, hrun, hbarrier, hring, hgood, hkind, hready⟩ := hstarts
  simp [fabStart, hmap, hrun, hbarrier, hring, hgood, hkind, hready, hopc, freshRun]

/-- A descriptor that breaks its layout faults its job, whichever row has fetched it. -/
theorem fabStart_of_bad (hmap : mapOfJob s h = some m) (hrun : (job s h).st = .running)
    (hbarrier : (job s h).barrierStep = none) (hring : ringWaits s h = none)
    (hbad : fabDescBad m.devs.length d = true) (kind : Nat) (opc : Option Nat) (c : Instr)
    (body : ChipMap → Nat → State → State) : fabStart s h kind opc c d body = faultJob s h .badField := by
  simp [fabStart, hmap, hrun, hbarrier, hring, hbad]

section Rows

variable {r : Nat × (Nat → List W64 → Instr)}

theorem exec_atomicRow (hr : r ∈ atomicRows) (h : Nat) (d : List W64) (s : State) :
    exec (r.2 h d) s = .next (atomicCmd r.1 h d (r.2 h d) s) := by
  revert r
  simp only [atomicRows, List.forall_mem_cons, List.not_mem_nil, IsEmpty.forall_iff, implies_true, and_true]
  and_intros <;> rfl

theorem exec_collectiveRow (hr : r ∈ collectiveRows) (h : Nat) (d : List W64) (s : State) :
    exec (r.2 h d) s = .next (collCmd r.1 h d (r.2 h d) s) := by
  revert r
  simp only [collectiveRows, List.forall_mem_cons, List.not_mem_nil, IsEmpty.forall_iff, implies_true, and_true]
  and_intros <;> rfl

/-- The rows other than the atomics and the collectives, with their KIND (R340). -/
def plainRows : List (Nat × (Nat → List W64 → Instr)) := [(1, .put), (2, .get), (5, .barrier)]

/-- Each of the 21 rows starts its descriptor by its KIND and OPC, while no collective of its job runs. -/
theorem exec_fabricRow (hr : r ∈ plainRows ++ atomicRows ++ collectiveRows) (hidle : tget none s.fab.colls h = none) :
    ∃ kind opc body, exec (r.2 h d) s = .next (fabStart s h kind opc (r.2 h d) d body) := by
  rcases List.mem_append.1 hr with hr | hcoll
  · rcases List.mem_append.1 hr with hplain | hatomic
    · simp only [plainRows, List.mem_cons, List.not_mem_nil, or_false] at hplain
      rcases hplain with rfl | rfl | rfl <;> exact ⟨_, _, _, rfl⟩
    · exact ⟨_, _, _, exec_atomicRow hatomic h d s⟩
  · rw [exec_collectiveRow hcoll, collCmd]
    exact ⟨_, _, _, congrArg Host.Outcome.next (if_neg (by simp [hidle]))⟩

end Rows

/-! ### The rows (R340–R345) -/

theorem exec_put_of_starts (hstarts : FabricStarts s h m 1 d)
    (hread : devRead (freshRun s) (jobIssuer (freshRun s) h) (fdLocal d) (fdLen d) = .ok bs) :
    exec (.put h d) s = .next (
      let a := freshRun s
      let dst := m.devs.getD (fdChip d) 0
      sendRun a h { id := s.fab.nextId + 1, desc := d }
        (((pieces (fdLen d)).map fun p => mkPacket a 1 dst (chipIndex a h) m.num m.fgen (fdRemote d + p.1) []
            ((bs.drop p.1).take p.2)) ++
          if fdSignal d then [mkPacket a 4 dst (chipIndex a h) m.num m.fgen (fdResult d) [] (leBytes 8 (fdSigAdd d))]
          else [])) := by
  refine congrArg Host.Outcome.next ((fabStart_of_starts hstarts rfl _ _).trans ?_)
  rw [hread]
  rfl

theorem exec_get_of_starts (hstarts : FabricStarts s h m 2 d)
    (hfree : checkRange (freshRun s) (jobIssuer (freshRun s) h) .wr (fdLocal d) (fdLen d) = none) :
    exec (.get h d) s = .next (
      let a := freshRun s
      sendRun a h { id := s.fab.nextId + 1, desc := d, awaited := fdLen d }
        ((pieces (fdLen d)).map fun p => mkPacket a 2 (m.devs.getD (fdChip d) 0) (chipIndex a h) m.num m.fgen
          (fdRemote d + p.1) [] (bytesOf [w64 p.2, w64 (fdLocal d + p.1)]))) := by
  refine congrArg Host.Outcome.next ((fabStart_of_starts hstarts rfl _ _).trans ?_)
  rw [hfree]
  rfl

section Rows

variable {r : Nat × (Nat → List W64 → Instr)}

/-- An atomic that returns no old values sends the pieces of its operands. -/
theorem exec_atomicRow_of_starts (hr : r ∈ atomicRows) (hstarts : FabricStarts s h m 3 d) (hopc : fdOpc d = r.1)
    (hfetch : fdFetch d = false)
    (hread : devRead (freshRun s) (jobIssuer (freshRun s) h) (fdLocal d) (fdLen d) = .ok bs) :
    exec (r.2 h d) s = .next (
      let a := freshRun s
      sendRun a h { id := s.fab.nextId + 1, desc := d }
        ((pieces (fdLen d)).map fun p => mkPacket a 4 (m.devs.getD (fdChip d) 0) (chipIndex a h) m.num m.fgen
          (if r.1 ≥ 9 then fdRemote d else fdRemote d + p.1)
          [(60, r.1), (59, b2n (fdRelaxed d)), (58, b2n (fdFetch d))] ((bs.drop p.1).take p.2))) := by
  rw [exec_atomicRow hr]
  refine congrArg Host.Outcome.next ((fabStart_of_starts hstarts (by simp [hopc]) _ _).trans ?_)
  simp only [hread, hfetch, Bool.false_eq_true, if_false]
  rfl

theorem exec_collectiveRow_of_starts (hr : r ∈ collectiveRows) (hstarts : FabricStarts s h m 4 d)
    (hopc : fdOpc d = r.1) (hidle : tget none s.fab.colls h = none)
    (hfree : checkRange (freshRun s) (jobIssuer (freshRun s) h) .wr (fdLocal d) (fdLen d) = none)
    (hread : devRead (freshRun s) (jobIssuer (freshRun s) h) (fdLocal d) (fdLen d) = .ok bs) :
    exec (r.2 h d) s = .next (startColl (freshRun s) h m (s.fab.nextId + 1) (collOf r.1 d) d bs) := by
  rw [exec_collectiveRow hr, collCmd]
  refine congrArg Host.Outcome.next ((if_neg (by simp [hidle])).trans
    ((fabStart_of_starts hstarts (by simp [hopc]) _ _).trans ?_))
  simp only [collOf, hfree, hread]

/-- While a collective of the job runs, the next one waits. -/
theorem exec_collectiveRow_of_busy (hr : r ∈ collectiveRows) (hbusy : (tget none s.fab.colls h).isSome = true) :
    exec (r.2 h d) s = .next s := by
  rw [exec_collectiveRow hr, collCmd, if_pos hbusy]

end Rows

/-- A BARRIER without operand arrives with the value 0. -/
theorem exec_barrier_of_starts (hstarts : FabricStarts s h m 5 d) (hopc : fdOpc d = 0) (hwaits : m.waits = 0) :
    exec (.barrier h d) s = .next (settleBarrier (arriveBarrier
      (addRun (freshRun s) h { id := s.fab.nextId + 1, desc := d, awaited := 1 }) h 3 0 0 (s.fab.nextId + 1)) h) := by
  refine congrArg Host.Outcome.next ((fabStart_of_starts hstarts rfl _ _).trans ?_)
  simp only [hwaits, hopc]
  rfl

/-! ### Packets (R336, R347, R350) -/

/-- A packet toward a device that can be reached, with nothing before it and a tracker free, is stamped, sent and
tracked. -/
theorem sendPacket_of_free {p : Packet} {t : Track} {port : Nat} (hhome : homePort s (hDst p) = some port)
    (hlink : (vfPort s port).up = true) (hconfigured : s.fab.configured = true)
    (hroute : tget none s.fab.routeNext (hDst p) = none)
    (htracker : trackerFree s (6 + port / 8) (trackRadio s t) = true) (hheld : (pairOf s (hDst p)).held = []) :
    sendPacket s p t = some (
      let x := pairOf s (hDst p)
      setPair (emitPacket s port (stampPacket p x.next x.sync)) (hDst p) { x with
        next := (x.next + 1) % 4294967296, sync := false
        tracks := x.tracks ++ [{ t with seq := x.next, packet := stampPacket p x.next x.sync, first := now s }] }) := by
  simp [sendPacket, hhome, hlink, hconfigured, hroute, htracker, hheld]

theorem sendPacket_of_unreachable {p : Packet} (hhome : homePort s (hDst p) = none) (t : Track) :
    sendPacket s p t = none := by
  simp only [sendPacket, hhome]

@[simp] theorem pairOf_setPair (s : State) (d e : Nat) (v : Pair) :
    pairOf (setPair s d v) e = if e = d then v else pairOf s e := tget_tset ..

/-- The first packet that cannot be sent loses the job of its descriptor. -/
theorem sendRun_of_unreachable {ps : List Packet} (hsome : ps ≠ []) (hlost : ∀ p ∈ ps, homePort s (hDst p) = none)
    (r : FabRun) : sendRun s h r ps = faultJob s h .targetLost := by
  obtain ⟨p, rest, rfl⟩ := List.exists_cons_of_ne_nil hsome
  have hhome : homePort (addRun s h r) (hDst p) = none := hlost p List.mem_cons_self
  simp only [sendRun, List.map_cons, sendAll, sendPacket_of_unreachable hhome]

end Sys2Proof.Machine

namespace Sys2Proof

open Machine

/-- Settles O45: each row starts its descriptor under the next run number once the ring's conditions hold, and the state
of its device decides what becomes of a packet. -/
theorem fabricDescriptorsStart : Obligations.FabricDescriptorsStart := by
  unfold Obligations.FabricDescriptorsStart
  refine ⟨?put, ?get, ?atomic, ?collective, ?busy, ?barrier, ?bad, ?sent, ?unreachable, ?lost⟩
  case put => exact fun h m d bs s hstarts hread => exec_put_of_starts hstarts hread
  case get => exact fun h m d s hstarts hfree => exec_get_of_starts hstarts hfree
  case atomic =>
    exact fun r hr h m d bs s hstarts hopc hfetch hread => exec_atomicRow_of_starts hr hstarts hopc hfetch hread
  case collective =>
    exact fun r hr h m d bs s hstarts hopc hidle hfree hread =>
      exec_collectiveRow_of_starts hr hstarts hopc hidle hfree hread
  case busy => exact fun r hr h d s hbusy => exec_collectiveRow_of_busy hr hbusy
  case barrier => exact fun h m d s hstarts hopc hwaits => exec_barrier_of_starts hstarts hopc hwaits
  case bad =>
    intro r hr h m d s hmap hrun hbarrier hring hidle hbad
    obtain ⟨kind, opc, body, hexec⟩ := exec_fabricRow (d := d) hr hidle
    rw [hexec, fabStart_of_bad hmap hrun hbarrier hring hbad]
  case sent =>
    intro p t port s hhome hlink hconfigured hroute htracker hheld
    refine ⟨_, sendPacket_of_free hhome hlink hconfigured hroute htracker hheld, ?_, rfl, rfl, rfl⟩
    rw [pairOf_setPair, if_pos rfl]
  case unreachable => exact fun p t s hhome => sendPacket_of_unreachable hhome t
  case lost => exact fun h r ps s hsome hlost => sendRun_of_unreachable hsome hlost r

end Sys2Proof
end

section
/-! PROOFS. Arriving packets (R334, R335, R338, R341, R346, R347): the checks that every packet meets, what its SEQ and its
CRC decide, and what applying it does. -/

namespace Sys2Proof.Machine

variable {s : State} {port : Nat} {p : Packet}

/-! ### The checks that every packet meets first (R334, R335, R346) -/

theorem arrive_of_down (hdown : (vfPort s port).up = false) (typ : Nat) (body : State → State) :
    arrive typ port p s body = s := by
  simp [arrive, hdown]

section Link

variable (hup : Up s) (hport : port ≤ 15) (hlink : (vfPort s port).up = true) (typ : Nat) (body : State → State)

include hup hport hlink

/-- On a port that is up the packet meets the checks of its header. -/
theorem arrive_of_link : arrive typ port p s body =
    if !s.fab.configured then vfCount s port 12
    else if headerCrc p.header != fld (wd p.header 3) 31 0 then vfCount s port 0
    else if hType p = 0 || hType p > 11 || hLen p > 4096 || hLen p != p.payload.length then vfCount s port 2
    else if hDst p != s.fab.dev then vfCount s port 3
    else if hType p != typ then s
    else body (counted s port p) := by
  refine if_neg ?_
  simp [hup, hlink, Nat.not_lt.mpr hport]

theorem arrive_of_unconfigured (hconfigured : s.fab.configured = false) :
    arrive typ port p s body = vfCount s port 12 := by
  rw [arrive_of_link hup hport hlink, hconfigured]
  rfl

variable (hconfigured : s.fab.configured = true)

include hconfigured

theorem arrive_of_bad_crc (hcrc : headerCrc p.header ≠ fld (wd p.header 3) 31 0) :
    arrive typ port p s body = vfCount s port 0 := by
  rw [arrive_of_link hup hport hlink, hconfigured]
  simp [hcrc]

variable (hcrc : headerCrc p.header = fld (wd p.header 3) 31 0)

include hcrc

theorem arrive_of_bad_packet (hbad : hType p = 0 ∨ 11 < hType p ∨ 4096 < hLen p) :
    arrive typ port p s body = vfCount s port 2 := by
  rw [arrive_of_link hup hport hlink, hconfigured, hcrc]
  rcases hbad with hbad | hbad | hbad <;> simp [hbad]

theorem arrive_of_misrouted (hfirst : hType p ≠ 0) (hlast : hType p ≤ 11) (hlen : hLen p ≤ 4096)
    (hpayload : hLen p = p.payload.length) (hdst : hDst p ≠ s.fab.dev) :
    arrive typ port p s body = vfCount s port 3 := by
  have hsize : ¬ 4096 < p.payload.length := Nat.not_lt.mpr (hpayload ▸ hlen)
  rw [arrive_of_link hup hport hlink, hconfigured, hcrc, hpayload]
  simp [hfirst, hdst, Nat.not_lt.mpr hlast, hsize]

end Link

/-! ### The rows (R346) -/

/-- The rows of the sequenced packets with their TYPE (R338). -/
noncomputable def sequencedRows : List (Nat × (Nat → Packet → Instr)) :=
  [(1, .putPacket), (2, .getReq), (3, .getData), (4, .atomicPacket), (5, .atomicResp), (8, .barrierArrive),
   (9, .barrierRelease), (10, .coll)]

/-- What becomes of a sequenced packet that passes the checks: it waits for a tracker, behind a packet of its source, or
is looked at by its SEQ. -/
def takeSeq (port : Nat) (p : Packet) (s : State) : State :=
  if !packetTracker s port p then s
  else if packetWaits s (hSrc p) then parkPacket s port p else receiveSeq s port p

section Rows

variable {r : Nat × (Nat → Packet → Instr)} (hr : r ∈ sequencedRows)

include hr

theorem exec_sequencedRow (port : Nat) (p : Packet) (s : State) :
    exec (r.2 port p) s = .next (arrive r.1 port p s (takeSeq port p)) := by
  revert r
  simp only [sequencedRows, List.forall_mem_cons, List.not_mem_nil, IsEmpty.forall_iff, implies_true, and_true]
  and_intros <;> rfl

theorem type_bounds_of_mem_sequencedRows : 0 < r.1 ∧ r.1 ≤ 11 := by
  revert r
  decide

theorem exec_sequencedRow_of_arrives (harrives : PacketArrives s port r.1 p) :
    exec (r.2 port p) s = .next (takeSeq port p (counted s port p)) := by
  obtain ⟨hfirst, hlast⟩ := type_bounds_of_mem_sequencedRows hr
  rw [exec_sequencedRow hr, arrive_of_arrives harrives hfirst hlast]

end Rows

theorem takeSeq_of_no_tracker (htracker : packetTracker s port p = false) : takeSeq port p s = s := by
  simp [takeSeq, htracker]

theorem takeSeq_of_waits (htracker : packetTracker s port p = true) (hwaits : packetWaits s (hSrc p) = true) :
    takeSeq port p s = parkPacket s port p := by
  simp [takeSeq, htracker, hwaits]

theorem takeSeq_of_first (htracker : packetTracker s port p = true) (hwaits : packetWaits s (hSrc p) = false) :
    takeSeq port p s = receiveSeq s port p := by
  simp [takeSeq, htracker, hwaits]

/-! ### SEQ and the payload CRC (R346, R347) -/

/-- The answer to a packet in sequence whose payload has come whole, by what applying it has done. -/
def answerPacket (s : State) (port : Nat) (p : Packet) : Rcv → State
  | .applied u => sendReply (modPair u (hSrc p) fun x => { x with expect := (hSeq p + 1) % 4294967296 }) 6 (hSrc p)
      (hSeq p) 0
  | .drop u => modPair u (hSrc p) fun x => { x with expect := (hSeq p + 1) % 4294967296 }
  | .nack u st => sendReply (if st == .denied then vfCount u port 6 else u) 7 (hSrc p) (hSeq p) (statusCode st)
  | .wait => parkPacket s port p

section Sequence

variable (hsync : hSync p = false)

include hsync

theorem receiveSeq_of_old (hold : diff32 (hSeq p) (pairOf s (hSrc p)).expect < 0) :
    receiveSeq s port p = sendReply (vfCount s port 4) 6 (hSrc p)
      (((pairOf s (hSrc p)).expect + 4294967295) % 4294967296) 0 := by
  have hwrap (n : Nat) : n + 4294967296 - 1 = n + 4294967295 := by omega
  simp only [receiveSeq, hsync, Bool.false_eq_true, if_false, if_pos hold, Nat.reducePow, hwrap]
  rfl

theorem receiveSeq_of_ahead (hahead : 0 < diff32 (hSeq p) (pairOf s (hSrc p)).expect) :
    receiveSeq s port p = sendReply s 7 (hSrc p) (pairOf s (hSrc p)).expect 0 := by
  simp only [receiveSeq, hsync, Bool.false_eq_true, if_false, if_neg (not_lt_of_gt hahead), if_pos hahead]
  rfl

variable (hdue : diff32 (hSeq p) (pairOf s (hSrc p)).expect = 0)

include hdue

theorem receiveSeq_of_bad_payload (hpayload : p.payload ≠ []) (hcrc : crc32c p.payload ≠ p.payloadCrc.toNat) :
    receiveSeq s port p = sendReply (vfCount (modPair s (hSrc p) fun x => { x with
      expect := (pairOf s (hSrc p)).expect }) port 1) 7 (hSrc p) (hSeq p) 8 := by
  have hbad : (!p.payload.isEmpty && crc32c p.payload != p.payloadCrc.toNat) = true := by simp [hpayload, hcrc]
  simp only [receiveSeq, hsync, hdue, Bool.false_eq_true, if_false, lt_irrefl, hbad, if_true]
  rfl

theorem receiveSeq_of_good_payload (hgood : p.payload = [] ∨ crc32c p.payload = p.payloadCrc.toNat) :
    receiveSeq s port p =
      let a := modPair s (hSrc p) fun x => { x with expect := (pairOf s (hSrc p)).expect }
      answerPacket a port p (applyPacket a port p) := by
  have hgood : (!p.payload.isEmpty && crc32c p.payload != p.payloadCrc.toNat) = false := by
    rcases hgood with hgood | hgood <;> simp [hgood]
  simp only [receiveSeq, hsync, hdue, Bool.false_eq_true, if_false, lt_irrefl, hgood]
  cases applyPacket (modPair s (hSrc p) fun x => { x with expect := (pairOf s (hSrc p)).expect }) port p <;> rfl

end Sequence

/-! ### Application (R337, R341, R346) -/

section Map

variable (hjob : hJob p ≠ 0)

include hjob

theorem applyPacket_of_no_map (hmap : mapOf s (hJob p) = none) : applyPacket s port p = .nack s .denied := by
  simp [applyPacket, hjob, hmap]

theorem applyPacket_of_stale {m : ChipMap} (hmap : mapOf s (hJob p) = some m) (hstale : hFgen p ≠ m.fgen) :
    applyPacket s port p = .drop (vfCount s port 5) := by
  simp [applyPacket, hjob, hmap, hstale]

theorem applyPacket_of_wrong_source {m : ChipMap} (hmap : mapOf s (hJob p) = some m) (hfgen : hFgen p = m.fgen)
    (hsource : m.devs.getD (hChip p) 1024 ≠ hSrc p) : applyPacket s port p = .nack s .denied := by
  simp only [applyPacket, hjob, hmap, hfgen, bne_self_eq_false, bne_iff_ne.mpr hsource]
  rfl

end Map

theorem applyData_put {m : ChipMap} {u : State} (htype : hType p = 1)
    (hwrite : devWrite s (mapIssuer s m) .wr (hAddr p) p.payload = .ok u) :
    applyData s port m p = .applied (countFabric u m.sleeve ((mapJob s m).getD 0) p.payload.length) := by
  simp only [applyData, htype, hwrite]

/-- An atomic that returns no old values combines its operands with the bytes of the target. -/
theorem applyData_atomic {m : ChipMap} (htype : hType p = 4) (hfetch : hFetch p = false)
    (hgood : atomicBad (hOpc p) (hAddr p) p.payload.length (hRelaxed p) false = false) (hopc : hOpc p < 9)
    (hcheck : checkRange s (mapIssuer s m) .at (hAddr p) p.payload.length = none)
    (hecc : windowEcc s (hAddr p) p.payload.length = false) :
    applyData s port m p = .applied (countFabric (windowWrite s (hAddr p)
      (atomicBytes (hOpc p) (windowRead s (hAddr p) p.payload.length) p.payload)) m.sleeve ((mapJob s m).getD 0)
        p.payload.length) := by
  simp only [applyData, htype, hfetch, hgood, ge_iff_le, Nat.not_le.mpr hopc, hcheck, hecc, Bool.false_eq_true, if_false]

/-- CAS_64 swaps where the old bytes equal the first half of its operand. -/
theorem atomicBytes_cas64 {old x : List Byte} (hold : old.length = 8) :
    atomicBytes 9 old x = if old = x.take 8 then x.drop 8 else old := by
  simp [atomicBytes, hold]

end Sys2Proof.Machine

namespace Sys2Proof

open Machine

/-- Settles O46: the checks of R346 are met in their order, and the first that fails decides. -/
theorem packetsArrive : Obligations.PacketsArrive := by
  unfold Obligations.PacketsArrive
  refine ⟨?rows, ?sequence, ?noMap, ?map, ?put, ?atomic, ?cas⟩
  case rows =>
    intro r hr port p s
    refine ⟨fun harrives htracker => ?_, fun harrives htracker hwaits => ?_, fun harrives htracker hwaits => ?_,
      fun hdown => ?_, fun hup hport hlink => ⟨fun hconfigured => ?_, fun hconfigured hcrc => ?_,
        fun hconfigured hcrc hbad => ?_, fun hconfigured hcrc htype hlen hpayload hdst => ?_⟩⟩
    · rw [exec_sequencedRow_of_arrives hr harrives, takeSeq_of_no_tracker htracker]
    · rw [exec_sequencedRow_of_arrives hr harrives, takeSeq_of_first htracker hwaits]
    · rw [exec_sequencedRow_of_arrives hr harrives, takeSeq_of_waits htracker hwaits]
    · rw [exec_sequencedRow hr, arrive_of_down hdown]
    · rw [exec_sequencedRow hr, arrive_of_unconfigured hup hport hlink _ _ hconfigured]
    · rw [exec_sequencedRow hr, arrive_of_bad_crc hup hport hlink _ _ hconfigured hcrc]
    · rw [exec_sequencedRow hr, arrive_of_bad_packet hup hport hlink _ _ hconfigured hcrc hbad]
    · obtain ⟨hfirst, hlast⟩ := type_bounds_of_mem_sequencedRows hr
      rw [exec_sequencedRow hr, arrive_of_misrouted hup hport hlink _ _ hconfigured hcrc (htype ▸ hfirst.ne')
        (htype ▸ hlast) hlen hpayload hdst]
  case sequence =>
    intro port p s hsync
    refine ⟨receiveSeq_of_old hsync, receiveSeq_of_ahead hsync, fun hdue => ⟨receiveSeq_of_bad_payload hsync hdue,
      fun hgood => ?_⟩⟩
    have hanswer := receiveSeq_of_good_payload (port := port) hsync hdue hgood
    refine ⟨fun u happly => ?_, fun u happly => ?_, fun u happly => ?_, fun happly => ?_⟩ <;>
      exact hanswer.trans (congrArg (answerPacket _ port p) happly)
  case noMap => exact fun port p s hjob hmap => applyPacket_of_no_map hjob hmap
  case map =>
    exact fun port m p s hjob hmap => ⟨applyPacket_of_stale hjob hmap, applyPacket_of_wrong_source hjob hmap⟩
  case put => exact fun port m p s u htype hwrite => applyData_put htype hwrite
  case atomic =>
    exact fun port m p s htype hfetch hgood hopc hcheck hecc => applyData_atomic htype hfetch hgood hopc hcheck hecc
  case cas => exact fun old x hold _ => atomicBytes_cas64 hold

end Sys2Proof
end

section
/-! PROOFS. Voravatra ports and the FABRIC commands (R331–R337, R347, R350, R351, R355–R357, R466): what a port row does
with its port, a served command whose arguments pass its checks, and the whitening of a line. -/

namespace Sys2Proof.Machine

variable {s t : State} {p : Nat} {c : Cmd}

/-! ### Ports (R332–R334) -/

section Link

variable (hp : p ≤ 15) (hlink : (vfPort s p).up = true)

include hp hlink

theorem exec_linkReplayRequest_of_up (link : Nat) : exec (.linkReplayRequest p link) s = .next (
    let n := failedReplays (vfPort s p) link
    let a := emit (modVfPort (vfCount s p 7) p fun x => { x with replay := some (link, n) }) (.replayRequest (16 + p))
    if 8 ≤ n then vfDown a p else a) :=
  congrArg Host.Outcome.next (if_neg (by simp [hlink, Nat.not_lt.mpr hp]))

/-- A lane whose eye has been low leaves three lanes, or takes down a port that has three. -/
theorem exec_fabricLaneDrop_of_low {lane : Nat} (hlane : lane ≤ 3) (hlow : 10 ≤ tget 0 (vfPort s p).low lane) :
    exec (.fabricLaneDrop p lane) s = .next (
      let a := portEvent (vfCount s p 10) 2 (6 + p / 8) p 1
      if (vfPort s p).degraded then vfDown a p
      else modVfPort a p fun x => { x with degraded := true, dropped := lane, lanes := 15 - 2 ^ lane, low := []
                                           whitening := whiteningSeeds }) :=
  congrArg Host.Outcome.next (if_neg (by simp [hlink, Nat.not_lt.mpr hp, Nat.not_lt.mpr hlane, Nat.not_lt.mpr hlow]))

theorem exec_fabricPortDown_of_up : exec (.fabricPortDown p) s = .next (vfDown s p) :=
  congrArg Host.Outcome.next (if_neg (by simp [hlink, Nat.not_lt.mpr hp]))

end Link

theorem failedReplays_of_replay {x : VfPort} {l n : Nat} (hreplay : x.replay = some (l, n)) (k : Nat) :
    failedReplays x k = if l = k then n + 1 else 0 := by
  simp only [failedReplays, hreplay]

/-- A port that is down on a good die comes up when its retry finds the peer. -/
theorem exec_fabricLinkRetry_of_down (hboot : s.boot.phase = .booted) (hp : p ≤ 15) (hdown : (vfPort s p).up = false)
    (hdie : s.hlt.hr.dies.contains (6 + p / 8) = false) (found : Bool) :
    exec (.fabricLinkRetry p found) s = .next (if found then vfLinkUp s p else s) := by
  change execFabricLinkRetry p found s = _
  cases found
  · simp [execFabricLinkRetry]
  · simp only [execFabricLinkRetry, hboot, hdown, hdie, Nat.not_lt.mpr hp]
    rfl

/-! ### Configuration and routes (R335, R336, R357) -/

section Config

variable (hserved : Served 0x400 7 isMgmt c s) (hwithdrawn : s.hlt.hr.withdrawn = false)
  (hminimal : s.boot.minimal = false) (hgood : fabricConfigBad (argN c) = false)

include hserved hwithdrawn hminimal hgood

theorem exec_fabricConfig_of_no_maps (hmaps : s.fab.maps = []) :
    exec (.fabricConfig c) s = .next (answered 0x400 7 c { endCarries s with fab := { (endCarries s).fab with
      configured := true, dev := argN c 0, fmDev := argN c 1, mgmt := argN c 2, linkMs := argN c 3
      barrierMs := argN c 4, lagNs := argN c 5, eyeMin := argN c 6, pairs := [] } } []) :=
  congrArg Host.Outcome.next (serve_ok hserved (checked_pass (by simp [hwithdrawn, hminimal, hgood, hmaps])))

theorem exec_fabricConfig_of_maps (hmaps : s.fab.maps ≠ []) :
    exec (.fabricConfig c) s = .next (finish s c.src 0x400 .notQuiesced []) :=
  congrArg Host.Outcome.next (serve_fail hserved (checked_fail (by simp [hwithdrawn, hminimal, hgood, hmaps])))

end Config

theorem exec_fabricRouteSet_of_good
    (hserved : Served 0x401 (1 + 2 * Nat.min 1024 (argN c 0)) isFabricUser c s) (hcount : argN c 0 ≤ 1024)
    (hitems : ((routeItems c).any fun i => i.1 > 1023 || (i.2 > 15 && i.2 != 0xFF)) = false) :
    exec (.fabricRouteSet c) s = .next (answered 0x401 (1 + 2 * Nat.min 1024 (argN c 0)) c
      ((routeItems c).foldl (fun s i => setRoute s i.1 (if i.2 = 0xFF then none else some i.2)) s) []) :=
  congrArg Host.Outcome.next (serve_ok hserved (checked_pass (by
    rw [firstFail_cons, hitems]
    simp [Nat.not_lt.mpr hcount])))

/-- A route toward a device with nothing outstanding is set at once. -/
theorem routes_setRoute_of_idle {d : Nat} (htracks : (pairOf s d).tracks = []) (hheld : (pairOf s d).held = [])
    (r : Option Nat) : (setRoute s d r).fab.routes = tset none s.fab.routes d r := by
  have hpair (routes : Tbl (Option Nat)) (next : Tbl (Option (Option Nat))) :
      pairOf { s with fab := { s.fab with routes := routes, routeNext := next } } d = pairOf s d := rfl
  simp [setRoute, routeChange, flushHeld, hpair, htracks, hheld, modPair, setPair]

/-! ### Chip maps and sinks (R337, R351, R352, R357) -/

theorem exec_fabricJobMap_of_installed {bs : List Byte} (hserved : Served 0x402 5 isFabricUser c s)
    (hsome : 1 ≤ argN c 2) (hcount : argN c 2 ≤ 1024)
    (hread : readArg s (partyOf c.src) c.hostData (arg c 4) (8 * argN c 2) = .ok bs)
    (hinstall : installMap s (argN c 0) (argN c 1) (argN c 3) ((wordsOf (argN c 2) bs).map (·.toNat)) false = .ok t []) :
    exec (.fabricJobMap c) s = .next (answered 0x402 5 c t []) := by
  refine congrArg Host.Outcome.next (serve_ok hserved ((checked_pass ?_).trans ?_))
  · simp [Nat.not_lt.mpr hcount, (Nat.pos_iff_ne_zero.mp hsome)]
  · rw [hread]
    exact hinstall

theorem exec_fabricSink_of_installed {hd bs : List Byte} (hserved : Served 0x403 4 isFabricUser c s)
    (hsome : 1 ≤ leNat hd) (hcount : leNat hd ≤ 1024)
    (hhead : readArg s (partyOf c.src) c.hostData (arg c 3) 8 = .ok hd)
    (hread : readArg s (partyOf c.src) c.hostData (arg c 3) (8 * (leNat hd + 1)) = .ok bs)
    (hinstall : installMap s (argN c 0) (argN c 1) (argN c 2) ((wordsOf (leNat hd) (bs.drop 8)).map (·.toNat)) true =
      .ok t []) : exec (.fabricSink c) s = .next (answered 0x403 4 c t []) := by
  refine congrArg Host.Outcome.next (serve_ok hserved ?_)
  rw [hhead]
  refine (checked_pass ?_).trans ?_
  · simp [Nat.not_lt.mpr hcount, (Nat.pos_iff_ne_zero.mp hsome)]
  · rw [hread]
    exact hinstall

/-- A map with a free number, of devices that exist, takes the lowest FREE handle. -/
theorem installMap_of_good {n g k h : Nat} {devs : List Nat} (hfirst : 1 ≤ n) (hlast : n < 16777216) (hg : g ≤ 255)
    (hnew : mapOf s n = none) (hsome : devs ≠ []) (hcount : devs.length ≤ 1024) (hdevs : ∀ d ∈ devs, d ≤ 1023)
    (hname : NamesSleeve s k) (hfree : freeHandle s = some h) (sink : Bool) :
    installMap s n g k devs sink = .ok (
      let a := modJob s h fun j => { j with held := false }
      { a with fab := { a.fab with maps := a.fab.maps ++
        [{ num := n, fgen := g, sleeve := k, devs := devs, handle := h, sink := sink }] } }) [] := by
  obtain ⟨hk, hk63, hpresent⟩ := hname
  refine (checked_pass ?_).trans ?_
  · simpa [Nat.pos_iff_ne_zero.mp hfirst, hlast, Nat.not_lt.mpr hg, hnew, hsome, Nat.not_lt.mpr hcount, hk,
      Nat.not_lt.mpr hk63, hpresent] using hdevs
  · rw [hfree]

section Teardown

variable {m : ChipMap} (hserved : Served 0x404 3 isFabricUser c s) (hmap : mapOf s (argN c 0) = some m)
  (hfgen : argN c 1 ≤ 255) (hstatus : argN c 2 ≤ 14)

include hserved hmap hfgen hstatus

/-- A map whose handle holds no job is taken off. -/
theorem exec_fabricTeardown_of_no_job (hjob : mapJob s m = none) :
    exec (.fabricTeardown c) s = .next (answered 0x404 3 c { s with fab := { s.fab with
      maps := s.fab.maps.filter (·.num != argN c 0) } } []) := by
  refine congrArg Host.Outcome.next (serve_ok hserved ?_)
  simp only [hmap, hjob]
  exact checked_pass (by simp [Nat.not_lt.mpr hfgen, Nat.not_lt.mpr hstatus])

/-- The job of a map is torn down under the FGEN named. -/
theorem exec_fabricTeardown_of_job {h : Nat} (hjob : mapJob s m = some h) :
    exec (.fabricTeardown c) s = .next (answered 0x404 3 c
      (beginTeardown (modMap s (argN c 0) fun x => { x with fgen := argN c 1, torn := true }) h (argN c 2) 2) []) := by
  refine congrArg Host.Outcome.next (serve_ok hserved ?_)
  simp only [hmap, hjob]
  exact checked_pass (by simp [Nat.not_lt.mpr hfgen, Nat.not_lt.mpr hstatus])

end Teardown

/-! ### Loss, status and restoring (R333, R347, R350, R355–R357, R466) -/

theorem exec_fabricDeviceLost_of_device (hserved : Served 0x405 1 isFabricUser c s) (hdev : argN c 0 ≤ 1023) :
    exec (.fabricDeviceLost c) s = .next (
      let r := dropTracks s (argN c 0) fun _ => true
      answered 0x405 1 c (flushAll (routeChange (setPair (loseJobs (markLost r.1 (argN c 0)) r.2) (argN c 0) {})
        (argN c 0))) []) :=
  congrArg Host.Outcome.next (serve_ok hserved (checked_pass (by simp [Nat.not_lt.mpr hdev])))

section Status

variable (hserved : Served 0x406 1 isFabricUser c s)

include hserved

theorem exec_fabricStatus_of_device (hdevice : argN c 0 = 0xFF) :
    exec (.fabricStatus c) s = .next (answered 0x406 1 c s ([w64 (vfDeviceReg s), w64 s.fab.maps.length] ++
      s.fab.maps.flatMap (mapWords s))) := by
  refine congrArg Host.Outcome.next (serve_ok hserved ((checked_pass (by simp [hdevice])).trans ?_))
  simp only [hdevice, if_true]
  rfl

theorem exec_fabricStatus_of_port (hp : argN c 0 ≤ 15) :
    exec (.fabricStatus c) s = .next (
      let x := vfPort s (argN c 0)
      answered 0x406 1 c s ([w64 (vfStatusReg s (argN c 0)), w64 (laneEyeReg x.eye), x.rxBytes, x.txBytes] ++
        pack32 ((List.range 13).map fun i => eventReg (tget {} x.ctrs i)) ++
          [w64 s.fab.maps.length] ++ s.fab.maps.flatMap (mapWords s))) := by
  have hport : argN c 0 ≠ 0xFF := by omega
  refine congrArg Host.Outcome.next (serve_ok hserved ((checked_pass (by simp [Nat.not_lt.mpr hp])).trans ?_))
  simp only [hport, if_false]

end Status

/-- A port that is up trains again on four lanes; one that is down waits for its retry. -/
theorem exec_fabricPortRestore_of_port (hserved : Served 0x407 1 isFabricUser c s) (hp : argN c 0 ≤ 15) :
    exec (.fabricPortRestore c) s = .next (answered 0x407 1 c
      (if (vfPort s (argN c 0)).up then vfLinkUp s (argN c 0) else s) []) :=
  congrArg Host.Outcome.next (serve_ok hserved (checked_pass (by simp [Nat.not_lt.mpr hp])))

/-! ### Whitening (R331) -/

/-- The receiver runs the transmitter's sequence, which cancels bit by bit. -/
theorem whiten_whiten (r : BitVec 31) (bits : List Bool) : whiten r (whiten r bits) = bits := by
  induction bits generalizing r with
  | nil => rfl
  | cons b bits ih => simp [whiten, ih]

end Sys2Proof.Machine

namespace Sys2Proof

open Machine

/-- Settles O48: the port's link decides each row, the checks of each command pass, and whitening cancels itself. -/
theorem fabricCommandsRun : Obligations.FabricCommandsRun := by
  unfold Obligations.FabricCommandsRun
  refine ⟨?replay, ?failed, ?drop, ?down, ?retry, ?config, ?routes, ?route, ?jobMap, ?sink, ?install, ?teardown, ?lost,
    ?device, ?port, ?restore, whiten_whiten⟩
  case replay => exact fun p l s hp hlink => exec_linkReplayRequest_of_up hp hlink l
  case failed =>
    intro l n x hreplay
    refine ⟨?_, fun k hk => ?_⟩
    · rw [failedReplays_of_replay hreplay, if_pos rfl]
    · rw [failedReplays_of_replay hreplay, if_neg hk.symm]
  case drop => exact fun p lane s hp hlane hlink hlow => exec_fabricLaneDrop_of_low hp hlink hlane hlow
  case down => exact fun p s hp hlink => exec_fabricPortDown_of_up hp hlink
  case retry =>
    exact fun p s hboot hp hdown hdie => ⟨exec_fabricLinkRetry_of_down hboot hp hdown hdie true,
      exec_fabricLinkRetry_of_down hboot hp hdown hdie false⟩
  case config =>
    exact fun c s hserved hwithdrawn hminimal hgood =>
      ⟨exec_fabricConfig_of_no_maps hserved hwithdrawn hminimal hgood,
        exec_fabricConfig_of_maps hserved hwithdrawn hminimal hgood⟩
  case routes => exact fun c s hserved hcount hitems => exec_fabricRouteSet_of_good hserved hcount hitems
  case route =>
    intro d r s htracks hheld
    have hroutes := routes_setRoute_of_idle htracks hheld r
    refine ⟨?_, fun e he => ?_⟩
    · rw [homePort, hroutes, tget_tset_same]
    · rw [homePort, hroutes, tget_tset_other _ _ _ he, homePort]
  case jobMap =>
    exact fun c bs s t hserved hsome hcount hread hinstall =>
      exec_fabricJobMap_of_installed hserved hsome hcount hread hinstall
  case sink =>
    exact fun c hd bs s t hserved hsome hcount hhead hread hinstall =>
      exec_fabricSink_of_installed hserved hsome hcount hhead hread hinstall
  case install =>
    exact fun n g k h devs sink s hfirst hlast hg hnew hsome hcount hdevs hname hfree =>
      installMap_of_good hfirst hlast hg hnew hsome hcount hdevs hname hfree sink
  case teardown =>
    exact fun c m s hserved hmap hfgen hstatus => ⟨exec_fabricTeardown_of_no_job hserved hmap hfgen hstatus,
      fun h => exec_fabricTeardown_of_job hserved hmap hfgen hstatus⟩
  case lost => exact fun c s hserved hdev => exec_fabricDeviceLost_of_device hserved hdev
  case device => exact fun c s hserved hdevice => exec_fabricStatus_of_device hserved hdevice
  case port => exact fun c s hserved hp => exec_fabricStatus_of_port hserved hp
  case restore =>
    intro c s hserved hp
    have hexec := exec_fabricPortRestore_of_port hserved hp
    exact ⟨fun hlink => by rw [hexec, if_pos hlink], fun hdown => by rw [hexec, hdown]; rfl⟩

end Sys2Proof
end

section
/-! PROOFS. A step and the command at the front of the queue (notes/assumptions/1.md), and the sizes of the error paths
(R395, R396): the error queues, the log and the PLDM queue grow only by writes that keep their sizes. -/

namespace Sys2Proof

open Machine

/-- Settles O1: a step takes the front of the queue off and runs it. -/
theorem stepRunsFrontCommand : Obligations.StepRunsFrontCommand := by
  unfold Obligations.StepRunsFrontCommand
  exact fun _ _ _ => rfl

/-- The sizes of R395 and R396, of stores. -/
def Machine.Stores.Bounded (x : Stores) : Prop :=
  (∀ d, (tget [] x.queues d).length ≤ 256) ∧ x.log.length ≤ 32768 ∧ x.pldm.length ≤ 64

theorem recordsBounded_iff (s : State) : RecordsBounded s ↔ (stores s).Bounded := Iff.rfl

/-- Bytes do not touch the error paths; a queue, the log and the PLDM queue are written within their sizes or get no
longer. -/
theorem Machine.Yields.bounded {c x : Stores} (h : Yields c x) (hc : c.Bounded) : x.Bounded := by
  induction h with
  | refl => exact hc
  | byte _ _ _ ih | zero _ _ ih => exact ih
  | queue d es hes _ ih =>
    obtain ⟨hqueues, hlog, hpldm⟩ := ih
    refine ⟨fun d' => ?_, hlog, hpldm⟩
    rw [tget_tset]
    split
    · exact hes.elim id fun hle => hle.trans (hqueues d)
    · exact hqueues d'
  | noQueues _ ih =>
    obtain ⟨-, hlog, hpldm⟩ := ih
    exact ⟨fun _ => Nat.zero_le _, hlog, hpldm⟩
  | log rs hrs _ ih =>
    obtain ⟨hqueues, -, hpldm⟩ := ih
    exact ⟨hqueues, hrs, hpldm⟩
  | pldm ns hns _ ih =>
    obtain ⟨hqueues, hlog, hpldm⟩ := ih
    exact ⟨hqueues, hlog, hns.elim id fun hle => hle.trans hpldm⟩

/-- Settles O60: `yields_step` shows that a step reaches the error paths by bounded writes alone. -/
theorem recordsStayBounded : Obligations.RecordsStayBounded := by
  unfold Obligations.RecordsStayBounded
  intro s t hs hstep
  rw [recordsBounded_iff] at hs ⊢
  exact (yields_step hstep).bounded hs

end Sys2Proof
end

section
/-! PROOFS. Mailboxes, reserved opcodes and Tacor's restart (R363, R370, R371, R374, R375, R377, R378, R389, R431): a
post meets the state of its slot and of Tacor, the first restart of a window leaves jobs and NVM alone, and its end
depends on the image. -/

namespace Sys2Proof.Machine

open Sys2Proof

variable {s : State} {c : Cmd}

/-! ### Mailboxes (R363, R370, R371) -/

section Posts

variable {w i : Nat} (hup : Up s) (hw : w ≤ 64) (hi : i ≤ 14) (hlink : w ≤ 63 → s.mgt.cxlUp = true)
  (hfree : (mslot s w i).state = 0)

include hup hw hi hlink hfree

/-- The post reaches its slot: the dies run, the path exists with its link, and the slot is FREE. -/
theorem post_reaches_slot : (s.boot.phase == .held || !srcExists s (.mailbox w i) || (w ≤ 63 && !s.mgt.cxlUp) ||
    (mslot s w i).state != 0) = false := by
  have hpath : (decide (w ≤ 63) && !s.mgt.cxlUp) = false := by simpa using hlink
  simp [srcExists, hup, hw, hi, hpath, hfree]

theorem exec_mailboxPost_of_room (op : BitVec 16) (tag : W32) (args : List W64) (htacor : s.mgt.tacor = 1)
    (hroom : queued s (partyOf (.mailbox w i)) < 32) :
    exec (.mailboxPost w i op tag args) s = .next (
      let a := setMslot s w i { opcode := op.toNat, tag := tag.toNat, args := args.take 30, state := 2 }
      { a with mgt := { a.mgt with
          accepted := s.mgt.accepted ++ [{ src := .mailbox w i, opcode := op.toNat, raw := now s }] } }) := by
  change execMailboxPost w i op tag args s = _
  simp only [execMailboxPost, post_reaches_slot hup hw hi hlink hfree]
  simp [htacor, Nat.not_le.mpr hroom, setMslot, now]

theorem exec_mailboxPost_of_busy (op : BitVec 16) (tag : W32) (args : List W64)
    (hbusy : s.mgt.tacor ≠ 1 ∨ 32 ≤ queued s (partyOf (.mailbox w i))) :
    exec (.mailboxPost w i op tag args) s = .next (setMslot s w i
      { opcode := op.toNat, tag := tag.toNat, args := args.take 30, status := statusCode .busy, state := 3 }) := by
  change execMailboxPost w i op tag args s = _
  simp only [execMailboxPost, post_reaches_slot hup hw hi hlink hfree]
  simp [hbusy]

end Posts

theorem exec_mailboxPost_of_in_use {w i : Nat} (huse : (mslot s w i).state ≠ 0) (op : BitVec 16) (tag : W32)
    (args : List W64) : exec (.mailboxPost w i op tag args) s = .next s := by
  change execMailboxPost w i op tag args s = _
  simp [execMailboxPost, huse]

/-! ### Reserved opcodes and telemetry (R374, R375) -/

theorem exec_reservedCommand_of_served {op : Nat} (hop : definedOpcode op = false)
    (hserved : Served op 0 (fun _ => true) { c with args := [] } s) :
    exec (.reservedCommand op c) s = .next (finish s c.src op .badField []) := by
  change execReservedCommand op c s = _
  rw [execReservedCommand, if_neg (by simp [hop])]
  exact congrArg Host.Outcome.next (serve_fail (body := fun _ _ => .fail .badField) hserved rfl)

theorem exec_telemetryDrop_of_late {src : Src} {a : Accepted}
    (hfound : s.mgt.accepted.find? (·.src == src) = some a) (hwaiting : a.waiting = false)
    (hclass : isTelemetry a.opcode = true) (hlate : 10 * ticksPerMs ≤ since s a.raw) :
    exec (.telemetryDrop src) s = .next (finish { s with mgt := { s.mgt with
      telemetryDropped := s.mgt.telemetryDropped.add 0x7FFFFFFF 1 } } src a.opcode .busy []) := by
  change execTelemetryDrop src s = _
  simp [execTelemetryDrop, hfound, hwaiting, hclass, Nat.not_lt.mpr hlate]

/-! ### The start of a restart (R377, R378) -/

theorem exec_tacorWatchdog_of_booted (hbooted : s.boot.phase = .booted) (htacor : s.mgt.tacor ≠ 0)
    (cause : RestartCause) : exec (.tacorWatchdog cause) s = .next (startRestart s cause) := by
  change execTacorWatchdog cause s = _
  simp [execTacorWatchdog, hbooted, htacor]

/-- t is s but for the management state. -/
def OnlyMgt (s t : State) : Prop := ∃ m, t = { s with mgt := m }

namespace OnlyMgt

variable {t u : State}

theorem refl (s : State) : OnlyMgt s s := ⟨s.mgt, rfl⟩

theorem trans (hst : OnlyMgt s t) (htu : OnlyMgt t u) : OnlyMgt s u := by
  obtain ⟨_, rfl⟩ := hst
  obtain ⟨m, rfl⟩ := htu
  exact ⟨m, rfl⟩

theorem foldl {β : Type} {f : State → β → State} (hf : ∀ s b, OnlyMgt s (f s b)) (l : List β) (s : State) :
    OnlyMgt s (l.foldl f s) :=
  List.foldlRecOn (motive := OnlyMgt s) l f (refl s) fun _ h b _ => h.trans (hf _ b)

end OnlyMgt

theorem onlyMgt_dicClear (s : State) (t : Nat) : OnlyMgt s (dicClear s t) :=
  (OnlyMgt.foldl (fun _ _ => ⟨_, rfl⟩) (dicCore s t).stack s).trans ⟨_, rfl⟩

/-- The first restart of 10 min: Tacor is RESTARTING, its EID is gone, and neither jobs nor NVM are touched. -/
theorem startRestart_of_first (hfirst : s.mgt.restarts = []) (cause : RestartCause) :
    (startRestart s cause).mgt.tacor = 2 ∧ (startRestart s cause).mgt.eid = none ∧
    (startRestart s cause).mgt.restarts = [now s] ∧ (startRestart s cause).jobs = s.jobs ∧
    (startRestart s cause).nvm = s.nvm := by
  unfold startRestart
  extract_lets times a b d
  have htimes : times = [now s] := by simp [times, hfirst]
  obtain ⟨m, hm⟩ : OnlyMgt a b := .foldl onlyMgt_dicClear _ a
  simp [htimes, d, hm, a, planRepeat]

/-! ### The end of a restart (R377, R378, R431) -/

section Restarts

variable (hrestart : s.mgt.tacor = 2)

include hrestart

theorem exec_tacorRestartDone_of_ok (flashOk : Bool) :
    exec (.tacorRestartDone true flashOk) s = .next (postEvent (releaseRestartHolds (readJournal
      (tacorBack { s with mgt := { s.mgt with tacor := 1 } }))) 4 0 0) := by
  change execTacorRestartDone true flashOk s = _
  simp [execTacorRestartDone, hrestart]

/-- An image that the flash cannot replace resets the device. -/
theorem exec_tacorRestartDone_of_lost {flashOk : Bool} (hlost : flashOk = false ∨ flashMatches s = false) :
    exec (.tacorRestartDone false flashOk) s = .next (deviceReset s (some 5)) := by
  have hflash : (flashOk && flashMatches s) = false := by rwa [Bool.and_eq_false_iff]
  change execTacorRestartDone false flashOk s = _
  simp [execTacorRestartDone, hrestart, hflash]

theorem exec_tacorRestartDone_of_reload (hmatch : flashMatches s = true) :
    exec (.tacorRestartDone false true) s = .next (postEvent (releaseRestartHolds (readJournal (tacorBack
      (let a := physWrite s (memKey 4 (6 * 2 ^ 20)) (secOf (s.boot.flash.getD []) 2)
       { a with mgt := { a.mgt with tacor := 1 } })))) 4 0 0) := by
  change execTacorRestartDone false true s = _
  simp [execTacorRestartDone, hrestart, hmatch]

theorem exec_tacorRestartLimit_of_late (hlate : 10 * ticksPerS ≤ since s s.mgt.restartAt) :
    exec .tacorRestartLimit s = .next (deviceReset s (some 5)) := by
  change execTacorRestartLimit s = _
  simp [execTacorRestartLimit, hrestart, Nat.not_lt.mpr hlate]

end Restarts

theorem exec_tacorRestartLimit_of_early (hearly : since s s.mgt.restartAt < 10 * ticksPerS) :
    exec .tacorRestartLimit s = .next s := by
  change execTacorRestartLimit s = _
  simp [execTacorRestartLimit, hearly]

/-! ### Status (R389, R466) -/

theorem exec_mgmtStatus_of_served (hserved : Served 0x000 0 isMgmtRadio c s) :
    let f := Config.freeWord 3
    let n := s.freeCount
    exec (.mgmtStatus c) s = .next (answered 0x000 0 c { s with freeCount := n + 4 } ([w64 (statusReg s), 67] ++
      ([Party.manager, .bmc, .fabric, .radio] ++ (List.range 63).map fun i => Party.tenant (i + 1)).map
        (fun p => w64 (queuedWith s c.src p)) ++
      [f n, f (n + 1), f (n + 2), f (n + 3), w64 (ctrReg s.mgt.telemetryDropped)])) :=
  congrArg Host.Outcome.next (serve_ok hserved rfl)

theorem exec_telemetryRead_of_served (hserved : Served 0x007 0 isMgmt c s) :
    exec (.telemetryRead c) s = .next (answered 0x007 0 c s ((List.range 8).map (fun d => w64 (diePwr s d).tj) ++
      [w64 (powerMw s)] ++ (List.range 8).map (dieEnergy s))) :=
  congrArg Host.Outcome.next (serve_ok hserved rfl)

end Sys2Proof.Machine

namespace Sys2Proof

open Machine

/-- Settles O50: the slot, Tacor's state and the image decide each row. -/
theorem tacorRuns : Obligations.TacorRuns := by
  unfold Obligations.TacorRuns
  refine ⟨?post, ?inUse, ?reserved, ?late, ?watchdog, ?first, ?done, ?reload, ?lost, ?status, ?telemetry⟩
  case post =>
    exact fun w i op tag args s hup hw hi hlink hfree =>
      ⟨exec_mailboxPost_of_room hup hw hi hlink hfree op tag args,
        exec_mailboxPost_of_busy hup hw hi hlink hfree op tag args⟩
  case inUse => exact fun w i op tag args s huse => exec_mailboxPost_of_in_use huse op tag args
  case reserved => exact fun op c s hop hserved => exec_reservedCommand_of_served hop hserved
  case late =>
    exact fun src a s hfound hwaiting hclass hlate => exec_telemetryDrop_of_late hfound hwaiting hclass hlate
  case watchdog => exact fun cause s hbooted htacor => exec_tacorWatchdog_of_booted hbooted htacor cause
  case first => exact fun cause s hfirst => startRestart_of_first hfirst cause
  case done =>
    exact fun flashOk s hrestart => ⟨exec_tacorRestartDone_of_ok hrestart flashOk,
      exec_tacorRestartDone_of_lost hrestart (.inl rfl), exec_tacorRestartLimit_of_late hrestart,
      exec_tacorRestartLimit_of_early⟩
  case reload => exact fun s hrestart hmatch => exec_tacorRestartDone_of_reload hrestart hmatch
  case lost => exact fun flashOk s hrestart hmatch => exec_tacorRestartDone_of_lost hrestart (.inr hmatch)
  case status => exact fun c s hserved => exec_mgmtStatus_of_served hserved
  case telemetry => exact fun c s hserved => exec_telemetryRead_of_served hserved

end Sys2Proof
end

section
/-! PROOFS. Escalation and the HEALTH commands (R397, R404, R405, R407, R409, R410, R413, R415, R417–R419, R466): the
counts and the clock decide a row, and the checks of each command pass. -/

namespace Sys2Proof.Machine

open Sys2Proof

variable {s t : State} {c : Cmd}

/-! ### Escalation (R404, R405) -/

theorem exec_engineResetThreshold_of_third {u : Nat} (hu : u < 124) (hthird : 3 ≤ resetsWin s u) :
    exec (.engineResetThreshold u) s = .next (selfFence s u .unconfirmed 2) := by
  change execEngineResetThreshold u s = _
  simp [execEngineResetThreshold, Nat.not_le.mpr hu, Nat.not_lt.mpr hthird]

theorem exec_engineResetThreshold_of_few {u : Nat} (hfew : resetsWin s u < 3) :
    exec (.engineResetThreshold u) s = .next s := by
  change execEngineResetThreshold u s = _
  simp [execEngineResetThreshold, hfew]

/-- Function 0 exists on every compute die; its fence takes the die. -/
theorem exec_functionResetThreshold_of_second {d : Nat} (hd : d < 4) (hsecond : 2 ≤ (functionResets s d 0).length)
    (hopen : s.hlt.funcFenced.contains (d * 4) = false) :
    exec (.functionResetThreshold d 0) s = .next (dieFault (raise { s with hlt := { s.hlt with
        funcFenced := s.hlt.funcFenced ++ [d * 4 + 0] } }
      { code := 0x023, severity := 4, die := d, func := 0 }) d 0x023) := by
  have hexists : functionExists d 0 = true := by simp [functionExists, hd]
  have hcompute : ¬((decide (d = 4) || decide (d = 5)) = true) := by
    simp only [Bool.or_eq_true, decide_eq_true_eq]
    omega
  change execFunctionResetThreshold d 0 s = _
  rw [execFunctionResetThreshold, if_neg (by simpa [hexists, Nat.not_lt.mpr hsecond] using hopen)]
  exact congrArg Host.Outcome.next ((if_neg (by decide)).trans (if_neg hcompute))

/-! ### The score, WITHDRAWN and the marks (R407, R409, R415, R419) -/

theorem exec_healthScoreUpdate_of_running (htacor : s.mgt.tacor = 1) :
    exec .healthScoreUpdate s = .next (refreshHealth s) := by
  change execHealthScoreUpdate s = _
  simp [execHealthScoreUpdate, htacor]

theorem exec_withdrawnEvaluation_of_four (htacor : s.mgt.tacor = 1) (hopen : s.hlt.evaluated = false)
    (hcounted : ((currentEntry s).any (·.counted)) = true) (hfour : 4 ≤ countedBoots s)
    (hadmitted : s.hlt.hr.withdrawn = false)
    (hdue : (currentEntry s).any (·.stamp.isSome) = true ∨ 60 * ticksPerS ≤ since s s.hlt.runningAt) :
    exec .withdrawnEvaluation s = .next (
      let a := { s with hlt := { s.hlt with evaluated := true } }
      raise (setRec a { s.hlt.hr with withdrawn := true }) { code := 0x042, severity := 5, d0 := countedBoots a }) := by
  have hdue : ((currentEntry s).any (·.stamp.isSome) || decide (60 * ticksPerS ≤ since s s.hlt.runningAt)) = true := by
    simpa using hdue
  have hstart : ¬((s.mgt.tacor != 1 || s.hlt.evaluated ||
      !((currentEntry s).any (·.stamp.isSome) || decide (60 * ticksPerS ≤ since s s.hlt.runningAt))) = true) := by
    simp [htacor, hopen, hdue]
  have hcount : ¬((!((currentEntry s).any (·.counted)) || decide (countedBoots s < 4) ||
      s.hlt.hr.withdrawn) = true) := by
    simp [hcounted, Nat.not_lt.mpr hfour, hadmitted]
  exact congrArg Host.Outcome.next ((if_neg hstart).trans (if_neg hcount))

theorem exec_cleanMarkExpiry_of_late {n : Nat} (hmark : s.hlt.shutdownAt = some n)
    (hlate : 60 * ticksPerS ≤ since s n) :
    exec .cleanMarkExpiry s = .next (setRec { s with hlt :=
      { s.hlt with shutdownAt := none } } { s.hlt.hr with clean := false }) := by
  change execCleanMarkExpiry s = _
  simp [execCleanMarkExpiry, hmark, hlate]

section DeferredResets

variable {n : Nat} (hreset : s.hlt.resetAt = some n)

include hreset

theorem exec_deferredDeviceReset_of_due (hdue : 10 * ticksPerMs ≤ since s n) :
    exec .deferredDeviceReset s = .next (deviceReset s none) := by
  change execDeferredDeviceReset s = _
  simp [execDeferredDeviceReset, hreset, hdue]

theorem exec_deferredDeviceReset_of_early (hearly : since s n < 10 * ticksPerMs) :
    exec .deferredDeviceReset s = .next s := by
  change execDeferredDeviceReset s = _
  simp [execDeferredDeviceReset, hreset, Nat.not_le.mpr hearly]

end DeferredResets

/-! ### Status and log (R419, R466) -/

theorem exec_healthStatus_of_served (hserved : Served 0x480 0 isMgmtRadio c s) :
    let marked := (List.range 124).filter fun u => (unitSt s u).hold != 0
    let es := s.hlt.hr.entries
    exec (.healthStatus c) s = .next (answered 0x480 0 c s ([w64 (healthReg s), w64 (diesReg s)] ++
      (penalties s).map (fun p => w64 (centi p)) ++ [w64 marked.length] ++
      marked.map (fun u => pack 64 [(8, (unitSt s u).hold), (0, u)]) ++ [w64 es.length] ++ es.flatMap fun e =>
        [pack 64 [(32, e.incarnation), (9, b2n e.stamp.isSome), (8, b2n e.counted), (0, e.cause)],
         w64 (e.stamp.getD 0)])) :=
  congrArg Host.Outcome.next (serve_ok hserved rfl)

/-- Records from a number on that the log holds are written at the address. -/
theorem exec_healthLogRead_of_written (hserved : Served 0x481 3 isMgmtRadio c s) (hsome : 1 ≤ argN c 1)
    (hcount : argN c 1 ≤ 64) {rs : List ErrRec}
    (hrs : (s.hlt.log.reverse.dropWhile fun r => r.number != argN c 0).take (argN c 1) = rs) (hfound : rs ≠ [])
    (hwrite : writeArg s (partyOf c.src) (arg c 2) (bytesOf (rs.flatMap (·.words))) = .ok t) :
    exec (.healthLogRead c) s = .next (answered 0x481 3 c t []) := by
  refine congrArg Host.Outcome.next (serve_ok hserved ?_)
  simp only [hrs, hwrite]
  exact checked_pass (by simp [Nat.ne_of_gt hsome, Nat.not_lt.mpr hcount, hfound])

/-! ### Settings (R397, R409, R417, R419) -/

theorem exec_healthConfig_of_good (hserved : Served 0x482 1 isManager c s) (hlow : 5 ≤ argN c 0)
    (hhigh : argN c 0 ≤ 1000) : exec (.healthConfig c) s =
      .next (answered 0x482 1 c { s with hlt := { s.hlt with hangMs := argN c 0 } } []) :=
  congrArg Host.Outcome.next (serve_ok hserved
    (checked_pass (by simp [Nat.not_lt.mpr hlow, Nat.not_lt.mpr hhigh])))

theorem exec_healthClockSet_of_free (hserved : Served 0x483 1 isMgmt c s) (hfree : s.tim.state < 2) :
    exec (.healthClockSet c) s = .next (answered 0x483 1 c (stampEntry { s with hlt := { s.hlt with
      clock := some (argN c 0, now s) } }) []) :=
  congrArg Host.Outcome.next (serve_ok hserved (checked_pass (by simp [Nat.not_le.mpr hfree])))

theorem exec_healthClockSet_of_locked (hserved : Served 0x483 1 isMgmt c s) (hlocked : 2 ≤ s.tim.state) :
    exec (.healthClockSet c) s = .next (finish s c.src 0x483 .notQuiesced []) :=
  congrArg Host.Outcome.next (serve_fail hserved (checked_fail (by simp [hlocked])))

theorem exec_healthSeed_of_read {bs : List Byte} (hserved : Served 0x484 2 isMgmt c s) (hcount : argN c 0 ≤ 512)
    (hread : readArg s (partyOf c.src) c.hostData (arg c 1) (8 * argN c 0) = .ok bs)
    (hgood : ((wordsOf (argN c 0) bs).any fun w => fld w 63 56 > 123 || fld w 54 32 != 0) = false) :
    exec (.healthSeed c) s = .next (answered 0x484 2 c (refreshHealth { s with hlt := { s.hlt with
      seed := wordsOf (argN c 0) bs, seedRaw := now s } }) []) := by
  refine congrArg Host.Outcome.next (serve_ok hserved ((checked_pass (by simp [Nat.not_lt.mpr hcount])).trans ?_))
  simp only [hread]
  exact checked_pass (by rw [hgood]; rfl)

/-- The state in which WITHDRAWN is taken back and no boot entry counts any more (R410). -/
def readmitted (s : State) : State := setRec s { s.hlt.hr with
  withdrawn := false, entries := s.hlt.hr.entries.map fun e => { e with counted := false } }

/-! ### Units and dies (R413, R419) -/

section Inhibit

variable (hopen : s.pwr.inhibit = false)

include hopen

theorem exec_healthUnitConfirm_of_unit (hserved : Served 0x485 1 isMgmt c s) (hu : argN c 0 ≤ 123) :
    exec (.healthUnitConfirm c) s = .next (answered 0x485 1 c (fenceUnit (modUnit s (argN c 0) fun x => { x with
      clearing := false }) (argN c 0) .confirmed 5) []) :=
  congrArg Host.Outcome.next (serve_ok hserved (checked_pass (by simp [Nat.not_lt.mpr hu, hopen])))

/-- A unit that is fenced or held can be cleared. -/
theorem exec_healthUnitClear_of_marked (hserved : Served 0x486 1 isMgmt c s) (hu : argN c 0 ≤ 123)
    (hmarked : (unitSt s (argN c 0)).fence ≠ .none ∨ (unitSt s (argN c 0)).hold ≠ 0) :
    exec (.healthUnitClear c) s = .next (answered 0x486 1 c (modUnit s (argN c 0) fun x => { x with
      clearing := true, clearSince := now s, clearRuns := 0 }) []) := by
  have hunit : ((unitSt s (argN c 0)).fence == .none && (unitSt s (argN c 0)).hold == 0) = false := by
    rw [Bool.and_eq_false_iff, beq_eq_false_iff_ne, beq_eq_false_iff_ne]
    exact hmarked
  exact congrArg Host.Outcome.next (serve_ok hserved (checked_pass (by simp [Nat.not_lt.mpr hu, hunit, hopen])))

theorem exec_healthDieClear_of_die (hserved : Served 0x487 1 isMgmt c s) (hd : argN c 0 ≤ 7) :
    exec (.healthDieClear c) s = .next (answered 0x487 1 c (refreshHealth (setRec s { s.hlt.hr with
      dies := s.hlt.hr.dies.filter (· != argN c 0) })) []) :=
  congrArg Host.Outcome.next (serve_ok hserved (checked_pass (by simp [Nat.not_lt.mpr hd, hopen])))

/-! ### Admission, shutdown and reset (R407, R410, R419) -/

/-- Radio firmware creates sleeve 0 unless the boot was minimal or it stands already (R265). -/
theorem exec_healthReinstate_of_withdrawn (hserved : Served 0x488 0 isMgmt c s)
    (hwithdrawn : s.hlt.hr.withdrawn = true) :
    exec (.healthReinstate c) s = .next (answered 0x488 0 c (refreshHealth (raise
      (if s.boot.radioFw && !s.boot.minimal && !s.boot.sleeve0 then
        radioBoot { readmitted s with boot := { (readmitted s).boot with sleeve0 := true } } else readmitted s)
      { code := 0x043, severity := 0 })) []) := by
  have hboot : (readmitted s).boot = s.boot := by simp [readmitted, setRec, hopen]
  rw [← hboot]
  exact congrArg Host.Outcome.next (serve_ok hserved (checked_pass (by simp [hwithdrawn, hopen])))

theorem exec_healthShutdown_of_served (hserved : Served 0x489 0 isMgmt c s) :
    exec (.healthShutdown c) s = .next (answered 0x489 0 c (writeClean { s with hlt := { s.hlt with
      shutdownAt := some (now s) } }) []) :=
  congrArg Host.Outcome.next (serve_ok hserved (checked_pass (by simp [hopen])))

theorem exec_healthDeviceReset_of_served (hserved : Served 0x48A 0 isMgmt c s) :
    exec (.healthDeviceReset c) s = .next (answered 0x48A 0 c (writeClean { s with hlt :=
      { s.hlt with resetAt := some (now s) } }) []) :=
  congrArg Host.Outcome.next (serve_ok hserved (checked_pass (by simp [hopen])))

end Inhibit

theorem exec_healthDeviceReset_of_inhibit (hserved : Served 0x48A 0 isMgmt c s) (hinhibit : s.pwr.inhibit = true) :
    exec (.healthDeviceReset c) s = .next (finish s c.src 0x48A .busy []) :=
  congrArg Host.Outcome.next (serve_fail hserved (checked_fail (by simp [hinhibit])))

end Sys2Proof.Machine

namespace Sys2Proof

open Machine

/-- Settles O54: counts and clock decide each row, and the checks of each command pass. -/
theorem healthCommandsRun : Obligations.HealthCommandsRun := by
  unfold Obligations.HealthCommandsRun
  refine ⟨?engine, ?function, ?score, ?withdrawn, ?mark, ?deferred, ?status, ?log, ?config, ?clock, ?seed, ?confirm,
    ?clear, ?die, ?reinstate, ?shutdown, ?reset⟩
  case engine => exact fun u s hu => ⟨exec_engineResetThreshold_of_third hu, exec_engineResetThreshold_of_few⟩
  case function => exact fun d s hd hsecond hopen => exec_functionResetThreshold_of_second hd hsecond hopen
  case score => exact fun s htacor => exec_healthScoreUpdate_of_running htacor
  case withdrawn =>
    exact fun s htacor hopen hcounted hfour hadmitted hdue =>
      exec_withdrawnEvaluation_of_four htacor hopen hcounted hfour hadmitted hdue
  case mark => exact fun n s hmark hlate => exec_cleanMarkExpiry_of_late hmark hlate
  case deferred =>
    exact fun n s hreset => ⟨exec_deferredDeviceReset_of_due hreset, exec_deferredDeviceReset_of_early hreset⟩
  case status => exact fun c s hserved => exec_healthStatus_of_served hserved
  case log =>
    exact fun c s t hserved hsome hcount hfound hwrite =>
      exec_healthLogRead_of_written hserved hsome hcount rfl hfound hwrite
  case config => exact fun c s hserved hlow hhigh => exec_healthConfig_of_good hserved hlow hhigh
  case clock =>
    exact fun c s hserved => ⟨exec_healthClockSet_of_free hserved, exec_healthClockSet_of_locked hserved⟩
  case seed =>
    exact fun c bs s hserved hcount hread hgood => exec_healthSeed_of_read hserved hcount hread hgood
  case confirm => exact fun c s hserved hu hopen => exec_healthUnitConfirm_of_unit hopen hserved hu
  case clear =>
    exact fun c s hserved hu hopen hmarked => exec_healthUnitClear_of_marked hopen hserved hu hmarked
  case die => exact fun c s hserved hd hopen => exec_healthDieClear_of_die hopen hserved hd
  case reinstate =>
    intro c s hserved hwithdrawn hopen
    have hexec := exec_healthReinstate_of_withdrawn hopen hserved hwithdrawn
    refine ⟨fun hnone => ?_, fun hfw hfull hnew => ?_⟩
    · have hstays : ¬((s.boot.radioFw && !s.boot.minimal && !s.boot.sleeve0) = true) := by
        obtain h | h | h := hnone <;> simp [h]
      rw [hexec, if_neg hstays]
      rfl
    · rw [hexec, if_pos (by simp [hfw, hfull, hnew])]
      rfl
  case shutdown => exact fun c s hserved hopen => exec_healthShutdown_of_served hopen hserved
  case reset =>
    exact fun c s hserved => ⟨fun hopen => exec_healthDeviceReset_of_served hopen hserved,
      exec_healthDeviceReset_of_inhibit hserved⟩

end Sys2Proof
end

section
/-! PROOFS. Boot rows (R422, R423, R425, R427, R428, R430, R439, R441): what COLD_BOOT and GO do with the image that is
read, when the flash holds none, how the dies are reached, and the TAP's instructions. -/

namespace Sys2Proof.Machine

open Sys2Proof

variable {s : State}

/-! ### The image check (R425, R427, R428, R430) -/

/-- Nothing is read from a flash that gives nothing. -/
theorem flashRead_nil (s : State) : flashRead s [] = [] := by
  unfold flashRead
  split <;> rfl

theorem flashRead_emit (s : State) (o : Out) (flash : List Byte) : flashRead (emit s o) flash = flashRead s flash := rfl

theorem flashStatus_nil (s : State) : flashStatus s [] = .timeout := by
  simp [flashStatus, flashRead_nil, checkImage]

/-- A flash whose write was interrupted holds no valid image. -/
theorem flashStatus_of_interrupted (hflash : s.boot.flash = some []) (flash : List Byte) :
    flashStatus s flash ≠ .ok := by
  intro hok
  by_cases hcheck : checkImage s (flashRead s flash) = .ok <;> simp [flashStatus, hflash, hcheck] at hok

/-- A device reset interrupts the write that runs. -/
theorem deviceReset_flash_of_update (hupdate : s.boot.update.isSome = true) (cause : Option Nat) :
    (deviceReset s cause).boot.flash = some [] := by
  simp [deviceReset, hupdate]

/-- The two ways to say what a check that passes or fails gives. -/
theorem ite_status_ne_ok {α : Type} (st : Status) (x y : α) :
    (if st != .ok then x else y) = if st = .ok then y else x := by
  by_cases hst : st = .ok <;> simp [hst]

/-! ### COLD_BOOT and GO (R423, R427, R428, R441) -/

theorem exec_coldBoot_of_released (hphase : s.boot.phase = .released) (flash : List Byte) {o : BootObs}
    (hrail : o.coreRailOk = true) :
    let a := bootHealth (bootDomains (emit s (.uart "ROM" 0)))
    let b := emit a (.uart "boot" a.hlt.hr.incarnation)
    let c := emit b (.uart "cause" (((currentEntry b).map (·.cause)).getD 0))
    let d := bootSeams { c with boot := { c.boot with
      config := nextConfig c.nvm, configDefault := (validCopy c.nvm).isNone, types := o.types } } (seamsFailed o)
    let e := emit d (.uart "image" (statusCode (flashStatus d flash)))
    exec (.coldBoot flash o) s = .next (if flashStatus d flash = .ok
      then bootFrom { e with boot := { e.boot with flash := some (flashRead d flash) } } (flashRead d flash) false o
      else { e with boot := { e.boot with
        phase := .waitingImage, stage := 4, request := true, result := statusCode (flashStatus d flash) } }) := by
  change execColdBoot flash o s = _
  rw [execColdBoot, if_neg (by simp [hphase]), if_neg (by simp [hrail])]
  simp only [ite_status_ne_ok, flashRead_emit]

/-- With nothing read from the flash the ROM waits for the host's image. -/
theorem coldBoot_nil_waits (hphase : s.boot.phase = .released) {o : BootObs} (hrail : o.coreRailOk = true) :
    Completes (.coldBoot [] o) s fun t => t.boot.phase = .waitingImage ∧ t.boot.request = true ∧
      t.boot.result = statusCode .timeout := by
  refine ⟨_, exec_coldBoot_of_released hphase [] hrail, ?_⟩
  simp [flashStatus_nil]

theorem exec_bootMboxGo_of_waiting (hphase : s.boot.phase = .waitingImage) (hlink : s.mgt.cxlUp = true)
    (image : List Byte) (o : BootObs) :
    let a := { s with boot := { s.boot with posted := false } }
    let b := image.take s.boot.mboxLen.toNat
    let e := emit a (.uart "image" (statusCode (mboxStatus a b)))
    exec (.bootMboxGo image false o) s = .next (if mboxStatus a b = .ok then bootFrom e b true o
      else { e with boot := { e.boot with
        result := statusCode (mboxStatus a b), rejected := Nat.min 1023 (s.boot.rejected + 1) } }) := by
  change execBootMboxGo image false o s = _
  rw [execBootMboxGo, if_neg (by simp [hphase, hlink]), if_neg Bool.false_ne_true]
  exact congrArg Host.Outcome.next (ite_status_ne_ok ..)

/-! ### Dies (R422) -/

/-- With every seam trained, each die but ED0 is reached over a seam of its own. -/
theorem reachSeam_of_all_trained :
    ∀ d < 8, reachSeam [] d = [some 1, some 3, some 2, some 4, some 7, some 10, none, some 0].getD d none := by
  decide

/-! ### The TAP (R439) -/

section Tap

variable (hrails : s.pins.railsOk = true)

include hrails

/-- While the rails are up the TAP loads its instruction. -/
theorem tap_of_rails (code : Nat) (k : State → State) :
    tap s code k = k { s with boot := { s.boot with jtag := code } } := by
  simp [tap, hrails]

theorem exec_bypass_of_rails :
    exec .bypass s = .next (emit { s with boot := { s.boot with jtag := 0 } } (.jtag 0)) :=
  congrArg Host.Outcome.next (tap_of_rails hrails ..)

theorem exec_idcode_of_rails :
    exec .idcode s = .next (emit { s with boot := { s.boot with jtag := 1 } } (.jtag idcodeWord)) :=
  congrArg Host.Outcome.next (tap_of_rails hrails ..)

theorem exec_samplePreload_of_rails : exec .samplePreload s = .next (
    let r := takeFree { s with boot := { s.boot with jtag := 2 } } 20
    emit r.2 (.jtag r.1.toNat)) :=
  congrArg Host.Outcome.next (tap_of_rails hrails ..)

theorem exec_extest_of_reset (hreset : s.pins.cardResetN = false) : exec .extest s = .next { s with
    boot := { s.boot with jtag := 3 }, pins := { s.pins with jtagBalls := true } } := by
  change execExtest s = _
  simp [execExtest, hreset, tap_of_rails hrails]

end Tap

/-- Outside a card reset EXTEST is BYPASS. -/
theorem exec_extest_of_running (hreset : s.pins.cardResetN = true) : exec .extest s = exec .bypass s := by
  change execExtest s = execBypass s
  rw [execExtest, if_pos hreset]
  rfl

end Sys2Proof.Machine

namespace Sys2Proof

open Machine

/-- Settles O4: the image that is read decides COLD_BOOT and GO, and the TAP works while the rails are up. -/
theorem bootEventsComplete : Obligations.BootEventsComplete := by
  unfold Obligations.BootEventsComplete
  refine ⟨?cold, ?unread, ?flash, reachSeam_of_all_trained, ?mailbox, ?jtag⟩
  case cold => exact fun flash o s hphase hrail => exec_coldBoot_of_released hphase flash hrail
  case unread => exact fun o s hphase hrail => coldBoot_nil_waits hphase hrail
  case flash =>
    exact fun flash s => ⟨fun hflash => flashStatus_of_interrupted hflash flash,
      fun hupdate => deviceReset_flash_of_update hupdate⟩
  case mailbox => exact fun image o s hphase hlink => exec_bootMboxGo_of_waiting hphase hlink image o
  case jtag =>
    intro s hrails
    refine ⟨⟨_, exec_bypass_of_rails hrails, rfl, rfl, rfl, rfl⟩, ⟨_, exec_idcode_of_rails hrails, rfl, rfl, rfl, rfl⟩,
      ⟨_, exec_samplePreload_of_rails hrails, rfl, rfl, rfl⟩, fun hreset => ?_,
      fun hreset => ⟨_, exec_extest_of_reset hrails hreset, rfl, rfl, rfl⟩⟩
    exact ⟨_, (exec_extest_of_running hreset).trans (exec_bypass_of_rails hrails), rfl, rfl, rfl, rfl⟩

end Sys2Proof
end

section
/-! PROOFS. The boot, image and identity commands (R429, R430, R432–R438, R440, R466): the checks of each command pass,
and where they do not its status is the first that fails. -/

namespace Sys2Proof.Machine

open Sys2Proof

variable {s t : State} {c : Cmd} {bs : List Byte}

/-! ### Status and identity (R434, R435, R440, R466) -/

theorem exec_bootStatus_of_served (hserved : Served 0x500 0 isMgmtRadio c s) :
    exec (.bootStatus c) s = .next (answered 0x500 0 c s ([w64 (bootReg s)] ++ wordsOf 8 (imageHead s) ++
      [w64 s.nvm.otpFloor, w64 (b2n s.boot.configDefault)])) :=
  congrArg Host.Outcome.next (serve_ok hserved rfl)

theorem exec_idRead_of_served (hserved : Served 0x507 0 isMgmtRadio c s) :
    exec (.idRead c) s = .next (answered 0x507 0 c s
      ((List.range 8).flatMap (fun d => [w64 (idDie0 d), w64 (idDie1 s d)]) ++
        [idSerial, w64 idPci, w64 s.hlt.hr.incarnation])) :=
  congrArg Host.Outcome.next (serve_ok hserved rfl)

/-! ### The boot configuration (R432, R433, R440) -/

theorem exec_bootConfigRead_of_written (hserved : Served 0x501 1 isMgmt c s)
    (hwrite : writeArg s (partyOf c.src) (arg c 0) (bytesOf (s.boot.config ++ nextConfig s.nvm)) = .ok t) :
    exec (.bootConfigRead c) s = .next (answered 0x501 1 c t []) :=
  congrArg Host.Outcome.next (serve_ok hserved (by simp only [hwrite]))

section ConfigSet

variable (hserved : Served 0x502 1 isMgmt c s) (hopen : s.pwr.inhibit = false)
  (hread : readSource s c (partyOf c.src) (arg c 0) 0 256 = .ok bs)

include hserved hopen hread

theorem exec_bootConfigSet_of_good (hgood : configBad (wordsOf 32 bs) = false) :
    exec (.bootConfigSet c) s = .next (answered 0x502 1 c { s with
      nvm := writeCopy s.nvm (sealConfig s.nvm (wordsOf 32 bs)) } []) := by
  refine congrArg Host.Outcome.next (serve_ok hserved ((checked_pass (by simp [hopen])).trans ?_))
  simp only [hread]
  exact checked_pass (by simp [hgood])

theorem exec_bootConfigSet_of_bad (hbad : configBad (wordsOf 32 bs) = true) :
    exec (.bootConfigSet c) s = .next (finish s c.src 0x502 .badField []) := by
  refine congrArg Host.Outcome.next (serve_fail hserved ((checked_pass (by simp [hopen])).trans ?_))
  simp only [hread]
  exact checked_fail (by simp [hbad])

end ConfigSet

@[simp] theorem writeCopy_otpFloor (n : Nvm) (x : List Byte) : (writeCopy n x).otpFloor = n.otpFloor := by
  unfold writeCopy
  split
  · split <;> rfl
  · rfl

/-- While copy A is the newest valid one, the record goes over copy B. -/
theorem writeCopy_of_newest_copyA {n : Nvm} (hnewest : validCopy n = some n.copyA) (x : List Byte) :
    writeCopy n x = { n with copyB := x } := by
  simp [writeCopy, hnewest]

/-! ### The flash image (R430, R440) -/

section Update

variable (hserved : Served 0x503 2 isMgmt c s) (hfree : s.boot.update = none) (hmax : argN c 1 ≤ 33554432)
  (hsome : argN c 1 ≠ 0) (hread : readSource s c (partyOf c.src) (arg c 0) 1 (argN c 1) = .ok bs)

include hserved hfree hmax hsome hread

/-- An image that passes its check waits, journalled, for the write of the flash. -/
theorem exec_bootImageUpdate_of_ok (hcheck : checkImage s bs = .ok) :
    exec (.bootImageUpdate c) s = .next (
      let a := journal s c.src 0x503
      { a with boot := { a.boot with update := some (bs, c.src) } }) := by
  refine congrArg Host.Outcome.next (serve_defer
    (f := fun s => { s with boot := { s.boot with update := some (bs, c.src) } }) hserved ?_)
  refine (checked_pass (by simp [hfree, Nat.not_lt.mpr hmax, hsome])).trans ?_
  simp only [hread, hcheck]

theorem exec_bootImageUpdate_of_fail (hcheck : checkImage s bs ≠ .ok) :
    exec (.bootImageUpdate c) s = .next (finish s c.src 0x503 (checkImage s bs) []) := by
  refine congrArg Host.Outcome.next (serve_fail hserved ?_)
  refine (checked_pass (by simp [hfree, Nat.not_lt.mpr hmax, hsome])).trans ?_
  simp only [hread]

end Update

theorem exec_flashWriteDone_of_update {src : Src} (hupdate : s.boot.update = some (bs, src)) (b : Bool) :
    exec (.flashWriteDone b) s = .next (finishLater (
      let a := emit s (.flashWrite 0 bs)
      { a with boot := { a.boot with update := none, flash := if b then some bs else none } }) src
        (if b then .ok else .timeout) []) := by
  change execFlashWriteDone b s = _
  simp only [execFlashWriteDone, hupdate]

section Rollback

variable (hserved : Served 0x504 0 isMgmt c s)

include hserved

theorem exec_bootRollbackCommit_of_served (hopen : s.pwr.inhibit = false) :
    exec (.bootRollbackCommit c) s = .next (answered 0x504 0 c { s with nvm := { s.nvm with
      otpFloor := Nat.max s.nvm.otpFloor (imgSvn (imageHead s)) } } []) :=
  congrArg Host.Outcome.next (serve_ok hserved (checked_pass (by simp [hopen])))

theorem exec_bootRollbackCommit_of_inhibit (hinhibit : s.pwr.inhibit = true) :
    exec (.bootRollbackCommit c) s = .next (finish s c.src 0x504 .busy []) :=
  congrArg Host.Outcome.next (serve_fail hserved (checked_fail (by simp [hinhibit])))

end Rollback

/-! ### Attestation (R436, R437, R438) -/

/-- What ATTEST writes: the report of an index, then its signature. -/
def attestBytes (s : State) (c : Cmd) : List Byte :=
  let report := bytesOf (attestReport s (c.args.take 4) s.nvm.attestIndex)
  report ++ (Config.attestSign s.nvm.attestIndex report ++ List.replicate 5716 0).take 5716

/-- The state in which the next attestation index is spent. -/
def indexSpent (s : State) : State := { s with nvm := { s.nvm with attestIndex := s.nvm.attestIndex + 1 } }

section Attest

variable (hserved : Served 0x505 5 isMgmt c s) (hopen : s.pwr.inhibit = false) (hgood : s.nvm.attestBad = false)
  (hleft : s.nvm.attestIndex < 1099511627776) (hcheck : checkArg s (partyOf c.src) .wr (arg c 4) 5972 = none)

include hserved hopen hgood hleft hcheck

theorem exec_attest_of_written
    (hwrite : writeArg (indexSpent s) (partyOf c.src) (arg c 4) (attestBytes s c) = .ok t) :
    exec (.attest c) s = .next (answered 0x505 5 c t []) := by
  refine congrArg Host.Outcome.next (serve_ok hserved ?_)
  refine (checked_pass (by simp [hopen, hgood, Nat.not_le.mpr hleft])).trans ?_
  simp only [indexSpent, attestBytes] at hwrite
  simp only [hcheck, hwrite]

/-- A write that fails leaves the index spent. -/
theorem exec_attest_of_refused {e : Status}
    (hwrite : writeArg (indexSpent s) (partyOf c.src) (arg c 4) (attestBytes s c) = .error e) :
    exec (.attest c) s = .next (finish (indexSpent s) c.src 0x505 e []) := by
  refine congrArg Host.Outcome.next (serve_failIn hserved ?_)
  refine (checked_pass (by simp [hopen, hgood, Nat.not_le.mpr hleft])).trans ?_
  simp only [indexSpent, attestBytes] at hwrite
  simp only [hcheck, hwrite, indexSpent]

end Attest

section AttestKey

variable (hserved : Served 0x506 1 isMgmt c s)

include hserved

theorem exec_attestKeyRead_of_written (hwrite : writeArg s (partyOf c.src) (arg c 0) Config.attestCert = .ok t) :
    exec (.attestKeyRead c) s = .next (answered 0x506 1 c t []) :=
  congrArg Host.Outcome.next (serve_ok hserved (by simp only [hwrite]))

theorem exec_attestKeyRead_of_refused {e : Status}
    (hwrite : writeArg s (partyOf c.src) (arg c 0) Config.attestCert = .error e) :
    exec (.attestKeyRead c) s = .next (finish s c.src 0x506 e []) :=
  congrArg Host.Outcome.next (serve_fail hserved (by simp only [hwrite]))

end AttestKey

end Sys2Proof.Machine

namespace Sys2Proof

open Machine

/-- Settles O55: the checks of each command pass, or give the status of the first that fails. -/
theorem bootCommandsRun : Obligations.BootCommandsRun := by
  unfold Obligations.BootCommandsRun
  refine ⟨?status, ?configRead, ?configSet, ?copies, ?update, ?flash, ?rollback, ?attest, ?key, ?identity⟩
  case status => exact fun c s hserved => exec_bootStatus_of_served hserved
  case configRead => exact fun c s t hserved hwrite => exec_bootConfigRead_of_written hserved hwrite
  case configSet =>
    exact fun c bs s hserved hopen hread => ⟨exec_bootConfigSet_of_good hserved hopen hread,
      exec_bootConfigSet_of_bad hserved hopen hread⟩
  case copies =>
    refine fun n x => ⟨writeCopy_otpFloor n x, fun hnewest => ?_⟩
    rw [writeCopy_of_newest_copyA hnewest]
    exact ⟨rfl, rfl⟩
  case update =>
    intro c bs s hserved hfree hmax hsome hread
    by_cases hcheck : checkImage s bs = .ok
    · exact ⟨_, exec_bootImageUpdate_of_ok hserved hfree hmax hsome hread hcheck, fun _ => ⟨rfl, rfl, rfl⟩,
        (absurd hcheck ·)⟩
    · exact ⟨_, exec_bootImageUpdate_of_fail hserved hfree hmax hsome hread hcheck, (absurd · hcheck), fun _ => rfl⟩
  case flash => exact fun b bs src s hupdate => exec_flashWriteDone_of_update hupdate b
  case rollback =>
    exact fun c s hserved => ⟨exec_bootRollbackCommit_of_served hserved, exec_bootRollbackCommit_of_inhibit hserved⟩
  case attest =>
    intro c s hserved hopen hgood hleft hcheck report a
    split
    · next t hwrite => exact exec_attest_of_written hserved hopen hgood hleft hcheck hwrite
    · next e hwrite => exact exec_attest_of_refused hserved hopen hgood hleft hcheck hwrite
  case key =>
    intro c s hserved
    split
    · next t hwrite => exact exec_attestKeyRead_of_written hserved hwrite
    · next e hwrite => exact exec_attestKeyRead_of_refused hserved hwrite
  case identity => exact fun c s hserved => exec_idRead_of_served hserved

end Sys2Proof
end
